-- ==== Sys2Proof/Word.lean ====
section
/-!
DEFINITION. Sys2Proof/Word.lean: the register word of BAR0 (spec/00 R7) and its plainest arithmetic.
-/
namespace Sys2Proof

/-- A register word: 32 bits, little-endian (R7). -/
abbrev Word := BitVec 32

/-- One octet of a frame, of host memory or of flash. -/
abbrev Octet := BitVec 8

end Sys2Proof
end

