-- ==== Sys2Proof/Syntax.lean ====
section
/-!
DEFINITION. Sys2Proof/Syntax.lean: the commands and events of the block, the rows of spec/opcode_table.json.
-/
namespace Sys2Proof

/-- Who makes a register access (R383): the PCIe host, the I2C target or the management controller. -/
inductive Requester where
  | mcu | pcie | i2c
  deriving DecidableEq, Repr

/-- What a lane's calibration measures (R252, R253): the means of t_samp - t_ser, t_ser - t_claim, t_raw - t_ser and t_raw -
t_samp in 2^-32 ns, the record's d_loop in 2^-32 ns and transmit share s in 2^-16, the two rms spreads in ps, and the
stepping's nominal of the analog sum in 2^-32 ns. -/
structure LaneCal where
  lane : Nat
  sampSer : Int
  serClaim : Int
  rawSer : Int
  rawSamp : Int
  dLoop : Int
  share : Nat
  spreadTx : Nat
  spreadRx : Nat
  nominal : Int
  deriving DecidableEq, Repr

/-- What an attempt of a load read (R404): the 128 fuse words; fuse words 4 to 35; the calibration record, whether its check passed,
register words (offset, instance, value), CODE_MIN, CODE_MAX and boot code, 25 code-density tables and the certificate chain; whether
the profile slot was read without error. -/
inductive LoadData where
  | fuse (words : List Nat)
  | trim (words : List Nat)
  | record (ok : Bool) (vals : List (Nat × Nat × Nat)) (avs : Nat × Nat × Nat) (tables : List (List Nat)) (cert : List Nat)
  | profile (readOk : Bool)
  deriving DecidableEq, Repr

/-- The SPDM requests of R437. -/
inductive SpdmReq where
  | getVersion | getCapabilities | negotiateAlgorithms | getDigests | getCertificate | challenge
  | getMeasurements (index : Nat)
  | other (code : Nat)
  deriving DecidableEq, Repr

/-- A command descriptor of R363 as the device reads it: IRQ, TAG, LEN, the octets of the data buffer, and the parameters. -/
structure Cmd where
  irq : Bool
  tag : Nat
  len : Nat
  data : List Nat
  p0 : Nat
  p1 : Nat
  p2 : Nat
  deriving DecidableEq, Repr

/-- A TX descriptor of R365 as the device reads it: IRQ, TAG, LEN, PORT and TC of a directed frame, and the octets of the frame. -/
structure TxDesc where
  tag : Nat
  len : Nat
  directed : Option (Nat × Nat)
  octets : List Nat
  deriving DecidableEq, Repr

/-- A BAR0 access that waits for its island (R29): who made it, and whether it writes. -/
structure Access where
  req : Requester
  write : Bool
  deriving DecidableEq, Repr

/-- A tally edge of a lane by its UI index (R79). -/
structure LaneEdge where
  lane : Nat
  ui : Int
  deriving DecidableEq, Repr

/-- A write of PTE_PORT_STATE, and the L1SYNC_STATE that the management firmware reports with it (R135). -/
structure PortStateSet where
  val : Nat
  l1 : Option Nat
  deriving DecidableEq, Repr

/-- An Announce: to a partner of a grant (address, portNumber) or to all, and the template that the management firmware has set since (R116). -/
structure AnnounceOut where
  dest : Option (Nat × Nat)
  tmpl : Option (List Nat)
  deriving DecidableEq, Repr

/-- A port whose link-up conditions hold, and with auto-negotiation whether it resolved full duplex (R242, R246). -/
structure LinkReady where
  port : Nat
  an : Option Bool
  deriving DecidableEq, Repr

/-- What a recalibration ends with: the lane's measurements, and the mean load error of the quad step of a FULL one (R251, R255). -/
structure RecalEnd where
  cal : LaneCal
  load : Int
  deriving DecidableEq, Repr

/-- A supply outside its window: the rail in the order of R497, its voltage in µV and how long in ns (R498). -/
structure SupplyDip where
  rail : Nat
  uv : Nat
  ns : Nat
  deriving DecidableEq, Repr

/-- The levels of PROFSEL and ADDR (R414, R384). -/
structure Straps where
  profsel : Nat
  addr : Bool
  deriving DecidableEq, Repr

/-- The end of a reset's stretch: the SAFE_US, and whether the RESET_N input has been high for 56 SAFE cycles (R394). -/
structure StretchEnd where
  us : Nat
  high : Bool
  deriving DecidableEq, Repr

/-- A step of the firmware start, and the SAFE_US (R425, R426). -/
structure FwStep where
  step : Nat
  us : Nat
  deriving DecidableEq, Repr

/-- What a scrubber's read finds in the stored word, 0 no error, 1 a single-bit one, 2 an uncorrectable one, and whether an access of service
overtakes it (R444). -/
structure ScrubRead where
  err : Nat
  overtaken : Bool
  deriving DecidableEq, Repr

/-- The regulator's answer: whether it acknowledges, and whether its VOUT_MODE declares the linear format (R483, R502). -/
structure AvsReply where
  ack : Bool
  linear : Bool
  deriving DecidableEq, Repr

/-- The JTAG instructions of R508; the others are debug instructions. -/
inductive Jtag where
  | bypass | idcode | sample | extest | clamp | highz | extestPulse | extestTrain
  | debug (code : Nat)
  deriving DecidableEq, Repr

/-- The commands and events of the block: one constructor for each row of spec/opcode_table.json, in its order. -/
inductive Instr where
  /-- REGISTER_WRITE (R12). A register write that has no row of its own takes effect at its reflection point in the owning island. -/
  | registerWrite (req : Requester) (off val size : Nat)
  /-- SELECT_WRITE (R382). A write of a block select register sets the instance or broadcast for later accesses of that requester. -/
  | selectWrite (req : Requester) (off val : Nat)
  /-- CAPTURE_READ (R15). A read of word +0x0 of a multi-word register captures all its words for the following reads. -/
  | captureRead (req : Requester) (off : Nat)
  /-- TIME_WRITE_COMMIT (R15). A write of word +0x8 of a 96-bit time register applies the staged time. -/
  | timeWriteCommit (req : Requester) (off val : Nat)
  /-- BAR0_ACCESS_TIMEOUT (R29). A BAR0 access not answered within 2 µs completes with zero data and raises CROSSING_HANG. -/
  | bar0AccessTimeout (off : Nat) (acc : Access)
  /-- ISLAND_CLOCK_LOSS (R19). An island clock monitor drives clock-valid low on a missing edge or a frequency outside ±2 %. -/
  | islandClockLoss (isl : Nat)
  /-- ISLAND_CLOCK_RETURN (R44). An island's clock-valid returns high and the island resumes, the Last from its kept value. -/
  | islandClockReturn (isl : Nat)
  /-- CROSSING_UP (R24). A crossing comes up after both sides have had clock-valid high for 64 cycles and are released. -/
  | crossingUp (src dst : Nat)
  /-- CROSSING_DELIVER (R22). A handshake crossing delivers a word to the destination island after its latency. -/
  | crossingDeliver (src dst : Nat) (word : Option Nat)
  /-- CROSSING_HANG (R26). A handshake without acknowledge within 1 µs raises the recoverable fault and takes the crossing down. -/
  | crossingHang (src dst : Nat)
  /-- LAST_INCREMENT (R42). Each Last clock cycle adds 1.6 ns with the residue carry and any slew gain to the Last. -/
  | lastIncrement
  /-- STEP_REQUEST (R49). A write of TIM_STEP requests a step of the Last at the next whole microsecond at least 1 µs ahead. -/
  | stepRequest (req : Requester) (hi : Nat)
  /-- LAST_SET_REQUEST (R52). A write of TIM_LAST_SET requests an absolute set of the Last at a step instant. -/
  | lastSetRequest (req : Requester) (hi : Nat)
  /-- SERVO_PHASE_CORRECTION (R48). The servo posts a phase correction that TIME slews or steps by its magnitude. -/
  | servoPhaseCorrection (amount : Int)
  /-- STEP_APPLY (R49). At the step instant the Last, replicas, TDC anchor and copies change together and the step count increments. -/
  | stepApply
  /-- SLEW_REQUEST (R54). A write of TIM_SLEW adds a signed amount to the remaining slew. -/
  | slewRequest (req : Requester) (hi : Nat)
  /-- SLEW_CFG_WRITE (R53). A write of SLEW_PPB recomputes the slew word from the next TIME cycle. -/
  | slewCfgWrite (req : Requester) (val : Nat)
  /-- SLEW_DONE (R53). The remaining slew reaches 0, w_slew returns to 0 and SLEW_DONE raises. -/
  | slewDone
  /-- DOMAIN_ESTIMATE_POST (R55). The servo posts an offset, rate and instant estimate for a domain into TIME. -/
  | domainEstimatePost (domB : Bool) (est : Option (Int × Int × Int))
  /-- DOMAIN_STALE (R58). A domain's estimate age exceeds MAX_AGE_MS, FRESH reads 0 and DOM_STALE raises. -/
  | domainStale (domB : Bool)
  /-- DOMAIN_SWITCH_REQUEST (R63). A write of TIM_CTL whose DOM_REQ names the other domain requests an untimed switch. -/
  | domainSwitchRequest (req : Requester) (val : Nat)
  /-- SWITCH_ARM (R64). A write of TIM_CTL with SWITCH_AT = 1 arms a timed switch at TIM_SWITCH_TIME. -/
  | switchArm (req : Requester) (val : Nat)
  /-- SWITCH_CANCEL (R64). A write of TIM_CTL with SWITCH_AT = 0 or DOM_REQ naming the active domain cancels an armed switch. -/
  | switchCancel (req : Requester) (val : Nat)
  /-- SWITCH_TIME_WRITE (R64). A write of TIM_SWITCH_TIME replaces the instant of an armed switch. -/
  | switchTimeWrite (req : Requester) (hi : Nat)
  /-- TIMED_SWITCH_INSTANT (R64). The Last reaches the armed switch instant and the switch is applied or refused. -/
  | timedSwitchInstant
  /-- DOMAIN_RELEASE (R514). A write of TIM_CTL.DOM_RELEASE ends the domain hold of DPLL0. -/
  | domainRelease (req : Requester) (val : Nat)
  /-- WELT_ENA_WRITE (R60). A change of WELT_ENA freezes the welt or leaves it uninitialised for the next update. -/
  | weltEnaWrite (req : Requester) (val : Nat)
  /-- BLEND_END (R67). The blend time ends and the adopt mode holds, converges or steps the target. -/
  | blendEnd
  /-- CONVERGE_DONE (R67). Convergence brings the target to 0 and CONVERGING clears. -/
  | convergeDone
  /-- TALLY_MEASUREMENT (R78). The tally detector posts a phase measurement and its change every 3.2768 µs. -/
  | tallyMeasurement (n phi : Nat) (u0 : Int)
  /-- CDR_LOCK_ACQUIRE (R81). A lane's CDR acquires lock and the tally valid count restarts. -/
  | cdrLockAcquire (n : Nat)
  /-- CDR_LOCK_LOSS (R81). A lane's CDR loses lock and the tally becomes invalid. -/
  | cdrLockLoss (n : Nat)
  /-- FRAME_RECEIVE (R76). A frame's start arrives at a port's MAC and goes to ingress with its receive timestamp. -/
  | frameReceive (p : Nat) (preempt : Bool) (octets : List Nat) (uDet : Int) (age : Nat) (early : Bool)
  /-- FRAME_END_RECEIVE (R301). A frame's last octet arrives and its FCS, stomp and RX_ERROR status are determined. -/
  | frameEndReceive (f : Nat) (rest : List Nat) (rxError : Bool)
  /-- ALIGNMENT_LOCK (R89). A multi-lane PCS reaches alignment lock and measures the deskew delay D. -/
  | alignmentLock (p d : Nat)
  /-- CAL_CONSTANT_APPLY (R104). A changed timestamp constant takes effect at the next tally edge of the lane. -/
  | calConstantApply (edge : LaneEdge)
  /-- DOMAIN_MAP_WRITE (R109). A write of PTE_DOMx_MAP sets a domain's profile and resets the instances' intervals on a profile change. -/
  | domainMapWrite (req : Requester) (domB : Bool) (val : Nat)
  /-- INTERVAL_WRITE (R138). A write of PTE_INTERVAL takes effect at the instance's next scheduled message, with clamping and load limiting. -/
  | intervalWrite (req : Requester) (val : Nat)
  /-- PORT_STATE_WRITE (R118). The management firmware writes the PTP port state of an instance. -/
  | portStateWrite (req : Requester) (w : PortStateSet)
  /-- PORT_ENABLE_WRITE (R118). A change of PTE_PORT_CFG.ENA disables the instance or sets it to INITIALIZING. -/
  | portEnableWrite (req : Requester) (val : Nat)
  /-- TALLY_INVALID_TIMEOUT (R120). The timing lane's tally stays invalid for 100 ms and the instance is forced FAULTY. -/
  | tallyInvalidTimeout (p : Nat)
  /-- SYNC_TRANSMIT (R122). A MASTER instance sends a Sync at its scheduled staggered instant. -/
  | syncTransmit (inst : Nat) (dest : Option (Nat × Nat))
  /-- ANNOUNCE_TRANSMIT (R122). A MASTER instance sends an Announce from its template at its scheduled instant. -/
  | announceTransmit (inst : Nat) (out : AnnounceOut)
  /-- PDELAY_REQ_TRANSMIT (R122). A P2P instance sends a Pdelay_Req at its scheduled instant. -/
  | pdelayReqTransmit (inst : Nat)
  /-- DELAY_REQ_TRANSMIT (R122). A SLAVE or UNCALIBRATED instance sends a Delay_Req at a randomly drawn instant. -/
  | delayReqTransmit (inst : Nat)
  /-- TX_TIME_RETURN (R93). The transmit time of an engine-originated frame returns to the protocol engine. -/
  | txTimeReturn (port back : Nat) (uIns : Int)
  /-- FOLLOW_UP_TRANSMIT (R117). The engine sends a two-step Follow_Up or Pdelay_Resp_Follow_Up carrying the returned transmit time. -/
  | followUpTransmit (inst : Nat)
  /-- SYNC_RECEIVE (R129). A Sync received on a slave instance forms a raw offset sample for the servo queue. -/
  | syncReceive (f : Nat)
  /-- FOLLOW_UP_RECEIVE (R116). A Follow_Up is matched to its Sync, or to a forwarded Sync's correlation entry. -/
  | followUpReceive (f : Nat)
  /-- DELAY_REQ_RECEIVE (R137). A Delay_Req received in MASTER is answered with a Delay_Resp or policed. -/
  | delayReqReceive (f : Nat)
  /-- DELAY_RESP_RECEIVE (R125). A Delay_Resp is matched to its Delay_Req and a path delay is formed and filtered. -/
  | delayRespReceive (f : Nat)
  /-- DELAY_REQ_TIMEOUT (R125). A Delay_Req without Delay_Resp past its limit is dropped and counted. -/
  | delayReqTimeout (inst : Nat)
  /-- PDELAY_REQ_RECEIVE (R116). A received Pdelay_Req is answered with a Pdelay_Resp in hardware. -/
  | pdelayReqReceive (f : Nat)
  /-- PDELAY_RESP_RECEIVE (R126). A Pdelay_Resp or its Follow_Up completes a P2P exchange and forms the link delay. -/
  | pdelayRespReceive (f : Nat)
  /-- GENERAL_MESSAGE_RECEIVE (R141). An Announce, Signaling or Management message goes to the management firmware under policing. -/
  | generalMessageReceive (f : Nat)
  /-- TRANSPARENT_FORWARD (R123). A forwarded event message receives residence insertion or a correlation entry. -/
  | transparentForward (f : Nat)
  /-- FUP_ENTRY_TIMEOUT (R124). A correlation entry older than FUP_TIMEOUT_MS is freed. -/
  | fupEntryTimeout
  /-- SYNC_TIMEOUT (R131). A slave instance receives no Sync for its receipt limit and its samples stop. -/
  | syncTimeout (inst : Nat)
  /-- UNICAST_REQUEST (R139). The firmware grants or denies a REQUEST_UNICAST_TRANSMISSION TLV. -/
  | unicastRequest (inst addr pid mtype : Nat) (log : Int) (dur : Nat)
  /-- UNICAST_CANCEL (R140). A CANCEL ends a grant, is acknowledged and returns its units. -/
  | unicastCancel (inst addr pid mtype : Nat)
  /-- GRANT_EXPIRY (R140). A unicast grant reaches its expiry instant and its units return. -/
  | grantExpiry (inst : Nat)
  /-- CANDIDATE_PHASE_SAMPLE (R147). A reference candidate receives a phase sample and its raw phase is computed. -/
  | candidatePhaseSample (c : Nat) (tm val : Int)
  /-- CANDIDATE_ACTIVITY_LOSS (R148). A candidate's activity limit expires and it becomes FAILED. -/
  | candidateActivityLoss (c : Nat)
  /-- FREQ_WINDOW_CLOSE (R149). A candidate's frequency window closes and yields a frequency result. -/
  | freqWindowClose (c : Nat)
  /-- WAIT_TO_RESTORE_EXPIRY (R155). A better entry's wait-to-restore time ends and the DPLL changes to it. -/
  | waitToRestoreExpiry (d : Nat)
  /-- PRIO_TABLE_COMMIT (R153). A write of REF_COMMIT puts a DPLL's pending priority table in force. -/
  | prioTableCommit (req : Requester) (val : Nat)
  /-- DPLL_MODE_WRITE (R162). A write of REF_DPLL_CFG.MODE moves a DPLL to OPEN, FOLLOWING or closed-loop operation. -/
  | dpllModeWrite (req : Requester) (d val : Nat)
  /-- DPLL_HOLDOVER_REQUEST (R162). A write of HO_REQ sends a DPLL into or out of HOLDOVER. -/
  | dpllHoldoverRequest (req : Requester) (d val : Nat)
  /-- DPLL_FORCE (R156). A write of FORCE_ENA forces or releases a DPLL's candidate. -/
  | dpllForce (req : Requester) (d val : Nat)
  /-- DPLL_REALIGN (R167). A write of REALIGN removes the build-out offset by slew or step. -/
  | dpllRealign (req : Requester) (d val : Nat)
  /-- REALIGN_DONE (R167). The build-out offset reaches 0 and REALIGN_DONE raises. -/
  | realignDone (d : Nat)
  /-- DPLL_LOOP_UPDATE (R159). A DPLL updates its PI loop filter on a phase sample and sets its control value. -/
  | dpllLoopUpdate (d : Nat)
  /-- HOLDOVER_AVG_UPDATE (R168). Once per Last second a LOCKED DPLL updates its holdover average. -/
  | holdoverAvgUpdate (d : Nat)
  /-- HOLDOVER_W_UPDATE (R169). Once per Last second a DPLL in HOLDOVER applies the ageing term to w. -/
  | holdoverWUpdate (d : Nat)
  /-- HOLDOVER_VALID (R168). A DPLL has been LOCKED for HO_MIN_S and HO_VALID becomes 1. -/
  | holdoverValid (d : Nat)
  /-- OL_FREQ_WRITE (R170). An open-loop frequency write sets w, coalescing within 1 ms. -/
  | olFreqWrite (req : Requester) (d hi : Nat)
  /-- OL_PHASE_WRITE (R170). An open-loop phase write adds a slewed correction, coalescing within 1 ms. -/
  | olPhaseWrite (req : Requester) (d hi : Nat)
  /-- OL_WRITE_APPLY (R170). A held open-loop write is applied after its 1 ms spacing. -/
  | olWriteApply (d : Nat) (isPhase : Bool)
  /-- HOST_PHASE_WRITE (R146). A write of REF_HOST_PHASE posts a HOSTSTEER sample. -/
  | hostPhaseWrite (req : Requester) (hi : Nat)
  /-- XO_CORR_WRITE (R172). A write of REF_XO_CORR +0x4 applies the oscillator correction and restarts t_c. -/
  | xoCorrWrite (req : Requester) (hi : Nat)
  /-- XO_STABILITY_SAMPLE (R173). Every 10 s the stability test takes a frequency sample and may set WARM. -/
  | xoStabilitySample (xin : Option Int)
  /-- OCXO_WARM_PIN (R173). The OCXO_WARM pin changes level and WARM follows when the pin is used. -/
  | ocxoWarmPin (level : Bool)
  /-- CAND_CFG_WRITE (R150). A change of ENA, ALIGN or MDIV in REF_CAND_CFG restarts the candidate at FAILED. -/
  | candCfgWrite (req : Requester) (c val : Nat)
  /-- CAND_PERIOD_WRITE (R143). A write of REF_CAND_PERIOD +0x8 restarts the candidate and validates its period. -/
  | candPeriodWrite (req : Requester) (c hi : Nat)
  /-- SYNCE_BIND_WRITE (R144). A change of a SYNCE binding restarts that candidate at FAILED. -/
  | synceBindWrite (req : Requester) (val : Nat)
  /-- APLL_LOCK (R178). An APLL acquires lock and waiting outputs, quads and tallies resume. -/
  | apllLock (j us : Nat)
  /-- APLL_UNLOCK (R187). An APLL loses lock with the effects and fault class of its row. -/
  | apllUnlock (j : Nat)
  /-- SYN_COMMIT (R184). A write of SYN_COMMIT checks and applies pending DCO, APLL and output settings. -/
  | synCommit (req : Requester) (val : Nat)
  /-- OUTPUT_CHANGE_APPLY (R185). A committed output change takes effect at the output's next cycle boundary. -/
  | outputChangeApply (n : Nat)
  /-- OUTPUT_START (R190). A START write starts, arms or re-arms an output. -/
  | outputStart (req : Requester) (n val : Nat)
  /-- OUTPUT_START_INSTANT (R190). An armed output reaches its start instant and starts. -/
  | outputStartInstant (n : Nat)
  /-- OUTPUT_STOP (R189). A STOP write stops an output after its current active phase. -/
  | outputStop (req : Requester) (n val : Nat)
  /-- OUTPUT_STOP_COMPLETE (R189). An output completes its last active phase and holds the inactive level. -/
  | outputStopComplete (n : Nat)
  /-- OUTPUT_REALIGN (R193). A REALIGN write stops and restarts an output on its epoch grid. -/
  | outputRealign (req : Requester) (n val : Nat)
  /-- ALIGN_DONE (R193). An output and its residual are placed and ALIGN_DONE raises. -/
  | alignDone (n : Nat) (eps : Int)
  /-- TOD_OUT_MESSAGE (R196). DELAY_MS after a PPS edge TOD_OUT starts the message labelling it. -/
  | todOutMessage
  /-- TOD_IN_MESSAGE (R197). A ToD message received at TOD_IN is checked and paired with a PPS edge. -/
  | todInMessage (octets : List Nat)
  /-- TOD_UNPAIRED (R197). A message's pairing window ends without an edge and it is discarded. -/
  | todUnpaired
  /-- TDC_EDGE_MEASURE (R208). A channel measures a passed edge into the Last and queues a result record. -/
  | tdcEdgeMeasure (src : Nat) (rising : Bool) (hz : Nat) (taps : List (Nat × Nat))
  /-- TDC_CAL_PAIR (R205). A channel takes a calibration pair after a measurement or 1 µs idle. -/
  | tdcCalPair (n c1 c2 : Nat)
  /-- TDC_RESULT_DELIVER (R215). A queued result record is delivered round robin to TIME and MCU. -/
  | tdcResultDeliver
  /-- TDC_ANCHOR_RENEW (R209). TDC renews its coarse-count anchor to the Last. -/
  | tdcAnchorRenew
  /-- INTERVAL_ARM (R213). A write of ARM arms an INTERVAL pair. -/
  | intervalArm (req : Requester) (n val : Nat)
  /-- INTERVAL_TIMEOUT (R213). WIN_US expires with one edge captured and a TIMEOUT result is formed. -/
  | intervalTimeout (n : Nat)
  /-- TDC_CH_CFG_WRITE (R202). A write of TDC_CH_CFG reconfigures a channel and restarts its edge divider. -/
  | tdcChCfgWrite (req : Requester) (n val : Nat)
  /-- PRESCALER_WRITE (R204). A write of TDC_PRESC changing a division restarts the prescaler and its REFIN candidate. -/
  | prescalerWrite (req : Requester) (val : Nat)
  /-- TDC_REFILL_REQUEST (R218). A refill request starts or queues a channel's code-density refill. -/
  | tdcRefillRequest (req : Requester) (val : Nat)
  /-- TDC_REFILL_COMPLETE (R217). A refill has counted 2²² hits and its pending table is accepted or rejected. -/
  | tdcRefillComplete (n : Nat) (h : List Nat)
  /-- TDC_TABLE_COMMIT (R219). A write of TDC_COMMIT puts a pending table in force from the next sampling edge. -/
  | tdcTableCommit (req : Requester) (val : Nat)
  /-- TAKEOVER_OVERLAP_END (R221). The spare's overlap ends and the takeover offset is fixed. -/
  | takeoverOverlapEnd
  /-- TAKEOVER_END (R221). The spare releases a channel after its return overlap. -/
  | takeoverEnd
  /-- TDC_TABLE_DATA_READ (R217). A read of TDC_TBL_DATA returns a tap count and increments BIN. -/
  | tdcTableDataRead (req : Requester)
  /-- LNK_COMMIT (R231). A write of LNK_COMMIT checks and applies pending port and quad settings. -/
  | lnkCommit (req : Requester) (val : Nat)
  /-- SIGNAL_DETECT (R245). Signal is detected on all lanes and the port starts training or alignment. -/
  | signalDetect (n : Nat)
  /-- SIGNAL_LOSS (R245). Signal is lost on a lane during training or alignment and the port goes DOWN. -/
  | signalLoss (n : Nat)
  /-- LINK_TRAINING_DONE (R244). All lanes report receiver ready and the port leaves TRAINING. -/
  | linkTrainingDone (p : Nat) (eqs : List Nat)
  /-- LT_FAIL (R244). Training exceeds LT_TIMEOUT and the port returns to DOWN. -/
  | ltFail (p : Nat)
  /-- LINK_CONDITIONS_MET (R245). All link-up conditions hold and the port enters DEBOUNCE. -/
  | linkConditionsMet (link : LinkReady)
  /-- LINK_UP (R246). The debounce time ends and the port goes UP. -/
  | linkUp (p : Nat)
  /-- LINK_DOWN (R246). A link-up condition is lost and the port goes DOWN. -/
  | linkDown (p cause : Nat)
  /-- SGMII_CONTROL_WORD (R243). A partner control word signalling 10 or 100 Mb/s keeps the port down and raises AN_FAIL. -/
  | sgmiiControlWord (p mbps : Nat)
  /-- LANE_CFG_WRITE (R247). A write of LNK_LANE_CFG sleeps or wakes a direction or sets a loop. -/
  | laneCfgWrite (req : Requester) (val : Nat)
  /-- TXEQ_WRITE (R244). A write of LNK_TXEQ sets the equaliser or is discarded with TXEQ_INVALID. -/
  | txeqWrite (req : Requester) (val : Nat)
  /-- EB_IDLE_ADJUST (R235). The elastic buffer inserts or deletes an idle when its fill leaves 32 ± 8 words. -/
  | ebIdleAdjust (n fill : Nat)
  /-- EB_SLIP (R236). The elastic buffer fill reaches 0 or 64, the passing frame is discarded and the buffer re-centred. -/
  | ebSlip (n : Nat)
  /-- LPI_RX (R241). A received LPI is treated as idle and counted. -/
  | lpiRx (p : Nat)
  /-- POWER_UP_CALIBRATION (R252). The power-up calibration measures quad loads, lane loops and output cells and sets constants. -/
  | powerUpCalibration (quads : List (Nat × Int)) (lanes : List LaneCal) (outs : List (Nat × Nat × Nat)) (us : Nat)
  /-- RECAL_PARTIAL (R255). A PARTIAL recalibration request re-measures a lane in service. -/
  | recalPartial (req : Requester) (val : Nat)
  /-- RECAL_FULL (R255). A FULL recalibration request takes the port down and recalibrates quad and lanes. -/
  | recalFull (req : Requester) (val : Nat)
  /-- RECAL_COMPLETE (R255). A recalibration ends and its constants are applied or CAL_FAIL raises. -/
  | recalComplete (fin : RecalEnd)
  /-- INGRESS_HEAD (R259). A frame head passes the 64 stages of an ingress pipeline. -/
  | ingressHead (f : Nat)
  /-- INGRESS_TAIL_PASS (R258). A frame's tail pass runs the length checks and meter when its last octet arrives. -/
  | ingressTailPass (f : Nat)
  /-- LEARN_INSERT (R266). The learning engine inserts or moves a forwarding database entry. -/
  | learnInsert
  /-- STREAM_LEARN (R273). The learning engine creates a stream context from a template. -/
  | streamLearn
  /-- AGEING_SWEEP_VISIT (R274). The ageing sweep ages forwarding entries and learned contexts and refills meters. -/
  | ageingSweepVisit (isCtx : Bool) (inst : Nat)
  /-- STREAM_DELETE_CLEAR (R273). 1 µs after a delete removes the key, the context's VALID is cleared. -/
  | streamDeleteClear (c : Nat)
  /-- ING_TABLE_READ (R516). A GO write of ING_TBL_CTL with WRITE = 0 reads a table entry. -/
  | ingTableRead (req : Requester) (val : Nat)
  /-- ING_TABLE_WRITE (R516). A GO write of ING_TBL_CTL with WRITE = 1 writes a table entry. -/
  | ingTableWrite (req : Requester) (val : Nat)
  /-- STREAM_GATE_COMMIT (R277). A write of ING_GATE_COMMIT schedules a stream gate's admin copy. -/
  | streamGateCommit (req : Requester) (val : Nat)
  /-- STREAM_GATE_CHANGE (R277). At the admin schedule's cycle start the new gate list takes effect. -/
  | streamGateChange (g : Nat)
  /-- BUF_ADMISSION (R290). BUF admits or discards each copy of a frame at its head and enqueues it. -/
  | bufAdmission (f : Nat)
  /-- FRAME_STORE_COMPLETE (R298). A stored copy's last cell is written and checked and it becomes visible to EGR. -/
  | frameStoreComplete (f : Nat)
  /-- LINK_HOLD_EXPIRY (R303). The link hold time expires and queued copies are flushed. -/
  | linkHoldExpiry (o : Nat)
  /-- BUF_ADMISSION_COMMIT (R291). A write of BUF_COMMIT applies pending headroom and class admission settings. -/
  | bufAdmissionCommit (req : Requester) (val : Nat)
  /-- EGRESS_SELECTION (R309). EGR selects an output's next frame by class, WFQ, shaper, gate and fit. -/
  | egressSelection (o : Nat) (ts : Int)
  /-- FRAME_TX_START (R308). A selected frame starts at its transmit instant, is edited and charged to its shaper. -/
  | frameTxStart (o back : Nat) (uIns : Int)
  /-- FRAME_TX_END (R315). A frame ends and its cost and shaper charge are corrected. -/
  | frameTxEnd (o : Nat) (pre : Bool)
  /-- SHAPER_RATE_WRITE (R319). A write of EGR_CLS_RATE updates the level at the old rate and applies the new rate. -/
  | shaperRateWrite (req : Requester) (c val : Nat)
  /-- SHAPER_CFG_WRITE (R319). A write of BURST clamps the level and a change of SHAPER zeroes it. -/
  | shaperCfgWrite (req : Requester) (c val : Nat) (burst : Bool)
  /-- GATE_ENTRY_CHANGE (R320). A gate control list entry boundary is reached and new gate states apply. -/
  | gateEntryChange (o : Nat) (late : Option Int)
  /-- MAC_HOLD_START (R332). HOLD_ADV_NS before a Set-And-Hold-MAC entry the hold takes effect. -/
  | macHoldStart (o : Nat)
  /-- GATE_ENABLE_WRITE (R321). A write of EGR_GATE_CFG.ENA starts the oper list at its R71 position or opens all gates. -/
  | gateEnableWrite (req : Requester) (val : Nat)
  /-- GATE_COMMIT (R322). A COMMIT write validates the admin list and sets PENDING with a change time. -/
  | gateCommit (req : Requester) (val : Nat)
  /-- GATE_CANCEL (R324). A CANCEL write ends a pending gate configuration change. -/
  | gateCancel (req : Requester) (val : Nat)
  /-- GATE_REALIGN (R325). A REALIGN write schedules a change of the oper list onto itself. -/
  | gateRealign (req : Requester) (val : Nat)
  /-- GATE_CONFIG_CHANGE (R323). At the change time the gate list banks swap and GCL_CHANGED raises. -/
  | gateConfigChange (o : Nat)
  /-- MM_VERIFY_END (R330). MAC merge verification succeeds or fails. -/
  | mmVerifyEnd (o : Nat) (ok : Bool)
  /-- EGR_TABLE_READ (R313). A GO write of EGR_TBL_CTL with WRITE = 0 reads an EGR table entry. -/
  | egrTableRead (req : Requester) (val : Nat)
  /-- EGR_TABLE_WRITE (R313). A GO write of EGR_TBL_CTL with WRITE = 1 writes an EGR table entry. -/
  | egrTableWrite (req : Requester) (val : Nat)
  /-- FRER_DESCRIPTOR (R341). RED processes a frame descriptor for recovery and generation and returns its decision. -/
  | frerDescriptor (f : Nat)
  /-- RESEQ_TIMEOUT (R342). The oldest held frame's timeout expires and missing numbers are skipped. -/
  | reseqTimeout (n : Nat)
  /-- TAKE_ANY (R344). A function idle for RESET_MS releases held frames and sets take_any. -/
  | takeAny (n : Nat)
  /-- FRER_FUNCTION_RESET (R344). A write of RED_FN_CTL.RESET resets a recovery function. -/
  | frerFunctionReset (req : Requester) (val : Nat)
  /-- FRER_CFG_WRITE (R344). A write of RED_FN_CFG changing MODE or clearing ENA resets the function. -/
  | frerCfgWrite (req : Requester) (val : Nat)
  /-- LATENT_ERROR (R345). At each period end the latent error test compares passed and discarded counts. -/
  | latentError (n : Nat)
  /-- PATH_DOWN (R346). A member path times out or its port goes down and PATH_DOWN raises. -/
  | pathDown (n inst : Nat)
  /-- RING_DOORBELL (R361). A doorbell write posts a host index to a ring. -/
  | ringDoorbell (addr size val : Nat)
  /-- RING_START (R362). A START write moves a ring to RUNNING. -/
  | ringStart (req : Requester) (val : Nat)
  /-- RING_STOP (R362). A STOP write moves a running ring to STOPPING. -/
  | ringStop (req : Requester) (val : Nat)
  /-- RING_STOPPED (R362). The slot in progress completes and a stopping ring becomes STOPPED. -/
  | ringStopped (r : Nat)
  /-- RING_RESET (R362). A RESET write returns a stopped or errored ring to OFF. -/
  | ringReset (req : Requester) (val : Nat)
  /-- VECTOR_REARM (R381). An ARM write re-arms a vector and sends any message due. -/
  | vectorRearm (req : Requester) (adit : Bool) (a val : Nat)
  /-- IRQ_MODERATION_TIMER (R380). TIME_US after the first completion a ring's time trigger fires. -/
  | irqModerationTimer (r : Nat)
  /-- MSIX_UNMASK (R380). An unmask sends a message whose pending bit is set. -/
  | msixUnmask (v : Nat)
  /-- CMD_BAD_OPCODE (R364). A command with an opcode not in the catalogue completes with BAD_OPCODE. -/
  | cmdBadOpcode (r op : Nat) (c : Cmd)
  /-- NOP (R374). The NOP command completes with no effect. -/
  | nop (r : Nat) (c : Cmd)
  /-- TBL_READ (R374). The TBL_READ command reads table entries into the data buffer. -/
  | tblRead (r : Nat) (c : Cmd)
  /-- TBL_WRITE (R374). The TBL_WRITE command writes table entries atomically in index order. -/
  | tblWrite (r : Nat) (c : Cmd)
  /-- FDB_FLUSH (R374). The FDB_FLUSH command removes forwarding entries by port and FID. -/
  | fdbFlush (r : Nat) (c : Cmd)
  /-- STREAM_ADD (R375). The STREAM_ADD command writes a context and indexes its key. -/
  | streamAdd (r : Nat) (c : Cmd)
  /-- STREAM_DELETE (R273). The STREAM_DELETE command removes a context's key and later clears VALID. -/
  | streamDelete (r : Nat) (c : Cmd)
  /-- STREAM_MODIFY (R273). The STREAM_MODIFY command replaces words 6 to 12 keeping the meter state. -/
  | streamModify (r : Nat) (c : Cmd)
  /-- STREAM_READ (R272). The STREAM_READ command returns a stream context. -/
  | streamRead (r : Nat) (c : Cmd)
  /-- DPLL_FREQ (R376). The DPLL_FREQ command posts an open-loop frequency write. -/
  | dpllFreq (r : Nat) (c : Cmd)
  /-- DPLL_PHASE (R376). The DPLL_PHASE command posts an open-loop phase write. -/
  | dpllPhase (r : Nat) (c : Cmd)
  /-- HOST_SAMPLE (R146). The HOST_SAMPLE command posts a HOSTSTEER sample. -/
  | hostSample (r : Nat) (c : Cmd)
  /-- PROFILE_APPLY (R416). The PROFILE_APPLY command checks a slot and applies its staged records. -/
  | profileApply (r : Nat) (c : Cmd)
  /-- PROFILE_TIMED_APPLY (R416). At the written instant the timed records of a profile apply. -/
  | profileTimedApply
  /-- PROFILE_WRITE (R411). The PROFILE_WRITE command writes and checks a profile image into a slot. -/
  | profileWrite (r : Nat) (c : Cmd)
  /-- PROFILE_READ (R411). The PROFILE_READ command returns a valid slot's image. -/
  | profileRead (r : Nat) (c : Cmd)
  /-- FW_DOWNLOAD (R422). The FW_DOWNLOAD command stages an image part and checks it when LAST. -/
  | fwDownload (r : Nat) (c : Cmd)
  /-- ATTEST (R436). The ATTEST command writes a signed attestation report. -/
  | attest (r : Nat) (c : Cmd)
  /-- FLASH_READ (R386). The FLASH_READ command reads the boot flash. -/
  | flashRead (r : Nat) (c : Cmd)
  /-- FLASH_PROGRAM (R386). The FLASH_PROGRAM command programs the boot flash outside protected ranges. -/
  | flashProgram (r : Nat) (c : Cmd) (err : Bool)
  /-- FLASH_ERASE (R386). The FLASH_ERASE command erases 4 KiB sectors of the boot flash. -/
  | flashErase (r : Nat) (c : Cmd) (err : Bool)
  /-- RESET_REQ (R374). The RESET_REQ command requests a HOST_CMD reset. -/
  | resetReq (r : Nat) (c : Cmd)
  /-- CMD_TIMEOUT (R371). A command not completed within TMO_MS completes with TIMEOUT. -/
  | cmdTimeout (r op : Nat) (c : Cmd)
  /-- TX_FRAME_FETCH (R378). The device fetches a TX frame and injects it on P64. -/
  | txFrameFetch (r : Nat) (d : TxDesc)
  /-- RX_FRAME_DELIVER (R366). A frame for P64 is written to an RX slot with its record. -/
  | rxFrameDeliver (r bufLen : Nat)
  /-- RX_STALL (R372). An RX ring without free slot for TMO_MS raises RX_STALL. -/
  | rxStall (r : Nat)
  /-- EVENT_RECORD_WRITE (R367). An event source's rising bit writes an EVENT record to the event ring. -/
  | eventRecordWrite
  /-- DMA_ERROR (R373). A DMA read fails, the ring enters ERROR and HOST_DMA_ERROR raises. -/
  | dmaError (r status : Nat)
  /-- BUS_MASTER_ENABLE (R373). A change of Bus Master Enable stops or resumes device DMA. -/
  | busMasterEnable (on : Bool)
  /-- I2C_WRITE (R384). An I²C write transaction writes a BAR0 word at its stop condition. -/
  | i2cWrite (cmd off val : Nat) (pec : Option Nat)
  /-- I2C_READ (R384). An I²C read transaction returns consecutive BAR0 words. -/
  | i2cRead (cmd off n : Nat)
  /-- I2C_TIMEOUT (R385). SCL held low more than 25 ms releases the bus and discards the transaction. -/
  | i2cTimeout
  /-- PCIE_HOT (R390). A PCIe hot reset strikes its mapped reset. -/
  | pcieHot
  /-- PCIE_LINKDOWN (R390). A PCIe link down after link-up strikes its mapped reset. -/
  | pcieLinkdown
  /-- PCIE_D3 (R390). A transition from D3hot to D0 strikes its mapped reset. -/
  | pcieD3
  /-- POWER_ON (R498). A supply leaves its valid window for 2 µs or the last supply enters it, striking a COLD reset. -/
  | powerOn (dip : SupplyDip) (straps : Straps)
  /-- RESET_N_ACCEPT (R393). RESET_N low for 56 SAFE cycles starts a reset. -/
  | resetNAccept (us : Nat)
  /-- RESET_N_GLITCH (R393). A RESET_N low pulse ends before acceptance and is counted. -/
  | resetNGlitch (us : Nat)
  /-- RST_REQUEST (R390). A GO write of RST_REQ strikes a HOST_CMD reset. -/
  | rstRequest (req : Requester) (val : Nat)
  /-- SRC_MAP_WRITE (R391). A write of RST_SRC_MAP changes source levels unless MAP_LOCK holds. -/
  | srcMapWrite (req : Requester) (val : Nat)
  /-- RESET_STRETCH_END (R394). A reset's stretch ends and SAFE stops driving RESET_N. -/
  | resetStretchEnd (isl : Nat) (pin : StretchEnd)
  /-- ISLAND_RELEASE (R400). An island is released after 64 clock-valid cycles and its self-test. -/
  | islandRelease (isl us : Nat)
  /-- FORCED_RELEASE (R401). A write of RST_FORCE releases an island into quarantine. -/
  | forcedRelease (req : Requester) (val : Nat)
  /-- OSCILLATOR_CHECK_END (R402). The oscillator check chooses XIN or OCXO_IN and measures the SAFE oscillator. -/
  | oscillatorCheckEnd (xinHz ocxoHz : Nat) (ppm : Int) (us : Nat)
  /-- LOAD_ATTEMPT_COMPLETE (R404). A fuse, trim, record or profile load attempt ends valid or failed. -/
  | loadAttemptComplete (data : LoadData) (us : Nat)
  /-- STEP_DEADLINE (R398). A power-up step misses its instant, is abandoned and its island fenced. -/
  | stepDeadline (step us : Nat)
  /-- SELF_TEST_COMPLETE (R449). An island's memory and checker self-test ends passed or failed. -/
  | selfTestComplete (isl : Nat) (fails : List Nat) (us : Nat)
  /-- PROFILE_RESET_APPLY (R415). The boot ROM applies the loaded profile's records after the last release. -/
  | profileResetApply
  /-- PROFILE_WAIT_TIMEOUT (R415). A WAIT record times out and ends the application. -/
  | profileWaitTimeout
  /-- BOOT_ROM_START (R425). The boot ROM starts on MCU release and chooses, checks and starts the images. -/
  | bootRomStart (flash : Option (Bool × Nat × Nat)) (us : Nat)
  /-- FW_STEP_LATE (R426). A firmware boot step misses its instant and the image is not started. -/
  | fwStepLate (at_ : FwStep)
  /-- SERVO_RESTART (R431). A write of SERVO_RESTART reloads and restarts the servo image. -/
  | servoRestart (req : Requester) (val : Nat)
  /-- DISCARD_MGMT (R422). A write of DISCARD_MGMT invalidates the staged management image. -/
  | discardMgmt (req : Requester) (val : Nat)
  /-- DISCARD_SERVO (R422). A write of DISCARD_SERVO invalidates the staged servo image. -/
  | discardServo (req : Requester) (val : Nat)
  /-- WATCHDOG_FEED (R432). The management firmware arms or feeds a watchdog. -/
  | watchdogFeed (servo : Bool) (tmo us : Nat)
  /-- MGMT_WATCHDOG_EXPIRY (R432). The management watchdog expires and strikes the WATCHDOG reset. -/
  | mgmtWatchdogExpiry (us : Nat)
  /-- SERVO_WDOG (R432). The servo watchdog expires and stops the servo controller. -/
  | servoWdog (us : Nat)
  /-- DEBUG_ATTACH (R432). A debug attach extends MEAS5 before it takes effect. -/
  | debugAttach
  /-- FW_MEASUREMENT_POST (R433). The management firmware extends MEAS6 or MEAS7 with a value. -/
  | fwMeasurementPost (m digest : Nat)
  /-- SPDM_REQUEST (R437). An SPDM request over DOE is answered by the responder. -/
  | spdmRequest (q : SpdmReq)
  /-- SCRUB_ACCESS (R444). A scrubber reads a word in an idle cycle and repairs or reports it. -/
  | scrubAccess (m bank word : Nat) (found : ScrubRead) (us : Nat)
  /-- SCRUB_LATE (R446). A scrub lap ends and one longer than LAP_LIMIT_S raises SCRUB_LATE. -/
  | scrubLate (m ms : Nat)
  /-- ECC_LAP_READ (R446). A read of MON_ECC_LAP returns the lap times and clears PEAK_MS. -/
  | eccLapRead (req : Requester)
  /-- FAULT_COLLECT (R453). SAFE collects a fault, opens or merges a record and applies its class reaction. -/
  | faultCollect (us : Nat)
  /-- FAULT_ACK (R457). A write of FLT_ACK closes the open record with matching SEQ. -/
  | faultAck (req : Requester) (val : Nat)
  /-- REACTION_TIMER_EXPIRY (R458). An open record's reaction timer expires and SAFE escalates with FAULT_ESC. -/
  | reactionTimerExpiry (us : Nat)
  /-- ALIVE_RESUME (R464). A write of ALIVE_RESUME restarts ALIVE unless a fatal fault is pending. -/
  | aliveResume (req : Requester) (val : Nat)
  /-- TEST_MODE_WRITE (R452). A write of FLT_CTL.TEST enters or leaves TEST service mode. -/
  | testModeWrite (req : Requester) (val : Nat)
  /-- RECOVERY_END (R452). 1,000 ms after the last escalated island's release RECOVERY mode ends. -/
  | recoveryEnd (us : Nat)
  /-- COUNTER_CFG_WRITE (R472). A write of MON_CNT_CFG or MON_CNT_THR clears the counter and selects its event. -/
  | counterCfgWrite (req : Requester) (k val : Nat) (thr : Bool)
  /-- COUNTER_CLEAR (R472). A CLEAR bit of MON_CNT_CTL sets its counter to 0. -/
  | counterClear (req : Requester) (val : Nat)
  /-- BW_WINDOW_END (R476). A bandwidth window ends and LAST and PEAK are updated. -/
  | bwWindowEnd (p : Nat)
  /-- BW_PEAK_READ (R476). A read of a PEAK register returns and clears it. -/
  | bwPeakRead (req : Requester) (tx : Bool)
  /-- HIST_DEPTH_SAMPLE (R477). A histogram unit takes a depth sample every 2^SPACE core cycles. -/
  | histDepthSample (u : Nat)
  /-- HIST_CLEAR (R478). A write of MON_HIST_CFG or CLEAR clears a histogram unit. -/
  | histClear (req : Requester) (u val : Nat)
  /-- CANARY_MEASURE (R480). SAFE measures a canary and computes its reading and limit events. -/
  | canaryMeasure (inst : Nat) (a b c d : Int)
  /-- MARGIN_PLAN (R482). Every PLAN_S the firmware re-plans AVS, equaliser margin, recalibrations and refills. -/
  | marginPlan
  /-- AVS_READBACK_CHECK (R483). 10 ms after a PMBus voltage write the read-back is checked. -/
  | avsReadbackCheck (reply : AvsReply) (uv : Nat)
  /-- AVS_CODE_WRITE (R484). A write of MON_AVS.CODE with AUTO = 0 drives the regulator. -/
  | avsCodeWrite (req : Requester) (val : Nat)
  /-- AGEING_LOG_SHORT (R485). At the end of each LOG_S interval the firmware writes a short log entry and updates the oscillator correction. -/
  | ageingLogShort (hours fails word : Nat)
  /-- AGEING_LOG_LONG (R485). Every 2,160 hours of power-on the firmware writes a long log entry. -/
  | ageingLogLong (hours fails word : Nat)
  /-- QUALIFY_TIME_EXPIRY (R150). A QUALIFYING candidate's qualify time QUAL_S runs out and it becomes QUALIFIED. -/
  | qualifyTimeExpiry (c : Nat)
  /-- TX_DRIVER_AWAKE (R247). Up to 20 µs after TX_SLEEP is written 0, the lane driver is awake again and TX_AWAKE reads 1. -/
  | txDriverAwake (n : Nat)
  /-- QUAD_CALIBRATION_DONE (R238). The calibration that a quad runs after a change of REF to TIMING ends, and its ports leave CAL. -/
  | quadCalibrationDone (k : Nat) (load : Int) (lanes : List LaneCal)
  /-- INSERTION_COPY_AGE_LIMIT (R99). A queued copy carrying an insertion command reaches 1,000 s after its enqueue and is discarded under AGED. -/
  | insertionCopyAgeLimit (f o : Nat)
  /-- CORE_CYCLE_COUNT (R469). Each core cycle, the port cycle counters advance and wrap, and occupancy events are evaluated against their thresholds. -/
  | coreCycleCount
  /-- PCIE_LINK_UP (R355). The PCIe link completes training and HIF_GSTAT reports its speed and width. -/
  | pcieLinkUp (speed width : Nat)
  /-- P65_FRAME_SEND (R30). The management controller sends a frame on P65 into PIPE0 ingress. -/
  | p65FrameSend (octets : List Nat)
  /-- JTAG_INSTRUCTION (R508). A JTAG instruction is loaded; EXTEST, CLAMP, HIGHZ and similar instructions stop forwarding and timing outputs while in force. -/
  | jtagInstruction (inst : Jtag)
  deriving DecidableEq, Repr

end Sys2Proof
end

