-- ==== Sys2Proof/Config.lean ====
section
/-!
DEFINITION. Sys2Proof/Config.lean: what one device fixes and what the spec leaves open. Every value below is opaque:
nothing in Lean can evaluate it, so a claim holds whatever it is.
-/
namespace Sys2Proof

/-- A free value: the `n`-th value of the run that the spec does not state (notes/assumptions/3.md). -/
opaque Config.freeInt : Nat → Int

/-- The bucket of a forwarding database key (R264): the spec does not state the hash. -/
opaque Config.fdbHash : Nat → Nat

/-- The bucket of a stream key in hash table 0 or 1 (R271): the spec does not state the hashes. -/
opaque Config.streamHash : Nat → List Nat → Nat

/-- SHA-384 of octets as a number, octet 0 of the digest in bits 7 to 0 (R419, R433): the model does not compute it. -/
opaque Config.sha384 : List Nat → BitVec 384

/-- Whether an ECDSA P-384 signature with SHA-384 verifies (R419): public key, signature, signed octets. -/
opaque Config.ecdsaOk : List Nat → List Nat → List Nat → Bool

/-- The signature of the device identity key over octets (R436): 96 octets. -/
opaque Config.ecdsaSign : List Nat → List Nat → List Nat

/-- The Gysavis image key in the boot ROM (R420): 96 octets. -/
opaque Config.gysavisKey : List Nat

/-- The digest of the boot ROM (R425). -/
opaque Config.romDigest : BitVec 384

/-- Fields of the frames that the engine originates which the spec does not give (notes/assumptions/150.md): by field and port or address,
0 the source MAC address, 1 the IPv4 source, 2 the IPv6 source, 3 the MAC address of a partner known by its IP address, 4 the time to live
or hop limit, 5 the IPv4 type of service and the IPv6 traffic class. -/
opaque Config.engineField : Nat → Nat → Nat

/-- The nominal value that a stepping gives a constant of the calibration record (R408), by the register's offset. -/
opaque Config.nominal : Nat → Nat → Nat

/-- The stepping in the boot ROM mask (R406): 0xA0 or 0xB0, by which the device is one or the other. -/
opaque Config.maskStepping : Nat

end Sys2Proof
end

