-- ==== Sys2Proof/Machine/FrameState.lean ====
section
/-!
DEFINITION. Sys2Proof/Machine/FrameState.lean: a frame on its way through the block: its octets, its receive record (R96),
its insertion command (R97), what ingress decided (R280, R281), and its copies in BUF (R287).
-/
namespace Sys2Proof.Machine

/-- A receive record (R96); the time has a fraction in 2^-16 ns. -/
structure RxRec where
  sec : Nat
  ns : Nat
  frac : Nat
  valid : Bool
  calInvalid : Bool
  coarse : Bool
  lastInvalid : Bool
  epoch : Nat
  preempt : Bool
  lane : Nat
  port : Nat
  deriving DecidableEq, Repr

/-- A time-insertion command (R97): offset of the ten octets TS_WRITE writes, whether residence is added, the addend of
CF_ADD, the offset of correctionField, the frame's domain, and what the checksum rule needs: the UDP header's offset (0
none), its IP version, and whether two octets follow the PTP message. -/
structure Ins where
  tsWrite : Option Nat
  residence : Bool
  addend : Option Int
  cfOff : Nat
  dom : Option Nat
  udpOff : Nat
  ipv6 : Bool
  trailer : Option Nat
  deriving DecidableEq, Repr

/-- What RED decided for a frame of a context with FRER functions (R336): not concerned, waiting for the decision, held by
the resequencer, or passed. -/
inductive FrerSt where
  | none | waiting | held | passed
  deriving DecidableEq, Repr

/-- Where a copy stands: in its queue, selected by EGR, or leaving. -/
inductive CopySt where
  | queued | selected | leaving
  deriving DecidableEq, Repr

/-- One admitted copy (R287): output, class, drop eligibility, cells charged (R290), ECN decision (R294), cut-through
release (R297), whether it is residue (R296), its place in its queue (R288) and the Last at enqueue in 2^-32 ns. -/
structure Copy where
  out : Nat
  tc : Nat
  de : Bool
  charge : Nat
  mark : Bool
  ready : Bool
  qno : Nat
  enq : Int
  st : CopySt
  cost : Nat
  deriving DecidableEq, Repr

/-- What ingress decided for a frame (R262, R270, R280, R281). `tag` is the matched outer tag's PCP and DEI, `pcp` the PCP of an
inserted or rewritten tag (R334). -/
structure IngRes where
  vid : Nat
  tag : Option (Nat × Nat)
  pcp : Nat
  tpid : Nat
  dests : List Nat
  tc : Nat
  de : Bool
  ctx : Option Nat
  ctxVer : List Nat
  precolour : Bool
  known : Option Nat
  ptpTc : Bool
  deriving DecidableEq, Repr

/-- A PTP message as the parser gives it (R111): header fields, body timestamp in 2^-16 ns, the requesting port identity
of a response, and the cumulative rate offset of the 802.1AS Follow_Up TLV. -/
structure PtpMsg where
  kind : Nat
  version : Nat
  minor : Nat
  domain : Nat
  major : Nat
  minorSdo : Nat
  twoStep : Bool
  cf : Int
  seq : Nat
  src : Nat
  ts : Int
  req : Nat
  rate : Option Int
  deriving DecidableEq, Repr

/-- A frame. `octets` counts from the destination address to the FCS, as far as received; `bad` is the sump reason that
struck it (R306); `genNo` the sequence number RED gave it (R338);
`ptp` the PTP message it carries, `dom` its domain, `engine` the instance that takes it, `tfwd` that it is
forwarded under R123 or R124 and waits for that step, `adds` the addends of a Follow_Up by output (R124);
`reason` the code of a sample (R307), `rule` the winning rule and `cause` the CAUSE field of its receive record (R366);
`directed` the port and class of a directed host frame (R378), `host` its TX ring, tag and whether IRQ counts. -/
structure Frame where
  port : Nat
  octets : List Nat
  ended : Bool
  bad : Option Nat
  rx : Option RxRec
  stepCount : Nat
  headDone : Bool
  ing : Option IngRes
  needTail : Bool
  ins : Option Ins
  ptp : Option PtpMsg
  engine : Option Nat
  tfwd : Bool
  dom : Option Nat
  adds : List (Nat × Int)
  frer : FrerSt
  genNo : Option Nat
  admitted : Bool
  reason : Nat
  rule : Option Nat
  cause : Nat
  directed : Option (Nat × Nat)
  host : Option (Nat × Nat × Bool)
  stored : Bool
  copies : List Copy
  deriving DecidableEq, Repr

end Sys2Proof.Machine
end

