-- ==== Sys2Proof/Machine/Map.lean ====
section
/-!
DEFINITION. Sys2Proof/Machine/Map.lean: sparse tables as plain data. A table is a list of key and value pairs in one
canonical form: keys strictly rising, and no entry equal to what an unlisted key reads as. The register file, the host's
memory image and every per-instance table of the model use it.
-/
namespace Sys2Proof.Machine

/-- A sparse table. -/
abbrev SMap (α : Type) := List (Nat × α)

variable {α : Type}

/-- Read a key; an unlisted key reads as `d`. -/
def smGet (d : α) : SMap α → Nat → α
  | [], _ => d
  | (j, v) :: m, k => if k = j then v else smGet d m k

/-- Insert or replace, keys kept rising. -/
def smIns (k : Nat) (v : α) : SMap α → SMap α
  | [] => [(k, v)]
  | (j, u) :: m => if k < j then (k, v) :: (j, u) :: m else if k = j then (k, v) :: m else (j, u) :: smIns k v m

/-- Remove a key. -/
def smDel (k : Nat) (m : SMap α) : SMap α := m.filter fun p => p.1 ≠ k

/-- Write a key; writing what an unlisted key reads as removes the entry. -/
def smPut [DecidableEq α] (d : α) (m : SMap α) (k : Nat) (v : α) : SMap α :=
  if v = d then smDel k m else smIns k v m

/-- Keys strictly rising. -/
def smRising : SMap α → Bool
  | [] => true
  | [_] => true
  | p :: q :: m => decide (p.1 < q.1) && smRising (q :: m)

/-- The canonical form: keys strictly rising and no entry equal to its key's default `d k`. -/
def smWf [DecidableEq α] (d : Nat → α) (m : SMap α) : Bool :=
  smRising m && m.all fun p => decide (p.2 ≠ d p.1)

/-- Keep the entries whose key satisfies `p`. -/
def smKeep (p : Nat → Bool) (m : SMap α) : SMap α := m.filter fun e => p e.1

/-- Replace the `i`-th element of a list by its image; out of range, the list is unchanged. -/
def listMod (l : List α) (i : Nat) (f : α → α) : List α := l.modify i f

/-- Change every listed value of a table. -/
def smMap {α : Type} [DecidableEq α] (d : α) (f : α → α) (m : SMap α) : SMap α :=
  (m.map fun p => (p.1, f p.2)).filter fun p => p.2 ≠ d

/-- Change the values of keys 0 to `n` - 1. -/
def smMapTo {α : Type} [DecidableEq α] (d : α) (n : Nat) (f : α → α) (m : SMap α) : SMap α :=
  (List.range n).foldl (fun m k => smPut d m k (f (smGet d m k))) m

end Sys2Proof.Machine
end

