-- ==== Sys2Proof/Machine/BufState.lean ====
section
/-!
DEFINITION. Sys2Proof/Machine/BufState.lean: the state of BUF (spec/10), EGR (spec/11) and RED (spec/12).
-/
namespace Sys2Proof.Machine

/-- The link hold of an output (R302): none (0), holding (1) until `deadline` in 2^-32 ns, or flushed (2). -/
structure Hold where
  st : Nat
  deadline : Int
  deriving DecidableEq, Repr

/-- BUF: the frames it knows, by number; the numbers of the next frame and of the next enqueued copy; the LFSRs of R294; the
sump counts (R306), keyed by kind, port and reason; link holds; the latest BUFFER_EXHAUSTED; the discards counted toward a
sample (R307); whether uncommitted writes exist (BUF_COMMIT); the reason of the latest sump count. The cells of each frame in the order
of their chain, the first one its descriptors' (R284, R287), by frame number; the free list of each stripe: the lowest address that
no frame has had yet, all above it being free, and the addresses that came back, in that order (R283, R284). -/
structure Buf where
  frames : SMap (Option Frame)
  nextFrame : Nat
  nextQno : Nat
  lfsr : SMap Nat
  sump : SMap Nat
  holds : SMap Hold
  exhaustedAt : Option Int
  discards : Nat
  pend : Bool
  lastDrop : Nat
  cells : SMap (List Nat)
  unused : List Nat
  back : List (List Nat)
  deriving DecidableEq, Repr

def Buf.reset : Buf := ⟨[], 0, 0, [], [], [], none, 0, false, 0, [], [0, 0, 0, 0], [[], [], [], []]⟩

/-- A class of an output: its virtual time (R313), its shaper's level in 2^-8 octet, remainder and latest update in ns
(R316), and its tag in the band (R311). -/
structure EgrCls where
  v : Nat
  level : Int
  rem : Nat
  tUpd : Int
  bandF : Option Nat
  deriving DecidableEq, Repr

/-- A selected frame that has not started, a frame that leaves, or the remainder of a preempted one: frame number, class,
start instant, octets still to send, whether preemptible, the octets charged at the start (R316), whether it ends after its
close (R329), its transmit time once started (R91), whether its insertion is made (R97), with the time TS_WRITE writes and the addition to
correctionField in 2^-16 ns, whether it is preempted now, and whether its octets are counted (R470). -/
structure Tx where
  frame : Nat
  tc : Nat
  tS : Int
  left : Nat
  pre : Bool
  charged : Nat
  overrun : Bool
  tTx : Option Int
  insert : Bool
  ts : Int
  add : Int
  paused : Bool
  counted : Bool
  deriving DecidableEq, Repr

/-- A gate list: base in 2^-32 ns, cycle, extension in ns, entries (operation, gate bits, interval in ns), and since when it is in force,
in 2^-32 ns. -/
structure GateList where
  base : Int
  num : Nat
  den : Nat
  ext : Nat
  entries : List (Nat × Nat × Nat)
  since : Int
  deriving DecidableEq, Repr

/-- A pending configuration change (R322, R325): the first Last value, in 2^-32 ns, not before t_c; t_c itself, a whole number `at32` of
2^-32 ns and `acc`/`den` of one more; t_w; whether it is a re-alignment; and the instant from which the cycle that would begin is not
begun (R323). -/
structure GatePend where
  tc : Int
  at32 : Int
  acc : Int
  den : Nat
  tw : Int
  realign : Bool
  suppress : Option Int
  deriving DecidableEq, Repr

/-- An output of EGR: classes, the band's virtual time, finish tags of queue heads by class and input (R313), the express
and the preemptible frame chosen or leaving, the end of the latest frame, the oper list and the pending change, the frame of
a class that did not fit (R327), the frames for which GATE_NEVER_FITS has been raised (R329), the latest late gate event: the boundary
that it marks and the transmit block boundary at which it applies (R35), and whether a hold was in force when the oper list began (R332). -/
structure EgrPort where
  cls : List EgrCls
  bandV : Nat
  tags : SMap (Option Nat)
  sel : Option Tx
  tx : Option Tx
  ptx : Option Tx
  freeAt : Int
  oper : Option GateList
  pend : Option GatePend
  noFit : List (Nat × Nat)
  never : List Nat
  late : Option (Int × Int)
  hold : Bool
  deriving DecidableEq, Repr

def EgrPort.reset : EgrPort := ⟨List.replicate 8 ⟨0, 0, 0, 0, none⟩, 0, [], none, none, none, 0, none, none, [], [], none, false⟩

/-- EGR: its outputs, the weight table (R313), the VLAN untagged sets (R334) and the admin gate lists (R320). -/
structure Egr where
  ports : SMap EgrPort
  weights : SMap Nat
  untagged : SMap Nat
  admin : SMap (Nat × Nat)
  deriving DecidableEq, Repr

def Egr.reset : Egr := ⟨[], [], [], []⟩

/-- A recovery function (R341): next number, history, held frames (offset, frame, arrival), take_any, how many history bits
stand for numbers that were expected, the latest activity (R344), the counts of R345, arrivals on its paths and which are
up (R346). -/
structure Fn where
  n : Nat
  hist : Nat
  held : List (Nat × Nat × Int)
  takeAny : Bool
  expected : Nat
  lastAct : Int
  passed : Nat
  disc : Nat
  period : Int
  arrivals : List (Option Int)
  up : List Bool
  deriving DecidableEq, Repr

def Fn.reset : Fn := ⟨0, 0, [], true, 0, 0, 0, 0, 0, List.replicate 4 none, List.replicate 4 false⟩

/-- RED: its recovery functions. The next generation numbers are RED_GEN_SEQ. -/
structure Red where
  fns : SMap Fn
  deriving DecidableEq, Repr

def Red.reset : Red := ⟨[]⟩

end Sys2Proof.Machine
end

