-- ==== Sys2Proof/Machine/TimState.lean ====
section
/-!
DEFINITION. Sys2Proof/Machine/TimState.lean: the state of TIME's counter, steering and domains (spec/02).
-/
namespace Sys2Proof.Machine

/-- The Last (R41): seconds modulo 2^48, nanoseconds below 10^9, fraction in 2^-32 ns, residue 0 to 4. -/
structure Last where
  sec : Nat
  ns : Nat
  frac : Nat
  res : Nat
  deriving DecidableEq, Repr

/-- A requested step (R49, R50, R52): its instant in 2^-32 ns, either an amount or an absolute value, both in 2^-32 ns, whether it is
the adopt step of a switch, and whether the servo asked for it, and in which TIME cycle. -/
structure StepReq where
  instant : Int
  absolute : Bool
  value : Int
  adopt : Bool
  servo : Bool
  cyc : Nat
  deriving DecidableEq, Repr

/-- The latest estimate of a domain (R55): offset in 2^-16 ns, rate in 2^-40, instant of measurement in 2^-32 ns. -/
structure DomEst where
  posted : Bool
  fresh : Bool
  offset : Int
  rate : Int
  tMeas : Int
  deriving DecidableEq, Repr

/-- The welt (R60, R61): offset in 2^-16 ns at `tLast` (ns), rate in 2^-40, and the magnitudes of the latest residuals
since validity was last lost, newest first. -/
structure Welt where
  init : Bool
  valid : Bool
  off : Int
  rate : Int
  tLast : Int
  updates : Nat
  resids : List Nat
  lastResid : Nat
  deriving DecidableEq, Repr

/-- A blend in progress (R66): its start and length in 2^-32 ns, the target (2^-48 ns) and target rate (2^-40) at the start. -/
structure Blend where
  start : Int
  len : Int
  base : Int
  rate0 : Int
  deriving DecidableEq, Repr

/-- The Last copy of an island (R34): its error against the Last while words arrive, and the value at which it stands while the
crossing from TIME is down, both in 2^-32 ns. -/
structure LastCopy where
  err : Int
  held : Option Int
  deriving DecidableEq, Repr

def LastCopy.reset : LastCopy := ⟨0, some 0⟩

/-- TIME: the Last, the cycles of its clock so far, the Last copies by island, its steering, the two domains, the welt and the
switch machinery; the amount of the latest step, the cycle in which it applied, the Last just before it in fifths of 2^-32 ns, and whether
DPLL0 owes the update that follows a domain switch (R352). -/
structure Tim where
  last : Last
  cyc : Nat
  copies : SMap LastCopy
  lastValid : Bool
  slewRem : Int
  slewRes5 : Nat
  step : Option StepReq
  heldAdopt : Bool
  domA : DomEst
  domB : DomEst
  welt : Welt
  activeB : Bool
  domHeld : Bool
  armed : Bool
  target : Int
  targetRate : Int
  blend : Option Blend
  converging : Bool
  convRes5 : Nat
  stepCount : Nat
  stepAmt : Int
  stepCyc : Option Nat
  stepPre : Int
  swSample : Bool
  deriving DecidableEq, Repr

def DomEst.none : DomEst := ⟨false, false, 0, 0, 0⟩

/-- TIME at a COLD reset (R43, R57, R60): the Last at zero and stopped until TIME is released. -/
def Tim.reset : Tim where
  last := ⟨0, 0, 0, 0⟩
  cyc := 0
  copies := []
  lastValid := false
  slewRem := 0
  slewRes5 := 0
  step := Option.none
  heldAdopt := false
  domA := DomEst.none
  domB := DomEst.none
  welt := ⟨false, false, 0, 0, 0, 0, [], 0⟩
  activeB := false
  domHeld := false
  armed := false
  target := 0
  targetRate := 0
  blend := Option.none
  converging := false
  convRes5 := 0
  stepCount := 0
  stepAmt := 0
  stepCyc := Option.none
  stepPre := 0
  swSample := false

end Sys2Proof.Machine
end

