-- ==== Sys2Proof/Machine/FltState.lean ====
section
/-!
DEFINITION. Sys2Proof/Machine/FltState.lean: the state of SAFE's fault collector (spec/17).
-/
namespace Sys2Proof.Machine

/-- A bit of an event register went from 0 to 1 (R465): its source, instance and detail, whether the source logs, and HOST's Last copy
at the event, in 2^-32 ns. -/
structure EventRec where
  src : Nat
  inst : Nat
  detail : Nat
  log : Bool
  time : Int
  deriving DecidableEq, Repr

/-- A fault that has been raised and not yet collected (R453): source, island named, instance, detail, island raising it. -/
structure FaultRec where
  src : Nat
  isl : Nat
  inst : Nat
  detail : Nat
  raiser : Nat
  deriving DecidableEq, Repr

/-- A fault record (R454). `react` and `deadline` are in ms and in µs of the corrected SAFE count. `recovMask` has the
islands of recoverable members, which the escalation strikes (R458). -/
structure FltRecord where
  isOpen : Bool
  escalated : Bool
  acked : Bool
  cls : Nat
  mode : Nat
  seq : Nat
  src : Nat
  inst : Nat
  isl : Nat
  detail : Nat
  mergeMask : Nat
  recovMask : Nat
  mergeCnt : Nat
  timeValid : Bool
  react : Nat
  deadline : Option Nat
  timeSec : Nat
  timeNs : Nat
  timeFrac : Nat
  safeUs : Nat
  lastIsl : Nat
  lastSrc : Nat
  deriving DecidableEq, Repr

/-- SAFE's fault collector: events and faults waiting, the record ring, the service mode's inputs (START-UP; RECOVERY, the
islands its resets still hold, and the µs of the last release), whether a device-fatal fault is pending and whether the
device-fatal state holds, whether ALIVE toggles and whether it has started, and the resets that R460 counts (island, µs). -/
structure Flt where
  events : List EventRec
  faults : List FaultRec
  recs : List (Option FltRecord)
  newest : Nat
  seq : Nat
  openSlot : Option Nat
  startUp : Bool
  recovery : Bool
  recIsl : List Nat
  recoveryFrom : Option Nat
  fatal : Bool
  fatalState : Bool
  aliveRun : Bool
  aliveStarted : Bool
  resets : List (Nat × Nat)
  deriving DecidableEq, Repr

/-- The collector at POWER_ON (R456, R464): no record, NEWEST at 0xF, START-UP, ALIVE low. -/
def Flt.reset : Flt where
  events := []
  faults := []
  recs := List.replicate 16 none
  newest := 15
  seq := 255
  openSlot := none
  startUp := true
  recovery := false
  recIsl := []
  recoveryFrom := none
  fatal := false
  fatalState := false
  aliveRun := false
  aliveStarted := false
  resets := []

end Sys2Proof.Machine
end

