-- ==== Sys2Proof/Machine/HifState.lean ====
section
/-!
DEFINITION. Sys2Proof/Machine/HifState.lean: the state of the host interface (spec/13): rings, vectors, frames for P64.
-/
namespace Sys2Proof.Machine

/-- A ring (R359 to R362): host index, the latest accepted one, whether a record was lost since the latest written (R367),
since when it has no free slot and whether RX_STALL has been raised (R372), completions since its last message and the first
of them (R380). The device index and the state are HIF_RING_STAT. -/
structure Ring where
  host : Nat
  prev : Nat
  ovf : Bool
  fullSince : Option Int
  stalled : Bool
  cnt : Nat
  since : Option Int
  deriving DecidableEq, Repr

def Ring.reset : Ring := ⟨0, 0, false, none, false, 0, none⟩

/-- A frame that left on P64 and waits for its RX slot (R366): class, frame. -/
structure RxWait where
  tc : Nat
  frame : Frame
  deriving DecidableEq, Repr

/-- HOST: rings, frames waiting for an RX slot, vectors that are disarmed, triggered since their last message, unmasked, and
pending behind their mask (R380), whether the PCIe link has been up, the flash contents written (R386), and the completions of TX
frames that wait for Bus Master Enable: ring, tag, whether IRQ counts, status, reason (R373); the ring whose turn to send comes next
(R378); words of HIF_RING_CFG, _BASE and _WB that wait for START (R12), at 32 times the ring plus the word. -/
structure Hif where
  rings : SMap Ring
  rxq : List RxWait
  disarmed : List Nat
  trig : List Nat
  unmasked : List Nat
  masked : List Nat
  linkUp : Bool
  flash : SMap Nat
  txDone : List (Nat × Nat × Bool × Nat × Nat)
  txTurn : Nat
  cfgs : SMap (Option Nat)
  deriving DecidableEq, Repr

def Hif.reset : Hif := ⟨[], [], [], [], [], [], false, [], [], 0, []⟩

end Sys2Proof.Machine
end

