-- ==== Sys2Proof/Machine/IngState.lean ====
section
/-!
DEFINITION. Sys2Proof/Machine/IngState.lean: the state of the ingress tables and the learning engine (spec/09).
-/
namespace Sys2Proof.Machine

/-- A stream gate at work (R276, R277): the spans in which it has passed frames, by their start, with the octets passed; the pending
commit: its instant in 2^-32 ns, the words of the gate and of its list as they stood at the commit; by how much steps of the Last have
shifted the cycles of the list in force (R51), in 2^-32 ns; since when that list is in force, and the one before it. -/
structure GateRt where
  spans : List (Int × Nat)
  pend : Option (Int × List Nat × List (List Nat))
  shift : Int
  since : Int
  prev : Option (List Nat × List (List Nat) × Int)
  deriving DecidableEq, Repr

def GateRt.reset : GateRt := ⟨[], none, 0, 0, none⟩

/-- A learning request of R266 (MAC and FID as one key, port) or of R273 (stream key words 0 to 5, template). -/
inductive LearnReq where
  | mac (key port : Nat)
  | stream (key : List Nat) (template : Nat)
  deriving DecidableEq, Repr

/-- The shared tables (R516): entries as words, keyed by table code and index (notes/assumptions/20.md gives the layouts);
an unlisted entry is all zeros. `idx` has the stream index, slot to context; `queue` the learning requests; `dels` the
contexts whose VALID is cleared at an instant (2^-32 ns) after a delete (R273). -/
structure Ing where
  tbl : SMap (List Nat)
  idx : SMap (Option Nat)
  gates : SMap GateRt
  queue : List LearnReq
  dels : List (Nat × Int)
  deriving DecidableEq, Repr

def Ing.reset : Ing := ⟨[], [], [], [], []⟩

end Sys2Proof.Machine
end

