-- ==== Sys2Proof/Machine/LnkState.lean ====
section
/-!
DEFINITION. Sys2Proof/Machine/LnkState.lean: the state of the lanes and ports beside their registers (spec/08).
-/
namespace Sys2Proof.Machine

/-- The copies of the Last in a quad: whether they are loaded (R82), the whole-cycle errors of the receive count and of a TIMING quad's
replica (R251), and the value from which the error of a FREE quad's replica follows (R33, R92). -/
structure Repl where
  loaded : Bool
  rx : Int
  tx : Int
  free : Int
  deriving DecidableEq, Repr

def Repl.reset : Repl := ⟨false, 0, 0, 0⟩

/-- LNK: by port, the instant at which it entered TRAINING or DEBOUNCE; ports whose SGMII partner signals another speed (R243);
ports that have received LPI since their link-up (R241); lanes whose driver wakes, from which instant (R247); lanes in a FULL
and in a PARTIAL recalibration (R255); and quads in the calibration that follows a change to TIMING (R238); and
the measured cell delays of the outputs in 2^-16 ns (R254); and the quads' copies of the Last. -/
structure Lnk where
  since : SMap Int
  badAn : List Nat
  lpi : List Nat
  waking : SMap (Option Int)
  full : List Nat
  part : List Nat
  quadCal : List Nat
  cells : SMap Nat
  replicas : SMap Repl
  deriving DecidableEq, Repr

def Lnk.reset : Lnk := ⟨[], [], [], [], [], [], [], [], []⟩

end Sys2Proof.Machine
end

