-- ==== Sys2Proof/Machine/MonState.lean ====
section
/-!
DEFINITION. Sys2Proof/Machine/MonState.lean: the state of the counters, canaries, margin plan and ageing log (spec/18).
-/
namespace Sys2Proof.Machine

/-- What the firmware has gathered for the next log entry of a ring (R486): the total of corrected reads and the sums of w and of Last
cycles at the latest entry, and the highest valid temperature of each site since (1/16 °C). -/
structure LogAcc where
  ce : Nat
  w : Int
  c : Int
  hot : List (Option Int)
  deriving DecidableEq, Repr

def LogAcc.reset : LogAcc := ⟨0, 0, 0, List.replicate 8 none⟩

/-- Monitors: core cycles since the release of BUF, octets of the bandwidth windows under way (two per port: receive,
transmit), ports whose window under way yields no result, the microsecond of each port's latest window boundary and a WIN_US that waits
for the next one (R476), whether an occupancy counter's value exceeded N in the
cycle before (1 no, 2 yes; R471), limits that have been crossed and not re-armed (R481), consecutive plans with slack to
spare (R482), temperature and Last at the latest calibration by lane, and at the latest table by channel, from 64 (R482), the cycle (plus 1) of each
histogram unit's latest depth sample (R477), the Last copies of MCU at the latest plan, at the latest short entry of the log and at a
change of the regulator's target that waits for its check (R482, R483, R485), the lanes and channels (from 64) whose recalibration or
refill the plan still requests, the one under way first (R482), and for the ageing log what its next short and long entries have gathered, and its entries by slot, the long ring from 704 (R485); and the stored words that hold an
error by memory and word: 1 a single-bit one, 2 an uncorrectable one (R438, R448). -/
structure Mon where
  cyc : Nat
  bw : SMap Nat
  bwSkip : List Nat
  bwAt : SMap Int
  bwPend : SMap Nat
  above : SMap Nat
  tripped : SMap Bool
  easy : Nat
  calTemp : SMap Int
  calAt : SMap Int
  histAt : SMap Nat
  planAt : Int
  logAt : Int
  avsAt : Option Int
  plan : List Nat
  accS : LogAcc
  accL : LogAcc
  log : SMap (List Nat)
  ecc : SMap Nat
  deriving DecidableEq, Repr

/-- The default of a waiting WIN_US: none waits. -/
def noWin : Nat := 0x100000

def Mon.reset : Mon where
  cyc := 0
  bw := []
  bwSkip := []
  bwAt := []
  bwPend := []
  above := []
  tripped := []
  easy := 0
  calTemp := []
  calAt := []
  histAt := []
  planAt := 0
  logAt := 0
  avsAt := none
  plan := []
  accS := LogAcc.reset
  accL := LogAcc.reset
  log := []
  ecc := []

end Sys2Proof.Machine
end

