-- ==== Sys2Proof/Machine/PteState.lean ====
section
/-!
DEFINITION. Sys2Proof/Machine/PteState.lean: the state of the protocol engine (spec/04). Times t1 to t4, delays and
correctionFields are in 2^-16 ns, instants in 2^-32 ns.
-/
namespace Sys2Proof.Machine

/-- A Delay_Req that awaits its Delay_Resp (R125): sequenceId, transmit instant once known, step epoch, limit. -/
structure DReq where
  seq : Nat
  t3 : Option Int
  epoch : Nat
  limit : Int
  deriving DecidableEq, Repr

/-- A two-step Sync that waits for its Follow_Up (R116): sequenceId, source, t2, c_s, whether the Last was valid, epoch. -/
structure SyncWait where
  seq : Nat
  src : Nat
  t2 : Int
  cs : Int
  lastInvalid : Bool
  epoch : Nat
  deriving DecidableEq, Repr

/-- The Pdelay exchange under way (R126): sequenceId, t1, epoch, and from the response t4, the time t2 it reports, its
correctionField. -/
structure PdReq where
  seq : Nat
  t1 : Option Int
  epoch : Nat
  resp : Option (Int × Int × Int)
  deriving DecidableEq, Repr

/-- One instance (R118 to R137): latest sent schedule instants, due Delay_Req, LFSR, sequence numbers, a PTE_INTERVAL word
not yet in force, awaited Delay_Resp, accepted Syncs newest first (t1, t2, c_s, epoch), the Sync waiting, the Pdelay exchange, the delay filter
(R128), the rate ratio's earlier response (t3, t4, exchanges since), token level (R137), and the limits of R131. -/
structure PteInst where
  lastSync : Int
  lastAnn : Int
  lastPd : Int
  dueDelay : Option Int
  lfsr : Option Nat
  seqSync : Nat
  seqAnn : Nat
  seqPd : Nat
  seqDelay : Nat
  pend : Option Nat
  wait : List DReq
  syncs : List (Int × Int × Int × Nat)
  two : Option SyncWait
  pd : Option PdReq
  mpd : List Int
  rej : Nat
  nrr : Option (Int × Int × Nat)
  spent : Int
  tokenAt : Int
  policed : Option Int
  syncAt : Int
  syncLost : Bool
  rho : Int
  deriving DecidableEq, Repr

def PteInst.reset : PteInst where
  lastSync := 0
  lastAnn := 0
  lastPd := 0
  dueDelay := none
  lfsr := none
  seqSync := 0
  seqAnn := 0
  seqPd := 0
  seqDelay := 0
  pend := none
  wait := []
  syncs := []
  two := none
  pd := none
  mpd := []
  rej := 0
  nrr := none
  spent := 0
  tokenAt := 0
  policed := none
  syncAt := 0
  syncLost := false
  rho := 0

/-- A raw offset sample (R129). -/
structure Sample where
  o : Int
  t2 : Int
  transit : Int
  inst : Nat
  uncal : Bool
  lastInvalid : Bool
  epoch : Nat
  deriving DecidableEq, Repr

/-- A message the engine sent whose transmit time has not returned (R93): instance, message, whether it is two-step, the
receive instant and step count of the request it answers, and the protocol address of the partner it goes to, none for multicast. -/
structure PtpTx where
  inst : Nat
  msg : PtpMsg
  twoStep : Bool
  rx : Option (Int × Nat)
  dest : Option Nat
  deriving DecidableEq, Repr

/-- A unicast grant (R139, R140): message type, log interval, expiry, order of granting, and the latest covered request. -/
structure Grant where
  mtype : Nat
  log : Int
  expiry : Int
  no : Nat
  last : Option Int
  deriving DecidableEq, Repr

/-- An entry of the partner table (R139), at place `slot`. -/
structure Partner where
  slot : Nat
  inst : Nat
  addr : Nat
  pid : Nat
  grants : List Grant
  deriving DecidableEq, Repr

/-- An entry of the correlation table (R124), at place `slot`: output, domain, source, sequenceId, residence, instant. -/
structure CorrEnt where
  slot : Nat
  out : Nat
  dom : Nat
  src : Nat
  seq : Nat
  res : Int
  at32 : Int
  deriving DecidableEq, Repr

/-- The engine: instances, messages on their way out, Follow_Ups due (message, origin time), servo queues and estimate
history of the two domains (R129, R130), partners, correlation table oldest first, the firmware bucket of R141, and the Announce templates
of the instances (R116). -/
structure Pte where
  insts : SMap PteInst
  txq : List PtpTx
  fups : List (Nat × PtpMsg × Option Nat)
  qA : List Sample
  qB : List Sample
  estA : List (Int × Int)
  estB : List (Int × Int)
  partners : List Partner
  grantNo : Nat
  corr : List CorrEnt
  fwSpent : Int
  fwAt : Int
  templates : SMap (List Nat)
  deriving DecidableEq, Repr

def Pte.reset : Pte := ⟨[], [], [], [], [], [], [], [], 0, [], 0, 0, []⟩

end Sys2Proof.Machine
end

