-- ==== Sys2Proof/Machine/RefState.lean ====
section
/-!
DEFINITION. Sys2Proof/Machine/RefState.lean: the state of the reference monitors and the DPLLs (spec/05).
-/
namespace Sys2Proof.Machine

/-- A phase sample (R147): phase in 2^-16 ns, instant in 2^-32 ns, and the sums of rate words and of Last cycles at that
instant, from which the mean rate word of R149 is formed. -/
structure PSample where
  p : Int
  t : Int
  rateSum : Int
  cycles : Int
  deriving DecidableEq, Repr

/-- A reference candidate's monitors (R147 to R151): `winAt` is the start of the window that runs, `pends` the words of LIMITS, MON and
DRIFT that wait for the next one, by offset. -/
structure Cand where
  origin : Option Int
  latest : Option PSample
  start : Option PSample
  fresh : Bool
  ys : List Int
  quiet : Nat
  goodSince : Option Int
  qualSince : Option Int
  tallySum : Int
  badCfg : Bool
  lastEdge : Int
  lastMsg : Int
  winAt : Int
  pends : SMap Nat
  deriving DecidableEq, Repr

def Cand.reset : Cand := ⟨none, none, none, false, [], 0, none, none, 0, false, 0, 0, 0, []⟩

/-- A held open-loop write, the instant of the latest applied one, and the TIME cycle of its arrival (R170). -/
structure OlWrite where
  held : Option Int
  lastAt : Option Int
  cyc : Nat
  deriving DecidableEq, Repr

/-- A DPLL (R158 to R170). `b` is the build-out offset in 2^-48 ns, `theta` the phase against the Last in 2^-48 ns / 5,
`thSlew` the phase still to be slewed into theta in 2^-48 ns; `realign` says that b is being slewed to 0 and `realignStep`
that a step of the Last will remove it; `avgHist` has the latest values of the average with the instant from which each
stood, newest first. -/
structure Dpll where
  integ : Int
  w : Int
  theta : Int
  b : Int
  e : Int
  lastE : Option Int
  pboPending : Bool
  firstUpd : Bool
  lastUpd : Int
  sumE : Int
  nE : Nat
  lockSince : Option Int
  avg : Int
  avgHist : List (Int × Int)
  lockedSecs : Nat
  hoVal : Int
  hoSince : Int
  freq : OlWrite
  phase : OlWrite
  thSlew : Int
  thRes5 : Nat
  realign : Bool
  realignStep : Bool
  bRes5 : Nat
  forceLost : Bool
  deriving DecidableEq, Repr

def Dpll.reset : Dpll where
  integ := 0
  w := 0
  theta := 0
  b := 0
  e := 0
  lastE := none
  pboPending := false
  firstUpd := false
  lastUpd := 0
  sumE := 0
  nE := 0
  lockSince := none
  avg := 0
  avgHist := []
  lockedSecs := 0
  hoVal := 0
  hoSince := 0
  freq := ⟨none, none, 0⟩
  phase := ⟨none, none, 0⟩
  thSlew := 0
  thRes5 := 0
  realign := false
  realignStep := false
  bRes5 := 0
  forceLost := false

/-- The reference block: candidates, DPLLs, the sums over Last cycles behind mean rate words (w), with the runs of the latest words, and
mean control values of DPLL0 (w_dpll), the oscillator's correction and warm-up, and whether DPLL0 has been LOCKED on
one QUALIFIED candidate without drift through the interval of the log's next short and long entry (0 no, 1 not looked at yet, 2 + the
candidate; R485). -/
structure Ref where
  cands : List Cand
  dplls : List Dpll
  rateSum : Int
  rateRuns : List (Int × Nat)
  cycles : Int
  wSum : Int
  xoSince : Int
  xoWSum : Int
  xoCycles : Int
  xoSamples : List Int
  steadyS : Nat
  steadyL : Nat
  deriving DecidableEq, Repr

/-- The block at a COLD reset. -/
def Ref.reset : Ref where
  cands := List.replicate 16 Cand.reset
  dplls := List.replicate 4 Dpll.reset
  rateSum := 0
  rateRuns := []
  cycles := 0
  wSum := 0
  xoSince := 0
  xoWSum := 0
  xoCycles := 0
  xoSamples := []
  steadyS := 0
  steadyL := 0

end Sys2Proof.Machine
end

