-- ==== Sys2Proof/Machine/Regs.lean ====
section
/-!
DEFINITION. Sys2Proof/Machine/Regs.lean: the register map of BAR0, from the register tables of spec/00 to spec/18 and the
index of spec/19: the fields of every register (offset, lowest bit, width, instance stride), how software may access each
one (R10), and the reset value of each field that does not reset to 0.
-/
namespace Sys2Proof.Machine

/-- A register field. `off` is the BAR0 offset of its word for instance 0, `lo` its lowest bit, `w` its width,
`st` the distance between instances: 2^20 for a per-instance register of a windowed block (R13), else the stride
the register table states (0 where there is one register). -/
structure Fld where
  off : Nat
  lo : Nat
  w : Nat
  st : Nat
  deriving DecidableEq, Repr

/-- Access types of R10. -/
inductive Acc where
  | rw | ro | w1c | wo | rws
  deriving DecidableEq, Repr

/-- One field of a register word as software sees it. -/
structure FRow where
  lo : Nat
  w : Nat
  acc : Acc
  deriving DecidableEq, Repr

/-- A register word: `count` words at `off`, `off + stride`, ... with the same fields. -/
structure RegRow where
  off : Nat
  count : Nat
  stride : Nat
  fields : List FRow
  deriving DecidableEq, Repr

namespace R

-- BAR0 block 0x0
def GLB_ID_DEVICE : Fld := ⟨0x00000, 16, 16, 0x0⟩
def GLB_ID_STEPPING : Fld := ⟨0x00000, 8, 8, 0x0⟩
def GLB_ID_VENDOR : Fld := ⟨0x00000, 0, 8, 0x0⟩
def GLB_CAP_VALID : Fld := ⟨0x00004, 31, 1, 0x0⟩
def GLB_CAP_FUSE_SAFE : Fld := ⟨0x00004, 30, 1, 0x0⟩
def GLB_CAP_GRADE : Fld := ⟨0x00004, 6, 2, 0x0⟩
def GLB_CAP_CNT8 : Fld := ⟨0x00004, 5, 1, 0x0⟩
def GLB_CAP_OCXO : Fld := ⟨0x00004, 4, 1, 0x0⟩
def GLB_CAP_FRER_ELIM : Fld := ⟨0x00004, 3, 1, 0x0⟩
def GLB_CAP_FRER_RESEQ : Fld := ⟨0x00004, 2, 1, 0x0⟩
def GLB_CAP_DOMAIN_B : Fld := ⟨0x00004, 1, 1, 0x0⟩
def GLB_CAP_LANES_HI : Fld := ⟨0x00004, 0, 1, 0x0⟩
-- BAR0 block 0x1
def RST_STATUS_READY : Fld := ⟨0x10000, 31, 1, 0x0⟩
def RST_STATUS_DEGRADED : Fld := ⟨0x10000, 30, 1, 0x0⟩
def RST_STATUS_SAFE_DEFAULTS : Fld := ⟨0x10000, 29, 1, 0x0⟩
def RST_STATUS_FATAL_PENDING : Fld := ⟨0x10000, 28, 1, 0x0⟩
def RST_STATUS_LAST_LEVEL : Fld := ⟨0x10000, 26, 2, 0x0⟩
def RST_STATUS_LAST_SRC : Fld := ⟨0x10000, 22, 4, 0x0⟩
def RST_STATUS_PROFILE_APPLIED : Fld := ⟨0x10000, 21, 1, 0x0⟩
def RST_STATUS_PROFILE_SLOT : Fld := ⟨0x10000, 19, 2, 0x0⟩
def RST_STATUS_PROFILE_NONE : Fld := ⟨0x10000, 18, 1, 0x0⟩
def RST_STATUS_PROFSEL : Fld := ⟨0x10000, 16, 2, 0x0⟩
def RST_STATUS_SEQ_BUSY : Fld := ⟨0x10000, 15, 1, 0x0⟩
def RST_CAUSE_SRC : Fld := ⟨0x10004, 0, 9, 0x0⟩
def RST_EVENT_SAFE_OSC_RANGE : Fld := ⟨0x10008, 9, 1, 0x0⟩
def RST_EVENT_PROFILE_WAIT_TIMEOUT : Fld := ⟨0x10008, 8, 1, 0x0⟩
def RST_EVENT_PROFILE_EMPTY : Fld := ⟨0x10008, 7, 1, 0x0⟩
def RST_EVENT_RECORD_ABSENT : Fld := ⟨0x10008, 6, 1, 0x0⟩
def RST_EVENT_LOAD_RETRY : Fld := ⟨0x10008, 5, 1, 0x0⟩
def RST_EVENT_QUARANTINE : Fld := ⟨0x10008, 4, 1, 0x0⟩
def RST_EVENT_STEP_LATE : Fld := ⟨0x10008, 3, 1, 0x0⟩
def RST_EVENT_RESET_NO_TARGET : Fld := ⟨0x10008, 2, 1, 0x0⟩
def RST_EVENT_MAP_LOCKED : Fld := ⟨0x10008, 1, 1, 0x0⟩
def RST_SRC_MAP_MAP_LOCK : Fld := ⟨0x1000C, 31, 1, 0x0⟩
def RST_SRC_MAP_DRIVE : Fld := ⟨0x1000C, 2, 1, 0x0⟩
def RST_SRC_MAP_LEVEL : Fld := ⟨0x1000C, 0, 2, 0x0⟩
def RST_ISL_RELEASED_ISLAND : Fld := ⟨0x10010, 0, 32, 0x0⟩
def RST_ISL_CLKVALID_ISLAND : Fld := ⟨0x10014, 0, 32, 0x0⟩
def RST_ISL_FENCED_ISLAND : Fld := ⟨0x10018, 0, 32, 0x0⟩
def RST_ISL_QUAR_ISLAND : Fld := ⟨0x1001C, 0, 32, 0x0⟩
def RST_FORCE_ISLAND : Fld := ⟨0x10020, 0, 32, 0x0⟩
def RST_REQ_GO : Fld := ⟨0x10024, 31, 1, 0x0⟩
def RST_REQ_ISLAND : Fld := ⟨0x10024, 0, 5, 0x0⟩
def RST_PROF_CFG_SRC : Fld := ⟨0x10030, 31, 1, 0x0⟩
def RST_PROF_CFG_SLOT : Fld := ⟨0x10030, 0, 2, 0x0⟩
def RST_PROF_STAT_FAIL_CAUSE : Fld := ⟨0x10034, 24, 3, 0x0⟩
def RST_PROF_STAT_STATE : Fld := ⟨0x10034, 0, 2, 0x0⟩
def RST_LOAD_STAT_FAILED : Fld := ⟨0x10038, 8, 4, 0x0⟩
def RST_LOAD_STAT_PROFILE_ATT : Fld := ⟨0x10038, 6, 2, 0x0⟩
def RST_LOAD_STAT_RECORD_ATT : Fld := ⟨0x10038, 4, 2, 0x0⟩
def RST_LOAD_STAT_TRIM_ATT : Fld := ⟨0x10038, 2, 2, 0x0⟩
def RST_LOAD_STAT_FUSE_ATT : Fld := ⟨0x10038, 0, 2, 0x0⟩
def RST_MILESTONE_T_US : Fld := ⟨0x10040, 0, 32, 0x4⟩
def RST_CNT_GLITCH_COUNT : Fld := ⟨0x10060, 0, 32, 0x0⟩
def RST_FUSE_ADDR_WORD : Fld := ⟨0x10064, 0, 7, 0x0⟩
def RST_FUSE_DATA_VALUE : Fld := ⟨0x10068, 0, 32, 0x0⟩
-- BAR0 block 0x2
def FLT_STATUS_OPEN : Fld := ⟨0x20000, 31, 1, 0x0⟩
def FLT_STATUS_MODE : Fld := ⟨0x20000, 29, 2, 0x0⟩
def FLT_STATUS_ALIVE_RUN : Fld := ⟨0x20000, 28, 1, 0x0⟩
def FLT_STATUS_FATAL_PENDING : Fld := ⟨0x20000, 27, 1, 0x0⟩
def FLT_STATUS_OPEN_SEQ : Fld := ⟨0x20000, 16, 8, 0x0⟩
def FLT_STATUS_OPEN_CLASS : Fld := ⟨0x20000, 14, 2, 0x0⟩
def FLT_STATUS_NEWEST : Fld := ⟨0x20000, 0, 4, 0x0⟩
def FLT_CTL_TEST : Fld := ⟨0x20004, 31, 1, 0x0⟩
def FLT_CTL_ALIVE_RESUME : Fld := ⟨0x20004, 30, 1, 0x0⟩
def FLT_ACK_GO : Fld := ⟨0x20008, 31, 1, 0x0⟩
def FLT_ACK_SEQ : Fld := ⟨0x20008, 0, 8, 0x0⟩
def FLT_TIMER_REM_MS : Fld := ⟨0x2000C, 0, 16, 0x0⟩
def FLT_FAULT_EVENT_FAULT : Fld := ⟨0x20010, 0, 1, 0x0⟩
def FLT_GEN_EVENT_ALIVE_STOPPED : Fld := ⟨0x20014, 7, 1, 0x0⟩
def FLT_GEN_EVENT_FLT_ACK_STALE : Fld := ⟨0x20014, 6, 1, 0x0⟩
def FLT_GEN_EVENT_PERIOD_INVALID : Fld := ⟨0x20014, 5, 1, 0x0⟩
def FLT_GEN_EVENT_TIME_FORMAT : Fld := ⟨0x20014, 4, 1, 0x0⟩
def FLT_GEN_EVENT_REG_ISLAND_DOWN : Fld := ⟨0x20014, 3, 1, 0x0⟩
def FLT_GEN_EVENT_REG_ACCESS_UNMAPPED : Fld := ⟨0x20014, 2, 1, 0x0⟩
def FLT_GEN_EVENT_REG_ACCESS_SIZE : Fld := ⟨0x20014, 1, 1, 0x0⟩
def FLT_GEN_EVENT_GRADE_ABSENT_WRITE : Fld := ⟨0x20014, 0, 1, 0x0⟩
def FLT_ESC_COUNT : Fld := ⟨0x20018, 16, 16, 0x0⟩
def FLT_ESC_LAST_ISLAND : Fld := ⟨0x20018, 0, 5, 0x0⟩
def FLT_SRC_PEND_PEND : Fld := ⟨0x20040, 0, 32, 0x4⟩
def FLT_SRC_CFG_CLASS : Fld := ⟨0x20400, 30, 2, 0x4⟩
def FLT_SRC_CFG_LOG : Fld := ⟨0x20400, 29, 1, 0x4⟩
def FLT_SRC_CFG_ESC_ENA : Fld := ⟨0x20400, 28, 1, 0x4⟩
def FLT_SRC_CFG_REACT_MS : Fld := ⟨0x20400, 0, 16, 0x4⟩
def FLT_REC_WORD : Fld := ⟨0x21000, 0, 32, 0x4⟩
-- BAR0 block 0x3
def HIF_GCFG_EVT_RING_ENA : Fld := ⟨0x30004, 31, 1, 0x0⟩
def HIF_GCFG_EVT_RING : Fld := ⟨0x30004, 24, 5, 0x0⟩
def HIF_GCFG_TDC_RING_ENA : Fld := ⟨0x30004, 23, 1, 0x0⟩
def HIF_GCFG_TDC_RING : Fld := ⟨0x30004, 16, 5, 0x0⟩
def HIF_GSTAT_BME : Fld := ⟨0x30008, 31, 1, 0x0⟩
def HIF_GSTAT_LINK_SPEED : Fld := ⟨0x30008, 28, 3, 0x0⟩
def HIF_GSTAT_LINK_WIDTH : Fld := ⟨0x30008, 25, 3, 0x0⟩
def HIF_GSTAT_MCU_READY : Fld := ⟨0x30008, 24, 1, 0x0⟩
def HIF_EVENT_QSPI_ERROR : Fld := ⟨0x3000C, 6, 1, 0x0⟩
def HIF_EVENT_I2C_TIMEOUT : Fld := ⟨0x3000C, 5, 1, 0x0⟩
def HIF_EVENT_I2C_PEC : Fld := ⟨0x3000C, 4, 1, 0x0⟩
def HIF_EVENT_TDC_RING_OVF : Fld := ⟨0x3000C, 3, 1, 0x0⟩
def HIF_EVENT_EVT_RING_OVF : Fld := ⟨0x3000C, 2, 1, 0x0⟩
def HIF_EVENT_RING_CFG_BUSY : Fld := ⟨0x3000C, 1, 1, 0x0⟩
def HIF_EVENT_ADIT_INVALID : Fld := ⟨0x3000C, 0, 1, 0x0⟩
def HIF_RX_MAP_RING : Fld := ⟨0x30010, 0, 5, 0x4⟩
def HIF_VEC_ARM_V : Fld := ⟨0x30020, 0, 32, 0x4⟩
def HIF_VEC_STAT_V : Fld := ⟨0x30028, 0, 32, 0x4⟩
def HIF_QSPI_CFG_PRESENT : Fld := ⟨0x30030, 31, 1, 0x0⟩
def HIF_QSPI_CFG_ADDR4 : Fld := ⟨0x30030, 30, 1, 0x0⟩
def HIF_QSPI_CFG_READ_MODE : Fld := ⟨0x30030, 28, 2, 0x0⟩
def HIF_QSPI_CFG_SIZE_LOG2 : Fld := ⟨0x30030, 16, 8, 0x0⟩
def HIF_QSPI_CFG_DIV : Fld := ⟨0x30030, 0, 9, 0x0⟩
def HIF_I2C_CFG_PEC_ENA : Fld := ⟨0x30034, 31, 1, 0x0⟩
def HIF_I2C_CFG_ENA : Fld := ⟨0x30034, 30, 1, 0x0⟩
def HIF_I2C_CFG_ADDR : Fld := ⟨0x30034, 0, 7, 0x0⟩
def HIF_RING_CFG_KIND : Fld := ⟨0x30100, 29, 3, 0x100000⟩
def HIF_RING_CFG_WB_ENA : Fld := ⟨0x30100, 28, 1, 0x100000⟩
def HIF_RING_CFG_SIZE_LOG2 : Fld := ⟨0x30100, 24, 4, 0x100000⟩
def HIF_RING_CFG_VECTOR : Fld := ⟨0x30100, 16, 6, 0x100000⟩
def HIF_RING_BASE_ADDR_LO : Fld := ⟨0x30104, 0, 32, 0x100000⟩
def HIF_RING_BASE_ADDR_HI : Fld := ⟨0x30108, 0, 32, 0x100000⟩
def HIF_RING_WB_ADDR_LO : Fld := ⟨0x3010C, 0, 32, 0x100000⟩
def HIF_RING_WB_ADDR_HI : Fld := ⟨0x30110, 0, 32, 0x100000⟩
def HIF_RING_CTL_START : Fld := ⟨0x30114, 31, 1, 0x100000⟩
def HIF_RING_CTL_STOP : Fld := ⟨0x30114, 30, 1, 0x100000⟩
def HIF_RING_CTL_RESET : Fld := ⟨0x30114, 29, 1, 0x100000⟩
def HIF_RING_STAT_STATE : Fld := ⟨0x30118, 29, 3, 0x100000⟩
def HIF_RING_STAT_ERR_CAUSE : Fld := ⟨0x30118, 26, 3, 0x100000⟩
def HIF_RING_STAT_DEV_INDEX : Fld := ⟨0x30118, 0, 16, 0x100000⟩
def HIF_RING_IRQ_TIME_US : Fld := ⟨0x3011C, 16, 16, 0x100000⟩
def HIF_RING_IRQ_COUNT : Fld := ⟨0x3011C, 0, 16, 0x100000⟩
def HIF_RING_TMO_TMO_MS : Fld := ⟨0x30120, 0, 16, 0x100000⟩
def HIF_RING_CNT_COUNT : Fld := ⟨0x30124, 0, 32, 0x100000⟩
def HIF_RING_LOST_COUNT : Fld := ⟨0x30128, 0, 32, 0x100000⟩
def HIF_RING_EVENT_RX_STALL : Fld := ⟨0x3012C, 4, 1, 0x100000⟩
def HIF_RING_EVENT_CMD_TIMEOUT : Fld := ⟨0x3012C, 3, 1, 0x100000⟩
def HIF_RING_EVENT_DMA_ERROR : Fld := ⟨0x3012C, 2, 1, 0x100000⟩
def HIF_RING_EVENT_DOORBELL_INVALID : Fld := ⟨0x3012C, 1, 1, 0x100000⟩
def HIF_RING_EVENT_STOPPED : Fld := ⟨0x3012C, 0, 1, 0x100000⟩
def HIF_EVT_VEC_ENA : Fld := ⟨0x30400, 31, 1, 0x4⟩
def HIF_EVT_VEC_VECTOR : Fld := ⟨0x30400, 0, 6, 0x4⟩
def FWT_STATUS_MGMT_RUN : Fld := ⟨0x38000, 31, 1, 0x0⟩
def FWT_STATUS_LIMP : Fld := ⟨0x38000, 30, 1, 0x0⟩
def FWT_STATUS_SERVO_RUN : Fld := ⟨0x38000, 29, 1, 0x0⟩
def FWT_STATUS_STAGED_MGMT : Fld := ⟨0x38000, 28, 1, 0x0⟩
def FWT_STATUS_STAGED_SERVO : Fld := ⟨0x38000, 27, 1, 0x0⟩
def FWT_STATUS_SIG_REQUIRED : Fld := ⟨0x38000, 26, 1, 0x0⟩
def FWT_STATUS_OWNER_KEY : Fld := ⟨0x38000, 25, 1, 0x0⟩
def FWT_STATUS_BOOT_DONE : Fld := ⟨0x38000, 24, 1, 0x0⟩
def FWT_STATUS_MGMT_CAUSE : Fld := ⟨0x38000, 20, 4, 0x0⟩
def FWT_STATUS_SERVO_CAUSE : Fld := ⟨0x38000, 16, 4, 0x0⟩
def FWT_STATUS_MGMT_SRC : Fld := ⟨0x38000, 14, 2, 0x0⟩
def FWT_STATUS_SERVO_SRC : Fld := ⟨0x38000, 12, 2, 0x0⟩
def FWT_STATUS_MGMT_SIG : Fld := ⟨0x38000, 10, 2, 0x0⟩
def FWT_STATUS_SERVO_SIG : Fld := ⟨0x38000, 8, 2, 0x0⟩
def FWT_EVENT_SERVO_WDOG : Fld := ⟨0x38004, 5, 1, 0x0⟩
def FWT_EVENT_STAGE_REJECTED : Fld := ⟨0x38004, 4, 1, 0x0⟩
def FWT_EVENT_STAGE_DONE : Fld := ⟨0x38004, 3, 1, 0x0⟩
def FWT_EVENT_FW_COPY_FALLBACK : Fld := ⟨0x38004, 2, 1, 0x0⟩
def FWT_EVENT_SERVO_NOT_STARTED : Fld := ⟨0x38004, 1, 1, 0x0⟩
def FWT_EVENT_FW_LIMP : Fld := ⟨0x38004, 0, 1, 0x0⟩
def FWT_HWC_HWC : Fld := ⟨0x38008, 0, 16, 0x0⟩
def FWT_CTL_SERVO_RESTART : Fld := ⟨0x3800C, 31, 1, 0x0⟩
def FWT_CTL_DISCARD_MGMT : Fld := ⟨0x3800C, 30, 1, 0x0⟩
def FWT_CTL_DISCARD_SERVO : Fld := ⟨0x3800C, 29, 1, 0x0⟩
def FWT_WDOG_MGMT_ARMED : Fld := ⟨0x38010, 31, 1, 0x0⟩
def FWT_WDOG_SERVO_ARMED : Fld := ⟨0x38010, 30, 1, 0x0⟩
def FWT_WDOG_MGMT_TMO_MS : Fld := ⟨0x38010, 12, 12, 0x0⟩
def FWT_WDOG_SERVO_TMO_MS : Fld := ⟨0x38010, 0, 12, 0x0⟩
def FWT_MGMT_VER_VERSION : Fld := ⟨0x38014, 0, 32, 0x0⟩
def FWT_SERVO_VER_VERSION : Fld := ⟨0x38018, 0, 32, 0x0⟩
def FWT_SIF_MGMT : Fld := ⟨0x3801C, 16, 16, 0x0⟩
def FWT_SIF_SERVO : Fld := ⟨0x3801C, 0, 16, 0x0⟩
def FWT_MEAS_CNT_CNT : Fld := ⟨0x38020, 0, 8, 0x4⟩
def FWT_MEAS0_WORD : Fld := ⟨0x38100, 0, 32, 0x4⟩
def FWT_MEAS1_WORD : Fld := ⟨0x38140, 0, 32, 0x4⟩
def FWT_MEAS2_WORD : Fld := ⟨0x38180, 0, 32, 0x4⟩
def FWT_MEAS3_WORD : Fld := ⟨0x381C0, 0, 32, 0x4⟩
def FWT_MEAS4_WORD : Fld := ⟨0x38200, 0, 32, 0x4⟩
def FWT_MEAS5_WORD : Fld := ⟨0x38240, 0, 32, 0x4⟩
def FWT_MEAS6_WORD : Fld := ⟨0x38280, 0, 32, 0x4⟩
def FWT_MEAS7_WORD : Fld := ⟨0x382C0, 0, 32, 0x4⟩
-- BAR0 block 0x4
def TIM_CTL_SWITCH_AT : Fld := ⟨0x40000, 7, 1, 0x0⟩
def TIM_CTL_WELT_ENA : Fld := ⟨0x40000, 6, 1, 0x0⟩
def TIM_CTL_ADOPT : Fld := ⟨0x40000, 4, 2, 0x0⟩
def TIM_CTL_DOM_RELEASE : Fld := ⟨0x40000, 1, 1, 0x0⟩
def TIM_CTL_DOM_REQ : Fld := ⟨0x40000, 0, 1, 0x0⟩
def TIM_STATUS_DOM_HELD : Fld := ⟨0x40004, 8, 1, 0x0⟩
def TIM_STATUS_LAST_VALID : Fld := ⟨0x40004, 7, 1, 0x0⟩
def TIM_STATUS_WELT_VALID : Fld := ⟨0x40004, 6, 1, 0x0⟩
def TIM_STATUS_CONVERGING : Fld := ⟨0x40004, 5, 1, 0x0⟩
def TIM_STATUS_BLENDING : Fld := ⟨0x40004, 4, 1, 0x0⟩
def TIM_STATUS_SWITCH_ARMED : Fld := ⟨0x40004, 3, 1, 0x0⟩
def TIM_STATUS_SLEW_BUSY : Fld := ⟨0x40004, 2, 1, 0x0⟩
def TIM_STATUS_STEP_PENDING : Fld := ⟨0x40004, 1, 1, 0x0⟩
def TIM_STATUS_ACTIVE_DOM : Fld := ⟨0x40004, 0, 1, 0x0⟩
def TIM_EVENT_LAST_DISCONTINUITY : Fld := ⟨0x40008, 8, 1, 0x0⟩
def TIM_EVENT_DOM_STALE : Fld := ⟨0x40008, 7, 1, 0x0⟩
def TIM_EVENT_WELT_LOST : Fld := ⟨0x40008, 6, 1, 0x0⟩
def TIM_EVENT_SWITCH_REFUSED : Fld := ⟨0x40008, 5, 1, 0x0⟩
def TIM_EVENT_SWITCH_DONE : Fld := ⟨0x40008, 4, 1, 0x0⟩
def TIM_EVENT_RATE_CLAMPED : Fld := ⟨0x40008, 3, 1, 0x0⟩
def TIM_EVENT_SLEW_DONE : Fld := ⟨0x40008, 2, 1, 0x0⟩
def TIM_EVENT_STEP_REJECTED : Fld := ⟨0x40008, 1, 1, 0x0⟩
def TIM_EVENT_LAST_STEPPED : Fld := ⟨0x40008, 0, 1, 0x0⟩
def TIM_LAST_NS : Fld := ⟨0x40010, 0, 32, 0x0⟩
def TIM_LAST_SEC_LO : Fld := ⟨0x40014, 0, 32, 0x0⟩
def TIM_LAST_SEC_HI : Fld := ⟨0x40018, 0, 16, 0x0⟩
def TIM_LAST_FRAC : Fld := ⟨0x40018, 16, 16, 0x0⟩
def TIM_LAST_SET_NS : Fld := ⟨0x40020, 0, 32, 0x0⟩
def TIM_LAST_SET_SEC_LO : Fld := ⟨0x40024, 0, 32, 0x0⟩
def TIM_LAST_SET_SEC_HI : Fld := ⟨0x40028, 0, 16, 0x0⟩
def TIM_LAST_SET_FRAC : Fld := ⟨0x40028, 16, 16, 0x0⟩
def TIM_STEP_AMOUNT_LO : Fld := ⟨0x40030, 0, 32, 0x0⟩
def TIM_STEP_AMOUNT_HI : Fld := ⟨0x40034, 0, 32, 0x0⟩
def TIM_RATE_W_LO : Fld := ⟨0x40040, 0, 32, 0x0⟩
def TIM_RATE_W_HI : Fld := ⟨0x40044, 0, 16, 0x0⟩
def TIM_SLEW_CFG_STEP_THRESH_US : Fld := ⟨0x40048, 16, 16, 0x0⟩
def TIM_SLEW_CFG_SLEW_PPB : Fld := ⟨0x40048, 0, 16, 0x0⟩
def TIM_SLEW_AMOUNT_LO : Fld := ⟨0x40050, 0, 32, 0x0⟩
def TIM_SLEW_AMOUNT_HI : Fld := ⟨0x40054, 0, 32, 0x0⟩
def TIM_SLEW_REM_REM_LO : Fld := ⟨0x40058, 0, 32, 0x0⟩
def TIM_SLEW_REM_REM_HI : Fld := ⟨0x4005C, 0, 32, 0x0⟩
def TIM_SWITCH_TIME_NS : Fld := ⟨0x40060, 0, 32, 0x0⟩
def TIM_SWITCH_TIME_SEC_LO : Fld := ⟨0x40064, 0, 32, 0x0⟩
def TIM_SWITCH_TIME_SEC_HI : Fld := ⟨0x40068, 0, 16, 0x0⟩
def TIM_SWITCH_TIME_FRAC : Fld := ⟨0x40068, 16, 16, 0x0⟩
def TIM_TARGET_TGT_LO : Fld := ⟨0x40070, 0, 32, 0x0⟩
def TIM_TARGET_TGT_HI : Fld := ⟨0x40074, 0, 32, 0x0⟩
def TIM_TARGET_TGT_RATE : Fld := ⟨0x40078, 0, 32, 0x0⟩
def TIM_DOMA_CFG_ENA : Fld := ⟨0x40100, 31, 1, 0x0⟩
def TIM_DOMA_CFG_TIMESCALE : Fld := ⟨0x40100, 30, 1, 0x0⟩
def TIM_DOMA_CFG_UTC_VALID : Fld := ⟨0x40100, 29, 1, 0x0⟩
def TIM_DOMA_CFG_LEAP61 : Fld := ⟨0x40100, 28, 1, 0x0⟩
def TIM_DOMA_CFG_LEAP59 : Fld := ⟨0x40100, 27, 1, 0x0⟩
def TIM_DOMA_CFG_UTC_OFFSET : Fld := ⟨0x40100, 0, 16, 0x0⟩
def TIM_DOMA_OFFSET_NS : Fld := ⟨0x40110, 0, 32, 0x0⟩
def TIM_DOMA_OFFSET_SEC_LO : Fld := ⟨0x40114, 0, 32, 0x0⟩
def TIM_DOMA_OFFSET_SEC_HI : Fld := ⟨0x40118, 0, 16, 0x0⟩
def TIM_DOMA_OFFSET_FRAC : Fld := ⟨0x40118, 16, 16, 0x0⟩
def TIM_DOMA_RATE_RATE : Fld := ⟨0x40120, 0, 32, 0x0⟩
def TIM_DOMA_STAT_FRESH : Fld := ⟨0x40124, 31, 1, 0x0⟩
def TIM_DOMA_STAT_AGE_US : Fld := ⟨0x40124, 0, 24, 0x0⟩
def TIM_DOMB_CFG_ENA : Fld := ⟨0x40180, 31, 1, 0x0⟩
def TIM_DOMB_CFG_TIMESCALE : Fld := ⟨0x40180, 30, 1, 0x0⟩
def TIM_DOMB_CFG_UTC_VALID : Fld := ⟨0x40180, 29, 1, 0x0⟩
def TIM_DOMB_CFG_LEAP61 : Fld := ⟨0x40180, 28, 1, 0x0⟩
def TIM_DOMB_CFG_LEAP59 : Fld := ⟨0x40180, 27, 1, 0x0⟩
def TIM_DOMB_CFG_UTC_OFFSET : Fld := ⟨0x40180, 0, 16, 0x0⟩
def TIM_DOMB_OFFSET_NS : Fld := ⟨0x40190, 0, 32, 0x0⟩
def TIM_DOMB_OFFSET_SEC_LO : Fld := ⟨0x40194, 0, 32, 0x0⟩
def TIM_DOMB_OFFSET_SEC_HI : Fld := ⟨0x40198, 0, 16, 0x0⟩
def TIM_DOMB_OFFSET_FRAC : Fld := ⟨0x40198, 16, 16, 0x0⟩
def TIM_DOMB_RATE_RATE : Fld := ⟨0x401A0, 0, 32, 0x0⟩
def TIM_DOMB_STAT_FRESH : Fld := ⟨0x401A4, 31, 1, 0x0⟩
def TIM_DOMB_STAT_AGE_US : Fld := ⟨0x401A4, 0, 24, 0x0⟩
def TIM_WELT_CFG_MAX_AGE_MS : Fld := ⟨0x40200, 16, 16, 0x0⟩
def TIM_WELT_CFG_MIN_UPDATES : Fld := ⟨0x40200, 8, 8, 0x0⟩
def TIM_WELT_CFG_KI_SHIFT : Fld := ⟨0x40200, 4, 4, 0x0⟩
def TIM_WELT_CFG_KP_SHIFT : Fld := ⟨0x40200, 0, 3, 0x0⟩
def TIM_WELT_CFG2_BLEND_DS : Fld := ⟨0x40204, 16, 16, 0x0⟩
def TIM_WELT_CFG2_RESID_NS : Fld := ⟨0x40204, 0, 16, 0x0⟩
def TIM_WELT_OFFSET_NS : Fld := ⟨0x40210, 0, 32, 0x0⟩
def TIM_WELT_OFFSET_SEC_LO : Fld := ⟨0x40214, 0, 32, 0x0⟩
def TIM_WELT_OFFSET_SEC_HI : Fld := ⟨0x40218, 0, 16, 0x0⟩
def TIM_WELT_OFFSET_FRAC : Fld := ⟨0x40218, 16, 16, 0x0⟩
def TIM_WELT_RATE_RATE : Fld := ⟨0x40220, 0, 32, 0x0⟩
def TIM_WELT_STAT_UPDATES : Fld := ⟨0x40224, 24, 8, 0x0⟩
def TIM_WELT_STAT_LAST_RESID_NS : Fld := ⟨0x40224, 0, 24, 0x0⟩
-- BAR0 block 0x5
def TSU_GCFG_TALLY_SLIP : Fld := ⟨0x50004, 16, 10, 0x0⟩
def TSU_GCFG_TC_RATE_CORR : Fld := ⟨0x50004, 1, 1, 0x0⟩
def TSU_GCFG_TS_ENA : Fld := ⟨0x50004, 0, 1, 0x0⟩
def TSU_GSTAT_STEP_EPOCH : Fld := ⟨0x50008, 4, 2, 0x0⟩
def TSU_GSTAT_CAL_DONE : Fld := ⟨0x50008, 2, 1, 0x0⟩
def TSU_GSTAT_RXCOUNT_VALID : Fld := ⟨0x50008, 1, 1, 0x0⟩
def TSU_GSTAT_OFFSET_LOCK : Fld := ⟨0x50008, 0, 1, 0x0⟩
def TSU_STEP_AMT_AMT_LO : Fld := ⟨0x50010, 0, 32, 0x0⟩
def TSU_STEP_AMT_AMT_HI : Fld := ⟨0x50014, 0, 32, 0x0⟩
def TSU_CTL_NOTRAILER_ACT : Fld := ⟨0x50100, 6, 2, 0x100000⟩
def TSU_CTL_ONESTEP_ENA : Fld := ⟨0x50100, 2, 1, 0x100000⟩
def TSU_CTL_TX_TS_ENA : Fld := ⟨0x50100, 1, 1, 0x100000⟩
def TSU_CTL_RX_TS_ENA : Fld := ⟨0x50100, 0, 1, 0x100000⟩
def TSU_STATUS_TIMING_LANE : Fld := ⟨0x50104, 24, 8, 0x100000⟩
def TSU_STATUS_LANES : Fld := ⟨0x50104, 20, 4, 0x100000⟩
def TSU_STATUS_MODE : Fld := ⟨0x50104, 16, 4, 0x100000⟩
def TSU_STATUS_RATE_MATCHED : Fld := ⟨0x50104, 7, 1, 0x100000⟩
def TSU_STATUS_DESKEW_VALID : Fld := ⟨0x50104, 6, 1, 0x100000⟩
def TSU_STATUS_TALLY_LOCK : Fld := ⟨0x50104, 5, 1, 0x100000⟩
def TSU_STATUS_TALLY_VALID : Fld := ⟨0x50104, 4, 1, 0x100000⟩
def TSU_STATUS_CAL_VALID : Fld := ⟨0x50104, 3, 1, 0x100000⟩
def TSU_STATUS_PORT_ACTIVE : Fld := ⟨0x50104, 0, 1, 0x100000⟩
def TSU_EVENT_CAL_UPDATED : Fld := ⟨0x50108, 5, 1, 0x100000⟩
def TSU_EVENT_RESIDENCE_SPAN_STEP : Fld := ⟨0x50108, 4, 1, 0x100000⟩
def TSU_EVENT_ONESTEP_NO_TRAILER : Fld := ⟨0x50108, 3, 1, 0x100000⟩
def TSU_EVENT_DESKEW_CHANGED : Fld := ⟨0x50108, 2, 1, 0x100000⟩
def TSU_EVENT_TALLY_UNLOCK : Fld := ⟨0x50108, 1, 1, 0x100000⟩
def TSU_EVENT_CAL_INVALID : Fld := ⟨0x50108, 0, 1, 0x100000⟩
def TSU_CAL_RX_DELAY : Fld := ⟨0x50110, 0, 32, 0x100000⟩
def TSU_CAL_TX_DELAY : Fld := ⟨0x50114, 0, 32, 0x100000⟩
def TSU_PKG_PKG_TX : Fld := ⟨0x50118, 16, 16, 0x100000⟩
def TSU_PKG_PKG_RX : Fld := ⟨0x50118, 0, 16, 0x100000⟩
def TSU_FIX_F_TX : Fld := ⟨0x50120, 16, 16, 0x100000⟩
def TSU_FIX_F_RX : Fld := ⟨0x50120, 0, 16, 0x100000⟩
def TSU_DESKEW_VALID : Fld := ⟨0x50124, 31, 1, 0x100000⟩
def TSU_DESKEW_D : Fld := ⟨0x50124, 0, 16, 0x100000⟩
def TSU_ASYM_RX_LATENCY : Fld := ⟨0x50130, 0, 32, 0x100000⟩
def TSU_ASYM_TX_LATENCY : Fld := ⟨0x50134, 0, 32, 0x100000⟩
def TSU_TALLY_VALID : Fld := ⟨0x50140, 31, 1, 0x100000⟩
def TSU_TALLY_LOCK : Fld := ⟨0x50140, 30, 1, 0x100000⟩
def TSU_TALLY_DPHI : Fld := ⟨0x50140, 16, 11, 0x100000⟩
def TSU_TALLY_PHI : Fld := ⟨0x50140, 0, 11, 0x100000⟩
def TSU_TALLY_CNT_COUNT : Fld := ⟨0x50144, 0, 32, 0x100000⟩
def TSU_RX_LAST_WORD0 : Fld := ⟨0x50150, 0, 32, 0x100000⟩
def TSU_RX_LAST_WORD1 : Fld := ⟨0x50154, 0, 32, 0x100000⟩
def TSU_RX_LAST_WORD2 : Fld := ⟨0x50158, 0, 32, 0x100000⟩
def TSU_RX_LAST_WORD3 : Fld := ⟨0x5015C, 0, 32, 0x100000⟩
def TSU_TX_LAST_WORD0 : Fld := ⟨0x50160, 0, 32, 0x100000⟩
def TSU_TX_LAST_WORD1 : Fld := ⟨0x50164, 0, 32, 0x100000⟩
def TSU_TX_LAST_WORD2 : Fld := ⟨0x50168, 0, 32, 0x100000⟩
def TSU_TX_LAST_WORD3 : Fld := ⟨0x5016C, 0, 32, 0x100000⟩
def TSU_CNT_RX_COUNT : Fld := ⟨0x50170, 0, 32, 0x100000⟩
def TSU_CNT_INS_COUNT : Fld := ⟨0x50174, 0, 32, 0x100000⟩
def TSU_CNT_NOINS_COUNT : Fld := ⟨0x50178, 0, 32, 0x100000⟩
-- BAR0 block 0x6
def PTE_GCFG_FUP_TIMEOUT_MS : Fld := ⟨0x60004, 24, 8, 0x0⟩
def PTE_GCFG_PTP_TC : Fld := ⟨0x60004, 4, 3, 0x0⟩
def PTE_GCFG_UNMAPPED : Fld := ⟨0x60004, 2, 2, 0x0⟩
def PTE_GCFG_ENA : Fld := ⟨0x60004, 0, 1, 0x0⟩
def PTE_GSTAT_PARTNERS : Fld := ⟨0x60008, 16, 10, 0x0⟩
def PTE_GSTAT_PARTNERS_PEAK : Fld := ⟨0x60008, 0, 10, 0x0⟩
def PTE_EVENT_PROFILE_INVALID : Fld := ⟨0x6000C, 4, 1, 0x0⟩
def PTE_EVENT_PARTNER_TABLE_FULL : Fld := ⟨0x6000C, 3, 1, 0x0⟩
def PTE_EVENT_FUP_MISSING : Fld := ⟨0x6000C, 2, 1, 0x0⟩
def PTE_EVENT_SAMPLE_QUEUE_OVF_B : Fld := ⟨0x6000C, 1, 1, 0x0⟩
def PTE_EVENT_SAMPLE_QUEUE_OVF_A : Fld := ⟨0x6000C, 0, 1, 0x0⟩
def PTE_CLOCK_ID_ID_LO : Fld := ⟨0x60010, 0, 32, 0x0⟩
def PTE_CLOCK_ID_ID_HI : Fld := ⟨0x60014, 0, 32, 0x0⟩
def PTE_DOMA_MAP_ENA : Fld := ⟨0x60020, 31, 1, 0x0⟩
def PTE_DOMA_MAP_GM : Fld := ⟨0x60020, 26, 1, 0x0⟩
def PTE_DOMA_MAP_ROLE : Fld := ⟨0x60020, 24, 2, 0x0⟩
def PTE_DOMA_MAP_PROFILE : Fld := ⟨0x60020, 20, 4, 0x0⟩
def PTE_DOMA_MAP_MAJOR_SDO : Fld := ⟨0x60020, 16, 4, 0x0⟩
def PTE_DOMA_MAP_MINOR_SDO : Fld := ⟨0x60020, 8, 8, 0x0⟩
def PTE_DOMA_MAP_DOMAIN : Fld := ⟨0x60020, 0, 8, 0x0⟩
def PTE_DOMB_MAP_ENA : Fld := ⟨0x60024, 31, 1, 0x0⟩
def PTE_DOMB_MAP_GM : Fld := ⟨0x60024, 26, 1, 0x0⟩
def PTE_DOMB_MAP_ROLE : Fld := ⟨0x60024, 24, 2, 0x0⟩
def PTE_DOMB_MAP_PROFILE : Fld := ⟨0x60024, 20, 4, 0x0⟩
def PTE_DOMB_MAP_MAJOR_SDO : Fld := ⟨0x60024, 16, 4, 0x0⟩
def PTE_DOMB_MAP_MINOR_SDO : Fld := ⟨0x60024, 8, 8, 0x0⟩
def PTE_DOMB_MAP_DOMAIN : Fld := ⟨0x60024, 0, 8, 0x0⟩
def PTE_DOMA_SERVO_RATE_WIN : Fld := ⟨0x60030, 16, 6, 0x0⟩
def PTE_DOMA_SERVO_EST_KEEP : Fld := ⟨0x60030, 8, 6, 0x0⟩
def PTE_DOMA_SERVO_EST_WIN : Fld := ⟨0x60030, 0, 6, 0x0⟩
def PTE_DOMB_SERVO_RATE_WIN : Fld := ⟨0x60034, 16, 6, 0x0⟩
def PTE_DOMB_SERVO_EST_KEEP : Fld := ⟨0x60034, 8, 6, 0x0⟩
def PTE_DOMB_SERVO_EST_WIN : Fld := ⟨0x60034, 0, 6, 0x0⟩
def PTE_FILT_MPD_GATE_NS : Fld := ⟨0x60040, 16, 16, 0x0⟩
def PTE_FILT_MPD_WIN : Fld := ⟨0x60040, 0, 6, 0x0⟩
def PTE_UNI_CFG_ENA : Fld := ⟨0x60044, 31, 1, 0x0⟩
def PTE_UNI_CFG_MAX_DURATION_S : Fld := ⟨0x60044, 16, 10, 0x0⟩
def PTE_UNI_CFG_DREQ_RESERVE : Fld := ⟨0x60044, 0, 7, 0x0⟩
def PTE_FW_RATE_RATE : Fld := ⟨0x60048, 16, 16, 0x0⟩
def PTE_FW_RATE_BURST : Fld := ⟨0x60048, 0, 16, 0x0⟩
def PTE_PORT_CFG_TRANSPORT : Fld := ⟨0x60100, 6, 2, 0x100000⟩
def PTE_PORT_CFG_UNICAST : Fld := ⟨0x60100, 5, 1, 0x100000⟩
def PTE_PORT_CFG_NRR_SRC : Fld := ⟨0x60100, 4, 1, 0x100000⟩
def PTE_PORT_CFG_PDELAY_2STEP : Fld := ⟨0x60100, 3, 1, 0x100000⟩
def PTE_PORT_CFG_TWO_STEP : Fld := ⟨0x60100, 2, 1, 0x100000⟩
def PTE_PORT_CFG_DELAY_MECH : Fld := ⟨0x60100, 1, 1, 0x100000⟩
def PTE_PORT_CFG_ENA : Fld := ⟨0x60100, 0, 1, 0x100000⟩
def PTE_PORT_STATE_L1SYNC_STATE : Fld := ⟨0x60104, 16, 3, 0x100000⟩
def PTE_PORT_STATE_CONGRUENT : Fld := ⟨0x60104, 14, 1, 0x100000⟩
def PTE_PORT_STATE_RX_COHERENT : Fld := ⟨0x60104, 13, 1, 0x100000⟩
def PTE_PORT_STATE_TX_COHERENT : Fld := ⟨0x60104, 12, 1, 0x100000⟩
def PTE_PORT_STATE_FORCE_REASON : Fld := ⟨0x60104, 8, 3, 0x100000⟩
def PTE_PORT_STATE_STATE : Fld := ⟨0x60104, 0, 4, 0x100000⟩
def PTE_INTERVAL_LOG_ANNOUNCE : Fld := ⟨0x60108, 24, 8, 0x100000⟩
def PTE_INTERVAL_LOG_PDELAY : Fld := ⟨0x60108, 16, 8, 0x100000⟩
def PTE_INTERVAL_LOG_DELAY : Fld := ⟨0x60108, 8, 8, 0x100000⟩
def PTE_INTERVAL_LOG_SYNC : Fld := ⟨0x60108, 0, 8, 0x100000⟩
def PTE_TIMEOUT_SYNC_RCPT : Fld := ⟨0x6010C, 0, 8, 0x100000⟩
def PTE_BUDGET_CAPACITY : Fld := ⟨0x60110, 16, 12, 0x100000⟩
def PTE_BUDGET_COMMITTED : Fld := ⟨0x60110, 0, 12, 0x100000⟩
def PTE_ASYM_ASYM : Fld := ⟨0x60114, 0, 32, 0x100000⟩
def PTE_MPD_MPD_LO : Fld := ⟨0x60118, 0, 32, 0x100000⟩
def PTE_MPD_MPD_HI : Fld := ⟨0x6011C, 0, 32, 0x100000⟩
def PTE_NRR_Y : Fld := ⟨0x60120, 0, 32, 0x100000⟩
def PTE_PORT_EVENT_EXCHANGE_SPAN_STEP : Fld := ⟨0x60124, 6, 1, 0x100000⟩
def PTE_PORT_EVENT_INTERVAL_CLAMPED : Fld := ⟨0x60124, 5, 1, 0x100000⟩
def PTE_PORT_EVENT_UNICAST_DENIED : Fld := ⟨0x60124, 4, 1, 0x100000⟩
def PTE_PORT_EVENT_DREQ_POLICED : Fld := ⟨0x60124, 3, 1, 0x100000⟩
def PTE_PORT_EVENT_SYNC_TIMEOUT : Fld := ⟨0x60124, 2, 1, 0x100000⟩
def PTE_PORT_EVENT_STATE_FORCED : Fld := ⟨0x60124, 1, 1, 0x100000⟩
def PTE_PORT_EVENT_STATE_WRITE_IGNORED : Fld := ⟨0x60124, 0, 1, 0x100000⟩
def PTE_CNT_TX_COUNT : Fld := ⟨0x60130, 0, 32, 0x100000⟩
def PTE_CNT_RX_COUNT : Fld := ⟨0x60134, 0, 32, 0x100000⟩
def PTE_CNT_DROP_COUNT : Fld := ⟨0x60138, 0, 32, 0x100000⟩
def PTE_CNT_DENY_COUNT : Fld := ⟨0x6013C, 0, 32, 0x100000⟩
-- BAR0 block 0x7
def REF_GCFG_HOST_PERIOD_MS : Fld := ⟨0x70000, 24, 8, 0x0⟩
def REF_GCFG_TODPPS_IN : Fld := ⟨0x70000, 16, 3, 0x0⟩
def REF_SYNCE_BIND_ENA : Fld := ⟨0x70004, 7, 1, 0x0⟩
def REF_SYNCE_BIND_PORT : Fld := ⟨0x70004, 0, 6, 0x0⟩
def REF_COMMIT_PRIO : Fld := ⟨0x70008, 0, 4, 0x0⟩
def REF_CAND_STATUS_STATE : Fld := ⟨0x7000C, 0, 2, 0x0⟩
def REF_EVENT_OCXO_COLD : Fld := ⟨0x70010, 2, 1, 0x0⟩
def REF_EVENT_OCXO_WARM : Fld := ⟨0x70010, 1, 1, 0x0⟩
def REF_EVENT_REF_CFG_INVALID : Fld := ⟨0x70010, 0, 1, 0x0⟩
def REF_HOST_PHASE_PH_LO : Fld := ⟨0x70018, 0, 32, 0x0⟩
def REF_HOST_PHASE_PH_HI : Fld := ⟨0x7001C, 0, 32, 0x0⟩
def REF_XO_CFG_WARM_PIN_USE : Fld := ⟨0x70020, 31, 1, 0x0⟩
def REF_XO_CFG_WARM_SLOPE : Fld := ⟨0x70020, 0, 16, 0x0⟩
def REF_XO_STAT_SLOPE : Fld := ⟨0x70024, 16, 16, 0x0⟩
def REF_XO_STAT_PIN : Fld := ⟨0x70024, 3, 1, 0x0⟩
def REF_XO_STAT_TEST_PASS : Fld := ⟨0x70024, 2, 1, 0x0⟩
def REF_XO_STAT_WARM : Fld := ⟨0x70024, 1, 1, 0x0⟩
def REF_XO_STAT_SRC : Fld := ⟨0x70024, 0, 1, 0x0⟩
def REF_XO_CORR_CORR_LO : Fld := ⟨0x70028, 0, 32, 0x0⟩
def REF_XO_CORR_CORR_HI : Fld := ⟨0x7002C, 0, 16, 0x0⟩
def REF_XO_AGE_AGE : Fld := ⟨0x70030, 0, 32, 0x0⟩
def REF_CAND_CFG_ENA : Fld := ⟨0x71000, 31, 1, 0x40⟩
def REF_CAND_CFG_ALIGN : Fld := ⟨0x71000, 30, 1, 0x40⟩
def REF_CAND_CFG_QL : Fld := ⟨0x71000, 20, 4, 0x40⟩
def REF_CAND_CFG_MDIV : Fld := ⟨0x71000, 0, 16, 0x40⟩
def REF_CAND_PERIOD_NUM_LO : Fld := ⟨0x71004, 0, 32, 0x40⟩
def REF_CAND_PERIOD_NUM_HI : Fld := ⟨0x71008, 0, 16, 0x40⟩
def REF_CAND_PERIOD_DEN : Fld := ⟨0x7100C, 0, 24, 0x40⟩
def REF_CAND_LIMITS_REJECT : Fld := ⟨0x71010, 16, 16, 0x40⟩
def REF_CAND_LIMITS_ACCEPT : Fld := ⟨0x71010, 0, 16, 0x40⟩
def REF_CAND_MON_QUAL_S : Fld := ⟨0x71014, 16, 16, 0x40⟩
def REF_CAND_MON_WIN_DS : Fld := ⟨0x71014, 0, 10, 0x40⟩
def REF_CAND_DRIFT_SPAN : Fld := ⟨0x71018, 16, 8, 0x40⟩
def REF_CAND_DRIFT_DRIFT_LIM : Fld := ⟨0x71018, 0, 16, 0x40⟩
def REF_CAND_DELAY_DELAY : Fld := ⟨0x7101C, 0, 32, 0x40⟩
def REF_CAND_STAT_STATE : Fld := ⟨0x71020, 30, 2, 0x40⟩
def REF_CAND_STAT_ACTIVE : Fld := ⟨0x71020, 29, 1, 0x40⟩
def REF_CAND_STAT_DRIFT_ALERT : Fld := ⟨0x71020, 28, 1, 0x40⟩
def REF_CAND_STAT_UNCAL : Fld := ⟨0x71020, 27, 1, 0x40⟩
def REF_CAND_STAT_QUAL_AGE_S : Fld := ⟨0x71020, 0, 16, 0x40⟩
def REF_CAND_FREQ_Y : Fld := ⟨0x71024, 0, 32, 0x40⟩
def REF_CAND_DRATE_RATE : Fld := ⟨0x71028, 0, 32, 0x40⟩
def REF_CAND_EVENT_DRIFT_ALERT : Fld := ⟨0x7102C, 3, 1, 0x40⟩
def REF_CAND_EVENT_QUALIFIED : Fld := ⟨0x7102C, 2, 1, 0x40⟩
def REF_CAND_EVENT_DISQUALIFIED : Fld := ⟨0x7102C, 1, 1, 0x40⟩
def REF_CAND_EVENT_ACT_LOSS : Fld := ⟨0x7102C, 0, 1, 0x40⟩
def REF_DPLL_CFG_MODE : Fld := ⟨0x72000, 30, 2, 0x100⟩
def REF_DPLL_CFG_REVERTIVE : Fld := ⟨0x72000, 29, 1, 0x100⟩
def REF_DPLL_CFG_QL_MODE : Fld := ⟨0x72000, 28, 1, 0x100⟩
def REF_DPLL_CFG_GUARD_ENA : Fld := ⟨0x72000, 27, 1, 0x100⟩
def REF_DPLL_CFG_GUARD_BW : Fld := ⟨0x72000, 20, 4, 0x100⟩
def REF_DPLL_CFG_BW : Fld := ⟨0x72000, 16, 4, 0x100⟩
def REF_DPLL_CFG_WTR_S : Fld := ⟨0x72000, 0, 16, 0x100⟩
def REF_DPLL_CFG2_LOCK_NS : Fld := ⟨0x72004, 16, 16, 0x100⟩
def REF_DPLL_CFG2_HO_TAU : Fld := ⟨0x72004, 12, 4, 0x100⟩
def REF_DPLL_CFG2_HO_GUARD_S : Fld := ⟨0x72004, 8, 4, 0x100⟩
def REF_DPLL_CFG2_LOCK_S : Fld := ⟨0x72004, 0, 8, 0x100⟩
def REF_DPLL_CFG3_PHIT_NS : Fld := ⟨0x72008, 16, 16, 0x100⟩
def REF_DPLL_CFG3_HO_MIN_S : Fld := ⟨0x72008, 0, 16, 0x100⟩
def REF_DPLL_CTL_REALIGN : Fld := ⟨0x7200C, 31, 1, 0x100⟩
def REF_DPLL_CTL_REALIGN_MODE : Fld := ⟨0x7200C, 29, 2, 0x100⟩
def REF_DPLL_CTL_HO_REQ : Fld := ⟨0x7200C, 28, 1, 0x100⟩
def REF_DPLL_CTL_FORCE_ENA : Fld := ⟨0x7200C, 27, 1, 0x100⟩
def REF_DPLL_CTL_FORCE_CAND : Fld := ⟨0x7200C, 20, 4, 0x100⟩
def REF_DPLL_STAT_STATE : Fld := ⟨0x72010, 29, 3, 0x100⟩
def REF_DPLL_STAT_SEL_CAND : Fld := ⟨0x72010, 25, 4, 0x100⟩
def REF_DPLL_STAT_SEL_ENTRY : Fld := ⟨0x72010, 21, 4, 0x100⟩
def REF_DPLL_STAT_SEL_VALID : Fld := ⟨0x72010, 20, 1, 0x100⟩
def REF_DPLL_STAT_HO_VALID : Fld := ⟨0x72010, 19, 1, 0x100⟩
def REF_DPLL_STAT_EVER_LOCKED : Fld := ⟨0x72010, 18, 1, 0x100⟩
def REF_DPLL_STAT_GUARD_ACTIVE : Fld := ⟨0x72010, 17, 1, 0x100⟩
def REF_DPLL_STAT_BW_CLAMP : Fld := ⟨0x72010, 16, 1, 0x100⟩
def REF_DPLL_STAT_WTR_REM_S : Fld := ⟨0x72010, 0, 16, 0x100⟩
def REF_DPLL_EVENT_OL_COALESCED : Fld := ⟨0x72014, 8, 1, 0x100⟩
def REF_DPLL_EVENT_REALIGN_IGNORED : Fld := ⟨0x72014, 7, 1, 0x100⟩
def REF_DPLL_EVENT_REALIGN_DONE : Fld := ⟨0x72014, 6, 1, 0x100⟩
def REF_DPLL_EVENT_PBO_LOADED : Fld := ⟨0x72014, 5, 1, 0x100⟩
def REF_DPLL_EVENT_FORCE_LOST : Fld := ⟨0x72014, 4, 1, 0x100⟩
def REF_DPLL_EVENT_BW_CLAMPED : Fld := ⟨0x72014, 3, 1, 0x100⟩
def REF_DPLL_EVENT_HOLDOVER : Fld := ⟨0x72014, 2, 1, 0x100⟩
def REF_DPLL_EVENT_SWITCH : Fld := ⟨0x72014, 1, 1, 0x100⟩
def REF_DPLL_EVENT_STATE_CHANGE : Fld := ⟨0x72014, 0, 1, 0x100⟩
def REF_DPLL_PHASE_LO : Fld := ⟨0x72020, 0, 32, 0x100⟩
def REF_DPLL_PHASE_HI : Fld := ⟨0x72024, 0, 32, 0x100⟩
def REF_DPLL_PBO_LO : Fld := ⟨0x72028, 0, 32, 0x100⟩
def REF_DPLL_PBO_HI : Fld := ⟨0x7202C, 0, 32, 0x100⟩
def REF_DPLL_W_LO : Fld := ⟨0x72030, 0, 32, 0x100⟩
def REF_DPLL_W_HI : Fld := ⟨0x72034, 0, 16, 0x100⟩
def REF_DPLL_HOVAL_LO : Fld := ⟨0x72038, 0, 32, 0x100⟩
def REF_DPLL_HOVAL_HI : Fld := ⟨0x7203C, 0, 16, 0x100⟩
def REF_DPLL_PRIO0_CAND : Fld := ⟨0x72040, 0, 4, 0x100⟩
def REF_DPLL_PRIO0_ENA : Fld := ⟨0x72040, 7, 1, 0x100⟩
def REF_DPLL_PRIO1_CAND : Fld := ⟨0x72044, 0, 4, 0x100⟩
def REF_DPLL_PRIO1_ENA : Fld := ⟨0x72044, 7, 1, 0x100⟩
def REF_DPLL_PRIO2_CAND : Fld := ⟨0x72048, 0, 4, 0x100⟩
def REF_DPLL_PRIO2_ENA : Fld := ⟨0x72048, 7, 1, 0x100⟩
def REF_DPLL_PRIO3_CAND : Fld := ⟨0x7204C, 0, 4, 0x100⟩
def REF_DPLL_PRIO3_ENA : Fld := ⟨0x7204C, 7, 1, 0x100⟩
def REF_DPLL_PRIO_PEND0_CAND : Fld := ⟨0x72050, 0, 4, 0x100⟩
def REF_DPLL_PRIO_PEND0_ENA : Fld := ⟨0x72050, 7, 1, 0x100⟩
def REF_DPLL_PRIO_PEND1_CAND : Fld := ⟨0x72054, 0, 4, 0x100⟩
def REF_DPLL_PRIO_PEND1_ENA : Fld := ⟨0x72054, 7, 1, 0x100⟩
def REF_DPLL_PRIO_PEND2_CAND : Fld := ⟨0x72058, 0, 4, 0x100⟩
def REF_DPLL_PRIO_PEND2_ENA : Fld := ⟨0x72058, 7, 1, 0x100⟩
def REF_DPLL_PRIO_PEND3_CAND : Fld := ⟨0x7205C, 0, 4, 0x100⟩
def REF_DPLL_PRIO_PEND3_ENA : Fld := ⟨0x7205C, 7, 1, 0x100⟩
def REF_DPLL_OL_FREQ_W_LO : Fld := ⟨0x72060, 0, 32, 0x100⟩
def REF_DPLL_OL_FREQ_W_HI : Fld := ⟨0x72064, 0, 16, 0x100⟩
def REF_DPLL_OL_PHASE_PH_LO : Fld := ⟨0x72068, 0, 32, 0x100⟩
def REF_DPLL_OL_PHASE_PH_HI : Fld := ⟨0x7206C, 0, 32, 0x100⟩
-- BAR0 block 0x8
def SYN_APLL0_CFG_N0_OCXO : Fld := ⟨0x80000, 10, 10, 0x0⟩
def SYN_APLL0_CFG_N0_XIN : Fld := ⟨0x80000, 0, 10, 0x0⟩
def SYN_XIN_FREQ_FREQ_HZ : Fld := ⟨0x80004, 0, 26, 0x0⟩
def SYN_OCXO_FREQ_FREQ_HZ : Fld := ⟨0x80008, 0, 26, 0x0⟩
def SYN_APLL_STAT_LOCK : Fld := ⟨0x80010, 0, 5, 0x0⟩
def SYN_EVENT_APLL_CFG_INVALID : Fld := ⟨0x80014, 6, 1, 0x0⟩
def SYN_EVENT_DCO_NOM_INVALID : Fld := ⟨0x80014, 5, 1, 0x0⟩
def SYN_EVENT_APLL_UNLOCK : Fld := ⟨0x80014, 0, 1, 0x0⟩
def SYN_COMMIT_OUT : Fld := ⟨0x80018, 16, 12, 0x0⟩
def SYN_COMMIT_APLL4 : Fld := ⟨0x80018, 7, 1, 0x0⟩
def SYN_COMMIT_APLL3 : Fld := ⟨0x80018, 6, 1, 0x0⟩
def SYN_COMMIT_APLL1 : Fld := ⟨0x80018, 4, 1, 0x0⟩
def SYN_COMMIT_DCO : Fld := ⟨0x80018, 0, 4, 0x0⟩
def SYN_PEND_OUT : Fld := ⟨0x8001C, 16, 12, 0x0⟩
def SYN_PEND_APLL4 : Fld := ⟨0x8001C, 7, 1, 0x0⟩
def SYN_PEND_APLL3 : Fld := ⟨0x8001C, 6, 1, 0x0⟩
def SYN_PEND_APLL1 : Fld := ⟨0x8001C, 4, 1, 0x0⟩
def SYN_PEND_DCO : Fld := ⟨0x8001C, 0, 4, 0x0⟩
def SYN_DCO_CFG_DITHER : Fld := ⟨0x80100, 31, 1, 0x40⟩
def SYN_DCO_CFG_SEED : Fld := ⟨0x80100, 0, 16, 0x40⟩
def SYN_DCO_NOM_NUM_LO : Fld := ⟨0x80104, 0, 32, 0x40⟩
def SYN_DCO_NOM_NUM_HI : Fld := ⟨0x80108, 0, 16, 0x40⟩
def SYN_DCO_NOM_DEN : Fld := ⟨0x8010C, 0, 24, 0x40⟩
def SYN_DCO_WORD_D_LO : Fld := ⟨0x80110, 0, 32, 0x40⟩
def SYN_DCO_WORD_D_HI : Fld := ⟨0x80114, 0, 24, 0x40⟩
def SYN_DCO_CFG_PEND_DITHER : Fld := ⟨0x80120, 31, 1, 0x40⟩
def SYN_DCO_CFG_PEND_SEED : Fld := ⟨0x80120, 0, 16, 0x40⟩
def SYN_DCO_NOM_PEND_NUM_LO : Fld := ⟨0x80124, 0, 32, 0x40⟩
def SYN_DCO_NOM_PEND_NUM_HI : Fld := ⟨0x80128, 0, 16, 0x40⟩
def SYN_DCO_NOM_PEND_DEN : Fld := ⟨0x8012C, 0, 24, 0x40⟩
def SYN_APLL_CFG_IN_SEL : Fld := ⟨0x80200, 30, 2, 0x40⟩
def SYN_APLL_CFG_BW : Fld := ⟨0x80200, 28, 2, 0x40⟩
def SYN_APLL_CFG_REFDIV : Fld := ⟨0x80200, 12, 12, 0x40⟩
def SYN_APLL_CFG_FBDIV : Fld := ⟨0x80200, 0, 12, 0x40⟩
def SYN_APLL_CFG_PEND_IN_SEL : Fld := ⟨0x80220, 30, 2, 0x40⟩
def SYN_APLL_CFG_PEND_BW : Fld := ⟨0x80220, 28, 2, 0x40⟩
def SYN_APLL_CFG_PEND_REFDIV : Fld := ⟨0x80220, 12, 12, 0x40⟩
def SYN_APLL_CFG_PEND_FBDIV : Fld := ⟨0x80220, 0, 12, 0x40⟩
def SYN_OUT_CFG_MODE : Fld := ⟨0x80400, 30, 2, 0x40⟩
def SYN_OUT_CFG_SRC : Fld := ⟨0x80400, 28, 2, 0x40⟩
def SYN_OUT_CFG_POL : Fld := ⟨0x80400, 27, 1, 0x40⟩
def SYN_OUT_CFG_LOSS_ACT : Fld := ⟨0x80400, 26, 1, 0x40⟩
def SYN_OUT_CFG_AUTORESTART : Fld := ⟨0x80400, 25, 1, 0x40⟩
def SYN_OUT_CFG_ORIGIN : Fld := ⟨0x80400, 24, 1, 0x40⟩
def SYN_OUT_CFG_DIV : Fld := ⟨0x80400, 0, 24, 0x40⟩
def SYN_OUT_PERIOD_NUM_LO : Fld := ⟨0x80404, 0, 32, 0x40⟩
def SYN_OUT_PERIOD_NUM_HI : Fld := ⟨0x80408, 0, 16, 0x40⟩
def SYN_OUT_PERIOD_DEN : Fld := ⟨0x8040C, 0, 24, 0x40⟩
def SYN_OUT_WIDTH_WIDTH : Fld := ⟨0x80410, 0, 32, 0x40⟩
def SYN_OUT_SEQ_SEQ_LEN : Fld := ⟨0x80414, 0, 8, 0x40⟩
def SYN_OUT_SEQW_SEQW : Fld := ⟨0x80418, 0, 32, 0x40⟩
def SYN_OUT_OFFSET_OFFSET : Fld := ⟨0x8041C, 0, 32, 0x40⟩
def SYN_OUT_CFG_PEND_MODE : Fld := ⟨0x80420, 30, 2, 0x40⟩
def SYN_OUT_CFG_PEND_SRC : Fld := ⟨0x80420, 28, 2, 0x40⟩
def SYN_OUT_CFG_PEND_POL : Fld := ⟨0x80420, 27, 1, 0x40⟩
def SYN_OUT_CFG_PEND_LOSS_ACT : Fld := ⟨0x80420, 26, 1, 0x40⟩
def SYN_OUT_CFG_PEND_AUTORESTART : Fld := ⟨0x80420, 25, 1, 0x40⟩
def SYN_OUT_CFG_PEND_ORIGIN : Fld := ⟨0x80420, 24, 1, 0x40⟩
def SYN_OUT_CFG_PEND_DIV : Fld := ⟨0x80420, 0, 24, 0x40⟩
def SYN_OUT_PERIOD_PEND_NUM_LO : Fld := ⟨0x80424, 0, 32, 0x40⟩
def SYN_OUT_PERIOD_PEND_NUM_HI : Fld := ⟨0x80428, 0, 16, 0x40⟩
def SYN_OUT_PERIOD_PEND_DEN : Fld := ⟨0x8042C, 0, 24, 0x40⟩
def SYN_OUT_WIDTH_PEND_WIDTH : Fld := ⟨0x80430, 0, 32, 0x40⟩
def SYN_OUT_SEQ_PEND_SEQ_LEN : Fld := ⟨0x80434, 0, 8, 0x40⟩
def SYN_OUT_SEQW_PEND_SEQW : Fld := ⟨0x80438, 0, 32, 0x40⟩
def SYN_OUT_OFFSET_PEND_OFFSET : Fld := ⟨0x8043C, 0, 32, 0x40⟩
def SYN_OUT_CTL_START : Fld := ⟨0x80800, 31, 1, 0x40⟩
def SYN_OUT_CTL_STOP : Fld := ⟨0x80800, 30, 1, 0x40⟩
def SYN_OUT_CTL_REALIGN : Fld := ⟨0x80800, 29, 1, 0x40⟩
def SYN_OUT_CTL_START_AT : Fld := ⟨0x80800, 28, 1, 0x40⟩
def SYN_OUT_START_TIME_NS : Fld := ⟨0x80804, 0, 32, 0x40⟩
def SYN_OUT_START_TIME_SEC_LO : Fld := ⟨0x80808, 0, 32, 0x40⟩
def SYN_OUT_START_TIME_SEC_HI : Fld := ⟨0x8080C, 0, 16, 0x40⟩
def SYN_OUT_START_TIME_FRAC : Fld := ⟨0x8080C, 16, 16, 0x40⟩
def SYN_OUT_DELAY_DELAY : Fld := ⟨0x80810, 0, 32, 0x40⟩
def SYN_OUT_STAT_STATE : Fld := ⟨0x80814, 29, 3, 0x40⟩
def SYN_OUT_STAT_ALIGNED : Fld := ⟨0x80814, 28, 1, 0x40⟩
def SYN_OUT_STAT_SRC_LOCK : Fld := ⟨0x80814, 27, 1, 0x40⟩
def SYN_OUT_EVENT_OUT_CFG_INVALID : Fld := ⟨0x80818, 4, 1, 0x40⟩
def SYN_OUT_EVENT_ALIGN_IGNORED : Fld := ⟨0x80818, 3, 1, 0x40⟩
def SYN_OUT_EVENT_ALIGN_DONE : Fld := ⟨0x80818, 2, 1, 0x40⟩
def SYN_OUT_EVENT_SQUELCH : Fld := ⟨0x80818, 1, 1, 0x40⟩
def SYN_OUT_EVENT_START_LATE : Fld := ⟨0x80818, 0, 1, 0x40⟩
def SYN_OUT_RESID_EPS : Fld := ⟨0x8081C, 0, 32, 0x40⟩
def SYN_TOD_CFG_OUT_ENA : Fld := ⟨0x80C00, 31, 1, 0x0⟩
def SYN_TOD_CFG_IN_ENA : Fld := ⟨0x80C00, 30, 1, 0x0⟩
def SYN_TOD_CFG_IN_LABEL : Fld := ⟨0x80C00, 29, 1, 0x0⟩
def SYN_TOD_CFG_OUT_BAUD : Fld := ⟨0x80C00, 24, 3, 0x0⟩
def SYN_TOD_CFG_IN_BAUD : Fld := ⟨0x80C00, 21, 3, 0x0⟩
def SYN_TOD_CFG_PPS_OUT : Fld := ⟨0x80C00, 12, 4, 0x0⟩
def SYN_TOD_CFG_DELAY_MS : Fld := ⟨0x80C00, 0, 9, 0x0⟩
def SYN_TOD_QUAL_CLOCK_CLASS : Fld := ⟨0x80C04, 24, 8, 0x0⟩
def SYN_TOD_QUAL_CLOCK_ACCURACY : Fld := ⟨0x80C04, 16, 8, 0x0⟩
def SYN_TOD_QUAL_VARIANCE : Fld := ⟨0x80C04, 0, 16, 0x0⟩
def SYN_TOD_EVENT_TOD_OUT_SKIPPED : Fld := ⟨0x80C08, 3, 1, 0x0⟩
def SYN_TOD_EVENT_TOD_SCALE_MISMATCH : Fld := ⟨0x80C08, 2, 1, 0x0⟩
def SYN_TOD_EVENT_TOD_UNPAIRED : Fld := ⟨0x80C08, 1, 1, 0x0⟩
def SYN_TOD_EVENT_TOD_BAD : Fld := ⟨0x80C08, 0, 1, 0x0⟩
def SYN_TOD_CNT_IN_OK : Fld := ⟨0x80C0C, 16, 16, 0x0⟩
def SYN_TOD_CNT_IN_ERR : Fld := ⟨0x80C0C, 0, 16, 0x0⟩
def SYN_TOD_IN_LAST_NS : Fld := ⟨0x80C10, 0, 32, 0x0⟩
def SYN_TOD_IN_LAST_SEC_LO : Fld := ⟨0x80C14, 0, 32, 0x0⟩
def SYN_TOD_IN_LAST_SEC_HI : Fld := ⟨0x80C18, 0, 16, 0x0⟩
def SYN_TOD_IN_LAST_FLAGS : Fld := ⟨0x80C1C, 24, 8, 0x0⟩
def SYN_TOD_IN_LAST_SEQ : Fld := ⟨0x80C1C, 16, 8, 0x0⟩
-- BAR0 block 0x9
def TDC_GCFG_ENA : Fld := ⟨0x90000, 31, 1, 0x0⟩
def TDC_GCFG_AUTO_COMMIT : Fld := ⟨0x90000, 30, 1, 0x0⟩
def TDC_GCFG_OVERLAP : Fld := ⟨0x90000, 16, 6, 0x0⟩
def TDC_GSTAT_SPARE_BUSY : Fld := ⟨0x90004, 31, 1, 0x0⟩
def TDC_GSTAT_SPARE_FOR : Fld := ⟨0x90004, 21, 5, 0x0⟩
def TDC_GSTAT_TABLES_FROM_RECORD : Fld := ⟨0x90004, 20, 1, 0x0⟩
def TDC_EVENT_CAL_NO_CHANNEL : Fld := ⟨0x90008, 7, 1, 0x0⟩
def TDC_EVENT_TABLE_ABSENT : Fld := ⟨0x90008, 6, 1, 0x0⟩
def TDC_EVENT_TAKEOVER_END : Fld := ⟨0x90008, 5, 1, 0x0⟩
def TDC_EVENT_TAKEOVER : Fld := ⟨0x90008, 4, 1, 0x0⟩
def TDC_EVENT_TABLE_REJECTED : Fld := ⟨0x90008, 3, 1, 0x0⟩
def TDC_EVENT_TDC_CAL_FAIL : Fld := ⟨0x90008, 2, 1, 0x0⟩
def TDC_EVENT_PRESC_OVERRANGE : Fld := ⟨0x90008, 1, 1, 0x0⟩
def TDC_EVENT_REFILL_DONE : Fld := ⟨0x90008, 0, 1, 0x0⟩
def TDC_REFILL_REQ : Fld := ⟨0x9000C, 0, 25, 0x0⟩
def TDC_COMMIT_TABLE : Fld := ⟨0x90010, 0, 25, 0x0⟩
def TDC_PEND_TABLE : Fld := ⟨0x90014, 0, 25, 0x0⟩
def TDC_PRESC_DIV : Fld := ⟨0x90020, 0, 2, 0x0⟩
def TDC_PROBE_SEL_SEL_B : Fld := ⟨0x90024, 16, 12, 0x0⟩
def TDC_PROBE_SEL_SEL_A : Fld := ⟨0x90024, 0, 12, 0x0⟩
def TDC_TBL_ADDR_PEND : Fld := ⟨0x90030, 31, 1, 0x0⟩
def TDC_TBL_ADDR_CH : Fld := ⟨0x90030, 24, 5, 0x0⟩
def TDC_TBL_ADDR_BIN : Fld := ⟨0x90030, 0, 12, 0x0⟩
def TDC_TBL_DATA_H : Fld := ⟨0x90034, 0, 22, 0x0⟩
def TDC_CH_CFG_ENA : Fld := ⟨0x91000, 31, 1, 0x40⟩
def TDC_CH_CFG_MODE : Fld := ⟨0x91000, 29, 2, 0x40⟩
def TDC_CH_CFG_EDGE_SEL : Fld := ⟨0x91000, 27, 2, 0x40⟩
def TDC_CH_CFG_CAL_MODE : Fld := ⟨0x91000, 26, 1, 0x40⟩
def TDC_CH_CFG_TAKEOVER : Fld := ⟨0x91000, 25, 1, 0x40⟩
def TDC_CH_CFG_HOST : Fld := ⟨0x91000, 24, 1, 0x40⟩
def TDC_CH_CFG_SRC : Fld := ⟨0x91000, 16, 6, 0x40⟩
def TDC_CH_CFG_EDIV : Fld := ⟨0x91000, 0, 16, 0x40⟩
def TDC_CH_CFG2_REARM : Fld := ⟨0x91004, 31, 1, 0x40⟩
def TDC_CH_CFG2_ARM : Fld := ⟨0x91004, 30, 1, 0x40⟩
def TDC_CH_CFG2_WIN_US : Fld := ⟨0x91004, 0, 24, 0x40⟩
def TDC_CH_DELAY_DELAY : Fld := ⟨0x91008, 0, 32, 0x40⟩
def TDC_CH_ADJ_ADJ : Fld := ⟨0x9100C, 0, 32, 0x40⟩
def TDC_CH_STAT_STATE : Fld := ⟨0x91010, 29, 3, 0x40⟩
def TDC_CH_STAT_TABLE_VALID : Fld := ⟨0x91010, 28, 1, 0x40⟩
def TDC_CH_STAT_ARMED : Fld := ⟨0x91010, 27, 1, 0x40⟩
def TDC_CH_STAT_C1 : Fld := ⟨0x91010, 12, 12, 0x40⟩
def TDC_CH_STAT_SPAN : Fld := ⟨0x91010, 0, 12, 0x40⟩
def TDC_CH_EVENT_CAL_FAIL : Fld := ⟨0x91014, 4, 1, 0x40⟩
def TDC_CH_EVENT_TIMEOUT : Fld := ⟨0x91014, 3, 1, 0x40⟩
def TDC_CH_EVENT_STEP : Fld := ⟨0x91014, 2, 1, 0x40⟩
def TDC_CH_EVENT_LOST : Fld := ⟨0x91014, 1, 1, 0x40⟩
def TDC_CH_EVENT_MISSED : Fld := ⟨0x91014, 0, 1, 0x40⟩
def TDC_CH_LAST_WORD0 : Fld := ⟨0x91020, 0, 32, 0x40⟩
def TDC_CH_LAST_WORD1 : Fld := ⟨0x91024, 0, 32, 0x40⟩
def TDC_CH_LAST_WORD2 : Fld := ⟨0x91028, 0, 32, 0x40⟩
def TDC_CH_LAST_WORD3 : Fld := ⟨0x9102C, 0, 32, 0x40⟩
def TDC_CH_CNT_LOST : Fld := ⟨0x91030, 16, 16, 0x40⟩
def TDC_CH_CNT_MISSED : Fld := ⟨0x91030, 0, 16, 0x40⟩
def TDC_CH_RESULTS_COUNT : Fld := ⟨0x91034, 0, 32, 0x40⟩
-- BAR0 block 0xA
def LNK_GSTAT_CAL_RUNNING : Fld := ⟨0xA0004, 31, 1, 0x0⟩
def LNK_GSTAT_TX_PPM_WIDE : Fld := ⟨0xA0004, 30, 1, 0x0⟩
def LNK_GSTAT_CAL_FAILED_LANES : Fld := ⟨0xA0004, 0, 7, 0x0⟩
def LNK_EVENT_OUT_CAL_INVALID : Fld := ⟨0xA0008, 2, 1, 0x0⟩
def LNK_EVENT_TX_PPM_WIDE : Fld := ⟨0xA0008, 1, 1, 0x0⟩
def LNK_EVENT_MIX_INVALID : Fld := ⟨0xA0008, 0, 1, 0x0⟩
def LNK_COMMIT_QUAD : Fld := ⟨0xA000C, 0, 16, 0x0⟩
def LNK_PEND_QUAD : Fld := ⟨0xA0010, 0, 16, 0x0⟩
def LNK_QUAD_CFG_REF : Fld := ⟨0xA0100, 31, 1, 0x10⟩
def LNK_QUAD_CFG_PEND_REF : Fld := ⟨0xA0104, 31, 1, 0x10⟩
def LNK_QUAD_STAT_CLK_VALID : Fld := ⟨0xA0108, 31, 1, 0x10⟩
def LNK_QUAD_STAT_LOAD_DONE : Fld := ⟨0xA0108, 30, 1, 0x10⟩
def LNK_QUAD_STAT_LOAD_RESID : Fld := ⟨0xA0108, 0, 16, 0x10⟩
def LNK_PORT_CFG_UNIDIR : Fld := ⟨0xA0400, 27, 1, 0x100000⟩
def LNK_PORT_CFG_LT_ENA : Fld := ⟨0xA0400, 26, 1, 0x100000⟩
def LNK_PORT_CFG_AN_ENA : Fld := ⟨0xA0400, 25, 1, 0x100000⟩
def LNK_PORT_CFG_FEC_BYPASS_CORR : Fld := ⟨0xA0400, 24, 1, 0x100000⟩
def LNK_PORT_CFG_FEC : Fld := ⟨0xA0400, 16, 2, 0x100000⟩
def LNK_PORT_CFG_MODE : Fld := ⟨0xA0400, 0, 4, 0x100000⟩
def LNK_PORT_CFG_PEND_UNIDIR : Fld := ⟨0xA0404, 27, 1, 0x100000⟩
def LNK_PORT_CFG_PEND_LT_ENA : Fld := ⟨0xA0404, 26, 1, 0x100000⟩
def LNK_PORT_CFG_PEND_AN_ENA : Fld := ⟨0xA0404, 25, 1, 0x100000⟩
def LNK_PORT_CFG_PEND_FEC_BYPASS_CORR : Fld := ⟨0xA0404, 24, 1, 0x100000⟩
def LNK_PORT_CFG_PEND_FEC : Fld := ⟨0xA0404, 16, 2, 0x100000⟩
def LNK_PORT_CFG_PEND_MODE : Fld := ⟨0xA0404, 0, 4, 0x100000⟩
def LNK_LANE_CFG_TX_SLEEP : Fld := ⟨0xA0408, 31, 1, 0x100000⟩
def LNK_LANE_CFG_RX_SLEEP : Fld := ⟨0xA0408, 30, 1, 0x100000⟩
def LNK_LANE_CFG_LOOP : Fld := ⟨0xA0408, 28, 2, 0x100000⟩
def LNK_LANE_CFG_TX_INV : Fld := ⟨0xA0408, 27, 1, 0x100000⟩
def LNK_LANE_CFG_RX_INV : Fld := ⟨0xA0408, 26, 1, 0x100000⟩
def LNK_TXEQ_PRE : Fld := ⟨0xA040C, 16, 8, 0x100000⟩
def LNK_TXEQ_MAIN : Fld := ⟨0xA040C, 8, 8, 0x100000⟩
def LNK_TXEQ_POST : Fld := ⟨0xA040C, 0, 8, 0x100000⟩
def LNK_PORT_STAT_STATE : Fld := ⟨0xA0410, 28, 4, 0x100000⟩
def LNK_PORT_STAT_LANES : Fld := ⟨0xA0410, 24, 4, 0x100000⟩
def LNK_PORT_STAT_DOWN_CAUSE : Fld := ⟨0xA0410, 20, 4, 0x100000⟩
def LNK_LANE_STAT_SIGNAL : Fld := ⟨0xA0414, 31, 1, 0x100000⟩
def LNK_LANE_STAT_CDR_LOCK : Fld := ⟨0xA0414, 30, 1, 0x100000⟩
def LNK_LANE_STAT_BLOCK_LOCK : Fld := ⟨0xA0414, 29, 1, 0x100000⟩
def LNK_LANE_STAT_AM_LOCK : Fld := ⟨0xA0414, 28, 1, 0x100000⟩
def LNK_LANE_STAT_HI_BER : Fld := ⟨0xA0414, 27, 1, 0x100000⟩
def LNK_LANE_STAT_TX_AWAKE : Fld := ⟨0xA0414, 26, 1, 0x100000⟩
def LNK_LANE_STAT_RX_AWAKE : Fld := ⟨0xA0414, 25, 1, 0x100000⟩
def LNK_LANE_STAT_LT_STATE : Fld := ⟨0xA0414, 22, 3, 0x100000⟩
def LNK_LANE_STAT_EB_FILL : Fld := ⟨0xA0414, 8, 8, 0x100000⟩
def LNK_PORT_EVENT_RECAL_REFUSED : Fld := ⟨0xA0418, 9, 1, 0x100000⟩
def LNK_PORT_EVENT_CAL_FAIL : Fld := ⟨0xA0418, 8, 1, 0x100000⟩
def LNK_PORT_EVENT_TXEQ_INVALID : Fld := ⟨0xA0418, 7, 1, 0x100000⟩
def LNK_PORT_EVENT_LPI_RX : Fld := ⟨0xA0418, 6, 1, 0x100000⟩
def LNK_PORT_EVENT_EB_SLIP : Fld := ⟨0xA0418, 5, 1, 0x100000⟩
def LNK_PORT_EVENT_AN_FAIL : Fld := ⟨0xA0418, 4, 1, 0x100000⟩
def LNK_PORT_EVENT_LT_FAIL : Fld := ⟨0xA0418, 3, 1, 0x100000⟩
def LNK_PORT_EVENT_LINK_UP : Fld := ⟨0xA0418, 1, 1, 0x100000⟩
def LNK_PORT_EVENT_LINK_DOWN : Fld := ⟨0xA0418, 0, 1, 0x100000⟩
def LNK_TIMERS_UP_DEBOUNCE_US : Fld := ⟨0xA041C, 16, 16, 0x100000⟩
def LNK_TIMERS_LT_TIMEOUT : Fld := ⟨0xA041C, 0, 8, 0x100000⟩
def LNK_RAW_CFG_PATTERN : Fld := ⟨0xA0420, 28, 4, 0x100000⟩
def LNK_RAW_CFG_CHECK_ENA : Fld := ⟨0xA0420, 27, 1, 0x100000⟩
def LNK_RAW_CFG_PAM4 : Fld := ⟨0xA0420, 26, 1, 0x100000⟩
def LNK_RAW_CFG_RATE_MULT : Fld := ⟨0xA0420, 0, 11, 0x100000⟩
def LNK_RECAL_FULL : Fld := ⟨0xA0430, 1, 1, 0x100000⟩
def LNK_RECAL_PARTIAL : Fld := ⟨0xA0430, 0, 1, 0x100000⟩
def LNK_CAL_STAT_RESULT : Fld := ⟨0xA0434, 30, 2, 0x100000⟩
def LNK_CAL_STAT_LAST_KIND : Fld := ⟨0xA0434, 29, 1, 0x100000⟩
def LNK_CAL_STAT_SPREAD_TX_PS : Fld := ⟨0xA0434, 8, 8, 0x100000⟩
def LNK_CAL_STAT_SPREAD_RX_PS : Fld := ⟨0xA0434, 0, 8, 0x100000⟩
def LNK_CAL_LOOP_A : Fld := ⟨0xA0438, 0, 32, 0x100000⟩
def LNK_CNT_EB_INS_COUNT : Fld := ⟨0xA0440, 0, 32, 0x100000⟩
def LNK_CNT_EB_DEL_COUNT : Fld := ⟨0xA0444, 0, 32, 0x100000⟩
def LNK_CNT_FEC_CORR_COUNT : Fld := ⟨0xA0448, 0, 32, 0x100000⟩
def LNK_CNT_FEC_UNCORR_COUNT : Fld := ⟨0xA044C, 0, 32, 0x100000⟩
def LNK_CNT_LPI_COUNT : Fld := ⟨0xA0450, 0, 32, 0x100000⟩
def LNK_CNT_DOWN_COUNT : Fld := ⟨0xA0454, 0, 32, 0x100000⟩
def LNK_CNT_LOOP_RX_COUNT : Fld := ⟨0xA0458, 0, 32, 0x100000⟩
def LNK_CNT_PRBS_ERR_COUNT : Fld := ⟨0xA045C, 0, 32, 0x100000⟩
-- BAR0 block 0xB
def ING_GCFG_AGE_S : Fld := ⟨0xB0004, 16, 16, 0x0⟩
def ING_GCFG_LEARN_ENA : Fld := ⟨0xB0004, 0, 1, 0x0⟩
def ING_GSTAT_FDB_USED : Fld := ⟨0xB0008, 14, 18, 0x0⟩
def ING_EVENT_OCTETS_EXCEEDED : Fld := ⟨0xB000C, 8, 1, 0x0⟩
def ING_EVENT_CLOSED_INVALID_RX : Fld := ⟨0xB000C, 7, 1, 0x0⟩
def ING_EVENT_SDU_BLOCKED : Fld := ⟨0xB000C, 6, 1, 0x0⟩
def ING_EVENT_STREAM_AGED : Fld := ⟨0xB000C, 5, 1, 0x0⟩
def ING_EVENT_STREAM_POOL_FULL : Fld := ⟨0xB000C, 4, 1, 0x0⟩
def ING_EVENT_STREAM_LEARNED : Fld := ⟨0xB000C, 3, 1, 0x0⟩
def ING_EVENT_FDB_LIMIT : Fld := ⟨0xB000C, 2, 1, 0x0⟩
def ING_EVENT_FDB_LEARN_FULL : Fld := ⟨0xB000C, 1, 1, 0x0⟩
def ING_EVENT_LEARN_QUEUE_FULL : Fld := ⟨0xB000C, 0, 1, 0x0⟩
def ING_LEARN_CFG_POOL_HI : Fld := ⟨0xB0010, 16, 16, 0x0⟩
def ING_LEARN_CFG_POOL_LO : Fld := ⟨0xB0010, 0, 16, 0x0⟩
def ING_LEARN_CFG_AGE_S : Fld := ⟨0xB0014, 0, 16, 0x0⟩
def ING_DSCP_MAP0_TC : Fld := ⟨0xB0020, 0, 3, 0x0⟩
def ING_DSCP_MAP1_TC : Fld := ⟨0xB0024, 0, 3, 0x0⟩
def ING_DSCP_MAP2_TC : Fld := ⟨0xB0028, 0, 3, 0x0⟩
def ING_DSCP_MAP3_TC : Fld := ⟨0xB002C, 0, 3, 0x0⟩
def ING_DSCP_MAP4_TC : Fld := ⟨0xB0030, 0, 3, 0x0⟩
def ING_DSCP_MAP5_TC : Fld := ⟨0xB0034, 0, 3, 0x0⟩
def ING_DSCP_MAP6_TC : Fld := ⟨0xB0038, 0, 3, 0x0⟩
def ING_DSCP_MAP7_TC : Fld := ⟨0xB003C, 0, 3, 0x0⟩
def ING_TBL_CTL_GO : Fld := ⟨0xB0040, 31, 1, 0x0⟩
def ING_TBL_CTL_BUSY : Fld := ⟨0xB0040, 30, 1, 0x0⟩
def ING_TBL_CTL_WRITE : Fld := ⟨0xB0040, 29, 1, 0x0⟩
def ING_TBL_CTL_TABLE : Fld := ⟨0xB0040, 25, 4, 0x0⟩
def ING_TBL_CTL_STATUS : Fld := ⟨0xB0040, 21, 4, 0x0⟩
def ING_TBL_CTL_INDEX : Fld := ⟨0xB0040, 0, 17, 0x0⟩
def ING_GATE_COMMIT_GO : Fld := ⟨0xB0044, 31, 1, 0x0⟩
def ING_GATE_COMMIT_PENDING : Fld := ⟨0xB0044, 30, 1, 0x0⟩
def ING_GATE_COMMIT_GATE : Fld := ⟨0xB0044, 0, 8, 0x0⟩
def ING_TBL_DATA_WORD : Fld := ⟨0xB0080, 0, 32, 0x4⟩
def ING_PORT_CFG_ACCEPT : Fld := ⟨0xB0100, 30, 2, 0x100000⟩
def ING_PORT_CFG_VLAN_FILTER : Fld := ⟨0xB0100, 29, 1, 0x100000⟩
def ING_PORT_CFG_TPID_SEL : Fld := ⟨0xB0100, 28, 1, 0x100000⟩
def ING_PORT_CFG_TRUST : Fld := ⟨0xB0100, 26, 2, 0x100000⟩
def ING_PORT_CFG_LEARN : Fld := ⟨0xB0100, 25, 1, 0x100000⟩
def ING_PORT_CFG_FLOOD : Fld := ⟨0xB0100, 24, 1, 0x100000⟩
def ING_PORT_CFG_DEFAULT_TC : Fld := ⟨0xB0100, 21, 3, 0x100000⟩
def ING_PORT_CFG_DEFAULT_PCP : Fld := ⟨0xB0100, 18, 3, 0x100000⟩
def ING_PORT_CFG_PVID : Fld := ⟨0xB0100, 0, 12, 0x100000⟩
def ING_PORT_TC_TC : Fld := ⟨0xB0104, 0, 3, 0x100000⟩
def ING_PORT_LEARN_LIMIT : Fld := ⟨0xB0108, 0, 17, 0x100000⟩
def ING_CNT_HEADS_COUNT : Fld := ⟨0xB0110, 0, 32, 0x100000⟩
def ING_CNT_TAIL_PASS_COUNT : Fld := ⟨0xB0114, 0, 32, 0x100000⟩
def ING_CNT_MOVE_DENIED_COUNT : Fld := ⟨0xB0118, 0, 32, 0x100000⟩
def ING_CNT_LEARN_PENDING_COUNT : Fld := ⟨0xB011C, 0, 32, 0x100000⟩
-- BAR0 block 0xC
def BUF_GCFG_EST_CELLS : Fld := ⟨0xC0004, 16, 8, 0x0⟩
def BUF_GCFG_DE_SHIFT : Fld := ⟨0xC0004, 8, 3, 0x0⟩
def BUF_GCFG_CT_ENA : Fld := ⟨0xC0004, 0, 1, 0x0⟩
def BUF_HEADROOM_HEADROOM : Fld := ⟨0xC0008, 0, 18, 0x0⟩
def BUF_HEADROOM_PEND_HEADROOM : Fld := ⟨0xC000C, 0, 18, 0x0⟩
def BUF_GSTAT_FREE_CELLS : Fld := ⟨0xC0010, 0, 19, 0x0⟩
def BUF_SHARED_SIZE : Fld := ⟨0xC0014, 0, 19, 0x0⟩
def BUF_SHARED_USED_USED : Fld := ⟨0xC0018, 0, 24, 0x0⟩
def BUF_EVENT_BUFFER_EXHAUSTED : Fld := ⟨0xC001C, 1, 1, 0x0⟩
def BUF_EVENT_ADM_CFG_INVALID : Fld := ⟨0xC001C, 0, 1, 0x0⟩
def BUF_COMMIT_GO : Fld := ⟨0xC0020, 31, 1, 0x0⟩
def BUF_COMMIT_PENDING : Fld := ⟨0xC0020, 30, 1, 0x0⟩
def BUF_POOL_MAX_MAX : Fld := ⟨0xC0030, 0, 19, 0x4⟩
def BUF_POOL_USED_USED : Fld := ⟨0xC0040, 0, 24, 0x4⟩
def BUF_SUMP_IDX_REASON : Fld := ⟨0xC0050, 0, 5, 0x0⟩
def BUF_SUMP_TOTAL_COUNT : Fld := ⟨0xC0054, 0, 32, 0x0⟩
def BUF_SUMP_SAMPLE_ENA : Fld := ⟨0xC0058, 31, 1, 0x0⟩
def BUF_SUMP_SAMPLE_SHIFT : Fld := ⟨0xC0058, 0, 4, 0x0⟩
def BUF_SUMP_MASK_MASK : Fld := ⟨0xC005C, 0, 32, 0x0⟩
def BUF_VOQ_SEL_INPUT : Fld := ⟨0xC0060, 3, 7, 0x0⟩
def BUF_VOQ_SEL_TC : Fld := ⟨0xC0060, 0, 3, 0x0⟩
def BUF_PORT_CFG_CT_IN : Fld := ⟨0xC0100, 31, 1, 0x100000⟩
def BUF_PORT_CFG_CT_OUT : Fld := ⟨0xC0100, 30, 1, 0x100000⟩
def BUF_PORT_CFG_LINK_HOLD_MS : Fld := ⟨0xC0100, 16, 10, 0x100000⟩
def BUF_PORT_CFG_MAX_AGE_MS : Fld := ⟨0xC0100, 0, 16, 0x100000⟩
def BUF_PORT_STAT_HOLD : Fld := ⟨0xC0104, 30, 2, 0x100000⟩
def BUF_PORT_STAT_HOLD_REM_MS : Fld := ⟨0xC0104, 20, 10, 0x100000⟩
def BUF_PORT_STAT_CELLS : Fld := ⟨0xC0104, 0, 19, 0x100000⟩
def BUF_PORT_EVENT_LINK_HOLD_FLUSH : Fld := ⟨0xC0108, 2, 1, 0x100000⟩
def BUF_PORT_EVENT_LINK_HOLD_RESUMED : Fld := ⟨0xC0108, 1, 1, 0x100000⟩
def BUF_PORT_EVENT_LINK_HOLD_START : Fld := ⟨0xC0108, 0, 1, 0x100000⟩
def BUF_VOQ_DEPTH_DEPTH : Fld := ⟨0xC010C, 0, 19, 0x100000⟩
def BUF_SUMP_IN_COUNT : Fld := ⟨0xC0110, 0, 32, 0x100000⟩
def BUF_SUMP_OUT_COUNT : Fld := ⟨0xC0114, 0, 32, 0x100000⟩
def BUF_CNT_CT_COUNT : Fld := ⟨0xC0120, 0, 32, 0x100000⟩
def BUF_CNT_SF_COUNT : Fld := ⟨0xC0124, 0, 32, 0x100000⟩
def BUF_CNT_STOMP_COUNT : Fld := ⟨0xC0128, 0, 32, 0x100000⟩
def BUF_CNT_ECN_MARK_COUNT : Fld := ⟨0xC012C, 0, 32, 0x100000⟩
def BUF_CNT_RESIDUE_COUNT : Fld := ⟨0xC0130, 0, 32, 0x100000⟩
def BUF_CLS_ADM_POOL : Fld := ⟨0xC0200, 30, 2, 0x100000⟩
def BUF_CLS_ADM_ALPHA : Fld := ⟨0xC0200, 24, 4, 0x100000⟩
def BUF_CLS_ADM_MIN : Fld := ⟨0xC0200, 0, 18, 0x100000⟩
def BUF_CLS_ADM_PEND_POOL : Fld := ⟨0xC0204, 30, 2, 0x100000⟩
def BUF_CLS_ADM_PEND_ALPHA : Fld := ⟨0xC0204, 24, 4, 0x100000⟩
def BUF_CLS_ADM_PEND_MIN : Fld := ⟨0xC0204, 0, 18, 0x100000⟩
def BUF_CLS_ECN_ENA : Fld := ⟨0xC0208, 31, 1, 0x100000⟩
def BUF_CLS_ECN_KMAX : Fld := ⟨0xC0208, 16, 15, 0x100000⟩
def BUF_CLS_ECN_KMIN : Fld := ⟨0xC0208, 0, 15, 0x100000⟩
def BUF_CLS_STAT_AGGREGATE : Fld := ⟨0xC020C, 0, 19, 0x100000⟩
-- BAR0 block 0xD
def EGR_TBL_CTL_GO : Fld := ⟨0xD0010, 31, 1, 0x0⟩
def EGR_TBL_CTL_BUSY : Fld := ⟨0xD0010, 30, 1, 0x0⟩
def EGR_TBL_CTL_WRITE : Fld := ⟨0xD0010, 29, 1, 0x0⟩
def EGR_TBL_CTL_TABLE : Fld := ⟨0xD0010, 27, 2, 0x0⟩
def EGR_TBL_CTL_STATUS : Fld := ⟨0xD0010, 23, 4, 0x0⟩
def EGR_TBL_CTL_INDEX : Fld := ⟨0xD0010, 0, 12, 0x0⟩
def EGR_TBL_DATA_WORD : Fld := ⟨0xD0020, 0, 32, 0x4⟩
def EGR_PORT_CFG_PCP_REMARK : Fld := ⟨0xD0100, 31, 1, 0x100000⟩
def EGR_PORT_CFG_DEI_REMARK : Fld := ⟨0xD0100, 30, 1, 0x100000⟩
def EGR_PORT_CFG_TPID_SEL : Fld := ⟨0xD0100, 29, 1, 0x100000⟩
def EGR_PORT_CFG_OVH : Fld := ⟨0xD0100, 0, 8, 0x100000⟩
def EGR_PORT_EVENT_PERIOD_INVALID : Fld := ⟨0xD0104, 7, 1, 0x100000⟩
def EGR_PORT_EVENT_GATE_EVENT_LATE : Fld := ⟨0xD0104, 6, 1, 0x100000⟩
def EGR_PORT_EVENT_GATE_NEVER_FITS : Fld := ⟨0xD0104, 5, 1, 0x100000⟩
def EGR_PORT_EVENT_GATE_CFG_INVALID : Fld := ⟨0xD0104, 4, 1, 0x100000⟩
def EGR_PORT_EVENT_GCL_BUSY : Fld := ⟨0xD0104, 3, 1, 0x100000⟩
def EGR_PORT_EVENT_GATE_REALIGN_IGNORED : Fld := ⟨0xD0104, 2, 1, 0x100000⟩
def EGR_PORT_EVENT_GCL_CHANGED : Fld := ⟨0xD0104, 1, 1, 0x100000⟩
def EGR_PORT_EVENT_MM_VERIFY_FAIL : Fld := ⟨0xD0104, 0, 1, 0x100000⟩
def EGR_GATE_CFG_ENA : Fld := ⟨0xD0110, 31, 1, 0x100000⟩
def EGR_GATE_CFG_OVERSIZE_ACT : Fld := ⟨0xD0110, 30, 1, 0x100000⟩
def EGR_GATE_CFG_HOLD_ADV_NS : Fld := ⟨0xD0110, 8, 16, 0x100000⟩
def EGR_GATE_CFG_INIT_STATES : Fld := ⟨0xD0110, 0, 8, 0x100000⟩
def EGR_GATE_CTL_COMMIT : Fld := ⟨0xD0114, 31, 1, 0x100000⟩
def EGR_GATE_CTL_CANCEL : Fld := ⟨0xD0114, 30, 1, 0x100000⟩
def EGR_GATE_CTL_REALIGN : Fld := ⟨0xD0114, 29, 1, 0x100000⟩
def EGR_GATE_CTL_ALIGNED : Fld := ⟨0xD0114, 2, 1, 0x100000⟩
def EGR_GATE_CTL_RUNNING : Fld := ⟨0xD0114, 1, 1, 0x100000⟩
def EGR_GATE_CTL_PENDING : Fld := ⟨0xD0114, 0, 1, 0x100000⟩
def EGR_GATE_LEN_OPER_LEN : Fld := ⟨0xD0118, 16, 9, 0x100000⟩
def EGR_GATE_LEN_ADMIN_LEN : Fld := ⟨0xD0118, 0, 9, 0x100000⟩
def EGR_GATE_EXT_EXT_NS : Fld := ⟨0xD011C, 0, 32, 0x100000⟩
def EGR_GATE_BASE_NS : Fld := ⟨0xD0120, 0, 32, 0x100000⟩
def EGR_GATE_BASE_SEC_LO : Fld := ⟨0xD0124, 0, 32, 0x100000⟩
def EGR_GATE_BASE_SEC_HI : Fld := ⟨0xD0128, 0, 16, 0x100000⟩
def EGR_GATE_BASE_FRAC : Fld := ⟨0xD0128, 16, 16, 0x100000⟩
def EGR_GATE_OPER_BASE_NS : Fld := ⟨0xD0130, 0, 32, 0x100000⟩
def EGR_GATE_OPER_BASE_SEC_LO : Fld := ⟨0xD0134, 0, 32, 0x100000⟩
def EGR_GATE_OPER_BASE_SEC_HI : Fld := ⟨0xD0138, 0, 16, 0x100000⟩
def EGR_GATE_OPER_BASE_FRAC : Fld := ⟨0xD0138, 16, 16, 0x100000⟩
def EGR_GATE_CYCLE_NUM_LO : Fld := ⟨0xD0140, 0, 32, 0x100000⟩
def EGR_GATE_CYCLE_NUM_HI : Fld := ⟨0xD0144, 0, 16, 0x100000⟩
def EGR_GATE_CYCLE_DEN : Fld := ⟨0xD0148, 0, 24, 0x100000⟩
def EGR_GATE_OPER_CYCLE_NUM_LO : Fld := ⟨0xD0150, 0, 32, 0x100000⟩
def EGR_GATE_OPER_CYCLE_NUM_HI : Fld := ⟨0xD0154, 0, 16, 0x100000⟩
def EGR_GATE_OPER_CYCLE_DEN : Fld := ⟨0xD0158, 0, 24, 0x100000⟩
def EGR_GATE_OPER_EXT_EXT_NS : Fld := ⟨0xD015C, 0, 32, 0x100000⟩
def EGR_GATE_CHANGE_TIME_NS : Fld := ⟨0xD0160, 0, 32, 0x100000⟩
def EGR_GATE_CHANGE_TIME_SEC_LO : Fld := ⟨0xD0164, 0, 32, 0x100000⟩
def EGR_GATE_CHANGE_TIME_SEC_HI : Fld := ⟨0xD0168, 0, 16, 0x100000⟩
def EGR_GATE_CHANGE_TIME_FRAC : Fld := ⟨0xD0168, 16, 16, 0x100000⟩
def EGR_GATE_STAT_STATES : Fld := ⟨0xD016C, 24, 8, 0x100000⟩
def EGR_GATE_STAT_HOLD : Fld := ⟨0xD016C, 23, 1, 0x100000⟩
def EGR_GATE_STAT_ENTRY : Fld := ⟨0xD016C, 0, 8, 0x100000⟩
def EGR_MM_CFG_ENA : Fld := ⟨0xD0170, 31, 1, 0x100000⟩
def EGR_MM_CFG_VERIFY_DIS : Fld := ⟨0xD0170, 30, 1, 0x100000⟩
def EGR_MM_CFG_ADD_FRAG : Fld := ⟨0xD0170, 28, 2, 0x100000⟩
def EGR_MM_CFG_VERIFY_TIME_MS : Fld := ⟨0xD0170, 0, 8, 0x100000⟩
def EGR_MM_STAT_VERIFY_STATUS : Fld := ⟨0xD0174, 29, 3, 0x100000⟩
def EGR_MM_STAT_ACTIVE : Fld := ⟨0xD0174, 28, 1, 0x100000⟩
def EGR_CNT_TX_COUNT : Fld := ⟨0xD0180, 0, 32, 0x100000⟩
def EGR_CNT_NOFIT_COUNT : Fld := ⟨0xD0184, 0, 32, 0x100000⟩
def EGR_CNT_PREEMPT_COUNT : Fld := ⟨0xD0188, 0, 32, 0x100000⟩
def EGR_CNT_OVERRUN_COUNT : Fld := ⟨0xD018C, 0, 32, 0x100000⟩
def EGR_CLS_CFG_PREEMPTIBLE : Fld := ⟨0xD0200, 31, 1, 0x100000⟩
def EGR_CLS_CFG_SHARED : Fld := ⟨0xD0200, 30, 1, 0x100000⟩
def EGR_CLS_CFG_SHAPER : Fld := ⟨0xD0200, 28, 2, 0x100000⟩
def EGR_CLS_CFG_BAND_W : Fld := ⟨0xD0200, 8, 8, 0x100000⟩
def EGR_CLS_RATE_RATE : Fld := ⟨0xD0204, 0, 32, 0x100000⟩
def EGR_CLS_BURST_BURST : Fld := ⟨0xD0208, 0, 24, 0x100000⟩
def EGR_CLS_LEVEL_LEVEL : Fld := ⟨0xD020C, 0, 32, 0x100000⟩
-- BAR0 block 0xE
def RED_GCFG_ENA : Fld := ⟨0xE0004, 31, 1, 0x0⟩
def RED_GCFG_DOWN_ACT : Fld := ⟨0xE0004, 0, 1, 0x0⟩
def RED_GSTAT_FN_HOLDING : Fld := ⟨0xE0008, 17, 13, 0x0⟩
def RED_GSTAT_HELD : Fld := ⟨0xE0008, 0, 17, 0x0⟩
def RED_EVENT_FLUSH : Fld := ⟨0xE000C, 6, 1, 0x0⟩
def RED_EVENT_PATH_UP : Fld := ⟨0xE000C, 5, 1, 0x0⟩
def RED_EVENT_PATH_DOWN : Fld := ⟨0xE000C, 4, 1, 0x0⟩
def RED_EVENT_LATENT_ERROR : Fld := ⟨0xE000C, 3, 1, 0x0⟩
def RED_EVENT_TAKE_ANY : Fld := ⟨0xE000C, 2, 1, 0x0⟩
def RED_EVENT_RESEQ_TIMEOUT : Fld := ⟨0xE000C, 1, 1, 0x0⟩
def RED_EVENT_ROGUE : Fld := ⟨0xE000C, 0, 1, 0x0⟩
def RED_EVENT_FN_VALID : Fld := ⟨0xE0010, 31, 1, 0x0⟩
def RED_EVENT_FN_FN : Fld := ⟨0xE0010, 0, 12, 0x0⟩
def RED_FN_CFG_ENA : Fld := ⟨0xE0100, 31, 1, 0x100000⟩
def RED_FN_CFG_MODE : Fld := ⟨0xE0100, 29, 2, 0x100000⟩
def RED_FN_CFG_TAKE_NO_SEQ : Fld := ⟨0xE0100, 28, 1, 0x100000⟩
def RED_FN_CFG_LATE_ACT : Fld := ⟨0xE0100, 27, 1, 0x100000⟩
def RED_FN_CFG_LATENT_ENA : Fld := ⟨0xE0100, 26, 1, 0x100000⟩
def RED_FN_CFG_HISTORY : Fld := ⟨0xE0100, 0, 6, 0x100000⟩
def RED_FN_TIMERS_RESET_MS : Fld := ⟨0xE0104, 16, 16, 0x100000⟩
def RED_FN_TIMERS_TIMEOUT_100US : Fld := ⟨0xE0104, 0, 10, 0x100000⟩
def RED_FN_LATENT_PERIOD_MS : Fld := ⟨0xE0108, 16, 16, 0x100000⟩
def RED_FN_LATENT_THRESH : Fld := ⟨0xE0108, 0, 16, 0x100000⟩
def RED_FN_PATH_ENA : Fld := ⟨0xE010C, 7, 1, 0x100000⟩
def RED_FN_PATH_PORT : Fld := ⟨0xE010C, 0, 7, 0x100000⟩
def RED_FN_PATH_TO_PATH_TO_MS : Fld := ⟨0xE0110, 0, 16, 0x100000⟩
def RED_FN_CTL_RESET : Fld := ⟨0xE0114, 31, 1, 0x100000⟩
def RED_FN_STAT_TAKE_ANY : Fld := ⟨0xE0118, 31, 1, 0x100000⟩
def RED_FN_STAT_PATH_UP : Fld := ⟨0xE0118, 27, 4, 0x100000⟩
def RED_FN_STAT_HELD : Fld := ⟨0xE0118, 22, 5, 0x100000⟩
def RED_FN_STAT_NEXT : Fld := ⟨0xE0118, 0, 16, 0x100000⟩
def RED_FN_EVENT_PATH_UP : Fld := ⟨0xE011C, 5, 1, 0x100000⟩
def RED_FN_EVENT_PATH_DOWN : Fld := ⟨0xE011C, 4, 1, 0x100000⟩
def RED_FN_EVENT_LATENT_ERROR : Fld := ⟨0xE011C, 3, 1, 0x100000⟩
def RED_FN_EVENT_TAKE_ANY : Fld := ⟨0xE011C, 2, 1, 0x100000⟩
def RED_FN_EVENT_RESEQ_TIMEOUT : Fld := ⟨0xE011C, 1, 1, 0x100000⟩
def RED_FN_EVENT_ROGUE : Fld := ⟨0xE011C, 0, 1, 0x100000⟩
def RED_GEN_SEQ_NEXT : Fld := ⟨0xE0120, 0, 16, 0x100000⟩
def RED_FN_CNT_PASSED_COUNT : Fld := ⟨0xE0130, 0, 32, 0x100000⟩
def RED_FN_CNT_DUPLICATE_COUNT : Fld := ⟨0xE0134, 0, 32, 0x100000⟩
def RED_FN_CNT_ROGUE_COUNT : Fld := ⟨0xE0138, 0, 32, 0x100000⟩
def RED_FN_CNT_LATE_COUNT : Fld := ⟨0xE013C, 0, 32, 0x100000⟩
def RED_FN_CNT_LOST_COUNT : Fld := ⟨0xE0140, 0, 32, 0x100000⟩
def RED_FN_CNT_HELD_COUNT : Fld := ⟨0xE0144, 0, 32, 0x100000⟩
def RED_FN_CNT_TIMEOUT_COUNT : Fld := ⟨0xE0148, 0, 32, 0x100000⟩
def RED_FN_CNT_TAGLESS_COUNT : Fld := ⟨0xE014C, 0, 32, 0x100000⟩
def RED_FN_CNT_PATH_COUNT : Fld := ⟨0xE0150, 0, 32, 0x100000⟩
-- BAR0 block 0xF
def MON_GCFG_CNT_ENA : Fld := ⟨0xF0004, 31, 1, 0x0⟩
def MON_GCFG_BW_LINE : Fld := ⟨0xF0004, 30, 1, 0x0⟩
def MON_EVENT_LOG_WRITE_FAIL : Fld := ⟨0xF0008, 10, 1, 0x0⟩
def MON_EVENT_XO_UPDATED : Fld := ⟨0xF0008, 9, 1, 0x0⟩
def MON_EVENT_PLAN_HELD : Fld := ⟨0xF0008, 8, 1, 0x0⟩
def MON_EVENT_PLAN_CHANGED : Fld := ⟨0xF0008, 7, 1, 0x0⟩
def MON_EVENT_AVS_FAULT : Fld := ⟨0xF0008, 6, 1, 0x0⟩
def MON_EVENT_AGEING_ALERT : Fld := ⟨0xF0008, 5, 1, 0x0⟩
def MON_EVENT_SLACK_LOW : Fld := ⟨0xF0008, 4, 1, 0x0⟩
def MON_EVENT_TEMP_HIGH : Fld := ⟨0xF0008, 3, 1, 0x0⟩
def MON_EVENT_CAN_RANGE : Fld := ⟨0xF0008, 2, 1, 0x0⟩
def MON_EVENT_HIST_SAT : Fld := ⟨0xF0008, 1, 1, 0x0⟩
def MON_EVENT_CNT_WRAP : Fld := ⟨0xF0008, 0, 1, 0x0⟩
def MON_CNT_CYC_CYC_LO : Fld := ⟨0xF0100, 0, 32, 0x100000⟩
def MON_CNT_CYC_CYC_HI : Fld := ⟨0xF0104, 0, 16, 0x100000⟩
def MON_CNT_CTL_CNT : Fld := ⟨0xF0108, 0, 8, 0x100000⟩
def MON_CNT_WRAP_CNT : Fld := ⟨0xF010C, 0, 8, 0x100000⟩
def MON_CNT_WRAP_CYC : Fld := ⟨0xF010C, 8, 1, 0x100000⟩
def MON_CNT_CFG_SEL : Fld := ⟨0xF0110, 13, 7, 0x100000⟩
def MON_CNT_CFG_MODE : Fld := ⟨0xF0110, 12, 1, 0x100000⟩
def MON_CNT_CFG_TC_ENA : Fld := ⟨0xF0110, 11, 1, 0x100000⟩
def MON_CNT_CFG_TC : Fld := ⟨0xF0110, 8, 3, 0x100000⟩
def MON_CNT_CFG_EVENT : Fld := ⟨0xF0110, 0, 8, 0x100000⟩
def MON_CNT_THR_N : Fld := ⟨0xF0114, 0, 24, 0x100000⟩
def MON_CNT_CNT_LO : Fld := ⟨0xF0150, 0, 32, 0x100000⟩
def MON_CNT_CNT_HI : Fld := ⟨0xF0154, 0, 16, 0x100000⟩
def MON_BW_CFG_WIN_US : Fld := ⟨0xF0190, 0, 20, 0x100000⟩
def MON_BW_RX_LAST_MBPS : Fld := ⟨0xF0194, 0, 19, 0x100000⟩
def MON_BW_RX_PEAK_MBPS : Fld := ⟨0xF0198, 0, 19, 0x100000⟩
def MON_BW_TX_LAST_MBPS : Fld := ⟨0xF019C, 0, 19, 0x100000⟩
def MON_BW_TX_PEAK_MBPS : Fld := ⟨0xF01A0, 0, 19, 0x100000⟩
def MON_HIST_CFG_ENA : Fld := ⟨0xF0400, 31, 1, 0x80⟩
def MON_HIST_CFG_HOLD : Fld := ⟨0xF0400, 30, 1, 0x80⟩
def MON_HIST_CFG_CLEAR : Fld := ⟨0xF0400, 29, 1, 0x80⟩
def MON_HIST_CFG_KIND : Fld := ⟨0xF0400, 26, 3, 0x80⟩
def MON_HIST_CFG_SPACE : Fld := ⟨0xF0400, 21, 5, 0x80⟩
def MON_HIST_CFG_INPUT : Fld := ⟨0xF0400, 14, 7, 0x80⟩
def MON_HIST_CFG_OUTPUT : Fld := ⟨0xF0400, 7, 7, 0x80⟩
def MON_HIST_CFG_TC : Fld := ⟨0xF0400, 0, 3, 0x80⟩
def MON_HIST_BASE_BASE : Fld := ⟨0xF0404, 0, 16, 0x80⟩
def MON_HIST_STAT_SAT : Fld := ⟨0xF0408, 31, 1, 0x80⟩
def MON_HIST_STAT_SAMPLES : Fld := ⟨0xF0408, 0, 31, 0x80⟩
def MON_HIST_MAX_MAX : Fld := ⟨0xF040C, 0, 32, 0x80⟩
def MON_HIST0_BIN_COUNT : Fld := ⟨0xF0440, 0, 32, 0x4⟩
def MON_HIST1_BIN_COUNT : Fld := ⟨0xF04C0, 0, 32, 0x4⟩
def MON_HIST2_BIN_COUNT : Fld := ⟨0xF0540, 0, 32, 0x4⟩
def MON_HIST3_BIN_COUNT : Fld := ⟨0xF05C0, 0, 32, 0x4⟩
def MON_HIST4_BIN_COUNT : Fld := ⟨0xF0640, 0, 32, 0x4⟩
def MON_HIST5_BIN_COUNT : Fld := ⟨0xF06C0, 0, 32, 0x4⟩
def MON_HIST6_BIN_COUNT : Fld := ⟨0xF0740, 0, 32, 0x4⟩
def MON_HIST7_BIN_COUNT : Fld := ⟨0xF07C0, 0, 32, 0x4⟩
def MON_ECC_CFG_SCRUB_ENA : Fld := ⟨0xF0800, 31, 1, 0x0⟩
def MON_ECC_CFG_PACE : Fld := ⟨0xF0800, 16, 4, 0x0⟩
def MON_ECC_CFG_LAP_LIMIT_S : Fld := ⟨0xF0800, 0, 16, 0x0⟩
def MON_ECC_IDX_MEM : Fld := ⟨0xF0804, 0, 5, 0x0⟩
def MON_ECC_CE_COUNT : Fld := ⟨0xF0808, 0, 32, 0x0⟩
def MON_ECC_UE_COUNT : Fld := ⟨0xF080C, 0, 32, 0x0⟩
def MON_ECC_SCRUB_REPAIRED : Fld := ⟨0xF0810, 16, 16, 0x0⟩
def MON_ECC_SCRUB_UE_FOUND : Fld := ⟨0xF0810, 0, 16, 0x0⟩
def MON_ECC_LAP_LAST_MS : Fld := ⟨0xF0814, 16, 16, 0x0⟩
def MON_ECC_LAP_PEAK_MS : Fld := ⟨0xF0814, 0, 16, 0x0⟩
def MON_ECC_ADDR_VALID : Fld := ⟨0xF0818, 31, 1, 0x0⟩
def MON_ECC_ADDR_UE : Fld := ⟨0xF0818, 30, 1, 0x0⟩
def MON_ECC_ADDR_SCRUB : Fld := ⟨0xF0818, 29, 1, 0x0⟩
def MON_ECC_ADDR_BANK : Fld := ⟨0xF0818, 24, 5, 0x0⟩
def MON_ECC_ADDR_WORD : Fld := ⟨0xF0818, 0, 24, 0x0⟩
def MON_ECC_UE_MAP_MEM : Fld := ⟨0xF0820, 0, 19, 0x0⟩
def MON_ECC_CE_MAP_MEM : Fld := ⟨0xF0824, 0, 19, 0x0⟩
def MON_ECC_EVENT_CELL_WITHHELD : Fld := ⟨0xF0828, 3, 1, 0x0⟩
def MON_ECC_EVENT_INJECT_DONE : Fld := ⟨0xF0828, 2, 1, 0x0⟩
def MON_ECC_EVENT_SCRUB_LATE : Fld := ⟨0xF0828, 1, 1, 0x0⟩
def MON_ECC_EVENT_MEM_CE : Fld := ⟨0xF0828, 0, 1, 0x0⟩
def MON_ECC_INJECT_ARM : Fld := ⟨0xF082C, 31, 1, 0x0⟩
def MON_ECC_INJECT_BITS : Fld := ⟨0xF082C, 29, 2, 0x0⟩
def MON_ECC_INJECT_MEM : Fld := ⟨0xF082C, 0, 5, 0x0⟩
def MON_ECC_WITHHELD_CELLS : Fld := ⟨0xF0830, 0, 19, 0x0⟩
def MON_BIST_STAT_FAIL : Fld := ⟨0xF0834, 0, 32, 0x0⟩
def MON_BIST_MEM_FAIL : Fld := ⟨0xF0838, 0, 32, 0x0⟩
def MON_CAN_CFG_ENA : Fld := ⟨0xF0900, 31, 1, 0x0⟩
def MON_CAN_CFG_PERIOD_MS : Fld := ⟨0xF0900, 0, 16, 0x0⟩
def MON_CAN_LIM_TEMP_HIGH : Fld := ⟨0xF0904, 16, 16, 0x0⟩
def MON_CAN_LIM_SLACK_MIN : Fld := ⟨0xF0904, 0, 16, 0x0⟩
def MON_CAN_LIM2_AGE_ALERT : Fld := ⟨0xF0908, 0, 20, 0x0⟩
def MON_AVS_MODE : Fld := ⟨0xF0910, 31, 1, 0x0⟩
def MON_AVS_CODE_MAX : Fld := ⟨0xF0910, 16, 8, 0x0⟩
def MON_AVS_CODE_MIN : Fld := ⟨0xF0910, 8, 8, 0x0⟩
def MON_AVS_CODE : Fld := ⟨0xF0910, 0, 8, 0x0⟩
def MON_PLAN_CFG_AUTO : Fld := ⟨0xF0914, 31, 1, 0x0⟩
def MON_PLAN_CFG_SLACK_TARGET : Fld := ⟨0xF0914, 24, 7, 0x0⟩
def MON_PLAN_CFG_RECAL_DK : Fld := ⟨0xF0914, 20, 4, 0x0⟩
def MON_PLAN_CFG_TDC_DK : Fld := ⟨0xF0914, 16, 4, 0x0⟩
def MON_PLAN_CFG_RECAL_H : Fld := ⟨0xF0914, 8, 8, 0x0⟩
def MON_PLAN_CFG2_TDC_H : Fld := ⟨0xF0918, 16, 16, 0x0⟩
def MON_PLAN_CFG2_PLAN_S : Fld := ⟨0xF0918, 0, 16, 0x0⟩
def MON_PLAN_GEN : Fld := ⟨0xF091C, 24, 8, 0x0⟩
def MON_PLAN_EQ_MARGIN_MV : Fld := ⟨0xF091C, 16, 8, 0x0⟩
def MON_PLAN_HELD : Fld := ⟨0xF091C, 15, 1, 0x0⟩
def MON_LOG_CFG_LOG_S : Fld := ⟨0xF0920, 0, 17, 0x0⟩
def MON_LOG_STAT_VALID : Fld := ⟨0xF0924, 31, 1, 0x0⟩
def MON_LOG_STAT_HEAD : Fld := ⟨0xF0924, 20, 10, 0x0⟩
def MON_LOG_STAT_LONG_HEAD : Fld := ⟨0xF0924, 12, 6, 0x0⟩
def MON_LOG_IDX_LONG : Fld := ⟨0xF0928, 31, 1, 0x0⟩
def MON_LOG_IDX_ENTRY : Fld := ⟨0xF0928, 0, 10, 0x0⟩
def MON_LOG_DATA_WORD : Fld := ⟨0xF0940, 0, 32, 0x4⟩
def MON_CAN_VAL_VALID : Fld := ⟨0xF0A00, 31, 1, 0x4⟩
def MON_CAN_VAL_VALUE : Fld := ⟨0xF0A00, 0, 20, 0x4⟩
end R

/-- Register words of block 0x0. -/
def rows0a : List RegRow := [
  ⟨0x00000, 1, 0x0, [⟨16, 16, .ro⟩, ⟨8, 8, .ro⟩, ⟨0, 8, .ro⟩]⟩,
  ⟨0x00004, 1, 0x0, [⟨31, 1, .ro⟩, ⟨30, 1, .ro⟩, ⟨6, 2, .ro⟩, ⟨5, 1, .ro⟩, ⟨4, 1, .ro⟩, ⟨3, 1, .ro⟩, ⟨2, 1, .ro⟩, ⟨1, 1, .ro⟩, ⟨0, 1, .ro⟩]⟩
]

/-- Register words of block 0x1. -/
def rows1a : List RegRow := [
  ⟨0x10000, 1, 0x0, [⟨31, 1, .ro⟩, ⟨30, 1, .ro⟩, ⟨29, 1, .ro⟩, ⟨28, 1, .ro⟩, ⟨26, 2, .ro⟩, ⟨22, 4, .ro⟩, ⟨21, 1, .ro⟩, ⟨19, 2, .ro⟩, ⟨18, 1, .ro⟩, ⟨16, 2, .ro⟩, ⟨15, 1, .ro⟩]⟩,
  ⟨0x10004, 1, 0x0, [⟨0, 9, .w1c⟩]⟩,
  ⟨0x10008, 1, 0x0, [⟨9, 1, .w1c⟩, ⟨8, 1, .w1c⟩, ⟨7, 1, .w1c⟩, ⟨6, 1, .w1c⟩, ⟨5, 1, .w1c⟩, ⟨4, 1, .w1c⟩, ⟨3, 1, .w1c⟩, ⟨2, 1, .w1c⟩, ⟨1, 1, .w1c⟩]⟩,
  ⟨0x1000C, 1, 0x0, [⟨31, 1, .ro⟩, ⟨2, 1, .rws⟩, ⟨5, 1, .rws⟩, ⟨8, 1, .rws⟩, ⟨11, 1, .rws⟩, ⟨14, 1, .rws⟩, ⟨17, 1, .rws⟩, ⟨20, 1, .rws⟩, ⟨23, 1, .rws⟩, ⟨26, 1, .rws⟩, ⟨0, 2, .rws⟩, ⟨3, 2, .rws⟩, ⟨6, 2, .rws⟩, ⟨9, 2, .rws⟩, ⟨12, 2, .rws⟩, ⟨15, 2, .rws⟩, ⟨18, 2, .rws⟩, ⟨21, 2, .rws⟩, ⟨24, 2, .rws⟩]⟩,
  ⟨0x10010, 1, 0x0, [⟨0, 32, .ro⟩]⟩,
  ⟨0x10014, 1, 0x0, [⟨0, 32, .ro⟩]⟩,
  ⟨0x10018, 1, 0x0, [⟨0, 32, .ro⟩]⟩,
  ⟨0x1001C, 1, 0x0, [⟨0, 32, .ro⟩]⟩,
  ⟨0x10020, 1, 0x0, [⟨0, 32, .wo⟩]⟩,
  ⟨0x10024, 1, 0x0, [⟨31, 1, .wo⟩, ⟨0, 5, .rw⟩]⟩,
  ⟨0x10030, 1, 0x0, [⟨31, 1, .rws⟩, ⟨0, 2, .rws⟩]⟩,
  ⟨0x10034, 1, 0x0, [⟨24, 3, .ro⟩, ⟨0, 2, .ro⟩, ⟨2, 2, .ro⟩, ⟨4, 2, .ro⟩, ⟨6, 2, .ro⟩]⟩,
  ⟨0x10038, 1, 0x0, [⟨8, 4, .ro⟩, ⟨6, 2, .ro⟩, ⟨4, 2, .ro⟩, ⟨2, 2, .ro⟩, ⟨0, 2, .ro⟩]⟩,
  ⟨0x10040, 8, 0x4, [⟨0, 32, .ro⟩]⟩,
  ⟨0x10060, 1, 0x0, [⟨0, 32, .ro⟩]⟩,
  ⟨0x10064, 1, 0x0, [⟨0, 7, .rw⟩]⟩,
  ⟨0x10068, 1, 0x0, [⟨0, 32, .ro⟩]⟩
]

/-- Register words of block 0x2. -/
def rows2a : List RegRow := [
  ⟨0x20000, 1, 0x0, [⟨31, 1, .ro⟩, ⟨29, 2, .ro⟩, ⟨28, 1, .ro⟩, ⟨27, 1, .ro⟩, ⟨16, 8, .ro⟩, ⟨14, 2, .ro⟩, ⟨0, 4, .ro⟩]⟩,
  ⟨0x20004, 1, 0x0, [⟨31, 1, .rw⟩, ⟨30, 1, .wo⟩]⟩,
  ⟨0x20008, 1, 0x0, [⟨31, 1, .wo⟩, ⟨0, 8, .wo⟩]⟩,
  ⟨0x2000C, 1, 0x0, [⟨0, 16, .ro⟩]⟩,
  ⟨0x20010, 1, 0x0, [⟨0, 1, .w1c⟩, ⟨1, 1, .w1c⟩, ⟨2, 1, .w1c⟩, ⟨3, 1, .w1c⟩, ⟨4, 1, .w1c⟩, ⟨5, 1, .w1c⟩, ⟨6, 1, .w1c⟩, ⟨7, 1, .w1c⟩, ⟨8, 1, .w1c⟩, ⟨9, 1, .w1c⟩, ⟨10, 1, .w1c⟩]⟩,
  ⟨0x20014, 1, 0x0, [⟨7, 1, .w1c⟩, ⟨6, 1, .w1c⟩, ⟨5, 1, .w1c⟩, ⟨4, 1, .w1c⟩, ⟨3, 1, .w1c⟩, ⟨2, 1, .w1c⟩, ⟨1, 1, .w1c⟩, ⟨0, 1, .w1c⟩]⟩,
  ⟨0x20018, 1, 0x0, [⟨16, 16, .ro⟩, ⟨0, 5, .ro⟩]⟩,
  ⟨0x20040, 10, 0x4, [⟨0, 32, .ro⟩]⟩,
  ⟨0x20400, 320, 0x4, [⟨30, 2, .ro⟩, ⟨29, 1, .rw⟩, ⟨28, 1, .rw⟩, ⟨0, 16, .rw⟩]⟩,
  ⟨0x21000, 256, 0x4, [⟨0, 32, .ro⟩]⟩
]

/-- Register words of block 0x3. -/
def rows3a : List RegRow := [
  ⟨0x30004, 1, 0x0, [⟨31, 1, .rw⟩, ⟨24, 5, .rw⟩, ⟨23, 1, .rw⟩, ⟨16, 5, .rw⟩]⟩,
  ⟨0x30008, 1, 0x0, [⟨31, 1, .ro⟩, ⟨28, 3, .ro⟩, ⟨25, 3, .ro⟩, ⟨24, 1, .ro⟩]⟩,
  ⟨0x3000C, 1, 0x0, [⟨6, 1, .w1c⟩, ⟨5, 1, .w1c⟩, ⟨4, 1, .w1c⟩, ⟨3, 1, .w1c⟩, ⟨2, 1, .w1c⟩, ⟨1, 1, .w1c⟩, ⟨0, 1, .w1c⟩]⟩,
  ⟨0x30010, 2, 0x4, [⟨0, 5, .rw⟩, ⟨8, 5, .rw⟩, ⟨16, 5, .rw⟩, ⟨24, 5, .rw⟩]⟩,
  ⟨0x30020, 2, 0x4, [⟨0, 32, .wo⟩]⟩,
  ⟨0x30028, 2, 0x4, [⟨0, 32, .ro⟩]⟩,
  ⟨0x30030, 1, 0x0, [⟨31, 1, .ro⟩, ⟨30, 1, .ro⟩, ⟨28, 2, .ro⟩, ⟨16, 8, .ro⟩, ⟨0, 9, .rw⟩]⟩,
  ⟨0x30034, 1, 0x0, [⟨31, 1, .rw⟩, ⟨30, 1, .rw⟩, ⟨0, 7, .ro⟩]⟩,
  ⟨0x30100, 1, 0x0, [⟨29, 3, .rw⟩, ⟨28, 1, .rw⟩, ⟨24, 4, .rw⟩, ⟨16, 6, .rw⟩]⟩,
  ⟨0x30104, 1, 0x0, [⟨0, 32, .rw⟩]⟩,
  ⟨0x30108, 1, 0x0, [⟨0, 32, .rw⟩]⟩,
  ⟨0x3010C, 1, 0x0, [⟨0, 32, .rw⟩]⟩,
  ⟨0x30110, 1, 0x0, [⟨0, 32, .rw⟩]⟩,
  ⟨0x30114, 1, 0x0, [⟨31, 1, .wo⟩, ⟨30, 1, .wo⟩, ⟨29, 1, .wo⟩]⟩,
  ⟨0x30118, 1, 0x0, [⟨29, 3, .ro⟩, ⟨26, 3, .ro⟩, ⟨0, 16, .ro⟩]⟩,
  ⟨0x3011C, 1, 0x0, [⟨16, 16, .rw⟩, ⟨0, 16, .rw⟩]⟩,
  ⟨0x30120, 1, 0x0, [⟨0, 16, .rw⟩]⟩,
  ⟨0x30124, 1, 0x0, [⟨0, 32, .ro⟩]⟩,
  ⟨0x30128, 1, 0x0, [⟨0, 32, .ro⟩]⟩,
  ⟨0x3012C, 1, 0x0, [⟨4, 1, .w1c⟩, ⟨3, 1, .w1c⟩, ⟨2, 1, .w1c⟩, ⟨1, 1, .w1c⟩, ⟨0, 1, .w1c⟩]⟩,
  ⟨0x30400, 320, 0x4, [⟨31, 1, .rw⟩, ⟨0, 6, .rw⟩]⟩
]

/-- Register words of block 0x38. -/
def rows38a : List RegRow := [
  ⟨0x38000, 1, 0x0, [⟨31, 1, .ro⟩, ⟨30, 1, .ro⟩, ⟨29, 1, .ro⟩, ⟨28, 1, .ro⟩, ⟨27, 1, .ro⟩, ⟨26, 1, .ro⟩, ⟨25, 1, .ro⟩, ⟨24, 1, .ro⟩, ⟨20, 4, .ro⟩, ⟨16, 4, .ro⟩, ⟨14, 2, .ro⟩, ⟨12, 2, .ro⟩, ⟨10, 2, .ro⟩, ⟨8, 2, .ro⟩]⟩,
  ⟨0x38004, 1, 0x0, [⟨5, 1, .w1c⟩, ⟨4, 1, .w1c⟩, ⟨3, 1, .w1c⟩, ⟨2, 1, .w1c⟩, ⟨1, 1, .w1c⟩, ⟨0, 1, .w1c⟩]⟩,
  ⟨0x38008, 1, 0x0, [⟨0, 16, .ro⟩]⟩,
  ⟨0x3800C, 1, 0x0, [⟨31, 1, .wo⟩, ⟨30, 1, .wo⟩, ⟨29, 1, .wo⟩]⟩,
  ⟨0x38010, 1, 0x0, [⟨31, 1, .ro⟩, ⟨30, 1, .ro⟩, ⟨12, 12, .ro⟩, ⟨0, 12, .ro⟩]⟩,
  ⟨0x38014, 1, 0x0, [⟨0, 32, .ro⟩]⟩,
  ⟨0x38018, 1, 0x0, [⟨0, 32, .ro⟩]⟩,
  ⟨0x3801C, 1, 0x0, [⟨16, 16, .ro⟩, ⟨0, 16, .ro⟩]⟩,
  ⟨0x38020, 2, 0x4, [⟨0, 8, .ro⟩, ⟨8, 8, .ro⟩, ⟨16, 8, .ro⟩, ⟨24, 8, .ro⟩]⟩,
  ⟨0x38100, 12, 0x4, [⟨0, 32, .ro⟩]⟩,
  ⟨0x38140, 12, 0x4, [⟨0, 32, .ro⟩]⟩,
  ⟨0x38180, 12, 0x4, [⟨0, 32, .ro⟩]⟩,
  ⟨0x381C0, 12, 0x4, [⟨0, 32, .ro⟩]⟩,
  ⟨0x38200, 12, 0x4, [⟨0, 32, .ro⟩]⟩,
  ⟨0x38240, 12, 0x4, [⟨0, 32, .ro⟩]⟩,
  ⟨0x38280, 12, 0x4, [⟨0, 32, .ro⟩]⟩,
  ⟨0x382C0, 12, 0x4, [⟨0, 32, .ro⟩]⟩
]

/-- Register words of block 0x4. -/
def rows4a : List RegRow := [
  ⟨0x40000, 1, 0x0, [⟨7, 1, .rw⟩, ⟨6, 1, .rw⟩, ⟨4, 2, .rw⟩, ⟨1, 1, .wo⟩, ⟨0, 1, .rw⟩]⟩,
  ⟨0x40004, 1, 0x0, [⟨8, 1, .ro⟩, ⟨7, 1, .ro⟩, ⟨6, 1, .ro⟩, ⟨5, 1, .ro⟩, ⟨4, 1, .ro⟩, ⟨3, 1, .ro⟩, ⟨2, 1, .ro⟩, ⟨1, 1, .ro⟩, ⟨0, 1, .ro⟩]⟩,
  ⟨0x40008, 1, 0x0, [⟨8, 1, .w1c⟩, ⟨7, 1, .w1c⟩, ⟨6, 1, .w1c⟩, ⟨5, 1, .w1c⟩, ⟨4, 1, .w1c⟩, ⟨3, 1, .w1c⟩, ⟨2, 1, .w1c⟩, ⟨1, 1, .w1c⟩, ⟨0, 1, .w1c⟩]⟩,
  ⟨0x40010, 1, 0x0, [⟨0, 32, .ro⟩]⟩,
  ⟨0x40014, 1, 0x0, [⟨0, 32, .ro⟩]⟩,
  ⟨0x40018, 1, 0x0, [⟨0, 16, .ro⟩, ⟨16, 16, .ro⟩]⟩,
  ⟨0x40020, 1, 0x0, [⟨0, 32, .wo⟩]⟩,
  ⟨0x40024, 1, 0x0, [⟨0, 32, .wo⟩]⟩,
  ⟨0x40028, 1, 0x0, [⟨0, 16, .wo⟩, ⟨16, 16, .wo⟩]⟩,
  ⟨0x40030, 1, 0x0, [⟨0, 32, .wo⟩]⟩,
  ⟨0x40034, 1, 0x0, [⟨0, 32, .wo⟩]⟩,
  ⟨0x40040, 1, 0x0, [⟨0, 32, .ro⟩]⟩,
  ⟨0x40044, 1, 0x0, [⟨0, 16, .ro⟩]⟩,
  ⟨0x40048, 1, 0x0, [⟨16, 16, .rw⟩, ⟨0, 16, .rw⟩]⟩,
  ⟨0x40050, 1, 0x0, [⟨0, 32, .wo⟩]⟩,
  ⟨0x40054, 1, 0x0, [⟨0, 32, .wo⟩]⟩,
  ⟨0x40058, 1, 0x0, [⟨0, 32, .ro⟩]⟩,
  ⟨0x4005C, 1, 0x0, [⟨0, 32, .ro⟩]⟩,
  ⟨0x40060, 1, 0x0, [⟨0, 32, .rw⟩]⟩,
  ⟨0x40064, 1, 0x0, [⟨0, 32, .rw⟩]⟩,
  ⟨0x40068, 1, 0x0, [⟨0, 16, .rw⟩, ⟨16, 16, .rw⟩]⟩,
  ⟨0x40070, 1, 0x0, [⟨0, 32, .ro⟩]⟩,
  ⟨0x40074, 1, 0x0, [⟨0, 32, .ro⟩]⟩,
  ⟨0x40078, 1, 0x0, [⟨0, 32, .ro⟩]⟩,
  ⟨0x40100, 1, 0x0, [⟨31, 1, .rw⟩, ⟨30, 1, .rw⟩, ⟨29, 1, .rw⟩, ⟨28, 1, .rw⟩, ⟨27, 1, .rw⟩, ⟨0, 16, .rw⟩]⟩,
  ⟨0x40110, 1, 0x0, [⟨0, 32, .ro⟩]⟩,
  ⟨0x40114, 1, 0x0, [⟨0, 32, .ro⟩]⟩,
  ⟨0x40118, 1, 0x0, [⟨0, 16, .ro⟩, ⟨16, 16, .ro⟩]⟩,
  ⟨0x40120, 1, 0x0, [⟨0, 32, .ro⟩]⟩,
  ⟨0x40124, 1, 0x0, [⟨31, 1, .ro⟩, ⟨0, 24, .ro⟩]⟩,
  ⟨0x40180, 1, 0x0, [⟨31, 1, .rw⟩, ⟨30, 1, .rw⟩, ⟨29, 1, .rw⟩, ⟨28, 1, .rw⟩, ⟨27, 1, .rw⟩, ⟨0, 16, .rw⟩]⟩,
  ⟨0x40190, 1, 0x0, [⟨0, 32, .ro⟩]⟩,
  ⟨0x40194, 1, 0x0, [⟨0, 32, .ro⟩]⟩,
  ⟨0x40198, 1, 0x0, [⟨0, 16, .ro⟩, ⟨16, 16, .ro⟩]⟩,
  ⟨0x401A0, 1, 0x0, [⟨0, 32, .ro⟩]⟩,
  ⟨0x401A4, 1, 0x0, [⟨31, 1, .ro⟩, ⟨0, 24, .ro⟩]⟩,
  ⟨0x40200, 1, 0x0, [⟨16, 16, .rw⟩, ⟨8, 8, .rw⟩, ⟨4, 4, .rw⟩, ⟨0, 3, .rw⟩]⟩,
  ⟨0x40204, 1, 0x0, [⟨16, 16, .rw⟩, ⟨0, 16, .rw⟩]⟩,
  ⟨0x40210, 1, 0x0, [⟨0, 32, .ro⟩]⟩,
  ⟨0x40214, 1, 0x0, [⟨0, 32, .ro⟩]⟩
]

/-- Register words of block 0x4. -/
def rows4b : List RegRow := [
  ⟨0x40218, 1, 0x0, [⟨0, 16, .ro⟩, ⟨16, 16, .ro⟩]⟩,
  ⟨0x40220, 1, 0x0, [⟨0, 32, .ro⟩]⟩,
  ⟨0x40224, 1, 0x0, [⟨24, 8, .ro⟩, ⟨0, 24, .ro⟩]⟩
]

/-- Register words of block 0x5. -/
def rows5a : List RegRow := [
  ⟨0x50004, 1, 0x0, [⟨16, 10, .rw⟩, ⟨1, 1, .rw⟩, ⟨0, 1, .rw⟩]⟩,
  ⟨0x50008, 1, 0x0, [⟨4, 2, .ro⟩, ⟨2, 1, .ro⟩, ⟨1, 1, .ro⟩, ⟨0, 1, .ro⟩]⟩,
  ⟨0x50010, 1, 0x0, [⟨0, 32, .ro⟩]⟩,
  ⟨0x50014, 1, 0x0, [⟨0, 32, .ro⟩]⟩,
  ⟨0x50100, 1, 0x0, [⟨6, 2, .rw⟩, ⟨2, 1, .rw⟩, ⟨1, 1, .rw⟩, ⟨0, 1, .rw⟩]⟩,
  ⟨0x50104, 1, 0x0, [⟨24, 8, .ro⟩, ⟨20, 4, .ro⟩, ⟨16, 4, .ro⟩, ⟨7, 1, .ro⟩, ⟨6, 1, .ro⟩, ⟨5, 1, .ro⟩, ⟨4, 1, .ro⟩, ⟨3, 1, .ro⟩, ⟨0, 1, .ro⟩]⟩,
  ⟨0x50108, 1, 0x0, [⟨5, 1, .w1c⟩, ⟨4, 1, .w1c⟩, ⟨3, 1, .w1c⟩, ⟨2, 1, .w1c⟩, ⟨1, 1, .w1c⟩, ⟨0, 1, .w1c⟩]⟩,
  ⟨0x50110, 1, 0x0, [⟨0, 32, .ro⟩]⟩,
  ⟨0x50114, 1, 0x0, [⟨0, 32, .ro⟩]⟩,
  ⟨0x50118, 1, 0x0, [⟨16, 16, .ro⟩, ⟨0, 16, .ro⟩]⟩,
  ⟨0x50120, 1, 0x0, [⟨16, 16, .ro⟩, ⟨0, 16, .ro⟩]⟩,
  ⟨0x50124, 1, 0x0, [⟨31, 1, .ro⟩, ⟨0, 16, .ro⟩]⟩,
  ⟨0x50130, 1, 0x0, [⟨0, 32, .rws⟩]⟩,
  ⟨0x50134, 1, 0x0, [⟨0, 32, .rws⟩]⟩,
  ⟨0x50140, 1, 0x0, [⟨31, 1, .ro⟩, ⟨30, 1, .ro⟩, ⟨16, 11, .ro⟩, ⟨0, 11, .ro⟩]⟩,
  ⟨0x50144, 1, 0x0, [⟨0, 32, .ro⟩]⟩,
  ⟨0x50150, 1, 0x0, [⟨0, 32, .ro⟩]⟩,
  ⟨0x50154, 1, 0x0, [⟨0, 32, .ro⟩]⟩,
  ⟨0x50158, 1, 0x0, [⟨0, 32, .ro⟩]⟩,
  ⟨0x5015C, 1, 0x0, [⟨0, 32, .ro⟩]⟩,
  ⟨0x50160, 1, 0x0, [⟨0, 32, .ro⟩]⟩,
  ⟨0x50164, 1, 0x0, [⟨0, 32, .ro⟩]⟩,
  ⟨0x50168, 1, 0x0, [⟨0, 32, .ro⟩]⟩,
  ⟨0x5016C, 1, 0x0, [⟨0, 32, .ro⟩]⟩,
  ⟨0x50170, 1, 0x0, [⟨0, 32, .ro⟩]⟩,
  ⟨0x50174, 1, 0x0, [⟨0, 32, .ro⟩]⟩,
  ⟨0x50178, 1, 0x0, [⟨0, 32, .ro⟩]⟩
]

/-- Register words of block 0x6. -/
def rows6a : List RegRow := [
  ⟨0x60004, 1, 0x0, [⟨24, 8, .rw⟩, ⟨4, 3, .rw⟩, ⟨2, 2, .rw⟩, ⟨0, 1, .rw⟩]⟩,
  ⟨0x60008, 1, 0x0, [⟨16, 10, .ro⟩, ⟨0, 10, .ro⟩]⟩,
  ⟨0x6000C, 1, 0x0, [⟨4, 1, .w1c⟩, ⟨3, 1, .w1c⟩, ⟨2, 1, .w1c⟩, ⟨1, 1, .w1c⟩, ⟨0, 1, .w1c⟩]⟩,
  ⟨0x60010, 1, 0x0, [⟨0, 32, .rws⟩]⟩,
  ⟨0x60014, 1, 0x0, [⟨0, 32, .rws⟩]⟩,
  ⟨0x60020, 1, 0x0, [⟨31, 1, .rw⟩, ⟨26, 1, .rw⟩, ⟨24, 2, .rw⟩, ⟨20, 4, .rw⟩, ⟨16, 4, .rw⟩, ⟨8, 8, .rw⟩, ⟨0, 8, .rw⟩]⟩,
  ⟨0x60024, 1, 0x0, [⟨31, 1, .rw⟩, ⟨26, 1, .rw⟩, ⟨24, 2, .rw⟩, ⟨20, 4, .rw⟩, ⟨16, 4, .rw⟩, ⟨8, 8, .rw⟩, ⟨0, 8, .rw⟩]⟩,
  ⟨0x60030, 1, 0x0, [⟨16, 6, .rw⟩, ⟨8, 6, .rw⟩, ⟨0, 6, .rw⟩]⟩,
  ⟨0x60034, 1, 0x0, [⟨16, 6, .rw⟩, ⟨8, 6, .rw⟩, ⟨0, 6, .rw⟩]⟩,
  ⟨0x60040, 1, 0x0, [⟨16, 16, .rw⟩, ⟨0, 6, .rw⟩]⟩,
  ⟨0x60044, 1, 0x0, [⟨31, 1, .rw⟩, ⟨16, 10, .rw⟩, ⟨0, 7, .rw⟩]⟩,
  ⟨0x60048, 1, 0x0, [⟨16, 16, .rw⟩, ⟨0, 16, .rw⟩]⟩,
  ⟨0x60100, 1, 0x0, [⟨6, 2, .rw⟩, ⟨5, 1, .rw⟩, ⟨4, 1, .rw⟩, ⟨3, 1, .rw⟩, ⟨2, 1, .rw⟩, ⟨1, 1, .rw⟩, ⟨0, 1, .rw⟩]⟩,
  ⟨0x60104, 1, 0x0, [⟨16, 3, .ro⟩, ⟨14, 1, .ro⟩, ⟨13, 1, .ro⟩, ⟨12, 1, .ro⟩, ⟨8, 3, .ro⟩, ⟨0, 4, .rw⟩]⟩,
  ⟨0x60108, 1, 0x0, [⟨24, 8, .rw⟩, ⟨16, 8, .rw⟩, ⟨8, 8, .rw⟩, ⟨0, 8, .rw⟩]⟩,
  ⟨0x6010C, 1, 0x0, [⟨0, 8, .rw⟩]⟩,
  ⟨0x60110, 1, 0x0, [⟨16, 12, .ro⟩, ⟨0, 12, .ro⟩]⟩,
  ⟨0x60114, 1, 0x0, [⟨0, 32, .rws⟩]⟩,
  ⟨0x60118, 1, 0x0, [⟨0, 32, .ro⟩]⟩,
  ⟨0x6011C, 1, 0x0, [⟨0, 32, .ro⟩]⟩,
  ⟨0x60120, 1, 0x0, [⟨0, 32, .ro⟩]⟩,
  ⟨0x60124, 1, 0x0, [⟨6, 1, .w1c⟩, ⟨5, 1, .w1c⟩, ⟨4, 1, .w1c⟩, ⟨3, 1, .w1c⟩, ⟨2, 1, .w1c⟩, ⟨1, 1, .w1c⟩, ⟨0, 1, .w1c⟩]⟩,
  ⟨0x60130, 1, 0x0, [⟨0, 32, .ro⟩]⟩,
  ⟨0x60134, 1, 0x0, [⟨0, 32, .ro⟩]⟩,
  ⟨0x60138, 1, 0x0, [⟨0, 32, .ro⟩]⟩,
  ⟨0x6013C, 1, 0x0, [⟨0, 32, .ro⟩]⟩
]

/-- Register words of block 0x7. -/
def rows7a : List RegRow := [
  ⟨0x70000, 1, 0x0, [⟨24, 8, .rw⟩, ⟨16, 3, .rw⟩]⟩,
  ⟨0x70004, 1, 0x0, [⟨7, 1, .rw⟩, ⟨15, 1, .rw⟩, ⟨23, 1, .rw⟩, ⟨31, 1, .rw⟩, ⟨0, 6, .rw⟩, ⟨8, 6, .rw⟩, ⟨16, 6, .rw⟩, ⟨24, 6, .rw⟩]⟩,
  ⟨0x70008, 1, 0x0, [⟨0, 4, .wo⟩]⟩,
  ⟨0x7000C, 1, 0x0, [⟨0, 2, .ro⟩, ⟨2, 2, .ro⟩, ⟨4, 2, .ro⟩, ⟨6, 2, .ro⟩, ⟨8, 2, .ro⟩, ⟨10, 2, .ro⟩, ⟨12, 2, .ro⟩, ⟨14, 2, .ro⟩, ⟨16, 2, .ro⟩, ⟨18, 2, .ro⟩, ⟨20, 2, .ro⟩, ⟨22, 2, .ro⟩, ⟨24, 2, .ro⟩, ⟨26, 2, .ro⟩, ⟨28, 2, .ro⟩, ⟨30, 2, .ro⟩]⟩,
  ⟨0x70010, 1, 0x0, [⟨2, 1, .w1c⟩, ⟨1, 1, .w1c⟩, ⟨0, 1, .w1c⟩]⟩,
  ⟨0x70018, 1, 0x0, [⟨0, 32, .wo⟩]⟩,
  ⟨0x7001C, 1, 0x0, [⟨0, 32, .wo⟩]⟩,
  ⟨0x70020, 1, 0x0, [⟨31, 1, .rw⟩, ⟨0, 16, .rw⟩]⟩,
  ⟨0x70024, 1, 0x0, [⟨16, 16, .ro⟩, ⟨3, 1, .ro⟩, ⟨2, 1, .ro⟩, ⟨1, 1, .ro⟩, ⟨0, 1, .ro⟩]⟩,
  ⟨0x70028, 1, 0x0, [⟨0, 32, .rw⟩]⟩,
  ⟨0x7002C, 1, 0x0, [⟨0, 16, .rw⟩]⟩,
  ⟨0x70030, 1, 0x0, [⟨0, 32, .rw⟩]⟩,
  ⟨0x71000, 16, 0x40, [⟨31, 1, .rw⟩, ⟨30, 1, .rw⟩, ⟨20, 4, .rw⟩, ⟨0, 16, .rw⟩]⟩,
  ⟨0x71004, 16, 0x40, [⟨0, 32, .rw⟩]⟩,
  ⟨0x71008, 16, 0x40, [⟨0, 16, .rw⟩]⟩,
  ⟨0x7100C, 16, 0x40, [⟨0, 24, .rw⟩]⟩,
  ⟨0x71010, 16, 0x40, [⟨16, 16, .rw⟩, ⟨0, 16, .rw⟩]⟩,
  ⟨0x71014, 16, 0x40, [⟨16, 16, .rw⟩, ⟨0, 10, .rw⟩]⟩,
  ⟨0x71018, 16, 0x40, [⟨16, 8, .rw⟩, ⟨0, 16, .rw⟩]⟩,
  ⟨0x7101C, 16, 0x40, [⟨0, 32, .rw⟩]⟩,
  ⟨0x71020, 16, 0x40, [⟨30, 2, .ro⟩, ⟨29, 1, .ro⟩, ⟨28, 1, .ro⟩, ⟨27, 1, .ro⟩, ⟨0, 16, .ro⟩]⟩,
  ⟨0x71024, 16, 0x40, [⟨0, 32, .ro⟩]⟩,
  ⟨0x71028, 16, 0x40, [⟨0, 32, .ro⟩]⟩,
  ⟨0x7102C, 16, 0x40, [⟨3, 1, .w1c⟩, ⟨2, 1, .w1c⟩, ⟨1, 1, .w1c⟩, ⟨0, 1, .w1c⟩]⟩,
  ⟨0x72000, 4, 0x100, [⟨30, 2, .rw⟩, ⟨29, 1, .rw⟩, ⟨28, 1, .rw⟩, ⟨27, 1, .rw⟩, ⟨20, 4, .rw⟩, ⟨16, 4, .rw⟩, ⟨0, 16, .rw⟩]⟩,
  ⟨0x72004, 4, 0x100, [⟨16, 16, .rw⟩, ⟨12, 4, .rw⟩, ⟨8, 4, .rw⟩, ⟨0, 8, .rw⟩]⟩,
  ⟨0x72008, 4, 0x100, [⟨16, 16, .rw⟩, ⟨0, 16, .rw⟩]⟩,
  ⟨0x7200C, 4, 0x100, [⟨31, 1, .wo⟩, ⟨29, 2, .rw⟩, ⟨28, 1, .rw⟩, ⟨27, 1, .rw⟩, ⟨20, 4, .rw⟩]⟩,
  ⟨0x72010, 4, 0x100, [⟨29, 3, .ro⟩, ⟨25, 4, .ro⟩, ⟨21, 4, .ro⟩, ⟨20, 1, .ro⟩, ⟨19, 1, .ro⟩, ⟨18, 1, .ro⟩, ⟨17, 1, .ro⟩, ⟨16, 1, .ro⟩, ⟨0, 16, .ro⟩]⟩,
  ⟨0x72014, 4, 0x100, [⟨8, 1, .w1c⟩, ⟨7, 1, .w1c⟩, ⟨6, 1, .w1c⟩, ⟨5, 1, .w1c⟩, ⟨4, 1, .w1c⟩, ⟨3, 1, .w1c⟩, ⟨2, 1, .w1c⟩, ⟨1, 1, .w1c⟩, ⟨0, 1, .w1c⟩]⟩,
  ⟨0x72020, 4, 0x100, [⟨0, 32, .ro⟩]⟩,
  ⟨0x72024, 4, 0x100, [⟨0, 32, .ro⟩]⟩,
  ⟨0x72028, 4, 0x100, [⟨0, 32, .ro⟩]⟩,
  ⟨0x7202C, 4, 0x100, [⟨0, 32, .ro⟩]⟩,
  ⟨0x72030, 4, 0x100, [⟨0, 32, .ro⟩]⟩,
  ⟨0x72034, 4, 0x100, [⟨0, 16, .ro⟩]⟩,
  ⟨0x72038, 4, 0x100, [⟨0, 32, .ro⟩]⟩,
  ⟨0x7203C, 4, 0x100, [⟨0, 16, .ro⟩]⟩,
  ⟨0x72040, 4, 0x100, [⟨0, 4, .ro⟩, ⟨7, 1, .ro⟩, ⟨8, 4, .ro⟩, ⟨15, 1, .ro⟩, ⟨16, 4, .ro⟩, ⟨23, 1, .ro⟩, ⟨24, 4, .ro⟩, ⟨31, 1, .ro⟩]⟩,
  ⟨0x72044, 4, 0x100, [⟨0, 4, .ro⟩, ⟨7, 1, .ro⟩, ⟨8, 4, .ro⟩, ⟨15, 1, .ro⟩, ⟨16, 4, .ro⟩, ⟨23, 1, .ro⟩, ⟨24, 4, .ro⟩, ⟨31, 1, .ro⟩]⟩
]

/-- Register words of block 0x7. -/
def rows7b : List RegRow := [
  ⟨0x72048, 4, 0x100, [⟨0, 4, .ro⟩, ⟨7, 1, .ro⟩, ⟨8, 4, .ro⟩, ⟨15, 1, .ro⟩, ⟨16, 4, .ro⟩, ⟨23, 1, .ro⟩, ⟨24, 4, .ro⟩, ⟨31, 1, .ro⟩]⟩,
  ⟨0x7204C, 4, 0x100, [⟨0, 4, .ro⟩, ⟨7, 1, .ro⟩, ⟨8, 4, .ro⟩, ⟨15, 1, .ro⟩, ⟨16, 4, .ro⟩, ⟨23, 1, .ro⟩, ⟨24, 4, .ro⟩, ⟨31, 1, .ro⟩]⟩,
  ⟨0x72050, 4, 0x100, [⟨0, 4, .rw⟩, ⟨7, 1, .rw⟩, ⟨8, 4, .rw⟩, ⟨15, 1, .rw⟩, ⟨16, 4, .rw⟩, ⟨23, 1, .rw⟩, ⟨24, 4, .rw⟩, ⟨31, 1, .rw⟩]⟩,
  ⟨0x72054, 4, 0x100, [⟨0, 4, .rw⟩, ⟨7, 1, .rw⟩, ⟨8, 4, .rw⟩, ⟨15, 1, .rw⟩, ⟨16, 4, .rw⟩, ⟨23, 1, .rw⟩, ⟨24, 4, .rw⟩, ⟨31, 1, .rw⟩]⟩,
  ⟨0x72058, 4, 0x100, [⟨0, 4, .rw⟩, ⟨7, 1, .rw⟩, ⟨8, 4, .rw⟩, ⟨15, 1, .rw⟩, ⟨16, 4, .rw⟩, ⟨23, 1, .rw⟩, ⟨24, 4, .rw⟩, ⟨31, 1, .rw⟩]⟩,
  ⟨0x7205C, 4, 0x100, [⟨0, 4, .rw⟩, ⟨7, 1, .rw⟩, ⟨8, 4, .rw⟩, ⟨15, 1, .rw⟩, ⟨16, 4, .rw⟩, ⟨23, 1, .rw⟩, ⟨24, 4, .rw⟩, ⟨31, 1, .rw⟩]⟩,
  ⟨0x72060, 4, 0x100, [⟨0, 32, .wo⟩]⟩,
  ⟨0x72064, 4, 0x100, [⟨0, 16, .wo⟩]⟩,
  ⟨0x72068, 4, 0x100, [⟨0, 32, .wo⟩]⟩,
  ⟨0x7206C, 4, 0x100, [⟨0, 32, .wo⟩]⟩
]

/-- Register words of block 0x8. -/
def rows8a : List RegRow := [
  ⟨0x80000, 1, 0x0, [⟨10, 10, .ro⟩, ⟨0, 10, .ro⟩]⟩,
  ⟨0x80004, 1, 0x0, [⟨0, 26, .ro⟩]⟩,
  ⟨0x80008, 1, 0x0, [⟨0, 26, .ro⟩]⟩,
  ⟨0x80010, 1, 0x0, [⟨0, 5, .ro⟩]⟩,
  ⟨0x80014, 1, 0x0, [⟨6, 1, .w1c⟩, ⟨5, 1, .w1c⟩, ⟨0, 1, .w1c⟩, ⟨1, 1, .w1c⟩, ⟨2, 1, .w1c⟩, ⟨3, 1, .w1c⟩, ⟨4, 1, .w1c⟩]⟩,
  ⟨0x80018, 1, 0x0, [⟨16, 12, .wo⟩, ⟨7, 1, .wo⟩, ⟨6, 1, .wo⟩, ⟨4, 1, .wo⟩, ⟨0, 4, .wo⟩]⟩,
  ⟨0x8001C, 1, 0x0, [⟨16, 12, .ro⟩, ⟨7, 1, .ro⟩, ⟨6, 1, .ro⟩, ⟨4, 1, .ro⟩, ⟨0, 4, .ro⟩]⟩,
  ⟨0x80100, 4, 0x40, [⟨31, 1, .ro⟩, ⟨0, 16, .ro⟩]⟩,
  ⟨0x80104, 4, 0x40, [⟨0, 32, .ro⟩]⟩,
  ⟨0x80108, 4, 0x40, [⟨0, 16, .ro⟩]⟩,
  ⟨0x8010C, 4, 0x40, [⟨0, 24, .ro⟩]⟩,
  ⟨0x80110, 4, 0x40, [⟨0, 32, .ro⟩]⟩,
  ⟨0x80114, 4, 0x40, [⟨0, 24, .ro⟩]⟩,
  ⟨0x80120, 4, 0x40, [⟨31, 1, .rw⟩, ⟨0, 16, .rw⟩]⟩,
  ⟨0x80124, 4, 0x40, [⟨0, 32, .rw⟩]⟩,
  ⟨0x80128, 4, 0x40, [⟨0, 16, .rw⟩]⟩,
  ⟨0x8012C, 4, 0x40, [⟨0, 24, .rw⟩]⟩,
  ⟨0x80200, 4, 0x40, [⟨30, 2, .ro⟩, ⟨28, 2, .ro⟩, ⟨12, 12, .ro⟩, ⟨0, 12, .ro⟩]⟩,
  ⟨0x80220, 4, 0x40, [⟨30, 2, .rw⟩, ⟨28, 2, .rw⟩, ⟨12, 12, .ro⟩, ⟨0, 12, .rw⟩]⟩,
  ⟨0x80400, 12, 0x40, [⟨30, 2, .ro⟩, ⟨28, 2, .ro⟩, ⟨27, 1, .ro⟩, ⟨26, 1, .ro⟩, ⟨25, 1, .ro⟩, ⟨24, 1, .ro⟩, ⟨0, 24, .ro⟩]⟩,
  ⟨0x80404, 12, 0x40, [⟨0, 32, .ro⟩]⟩,
  ⟨0x80408, 12, 0x40, [⟨0, 16, .ro⟩]⟩,
  ⟨0x8040C, 12, 0x40, [⟨0, 24, .ro⟩]⟩,
  ⟨0x80410, 12, 0x40, [⟨0, 32, .ro⟩]⟩,
  ⟨0x80414, 12, 0x40, [⟨0, 8, .ro⟩]⟩,
  ⟨0x80418, 12, 0x40, [⟨0, 32, .ro⟩]⟩,
  ⟨0x8041C, 12, 0x40, [⟨0, 32, .ro⟩]⟩,
  ⟨0x80420, 12, 0x40, [⟨30, 2, .rw⟩, ⟨28, 2, .rw⟩, ⟨27, 1, .rw⟩, ⟨26, 1, .rw⟩, ⟨25, 1, .rw⟩, ⟨24, 1, .rw⟩, ⟨0, 24, .rw⟩]⟩,
  ⟨0x80424, 12, 0x40, [⟨0, 32, .rw⟩]⟩,
  ⟨0x80428, 12, 0x40, [⟨0, 16, .rw⟩]⟩,
  ⟨0x8042C, 12, 0x40, [⟨0, 24, .rw⟩]⟩,
  ⟨0x80430, 12, 0x40, [⟨0, 32, .rw⟩]⟩,
  ⟨0x80434, 12, 0x40, [⟨0, 8, .rw⟩]⟩,
  ⟨0x80438, 12, 0x40, [⟨0, 32, .rw⟩]⟩,
  ⟨0x8043C, 12, 0x40, [⟨0, 32, .rw⟩]⟩,
  ⟨0x80800, 12, 0x40, [⟨31, 1, .wo⟩, ⟨30, 1, .wo⟩, ⟨29, 1, .wo⟩, ⟨28, 1, .rw⟩]⟩,
  ⟨0x80804, 12, 0x40, [⟨0, 32, .rw⟩]⟩,
  ⟨0x80808, 12, 0x40, [⟨0, 32, .rw⟩]⟩,
  ⟨0x8080C, 12, 0x40, [⟨0, 16, .rw⟩, ⟨16, 16, .rw⟩]⟩,
  ⟨0x80810, 12, 0x40, [⟨0, 32, .rws⟩]⟩
]

/-- Register words of block 0x8. -/
def rows8b : List RegRow := [
  ⟨0x80814, 12, 0x40, [⟨29, 3, .ro⟩, ⟨28, 1, .ro⟩, ⟨27, 1, .ro⟩]⟩,
  ⟨0x80818, 12, 0x40, [⟨4, 1, .w1c⟩, ⟨3, 1, .w1c⟩, ⟨2, 1, .w1c⟩, ⟨1, 1, .w1c⟩, ⟨0, 1, .w1c⟩]⟩,
  ⟨0x8081C, 12, 0x40, [⟨0, 32, .ro⟩]⟩,
  ⟨0x80C00, 1, 0x0, [⟨31, 1, .rw⟩, ⟨30, 1, .rw⟩, ⟨29, 1, .rw⟩, ⟨24, 3, .rw⟩, ⟨21, 3, .rw⟩, ⟨12, 4, .rw⟩, ⟨0, 9, .rw⟩]⟩,
  ⟨0x80C04, 1, 0x0, [⟨24, 8, .rw⟩, ⟨16, 8, .rw⟩, ⟨0, 16, .rw⟩]⟩,
  ⟨0x80C08, 1, 0x0, [⟨3, 1, .w1c⟩, ⟨2, 1, .w1c⟩, ⟨1, 1, .w1c⟩, ⟨0, 1, .w1c⟩]⟩,
  ⟨0x80C0C, 1, 0x0, [⟨16, 16, .ro⟩, ⟨0, 16, .ro⟩]⟩,
  ⟨0x80C10, 1, 0x0, [⟨0, 32, .ro⟩]⟩,
  ⟨0x80C14, 1, 0x0, [⟨0, 32, .ro⟩]⟩,
  ⟨0x80C18, 1, 0x0, [⟨0, 16, .ro⟩]⟩,
  ⟨0x80C1C, 1, 0x0, [⟨24, 8, .ro⟩, ⟨16, 8, .ro⟩]⟩
]

/-- Register words of block 0x9. -/
def rows9a : List RegRow := [
  ⟨0x90000, 1, 0x0, [⟨31, 1, .rw⟩, ⟨30, 1, .rw⟩, ⟨16, 6, .rw⟩]⟩,
  ⟨0x90004, 1, 0x0, [⟨31, 1, .ro⟩, ⟨21, 5, .ro⟩, ⟨20, 1, .ro⟩]⟩,
  ⟨0x90008, 1, 0x0, [⟨7, 1, .w1c⟩, ⟨6, 1, .w1c⟩, ⟨5, 1, .w1c⟩, ⟨4, 1, .w1c⟩, ⟨3, 1, .w1c⟩, ⟨2, 1, .w1c⟩, ⟨1, 1, .w1c⟩, ⟨0, 1, .w1c⟩]⟩,
  ⟨0x9000C, 1, 0x0, [⟨0, 25, .wo⟩]⟩,
  ⟨0x90010, 1, 0x0, [⟨0, 25, .wo⟩]⟩,
  ⟨0x90014, 1, 0x0, [⟨0, 25, .ro⟩]⟩,
  ⟨0x90020, 1, 0x0, [⟨0, 2, .rw⟩, ⟨2, 2, .rw⟩, ⟨4, 2, .rw⟩, ⟨6, 2, .rw⟩, ⟨8, 2, .rw⟩, ⟨10, 2, .rw⟩, ⟨12, 2, .rw⟩, ⟨14, 2, .rw⟩]⟩,
  ⟨0x90024, 1, 0x0, [⟨16, 12, .rw⟩, ⟨0, 12, .rw⟩]⟩,
  ⟨0x90030, 1, 0x0, [⟨31, 1, .rw⟩, ⟨24, 5, .rw⟩, ⟨0, 12, .rw⟩]⟩,
  ⟨0x90034, 1, 0x0, [⟨0, 22, .ro⟩]⟩,
  ⟨0x91000, 25, 0x40, [⟨31, 1, .rw⟩, ⟨29, 2, .rw⟩, ⟨27, 2, .rw⟩, ⟨26, 1, .rw⟩, ⟨25, 1, .rw⟩, ⟨24, 1, .rw⟩, ⟨16, 6, .rw⟩, ⟨0, 16, .rw⟩]⟩,
  ⟨0x91004, 25, 0x40, [⟨31, 1, .rw⟩, ⟨30, 1, .wo⟩, ⟨0, 24, .rw⟩]⟩,
  ⟨0x91008, 25, 0x40, [⟨0, 32, .ro⟩]⟩,
  ⟨0x9100C, 25, 0x40, [⟨0, 32, .rws⟩]⟩,
  ⟨0x91010, 25, 0x40, [⟨29, 3, .ro⟩, ⟨28, 1, .ro⟩, ⟨27, 1, .ro⟩, ⟨12, 12, .ro⟩, ⟨0, 12, .ro⟩]⟩,
  ⟨0x91014, 25, 0x40, [⟨4, 1, .w1c⟩, ⟨3, 1, .w1c⟩, ⟨2, 1, .w1c⟩, ⟨1, 1, .w1c⟩, ⟨0, 1, .w1c⟩]⟩,
  ⟨0x91020, 25, 0x40, [⟨0, 32, .ro⟩]⟩,
  ⟨0x91024, 25, 0x40, [⟨0, 32, .ro⟩]⟩,
  ⟨0x91028, 25, 0x40, [⟨0, 32, .ro⟩]⟩,
  ⟨0x9102C, 25, 0x40, [⟨0, 32, .ro⟩]⟩,
  ⟨0x91030, 25, 0x40, [⟨16, 16, .ro⟩, ⟨0, 16, .ro⟩]⟩,
  ⟨0x91034, 25, 0x40, [⟨0, 32, .ro⟩]⟩
]

/-- Register words of block 0xA. -/
def rowsAa : List RegRow := [
  ⟨0xA0004, 1, 0x0, [⟨31, 1, .ro⟩, ⟨30, 1, .ro⟩, ⟨0, 7, .ro⟩]⟩,
  ⟨0xA0008, 1, 0x0, [⟨2, 1, .w1c⟩, ⟨1, 1, .w1c⟩, ⟨0, 1, .w1c⟩]⟩,
  ⟨0xA000C, 1, 0x0, [⟨0, 16, .wo⟩]⟩,
  ⟨0xA0010, 1, 0x0, [⟨0, 16, .ro⟩]⟩,
  ⟨0xA0100, 16, 0x10, [⟨31, 1, .ro⟩]⟩,
  ⟨0xA0104, 16, 0x10, [⟨31, 1, .rw⟩]⟩,
  ⟨0xA0108, 16, 0x10, [⟨31, 1, .ro⟩, ⟨30, 1, .ro⟩, ⟨0, 16, .ro⟩]⟩,
  ⟨0xA0400, 1, 0x0, [⟨27, 1, .ro⟩, ⟨26, 1, .ro⟩, ⟨25, 1, .ro⟩, ⟨24, 1, .ro⟩, ⟨16, 2, .ro⟩, ⟨0, 4, .ro⟩]⟩,
  ⟨0xA0404, 1, 0x0, [⟨27, 1, .rw⟩, ⟨26, 1, .rw⟩, ⟨25, 1, .rw⟩, ⟨24, 1, .rw⟩, ⟨16, 2, .rw⟩, ⟨0, 4, .rw⟩]⟩,
  ⟨0xA0408, 1, 0x0, [⟨31, 1, .rw⟩, ⟨30, 1, .rw⟩, ⟨28, 2, .rw⟩, ⟨27, 1, .rw⟩, ⟨26, 1, .rw⟩]⟩,
  ⟨0xA040C, 1, 0x0, [⟨16, 8, .rw⟩, ⟨8, 8, .rw⟩, ⟨0, 8, .rw⟩]⟩,
  ⟨0xA0410, 1, 0x0, [⟨28, 4, .ro⟩, ⟨24, 4, .ro⟩, ⟨20, 4, .ro⟩]⟩,
  ⟨0xA0414, 1, 0x0, [⟨31, 1, .ro⟩, ⟨30, 1, .ro⟩, ⟨29, 1, .ro⟩, ⟨28, 1, .ro⟩, ⟨27, 1, .ro⟩, ⟨26, 1, .ro⟩, ⟨25, 1, .ro⟩, ⟨22, 3, .ro⟩, ⟨8, 8, .ro⟩]⟩,
  ⟨0xA0418, 1, 0x0, [⟨9, 1, .w1c⟩, ⟨8, 1, .w1c⟩, ⟨7, 1, .w1c⟩, ⟨6, 1, .w1c⟩, ⟨5, 1, .w1c⟩, ⟨4, 1, .w1c⟩, ⟨3, 1, .w1c⟩, ⟨1, 1, .w1c⟩, ⟨0, 1, .w1c⟩]⟩,
  ⟨0xA041C, 1, 0x0, [⟨16, 16, .rw⟩, ⟨0, 8, .rw⟩]⟩,
  ⟨0xA0420, 1, 0x0, [⟨28, 4, .rw⟩, ⟨27, 1, .rw⟩, ⟨26, 1, .rw⟩, ⟨0, 11, .rw⟩]⟩,
  ⟨0xA0430, 1, 0x0, [⟨1, 1, .wo⟩, ⟨0, 1, .wo⟩]⟩,
  ⟨0xA0434, 1, 0x0, [⟨30, 2, .ro⟩, ⟨29, 1, .ro⟩, ⟨8, 8, .ro⟩, ⟨0, 8, .ro⟩]⟩,
  ⟨0xA0438, 1, 0x0, [⟨0, 32, .ro⟩]⟩,
  ⟨0xA0440, 1, 0x0, [⟨0, 32, .ro⟩]⟩,
  ⟨0xA0444, 1, 0x0, [⟨0, 32, .ro⟩]⟩,
  ⟨0xA0448, 1, 0x0, [⟨0, 32, .ro⟩]⟩,
  ⟨0xA044C, 1, 0x0, [⟨0, 32, .ro⟩]⟩,
  ⟨0xA0450, 1, 0x0, [⟨0, 32, .ro⟩]⟩,
  ⟨0xA0454, 1, 0x0, [⟨0, 32, .ro⟩]⟩,
  ⟨0xA0458, 1, 0x0, [⟨0, 32, .ro⟩]⟩,
  ⟨0xA045C, 1, 0x0, [⟨0, 32, .ro⟩]⟩
]

/-- Register words of block 0xB. -/
def rowsBa : List RegRow := [
  ⟨0xB0004, 1, 0x0, [⟨16, 16, .rw⟩, ⟨0, 1, .rw⟩]⟩,
  ⟨0xB0008, 1, 0x0, [⟨14, 18, .ro⟩]⟩,
  ⟨0xB000C, 1, 0x0, [⟨8, 1, .w1c⟩, ⟨7, 1, .w1c⟩, ⟨6, 1, .w1c⟩, ⟨5, 1, .w1c⟩, ⟨4, 1, .w1c⟩, ⟨3, 1, .w1c⟩, ⟨2, 1, .w1c⟩, ⟨1, 1, .w1c⟩, ⟨0, 1, .w1c⟩]⟩,
  ⟨0xB0010, 1, 0x0, [⟨16, 16, .rw⟩, ⟨0, 16, .rw⟩]⟩,
  ⟨0xB0014, 1, 0x0, [⟨0, 16, .rw⟩]⟩,
  ⟨0xB0020, 1, 0x0, [⟨0, 3, .rw⟩, ⟨3, 3, .rw⟩, ⟨6, 3, .rw⟩, ⟨9, 3, .rw⟩, ⟨12, 3, .rw⟩, ⟨15, 3, .rw⟩, ⟨18, 3, .rw⟩, ⟨21, 3, .rw⟩]⟩,
  ⟨0xB0024, 1, 0x0, [⟨0, 3, .rw⟩, ⟨3, 3, .rw⟩, ⟨6, 3, .rw⟩, ⟨9, 3, .rw⟩, ⟨12, 3, .rw⟩, ⟨15, 3, .rw⟩, ⟨18, 3, .rw⟩, ⟨21, 3, .rw⟩]⟩,
  ⟨0xB0028, 1, 0x0, [⟨0, 3, .rw⟩, ⟨3, 3, .rw⟩, ⟨6, 3, .rw⟩, ⟨9, 3, .rw⟩, ⟨12, 3, .rw⟩, ⟨15, 3, .rw⟩, ⟨18, 3, .rw⟩, ⟨21, 3, .rw⟩]⟩,
  ⟨0xB002C, 1, 0x0, [⟨0, 3, .rw⟩, ⟨3, 3, .rw⟩, ⟨6, 3, .rw⟩, ⟨9, 3, .rw⟩, ⟨12, 3, .rw⟩, ⟨15, 3, .rw⟩, ⟨18, 3, .rw⟩, ⟨21, 3, .rw⟩]⟩,
  ⟨0xB0030, 1, 0x0, [⟨0, 3, .rw⟩, ⟨3, 3, .rw⟩, ⟨6, 3, .rw⟩, ⟨9, 3, .rw⟩, ⟨12, 3, .rw⟩, ⟨15, 3, .rw⟩, ⟨18, 3, .rw⟩, ⟨21, 3, .rw⟩]⟩,
  ⟨0xB0034, 1, 0x0, [⟨0, 3, .rw⟩, ⟨3, 3, .rw⟩, ⟨6, 3, .rw⟩, ⟨9, 3, .rw⟩, ⟨12, 3, .rw⟩, ⟨15, 3, .rw⟩, ⟨18, 3, .rw⟩, ⟨21, 3, .rw⟩]⟩,
  ⟨0xB0038, 1, 0x0, [⟨0, 3, .rw⟩, ⟨3, 3, .rw⟩, ⟨6, 3, .rw⟩, ⟨9, 3, .rw⟩, ⟨12, 3, .rw⟩, ⟨15, 3, .rw⟩, ⟨18, 3, .rw⟩, ⟨21, 3, .rw⟩]⟩,
  ⟨0xB003C, 1, 0x0, [⟨0, 3, .rw⟩, ⟨3, 3, .rw⟩, ⟨6, 3, .rw⟩, ⟨9, 3, .rw⟩, ⟨12, 3, .rw⟩, ⟨15, 3, .rw⟩, ⟨18, 3, .rw⟩, ⟨21, 3, .rw⟩]⟩,
  ⟨0xB0040, 1, 0x0, [⟨31, 1, .wo⟩, ⟨30, 1, .ro⟩, ⟨29, 1, .rw⟩, ⟨25, 4, .rw⟩, ⟨21, 4, .ro⟩, ⟨0, 17, .rw⟩]⟩,
  ⟨0xB0044, 1, 0x0, [⟨31, 1, .wo⟩, ⟨30, 1, .ro⟩, ⟨0, 8, .rw⟩]⟩,
  ⟨0xB0080, 32, 0x4, [⟨0, 32, .rw⟩]⟩,
  ⟨0xB0100, 1, 0x0, [⟨30, 2, .rw⟩, ⟨29, 1, .rw⟩, ⟨28, 1, .rw⟩, ⟨26, 2, .rw⟩, ⟨25, 1, .rw⟩, ⟨24, 1, .rw⟩, ⟨21, 3, .rw⟩, ⟨18, 3, .rw⟩, ⟨0, 12, .rw⟩]⟩,
  ⟨0xB0104, 1, 0x0, [⟨0, 3, .rw⟩, ⟨3, 3, .rw⟩, ⟨6, 3, .rw⟩, ⟨9, 3, .rw⟩, ⟨12, 3, .rw⟩, ⟨15, 3, .rw⟩, ⟨18, 3, .rw⟩, ⟨21, 3, .rw⟩]⟩,
  ⟨0xB0108, 1, 0x0, [⟨0, 17, .rw⟩]⟩,
  ⟨0xB0110, 1, 0x0, [⟨0, 32, .ro⟩]⟩,
  ⟨0xB0114, 1, 0x0, [⟨0, 32, .ro⟩]⟩,
  ⟨0xB0118, 1, 0x0, [⟨0, 32, .ro⟩]⟩,
  ⟨0xB011C, 1, 0x0, [⟨0, 32, .ro⟩]⟩
]

/-- Register words of block 0xC. -/
def rowsCa : List RegRow := [
  ⟨0xC0004, 1, 0x0, [⟨16, 8, .rw⟩, ⟨8, 3, .rw⟩, ⟨0, 1, .rw⟩]⟩,
  ⟨0xC0008, 1, 0x0, [⟨0, 18, .ro⟩]⟩,
  ⟨0xC000C, 1, 0x0, [⟨0, 18, .rw⟩]⟩,
  ⟨0xC0010, 1, 0x0, [⟨0, 19, .ro⟩]⟩,
  ⟨0xC0014, 1, 0x0, [⟨0, 19, .ro⟩]⟩,
  ⟨0xC0018, 1, 0x0, [⟨0, 24, .ro⟩]⟩,
  ⟨0xC001C, 1, 0x0, [⟨1, 1, .w1c⟩, ⟨0, 1, .w1c⟩]⟩,
  ⟨0xC0020, 1, 0x0, [⟨31, 1, .wo⟩, ⟨30, 1, .ro⟩]⟩,
  ⟨0xC0030, 4, 0x4, [⟨0, 19, .rw⟩]⟩,
  ⟨0xC0040, 4, 0x4, [⟨0, 24, .ro⟩]⟩,
  ⟨0xC0050, 1, 0x0, [⟨0, 5, .rw⟩]⟩,
  ⟨0xC0054, 1, 0x0, [⟨0, 32, .ro⟩]⟩,
  ⟨0xC0058, 1, 0x0, [⟨31, 1, .rw⟩, ⟨0, 4, .rw⟩]⟩,
  ⟨0xC005C, 1, 0x0, [⟨0, 32, .rw⟩]⟩,
  ⟨0xC0060, 1, 0x0, [⟨3, 7, .rw⟩, ⟨0, 3, .rw⟩]⟩,
  ⟨0xC0100, 1, 0x0, [⟨31, 1, .rw⟩, ⟨30, 1, .rw⟩, ⟨16, 10, .rw⟩, ⟨0, 16, .rw⟩]⟩,
  ⟨0xC0104, 1, 0x0, [⟨30, 2, .ro⟩, ⟨20, 10, .ro⟩, ⟨0, 19, .ro⟩]⟩,
  ⟨0xC0108, 1, 0x0, [⟨2, 1, .w1c⟩, ⟨1, 1, .w1c⟩, ⟨0, 1, .w1c⟩]⟩,
  ⟨0xC010C, 1, 0x0, [⟨0, 19, .ro⟩]⟩,
  ⟨0xC0110, 1, 0x0, [⟨0, 32, .ro⟩]⟩,
  ⟨0xC0114, 1, 0x0, [⟨0, 32, .ro⟩]⟩,
  ⟨0xC0120, 1, 0x0, [⟨0, 32, .ro⟩]⟩,
  ⟨0xC0124, 1, 0x0, [⟨0, 32, .ro⟩]⟩,
  ⟨0xC0128, 1, 0x0, [⟨0, 32, .ro⟩]⟩,
  ⟨0xC012C, 1, 0x0, [⟨0, 32, .ro⟩]⟩,
  ⟨0xC0130, 1, 0x0, [⟨0, 32, .ro⟩]⟩,
  ⟨0xC0200, 8, 0x10, [⟨30, 2, .ro⟩, ⟨24, 4, .ro⟩, ⟨0, 18, .ro⟩]⟩,
  ⟨0xC0204, 8, 0x10, [⟨30, 2, .rw⟩, ⟨24, 4, .rw⟩, ⟨0, 18, .rw⟩]⟩,
  ⟨0xC0208, 8, 0x10, [⟨31, 1, .rw⟩, ⟨16, 15, .rw⟩, ⟨0, 15, .rw⟩]⟩,
  ⟨0xC020C, 8, 0x10, [⟨0, 19, .ro⟩]⟩
]

/-- Register words of block 0xD. -/
def rowsDa : List RegRow := [
  ⟨0xD0010, 1, 0x0, [⟨31, 1, .wo⟩, ⟨30, 1, .ro⟩, ⟨29, 1, .rw⟩, ⟨27, 2, .rw⟩, ⟨23, 4, .ro⟩, ⟨0, 12, .rw⟩]⟩,
  ⟨0xD0020, 4, 0x4, [⟨0, 32, .rw⟩]⟩,
  ⟨0xD0100, 1, 0x0, [⟨31, 1, .rw⟩, ⟨30, 1, .rw⟩, ⟨29, 1, .rw⟩, ⟨0, 8, .rw⟩]⟩,
  ⟨0xD0104, 1, 0x0, [⟨7, 1, .w1c⟩, ⟨6, 1, .w1c⟩, ⟨5, 1, .w1c⟩, ⟨4, 1, .w1c⟩, ⟨3, 1, .w1c⟩, ⟨2, 1, .w1c⟩, ⟨1, 1, .w1c⟩, ⟨0, 1, .w1c⟩]⟩,
  ⟨0xD0110, 1, 0x0, [⟨31, 1, .rw⟩, ⟨30, 1, .rw⟩, ⟨8, 16, .rw⟩, ⟨0, 8, .rw⟩]⟩,
  ⟨0xD0114, 1, 0x0, [⟨31, 1, .wo⟩, ⟨30, 1, .wo⟩, ⟨29, 1, .wo⟩, ⟨2, 1, .ro⟩, ⟨1, 1, .ro⟩, ⟨0, 1, .ro⟩]⟩,
  ⟨0xD0118, 1, 0x0, [⟨16, 9, .ro⟩, ⟨0, 9, .rw⟩]⟩,
  ⟨0xD011C, 1, 0x0, [⟨0, 32, .rw⟩]⟩,
  ⟨0xD0120, 1, 0x0, [⟨0, 32, .rw⟩]⟩,
  ⟨0xD0124, 1, 0x0, [⟨0, 32, .rw⟩]⟩,
  ⟨0xD0128, 1, 0x0, [⟨0, 16, .rw⟩, ⟨16, 16, .rw⟩]⟩,
  ⟨0xD0130, 1, 0x0, [⟨0, 32, .ro⟩]⟩,
  ⟨0xD0134, 1, 0x0, [⟨0, 32, .ro⟩]⟩,
  ⟨0xD0138, 1, 0x0, [⟨0, 16, .ro⟩, ⟨16, 16, .ro⟩]⟩,
  ⟨0xD0140, 1, 0x0, [⟨0, 32, .rw⟩]⟩,
  ⟨0xD0144, 1, 0x0, [⟨0, 16, .rw⟩]⟩,
  ⟨0xD0148, 1, 0x0, [⟨0, 24, .rw⟩]⟩,
  ⟨0xD0150, 1, 0x0, [⟨0, 32, .ro⟩]⟩,
  ⟨0xD0154, 1, 0x0, [⟨0, 16, .ro⟩]⟩,
  ⟨0xD0158, 1, 0x0, [⟨0, 24, .ro⟩]⟩,
  ⟨0xD015C, 1, 0x0, [⟨0, 32, .ro⟩]⟩,
  ⟨0xD0160, 1, 0x0, [⟨0, 32, .ro⟩]⟩,
  ⟨0xD0164, 1, 0x0, [⟨0, 32, .ro⟩]⟩,
  ⟨0xD0168, 1, 0x0, [⟨0, 16, .ro⟩, ⟨16, 16, .ro⟩]⟩,
  ⟨0xD016C, 1, 0x0, [⟨24, 8, .ro⟩, ⟨23, 1, .ro⟩, ⟨0, 8, .ro⟩]⟩,
  ⟨0xD0170, 1, 0x0, [⟨31, 1, .rw⟩, ⟨30, 1, .rw⟩, ⟨28, 2, .rw⟩, ⟨0, 8, .rw⟩]⟩,
  ⟨0xD0174, 1, 0x0, [⟨29, 3, .ro⟩, ⟨28, 1, .ro⟩]⟩,
  ⟨0xD0180, 1, 0x0, [⟨0, 32, .ro⟩]⟩,
  ⟨0xD0184, 1, 0x0, [⟨0, 32, .ro⟩]⟩,
  ⟨0xD0188, 1, 0x0, [⟨0, 32, .ro⟩]⟩,
  ⟨0xD018C, 1, 0x0, [⟨0, 32, .ro⟩]⟩,
  ⟨0xD0200, 8, 0x10, [⟨31, 1, .rw⟩, ⟨30, 1, .rw⟩, ⟨28, 2, .rw⟩, ⟨8, 8, .rw⟩]⟩,
  ⟨0xD0204, 8, 0x10, [⟨0, 32, .rw⟩]⟩,
  ⟨0xD0208, 8, 0x10, [⟨0, 24, .rw⟩]⟩,
  ⟨0xD020C, 8, 0x10, [⟨0, 32, .ro⟩]⟩
]

/-- Register words of block 0xE. -/
def rowsEa : List RegRow := [
  ⟨0xE0004, 1, 0x0, [⟨31, 1, .rw⟩, ⟨0, 1, .rws⟩]⟩,
  ⟨0xE0008, 1, 0x0, [⟨17, 13, .ro⟩, ⟨0, 17, .ro⟩]⟩,
  ⟨0xE000C, 1, 0x0, [⟨6, 1, .w1c⟩, ⟨5, 1, .w1c⟩, ⟨4, 1, .w1c⟩, ⟨3, 1, .w1c⟩, ⟨2, 1, .w1c⟩, ⟨1, 1, .w1c⟩, ⟨0, 1, .w1c⟩]⟩,
  ⟨0xE0010, 1, 0x0, [⟨31, 1, .ro⟩, ⟨0, 12, .ro⟩]⟩,
  ⟨0xE0100, 1, 0x0, [⟨31, 1, .rw⟩, ⟨29, 2, .rw⟩, ⟨28, 1, .rw⟩, ⟨27, 1, .rw⟩, ⟨26, 1, .rw⟩, ⟨0, 6, .rw⟩]⟩,
  ⟨0xE0104, 1, 0x0, [⟨16, 16, .rw⟩, ⟨0, 10, .rw⟩]⟩,
  ⟨0xE0108, 1, 0x0, [⟨16, 16, .rw⟩, ⟨0, 16, .rw⟩]⟩,
  ⟨0xE010C, 1, 0x0, [⟨7, 1, .rw⟩, ⟨15, 1, .rw⟩, ⟨23, 1, .rw⟩, ⟨31, 1, .rw⟩, ⟨0, 7, .rw⟩, ⟨8, 7, .rw⟩, ⟨16, 7, .rw⟩, ⟨24, 7, .rw⟩]⟩,
  ⟨0xE0110, 1, 0x0, [⟨0, 16, .rw⟩]⟩,
  ⟨0xE0114, 1, 0x0, [⟨31, 1, .wo⟩]⟩,
  ⟨0xE0118, 1, 0x0, [⟨31, 1, .ro⟩, ⟨27, 4, .ro⟩, ⟨22, 5, .ro⟩, ⟨0, 16, .ro⟩]⟩,
  ⟨0xE011C, 1, 0x0, [⟨5, 1, .w1c⟩, ⟨4, 1, .w1c⟩, ⟨3, 1, .w1c⟩, ⟨2, 1, .w1c⟩, ⟨1, 1, .w1c⟩, ⟨0, 1, .w1c⟩]⟩,
  ⟨0xE0120, 1, 0x0, [⟨0, 16, .rw⟩]⟩,
  ⟨0xE0130, 1, 0x0, [⟨0, 32, .ro⟩]⟩,
  ⟨0xE0134, 1, 0x0, [⟨0, 32, .ro⟩]⟩,
  ⟨0xE0138, 1, 0x0, [⟨0, 32, .ro⟩]⟩,
  ⟨0xE013C, 1, 0x0, [⟨0, 32, .ro⟩]⟩,
  ⟨0xE0140, 1, 0x0, [⟨0, 32, .ro⟩]⟩,
  ⟨0xE0144, 1, 0x0, [⟨0, 32, .ro⟩]⟩,
  ⟨0xE0148, 1, 0x0, [⟨0, 32, .ro⟩]⟩,
  ⟨0xE014C, 1, 0x0, [⟨0, 32, .ro⟩]⟩,
  ⟨0xE0150, 4, 0x4, [⟨0, 32, .ro⟩]⟩
]

/-- Register words of block 0xF. -/
def rowsFa : List RegRow := [
  ⟨0xF0004, 1, 0x0, [⟨31, 1, .rw⟩, ⟨30, 1, .rw⟩]⟩,
  ⟨0xF0008, 1, 0x0, [⟨10, 1, .w1c⟩, ⟨9, 1, .w1c⟩, ⟨8, 1, .w1c⟩, ⟨7, 1, .w1c⟩, ⟨6, 1, .w1c⟩, ⟨5, 1, .w1c⟩, ⟨4, 1, .w1c⟩, ⟨3, 1, .w1c⟩, ⟨2, 1, .w1c⟩, ⟨1, 1, .w1c⟩, ⟨0, 1, .w1c⟩]⟩,
  ⟨0xF0100, 1, 0x0, [⟨0, 32, .ro⟩]⟩,
  ⟨0xF0104, 1, 0x0, [⟨0, 16, .ro⟩]⟩,
  ⟨0xF0108, 1, 0x0, [⟨0, 8, .wo⟩]⟩,
  ⟨0xF010C, 1, 0x0, [⟨0, 8, .w1c⟩, ⟨8, 1, .w1c⟩]⟩,
  ⟨0xF0110, 8, 0x8, [⟨13, 7, .rw⟩, ⟨12, 1, .rw⟩, ⟨11, 1, .rw⟩, ⟨8, 3, .rw⟩, ⟨0, 8, .rw⟩]⟩,
  ⟨0xF0114, 8, 0x8, [⟨0, 24, .rw⟩]⟩,
  ⟨0xF0150, 8, 0x8, [⟨0, 32, .ro⟩]⟩,
  ⟨0xF0154, 8, 0x8, [⟨0, 16, .ro⟩]⟩,
  ⟨0xF0190, 1, 0x0, [⟨0, 20, .rw⟩]⟩,
  ⟨0xF0194, 1, 0x0, [⟨0, 19, .ro⟩]⟩,
  ⟨0xF0198, 1, 0x0, [⟨0, 19, .ro⟩]⟩,
  ⟨0xF019C, 1, 0x0, [⟨0, 19, .ro⟩]⟩,
  ⟨0xF01A0, 1, 0x0, [⟨0, 19, .ro⟩]⟩,
  ⟨0xF0400, 8, 0x80, [⟨31, 1, .rw⟩, ⟨30, 1, .rw⟩, ⟨29, 1, .wo⟩, ⟨26, 3, .rw⟩, ⟨21, 5, .rw⟩, ⟨14, 7, .rw⟩, ⟨7, 7, .rw⟩, ⟨0, 3, .rw⟩]⟩,
  ⟨0xF0404, 8, 0x80, [⟨0, 16, .rw⟩]⟩,
  ⟨0xF0408, 8, 0x80, [⟨31, 1, .ro⟩, ⟨0, 31, .ro⟩]⟩,
  ⟨0xF040C, 8, 0x80, [⟨0, 32, .ro⟩]⟩,
  ⟨0xF0440, 16, 0x4, [⟨0, 32, .ro⟩]⟩,
  ⟨0xF04C0, 16, 0x4, [⟨0, 32, .ro⟩]⟩,
  ⟨0xF0540, 16, 0x4, [⟨0, 32, .ro⟩]⟩,
  ⟨0xF05C0, 16, 0x4, [⟨0, 32, .ro⟩]⟩,
  ⟨0xF0640, 16, 0x4, [⟨0, 32, .ro⟩]⟩,
  ⟨0xF06C0, 16, 0x4, [⟨0, 32, .ro⟩]⟩,
  ⟨0xF0740, 16, 0x4, [⟨0, 32, .ro⟩]⟩,
  ⟨0xF07C0, 16, 0x4, [⟨0, 32, .ro⟩]⟩,
  ⟨0xF0800, 1, 0x0, [⟨31, 1, .rw⟩, ⟨16, 4, .rw⟩, ⟨0, 16, .rw⟩]⟩,
  ⟨0xF0804, 1, 0x0, [⟨0, 5, .rw⟩]⟩,
  ⟨0xF0808, 1, 0x0, [⟨0, 32, .ro⟩]⟩,
  ⟨0xF080C, 1, 0x0, [⟨0, 32, .ro⟩]⟩,
  ⟨0xF0810, 1, 0x0, [⟨16, 16, .ro⟩, ⟨0, 16, .ro⟩]⟩,
  ⟨0xF0814, 1, 0x0, [⟨16, 16, .ro⟩, ⟨0, 16, .ro⟩]⟩,
  ⟨0xF0818, 1, 0x0, [⟨31, 1, .ro⟩, ⟨30, 1, .ro⟩, ⟨29, 1, .ro⟩, ⟨24, 5, .ro⟩, ⟨0, 24, .ro⟩]⟩,
  ⟨0xF0820, 1, 0x0, [⟨0, 19, .w1c⟩]⟩,
  ⟨0xF0824, 1, 0x0, [⟨0, 19, .w1c⟩]⟩,
  ⟨0xF0828, 1, 0x0, [⟨3, 1, .w1c⟩, ⟨2, 1, .w1c⟩, ⟨1, 1, .w1c⟩, ⟨0, 1, .w1c⟩]⟩,
  ⟨0xF082C, 1, 0x0, [⟨31, 1, .rw⟩, ⟨29, 2, .rw⟩, ⟨0, 5, .rw⟩]⟩,
  ⟨0xF0830, 1, 0x0, [⟨0, 19, .ro⟩]⟩,
  ⟨0xF0834, 1, 0x0, [⟨0, 32, .ro⟩]⟩
]

/-- Register words of block 0xF. -/
def rowsFb : List RegRow := [
  ⟨0xF0838, 1, 0x0, [⟨0, 32, .ro⟩]⟩,
  ⟨0xF0900, 1, 0x0, [⟨31, 1, .rw⟩, ⟨0, 16, .rw⟩]⟩,
  ⟨0xF0904, 1, 0x0, [⟨16, 16, .rw⟩, ⟨0, 16, .rw⟩]⟩,
  ⟨0xF0908, 1, 0x0, [⟨0, 20, .rw⟩]⟩,
  ⟨0xF0910, 1, 0x0, [⟨31, 1, .rw⟩, ⟨16, 8, .ro⟩, ⟨8, 8, .ro⟩, ⟨0, 8, .rw⟩]⟩,
  ⟨0xF0914, 1, 0x0, [⟨31, 1, .rw⟩, ⟨24, 7, .rw⟩, ⟨20, 4, .rw⟩, ⟨16, 4, .rw⟩, ⟨8, 8, .rw⟩]⟩,
  ⟨0xF0918, 1, 0x0, [⟨16, 16, .rw⟩, ⟨0, 16, .rw⟩]⟩,
  ⟨0xF091C, 1, 0x0, [⟨24, 8, .ro⟩, ⟨16, 8, .ro⟩, ⟨15, 1, .ro⟩]⟩,
  ⟨0xF0920, 1, 0x0, [⟨0, 17, .rw⟩]⟩,
  ⟨0xF0924, 1, 0x0, [⟨31, 1, .ro⟩, ⟨20, 10, .ro⟩, ⟨12, 6, .ro⟩]⟩,
  ⟨0xF0928, 1, 0x0, [⟨31, 1, .rw⟩, ⟨0, 10, .rw⟩]⟩,
  ⟨0xF0940, 16, 0x4, [⟨0, 32, .ro⟩]⟩,
  ⟨0xF0A00, 32, 0x4, [⟨31, 1, .ro⟩, ⟨0, 20, .ro⟩]⟩
]

/-- The register words of the 64 KiB block that `off` lies in (spec/19). -/
def blockRows (off : Nat) : List RegRow :=
  match off / 0x10000 with
  | 0 => rows0a
  | 1 => rows1a
  | 2 => rows2a
  | 3 => rows3a ++ rows38a
  | 4 => rows4a ++ rows4b
  | 5 => rows5a
  | 6 => rows6a
  | 7 => rows7a ++ rows7b
  | 8 => rows8a ++ rows8b
  | 9 => rows9a
  | 10 => rowsAa
  | 11 => rowsBa
  | 12 => rowsCa
  | 13 => rowsDa
  | 14 => rowsEa
  | 15 => rowsFa ++ rowsFb
  | _ => []

/-- Does the row hold the word at `off`? -/
def RegRow.covers (r : RegRow) (off : Nat) : Bool :=
  if r.stride = 0 then off == r.off
  else r.off ≤ off && (off - r.off) % r.stride == 0 && (off - r.off) / r.stride < r.count

/-- The row of the register word at `off`; `none` where R488 leaves the offset unmapped. -/
def regRow (off : Nat) : Option RegRow := (blockRows off).find? (·.covers off)

/-- A field that does not reset to 0: `count` words from `off` on, lowest bit `lo`, value. -/
structure RstRow where
  off : Nat
  count : Nat
  stride : Nat
  lo : Nat
  val : Nat
  deriving DecidableEq, Repr

/-- Non-zero reset values of block 0x0. -/
def resets0a : List RstRow := [
  ⟨0x00000, 1, 0x0, 0, 106⟩,
  ⟨0x00000, 1, 0x0, 16, 12900⟩
]

/-- Non-zero reset values of block 0x1. -/
def resets1a : List RstRow := [
  ⟨0x10000, 1, 0x0, 15, 1⟩,
  ⟨0x10004, 1, 0x0, 0, 1⟩,
  ⟨0x10010, 1, 0x0, 0, 1⟩,
  ⟨0x10014, 1, 0x0, 0, 1⟩,
  ⟨0x10040, 8, 0x4, 0, 4294967295⟩
]

/-- Non-zero reset values of block 0x2. -/
def resets2a : List RstRow := [
  ⟨0x20000, 1, 0x0, 0, 15⟩,
  ⟨0x20000, 1, 0x0, 29, 1⟩,
  ⟨0x2000C, 1, 0x0, 0, 65535⟩,
  ⟨0x20400, 1, 0x0, 30, 3⟩,
  ⟨0x20400, 320, 0x4, 0, 50⟩,
  ⟨0x20400, 320, 0x4, 28, 1⟩,
  ⟨0x20400, 320, 0x4, 29, 1⟩,
  ⟨0x20404, 1, 0x0, 30, 3⟩,
  ⟨0x20408, 1, 0x0, 30, 2⟩,
  ⟨0x2040C, 1, 0x0, 30, 2⟩,
  ⟨0x20410, 1, 0x0, 30, 2⟩,
  ⟨0x20414, 1, 0x0, 30, 2⟩,
  ⟨0x20418, 1, 0x0, 30, 1⟩,
  ⟨0x2041C, 1, 0x0, 30, 1⟩,
  ⟨0x20420, 1, 0x0, 30, 1⟩,
  ⟨0x20428, 1, 0x0, 30, 2⟩,
  ⟨0x2050C, 1, 0x0, 30, 1⟩,
  ⟨0x20510, 1, 0x0, 30, 1⟩
]

/-- Non-zero reset values of block 0x3. -/
def resets3a : List RstRow := [
  ⟨0x30028, 2, 0x4, 0, 4294967295⟩,
  ⟨0x30030, 1, 0x0, 0, 400⟩,
  ⟨0x30034, 1, 0x0, 30, 1⟩,
  ⟨0x30100, 1, 0x0, 24, 4⟩,
  ⟨0x3011C, 1, 0x0, 0, 1⟩,
  ⟨0x30120, 1, 0x0, 0, 4000⟩
]

/-- Non-zero reset values of block 0x4. -/
def resets4a : List RstRow := [
  ⟨0x40000, 1, 0x0, 4, 1⟩,
  ⟨0x40000, 1, 0x0, 6, 1⟩,
  ⟨0x40048, 1, 0x0, 0, 1000⟩,
  ⟨0x40048, 1, 0x0, 16, 20⟩,
  ⟨0x40100, 1, 0x0, 0, 37⟩,
  ⟨0x40100, 1, 0x0, 31, 1⟩,
  ⟨0x40124, 1, 0x0, 0, 16777215⟩,
  ⟨0x40180, 1, 0x0, 0, 37⟩,
  ⟨0x401A4, 1, 0x0, 0, 16777215⟩,
  ⟨0x40200, 1, 0x0, 0, 3⟩,
  ⟨0x40200, 1, 0x0, 4, 6⟩,
  ⟨0x40200, 1, 0x0, 8, 16⟩,
  ⟨0x40200, 1, 0x0, 16, 4000⟩,
  ⟨0x40204, 1, 0x0, 0, 200⟩,
  ⟨0x40204, 1, 0x0, 16, 100⟩
]

/-- Non-zero reset values of block 0x5. -/
def resets5a : List RstRow := [
  ⟨0x50004, 1, 0x0, 0, 1⟩,
  ⟨0x50004, 1, 0x0, 1, 1⟩,
  ⟨0x50004, 1, 0x0, 16, 128⟩,
  ⟨0x50100, 1, 0x0, 0, 1⟩,
  ⟨0x50100, 1, 0x0, 1, 1⟩,
  ⟨0x50100, 1, 0x0, 2, 1⟩
]

/-- Non-zero reset values of block 0x6. -/
def resets6a : List RstRow := [
  ⟨0x60004, 1, 0x0, 0, 1⟩,
  ⟨0x60004, 1, 0x0, 4, 7⟩,
  ⟨0x60004, 1, 0x0, 24, 50⟩,
  ⟨0x60020, 1, 0x0, 0, 127⟩,
  ⟨0x60020, 1, 0x0, 20, 4⟩,
  ⟨0x60024, 1, 0x0, 0, 127⟩,
  ⟨0x60024, 1, 0x0, 20, 4⟩,
  ⟨0x60030, 1, 0x0, 0, 1⟩,
  ⟨0x60030, 1, 0x0, 8, 1⟩,
  ⟨0x60030, 1, 0x0, 16, 8⟩,
  ⟨0x60034, 1, 0x0, 0, 1⟩,
  ⟨0x60034, 1, 0x0, 8, 1⟩,
  ⟨0x60034, 1, 0x0, 16, 8⟩,
  ⟨0x60040, 1, 0x0, 0, 16⟩,
  ⟨0x60040, 1, 0x0, 16, 1000⟩,
  ⟨0x60044, 1, 0x0, 0, 16⟩,
  ⟨0x60044, 1, 0x0, 16, 300⟩,
  ⟨0x60044, 1, 0x0, 31, 1⟩,
  ⟨0x60048, 1, 0x0, 0, 256⟩,
  ⟨0x60048, 1, 0x0, 16, 2048⟩,
  ⟨0x60100, 1, 0x0, 6, 1⟩,
  ⟨0x60104, 1, 0x0, 0, 3⟩,
  ⟨0x60108, 1, 0x0, 0, 253⟩,
  ⟨0x60108, 1, 0x0, 8, 253⟩,
  ⟨0x60108, 1, 0x0, 16, 253⟩,
  ⟨0x60108, 1, 0x0, 24, 254⟩,
  ⟨0x6010C, 1, 0x0, 0, 3⟩,
  ⟨0x60110, 1, 0x0, 16, 2048⟩
]

/-- Non-zero reset values of block 0x7. -/
def resets7a : List RstRow := [
  ⟨0x70000, 1, 0x0, 24, 100⟩,
  ⟨0x70020, 1, 0x0, 0, 10⟩,
  ⟨0x70024, 1, 0x0, 16, 65535⟩,
  ⟨0x71000, 16, 0x40, 0, 1⟩,
  ⟨0x71000, 16, 0x40, 20, 11⟩,
  ⟨0x71004, 16, 0x40, 0, 100⟩,
  ⟨0x7100C, 16, 0x40, 0, 1⟩,
  ⟨0x71010, 16, 0x40, 0, 750⟩,
  ⟨0x71010, 16, 0x40, 16, 920⟩,
  ⟨0x71014, 16, 0x40, 0, 10⟩,
  ⟨0x71014, 16, 0x40, 16, 3⟩,
  ⟨0x71018, 16, 0x40, 0, 50⟩,
  ⟨0x71018, 16, 0x40, 16, 8⟩,
  ⟨0x72000, 1, 0x0, 30, 1⟩,
  ⟨0x72000, 4, 0x100, 0, 60⟩,
  ⟨0x72000, 4, 0x100, 16, 6⟩,
  ⟨0x72000, 4, 0x100, 20, 4⟩,
  ⟨0x72000, 4, 0x100, 27, 1⟩,
  ⟨0x72000, 4, 0x100, 29, 1⟩,
  ⟨0x72004, 4, 0x100, 0, 4⟩,
  ⟨0x72004, 4, 0x100, 8, 2⟩,
  ⟨0x72004, 4, 0x100, 12, 8⟩,
  ⟨0x72004, 4, 0x100, 16, 100⟩,
  ⟨0x72008, 4, 0x100, 0, 60⟩,
  ⟨0x72008, 4, 0x100, 16, 1000⟩
]

/-- Non-zero reset values of block 0x8. -/
def resets8a : List RstRow := [
  ⟨0x80100, 1, 0x0, 0, 23041⟩,
  ⟨0x80100, 4, 0x40, 31, 1⟩,
  ⟨0x80104, 1, 0x0, 0, 156250000⟩,
  ⟨0x8010C, 4, 0x40, 0, 1⟩,
  ⟨0x80120, 1, 0x0, 0, 23041⟩,
  ⟨0x80120, 4, 0x40, 31, 1⟩,
  ⟨0x80124, 1, 0x0, 0, 156250000⟩,
  ⟨0x8012C, 4, 0x40, 0, 1⟩,
  ⟨0x80140, 1, 0x0, 0, 23042⟩,
  ⟨0x80144, 1, 0x0, 0, 153600000⟩,
  ⟨0x80160, 1, 0x0, 0, 23042⟩,
  ⟨0x80164, 1, 0x0, 0, 153600000⟩,
  ⟨0x80180, 1, 0x0, 0, 23043⟩,
  ⟨0x80184, 1, 0x0, 0, 141120000⟩,
  ⟨0x801A0, 1, 0x0, 0, 23043⟩,
  ⟨0x801A4, 1, 0x0, 0, 141120000⟩,
  ⟨0x801C0, 1, 0x0, 0, 23044⟩,
  ⟨0x801C4, 1, 0x0, 0, 148500000⟩,
  ⟨0x801E0, 1, 0x0, 0, 23044⟩,
  ⟨0x801E4, 1, 0x0, 0, 148500000⟩,
  ⟨0x80200, 1, 0x0, 0, 32⟩,
  ⟨0x80200, 1, 0x0, 12, 1⟩,
  ⟨0x80200, 1, 0x0, 28, 1⟩,
  ⟨0x80220, 1, 0x0, 0, 32⟩,
  ⟨0x80220, 1, 0x0, 12, 1⟩,
  ⟨0x80220, 1, 0x0, 28, 1⟩,
  ⟨0x80240, 1, 0x0, 0, 2047⟩,
  ⟨0x80240, 1, 0x0, 12, 2048⟩,
  ⟨0x80260, 1, 0x0, 0, 2047⟩,
  ⟨0x80260, 1, 0x0, 12, 2048⟩,
  ⟨0x80280, 1, 0x0, 0, 40⟩,
  ⟨0x80280, 1, 0x0, 12, 1⟩,
  ⟨0x80280, 1, 0x0, 28, 1⟩,
  ⟨0x80280, 1, 0x0, 30, 1⟩,
  ⟨0x802A0, 1, 0x0, 0, 40⟩,
  ⟨0x802A0, 1, 0x0, 12, 1⟩,
  ⟨0x802A0, 1, 0x0, 28, 1⟩,
  ⟨0x802A0, 1, 0x0, 30, 1⟩,
  ⟨0x802C0, 1, 0x0, 0, 40⟩,
  ⟨0x802C0, 1, 0x0, 12, 1⟩,
  ⟨0x802C0, 1, 0x0, 28, 1⟩,
  ⟨0x802C0, 1, 0x0, 30, 2⟩,
  ⟨0x802E0, 1, 0x0, 0, 40⟩,
  ⟨0x802E0, 1, 0x0, 12, 1⟩,
  ⟨0x802E0, 1, 0x0, 28, 1⟩,
  ⟨0x802E0, 1, 0x0, 30, 2⟩,
  ⟨0x80400, 12, 0x40, 0, 1⟩,
  ⟨0x80400, 12, 0x40, 25, 1⟩,
  ⟨0x80400, 12, 0x40, 28, 1⟩,
  ⟨0x80404, 12, 0x40, 0, 1000000000⟩
]

/-- Non-zero reset values of block 0x8. -/
def resets8b : List RstRow := [
  ⟨0x8040C, 12, 0x40, 0, 1⟩,
  ⟨0x80410, 12, 0x40, 0, 100000⟩,
  ⟨0x80418, 12, 0x40, 0, 200000⟩,
  ⟨0x80420, 12, 0x40, 0, 1⟩,
  ⟨0x80420, 12, 0x40, 25, 1⟩,
  ⟨0x80420, 12, 0x40, 28, 1⟩,
  ⟨0x80424, 12, 0x40, 0, 1000000000⟩,
  ⟨0x8042C, 12, 0x40, 0, 1⟩,
  ⟨0x80430, 12, 0x40, 0, 100000⟩,
  ⟨0x80438, 12, 0x40, 0, 200000⟩,
  ⟨0x80C00, 1, 0x0, 0, 10⟩,
  ⟨0x80C00, 1, 0x0, 21, 4⟩,
  ⟨0x80C00, 1, 0x0, 24, 4⟩,
  ⟨0x80C04, 1, 0x0, 0, 65535⟩,
  ⟨0x80C04, 1, 0x0, 16, 254⟩,
  ⟨0x80C04, 1, 0x0, 24, 248⟩
]

/-- Non-zero reset values of block 0x9. -/
def resets9a : List RstRow := [
  ⟨0x90000, 1, 0x0, 16, 16⟩,
  ⟨0x90000, 1, 0x0, 30, 1⟩,
  ⟨0x90000, 1, 0x0, 31, 1⟩,
  ⟨0x90024, 1, 0x0, 0, 160⟩,
  ⟨0x90024, 1, 0x0, 16, 160⟩,
  ⟨0x91000, 1, 0x0, 31, 1⟩,
  ⟨0x91000, 25, 0x40, 0, 1⟩,
  ⟨0x91000, 25, 0x40, 25, 1⟩,
  ⟨0x91000, 25, 0x40, 26, 1⟩,
  ⟨0x91000, 25, 0x40, 27, 1⟩,
  ⟨0x91004, 25, 0x40, 31, 1⟩,
  ⟨0x91040, 1, 0x0, 16, 1⟩,
  ⟨0x91040, 1, 0x0, 31, 1⟩,
  ⟨0x91080, 1, 0x0, 16, 2⟩,
  ⟨0x91080, 1, 0x0, 31, 1⟩,
  ⟨0x910C0, 1, 0x0, 16, 3⟩,
  ⟨0x910C0, 1, 0x0, 31, 1⟩,
  ⟨0x91100, 1, 0x0, 16, 4⟩,
  ⟨0x91100, 1, 0x0, 31, 1⟩,
  ⟨0x91140, 1, 0x0, 16, 5⟩,
  ⟨0x91140, 1, 0x0, 31, 1⟩,
  ⟨0x91180, 1, 0x0, 16, 6⟩,
  ⟨0x91180, 1, 0x0, 31, 1⟩,
  ⟨0x911C0, 1, 0x0, 16, 7⟩,
  ⟨0x911C0, 1, 0x0, 31, 1⟩,
  ⟨0x91200, 1, 0x0, 16, 8⟩,
  ⟨0x91240, 1, 0x0, 16, 9⟩,
  ⟨0x91280, 1, 0x0, 16, 10⟩,
  ⟨0x912C0, 1, 0x0, 16, 11⟩,
  ⟨0x91300, 1, 0x0, 16, 12⟩,
  ⟨0x91340, 1, 0x0, 16, 13⟩,
  ⟨0x91380, 1, 0x0, 16, 14⟩,
  ⟨0x913C0, 1, 0x0, 16, 15⟩,
  ⟨0x91400, 1, 0x0, 16, 63⟩,
  ⟨0x91400, 1, 0x0, 29, 3⟩,
  ⟨0x91440, 1, 0x0, 16, 63⟩,
  ⟨0x91440, 1, 0x0, 29, 3⟩,
  ⟨0x91480, 1, 0x0, 16, 63⟩,
  ⟨0x91480, 1, 0x0, 29, 3⟩,
  ⟨0x914C0, 1, 0x0, 16, 63⟩,
  ⟨0x914C0, 1, 0x0, 29, 3⟩,
  ⟨0x91500, 1, 0x0, 16, 63⟩,
  ⟨0x91500, 1, 0x0, 29, 3⟩,
  ⟨0x91540, 1, 0x0, 16, 63⟩,
  ⟨0x91540, 1, 0x0, 29, 3⟩,
  ⟨0x91580, 1, 0x0, 16, 63⟩,
  ⟨0x91580, 1, 0x0, 29, 3⟩,
  ⟨0x915C0, 1, 0x0, 16, 63⟩,
  ⟨0x915C0, 1, 0x0, 29, 3⟩,
  ⟨0x91600, 1, 0x0, 16, 63⟩
]

/-- Non-zero reset values of block 0x9. -/
def resets9b : List RstRow := [
  ⟨0x91600, 1, 0x0, 29, 3⟩
]

/-- Non-zero reset values of block 0xA. -/
def resetsAa : List RstRow := [
  ⟨0xA0400, 1, 0x0, 25, 1⟩,
  ⟨0xA0404, 1, 0x0, 25, 1⟩,
  ⟨0xA040C, 1, 0x0, 0, 248⟩,
  ⟨0xA040C, 1, 0x0, 8, 52⟩,
  ⟨0xA040C, 1, 0x0, 16, 252⟩,
  ⟨0xA0414, 1, 0x0, 25, 1⟩,
  ⟨0xA0414, 1, 0x0, 26, 1⟩,
  ⟨0xA041C, 1, 0x0, 16, 1000⟩,
  ⟨0xA0420, 1, 0x0, 0, 1320⟩,
  ⟨0xA0420, 1, 0x0, 28, 4⟩
]

/-- Non-zero reset values of block 0xB. -/
def resetsBa : List RstRow := [
  ⟨0xB0004, 1, 0x0, 0, 1⟩,
  ⟨0xB0004, 1, 0x0, 16, 300⟩,
  ⟨0xB0014, 1, 0x0, 0, 60⟩,
  ⟨0xB0024, 1, 0x0, 0, 1⟩,
  ⟨0xB0024, 1, 0x0, 3, 1⟩,
  ⟨0xB0024, 1, 0x0, 6, 1⟩,
  ⟨0xB0024, 1, 0x0, 9, 1⟩,
  ⟨0xB0024, 1, 0x0, 12, 1⟩,
  ⟨0xB0024, 1, 0x0, 15, 1⟩,
  ⟨0xB0024, 1, 0x0, 18, 1⟩,
  ⟨0xB0024, 1, 0x0, 21, 1⟩,
  ⟨0xB0028, 1, 0x0, 0, 2⟩,
  ⟨0xB0028, 1, 0x0, 3, 2⟩,
  ⟨0xB0028, 1, 0x0, 6, 2⟩,
  ⟨0xB0028, 1, 0x0, 9, 2⟩,
  ⟨0xB0028, 1, 0x0, 12, 2⟩,
  ⟨0xB0028, 1, 0x0, 15, 2⟩,
  ⟨0xB0028, 1, 0x0, 18, 2⟩,
  ⟨0xB0028, 1, 0x0, 21, 2⟩,
  ⟨0xB002C, 1, 0x0, 0, 3⟩,
  ⟨0xB002C, 1, 0x0, 3, 3⟩,
  ⟨0xB002C, 1, 0x0, 6, 3⟩,
  ⟨0xB002C, 1, 0x0, 9, 3⟩,
  ⟨0xB002C, 1, 0x0, 12, 3⟩,
  ⟨0xB002C, 1, 0x0, 15, 3⟩,
  ⟨0xB002C, 1, 0x0, 18, 3⟩,
  ⟨0xB002C, 1, 0x0, 21, 3⟩,
  ⟨0xB0030, 1, 0x0, 0, 4⟩,
  ⟨0xB0030, 1, 0x0, 3, 4⟩,
  ⟨0xB0030, 1, 0x0, 6, 4⟩,
  ⟨0xB0030, 1, 0x0, 9, 4⟩,
  ⟨0xB0030, 1, 0x0, 12, 4⟩,
  ⟨0xB0030, 1, 0x0, 15, 4⟩,
  ⟨0xB0030, 1, 0x0, 18, 4⟩,
  ⟨0xB0030, 1, 0x0, 21, 4⟩,
  ⟨0xB0034, 1, 0x0, 0, 5⟩,
  ⟨0xB0034, 1, 0x0, 3, 5⟩,
  ⟨0xB0034, 1, 0x0, 6, 5⟩,
  ⟨0xB0034, 1, 0x0, 9, 5⟩,
  ⟨0xB0034, 1, 0x0, 12, 5⟩,
  ⟨0xB0034, 1, 0x0, 15, 5⟩,
  ⟨0xB0034, 1, 0x0, 18, 5⟩,
  ⟨0xB0034, 1, 0x0, 21, 5⟩,
  ⟨0xB0038, 1, 0x0, 0, 6⟩,
  ⟨0xB0038, 1, 0x0, 3, 6⟩,
  ⟨0xB0038, 1, 0x0, 6, 6⟩,
  ⟨0xB0038, 1, 0x0, 9, 6⟩,
  ⟨0xB0038, 1, 0x0, 12, 6⟩,
  ⟨0xB0038, 1, 0x0, 15, 6⟩,
  ⟨0xB0038, 1, 0x0, 18, 6⟩
]

/-- Non-zero reset values of block 0xB. -/
def resetsBb : List RstRow := [
  ⟨0xB0038, 1, 0x0, 21, 6⟩,
  ⟨0xB003C, 1, 0x0, 0, 7⟩,
  ⟨0xB003C, 1, 0x0, 3, 7⟩,
  ⟨0xB003C, 1, 0x0, 6, 7⟩,
  ⟨0xB003C, 1, 0x0, 9, 7⟩,
  ⟨0xB003C, 1, 0x0, 12, 7⟩,
  ⟨0xB003C, 1, 0x0, 15, 7⟩,
  ⟨0xB003C, 1, 0x0, 18, 7⟩,
  ⟨0xB003C, 1, 0x0, 21, 7⟩,
  ⟨0xB0100, 1, 0x0, 0, 1⟩,
  ⟨0xB0100, 1, 0x0, 24, 1⟩,
  ⟨0xB0100, 1, 0x0, 25, 1⟩,
  ⟨0xB0100, 1, 0x0, 26, 1⟩,
  ⟨0xB0100, 1, 0x0, 29, 1⟩,
  ⟨0xB0104, 1, 0x0, 3, 1⟩,
  ⟨0xB0104, 1, 0x0, 6, 2⟩,
  ⟨0xB0104, 1, 0x0, 9, 3⟩,
  ⟨0xB0104, 1, 0x0, 12, 4⟩,
  ⟨0xB0104, 1, 0x0, 15, 5⟩,
  ⟨0xB0104, 1, 0x0, 18, 6⟩,
  ⟨0xB0104, 1, 0x0, 21, 7⟩
]

/-- Non-zero reset values of block 0xC. -/
def resetsCa : List RstRow := [
  ⟨0xC0004, 1, 0x0, 0, 1⟩,
  ⟨0xC0004, 1, 0x0, 8, 2⟩,
  ⟨0xC0004, 1, 0x0, 16, 6⟩,
  ⟨0xC0008, 1, 0x0, 0, 8192⟩,
  ⟨0xC000C, 1, 0x0, 0, 8192⟩,
  ⟨0xC0010, 1, 0x0, 0, 262144⟩,
  ⟨0xC0050, 1, 0x0, 0, 1⟩,
  ⟨0xC0058, 1, 0x0, 0, 10⟩,
  ⟨0xC005C, 1, 0x0, 0, 4294967294⟩,
  ⟨0xC0100, 1, 0x0, 16, 10⟩,
  ⟨0xC0100, 1, 0x0, 30, 1⟩,
  ⟨0xC0100, 1, 0x0, 31, 1⟩,
  ⟨0xC0200, 8, 0x10, 0, 16⟩,
  ⟨0xC0204, 8, 0x10, 0, 16⟩,
  ⟨0xC0208, 8, 0x10, 0, 200⟩,
  ⟨0xC0208, 8, 0x10, 16, 1000⟩
]

/-- Non-zero reset values of block 0xD. -/
def resetsDa : List RstRow := [
  ⟨0xD0100, 1, 0x0, 0, 20⟩,
  ⟨0xD0110, 1, 0x0, 0, 255⟩,
  ⟨0xD0118, 1, 0x0, 0, 1⟩,
  ⟨0xD0140, 1, 0x0, 0, 1000000⟩,
  ⟨0xD0148, 1, 0x0, 0, 1⟩,
  ⟨0xD0150, 1, 0x0, 0, 1000000⟩,
  ⟨0xD0158, 1, 0x0, 0, 1⟩,
  ⟨0xD016C, 1, 0x0, 24, 255⟩,
  ⟨0xD0170, 1, 0x0, 0, 10⟩,
  ⟨0xD0200, 8, 0x10, 8, 1⟩
]

/-- Non-zero reset values of block 0xE. -/
def resetsEa : List RstRow := [
  ⟨0xE0004, 1, 0x0, 31, 1⟩,
  ⟨0xE0100, 1, 0x0, 0, 32⟩,
  ⟨0xE0104, 1, 0x0, 0, 10⟩,
  ⟨0xE0104, 1, 0x0, 16, 100⟩,
  ⟨0xE0108, 1, 0x0, 0, 8⟩,
  ⟨0xE0108, 1, 0x0, 16, 2000⟩,
  ⟨0xE0110, 1, 0x0, 0, 10⟩,
  ⟨0xE0118, 1, 0x0, 31, 1⟩
]

/-- Non-zero reset values of block 0xF. -/
def resetsFa : List RstRow := [
  ⟨0xF0004, 1, 0x0, 30, 1⟩,
  ⟨0xF0004, 1, 0x0, 31, 1⟩,
  ⟨0xF0190, 1, 0x0, 0, 1000⟩,
  ⟨0xF0400, 8, 0x80, 21, 10⟩,
  ⟨0xF0404, 8, 0x80, 0, 1⟩,
  ⟨0xF0800, 1, 0x0, 0, 10⟩,
  ⟨0xF0800, 1, 0x0, 16, 14⟩,
  ⟨0xF0800, 1, 0x0, 31, 1⟩,
  ⟨0xF082C, 1, 0x0, 29, 1⟩,
  ⟨0xF0900, 1, 0x0, 0, 100⟩,
  ⟨0xF0900, 1, 0x0, 31, 1⟩,
  ⟨0xF0904, 1, 0x0, 0, 20⟩,
  ⟨0xF0904, 1, 0x0, 16, 1600⟩,
  ⟨0xF0908, 1, 0x0, 0, 20000⟩,
  ⟨0xF0914, 1, 0x0, 8, 24⟩,
  ⟨0xF0914, 1, 0x0, 16, 10⟩,
  ⟨0xF0914, 1, 0x0, 20, 5⟩,
  ⟨0xF0914, 1, 0x0, 24, 40⟩,
  ⟨0xF0914, 1, 0x0, 31, 1⟩,
  ⟨0xF0918, 1, 0x0, 0, 60⟩,
  ⟨0xF0918, 1, 0x0, 16, 168⟩,
  ⟨0xF091C, 1, 0x0, 16, 12⟩,
  ⟨0xF0920, 1, 0x0, 0, 3600⟩
]

/-- The non-zero reset values of the block of `off`. -/
def blockResets (off : Nat) : List RstRow :=
  match off / 0x10000 with
  | 0 => resets0a
  | 1 => resets1a
  | 2 => resets2a
  | 3 => resets3a
  | 4 => resets4a
  | 5 => resets5a
  | 6 => resets6a
  | 7 => resets7a
  | 8 => resets8a ++ resets8b
  | 9 => resets9a ++ resets9b
  | 10 => resetsAa
  | 11 => resetsBa ++ resetsBb
  | 12 => resetsCa
  | 13 => resetsDa
  | 14 => resetsEa
  | 15 => resetsFa
  | _ => []

def RstRow.covers (r : RstRow) (off lo : Nat) : Bool :=
  lo == r.lo && (if r.stride = 0 then off == r.off
    else r.off ≤ off && (off - r.off) % r.stride == 0 && (off - r.off) / r.stride < r.count)

/-- The reset value of the field at word `off`, lowest bit `lo`, from the Reset columns of the register tables. -/
def fieldReset (off lo : Nat) : Nat :=
  match (blockResets off).find? (·.covers off lo) with
  | some r => r.val
  | none => 0

end Sys2Proof.Machine
end

