-- ==== Sys2Proof/Machine/SynState.lean ====
section
/-!
DEFINITION. Sys2Proof/Machine/SynState.lean: the state of the outputs and the ToD port (spec/06) beside their registers.
-/
namespace Sys2Proof.Machine

/-- An output at work. Its edge of index `k` lies at `eNum / eDen` + (`k` - `k0`) periods, in 2^-32 ns (R71, R185); `first` is
the index of its first edge since the start. `armed` is the instant it waits for (R190), `completing` says that its last active
phase is under way (R189), `want` that it starts when that phase ends (R190), `take` holds the committed values that wait for
its cycle boundary (R185), `placing` that it waits for its placement (R193), `sent` is the index of the latest edge that got a ToD
message or was passed over (R196), `last` that of the latest edge before it stopped, and `delay` the SYN_OUT_DELAY that waits for
the next cycle boundary (R12). -/
structure OutRt where
  eNum : Int
  eDen : Nat
  k0 : Int
  first : Int
  armed : Option Int
  completing : Bool
  want : Bool
  take : Option (List Nat)
  placing : Bool
  sent : Option Int
  last : Option Int
  delay : Option Nat
  deriving DecidableEq, Repr

def OutRt.reset : OutRt := ⟨0, 1, 0, 0, none, false, false, none, false, none, none, none⟩

/-- A received ToD message that waits for its edge (R197): its octets and the instant of its last stop bit, 2^-32 ns. -/
structure TodWait where
  octets : List Nat
  stop : Int
  deriving DecidableEq, Repr

/-- The modulator of a DCO (R180, R182): the remainder accumulator, the three 48-bit accumulators, the carries of stages 2 and 3
that the next cycles take back (`c3` the latest, `d3` the one before), the shift register (none: to be seeded from SEED before
its next step), its latest output bit, the latest modulus, and how much of a cycle of the DCO has passed since its latest. -/
structure DcoMod where
  racc : Nat
  a1 : Nat
  a2 : Nat
  a3 : Nat
  c2 : Nat
  c3 : Nat
  d3 : Nat
  lfsr : Option Nat
  bit : Nat
  modulus : Int
  phase : Nat
  deriving DecidableEq, Repr

def DcoMod.reset : DcoMod := ⟨0, 0, 0, 0, 0, 0, 0, none, 0, 0, 0⟩

/-- SYN: outputs; the message count of TOD_OUT, from when and until when its latest message is sent, and since when it labels the
edges of its output (R196); the edges of the TODPPS input of the latest two seconds in 2^-32 ns (R197); the messages that wait for
an edge, oldest first; the modulators of the DCOs. -/
structure Syn where
  outs : SMap OutRt
  todSeq : Nat
  todStart : Int
  todBusy : Int
  todFrom : Int
  edges : List Int
  todWait : List TodWait
  mods : SMap DcoMod
  deriving DecidableEq, Repr

def Syn.reset : Syn := ⟨[], 0, 0, 0, 0, [], [], []⟩

end Sys2Proof.Machine
end

