-- ==== Sys2Proof/Machine/SysState.lean ====
section
/-!
DEFINITION. Sys2Proof/Machine/SysState.lean: the state of SAFE's reset sequencer (spec/14), of the firmware admission (spec/15)
and of memory protection (spec/16) beside their registers.
-/
namespace Sys2Proof.Machine

/-- A reset in progress (R392): level, source, UNIT target, its start in µs of the corrected SAFE count, the islands it still
holds, whether its stretch is over (R394), and whether it drives RESET_N. -/
structure RstJob where
  level : Nat
  src : Nat
  isl : Nat
  start : Nat
  wait : List Nat
  stretched : Bool
  drive : Bool
  deriving DecidableEq, Repr

/-- A profile slot in MRAM (R409, R410): STATE, LENGTH, CRC, WRITES of its directory entry, and its octets. -/
structure Slot where
  state : Nat
  len : Nat
  crc : Nat
  writes : Nat
  octets : List Nat
  deriving DecidableEq, Repr

def Slot.empty : Slot := ⟨0, 0, 0, 0, []⟩

/-- An application of profile records at run time (R416): the ring and command that asked, the records that remain, the
activation instant in 2^-32 ns where one is given, whether it is LATE, when the command started (R371), and when the WAIT at its
front was first met (R412), on the MCU Last copy. -/
structure ProfRun where
  ring : Nat
  tag : Nat
  irq : Bool
  words : List Nat
  at32 : Option Int
  late : Bool
  since : Int
  waitAt : Int
  deriving DecidableEq, Repr

/-- An entry of the measurement log (R434): register, kind, MCU Last copy in 2^-32 ns, digest. -/
structure MeasEntry where
  reg : Nat
  kind : Nat
  time : Int
  digest : Nat
  deriving DecidableEq, Repr

/-- SAFE, the boot ROM and the memories: the corrected SAFE count in µs; PROFSEL[1:0] and ADDR (bit 2) as strapped; the level of OCXO_WARM; resets in
progress; the level and the start of the latest COLD, WARM or PATH reset, and the start of the latest reset; when RESET_N is no longer ignored
(R395); loads under way (0 fuse, 1 trim, 2 record, 3 profile) and loads that have failed for good (R406); the fuse and the trim
shadow; whether the calibration record is valid, and its certificate chain (R420); the profile shadow's octets, the word at which its
application stands, whether a WAIT holds it and since when on the MCU Last copy, and whether it has ended (R415); whether the oscillator check has ended and found an
input (R402); whether the calibration has been given up (R398); islands whose self-test has passed since their reset (R400); the
profile slots (R410); the run-time application (R416); the boot ROM's progress (0 not started, 1 images chosen, 2 done) and the
image types that were late (R425, R426); the staging memories by type, and which hold a valid image (R422); the measurement log and
LOG_TRUNC (R434); when the watchdogs of the management (0) and servo (1) controllers expire, in µs (R432); quads whose own clock
monitor reports a valid clock (R20, R239); the SAFE millisecond of each memory's latest MEM_CE (R447) and the next word of each
scrubber (R444); the JTAG instruction in force; the code on the VID balls, which float until it is there (R501);
the word of RST_PROF_CFG that waits for the next COLD or WARM reset (R12). -/
structure Sys where
  us : Nat
  straps : Nat
  warmPin : Bool
  jobs : List RstJob
  level : Nat
  began : Nat
  start : Nat
  pinFree : Nat
  loads : List Nat
  failed : List Nat
  fuse : List Nat
  trim : List Nat
  recOk : Bool
  cert : List Nat
  prof : List Nat
  profPos : Nat
  profWait : Bool
  profWaitAt : Int
  profDone : Bool
  oscDone : Bool
  oscOk : Bool
  calLate : Bool
  tested : List Nat
  slots : SMap Slot
  run : Option ProfRun
  boot : Nat
  late : List Nat
  stage : SMap (List Nat)
  stageOk : List Nat
  measLog : List MeasEntry
  logTrunc : Bool
  wdog : SMap Nat
  laneClk : List Nat
  ceMs : SMap Nat
  scrub : SMap Nat
  jtag : Jtag
  vid : Option Nat
  profCfg : Option Nat
  deriving DecidableEq, Repr

/-- The slots of R18 that hold an island other than SAFE. -/
def allIslands : List Nat := [1, 2, 3, 4, 5, 6, 7, 8, 9, 10, 11, 12, 16, 17, 18, 19, 20, 21, 22, 23, 24, 25, 26, 27, 28, 29, 30, 31]

/-- SAFE at POWER_ON (R396): a COLD reset in progress that drives RESET_N, all four loads under way. -/
def Sys.reset : Sys where
  us := 0
  straps := 0
  warmPin := false
  jobs := [⟨0, 0, 0, 0, allIslands, false, true⟩]
  level := 0
  began := 0
  start := 0
  pinFree := 0
  loads := [0, 1, 2, 3]
  failed := []
  fuse := []
  trim := []
  recOk := false
  cert := []
  prof := []
  profPos := 0
  profWait := false
  profWaitAt := 0
  profDone := false
  oscDone := false
  oscOk := false
  calLate := false
  tested := []
  slots := []
  run := none
  boot := 0
  late := []
  stage := []
  stageOk := []
  measLog := []
  logTrunc := false
  wdog := []
  laneClk := []
  ceMs := []
  scrub := []
  jtag := .bypass
  vid := none
  profCfg := none

end Sys2Proof.Machine
end

