-- ==== Sys2Proof/Machine/TdcState.lean ====
section
/-!
DEFINITION. Sys2Proof/Machine/TdcState.lean: the state of the TDC (spec/07) beside its registers.
-/
namespace Sys2Proof.Machine

/-- A captured edge of an INTERVAL pair (R213): its instant by counts and by the Last in 2^-10 ns, its coarse count, direction,
whether its pair was good, how many steps of the Last preceded its hit, whether CHS measured it, and whether it is the first one under
a new table or by a new channel (R215). -/
structure Capture where
  byCount : Int
  byLast : Int
  k : Nat
  rising : Bool
  valid : Bool
  epoch : Int
  spare : Bool
  fresh : Bool
  deriving DecidableEq, Repr

/-- A channel: selected edges since the latest passed one (R202), the latest calibration pair, the latest good one, and how many bad or
good ones came in a row (R207), the coarse count of its latest sampling edge (R206), its result count, marks for the next record of the
channel (`calChanged`: another channel measures for it) and of those it measures (`newTable`), queued records (R215), the arming and
captures of an INTERVAL pair (R213), whether it has failed calibration, its refill (R218): 0 none, 1 waiting, 2 under way, and the
count at its latest commit with the table that was in force until then (R219). -/
structure TdcCh where
  edges : Nat
  c1 : Nat
  c2 : Nat
  g1 : Nat
  g2 : Nat
  hasPair : Bool
  bad : Nat
  good : Nat
  lastK : Option Nat
  count : Nat
  lost : Bool
  calChanged : Bool
  newTable : Bool
  queue : List (List Nat)
  armed : Option Nat
  start : Option Capture
  stop : Option Capture
  calFailed : Bool
  refill : Nat
  commitK : Option Nat
  oldTbl : List Nat
  deriving DecidableEq, Repr

def TdcCh.reset : TdcCh := ⟨0, 0, 0, 0, 0, false, 0, 0, none, 0, false, false, false, [], none, none, none, false, 0, none, []⟩

/-- CHS at work (R221): the channel it serves, the step (1 first overlap, 3 serving, 4 return overlap), whether for a refill whose
table is not yet in force, the differences t_n - t_S of the edges of an overlap in 2^-10 ns, the instants of the present edge from the
channel and from CHS, when the overlap began, and the offset. -/
structure Takeover where
  ch : Nat
  step : Nat
  refill : Bool
  diffs : List Int
  tN : Option Int
  tS : Option Int
  since : Int
  delta : Int
  deriving DecidableEq, Repr

/-- The TDC: the coarse count since its release (unwrapped, R209), the anchor (count, Last in 2^-32 ns, residue), the count at
the latest step of the Last (R210), channels 0 to 23 and CHS at 24, tables in force and pending (R217), the takeover, the
requests that wait for CHS in their order (R218), the channel next in the round robin (R215), the one
borrowed for a recalibration (R224), where each input prescaler stands in its division (R204), and the values of TDC_CH_ADJ that wait
for their channel's next sampling edge (R12). -/
structure Tdc where
  k : Nat
  anchorK : Nat
  anchorL : Int
  anchorR : Nat
  stepK : Option Nat
  chs : SMap TdcCh
  tbl : SMap (List Nat)
  pend : SMap (List Nat)
  spare : Option Takeover
  waits : List Nat
  turn : Nat
  borrowed : Option Nat
  presc : SMap Nat
  adjs : SMap (Option Nat)
  deriving DecidableEq, Repr

def Tdc.reset : Tdc := ⟨0, 0, 0, 0, none, [], [], [], none, [], 0, none, [], []⟩

end Sys2Proof.Machine
end

