-- ==== Sys2Proof/Machine/TsuState.lean ====
section
/-!
DEFINITION. Sys2Proof/Machine/TsuState.lean: the state of the tallies and their constants (spec/03).
-/
namespace Sys2Proof.Machine

/-- A tally measurement (R78, R79): phase, its change, and the UI index of the tally edge at which it takes effect. -/
structure Meas where
  phi : Nat
  dphi : Int
  u0 : Int
  locked : Bool
  valid : Bool
  deriving DecidableEq, Repr

/-- A lane's tally: its two latest measurements, the counts of R80 and R81, the sum of R127 over the window under way, and
the latest whole window's y; since when it is invalid and whether for more than 100 ms (R120); and whether the port's
deskew has been measured before (R90); the UI index of the tally edge at which the receive constants changed last, and their sum before
(R104). -/
structure Tally where
  cur : Option Meas
  prev : Option Meas
  good : Nat
  posted : Nat
  sum : Int
  n : Nat
  y : Option Int
  invalidSince : Int
  bad : Bool
  dSeen : Bool
  calU : Int
  calOld : Option Int
  deriving DecidableEq, Repr

def Tally.reset : Tally := ⟨none, none, 0, 0, 0, 0, none, 0, false, false, 0, none⟩

/-- Constants of a lane that wait for their tally edge (R104): the values of TSU_CAL_RX, TSU_CAL_TX, TSU_ASYM_RX and
TSU_ASYM_TX. -/
structure CalPend where
  calRx : Option Nat
  calTx : Option Nat
  asymRx : Option Nat
  asymTx : Option Nat
  deriving DecidableEq, Repr

def CalPend.reset : CalPend := ⟨none, none, none, none⟩

end Sys2Proof.Machine
end

