-- ==== Sys2Proof/Machine/State.lean ====
section
/-!
DEFINITION. Sys2Proof/Machine/State.lean: the state of the block, the reasons a step can stop, and the state at POWER_ON.
-/
namespace Sys2Proof.Machine

/-- What leaves the block in one step: the model's own record of its outputs (notes/assumptions/2.md). -/
inductive Output where
  /-- The data of a register read. -/
  | readData (req : Requester) (off : Nat) (val : Nat)
  /-- A frame that left a port (64 and 65 are the host and the management firmware), with its FCS; with it to P65 the receive record of
  R96, four words; `err`: the last block before the terminating one is an error control block (R299). -/
  | frame (port : Nat) (octets : List Nat) (record : List Nat) (err : Bool)
  /-- A PTP message the engine sent on the port of an instance: the message as it leaves, and the frame that carries it. -/
  | ptp (inst : Nat) (msg : PtpMsg) (octets : List Nat)
  /-- The answer to a unicast request: type, log interval, duration in s (0 a denial). -/
  | grant (inst addr pid mtype : Nat) (log : Int) (duration : Nat)
  /-- A CANCEL_UNICAST_TRANSMISSION of the firmware, or (`ack`) its ACKNOWLEDGE_CANCEL of a partner's. -/
  | cancel (inst addr pid mtype : Nat) (ack : Bool)
  /-- The data and then the words the device writes in slot `idx` of ring `r`, the last one at +0x1C (R363, R366 to R368). -/
  | slot (r idx : Nat) (words data : List Nat)
  /-- The write-back word of ring `r` (R368). -/
  | writeBack (r word : Nat)
  /-- An MSI-X message of a vector (R380). -/
  | msi (vector : Nat)
  /-- A word that a crossing delivered (R22). -/
  | crossed (src dst word : Nat)
  /-- Output `out` was placed (R188, R190 to R192): its first edge has index `index` and crosses the ball at `ball` (2^-32 ns), its
active phase lasts `num`/`den` ns and is at the high level or (POL) not; the later cycles follow by `ballAt` and `activePhase`. -/
  | edge (out : Nat) (index ball : Int) (num den : Nat) (high : Bool)
  /-- A ToD message at TOD_OUT (R196). -/
  | tod (octets : List Nat)
  /-- A TDC record delivered to TIME and to MCU (R215), to each whose crossing is up. -/
  | tdc (words : List Nat) (time mcu : Bool)
  /-- An answer of the SPDM responder (R437): the request, the class of the answer (0 Busy, 1 UnsupportedRequest, 2 answered), and the
  digests or the chain's octets that it carries. -/
  | spdm (req : SpdmReq) (answer : Nat) (data : List Nat)
  /-- An I2C transaction ended (R384): whether it was acknowledged, and the octets read. -/
  | i2c (ack : Bool) (octets : List Nat)
  /-- The IDCODE that the JTAG port shows (R508). -/
  | idcode (val : Nat)
  /-- A PMBus transaction to the regulator (R502): the command, and for VOUT_COMMAND the voltage in µV. -/
  | pmbus (cmd uv : Nat)
  /-- A level of an output pin. -/
  | pin (name : String) (level : Bool)
  deriving DecidableEq, Repr

/-- A crossing between two islands (R22, R24): whether it is up, and the words it holds, the oldest first. -/
structure Xing where
  up : Bool
  words : List Nat
  deriving DecidableEq, Repr

def Xing.down : Xing := ⟨false, []⟩

/-- The state of the KZ3264. `regs` holds every register field that has no typed home below, keyed by `Fld.key`; an
unlisted field reads as its reset value. `sels`, `caps` and `staged` are HOST's select registers, captures and write
staging, separate for each requester (R383). `xings` has the crossings (R22 to
R24), `src` times 32 plus `dst`; those not listed are down and empty. `outs` is what the latest step sent out, `fresh` the number of free values
drawn so far. -/
structure State where
  pending : List Instr
  regs : SMap Nat
  sels : SMap Nat
  caps : SMap Nat
  staged : SMap Nat
  xings : SMap Xing
  tim : Tim
  ref : Ref
  flt : Flt
  tallies : SMap Tally
  calPends : SMap CalPend
  pte : Pte
  ing : Ing
  buf : Buf
  egr : Egr
  red : Red
  mon : Mon
  hif : Hif
  lnk : Lnk
  syn : Syn
  tdc : Tdc
  sys : Sys
  outs : List Output
  fresh : Nat
  deriving DecidableEq, Repr

/-- Why the block stops: no command of the spec stops it, so there is no reason. -/
inductive Fault where
  /-- Raised by nothing: the spec names no command that stops the block. Safe. -/
  | none
  deriving DecidableEq, Repr

/-- Why a command has no meaning. -/
inductive Refusal where
  /-- A command whose meaning is not written yet. Safe: the model stops where the hardware goes on. -/
  | notModelled (mnemonic : String)
  deriving DecidableEq, Repr

/-- The block at POWER_ON (R387, R498). -/
def State.reset : State where
  pending := []
  regs := []
  sels := []
  caps := []
  staged := []
  xings := []
  tim := Tim.reset
  ref := Ref.reset
  flt := Flt.reset
  tallies := []
  calPends := []
  pte := Pte.reset
  ing := Ing.reset
  buf := Buf.reset
  egr := Egr.reset
  red := Red.reset
  mon := Mon.reset
  hif := Hif.reset
  lnk := Lnk.reset
  syn := Syn.reset
  tdc := Tdc.reset
  sys := Sys.reset
  outs := []
  fresh := 0

end Sys2Proof.Machine
end

