-- ==== Sys2Proof/Machine/Ops.lean ====
section
/-!
DEFINITION. Sys2Proof/Machine/Ops.lean: the operations every meaning uses: register fields, two's complement, the Last as
one number, islands, events and faults, free values, outputs.
-/
namespace Sys2Proof.Machine

/-! ### Numbers -/

/-- The two's-complement value of the low `w` bits of `v`. -/
def sx (w v : Nat) : Int :=
  let u := v % 2 ^ w
  if 2 * u < 2 ^ w then (u : Int) else (u : Int) - (2 ^ w : Nat)

/-- The `w`-bit two's-complement word of `x`. -/
def toU (w : Nat) (x : Int) : Nat := (x % ((2 ^ w : Nat) : Int)).toNat

/-- `x` clamped to `lo` to `hi`. -/
def clampI (lo hi x : Int) : Int := if x < lo then lo else if hi < x then hi else x

/-- Saturation of a count. -/
def satN (hi x : Nat) : Nat := if hi < x then hi else x

/-- Bit `b` of `v`. -/
def bitOf (v b : Nat) : Bool := v / 2 ^ b % 2 == 1

/-- `v` with bit `b` set to `x`. -/
def putBit (v b : Nat) (x : Bool) : Nat := (if bitOf v b then v - 2 ^ b else v) + (if x then 2 ^ b else 0)

/-- Bits `lo` to `lo + w - 1` of `v`. -/
def bitsOf (v lo w : Nat) : Nat := v / 2 ^ lo % 2 ^ w

def b2n (b : Bool) : Nat := if b then 1 else 0

/-- The sign of `x` as -1, 0 or 1. -/
def sgn (x : Int) : Int := if x < 0 then -1 else if x = 0 then 0 else 1

/-- Division rounded to nearest, ties up; `d` positive. -/
def rdiv (x d : Int) : Int := (2 * x + d) / (2 * d)

/-- Division rounded toward zero to a multiple, for reports (R54). -/
def tdiv (x d : Int) : Int := Int.tdiv x d

/-- One step of the 16-bit shift register of R511. -/
def lfsrStep (s : Nat) : Nat :=
  let f := (bitsOf s 15 1 + bitsOf s 13 1 + bitsOf s 12 1 + bitsOf s 10 1) % 2
  (2 * s + f) % 65536

/-- A seed of 0 acts as 1 (R511). -/
def lfsrSeed (v : Nat) : Nat := if v % 65536 = 0 then 1 else v % 65536

/-! ### Register fields -/

/-- The table key of instance `i` of a field. -/
def Fld.key (f : Fld) (i : Nat) : Nat := (f.off + i * f.st) * 32 + f.lo

/-- The same field `n` bits up (a replicated field of one word). -/
def Fld.up (f : Fld) (n : Nat) : Fld := { f with lo := f.lo + n }

/-- The same field `n` bytes on (a replicated word inside one instance). -/
def Fld.on (f : Fld) (n : Nat) : Fld := { f with off := f.off + n }

/-- What an unlisted field reads as: its reset value. -/
def keyReset (k : Nat) : Nat := fieldReset (k / 32 % 0x100000) (k % 32)

/-- The value of instance `i` of a field. -/
def getF (s : State) (f : Fld) (i : Nat := 0) : Nat := smGet (keyReset (f.key i)) s.regs (f.key i)

/-- Write instance `i` of a field. -/
def setF (f : Fld) (v : Nat) (s : State) (i : Nat := 0) : State :=
  { s with regs := smPut (keyReset (f.key i)) s.regs (f.key i) (v % 2 ^ f.w) }

/-- A one-bit field as a truth value. -/
def flag (s : State) (f : Fld) (i : Nat := 0) : Bool := getF s f i == 1

def setFlag (f : Fld) (b : Bool) (s : State) (i : Nat := 0) : State := setF f (b2n b) s i

/-- A field read as two's complement. -/
def getS (s : State) (f : Fld) (i : Nat := 0) : Int := sx f.w (getF s f i)

/-- A value over two fields, `lo` the low 32 bits. -/
def getW (s : State) (lo hi : Fld) (i : Nat := 0) : Nat := getF s lo i + getF s hi i * 2 ^ 32

/-- The same, as two's complement. -/
def getWS (s : State) (lo hi : Fld) (i : Nat := 0) : Int := sx (32 + hi.w) (getW s lo hi i)

/-- Write a signed value over two fields. -/
def setWS (lo hi : Fld) (x : Int) (s : State) (i : Nat := 0) : State :=
  let u := toU (32 + hi.w) x
  setF hi (u / 2 ^ 32) (setF lo u s i) i

/-- A wrapping counter field goes up by `n`. -/
def bump (f : Fld) (s : State) (i : Nat := 0) (n : Nat := 1) : State := setF f (getF s f i + n) s i

/-- A field whose value 0 acts as `d`. -/
def zeroAs (d v : Nat) : Nat := if v = 0 then d else v

/-! ### The Last (R41) -/

/-- Units of 2^-32 ns in one second. -/
def secUnits : Int := 1000000000 * 4294967296

/-- The Last as a number of 2^-32 ns, without its residue. -/
def Last.units (l : Last) : Int := ((l.sec * 1000000000 + l.ns) * 4294967296 + l.frac : Nat)

/-- The Last at `u` units of 2^-32 ns, seconds modulo 2^48. -/
def Last.ofUnits (u : Int) (res : Nat) : Last :=
  let n := (u % (281474976710656 * secUnits)).toNat
  { sec := n / 4294967296 / 1000000000, ns := n / 4294967296 % 1000000000, frac := n % 4294967296, res := res }

/-- The present Last in 2^-32 ns. -/
def now (s : State) : Int := s.tim.last.units

/-- The Last in fifths of 2^-32 ns, of which one cycle has a whole number (R42). -/
def Last.fifths (l : Last) : Int := l.units * 5 + l.res

/-- One Last cycle, 1.6 ns, in fifths of 2^-32 ns. -/
def cycle5 : Int := 34359738368

/-- The Last cycle `k` cycles ago lies before the latest step. -/
def beforeStep (s : State) (k : Nat) : Bool := match s.tim.stepCyc with | some c => decide (s.tim.cyc < c + k) | none => false

/-- The Last at the cycle `k` cycles ago, in fifths of 2^-32 ns (R42, R49). -/
def lastAgo (s : State) (k : Nat) : Int :=
  if beforeStep s k then s.tim.stepPre - ((k : Int) - (s.tim.cyc - s.tim.stepCyc.getD 0 : Nat)) * cycle5 else s.tim.last.fifths - k * cycle5

/-- The step count in force `k` cycles ago (R99). -/
def countAgo (s : State) (k : Nat) : Nat := if beforeStep s k then (s.tim.stepCount + 2 ^ 32 - 1) % 2 ^ 32 else s.tim.stepCount

/-- The present Last in whole ns. -/
def nowNs (s : State) : Int := (s.tim.last.sec * 1000000000 + s.tim.last.ns : Nat)

/-- A time of R14: seconds, nanoseconds, fraction in 2^-16 ns. -/
structure T96 where
  sec : Nat
  ns : Nat
  frac : Nat
  deriving DecidableEq, Repr

/-- A written time in 2^-32 ns: the fraction is extended with zeros (R17). -/
def T96.units (t : T96) : Int := ((t.sec * 1000000000 + t.ns) * 4294967296 + t.frac * 65536 : Nat)

/-- A Last value reported in the 96-bit format: rounded to 2^-16 ns, ties up, carries propagated (R17). -/
def T96.ofUnits (u : Int) : T96 :=
  let l := Last.ofUnits (rdiv u 65536 * 65536) 0
  { sec := l.sec, ns := l.ns, frac := l.frac / 65536 }

/-- The signed 96-bit offset format (R56) of `x` in 2^-16 ns: the seconds are two's complement. -/
def T96.ofOffset (x : Int) : T96 :=
  let ns := x / 65536
  { sec := toU 48 (ns / 1000000000), ns := (ns % 1000000000).toNat, frac := (x % 65536).toNat }

/-- The three words of a 96-bit time. -/
def T96.word (t : T96) (k : Nat) : Nat :=
  match k with
  | 0 => t.ns
  | 1 => t.sec % 2 ^ 32
  | _ => t.sec / 2 ^ 32 % 65536 + t.frac % 65536 * 65536

/-- A 96-bit time from its three words. -/
def T96.ofWords (w0 w1 w2 : Nat) : T96 := { sec := w1 % 2 ^ 32 + w2 % 65536 * 2 ^ 32, ns := w0, frac := w2 / 65536 % 65536 }

/-- The 96-bit time held in the fields at word offset `off` of a register with instance stride `st`. -/
def getT96 (s : State) (off st : Nat) (i : Nat := 0) : T96 :=
  { sec := getF s ⟨off + 4, 0, 32, st⟩ i + getF s ⟨off + 8, 0, 16, st⟩ i * 2 ^ 32
    ns := getF s ⟨off, 0, 32, st⟩ i
    frac := getF s ⟨off + 8, 16, 16, st⟩ i }

/-- Write a 96-bit time into the fields at word offset `off`. -/
def setT96 (off st : Nat) (t : T96) (s : State) (i : Nat := 0) : State :=
  setF ⟨off + 8, 16, 16, st⟩ t.frac
    (setF ⟨off + 8, 0, 16, st⟩ (t.sec / 2 ^ 32)
      (setF ⟨off + 4, 0, 32, st⟩ t.sec (setF ⟨off, 0, 32, st⟩ t.ns s i) i) i) i

/-- A rational period (R70): numerator in ns over a denominator. -/
structure Period where
  num : Nat
  den : Nat
  deriving DecidableEq, Repr

/-- The test of R70. -/
def Period.ok (p : Period) : Bool := p.den ≠ 0 && p.den ≤ p.num

/-- The period held in the fields at word offset `off`. -/
def getPeriod (s : State) (off st : Nat) (i : Nat := 0) : Period :=
  { num := getF s ⟨off, 0, 32, st⟩ i + getF s ⟨off + 4, 0, 16, st⟩ i * 2 ^ 32, den := getF s ⟨off + 8, 0, 24, st⟩ i }

/-- Write a period into the fields at word offset `off`. -/
def setPeriod (off st : Nat) (p : Period) (s : State) (i : Nat := 0) : State :=
  setF ⟨off + 8, 0, 24, st⟩ p.den (setF ⟨off + 4, 0, 16, st⟩ (p.num / 2 ^ 32) (setF ⟨off, 0, 32, st⟩ p.num s i) i) i

/-- An instant of a periodic schedule (R71): index, whole units of 2^-32 ns, and the remainder over the denominator. -/
structure Instant where
  k : Int
  at32 : Int
  acc : Int
  deriving DecidableEq, Repr

/-- Instant `k` of the schedule from origin `e` (R71): exact, remainder carried. -/
def Period.instant (p : Period) (e k : Int) : Instant :=
  let x := k * (p.num * 4294967296)
  { k := k, at32 := e + x / p.den, acc := x % p.den }

/-- The first Last value, in 2^-32 ns, that is not before the exact instant. -/
def Instant.up (i : Instant) : Int := if i.acc > 0 then i.at32 + 1 else i.at32

/-- The first index whose instant is not before `t` (R71). -/
def Period.firstIndex (p : Period) (e t : Int) : Int :=
  let num : Int := p.num * 4294967296
  ((t - e) * p.den + num - 1) / num

/-- The next instant of the schedule (R71): `q` units on, the remainder accumulated. -/
def Period.next (p : Period) (i : Instant) : Instant :=
  let num : Int := p.num * 4294967296
  let a := i.acc + num % p.den
  if a ≥ p.den then ⟨i.k + 1, i.at32 + num / p.den + 1, a - p.den⟩ else ⟨i.k + 1, i.at32 + num / p.den, a⟩

/-! ### Islands (R18) -/

def islSAFE : Nat := 0
def islTIME : Nat := 1
def islSYN : Nat := 2
def islTDC : Nat := 3
def islMCU : Nat := 4
def islHOST : Nat := 5
def islPIPE (k : Nat) : Nat := 6 + k
def islBUF : Nat := 10
def islEGR : Nat := 11
def islRED : Nat := 12
def islLANE (q : Nat) : Nat := 16 + q

/-- Out of reset. -/
def islReleased (s : State) (i : Nat) : Bool := bitOf (getF s R.RST_ISL_RELEASED_ISLAND) i
/-- Clock-valid of R19. -/
def islClkValid (s : State) (i : Nat) : Bool := bitOf (getF s R.RST_ISL_CLKVALID_ISLAND) i
/-- Fenced (R461). -/
def islFenced (s : State) (i : Nat) : Bool := bitOf (getF s R.RST_ISL_FENCED_ISLAND) i
/-- Quarantined (R401). -/
def islQuar (s : State) (i : Nat) : Bool := bitOf (getF s R.RST_ISL_QUAR_ISLAND) i

/-- Registers and crossings of the island are reachable: SAFE always is; another island is when it is released, has
clock-valid, and is neither fenced nor quarantined (R24, R28, R461). -/
def islUp (s : State) (i : Nat) : Bool :=
  i == islSAFE || (islReleased s i && islClkValid s i && !islFenced s i && !islQuar s i)

/-- The crossing from `a` to `b` is up (R24). -/
def crossUp (s : State) (a b : Nat) : Bool := (smGet Xing.down s.xings (a * 32 + b)).up

/-! ### Grade (R2 to R5) -/

def lanesHi (s : State) : Bool := flag s R.GLB_CAP_LANES_HI
def domainB (s : State) : Bool := flag s R.GLB_CAP_DOMAIN_B
def hasReseq (s : State) : Bool := flag s R.GLB_CAP_FRER_RESEQ
def hasOcxo (s : State) : Bool := flag s R.GLB_CAP_OCXO
def hasCnt8 (s : State) : Bool := flag s R.GLB_CAP_CNT8
/-- The grade is -ED, or the safe defaults that report its set. -/
def isED (s : State) : Bool := getF s R.GLB_CAP_GRADE == 2

/-- Front port, lane or output `p` is present: 0 to 31 always, 32 to 63 with LANES_HI. -/
def frontPresent (s : State) (p : Nat) : Bool := p < 32 || (p < 64 && lanesHi s)

/-- Port `p` is present, P64 and P65 included. -/
def portPresent (s : State) (p : Nat) : Bool := frontPresent s p || p == 64 || p == 65

/-! ### Last copies (R34) -/

/-- The islands with a Last copy (R23). -/
def copyIslands : List Nat := [islMCU, islHOST, islPIPE 0, islPIPE 1, islPIPE 2, islPIPE 3, islBUF, islEGR, islRED]

def lastCopy (s : State) (i : Nat) : LastCopy := smGet LastCopy.reset s.tim.copies i

def setCopy (i : Nat) (c : LastCopy) (s : State) : State := { s with tim := { s.tim with copies := smPut LastCopy.reset s.tim.copies i c } }

/-- The Last copy of island `i` in 2^-32 ns: within ±1.6 ns of the Last while its crossing is up; it stands while no words arrive
(R34, notes/assumptions/144.md). -/
def copyNow (s : State) (i : Nat) : Int :=
  match (lastCopy s i).held with
  | some v => v
  | none => now s + (lastCopy s i).err

/-! ### Events and faults (R465, R466, R467) -/

/-- The number of the first source of an event register (R466). -/
def evBase (off : Nat) : Nat :=
  match off with
  | 0x20010 => 0
  | 0x20014 => 16
  | 0x40008 => 24
  | 0x50108 => 33
  | 0x6000C => 39
  | 0x60124 => 44
  | 0x70010 => 51
  | 0x7102C => 54
  | 0x72014 => 58
  | 0x80014 => 67
  | 0x80818 => 74
  | 0x80C08 => 79
  | 0x90008 => 83
  | 0x91014 => 91
  | 0xA0008 => 96
  | 0xA0418 => 99
  | 0xB000C => 109
  | 0xC001C => 118
  | 0xC0108 => 120
  | 0xD0104 => 123
  | 0xE000C => 131
  | 0xE011C => 131
  | 0x3000C => 138
  | 0x3012C => 145
  | 0x10008 => 150
  | 0x38004 => 160
  | 0xF0828 => 166
  | 0xF0008 => 170
  | _ => 319

/-- The source number of an event bit. -/
def Fld.src (f : Fld) : Nat := evBase f.off + f.lo

/-- Set instance `i` of an event bit; on a transition from 0 to 1, queue the event for its EVENT record with INSTANCE
`inst` and DETAIL `detail` (R465). The bit is 1 afterwards whatever software did in the cycle (R11). -/
def raiseAt (f : Fld) (i inst detail : Nat) (s : State) : State :=
  if flag s f i then s
  else
    let s' := setF f 1 s i
    { s' with flt := { s'.flt with events :=
        s'.flt.events ++ [⟨f.src, inst, detail, flag s' R.FLT_SRC_CFG_LOG f.src, copyNow s' islHOST⟩] } }

/-- Raise an event whose INSTANCE is the register instance (0 where the register has one). -/
def raise (f : Fld) (s : State) (inst : Nat := 0) (detail : Nat := 0) : State := raiseAt f inst inst detail s

/-- Raise a fault of R467: its event bit, and the signal that SAFE collects (R453). -/
def raiseFault (f : Fld) (isl inst detail raiser : Nat) (s : State) : State :=
  let s' := raiseAt f 0 inst detail s
  { s' with flt := { s'.flt with faults := s'.flt.faults ++ [⟨f.src, isl, inst, detail, raiser⟩] } }

/-- The event bit of fault source `b` of FLT_FAULT_EVENT (R467). -/
def faultBit (b : Nat) : Fld := R.FLT_FAULT_EVENT_FAULT.up b

/-! ### Calibration temperatures (R479, R482) -/

/-- The canary site of lane `n`. -/
def canSite (n : Nat) : Nat := if n < 32 then 6 else 7

/-- The latest temperature of a site, in 1/16 °C. -/
def siteTemp (s : State) (site : Nat) : Int := getS s R.MON_CAN_VAL_VALUE (4 * site + 2)

/-- Note the temperature of a site and the Last at a calibration, or at a table, for the margin plan. -/
def noteTemp (key site : Nat) (s : State) : State :=
  { s with mon := { s.mon with calTemp := smPut 0 s.mon.calTemp key (siteTemp s site), calAt := smPut 0 s.mon.calAt key (now s) } }

/-! ### JTAG (R508) -/

/-- An instruction is in force under which the device forwards no frames and has no valid timing output. -/
def jtagHolds (s : State) : Bool := [Jtag.extest, .extestPulse, .extestTrain, .clamp, .highz].contains s.sys.jtag

/-! ### Free values and outputs -/

/-- Take the next free value: a value the spec does not state (notes/assumptions/3.md). -/
def drawInt (s : State) : Int × State := (Config.freeInt s.fresh, { s with fresh := s.fresh + 1 })

/-- A free value of magnitude at most `b`. -/
def drawWithin (b : Nat) (s : State) : Int × State :=
  let (v, s) := drawInt s
  (v % (2 * b + 1 : Nat) - b, s)

/-! ### Last copies: start and stop (R34) -/

/-- The crossing from TIME to island `i` is up: its copy runs, with an error that the spec does not state. -/
def copyStart (i : Nat) (s : State) : State :=
  let (e, s) := drawWithin 6871947673 s
  setCopy i ⟨e, none⟩ s

/-- The crossing from TIME to island `i` falls: its copy stands. -/
def copyStop (i : Nat) (s : State) : State := setCopy i ⟨(lastCopy s i).err, some (copyNow s i)⟩ s

/-- Add an output of this step. -/
def emit (o : Output) (s : State) : State := { s with outs := s.outs ++ [o] }

/-- The start of every meaning: the outputs of the step before are gone. -/
def State.begin (s : State) : State := { s with outs := [] }

/-- A conditional effect. -/
def whenS (b : Bool) (f : State → State) (s : State) : State := if b then f s else s

/-- The outcome of a command that runs: a next state. -/
def ran (s : State) : Host.Outcome State Fault Refusal := .next s

end Sys2Proof.Machine
end

