-- ==== Sys2Proof/Machine/Gate.lean ====
section
/-!
DEFINITION. Sys2Proof/Machine/Gate.lean: the register access path of BAR0 up to the owning island: selection (R13, R382,
R383), the owning island (R513), absence by grade (R5), unmapped offsets (R8, R488), islands that are down (R28), and the
write staging of multi-word registers (R15).
-/
namespace Sys2Proof.Machine

/-- The number of a requester, in the order of R490. -/
def reqIdx : Requester → Nat
  | .mcu => 0
  | .pcie => 1
  | .i2c => 2

/-- The block number of an offset: its 64 KiB block (spec/19). -/
def blockOf (off : Nat) : Nat := off / 0x10000

/-- The blocks with a select register at their offset 0 (spec/19). -/
def isWindowed (blk : Nat) : Bool := [3, 5, 6, 0xA, 0xB, 0xC, 0xD, 0xE, 0xF].contains blk

/-- The offset is a select register. -/
def isSel (off : Nat) : Bool := isWindowed (blockOf off) && off % 0x10000 == 0

/-- The offset reaches the instance selected (R489). -/
def perInstance (off : Nat) : Bool :=
  let lo := off % 0x10000
  match blockOf off with
  | 3 => 0x100 ≤ lo && lo < 0x400
  | 0xA => 0x400 ≤ lo
  | 0xF => 0x100 ≤ lo && lo < 0x400
  | b => isWindowed b && 0x100 ≤ lo

/-- How many instances a windowed block has (spec/19). -/
def instCount (blk : Nat) : Nat :=
  match blk with
  | 3 => 32
  | 5 => 64
  | 6 => 128
  | 0xA => 64
  | 0xE => 4096
  | _ => 66

/-- Instance `i` of windowed block `blk` exists in this grade (R2, R5, spec/19). -/
def instPresent (s : State) (blk i : Nat) : Bool :=
  match blk with
  | 3 => i < 32
  | 5 => frontPresent s i
  | 6 => i < 128 && frontPresent s (i % 64) && (i < 64 || domainB s)
  | 0xA => frontPresent s i
  | 0xE => i < 4096
  | _ => portPresent s i

/-- Registers outside the windows that the grade lacks: domain B, the welt and the timed switch, candidate PTP-B, the
OCXO registers, quads 8 to 15, programmable counters 4 to 7 (R2, R5, R59, R142, R171). -/
def gradeAbsent (s : State) (off : Nat) : Bool :=
  let r (a b : Nat) : Bool := a ≤ off && off ≤ b
  (!domainB s && (r 0x40060 0x4006B || r 0x40180 0x401A7 || r 0x40200 0x40227 || r 0x60024 0x60027 || r 0x60034 0x60037
      || r 0x71240 0x7126F))
  || (!hasOcxo s && (r 0x70020 0x70027 || r 0x80008 0x8000B))
  || (!lanesHi s && r 0xA0180 0xA01FF)
  || (!hasCnt8 s && (r 0xF0130 0xF014F || r 0xF0170 0xF018F))

/-- The owning island of a register (R513); `i` is the instance of a windowed register. -/
def ownerOf (off i : Nat) : Nat :=
  let lo := off % 0x10000
  match blockOf off with
  | 0 | 1 | 2 => islSAFE
  | 3 => islHOST
  | 4 | 6 | 7 => islTIME
  | 5 => if lo < 0x100 then islTIME else islLANE (i / 4)
  | 8 => islSYN
  | 9 => islTDC
  | 0xA => if lo < 0x100 then islHOST else if lo < 0x400 then islLANE ((lo - 0x100) / 0x10 % 16) else islLANE (i / 4)
  | 0xB => if lo < 0x100 then islPIPE 0 else if i < 64 then islPIPE (i / 16) else islPIPE 0
  | 0xC => islBUF
  | 0xD => islEGR
  | 0xE => islRED
  | 0xF =>
    if lo < 0x800 then islBUF
    else if lo == 0x928 || (0x940 ≤ lo && lo < 0x980) then islMCU else islSAFE
  | _ => islSAFE

/-- What meets an access on its way (R5, R8, R28, R29): `lost` is an island in service whose register crossing is down, or
whose clock has stopped, so that it never answers. -/
inductive Gate where
  | pass
  | unmapped
  | absent
  | down (isl : Nat)
  | lost (isl : Nat)
  deriving DecidableEq, Repr

/-- What meets a request of HOST to island `i` (R24, R28, R29). SAFE is always reached; HOST needs no crossing to itself. While
HOST is down nothing leaves it (notes/assumptions/143.md). -/
def islGate (s : State) (i : Nat) : Gate :=
  if i = islSAFE then .pass
  else if !islUp s islHOST then .down islHOST
  else if !islReleased s i || islFenced s i || islQuar s i then .down i
  else if i ≠ islHOST ∧ (!islClkValid s i || !crossUp s islHOST i) then .lost i
  else .pass

/-- The gate of an access to `off` at instance `i`. Absence by grade is tested before the island's state
(notes/assumptions/5.md). -/
def gateOf (s : State) (off i : Nat) : Gate :=
  if (regRow off).isNone then .unmapped
  else if gradeAbsent s off || (perInstance off && !instPresent s (blockOf off) i) then .absent
  else islGate s (ownerOf off i)

/-- CROSSING_HANG of the crossing from `a` to `b` (R26, R29, R467): the fault names both islands. -/
def hangFault (a b : Nat) (s : State) : State := raiseFault (faultBit 6) b a 0 a s

/-- The event of an access that does not reach its register. -/
def gateEvent (g : Gate) (off : Nat) (isWrite : Bool) (s : State) : State :=
  match g with
  | .pass => s
  | .unmapped => if isWrite then raise R.FLT_GEN_EVENT_REG_ACCESS_UNMAPPED s 0 off else s
  | .absent => if isWrite then raise R.FLT_GEN_EVENT_GRADE_ABSENT_WRITE s else s
  | .down isl => raise R.FLT_GEN_EVENT_REG_ISLAND_DOWN s isl off
  | .lost isl => hangFault islHOST isl s

/-- The key of a requester's own copy of a word. -/
def reqKey (req : Requester) (off : Nat) : Nat := reqIdx req * 0x100000 + off

/-- A requester's select register of the block of `off`. -/
def selWord (s : State) (req : Requester) (off : Nat) : Nat := smGet 0 s.sels (reqKey req (blockOf off * 0x10000))

def selIndex (w : Nat) : Nat := w % 65536
def selBcast (w : Nat) : Bool := bitOf w 31

/-- Gate and MAC merge registers: P64 and P65 have none (spec/11). -/
def gateWord (off : Nat) : Bool := 0xD0110 ≤ off && off < 0xD0178

/-- The instances a write of the requester goes to (R382): all that have the register under BCAST, else the selected one; 0 where
the register is not windowed. -/
def targets (s : State) (req : Requester) (off : Nat) : List Nat :=
  if perInstance off then
    let w := selWord s req off
    if selBcast w then (List.range (instCount (blockOf off))).filter fun i => instPresent s (blockOf off) i && !(gateWord off && i ≥ 64)
    else [selIndex w]
  else [0]

/-- A write access: the effect at each instance it reaches, or the event of what stops it. -/
def writeAt (req : Requester) (off : Nat) (eff : Nat → State → State) (s : State) : State :=
  (targets s req off).foldl (fun s i =>
    match gateOf s off i with
    | .pass => eff i s
    | g => gateEvent g off true s) s

/-- The key of a staged word: each requester has its own for each instance of a register (notes/assumptions/29.md). -/
def instKey (req : Requester) (off i : Nat) : Nat := reqKey req off + i * 0x400000

/-- The value a requester last wrote to a staged word of instance `i` (R15, R383). -/
def stagedWord (s : State) (req : Requester) (off : Nat) (i : Nat := 0) : Nat := smGet 0 s.staged (instKey req off i)

/-- Stage a word. -/
def stageWord (req : Requester) (off val : Nat) (s : State) (i : Nat := 0) : State :=
  { s with staged := smPut 0 s.staged (instKey req off i) (val % 2 ^ 32) }

/-- The 96-bit time whose words +0x0 and +0x4 the requester staged and whose word +0x8 it writes now. -/
def stagedT96 (s : State) (req : Requester) (off hi : Nat) (i : Nat := 0) : T96 :=
  T96.ofWords (stagedWord s req off i) (stagedWord s req (off + 4) i) hi

/-- A 96-bit write (R15, R16): rejected with TIME_FORMAT when its nanoseconds exceed 999,999,999. `off` is word +0x0. -/
def timeWrite (req : Requester) (off hi : Nat) (eff : T96 → Nat → State → State) (s : State) : State :=
  writeAt req (off + 8) (fun i s =>
    let t := stagedT96 s req off hi i
    if t.ns > 999999999 then raise R.FLT_GEN_EVENT_TIME_FORMAT s 0 (off + 8) else eff t i s) s

/-- A signed 64-bit amount whose low word the requester staged. -/
def stagedS64 (s : State) (req : Requester) (off hi : Nat) : Int := sx 64 (stagedWord s req off + hi % 2 ^ 32 * 2 ^ 32)

end Sys2Proof.Machine
end

