-- ==== Sys2Proof/Machine/Words.lean ====
section
/-!
DEFINITION. Sys2Proof/Machine/Words.lean: whole register words: reading one, writing the fields software may write, copying one
into another (pending twins, R12).
-/
namespace Sys2Proof.Machine

/-- The stride of the word at `off` between window instances. -/
def winStride (off : Nat) : Nat := if perInstance off then 0x100000 else 0

/-- The field of row entry `r` in the word at `off`. -/
def rowFld (off : Nat) (r : FRow) : Fld := ⟨off, r.lo, r.w, winStride off⟩

def rowFields (off : Nat) : List FRow := match regRow off with | some r => r.fields | none => []

/-- The stored fields of a word, put together. -/
def wordOf (s : State) (off : Nat) (i : Nat := 0) : Nat :=
  (rowFields off).foldl (fun a r => a + getF s (rowFld off r) i * 2 ^ r.lo) 0

/-- Store every field of a word. -/
def putWord (off v : Nat) (s : State) (i : Nat := 0) : State :=
  (rowFields off).foldl (fun s r => setF (rowFld off r) (bitsOf v r.lo r.w) s i) s

/-- What software reads of a word's stored fields: a write-only field reads 0 (R10). -/
def readFields (s : State) (off : Nat) (i : Nat) : Nat :=
  (rowFields off).foldl (fun a r => if r.acc = .wo then a else a + getF s (rowFld off r) i * 2 ^ r.lo) 0

/-- A software write of a word by the access types of R10: RW and RWS take the value, W1C bits written 1 clear, the rest keeps. -/
def softWord (off v : Nat) (s : State) (i : Nat := 0) : State :=
  (rowFields off).foldl (fun s r =>
    let f := rowFld off r
    match r.acc with
    | .rw => setF f (bitsOf v r.lo r.w) s i
    | .rws => setF f (bitsOf v r.lo r.w) s i
    | .w1c => setF f (Nat.land (getF s f i) (Nat.xor (bitsOf v r.lo r.w) (2 ^ r.w - 1))) s i
    | .ro => s
    | .wo => s) s

/-- The instance that a requester's read reaches (R382). -/
def readInst (s : State) (req : Requester) (off : Nat) : Nat := if perInstance off then selIndex (selWord s req off) else 0

/-- A read access: the value and the effect of the read at the instance it reaches; 0 and the event of what stops it (R5, R8, R28). -/
def readWith (req : Requester) (off : Nat) (f : Nat → State → Nat × State) (s : State) : State :=
  let i := readInst s req off
  match gateOf s off i with
  | .pass => let (v, t) := f i s; emit (.readData req off v) t
  | g => emit (.readData req off 0) (gateEvent g off false s)

/-- Does software write any field of the word? -/
def hasWritable (off : Nat) : Bool := (rowFields off).any fun r => r.acc == .rw || r.acc == .rws

end Sys2Proof.Machine
end

