-- ==== Sys2Proof/Machine/EccOps.lean ====
section
/-!
DEFINITION. Sys2Proof/Machine/EccOps.lean: stored words that hold an error, reads that meet them, and the injection (spec/16).
The words are those of R438, those of the packet buffer as bank * 65,536 + address, those of memory 1 by cell, those of memory 9 as
16 * context + word, and memory 2 by the place of the copy in the queues (notes/assumptions/27.md).
-/
namespace Sys2Proof.Machine

/-- A register of MON that reports one memory: its instances are the memories of R438. -/
def eccF (f : Fld) : Fld := { f with st := 0x100000 }

/-- Words and banks of a memory (R438). -/
def memWords (m : Nat) : Nat :=
  [65536, 262144, 262144, 131072, 32768, 4096, 4096, 2048, 32768, 262144, 16384, 33792, 8452, 4096, 1536, 76800, 172032, 262144, 32768].getD m 0
def memBanks (m : Nat) : Nat := if m = 0 then 32 else 1

/-- The island that owns a memory, for faults. -/
def memIsland (m : Nat) : Nat :=
  if m ≤ 2 then islBUF else if m ≤ 10 then islPIPE 0 else if m ≤ 12 then islEGR else if m = 13 then islRED else if m = 14 then islTIME
  else if m = 15 then islTDC else if m = 16 then islHOST else islMCU

/-- MON_ECC_ADDR of a memory: an uncorrectable error is not replaced by a correctable one. -/
def latchAddr (m : Nat) (ue scrub : Bool) (bank word : Nat) (s : State) : State :=
  if !ue && flag s (eccF R.MON_ECC_ADDR_VALID) m && flag s (eccF R.MON_ECC_ADDR_UE) m then s
  else
    let s := setFlag (eccF R.MON_ECC_ADDR_UE) ue (setFlag (eccF R.MON_ECC_ADDR_SCRUB) scrub s m) m
    setF (eccF R.MON_ECC_ADDR_VALID) 1 (setF (eccF R.MON_ECC_ADDR_BANK) (if m = 0 then bank else 0)
      (setF (eccF R.MON_ECC_ADDR_WORD) word s m) m) m

/-- A corrected read (R440, R447): MEM_CE at most once in a millisecond of SAFE's count. -/
def correctedRead (m bank word : Nat) (scrub : Bool) (s : State) : State :=
  let s := bump (eccF R.MON_ECC_CE_COUNT) (latchAddr m false scrub bank word s) m
  let s := setF R.MON_ECC_CE_MAP_MEM (putBit (getF s R.MON_ECC_CE_MAP_MEM) m true) s
  let ms := s.sys.us / 1000 + 1
  if smGet 0 s.sys.ceMs m = ms then s
  else raiseAt R.MON_ECC_EVENT_MEM_CE 0 m 0 { s with sys := { s.sys with ceMs := smPut 0 s.sys.ceMs m ms } }

/-- An uncorrectable read (R441, R467). -/
def uncorrectable (m bank word : Nat) (scrub : Bool) (s : State) : State :=
  let s := bump (eccF R.MON_ECC_UE_COUNT) (latchAddr m true scrub bank word s) m
  let s := setF R.MON_ECC_UE_MAP_MEM (putBit (getF s R.MON_ECC_UE_MAP_MEM) m true) s
  let detail := bank * 2 ^ 24 + word
  if m = 0 then raiseAt (faultBit 9) 0 0 detail s
  else if m ≤ 16 then raiseFault (faultBit 7) (memIsland m) m detail (memIsland m) s
  else if m = 17 then raiseFault (faultBit 4) islMCU 17 word islMCU s
  else s

/-! ### Errors in stored words -/

/-- The error that word `w` of memory `m` holds: 0 none, 1 single-bit, 2 uncorrectable. -/
def eccOf (s : State) (m w : Nat) : Nat := smGet 0 s.mon.ecc (m + 32 * w)

def setEcc (m w v : Nat) (s : State) : State := { s with mon := { s.mon with ecc := smPut 0 s.mon.ecc (m + 32 * w) v } }

/-- The word cannot be read (R438). -/
def eccDead (s : State) (m w : Nat) : Bool := eccOf s m w == 2

/-- The bank and the word that key `w` of memory `m` names. -/
def eccBank (m w : Nat) : Nat := if m = 0 then w / 65536 else 0
def eccAddr (m w : Nat) : Nat := if m = 0 then w % 65536 else w

/-- A read of a word: whether it delivers data, and what it counts (R440, R441). -/
def eccRead (m w : Nat) (s : State) : Bool × State :=
  match eccOf s m w with
  | 0 => (true, s)
  | 1 => (true, correctedRead m (eccBank m w) (eccAddr m w) false s)
  | _ => (false, uncorrectable m (eccBank m w) (eccAddr m w) false s)

/-- A full write of a word: it repairs the word (R440, R441), and takes an armed injection (R448). -/
def fullWrite (m w : Nat) (s : State) : State :=
  let s := setEcc m w 0 s
  if flag s R.MON_ECC_INJECT_ARM && getF s R.MON_ECC_INJECT_MEM == m && m < 18 then
    let v := if getF s R.MON_ECC_INJECT_BITS = 2 then 2 else 1
    raiseAt R.MON_ECC_EVENT_INJECT_DONE 0 m 0 (setF R.MON_ECC_INJECT_ARM 0 (setEcc m w v s))
  else s

/-- The words of memory `m` from `a` to `a + n - 1` that hold an error. -/
def eccRange (s : State) (m a n : Nat) : List Nat :=
  s.mon.ecc.filterMap fun e => if e.1 % 32 = m ∧ a ≤ e.1 / 32 ∧ e.1 / 32 < a + n then some (e.1 / 32) else none

/-- A read of `n` words from `a`: whether all of them deliver data. -/
def eccReadAll (m a n : Nat) (s : State) : Bool × State :=
  (eccRange s m a n).foldl (fun x w => let (ok, s) := eccRead m w x.2; (x.1 && ok, s)) (true, s)

/-- `n` words from `a` are written whole. -/
def eccRepair (m a n : Nat) (s : State) : State := (eccRange s m a n).foldl (fun s w => setEcc m w 0 s) s

def fullWriteAll (m a n : Nat) (s : State) : State := fullWrite m a (eccRepair m a n s)

/-- A write of part of a word (R443): a single-bit error is repaired and counts as a corrected read; beside an uncorrectable one the
write is not done. -/
def narrowWrite (m w : Nat) (s : State) : Bool × State :=
  let (ok, t) := eccRead m w s
  (ok, if eccOf s m w = 1 then setEcc m w 0 t else t)

/-- A free place among the first ones, those of `used` taken. -/
def freePlace (used : List Nat) : Nat := ((List.range (used.length + 1)).find? fun k => !used.contains k).getD 0

/-- The words of the memories that `p` names hold no error any more: a reset has written them (R449). -/
def eccClear (p : Nat → Bool) (s : State) : State :=
  { s with mon := { s.mon with ecc := s.mon.ecc.filter fun e => !p (e.1 % 32) } }

/-- What MON_ECC_INJECT arms: a MEM above 17 disarms (R448). -/
def injectSettle (s : State) : State := whenS (getF s R.MON_ECC_INJECT_MEM > 17) (setF R.MON_ECC_INJECT_ARM 0) s

/-- Cells behind an unreadable link are withheld (R442). -/
def withhold (n : Nat) (s : State) : State :=
  if n = 0 then s
  else raiseAt R.MON_ECC_EVENT_CELL_WITHHELD 0 1 n (setF R.MON_ECC_WITHHELD_CELLS (satN 0x7FFFF (getF s R.MON_ECC_WITHHELD_CELLS + n)) s)

end Sys2Proof.Machine
end

