-- ==== Sys2Proof/Machine/TdcRoles.lean ====
section
/-!
DEFINITION. Sys2Proof/Machine/TdcRoles.lean: the channels of the TDC by their configuration: what they measure and whom they serve
(spec/07 R199 to R203, R212).
-/
namespace Sys2Proof.Machine

def tdcUp (s : State) : Bool := islUp s islTDC

def tdcCh (s : State) (n : Nat) : TdcCh := smGet TdcCh.reset s.tdc.chs n
def setTdcCh (n : Nat) (x : TdcCh) (s : State) : State := { s with tdc := { s.tdc with chs := smPut TdcCh.reset s.tdc.chs n x } }

/-- CHS. -/
def CHS : Nat := 24

/-! ### Roles (R201, R212) -/

def chMode (s : State) (n : Nat) : Nat := getF s R.TDC_CH_CFG_MODE n
def chSrc (s : State) (n : Nat) : Nat := getF s R.TDC_CH_CFG_SRC n

/-- Channel `n` is the start channel of an INTERVAL pair. -/
def isStart (s : State) (n : Nat) : Bool := n % 2 == 0 && chMode s n == 1 && flag s R.TDC_CH_CFG_ENA n

/-- Channel `n` serves as the stop channel of the pair before it. -/
def isStop (s : State) (n : Nat) : Bool := n % 2 == 1 && isStart s (n - 1)

/-- MODE as it acts: INTERVAL on an odd channel acts as EDGE. -/
def actMode (s : State) (n : Nat) : Nat := if chMode s n = 1 ∧ n % 2 = 1 then 0 else chMode s n

/-- A probe code that selects a source in this grade (R223). -/
def probeOk (s : State) (c : Nat) : Bool :=
  if c < 0x80 then frontPresent s (c % 0x40)
  else if c < 0x90 then frontPresent s (4 * (c - 0x80))
  else c < 0x9C || c == 0xA0 || c == 0xA1

/-- The source is one of R199; a probe multiplexer is one while its code selects a probe point (R223). -/
def srcOk (s : State) (n : Nat) : Bool :=
  let c := chSrc s n
  c < 0x1C || (c == 0x20 && probeOk s (getF s R.TDC_PROBE_SEL_SEL_A)) || (c == 0x21 && probeOk s (getF s R.TDC_PROBE_SEL_SEL_B))

/-- Channel `n` measures: enabled by its own configuration, or by that of the pair it stops. -/
def chActive (s : State) (n : Nat) : Bool :=
  flag s R.TDC_GCFG_ENA && srcOk s n && (isStop s n || (flag s R.TDC_CH_CFG_ENA n && chMode s n ≠ 3))

/-- The lowest-numbered enabled EDGE channel with source `c` (R201). -/
def serving (s : State) (c : Nat) : Option Nat :=
  (List.range 24).find? fun n => actMode s n == 0 && !isStop s n && flag s R.TDC_CH_CFG_ENA n && chSrc s n == c

/-- The edge divider (R202): MDIV of the candidate where the channel serves one. -/
def chDiv (s : State) (n : Nat) : Nat :=
  let c := chSrc s n
  if c < 8 ∧ serving s c = some n then zeroAs 1 (getF s R.REF_CAND_CFG_MDIV c) else zeroAs 1 (getF s R.TDC_CH_CFG_EDIV n)

/-- The edge is one that EDGE_SEL takes. -/
def edgeTaken (s : State) (n : Nat) (rising : Bool) : Bool :=
  match getF s R.TDC_CH_CFG_EDGE_SEL n with
  | 2 => !rising
  | 3 => true
  | _ => rising

/-- The spare serves channel `n` in place of its own results: steps 3 and 4 of R221. -/
def served (s : State) (n : Nat) : Bool := match s.tdc.spare with | some t => t.ch == n && t.step ≥ 3 | none => false

/-- Channel `n` is interrupted for a refill: it yields no results (R218). -/
def interrupted (s : State) (n : Nat) : Bool := (tdcCh s n).refill == 2 && s.tdc.spare.all (·.ch ≠ n)

/-- The source code of a candidate that takes its samples from the TDC: its REFIN, or the EVTIN of TODPPS (R201). -/
def candSrc (s : State) (c : Nat) : Nat := if c < 8 then c else 8 + getF s R.REF_GCFG_TODPPS_IN

/-- Candidate `c`, a REFIN or TODPPS, gets phase samples: from a channel at work, over the crossing from TDC to TIME (R201, R218, R24). -/
def candFed (s : State) (c : Nat) : Bool :=
  tdcUp s && crossUp s islTDC islTIME
    && (serving s (candSrc s c)).any fun n => chActive s n && !interrupted s n && s.tdc.borrowed ≠ some n

/-- A sampling edge of channel `n`: a TDC_CH_ADJ that has been written takes effect (R12). -/
def takeAdj (n : Nat) (s : State) : State :=
  match smGet none s.tdc.adjs n with
  | some v => setF R.TDC_CH_ADJ_ADJ v { s with tdc := { s.tdc with adjs := smPut none s.tdc.adjs n none } } n
  | none => s

/-- The delay of channel `n` before its delay line, in 2^-16 ns (R208). -/
def chDelay (s : State) (n : Nat) : Int := getS s R.TDC_CH_DELAY_DELAY n + getS s R.TDC_CH_ADJ_ADJ n

/-- A sampling edge of the channel that serves candidate `c`. -/
def adjFor (c : Nat) (s : State) : State := match serving s (candSrc s c) with | some n => takeAdj n s | none => s

/-- The divider of the channel that serves REFIN `c`, and the input's prescaler, start again (R202). -/
def restartDivider (c : Nat) (s : State) : State :=
  let s := { s with tdc := { s.tdc with presc := smPut 0 s.tdc.presc c 0 } }
  match serving s c with
  | some n => setTdcCh n { tdcCh s n with edges := 0 } s
  | none => s

end Sys2Proof.Machine
end

