-- ==== Sys2Proof/Machine/TimOps.lean ====
section
/-!
DEFINITION. Sys2Proof/Machine/TimOps.lean: operations on the Last, its slew and steps, the domains, the welt, and the
switch of domains (spec/02), and the rate word and oscillator correction they rest on (R46, R172).
-/
namespace Sys2Proof.Machine

/-! ### DPLL fields the time scale needs -/

/-- DPLL `d`. -/
def dpll (s : State) (d : Nat) : Dpll := s.ref.dplls.getD d Dpll.reset

def setDpll (d : Nat) (x : Dpll) (s : State) : State := { s with ref := { s.ref with dplls := s.ref.dplls.set d x } }

/-- Candidate `c`. -/
def cand (s : State) (c : Nat) : Cand := s.ref.cands.getD c Cand.reset

def setCand (c : Nat) (x : Cand) (s : State) : State := { s with ref := { s.ref with cands := s.ref.cands.set c x } }

/-- DPLL state codes of R162. -/
def stFREERUN : Nat := 0
def stACQUIRING : Nat := 1
def stLOCKED : Nat := 2
def stHOLDOVER : Nat := 3
def stOPEN : Nat := 4
def stFOLLOWING : Nat := 5

def dpllState (s : State) (d : Nat) : Nat := getF s R.REF_DPLL_STAT_STATE d

/-- A Last interval of one second, one millisecond, one microsecond, one nanosecond, in 2^-32 ns. -/
def unitS : Int := 1000000000 * 4294967296
def unitMs : Int := 1000000 * 4294967296
def unitUs : Int := 1000 * 4294967296
def unitNs : Int := 4294967296

/-- The oscillator correction c_xo (R172) at Last instant `t`, in 2^-48. -/
def cXoAt (s : State) (t : Int) : Int :=
  let corr := getWS s R.REF_XO_CORR_CORR_LO R.REF_XO_CORR_CORR_HI
  let tc := (t - s.ref.xoSince) / unitS
  corr + (getS s R.REF_XO_AGE_AGE * tc) / 4096

/-- The oscillator correction in force. -/
def cXo (s : State) : Int := cXoAt s (now s)

/-- The control value of a DPLL in force (R162): -c_xo in FREERUN, else its own. -/
def dpllW (s : State) (d : Nat) : Int := if dpllState s d = stFREERUN then - cXo s else (dpll s d).w

/-! ### Slews and the rate word -/

/-- SLEW_PPB as it acts: 0 as 1, above 10,000 as 10,000. -/
def slewPpb (s : State) : Nat := satN 10000 (zeroAs 1 (getF s R.TIM_SLEW_CFG_SLEW_PPB))

/-- The slew word s = round(SLEW_PPB * 2^48 / 10^9) (R53). -/
def slewWord (s : State) : Int := rdiv ((slewPpb s : Int) * 281474976710656) 1000000000

/-- w_slew (R46, R53). -/
def wSlew (s : State) : Int := sgn s.tim.slewRem * slewWord s

/-- The limit of the rate word: 100 ppm (R46). -/
def rateLimit : Int := 28147497671

/-- The rate words of the latest cycles as runs of equal words, newest first. -/
def addRun (w : Int) (l : List (Int × Nat)) : List (Int × Nat) :=
  match l with
  | (v, n) :: t => if v = w then (v, n + 1) :: t else ((w, 1) :: l).take 64
  | [] => [(w, 1)]

/-- The sum of the rate words of the latest `n` cycles. -/
def runSum : Nat → List (Int × Nat) → Int
  | _, [] => 0
  | n, (w, k) :: t => if n ≤ k then n * w else k * w + runSum (n - k) t

/-- The rate word before the clamp. -/
def rateSum (s : State) : Int := dpllW s 0 + wSlew s

/-- The rate word w in force (R46). -/
def rateWord (s : State) : Int := clampI (-rateLimit) rateLimit (rateSum s)

/-- The transmit references are off by more than 100 ppm (R240): |w 2^-48 + c_xo| > 10^-4. -/
def txPpmWide (s : State) : Bool := decide ((rateWord s + cXo s).natAbs * 10000 > 281474976710656)

/-- The clamp of R46 acts. -/
def clamped (s : State) : Bool := rateSum s ≠ rateWord s

/-- TX_PPM_WIDE follows the rate word and c_xo; its event raises at the transition to 1 (R240). -/
def wideCheck (s : State) : State :=
  let wide := txPpmWide s
  let s := whenS (wide && !flag s R.LNK_GSTAT_TX_PPM_WIDE) (raise R.LNK_EVENT_TX_PPM_WIDE) s
  setFlag R.LNK_GSTAT_TX_PPM_WIDE wide s

/-- After a change of the rate word: RATE_CLAMPED when the clamp acts (R46), and TX_PPM_WIDE. -/
def rateCheck (s : State) : State := wideCheck (whenS (clamped s) (raise R.TIM_EVENT_RATE_CLAMPED) s)

/-- As time passes, c_xo ages (R172): RATE_CLAMPED where the clamp begins to act, `was` saying whether it did before, and
TX_PPM_WIDE. -/
def rateAged (was : Bool) (s : State) : State := wideCheck (whenS (clamped s && !was) (raise R.TIM_EVENT_RATE_CLAMPED) s)

/-- One cycle of a slew of the remaining amount `rem` (2^-48 ns) at slew word `w`: the new remainder, the new res5 and
whether it ended (R53). -/
def slewCycle (w rem : Int) (res5 : Nat) : Int × Nat × Bool :=
  let acc := 8 * w + res5
  let gain := acc / 5
  if gain ≥ rem.natAbs then (0, (acc % 5).toNat, true) else (rem - sgn rem * gain, (acc % 5).toNat, false)

/-- Add `amount` (2^-16 ns) to the slew (R53, R54); one that takes away all that remains ends it
(notes/assumptions/54.md). -/
def addSlew (amount : Int) (s : State) : State :=
  let rem := s.tim.slewRem + amount * 4294967296
  rateCheck (whenS (s.tim.slewRem ≠ 0 && rem == 0) (raise R.TIM_EVENT_SLEW_DONE) { s with tim := { s.tim with slewRem := rem } })

/-! ### Steps -/

/-- The instant of a step requested now: the first whole microsecond at least 1 µs ahead (R49). -/
def stepInstant (t : Int) : Int := ((t + unitUs + unitUs - 1) / unitUs) * unitUs

/-- A pending step stands in the way of a request (R50): any does, but one that the servo asked for in this TIME cycle gives way to the
host. -/
def stepBusy (servo : Bool) (s : State) : Bool :=
  match s.tim.step with
  | some p => !(p.servo && !servo && p.cyc == s.tim.cyc)
  | none => false

/-- Request a step (R49): of two requests one is rejected (R50). -/
def requestStep (absolute adopt servo : Bool) (value : Int) (s : State) : State :=
  let q : StepReq := ⟨stepInstant (now s), absolute, value, adopt, servo, s.tim.cyc⟩
  if stepBusy servo s then raise R.TIM_EVENT_STEP_REJECTED s
  else whenS s.tim.step.isSome (raise R.TIM_EVENT_STEP_REJECTED) { s with tim := { s.tim with step := some q } }

/-! ### Domains and the welt -/

def dom (s : State) (b : Bool) : DomEst := if b then s.tim.domB else s.tim.domA

def setDom (b : Bool) (e : DomEst) (s : State) : State :=
  if b then { s with tim := { s.tim with domB := e } } else { s with tim := { s.tim with domA := e } }

def domEnabled (s : State) (b : Bool) : Bool :=
  if b then domainB s && flag s R.TIM_DOMB_CFG_ENA else flag s R.TIM_DOMA_CFG_ENA

/-- MAX_AGE_MS as it acts, in 2^-32 ns (R58). -/
def maxAge (s : State) : Int := (zeroAs 1 (getF s R.TIM_WELT_CFG_MAX_AGE_MS) : Int) * unitMs

/-- The age of a domain's estimate (R58). -/
def domAge (s : State) (b : Bool) : Int := now s - (dom s b).tMeas

/-- The offset of a domain extrapolated to Last instant `tNs` (R55), in 2^-16 ns; rounded as the welt's own
extrapolation of R60 (notes/assumptions/12.md). -/
def domOffset (s : State) (b : Bool) (tNs : Int) : Int :=
  let e := dom s b
  e.offset + (e.rate * (tNs - e.tMeas / unitNs)) / 16777216

/-- The welt offset extrapolated to `tNs` (R60). -/
def weltOff (w : Welt) (tNs : Int) : Int := w.off + (w.rate * (tNs - w.tLast)) / 16777216

/-- The welt updates (R60) while WELT_ENA is 1. -/
def weltEna (s : State) : Bool := flag s R.TIM_CTL_WELT_ENA

/-- The conditions of R61; a welt that is not initialised or not enabled is invalid. -/
def weltConditions (s : State) : Bool :=
  let w := s.tim.welt
  let m := zeroAs 1 (getF s R.TIM_WELT_CFG_MIN_UPDATES)
  let lim := getF s R.TIM_WELT_CFG2_RESID_NS * 65536
  w.init && weltEna s && m ≤ w.updates && (w.resids.take m).all (· ≤ lim) && s.tim.domA.fresh && s.tim.domB.fresh

/-- Bring the welt's validity up to date (R61): a loss raises WELT_LOST and restarts the update count. -/
def weltCheck (s : State) : State :=
  let ok := weltConditions s
  if s.tim.welt.valid && !ok then
    raise R.TIM_EVENT_WELT_LOST
      { s with tim := { s.tim with welt := { s.tim.welt with valid := false, updates := 0, resids := [] } } }
  else { s with tim := { s.tim with welt := { s.tim.welt with valid := ok } } }

/-- The welt becomes uninitialised (R60), and with it invalid; the count and the residuals of R61 go where it was valid
(notes/assumptions/145.md). -/
def weltUninit (s : State) : State :=
  weltCheck { s with tim := { s.tim with welt := { s.tim.welt with init := false } } }

/-- A domain's freshness follows its age and MAX_AGE_MS (R58), with DOM_STALE at the change to stale. -/
def freshCheck (b : Bool) (s : State) : State :=
  let e := dom s b
  let ok := e.posted && decide (domAge s b ≤ maxAge s)
  whenS (e.fresh && !ok) (raise R.TIM_EVENT_DOM_STALE) (setDom b { e with fresh := ok } s)

/-- After a write of the domains' or the welt's settings (R58, R60, R61): freshness, then initialisation, then validity. -/
def weltSettings (s : State) : State :=
  let s := freshCheck true (freshCheck false s)
  if domEnabled s false && domEnabled s true then weltCheck s else weltUninit s

/-- The welt update at a posted estimate (R60), `t` the estimate's Last instant in ns (notes/assumptions/14.md). -/
def weltUpdate (t : Int) (s : State) : State :=
  if domEnabled s false && domEnabled s true && s.tim.domA.fresh && s.tim.domB.fresh && weltEna s then
    let w := s.tim.welt
    let meas := domOffset s true t - domOffset s false t
    if !w.init then
      { s with tim := { s.tim with welt :=
          { w with init := true, off := meas, rate := s.tim.domB.rate - s.tim.domA.rate, tLast := t } } }
    else
      let dt := t - w.tLast
      let pred := weltOff w t
      let e := meas - pred
      let kp := getF s R.TIM_WELT_CFG_KP_SHIFT
      let ki := getF s R.TIM_WELT_CFG_KI_SHIFT
      let rate := if dt < 1000 then w.rate else w.rate + (e * 16777216 / dt) / (2 ^ ki : Nat)
      { s with tim := { s.tim with welt :=
          { w with off := pred + e / (2 ^ kp : Nat), rate := rate, tLast := t, updates := satN 255 (w.updates + 1),
                   resids := (e.natAbs :: w.resids).take 255, lastResid := e.natAbs } } }
  else s

/-! ### The switch -/

/-- The PTP candidate of a domain (R142). -/
def ptpCand (b : Bool) : Nat := if b then 9 else 8

def candState (s : State) (c : Nat) : Nat := getF s R.REF_CAND_STAT_STATE c

/-- QUALIFIED (R150). -/
def candQual (s : State) (c : Nat) : Bool := candState s c == 3

/-- The candidate of entry `e` of DPLL `d`'s table in force, where the entry is enabled (R153). -/
def prioEntry (s : State) (d e : Nat) : Option Nat :=
  if flag s ((R.REF_DPLL_PRIO0_ENA.on (4 * (e / 4))).up (8 * (e % 4))) d then
    some (getF s ((R.REF_DPLL_PRIO0_CAND.on (4 * (e / 4))).up (8 * (e % 4))) d)
  else none

/-- The lowest enabled entry that names candidate `c`: the one that counts (R153). -/
def entryOf (s : State) (d c : Nat) : Option Nat := (List.range 16).find? fun e => prioEntry s d e == some c

/-- Why a switch to domain `toB` is refused (R68). -/
def switchRefused (s : State) (toB software : Bool) : Bool :=
  !s.tim.welt.valid || !domEnabled s toB || !(dom s toB).fresh
    || ((s.tim.blend.isSome || s.tim.heldAdopt || s.tim.converging) && getF s R.TIM_CTL_ADOPT ≠ 0)
    || !domainB s
    || (software && ((entryOf s 0 (ptpCand toB)).isNone || !candQual s (ptpCand toB) || flag s R.REF_DPLL_CTL_FORCE_ENA))

/-- The blend time in 2^-32 ns (R66). -/
def blendLen (s : State) : Int := (satN 10000 (zeroAs 1 (getF s R.TIM_WELT_CFG2_BLEND_DS)) : Int) * 100 * unitMs

/-- DOM_REQ follows ACTIVE_DOM when a switch is applied or refused (R63). -/
def domReqSync (s : State) : State := setFlag R.TIM_CTL_DOM_REQ s.tim.activeB s

/-- Apply a switch (R65, R66): target and target rate move by the welt, and the blend starts. A held adopt step is
dropped (notes/assumptions/177.md). -/
def applySwitch (toB : Bool) (s : State) : State :=
  let sg : Int := if toB then 1 else -1
  let target := s.tim.target + sg * weltOff s.tim.welt (nowNs s) * 4294967296
  let rate := s.tim.targetRate + sg * s.tim.welt.rate
  let s := { s with tim := { s.tim with
    target := target, targetRate := rate, activeB := toB, armed := false, converging := false, heldAdopt := false, swSample := true,
    blend := some ⟨now s, blendLen s, target, rate⟩ } }
  raise R.TIM_EVENT_SWITCH_DONE (domReqSync s)

/-- Refuse a switch (R68): DOM_REQ names the active domain (R63); a timed switch that is armed stays so (R64). -/
def refuseSwitch (s : State) : State := raise R.TIM_EVENT_SWITCH_REFUSED (domReqSync s)

/-- The target and the target rate `tau` after the start of a blend (R66): the rate falls linearly to 0 and the target is
its integral, both rounded toward minus infinity (notes/assumptions/13.md). -/
def blendAt (b : Blend) (tau : Int) : Int × Int :=
  let x := clampI 0 b.len tau
  (b.base + b.rate0 * (2 * b.len * x - x * x) / (2 * b.len * 16777216), b.rate0 * (b.len - x) / b.len)

/-- TIME processes estimates, samples and selections: it is up (R461). -/
def timUp (s : State) : Bool := islUp s islTIME

/-- TIME's counter runs: TIME is released and its clock is valid; a fence does not stop it (R44, R461). -/
def timRuns (s : State) : Bool := islReleased s islTIME && islClkValid s islTIME

/-- One cycle of TDC's coarse counter (R209): it runs while TDC is released and clocked. -/
def tdcTick (s : State) : State :=
  if islReleased s islTDC && islClkValid s islTDC then { s with tdc := { s.tdc with k := s.tdc.k + 1 } } else s

/-- The Last at coarse count `k` by the anchor, residue dropped. -/
def lastAt (s : State) (k : Nat) : Int :=
  (5 * s.tdc.anchorL + s.tdc.anchorR + cycle5 * ((k : Int) - s.tdc.anchorK)) / 5

/-- The hit behind the edge instant `tm` (2^-10 ns) of candidate `c`, which lies its channel's delays later, precedes the latest step
of the Last, and its sampling edge does not (R208, R210). -/
def spansStep (s : State) (c : Nat) (tm : Int) : Bool :=
  let d := match serving s (candSrc s c) with | some n => chDelay s n | none => 0
  match s.tdc.stepK with
  | some k => decide (tm * 4194304 + d * 65536 < lastAt s k)
  | none => false

end Sys2Proof.Machine
end

