-- ==== Sys2Proof/Machine/RefOps.lean ====
section
/-!
DEFINITION. Sys2Proof/Machine/RefOps.lean: operations of the reference monitors and the DPLLs (spec/05): selection, the
states of R162, bandwidths, phase build-out, holdover, and the restart of a candidate.
-/
namespace Sys2Proof.Machine

/-! ### Candidates -/

/-- ALIGN as it acts (R142): fixed at 1 for PTP-A, PTP-B and TODPPS. -/
def candAlign (s : State) (c : Nat) : Bool := c == 8 || c == 9 || c == 14 || flag s R.REF_CAND_CFG_ALIGN c

/-- ALIGN for R147, R165, R167 and R175: SYNCE candidates act as 0. -/
def candTimeAlign (s : State) (c : Nat) : Bool := candAlign s c && !(10 ≤ c && c ≤ 13)

/-- The measured period of a candidate (R143): PERIOD x MDIV. -/
def candPeriod (s : State) (c : Nat) : Period :=
  let p := getPeriod s 0x71004 0x40 c
  if c < 8 then { p with num := p.num * zeroAs 1 (getF s R.REF_CAND_CFG_MDIV c) } else p

/-- The configuration test of R143 for a REFIN candidate: a period of R70 of at least 1,000 ns. -/
def candCfgOk (s : State) (c : Nat) : Bool :=
  let p := candPeriod s c
  c ≥ 8 || ((getPeriod s 0x71004 0x40 c).ok && p.num ≥ 1000 * p.den)

/-- Set a candidate's state, with the event the change carries. -/
def setCandState (c st : Nat) (s : State) : State := setF R.REF_CAND_STAT_STATE st s c

/-- The candidate becomes FAILED (R148, R150): its window, history, grid and timers start again. -/
def candFail (c : Nat) (event : Bool) (s : State) : State :=
  let was := candState s c
  let x := cand s c
  let s := setCand c { Cand.reset with badCfg := x.badCfg, lastEdge := x.lastEdge, lastMsg := x.lastMsg, winAt := x.winAt,
                                       pends := x.pends } s
  let s := setF R.REF_CAND_STAT_ACTIVE 0 (setF R.REF_CAND_STAT_DRIFT_ALERT 0 (setCandState c 0 s) c) c
  if event && was ≠ 0 then raise R.REF_CAND_EVENT_ACT_LOSS s c else s

/-! ### Bandwidth (R160, R161) -/

/-- Bandwidth of a code in units of 0.1 mHz. -/
def bwOf (code : Nat) : Nat :=
  [1, 3, 10, 30, 100, 300, 1000, 3000, 10000, 30000, 100000, 300000, 1000000].getD code 1000000

/-- kp_q of R159 for a code: round(2 pi bw 2^56 10^-9). -/
def kpQ (code : Nat) : Int :=
  [45275, 135825, 452751, 1358254, 4527512, 13582536, 45275122, 135825365, 452751216, 1358253648, 4527512161,
   13582536484, 45275121613].getD code 45275121613

/-- ki_q of R159 for a code: round((2 pi bw)^2 / 100 2^76 10^-15). -/
def kiQ (code : Nat) : Int :=
  [0, 3, 30, 268, 2983, 26846, 298290, 2684614, 29829049, 268461441, 2982904897, 26846144077, 298290489746].getD code
    298290489746

/-- The interval between samples of a candidate (R160), in 2^-32 ns; a PTP candidate's is its expected estimate interval,
given as EST_WIN x 2^LOG_SYNC s by the source instance. -/
def sampleInterval (s : State) (c : Nat) (ptpNs : Int) : Int :=
  if c < 8 then let p := candPeriod s c; (p.num : Int) * 4294967296 / (if p.den = 0 then 1 else p.den)
  else if c = 8 ∨ c = 9 then ptpNs * unitNs
  else if c = 14 then unitS
  else if c = 15 then (zeroAs 1 (getF s R.REF_GCFG_HOST_PERIOD_MS) : Int) * unitMs
  else 32768 * unitNs / 10

/-- The largest code that does not exceed one tenth of the sample rate, at most `code` (R160). -/
def clampBw (code : Nat) (interval : Int) : Nat :=
  ((List.range 13).filter fun k => k ≤ code && (bwOf k : Int) * interval * 10 ≤ 10000 * unitS).foldl max 0

/-! ### Selection (R153 to R157, R514) -/

/-- Entry `e` of DPLL `d` is eligible (R154, R514). -/
def eligible (s : State) (d e : Nat) : Bool :=
  match prioEntry s d e with
  | none => false
  | some c =>
    entryOf s d c == some e && candQual s c
      && !(flag s R.REF_DPLL_CFG_QL_MODE d && getF s R.REF_CAND_CFG_QL c == 15)
      && !(d == 0 && s.tim.domHeld && c == ptpCand (!s.tim.activeB))

/-- The rank of an entry (R154): with QL_MODE by QL and then by number. -/
def rankOf (s : State) (d e : Nat) : Nat :=
  if flag s R.REF_DPLL_CFG_QL_MODE d then
    (match prioEntry s d e with | some c => getF s R.REF_CAND_CFG_QL c | none => 15) * 16 + e
  else e

/-- The best ranked entry that satisfies `p`. -/
def bestEntry (s : State) (d : Nat) (p : Nat → Bool) : Option Nat :=
  (List.range 16).foldl (fun best e =>
    if p e then
      match best with
      | none => some e
      | some b => if rankOf s d e < rankOf s d b then some e else best
    else best) none

def candQl (s : State) (c : Nat) : Nat := getF s R.REF_CAND_CFG_QL c

/-- The candidate of entry `e` has been QUALIFIED for WTR_S seconds (R155). -/
def wtrDone (s : State) (d e : Nat) : Bool :=
  match prioEntry s d e with
  | none => false
  | some c =>
    match (cand s c).qualSince with
    | none => false
    | some t => decide (now s ≥ t + (getF s R.REF_DPLL_CFG_WTR_S d : Int) * unitS)

/-- Entry `e` is better than the selected entry `cur` in the sense of R155. -/
def betterThan (s : State) (d cur e : Nat) : Bool :=
  (flag s R.REF_DPLL_CFG_REVERTIVE d && rankOf s d e < rankOf s d cur)
    || (flag s R.REF_DPLL_CFG_QL_MODE d
        && (match prioEntry s d e, prioEntry s d cur with
            | some c, some c' => candQl s c < candQl s c'
            | _, _ => false))

/-- What a domain hold keeps selected on DPLL0 (R514): the entry of the active domain's PTP candidate while that is QUALIFIED, whatever
its QL. -/
def heldEntry (s : State) (d : Nat) : Option (Nat × Nat) :=
  let c := ptpCand s.tim.activeB
  if d == 0 && s.tim.domHeld && candQual s c then (entryOf s 0 c).map fun e => (e, c) else none

/-- What DPLL `d` takes, before domain switches are tested: entry and candidate (R155, R156, R514). `from?` is the rank
above which entries count, after a refused switch (R68); a forced candidate has none (notes/assumptions/19.md). -/
def selTarget (s : State) (d : Nat) (after : Option Nat) : Option (Nat × Nat) :=
  let pick (o : Option Nat) : Option (Nat × Nat) := o.bind fun e => (prioEntry s d e).map fun c => (e, c)
  if flag s R.REF_DPLL_CTL_FORCE_ENA d then
    let c := getF s R.REF_DPLL_CTL_FORCE_CAND d
    if candQual s c && after.isNone then some ((entryOf s d c).getD 0, c) else none
  else
    match after with
    | some r => pick (bestEntry s d fun e => eligible s d e && r < rankOf s d e)
    | none =>
      let cur := getF s R.REF_DPLL_STAT_SEL_ENTRY d
      let curC := getF s R.REF_DPLL_STAT_SEL_CAND d
      let curOk := flag s R.REF_DPLL_STAT_SEL_VALID d && eligible s d cur && prioEntry s d cur == some curC
      match heldEntry s d with
      | some x => some x
      | none =>
        if curOk then
          match bestEntry s d fun e => eligible s d e && betterThan s d cur e && wtrDone s d e with
          | some e => pick (some e)
          | none => some (cur, curC)
        else pick (bestEntry s d (eligible s d))

/-- Selecting candidate `c` on DPLL `d` is a domain switch (R157). -/
def needsSwitch (s : State) (d c : Nat) : Bool := d == 0 && (c == 8 || c == 9) && (c == 9) != s.tim.activeB

/-- What DPLL `d` takes, with the domain switches that selection brings (R157): a refused one makes it take the next entry
of the table (R68). The truth value says whether a domain switch was applied. -/
def resolveSel (d : Nat) : Nat → Option Nat → State → Option (Nat × Nat) × Bool × State
  | 0, _, s => (none, false, s)
  | fuel + 1, after, s =>
    match selTarget s d after with
    | none => (none, false, s)
    | some (e, c) =>
      if needsSwitch s d c then
        if switchRefused s (c == 9) false then resolveSel d fuel (some (rankOf s d e)) (refuseSwitch s)
        else (some (e, c), true, applySwitch (c == 9) s)
      else (some (e, c), false, s)

/-- Record the selection; SWITCH raises when SEL_CAND or SEL_VALID changes (R155). -/
def setSel (d : Nat) (sel : Option (Nat × Nat)) (s : State) : State :=
  let v := flag s R.REF_DPLL_STAT_SEL_VALID d
  let c := getF s R.REF_DPLL_STAT_SEL_CAND d
  let s' := match sel with
    | some (e, c') => setF R.REF_DPLL_STAT_SEL_ENTRY e (setF R.REF_DPLL_STAT_SEL_CAND c' (setF R.REF_DPLL_STAT_SEL_VALID 1 s d) d) d
    | none => setF R.REF_DPLL_STAT_SEL_VALID 0 s d
  let changed := match sel with
    | some (_, c') => !v || c' ≠ c
    | none => v
  whenS changed (fun s => raise R.REF_DPLL_EVENT_SWITCH s d) s'

/-! ### States (R162) -/

/-- MODE as it acts: FOLLOW acts as CLOSED on DPLL0, 0b11 acts as CLOSED. -/
inductive DpllMode where
  | follow | closed | openLoop
  deriving DecidableEq, Repr

def dpllMode (s : State) (d : Nat) : DpllMode :=
  match getF s R.REF_DPLL_CFG_MODE d with
  | 0 => if d = 0 then .closed else .follow
  | 2 => .openLoop
  | _ => .closed

/-- Change the state of a DPLL; STATE_CHANGE raises at every change. Leaving OPEN drops held writes (R170). -/
def setDpllState (d st : Nat) (s : State) : State :=
  let was := dpllState s d
  let s' := setF R.REF_DPLL_STAT_STATE st s d
  if was = st then s'
  else
    let x := dpll s' d
    let s' := setDpll d { x with freq := ⟨none, x.freq.lastAt, 0⟩, phase := ⟨none, x.phase.lastAt, 0⟩, lockSince := none } s'
    raise R.REF_DPLL_EVENT_STATE_CHANGE s' d

/-- Enter ACQUIRING from FREERUN, HOLDOVER, OPEN or FOLLOWING (R159, R165): integ takes the control value in force. -/
def enterAcquiring (d c : Nat) (s : State) : State :=
  let was := dpllState s d
  let w := dpllW s d
  let x := dpll s d
  let pbo := was ≠ stFREERUN || !candTimeAlign s c
  let x := { x with integ := clampI (-rateLimit) rateLimit w, w := w, firstUpd := true, pboPending := pbo, sumE := 0,
                    nE := 0, lastE := none, lockSince := none, lastUpd := now s,
                    avg := if was = stFREERUN then w else x.avg,
                    avgHist := if was = stFREERUN then [(now s, w)] else x.avgHist,
                    lockedSecs := if was = stFREERUN then 0 else x.lockedSecs }
  setDpllState d stACQUIRING (setDpll d x s)

/-- The average that stood HO_GUARD_S seconds earlier, or the oldest kept (R168). -/
def frozenAvg (s : State) (d : Nat) : Int :=
  let x := dpll s d
  let t := now s - (getF s R.REF_DPLL_CFG2_HO_GUARD_S d : Int) * unitS
  match x.avgHist.find? fun v => v.1 ≤ t with
  | some v => v.2
  | none => (x.avgHist.getLastD (0, x.avg)).2

/-- Enter HOLDOVER from ACQUIRING or LOCKED (R162, R168): the frozen value governs, event HOLDOVER. -/
def enterHoldover (d : Nat) (s : State) : State :=
  let v := frozenAvg s d
  let x := dpll s d
  let s := setDpll d { x with hoVal := v, w := v, hoSince := now s, pboPending := false, realign := false } s
  raise R.REF_DPLL_EVENT_HOLDOVER (setDpllState d stHOLDOVER s) d

/-- Enter HOLDOVER from OPEN or FOLLOWING (R162), or from FREERUN under a forced candidate that is not QUALIFIED (R156): the holdover value is reloaded with the current w, HO_VALID = 0. -/
def reloadHoldover (d : Nat) (s : State) : State :=
  let w := dpllW s d
  let x := dpll s d
  let s := setDpll d { x with hoVal := w, w := w, hoSince := now s, avg := w, avgHist := [(now s, w)], lockedSecs := 0 } s
  setDpllState d stHOLDOVER (setF R.REF_DPLL_STAT_HO_VALID 0 s d)

/-- A hitless switch to candidate `c` (R164): w is held until its first sample, where b is loaded; a PTP-A/PTP-B switch
loads no b. -/
def hitless (d : Nat) (domSwitch : Bool) (s : State) : State :=
  let x := dpll s d
  setDpll d { x with pboPending := !domSwitch, sumE := 0, nE := 0 } s

/-- One selection of DPLL `d` and the state change it brings (R152 step 4, R155, R162). -/
def dpllEval (d : Nat) (s : State) : State :=
  let st := dpllState s d
  match dpllMode s d with
  | .openLoop =>
    if st = stOPEN then s
    else
      let w := dpllW s d
      let s := setSel d none (setDpll d { dpll s d with w := w } s)
      setDpllState d stOPEN s
  | .follow =>
    if st = stFOLLOWING then s
    else setDpllState d stFOLLOWING (setSel d none (setDpll d { dpll s d with w := 0 } s))
  | .closed =>
    if flag s R.REF_DPLL_CTL_HO_REQ d && st ≠ stFREERUN then
      let s := setSel d none s
      if st = stACQUIRING ∨ st = stLOCKED then enterHoldover d s
      else if st = stOPEN ∨ st = stFOLLOWING then reloadHoldover d s
      else s
    else
      let wasC := getF s R.REF_DPLL_STAT_SEL_CAND d
      let (sel, sw, s) := resolveSel d 17 none s
      let s := setSel d sel s
      match sel with
      | none =>
        if st = stACQUIRING ∨ st = stLOCKED then enterHoldover d s
        else if st = stOPEN ∨ st = stFOLLOWING ∨ (st = stFREERUN ∧ flag s R.REF_DPLL_CTL_FORCE_ENA d) then reloadHoldover d s
        else s
      | some (_, c) =>
        if st = stACQUIRING ∨ st = stLOCKED then
          if c = wasC then s else hitless d (sw && (wasC == 8 || wasC == 9)) s
        else enterAcquiring d c s

/-! ### What a bandwidth rests on (R142, R144, R160, R161) -/

/-- The port bound to SYNCE candidate `c` (10 to 13), where the binding is enabled (R144). -/
def synceBound (s : State) (c : Nat) : Option Nat :=
  let n := c - 10
  if flag s (R.REF_SYNCE_BIND_ENA.up (8 * n)) then some (getF s (R.REF_SYNCE_BIND_PORT.up (8 * n))) else none

/-- The instance of domain `b` in SLAVE or UNCALIBRATED (R119, R142): 64 instances from 64 x domain on. -/
def slaveInst (s : State) (b : Bool) : Option Nat :=
  ((List.range 64).map (· + (if b then 64 else 0))).find? fun i =>
    getF s R.PTE_PORT_STATE_STATE i == 9 || getF s R.PTE_PORT_STATE_STATE i == 8

/-- The expected estimate interval of a PTP candidate in ns (R142): EST_WIN x 2^LOG_SYNC seconds. -/
def estInterval (s : State) (b : Bool) : Int :=
  let win := zeroAs 64 (if b then getF s R.PTE_DOMB_SERVO_EST_WIN else getF s R.PTE_DOMA_SERVO_EST_WIN)
  match slaveInst s b with
  | none => 0
  | some i =>
    let l := getS s R.PTE_INTERVAL_LOG_SYNC i
    if l ≥ 0 then (win : Int) * 1000000000 * (2 ^ l.toNat : Nat) else (win : Int) * 1000000000 / (2 ^ (-l).toNat : Nat)

/-- The bandwidth code in use (R160, R161): narrowed by the drift guard, then clamped to one tenth of the sample rate. -/
def bwInUse (s : State) (d : Nat) : Nat × Bool × Bool :=
  let c := getF s R.REF_DPLL_STAT_SEL_CAND d
  let bw := satN 12 (getF s R.REF_DPLL_CFG_BW d)
  let gbw := satN 12 (getF s R.REF_DPLL_CFG_GUARD_BW d)
  let guard := flag s R.REF_DPLL_CFG_GUARD_ENA d && flag s R.REF_CAND_STAT_DRIFT_ALERT c && flag s R.REF_DPLL_STAT_SEL_VALID d
  let code := if guard then min bw gbw else bw
  let used := clampBw code (sampleInterval s c (estInterval s (c == 9)))
  (used, used ≠ code, guard)

/-- Whether DPLL0 is LOCKED on one QUALIFIED candidate without drift, after `x` has held of the interval so far (R485). -/
def steadyRun (s : State) (x : Nat) : Nat :=
  let c := getF s R.REF_DPLL_STAT_SEL_CAND 0
  let ok := dpllState s 0 == stLOCKED && flag s R.REF_DPLL_STAT_SEL_VALID 0 && candState s c == 3 && !flag s R.REF_CAND_STAT_DRIFT_ALERT c
  if ok && (x == 1 || x == 2 + c) then 2 + c else 0

/-- A Last cycle in the intervals of the log. -/
def noteSteady (s : State) : State :=
  { s with ref := { s.ref with steadyS := steadyRun s s.ref.steadyS, steadyL := steadyRun s s.ref.steadyL } }

/-- GUARD_ACTIVE and BW_CLAMP follow; BW_CLAMPED raises when the clamp sets in (R160, R161). -/
def bwCheck (d : Nat) (s : State) : State :=
  if flag s R.REF_DPLL_STAT_SEL_VALID d then
    let (_, cl, guard) := bwInUse s d
    let was := flag s R.REF_DPLL_STAT_BW_CLAMP d
    let s := setFlag R.REF_DPLL_STAT_GUARD_ACTIVE guard (setFlag R.REF_DPLL_STAT_BW_CLAMP cl s d) d
    if cl && !was then raise R.REF_DPLL_EVENT_BW_CLAMPED s d else s
  else setF R.REF_DPLL_STAT_GUARD_ACTIVE 0 (setF R.REF_DPLL_STAT_BW_CLAMP 0 s d) d

def bwCheckAll (s : State) : State := bwCheck 3 (bwCheck 2 (bwCheck 1 (bwCheck 0 s)))

/-- One selection of every DPLL, and the rate word and the bandwidths that follow (R152, R160, R161). -/
def selectAll (s : State) : State := bwCheckAll (rateCheck (dpllEval 3 (dpllEval 2 (dpllEval 1 (dpllEval 0 s)))))

/-! ### The software switch on DPLL0 (R63, R514) -/

/-- DPLL0 takes the entry of the new domain's PTP candidate, and the hold is in force. -/
def holdDomain (toB : Bool) (s : State) : State :=
  let s := { s with tim := { s.tim with domHeld := true } }
  match entryOf s 0 (ptpCand toB) with
  | none => s
  | some e =>
    let st := dpllState s 0
    let wasC := getF s R.REF_DPLL_STAT_SEL_CAND
    let s := setSel 0 (some (e, ptpCand toB)) s
    if dpllMode s 0 = .closed && !flag s R.REF_DPLL_CTL_HO_REQ then
      if st = stACQUIRING ∨ st = stLOCKED then
        if ptpCand toB = wasC then s else hitless 0 (wasC == 8 || wasC == 9) s
      else enterAcquiring 0 (ptpCand toB) s
    else s

/-- A switch that software requested reaches its instant: applied with a hold, or refused (R65, R68, R514). -/
def softSwitch (toB : Bool) (s : State) : State :=
  if switchRefused s toB true then refuseSwitch s else holdDomain toB (applySwitch toB s)

/-- The hold ends when the held candidate is no longer QUALIFIED (R514), or no enabled entry names it (notes/assumptions/100.md), before
the selection of the same cycle. -/
def holdCheck (s : State) : State :=
  let c := ptpCand s.tim.activeB
  if s.tim.domHeld && (!candQual s c || (entryOf s 0 c).isNone) then { s with tim := { s.tim with domHeld := false } } else s

/-- A forced candidate that is no longer QUALIFIED raises FORCE_LOST once per loss (R156). -/
def forceCheck (d : Nat) (s : State) : State :=
  let x := dpll s d
  let lost := flag s R.REF_DPLL_CTL_FORCE_ENA d && !candQual s (getF s R.REF_DPLL_CTL_FORCE_CAND d)
  let s' := setDpll d { x with forceLost := lost } s
  if lost && !x.forceLost then raise R.REF_DPLL_EVENT_FORCE_LOST s' d else s'

/-- After a change of candidate states, tables or controls: holds and forces first, then one selection per DPLL. -/
def reselect (s : State) : State :=
  selectAll (forceCheck 3 (forceCheck 2 (forceCheck 1 (forceCheck 0 (holdCheck s)))))

/-! ### Phase build-out and error (R158, R164) -/

/-- What a DPLL compares its reference with (R158): the target on DPLL0, theta on the others, in 2^-16 ns, the target
rounded toward minus infinity (notes/assumptions/174.md). -/
def dpllZero (s : State) (d : Nat) : Int :=
  if d = 0 then s.tim.target / 4294967296 else (dpll s d).theta / (5 * 4294967296)

/-- A sample whose error `e` jumps from the previous update's by more than PHIT_NS while LOCKED is a phase hit (R166). -/
def phaseHit (s : State) (d : Nat) (e : Int) : Bool :=
  let th := getF s R.REF_DPLL_CFG3_PHIT_NS d
  match (dpll s d).lastE with
  | none => false
  | some le => dpllState s d = stLOCKED && th ≠ 0 && (e - le).natAbs > th * 65536

/-- A sample `p` of the selected candidate reaches DPLL `d` (R158, R164 to R166): it loads b when one is due, adds a phase hit to b, and
joins the mean of the next update (R159). -/
def dpllSample (d : Nat) (p : Int) (s : State) : State :=
  let x := dpll s d
  let st := dpllState s d
  if (st = stACQUIRING ∨ st = stLOCKED) then
    let z := p - dpllZero s d
    if x.pboPending then
      let s := setDpll d { x with b := z * 4294967296, e := 0, pboPending := false, sumE := 0, nE := x.nE + 1 } s
      raise R.REF_DPLL_EVENT_PBO_LOADED s d
    else
      let e := z - x.b / 4294967296
      if phaseHit s d e then
        let le := x.lastE.getD e
        raise R.REF_DPLL_EVENT_PBO_LOADED
          (setDpll d { x with b := x.b + (e - le) * 4294967296, e := le, sumE := x.sumE + le, nE := x.nE + 1 } s) d
      else setDpll d { x with e := e, sumE := x.sumE + e, nE := x.nE + 1 } s
  else s

/-- The lock test at an update (R162, R163), suspended by the drift guard (R161). -/
def lockTest (d : Nat) (e : Int) (s : State) : State :=
  let x := dpll s d
  let th := zeroAs 1 (getF s R.REF_DPLL_CFG2_LOCK_NS d) * 65536
  if flag s R.REF_DPLL_STAT_GUARD_ACTIVE d then s
  else if dpllState s d = stACQUIRING then
    if e.natAbs ≤ th then
      let since := x.lockSince.getD (now s)
      let s := setDpll d { x with lockSince := some since } s
      if now s ≥ since + (zeroAs 1 (getF s R.REF_DPLL_CFG2_LOCK_S d) : Int) * unitS then
        setF R.REF_DPLL_STAT_EVER_LOCKED 1 (setDpllState d stLOCKED s) d
      else s
    else setDpll d { x with lockSince := none } s
  else if dpllState s d = stLOCKED && e.natAbs > 2 * th then setDpllState d stACQUIRING s
  else s

/-- The update of the loop filter (R159). -/
def loopUpdate (d : Nat) (s : State) : State :=
  let x := dpll s d
  if x.nE = 0 then s
  else
    let e := x.sumE / (x.nE : Int)
    let s := bwCheck d s
    let (code, _, _) := bwInUse s d
    let x := dpll s d
    let dt : Int := if x.firstUpd then 0 else clampI 0 1000000 ((now s - x.lastUpd) / unitUs)
    let integ := clampI (-rateLimit) rateLimit (x.integ + (kiQ code * e * dt) / 17592186044416)
    let w := integ + (kpQ code * e) / 16777216
    let w := if d = 0 then w else clampI (-rateLimit) rateLimit w
    let s := setDpll d { x with integ := integ, w := w, e := e, lastE := some e, firstUpd := false, lastUpd := now s,
                                sumE := 0, nE := 0 } s
    rateCheck (lockTest d e s)

/-- The TIME cycle after a domain switch: DPLL0 makes its first loop update with the extrapolated offset of the new domain as its sample
(R55, R352). -/
def switchUpdate (s : State) : State :=
  if s.tim.swSample then
    let s := { s with tim := { s.tim with swSample := false } }
    if flag s R.REF_DPLL_STAT_SEL_VALID 0 && getF s R.REF_DPLL_STAT_SEL_CAND 0 == ptpCand s.tim.activeB
        && (dpllState s 0 == stACQUIRING || dpllState s 0 == stLOCKED) then
      loopUpdate 0 (dpllSample 0 (domOffset s s.tim.activeB (nowNs s)) s)
    else s
  else s

/-- |y| of 2^-40 is within `lim` units of 0.01 ppm (R150). -/
def withinPpm (y : Int) (lim : Nat) : Bool := decide (y.natAbs * 100000000 ≤ lim * 1099511627776)

/-- Round a quotient to nearest, ties away from zero; `d` positive (R149, R151). -/
def roundAway (x d : Int) : Int := sgn x * ((2 * x.natAbs + d) / (2 * d))

end Sys2Proof.Machine
end

