-- ==== Sys2Proof/Machine/Ref.lean ====
section
/-!
DEFINITION. Sys2Proof/Machine/Ref.lean: the commands and events of the reference monitors and the DPLLs (spec/05).
-/
namespace Sys2Proof.Machine

/-! ### Phase samples (R147) -/

/-- The expected instant nearest to `x` on the grid of origin `o` and period `p`, less `x`, in 2^-16 ns; exact, rounded
once, ties up (R147). -/
def gridPhase (p : Period) (o x : Int) : Int :=
  let d : Int := p.den
  let t : Int := p.num * 65536
  let k := (2 * (x - o) * d + t) / (2 * t)
  rdiv ((o - x) * d + k * t) d

/-- The raw phase of a sample of candidate `c` (R147). `tm` is the measured edge instant in 2^-10 ns, `val` the label of a
TODPPS edge in 2^-32 ns or the posted HOSTSTEER sample. -/
def rawPhase (s : State) (c : Nat) (tm val : Int) (origin : Int) : Int :=
  let x := tm * 64 - getS s R.REF_CAND_DELAY_DELAY c
  if c < 8 then gridPhase (candPeriod s c) (if candTimeAlign s c then 0 else origin) x
  else if c = 8 ∨ c = 9 then domOffset s (c == 9) (nowNs s)
  else if c = 14 then rdiv (val - x * 65536) 65536
  else if c = 15 then val
  else -((cand s c).tallySum * 256) / 5

/-- The activity criteria of R142 that stand in other blocks hold: for a PTP candidate, its domain is not stale and has an
instance in SLAVE or UNCALIBRATED; for a SYNCE candidate, its port is not down and its tally is valid and locked. -/
def candAlive (s : State) (c : Nat) : Bool :=
  if c = 8 ∨ c = 9 then (dom s (c == 9)).fresh && (slaveInst s (c == 9)).isSome
  else if 10 ≤ c ∧ c ≤ 13 then
    match synceBound s c with
    | none => false
    | some p =>
      let st := getF s R.LNK_PORT_STAT_STATE p
      (st == 5 || st == 6) && flag s R.TSU_TALLY_VALID p && flag s R.TSU_TALLY_LOCK p
  else true

/-- The candidate can take a sample: enabled, validly configured, bound (R142, R143, R144). -/
def candTakes (s : State) (c : Nat) : Bool :=
  flag s R.REF_CAND_CFG_ENA c && !(cand s c).badCfg && !(c == 9 && !domainB s)
    && candAlive s c

/-- A phase sample `p` at Last instant `t`, with the sums over the cycles up to `t` behind the mean rate word of R149. -/
def sampleAt (s : State) (p t : Int) : PSample :=
  let n := ((now s - t) * 5 / cycle5).toNat
  ⟨p, t, s.ref.rateSum - runSum n s.ref.rateRuns, s.ref.cycles - n⟩

/-- A phase sample of candidate `c`: its raw phase, the first sample after FAILED (R150), and every DPLL that has the
candidate selected (R158, R164). -/
def candSample (c : Nat) (tm val : Int) (s : State) : State :=
  if candTakes s c then
    let x := cand s c
    let o := x.origin.getD (tm * 64 - getS s R.REF_CAND_DELAY_DELAY c)
    let s := setCand c { x with origin := some o, tallySum := if x.origin.isNone then 0 else x.tallySum } s
    let p := rawPhase s c tm val o
    let smp := sampleAt s p (if c < 8 ∨ c = 14 then tm * 4194304 else now s)
    let x := cand s c
    let s := setCand c { x with latest := some smp, fresh := true, lastEdge := now s, lastMsg := if c = 15 then now s else x.lastMsg } s
    let s := if candState s c = 0 then setF R.REF_CAND_STAT_ACTIVE 1 (setCandState c 1 s) c else s
    (List.range 4).foldl (fun s d =>
      if flag s R.REF_DPLL_STAT_SEL_VALID d && getF s R.REF_DPLL_STAT_SEL_CAND d == c then dpllSample d p s else s) s
  else s

/-- CANDIDATE_PHASE_SAMPLE (R147): a REFIN or TODPPS sample comes from the channel that serves the candidate (R201), and is discarded
where its measurement spans a step of the Last (R175, R210). -/
def execCandidatePhaseSample (c : Nat) (tm val : Int) (s : State) : Host.Outcome State Fault Refusal :=
  let s := s.begin
  let tdc := c < 8 || c == 14
  ran (if timUp s && (!tdc || candFed s c) then
    let s := whenS tdc (adjFor c) s
    if tdc && spansStep s c tm then s else candSample c tm val s
  else s)

/-- Two and a half intervals of `num` / `den` in 2^-32 ns have passed since `t`. -/
def overdue (s : State) (t num den : Int) : Bool := decide ((now s - t) * 2 * den ≥ 5 * num)

/-- The activity criterion of R142 is not met: no input edge for 2.5 nominal periods, no estimate for 2.5 expected intervals, no PPS edge
or no ToD message for 2.5 s, no host sample for 2.5 periods, or what stands in other blocks. -/
def activityLost (s : State) (c : Nat) : Bool :=
  let x := cand s c
  if c < 8 then let p := getPeriod s 0x71004 0x40 c; overdue s x.lastEdge (p.num * 4294967296) p.den
  else if c = 8 ∨ c = 9 then !candAlive s c || overdue s x.lastMsg (estInterval s (c == 9) * unitNs) 1
  else if c = 14 then overdue s x.lastEdge unitS 1 || overdue s x.lastMsg unitS 1
  else if c = 15 then overdue s x.lastMsg ((zeroAs 1 (getF s R.REF_GCFG_HOST_PERIOD_MS) : Int) * unitMs) 1
  else !candAlive s c

/-- CANDIDATE_ACTIVITY_LOSS (R148): the activity limit of R142 has expired; the dividers behind a REFIN start again (R202). -/
def execCandidateActivityLoss (c : Nat) (s : State) : Host.Outcome State Fault Refusal :=
  let s := s.begin
  ran (if timUp s && candState s c ≠ 0 && activityLost s c then reselect (candFail c true (whenS (c < 8) (restartDivider c) s)) else s)

/-- R148: an active PTP or SYNCE candidate whose criterion of R142 no longer holds becomes FAILED in the same cycle. -/
def activityCheck (s : State) : State :=
  (List.range 6).foldl (fun s k =>
    let c := 8 + k
    if timUp s && candState s c ≠ 0 && !candAlive s c then reselect (candFail c true s) else s) s

/-! ### Frequency windows (R149 to R151) -/

/-- y of a window from `a` to `b` (R149), in 2^-40; `none` where the interval is empty and the spec gives no result. -/
def windowY (s : State) (a b : PSample) : Option Int :=
  let dt := b.t - a.t
  let dc := b.cycles - a.cycles
  if dt ≤ 0 then none
  else
    let dcp := if dc ≤ 0 then 1 else dc
    let wsum := if dc ≤ 0 then rateWord s else b.rateSum - a.rateSum
    some (roundAway ((b.p - a.p) * 72057594037927936 * dcp * 256 + (wsum - cXoAt s b.t * dcp) * dt) (dt * dcp * 256))

/-- WIN_DS as it acts, in units of 0.1 s. -/
def winDs (s : State) (c : Nat) : Nat := satN 600 (zeroAs 1 (getF s R.REF_CAND_MON_WIN_DS c))

/-- The drift-rate monitor at result `y` (R151). -/
def driftMonitor (c : Nat) (y : Int) (s : State) : State :=
  let x := cand s c
  let span := zeroAs 1 (getF s R.REF_CAND_DRIFT_SPAN c)
  let win := winDs s c
  let ys := (y :: x.ys).take 256
  match ys[span]? with
  | none => setCand c { x with ys := ys, quiet := 0 } s
  | some y0 =>
    let r := roundAway ((y - y0) * 1000000000000) (1099511627776 * span * win)
    let lim := getF s R.REF_CAND_DRIFT_DRIFT_LIM c
    let quiet := if 2 * r.natAbs ≤ lim then x.quiet + 1 else 0
    let s := setCand c { x with ys := ys, quiet := quiet } s
    let s := setF R.REF_CAND_DRATE_RATE (toU 32 r) s c
    if r.natAbs > lim then
      raise R.REF_CAND_EVENT_DRIFT_ALERT (setF R.REF_CAND_STAT_DRIFT_ALERT 1 s c) c
    else if quiet ≥ span then setF R.REF_CAND_STAT_DRIFT_ALERT 0 s c
    else s

/-- Qualification at result `y` (R150): REJECT below ACCEPT acts as ACCEPT. -/
def qualify (c : Nat) (y : Int) (s : State) : State :=
  let acc := getF s R.REF_CAND_LIMITS_ACCEPT c
  let rej := max acc (getF s R.REF_CAND_LIMITS_REJECT c)
  let x := cand s c
  match candState s c with
  | 1 => if withinPpm y acc then setCand c { x with goodSince := some (now s) } (setCandState c 2 s) else s
  | 2 => if withinPpm y acc then s else setCand c { x with goodSince := none } (setCandState c 1 s)
  | 3 =>
    if withinPpm y rej then s
    else raise R.REF_CAND_EVENT_DISQUALIFIED
      (setCand c { x with qualSince := none, goodSince := none } (setCandState c 1 s)) c
  | _ => s

/-- A window closes: with a new sample it yields a result, but for the first window after FAILED (R149). -/
def windowClose (c : Nat) (s : State) : State :=
  let x := cand s c
  match x.latest with
  | none => s
  | some b =>
    if !x.fresh || candState s c = 0 then s
    else
      match x.start with
      | none => setCand c { x with start := some b, fresh := false } s
      | some a =>
        let s := setCand c { x with start := some b, fresh := false } s
        match windowY s a b with
        | none => s
        | some y =>
          let s := setF R.REF_CAND_FREQ_Y (toU 32 y) s c
          reselect (qualify c y (driftMonitor c y s))

/-- The instant at which the window of candidate `c` closes (R149). -/
def winEnd (s : State) (c : Nat) : Int := (cand s c).winAt + (winDs s c : Int) * 100 * unitMs

/-- The words of LIMITS, MON and DRIFT that waited for a window take effect (R12). -/
def applyPends (c : Nat) (s : State) : State :=
  let x := cand s c
  x.pends.foldl (fun s p => softWord p.1 p.2 s) (setCand c { x with pends := [] } s)

/-- The next window of candidate `c` begins: windows follow one another without a gap (notes/assumptions/146.md). -/
def windowOpen (c : Nat) (s : State) : State :=
  let x := cand s c
  let len := (winDs s c : Int) * 100 * unitMs
  applyPends c (setCand c { x with winAt := x.winAt + (now s - x.winAt) / len * len } s)

/-- A write of LIMITS, MON or DRIFT (R12): it waits for the next window of a candidate that is monitored. -/
def writeCandMon (c off val : Nat) (s : State) : State :=
  if flag s R.REF_CAND_CFG_ENA c then
    let x := cand s c
    setCand c { x with pends := smPut 0x100000000 x.pends off val } s
  else softWord off val s

/-- FREQ_WINDOW_CLOSE (R149): the window's result, then the next window begins. -/
def execFreqWindowClose (c : Nat) (s : State) : Host.Outcome State Fault Refusal :=
  let s := s.begin
  ran (if timUp s && flag s R.REF_CAND_CFG_ENA c && decide (winEnd s c ≤ now s) then bwCheckAll (windowOpen c (windowClose c s)) else s)

/-- QUALIFY_TIME_EXPIRY (R150): consecutive good results have spanned QUAL_S seconds. -/
def execQualifyTimeExpiry (c : Nat) (s : State) : Host.Outcome State Fault Refusal :=
  let s := s.begin
  let x := cand s c
  ran (match x.goodSince with
    | none => s
    | some t =>
      if timUp s && candState s c = 2 && now s ≥ t + (zeroAs 1 (getF s R.REF_CAND_MON_QUAL_S c) : Int) * unitS then
        let s := setCand c { x with qualSince := some (now s), goodSince := none } (setCandState c 3 s)
        reselect (raise R.REF_CAND_EVENT_QUALIFIED s c)
      else s)

/-- WAIT_TO_RESTORE_EXPIRY (R155): the DPLL changes to the better entry whose wait has ended. -/
def execWaitToRestoreExpiry (d : Nat) (s : State) : Host.Outcome State Fault Refusal :=
  let s := s.begin
  ran (if timUp s then bwCheck d (rateCheck (dpllEval d s)) else s)

/-! ### Tables and controls -/

/-- Entry words of DPLL `d` go from the pending table to the table in force (R153). -/
def commitPrio (d : Nat) (s : State) : State :=
  (List.range 16).foldl (fun s e =>
    let f (x : Fld) : Fld := (x.on (4 * (e / 4))).up (8 * (e % 4))
    setF (f R.REF_DPLL_PRIO0_ENA) (getF s (f R.REF_DPLL_PRIO_PEND0_ENA) d)
      (setF (f R.REF_DPLL_PRIO0_CAND) (getF s (f R.REF_DPLL_PRIO_PEND0_CAND) d) s d) d) s

/-- A write of REF_COMMIT (R152, R153): every named table is in force, then one selection per DPLL. -/
def writeRefCommit (val : Nat) (s : State) : State :=
  reselect ((List.range 4).foldl (fun s d => whenS (bitOf val d) (commitPrio d) s) s)

/-- PRIO_TABLE_COMMIT (R153). -/
def execPrioTableCommit (req : Requester) (val : Nat) (s : State) : Host.Outcome State Fault Refusal :=
  ran (writeAt req 0x70008 (fun _ s => writeRefCommit val s) s.begin)

/-- A write of REF_DPLL_CFG, and the selection that follows (R162). -/
def writeDpllCfg (d val : Nat) (s : State) : State :=
  let s := setF R.REF_DPLL_CFG_MODE (bitsOf val 30 2) (setF R.REF_DPLL_CFG_REVERTIVE (bitsOf val 29 1)
    (setF R.REF_DPLL_CFG_QL_MODE (bitsOf val 28 1) (setF R.REF_DPLL_CFG_GUARD_ENA (bitsOf val 27 1)
      (setF R.REF_DPLL_CFG_GUARD_BW (bitsOf val 20 4) (setF R.REF_DPLL_CFG_BW (bitsOf val 16 4)
        (setF R.REF_DPLL_CFG_WTR_S (bitsOf val 0 16) s d) d) d) d) d) d) d
  reselect s

/-- DPLL_MODE_WRITE (R162). -/
def execDpllModeWrite (req : Requester) (d val : Nat) (s : State) : Host.Outcome State Fault Refusal :=
  ran (writeAt req (0x72000 + 0x100 * d) (fun _ s => writeDpllCfg d val s) s.begin)

/-- REALIGN (R167): remove b by slew or step, or ignore the command. -/
def dpllRealign (d : Nat) (s : State) : State :=
  let st := dpllState s d
  let x := dpll s d
  let c := getF s R.REF_DPLL_STAT_SEL_CAND d
  if !(candTimeAlign s c && flag s R.REF_DPLL_STAT_SEL_VALID d) || !(st == stACQUIRING || st == stLOCKED) then
    raise R.REF_DPLL_EVENT_REALIGN_IGNORED s d
  else if getF s R.REF_DPLL_CTL_REALIGN_MODE d = 1 then
    if d = 0 then
      if stepBusy false s then
        raise R.REF_DPLL_EVENT_REALIGN_IGNORED (requestStep false false false (x.b / 65536) s) d
      else setDpll d { x with realignStep := true } (requestStep false false false (x.b / 65536) s)
    else
      raise R.REF_DPLL_EVENT_REALIGN_DONE (setDpll d { x with theta := x.theta + 5 * x.b, b := 0, realign := false } s) d
  else if x.b = 0 then raise R.REF_DPLL_EVENT_REALIGN_DONE s d
  else setDpll d { x with realign := true, bRes5 := 0 } s

/-- A write of REF_DPLL_CTL: the fields, then re-alignment, then one selection (R152, R156, R162, R167). FORCE_ENA of DPLL0
becoming 1 ends the domain hold (R514); FORCE_ENA returning to 0 leaves the forced candidate selected if the table holds
it (R156). -/
def writeDpllCtl (d val : Nat) (s : State) : State :=
  let wasForce := flag s R.REF_DPLL_CTL_FORCE_ENA d
  let s := setF R.REF_DPLL_CTL_REALIGN_MODE (bitsOf val 29 2) (setF R.REF_DPLL_CTL_HO_REQ (bitsOf val 28 1)
    (setF R.REF_DPLL_CTL_FORCE_ENA (bitsOf val 27 1) (setF R.REF_DPLL_CTL_FORCE_CAND (bitsOf val 20 4) s d) d) d) d
  let force := bitOf val 27
  let s := if d = 0 && force then { s with tim := { s.tim with domHeld := false } } else s
  let s := if wasForce && !force then
      match entryOf s d (getF s R.REF_DPLL_STAT_SEL_CAND d) with
      | some e => setF R.REF_DPLL_STAT_SEL_ENTRY e s d
      | none => s
    else s
  let s := whenS (bitOf val 31) (dpllRealign d) s
  reselect s

/-- DPLL_HOLDOVER_REQUEST (R162): a write of HO_REQ. -/
def execDpllHoldoverRequest (req : Requester) (d val : Nat) (s : State) : Host.Outcome State Fault Refusal :=
  ran (writeAt req (0x7200C + 0x100 * d) (fun _ s => writeDpllCtl d val s) s.begin)

/-- DPLL_FORCE (R156): a write of FORCE_ENA. -/
def execDpllForce (req : Requester) (d val : Nat) (s : State) : Host.Outcome State Fault Refusal :=
  ran (writeAt req (0x7200C + 0x100 * d) (fun _ s => writeDpllCtl d val s) s.begin)

/-- DPLL_REALIGN (R167): a write of REALIGN. -/
def execDpllRealign (req : Requester) (d val : Nat) (s : State) : Host.Outcome State Fault Refusal :=
  ran (writeAt req (0x7200C + 0x100 * d) (fun _ s => writeDpllCtl d val s) s.begin)

/-- REALIGN_DONE (R167): the last cycle of a slewed re-alignment: b reaches 0. -/
def execRealignDone (d : Nat) (s : State) : Host.Outcome State Fault Refusal :=
  let s := s.begin
  let x := dpll s d
  let (_, r5, done) := slewCycle (slewWord s) x.b x.bRes5
  ran (if timRuns s && x.realign && done then
      raise R.REF_DPLL_EVENT_REALIGN_DONE (setDpll d { x with b := 0, bRes5 := r5, realign := false } s) d
    else s)

/-! ### The loop (R159, R163, R166) -/

/-- DPLL_LOOP_UPDATE (R159): at a sample of the selected candidate, at most once per 125 µs of the Last. -/
def execDpllLoopUpdate (d : Nat) (s : State) : Host.Outcome State Fault Refusal :=
  let s := s.begin
  let x := dpll s d
  let st := dpllState s d
  ran (if timUp s && (st == stACQUIRING || st == stLOCKED) && (x.firstUpd || now s ≥ x.lastUpd + 125 * unitUs) then
      loopUpdate d s
    else s)

/-! ### Holdover (R168, R169) -/

/-- HOLDOVER_AVG_UPDATE (R168): once per Last second while LOCKED; on the OCXO only while WARM. -/
def execHoldoverAvgUpdate (d : Nat) (s : State) : Host.Outcome State Fault Refusal :=
  let s := s.begin
  let x := dpll s d
  ran (if timUp s && dpllState s d = stLOCKED then
      let x := { x with lockedSecs := x.lockedSecs + 1 }
      if flag s R.REF_XO_STAT_SRC && !flag s R.REF_XO_STAT_WARM then setDpll d x s
      else
        let avg := x.avg + (x.w - x.avg) / (2 ^ satN 12 (getF s R.REF_DPLL_CFG2_HO_TAU d) : Nat)
        setDpll d { x with avg := avg, avgHist := ((now s, avg) :: x.avgHist).take 16 } s
    else s)

/-- HOLDOVER_W_UPDATE (R169): once per Last second in HOLDOVER. -/
def execHoldoverWUpdate (d : Nat) (s : State) : Host.Outcome State Fault Refusal :=
  let s := s.begin
  let x := dpll s d
  ran (if timRuns s && dpllState s d = stHOLDOVER then
      let th := (now s - x.hoSince) / unitS
      rateCheck (setDpll d { x with w := x.hoVal - (getS s R.REF_XO_AGE_AGE * th) / 4096 } s)
    else s)

/-- HOLDOVER_VALID (R168): LOCKED for HO_MIN_S seconds in total. -/
def execHoldoverValid (d : Nat) (s : State) : Host.Outcome State Fault Refusal :=
  let s := s.begin
  ran (if timUp s && (dpll s d).lockedSecs ≥ getF s R.REF_DPLL_CFG3_HO_MIN_S d then setF R.REF_DPLL_STAT_HO_VALID 1 s d else s)

/-! ### Open loop (R170) -/

/-- The 1 ms spacing from the latest applied write of the kind has passed. -/
def olFree (s : State) (x : OlWrite) : Bool :=
  match x.lastAt with
  | none => true
  | some t => decide (now s ≥ t + unitMs)

/-- Apply a frequency write: it sets w (R170). -/
def olApplyFreq (d : Nat) (v : Int) (s : State) : State :=
  let x := dpll s d
  rateCheck (setDpll d { x with w := v, freq := ⟨none, some (now s), s.tim.cyc⟩ } s)

/-- Apply a phase write: a slew of the Last on DPLL0, of theta on the others (R170). -/
def olApplyPhase (d : Nat) (v : Int) (s : State) : State :=
  let x := dpll s d
  let s := setDpll d { x with phase := ⟨none, some (now s), s.tim.cyc⟩ } s
  if d = 0 then addSlew v s
  else setDpll d { dpll s d with thSlew := (dpll s d).thSlew + v * 4294967296 } s

/-- A write of the kind was applied in this TIME cycle: until the next one it counts as held (R170). -/
def olThisCycle (s : State) (x : OlWrite) : Bool := x.lastAt.isSome && x.cyc == s.tim.cyc

/-- An open-loop frequency write (R170): applied, held, or replacing a held one; discarded outside OPEN. -/
def olFreq (d : Nat) (v : Int) (s : State) : State :=
  let x := dpll s d
  if dpllState s d ≠ stOPEN then s
  else if x.freq.held.isSome then
    raise R.REF_DPLL_EVENT_OL_COALESCED (setDpll d { x with freq := { x.freq with held := some v } } s) d
  else if olThisCycle s x.freq then raise R.REF_DPLL_EVENT_OL_COALESCED (olApplyFreq d v s) d
  else if olFree s x.freq then olApplyFreq d v s
  else setDpll d { x with freq := { x.freq with held := some v } } s

/-- An open-loop phase write (R170): applied, held, or added to a held one; discarded outside OPEN. -/
def olPhase (d : Nat) (v : Int) (s : State) : State :=
  let x := dpll s d
  if dpllState s d ≠ stOPEN then s
  else
    match x.phase.held with
    | some h => raise R.REF_DPLL_EVENT_OL_COALESCED (setDpll d { x with phase := { x.phase with held := some (h + v) } } s) d
    | none =>
      if olThisCycle s x.phase then raise R.REF_DPLL_EVENT_OL_COALESCED (olApplyPhase d v s) d
      else if olFree s x.phase then olApplyPhase d v s
      else setDpll d { x with phase := { x.phase with held := some v } } s

/-- OL_FREQ_WRITE (R170): a write of REF_DPLL_OL_FREQ +0x4. -/
def execOlFreqWrite (req : Requester) (d hi : Nat) (s : State) : Host.Outcome State Fault Refusal :=
  let off := 0x72060 + 0x100 * d
  ran (writeAt req (off + 4) (fun _ s => olFreq d (sx 48 (stagedWord s req off + hi * 2 ^ 32)) s) s.begin)

/-- OL_PHASE_WRITE (R170): a write of REF_DPLL_OL_PHASE +0x4. -/
def execOlPhaseWrite (req : Requester) (d hi : Nat) (s : State) : Host.Outcome State Fault Refusal :=
  let off := 0x72068 + 0x100 * d
  ran (writeAt req (off + 4) (fun _ s => olPhase d (stagedS64 s req off hi) s) s.begin)

/-- OL_WRITE_APPLY (R170): a held write, 1 ms after the latest applied write of its kind. -/
def execOlWriteApply (d : Nat) (isPhase : Bool) (s : State) : Host.Outcome State Fault Refusal :=
  let s := s.begin
  let x := dpll s d
  ran (if timUp s then
      if isPhase then
        match x.phase.held with
        | some v => if olFree s x.phase then olApplyPhase d v s else s
        | none => s
      else
        match x.freq.held with
        | some v => if olFree s x.freq then olApplyFreq d v s else s
        | none => s
    else s)

/-- HOST_PHASE_WRITE (R146): a write of REF_HOST_PHASE +0x4 posts a HOSTSTEER sample. -/
def execHostPhaseWrite (req : Requester) (hi : Nat) (s : State) : Host.Outcome State Fault Refusal :=
  ran (writeAt req 0x7001C (fun _ s => candSample 15 0 (stagedS64 s req 0x70018 hi) s) s.begin)

/-! ### Local oscillator (R172, R173) -/

/-- XO_CORR_WRITE (R172): the correction is in force and t_c restarts. -/
def writeXoCorr (v : Nat) (s : State) : State :=
  let s := setF R.REF_XO_CORR_CORR_HI (v / 2 ^ 32) (setF R.REF_XO_CORR_CORR_LO v s)
  rateCheck { s with ref := { s.ref with xoSince := now s } }

def execXoCorrWrite (req : Requester) (hi : Nat) (s : State) : Host.Outcome State Fault Refusal :=
  ran (writeAt req 0x7002C (fun _ s => writeXoCorr (stagedWord s req 0x70028 + hi % 65536 * 2 ^ 32) s) s.begin)

/-- WARM follows the test and, when used, the pin (R173): once 1 it falls only with a used pin. -/
def warmUpdate (s : State) : State :=
  let was := flag s R.REF_XO_STAT_WARM
  let use := flag s R.REF_XO_CFG_WARM_PIN_USE
  let pin := flag s R.REF_XO_STAT_PIN
  let warm := (was || flag s R.REF_XO_STAT_TEST_PASS) && (!use || pin)
  let s := setFlag R.REF_XO_STAT_WARM warm s
  if warm && !was then raise R.REF_EVENT_OCXO_WARM s
  else if was && !warm then raise R.REF_EVENT_OCXO_COLD s
  else s

/-- 30 samples' least-squares slope times 4,495 samples (R173): the sum of (2 i - 29) x_i, oldest first. -/
def slopeSum (xs : List Int) : Int :=
  (xs.reverse.foldl (fun (acc : Int × Int) x => (acc.1 + acc.2 * x, acc.2 + 2)) (0, -29)).1

/-- A sample of the stability test (R173), in 2^-48: the mean of w_dpll since the sample before while DPLL0 is LOCKED, else
the measurement against XIN; neither adds no sample. -/
def stabilitySample (xin : Option Int) (s : State) : State :=
  let dc := s.ref.cycles - s.ref.xoCycles
  let smp := if dpllState s 0 = stLOCKED && dc > 0 then some ((s.ref.wSum - s.ref.xoWSum) / dc) else xin
  let s := { s with ref := { s.ref with xoWSum := s.ref.wSum, xoCycles := s.ref.cycles } }
  match smp with
  | none => s
  | some x =>
    let xs := (x :: s.ref.xoSamples).take 30
    let s := { s with ref := { s.ref with xoSamples := xs } }
    if xs.length < 30 then s
    else
      let m := (slopeSum xs).natAbs * 1000000000000
      let unit := 44950 * 281474976710656
      let s := setF R.REF_XO_STAT_SLOPE (satN 65535 (m / unit)) s
      warmUpdate (setFlag R.REF_XO_STAT_TEST_PASS (m ≤ getF s R.REF_XO_CFG_WARM_SLOPE * unit) s)

/-- XO_STABILITY_SAMPLE (R173): every 10 s, on the grade with the warm-up logic. -/
def execXoStabilitySample (xin : Option Int) (s : State) : Host.Outcome State Fault Refusal :=
  let s := s.begin
  ran (if timUp s && hasOcxo s then stabilitySample xin s else s)

/-- TIME takes the level of the pin, on the grade with the warm-up logic. -/
def pinUpdate (s : State) : State :=
  if timUp s && hasOcxo s then warmUpdate (setFlag R.REF_XO_STAT_PIN s.sys.warmPin s) else s

/-- OCXO_WARM_PIN (R173): the pin changes level, which TIME takes while it runs. -/
def execOcxoWarmPin (level : Bool) (s : State) : Host.Outcome State Fault Refusal :=
  let s := s.begin
  ran (pinUpdate { s with sys := { s.sys with warmPin := level } })

/-! ### Candidate configuration (R143, R144) -/

/-- The configuration of a REFIN candidate is tested (R143): an invalid one leaves the candidate FAILED. -/
def candCfgTest (c : Nat) (s : State) : State :=
  let ok := candCfgOk s c
  let s := setCand c { cand s c with badCfg := !ok } s
  if ok then s else raise R.REF_EVENT_REF_CFG_INVALID s

/-- A write of REF_CAND_CFG (R150): a change of ENA, ALIGN or MDIV restarts the candidate at FAILED; with ENA its windows begin. -/
def writeCandCfg (c val : Nat) (s : State) : State :=
  let al := if c = 8 ∨ c = 9 ∨ c = 14 then 1 else bitsOf val 30 1
  let off := !flag s R.REF_CAND_CFG_ENA c
  let changed := getF s R.REF_CAND_CFG_ENA c ≠ bitsOf val 31 1 || b2n (candAlign s c) ≠ al
    || getF s R.REF_CAND_CFG_MDIV c ≠ bitsOf val 0 16
  let s := setF R.REF_CAND_CFG_ENA (bitsOf val 31 1) (setF R.REF_CAND_CFG_ALIGN al
    (setF R.REF_CAND_CFG_QL (bitsOf val 20 4) (setF R.REF_CAND_CFG_MDIV (bitsOf val 0 16) s c) c) c) c
  let s := whenS (off && bitOf val 31) (fun s => applyPends c (setCand c { cand s c with winAt := now s } s)) s
  let s := if changed then candCfgTest c (candFail c false s) else s
  reselect s

/-- CAND_CFG_WRITE (R150). -/
def execCandCfgWrite (req : Requester) (c val : Nat) (s : State) : Host.Outcome State Fault Refusal :=
  ran (writeAt req (0x71000 + 0x40 * c) (fun _ s => writeCandCfg c val s) s.begin)

/-- A write of REF_CAND_PERIOD +0x8 (R70, R143): the candidate restarts at FAILED; a period R70 rejects leaves the previous
one, raises PERIOD_INVALID and is an invalid configuration. -/
def writeCandPeriod (c : Nat) (p : Period) (s : State) : State :=
  let s := candFail c false s
  let s :=
    if p.ok then candCfgTest c (setPeriod 0x71004 0x40 p s c)
    else
      raise R.REF_EVENT_REF_CFG_INVALID (raise R.FLT_GEN_EVENT_PERIOD_INVALID
        (setCand c { cand s c with badCfg := true } s) 0 (0x7100C + 0x40 * c))
  reselect s

/-- CAND_PERIOD_WRITE (R143). -/
def execCandPeriodWrite (req : Requester) (c hi : Nat) (s : State) : Host.Outcome State Fault Refusal :=
  let off := 0x71004 + 0x40 * c
  ran (writeAt req (off + 8) (fun _ s =>
    writeCandPeriod c ⟨stagedWord s req off + stagedWord s req (off + 4) % 65536 * 2 ^ 32, hi % 16777216⟩ s) s.begin)

/-- One field pair of REF_SYNCE_BIND (R144): a candidate whose binding changes restarts at FAILED. A port that the grade lacks is not
taken (R2, R5, notes/assumptions/147.md). -/
def bindSynce (n ena port : Nat) (s : State) : State :=
  let e := R.REF_SYNCE_BIND_ENA.up (8 * n)
  let p := R.REF_SYNCE_BIND_PORT.up (8 * n)
  if !frontPresent s port then raise R.FLT_GEN_EVENT_GRADE_ABSENT_WRITE s
  else
    let changed := getF s e ≠ ena || getF s p ≠ port
    whenS changed (candFail (10 + n) false) (setF e ena (setF p port s))

/-- SYNCE_BIND_WRITE (R144). -/
def writeSynceBind (val : Nat) (s : State) : State :=
  let s := (List.range 4).foldl (fun s n => bindSynce n (bitsOf val (8 * n + 7) 1) (bitsOf val (8 * n) 6) s) s
  reselect s

def execSynceBindWrite (req : Requester) (val : Nat) (s : State) : Host.Outcome State Fault Refusal :=
  ran (writeAt req 0x70004 (fun _ s => writeSynceBind val s) s.begin)

end Sys2Proof.Machine
end

