-- ==== Sys2Proof/Machine/TsuOps.lean ====
section
/-!
DEFINITION. Sys2Proof/Machine/TsuOps.lean: tallies, receive timestamps, transmit times and constants (spec/03), and what a
lane and a port are (R75, R226 to R229).
-/
namespace Sys2Proof.Machine

/-! ### Ports and lanes -/

/-- The mode in force of port `p` (R229). -/
def portMode (s : State) (p : Nat) : Nat := getF s R.LNK_PORT_CFG_MODE p
def portFec (s : State) (p : Nat) : Nat := getF s R.LNK_PORT_CFG_FEC p

/-- Lanes of a mode (R229). -/
def modeLanes (m : Nat) : Nat :=
  if m = 5 ∨ m = 8 then 2 else if m = 7 ∨ m = 9 then 4 else if m = 10 then 8 else if m = 0 ∨ m > 11 then 0 else 1

/-- The port is a configured port: a mode that forms a port (R227, R228). -/
def isPort (s : State) (p : Nat) : Bool := frontPresent s p && portMode s p ≠ 0 && portMode s p < 11

/-- The lanes of port `p`. -/
def portLanes (s : State) (p : Nat) : List Nat := (List.range (modeLanes (portMode s p))).map (p + ·)

/-- The port that holds lane `n` (R228): itself, or a wider port that starts below it. -/
def portOfLane (s : State) (n : Nat) : Nat :=
  ((List.range 8).map (n - ·)).find? (fun p => modeLanes (portMode s p) > n - p) |>.getD n

/-- Quad of a lane. -/
def quadOf (n : Nat) : Nat := n / 4

/-- The tally divider M at the symbol rate of port mode `m`; a RAW lane's follows RATE_MULT (R77, R226, R227). -/
def modeM (s : State) (m p : Nat) : Option Nat :=
  if m = 1 ∨ m = 2 then some 8
  else if m = 3 then some 66
  else if m = 4 ∨ m = 5 ∨ m = 7 then some 165
  else if m = 6 ∨ m = 8 ∨ m = 9 ∨ m = 10 then some 170
  else if m = 11 then
    let r := getF s R.LNK_RAW_CFG_RATE_MULT p
    let r := if r < 64 ∨ r > 1440 then 1320 else r
    if r = 64 then some 8 else if r = 528 then some 66 else if r = 1320 then some 165
    else if r = 1360 ∧ flag s R.LNK_RAW_CFG_PAM4 p then some 170 else if r = 1440 then some 180 else none
  else none

/-- The tally divider of lane `n`, none where its rate has no tally (R77). -/
def laneM (s : State) (n : Nat) : Option Nat := let p := portOfLane s n; modeM s (portMode s p) p

/-- F_RX and F_TX of a mode and FEC (R515). -/
def fixOf (mode fec : Nat) : Nat × Nat :=
  match mode, fec with
  | 1, _ => (64, 48)
  | 2, _ => (64, 48)
  | 3, 1 => (2640, 660)
  | 3, _ => (528, 396)
  | 4, 1 => (3432, 1650)
  | 4, 2 => (11880, 3300)
  | 4, _ => (1320, 990)
  | 5, 2 => (6600, 1980)
  | 5, _ => (1320, 990)
  | 6, _ => (6800, 3400)
  | 7, 2 => (3960, 1320)
  | 7, _ => (1320, 990)
  | 8, _ => (4760, 2720)
  | 9, _ => (3400, 2720)
  | 10, _ => (3188, 2784)
  | _, _ => (0, 0)

/-- The data rate of a mode in Gbit/s (R327). -/
def modeRate (m : Nat) : Nat :=
  [0, 1, 1, 10, 25, 50, 50, 100, 100, 200, 400].getD m 0

/-- The word period T_q of a mode's timing lane (R226), in 2^-32 ns. -/
def wordPeriod (m : Nat) : Int :=
  if m = 1 ∨ m = 2 then 16 * unitNs
  else if m = 3 then 32 * 16 * unitNs / 165
  else if m = 4 ∨ m = 5 ∨ m = 7 then 40 * 32 * unitNs / 825
  else 40 * 16 * unitNs / 425

/-- The quad is FREE: its ports are rate-matched (R233, R235). -/
def quadFree (s : State) (q : Nat) : Bool := flag s (R.LNK_QUAD_CFG_REF.on (0x10 * q))

/-- A port is reported up to the protocol engine and the buffer in UP and TX_ONLY (R245). -/
def portUp (s : State) (p : Nat) : Bool := getF s R.LNK_PORT_STAT_STATE p == 5 || getF s R.LNK_PORT_STAT_STATE p == 6

/-! ### The tally (R77 to R81) -/

def tally (s : State) (n : Nat) : Tally := smGet Tally.reset s.tallies n

def setTally (n : Nat) (x : Tally) (s : State) : State := { s with tallies := smPut Tally.reset s.tallies n x }

/-- The phase of a tally edge `j` edges after its measurement, in 2^-9 tally unit (R79). -/
def tallyPhase (m : Meas) (j : Int) : Nat := (((m.phi * 512 : Nat) + m.dphi * j) % 1048576).toNat

/-- VALID becomes 0 (R81): LOCK with it, and both counts start afresh (R80). -/
def tallyInvalid (n : Nat) (s : State) : State :=
  let x := tally s n
  let s := setTally n { x with cur := none, prev := none, good := 0, posted := 0, sum := 0, n := 0, y := none, calOld := none,
                               invalidSince := if flag s R.TSU_TALLY_VALID n then now s else x.invalidSince } s
  activityCheck (setF R.TSU_TALLY_VALID 0 (setF R.TSU_TALLY_LOCK 0 s n) n)

/-- One measurement of lane `n` (R78): its change, VALID (R81), LOCK (R80), the window of R127 and the sums of the SYNCE
candidates bound to the lane's port (R147). `u0` is the UI index of the tally edge at which it takes effect. -/
def tallyPost (n phi : Nat) (u0 : Int) (s : State) : State :=
  let x := tally s n
  let phi := phi % 2048
  let last : Int := getF s R.TSU_TALLY_PHI n
  let dphi := ((phi : Int) - last + 1024) % 2048 - 1024
  let cdr := flag s R.LNK_LANE_STAT_CDR_LOCK n && flag s R.TSU_GSTAT_OFFSET_LOCK && !flag s R.LNK_LANE_CFG_RX_SLEEP n
  let posted := if cdr then satN 2 (x.posted + 1) else 0
  let valid := cdr && posted ≥ 2
  let inRange := decide (dphi.natAbs ≤ getF s R.TSU_GCFG_TALLY_SLIP)
  let good := if valid && inRange then satN 4 (x.good + 1) else 0
  let wasLock := flag s R.TSU_TALLY_LOCK n
  let lock := valid && good ≥ 4
  let sum := if lock then x.sum + dphi else 0
  let cnt := if lock then x.n + 1 else 0
  let full := cnt ≥ 4096
  let y := if full then some (-(sum * 64)) else if lock then x.y else none
  let s := setTally n { x with cur := some ⟨phi, dphi, u0, lock, valid⟩, prev := x.cur, good, posted,
                               sum := if full then 0 else sum, n := if full then 0 else cnt, y, bad := x.bad && !valid } s
  let s := setF R.TSU_TALLY_PHI phi (setF R.TSU_TALLY_DPHI (toU 11 dphi) (bump R.TSU_TALLY_CNT_COUNT s n) n) n
  let s := setFlag R.TSU_TALLY_VALID valid (setFlag R.TSU_TALLY_LOCK lock s n) n
  let s := (List.range 4).foldl (fun s k =>
    let c := 10 + k
    if synceBound s c == some n then setCand c { cand s c with tallySum := (cand s c).tallySum + dphi } s else s) s
  activityCheck (whenS (wasLock && valid && !inRange) (fun s => raise R.TSU_EVENT_TALLY_UNLOCK s n) s)

/-! ### Receive counts and replicas (R32, R33, R82, R251) -/

def repl (s : State) (q : Nat) : Repl := smGet Repl.reset s.lnk.replicas q
def setRepl (q : Nat) (r : Repl) (s : State) : State := { s with lnk := { s.lnk with replicas := smPut Repl.reset s.lnk.replicas q r } }

/-- The replica of quad `q` is loaded: the load's errors are not stated (R32, R33). -/
def loadReplica (q : Nat) (s : State) : State :=
  let (t, s) := drawInt s
  let (f, s) := drawInt s
  setRepl q { repl s q with tx := t, free := f } s

/-- The receive count and the replica of quad `q` are loaded, the count where the Last runs (R82). -/
def loadQuad (q : Nat) (s : State) : State :=
  let (r, s) := drawInt (loadReplica q s)
  let s := setRepl q { repl s q with loaded := timRuns s, rx := r } s
  whenS (timRuns s) (setF R.TSU_GSTAT_RXCOUNT_VALID 1) s

/-- On a FREE quad the handshake loads the replica anew (R33): its error is another. -/
def freeReload (q : Nat) (s : State) : State :=
  if quadFree s q then
    let (f, s) := drawInt s
    setRepl q { repl s q with free := f } s
  else s

/-- The error of the Last replica that the transmit side of port `p` uses, in fifths of 2^-32 ns: whole cycles on a TIMING quad, at most
2 T_q on a FREE one (R92). -/
def replErr5 (s : State) (p : Nat) : Int :=
  let r := repl s (quadOf p)
  if quadFree s (quadOf p) then
    let b := 2 * wordPeriod (portMode s p)
    5 * (r.free % (2 * b + 1) - b)
  else r.tx * cycle5

/-- The Last of the replica in the LANE island of output `o` over the Last, in 2^-32 ns. -/
def laneErr (s : State) (o : Nat) : Int := if o < 64 then replErr5 s o / 5 else 0

/-! ### Receive timestamps (R82 to R85, R96) -/

/-- d_rx or d_tx in 2^-32 ns: the three constants of the lane (R85, R91). -/
def laneDelay (s : State) (n : Nat) (tx : Bool) : Int :=
  if tx then (getS s R.TSU_CAL_TX_DELAY n + getF s R.TSU_PKG_PKG_TX n + getS s R.TSU_ASYM_TX_LATENCY n) * 65536
  else (getS s R.TSU_CAL_RX_DELAY n + getF s R.TSU_PKG_PKG_RX n + getS s R.TSU_ASYM_RX_LATENCY n) * 65536

/-- nterm of R85: `n` UI of 6.4 ns / `m`, in 2^-32 ns. -/
def uiTerm (n : Int) (m : Nat) : Int := (n * 137438953472 + (5 * m : Nat) / 2) / (5 * m : Nat)

/-- How many cycles ago the Last cycle k lies that R83 chooses: `age` cycles ago was the first rising Last clock edge after the tally edge,
and `early` says that the first falling edge came before it. The count at a falling edge is that of the rising edge before it. -/
def tallyAgo (phi9 age : Nat) (early : Bool) : Nat :=
  let cf := if early then age + 1 else age
  if phi9 < 512 then cf else if phi9 < 1536 then age + 1 else cf + 1

/-- d_rx of a tally edge (R104): the constants before the latest change where the edge precedes it. -/
def rxDelay (s : State) (p : Nat) (uEdge : Int) : Int :=
  match (tally s p).calOld with
  | some d => if uEdge < (tally s p).calU then d else laneDelay s p false
  | none => laneDelay s p false

/-- A receive timestamp: the time in 2^-32 ns, whether the measurement used was valid and locked, and how many cycles ago the Last cycle k
of its tally edge lies. -/
structure RxTime where
  t : Int
  valid : Bool
  locked : Bool
  ago : Nat
  deriving DecidableEq, Repr

/-- The receive timestamp (R84, R85): `uDet` is the UI index at which the SOF octet reaches the MAC. L_e is the receive count at cycle k.
A lane whose tally is not locked uses the middle of the cycle (R80). -/
def rxTime (s : State) (p : Nat) (uDet : Int) (age : Nat) (early : Bool) : RxTime :=
  let m := (laneM s p).getD 1
  let uSof := uDet - getF s R.TSU_FIX_F_RX p - getF s R.TSU_DESKEW_D p
  let n := uSof % (m : Int)
  let uEdge := uSof - n
  let x := tally s p
  let meas := match x.cur with
    | some c => if c.u0 ≤ uEdge then some c else x.prev
    | none => none
  let locked := (laneM s p).isSome && (match meas with | some c => c.locked | none => false)
  let valid := (laneM s p).isSome && (match meas with | some c => c.valid | none => false)
  let phi := match meas with
    | some c => if locked then tallyPhase c ((uEdge - c.u0) / m) else 524288
    | none => 524288
  let ago := tallyAgo (phi / 512) age early
  let le := (lastAgo s ago + (repl s (quadOf p)).rx * cycle5) / 5
  ⟨le + ((phi : Int) * 32768 + 2) / 5 + uiTerm n m - rxDelay s p uEdge, valid, locked, ago⟩

/-- The record of a timestamp (R96, R17); `count` is the step count in force at the tally edge. -/
def rxRecord (s : State) (p : Nat) (t : Int) (valid locked preempt : Bool) (count : Nat) : RxRec :=
  let r := T96.ofUnits t
  { sec := r.sec, ns := r.ns, frac := r.frac
    valid := valid && flag s R.TSU_TALLY_VALID p && flag s R.TSU_GSTAT_OFFSET_LOCK
    calInvalid := !flag s R.TSU_STATUS_CAL_VALID p
    coarse := !locked
    lastInvalid := !s.tim.lastValid
    epoch := count % 4
    preempt
    lane := p
    port := p }

/-- Word 3 of a record (R96). -/
def RxRec.flags (r : RxRec) : Nat :=
  b2n r.valid * 2 ^ 31 + b2n r.calInvalid * 2 ^ 30 + b2n r.coarse * 2 ^ 29 + b2n r.lastInvalid * 2 ^ 28
    + r.epoch % 4 * 2 ^ 26 + b2n r.preempt * 2 ^ 25 + r.lane % 256 * 256 + r.port % 256

/-- The four words of a record (R96). -/
def RxRec.words (r : RxRec) : List Nat :=
  [r.ns, r.sec % 2 ^ 32, r.sec / 2 ^ 32 % 65536 + r.frac * 65536, r.flags]

/-- Record time in 2^-16 ns. -/
def RxRec.t16 (r : RxRec) : Int := ((r.sec * 1000000000 + r.ns) * 65536 + r.frac : Nat)

/-- Write a record into TSU_RX_LAST or TSU_TX_LAST of port `p`. -/
def setRecord (f : Fld) (p : Nat) (r : RxRec) (s : State) : State :=
  (List.range 4).foldl (fun s k => setF (f.on (4 * k)) (r.words.getD k 0) s p) s

/-- A receive timestamp is formed (R76, R96): counted, and kept as the latest record. -/
def formRx (p : Nat) (x : RxTime) (preempt : Bool) (s : State) : Option RxRec × State :=
  if flag s R.TSU_CTL_RX_TS_ENA p && flag s R.TSU_GCFG_TS_ENA then
    let r := rxRecord s p x.t x.valid x.locked preempt (countAgo s x.ago)
    (some r, bump R.TSU_CNT_RX_COUNT (setRecord R.TSU_RX_LAST_WORD0 p r s) p)
  else (none, s)

/-! ### Transmit times (R91, R93) -/

/-- A transmit time in 2^-32 ns, and the step count and S_last that go with it (R99). -/
structure TxTime where
  t : Int
  count : Nat
  amt : Int
  deriving DecidableEq, Repr

/-- The Last cycle at which the pending step `q` applies, in 2^-32 ns, and its amount (R49, R52). -/
def stepAhead (s : State) (q : StepReq) : Int × Int :=
  let f := s.tim.last.fifths
  let at5 := f + (q.instant * 5 - f + cycle5 - 1) / cycle5 * cycle5
  (at5 / 5, if q.absolute then q.value - at5 / 5 else q.value)

/-- The replica's value `l` at a cycle to come, with the pending step where that cycle is not before it: a transmit time is on the side of
the step on which its tally edge falls (R49). -/
def onSide (s : State) (l : Int) : TxTime :=
  match s.tim.step with
  | some q =>
    let (at_, a) := stepAhead s q
    if at_ ≤ l then ⟨l + a, (s.tim.stepCount + 1) % 2 ^ 32, a⟩ else ⟨l, s.tim.stepCount, s.tim.stepAmt⟩
  | none => ⟨l, s.tim.stepCount, s.tim.stepAmt⟩

/-- Constants of a lane that wait for their tally edge (R104). -/
def calPend (s : State) (n : Nat) : CalPend := smGet CalPend.reset s.calPends n
def setCalPend (n : Nat) (x : CalPend) (s : State) : State := { s with calPends := smPut CalPend.reset s.calPends n x }

/-- d_tx of the tally edge `q` edges on (R91, R104): constants that wait are in force from the next edge. -/
def txDelay (s : State) (p : Nat) (q : Int) : Int :=
  let x := calPend s p
  let v (f : Fld) (o : Option Nat) : Int := match o with | some w => sx 32 w | none => getS s f p
  if q ≥ 1 then (v R.TSU_CAL_TX_DELAY x.calTx + getF s R.TSU_PKG_PKG_TX p + v R.TSU_ASYM_TX_LATENCY x.asymTx) * 65536
  else laneDelay s p true

/-- The transmit time (R91): the latest transmit tally edge fell on the Last cycle `back` cycles ago, four at most, and `uIns` is the UI
index of the SOF octet counted from that edge; tally edges are four Last cycles apart. -/
def txTime (s : State) (p : Nat) (back : Nat) (uIns : Int) : TxTime :=
  let m := (laneM s p).getD 1
  let u := uIns + getF s R.TSU_FIX_F_TX p
  let q := u / (m : Int)
  let x := onSide s ((s.tim.last.fifths + (4 * q - (back % 4 : Nat)) * cycle5 + replErr5 s p) / 5)
  { x with t := x.t + uiTerm (u % (m : Int)) m + txDelay s p q }

/-- Transmit times are formed on port `p` (R76). -/
def txTsOn (s : State) (p : Nat) : Bool := flag s R.TSU_CTL_TX_TS_ENA p && flag s R.TSU_GCFG_TS_ENA

/-- A transmit time is formed: TSU_TX_LAST holds it (R93). Beside the layout of R96 and PREEMPT 0 the spec does not say what the flags of
this record are: DESIGN CHOICE, VALID is 1 and TALLY_COARSE 0 (notes/assumptions/149.md). -/
def formTx (p : Nat) (x : TxTime) (s : State) : State :=
  setRecord R.TSU_TX_LAST_WORD0 p { rxRecord s p x.t true true false x.count with valid := true, coarse := false } s

/-! ### Constants (R104) -/

/-- The constants waiting for a tally edge of lane `n` come into force at the edge with UI index `u`; a timestamp of an edge before it keeps
the old ones. -/
def calApply (n : Nat) (u : Int) (s : State) : State :=
  let x := calPend s n
  let s := if x.calRx.isSome ∨ x.asymRx.isSome then setTally n { tally s n with calU := u, calOld := some (laneDelay s n false) } s else s
  let put (f : Fld) (v : Option Nat) (s : State) : State := match v with | some v => setF f v s n | none => s
  setCalPend n CalPend.reset
    (put R.TSU_CAL_RX_DELAY x.calRx (put R.TSU_CAL_TX_DELAY x.calTx
      (put R.TSU_ASYM_RX_LATENCY x.asymRx (put R.TSU_ASYM_TX_LATENCY x.asymTx s))))

/-- TSU_FIX and the mode fields of TSU_STATUS follow the mode in force (R515, R75). -/
def tsuMode (p : Nat) (s : State) : State :=
  let on := isPort s p
  let m := portMode s p
  let fec := portFec s p
  let (frx, ftx) := if on then fixOf m fec else (0, 0)
  let code := if !on then 0 else if m ≤ 2 then 1 else if fec = 0 then 2 else fec + 2
  setF R.TSU_FIX_F_RX frx (setF R.TSU_FIX_F_TX ftx (setF R.TSU_STATUS_MODE code
    (setF R.TSU_STATUS_LANES (if on then modeLanes m else 0) (setF R.TSU_STATUS_TIMING_LANE (if on then p else 0)
      (setFlag R.TSU_STATUS_PORT_ACTIVE on (setFlag R.TSU_STATUS_RATE_MATCHED (on && quadFree s (quadOf p)) s p) p) p) p) p) p) p

end Sys2Proof.Machine
end

