-- ==== Sys2Proof/Machine/MonOps.lean ====
section
/-!
DEFINITION. Sys2Proof/Machine/MonOps.lean: the port counters as the other blocks drive them (spec/18 R469 to R473, R476).
-/
namespace Sys2Proof.Machine

/-- Field of programmable counter `k`. -/
def cntFld (f : Fld) (k : Nat) : Fld := f.on (8 * k)

/-- Counters the grade has (R469). -/
def cntCount (s : State) : Nat := if hasCnt8 s then 8 else 4

/-- Add `n` to counter `k` of port `p`; a wrap modulo 2^48 sets its wrap bit (R473). -/
def cntAdd (p k n : Nat) (s : State) : State :=
  let v := getW s (cntFld R.MON_CNT_CNT_LO k) (cntFld R.MON_CNT_CNT_HI k) p + n
  let s := setF (cntFld R.MON_CNT_CNT_HI k) (v / 2 ^ 32 % 65536) (setF (cntFld R.MON_CNT_CNT_LO k) v s p) p
  if v ≥ 2 ^ 48 then
    raiseAt R.MON_EVENT_CNT_WRAP 0 p 0 (setF R.MON_CNT_WRAP_CNT (putBit (getF s R.MON_CNT_WRAP_CNT p) k true) s p)
  else s

/-- Event `code` of R470 in the block of port `p`: class `tc` where the event has one, reason or input `sel`, increment. -/
def monEvent (code p : Nat) (tc : Option Nat) (sel : Nat) (n : Nat) (s : State) : State :=
  if flag s R.MON_GCFG_CNT_ENA then
    (List.range (cntCount s)).foldl (fun s k =>
      let hit := getF s (cntFld R.MON_CNT_CFG_EVENT k) p == code
        && (match tc with
            | some c => !flag s (cntFld R.MON_CNT_CFG_TC_ENA k) p || getF s (cntFld R.MON_CNT_CFG_TC k) p == c
            | none => true)
        && (!(code == 7 || code == 8) || getF s (cntFld R.MON_CNT_CFG_SEL k) p == 0
            || getF s (cntFld R.MON_CNT_CFG_SEL k) p == sel)
      if hit then cntAdd p k n s else s) s
  else s

/-- A frame of `octets` octets counts in the bandwidth window of port `p` under way (R476). -/
def bwAdd (tx : Bool) (p octets : Nat) (s : State) : State :=
  if flag s R.MON_GCFG_CNT_ENA then
    let n := octets + (if flag s R.MON_GCFG_BW_LINE then 20 else 0)
    let k := 2 * p + b2n tx
    { s with mon := { s.mon with bw := smPut 0 s.mon.bw k (smGet 0 s.mon.bw k + n) } }
  else s

/-! ### Queue histograms (R477, R478) -/

/-- The bin of a sample. -/
def histBin (base v : Nat) : Nat :=
  let b := zeroAs 1 base
  if v < b then 0 else ((List.range 14).find? fun i => decide (v < b * 2 ^ (i + 1))).elim 15 (· + 1)

/-- Counter of bin `b` of unit `u`. -/
def histFld (u b : Nat) : Fld := ⟨0xF0440 + 0x80 * u + 4 * b, 0, 32, 0⟩

/-- Unit `u` takes sample `v`. -/
def histAdd (u v : Nat) (s : State) : State :=
  if flag s R.MON_GCFG_CNT_ENA && flag s R.MON_HIST_CFG_ENA u && !flag s R.MON_HIST_CFG_HOLD u then
    let f := histFld u (histBin (getF s R.MON_HIST_BASE_BASE u) v)
    let c := satN 0xFFFFFFFF (getF s f + 1)
    let s := bump R.MON_HIST_STAT_SAMPLES (setF f c s) u
    let v := satN 0xFFFFFFFF v
    let s := if v > getF s R.MON_HIST_MAX_MAX u then setF R.MON_HIST_MAX_MAX v s u else s
    if c = 0xFFFFFFFF && !flag s R.MON_HIST_STAT_SAT u then
      raiseAt R.MON_EVENT_HIST_SAT 0 u 0 (setF R.MON_HIST_STAT_SAT 1 s u)
    else s
  else s

/-- A copy of input `i` and class `c` starts on output `o` `v` ns after its enqueue. -/
def histDelay (i o c v : Nat) (s : State) : State :=
  (List.range 8).foldl (fun s u =>
    let out := getF s R.MON_HIST_CFG_OUTPUT u == o
    let cls := out && getF s R.MON_HIST_CFG_TC u == c
    let hit := match getF s R.MON_HIST_CFG_KIND u with
      | 1 => cls && getF s R.MON_HIST_CFG_INPUT u == i
      | 3 => cls
      | 5 => out
      | _ => false
    if hit then histAdd u v s else s) s

end Sys2Proof.Machine
end

