-- ==== Sys2Proof/Machine/BufOps.lean ====
section
/-!
DEFINITION. Sys2Proof/Machine/BufOps.lean: frames and copies in BUF, admission quantities, octets
(spec/10).
-/
namespace Sys2Proof.Machine

/-! ### Frames and copies -/

def frameAt (s : State) (f : Nat) : Option Frame := smGet none s.buf.frames f

def setFrame (f : Nat) (x : Option Frame) (s : State) : State :=
  { s with buf := { s.buf with frames := smPut none s.buf.frames f x } }

/-! ### Cells (R283, R284) -/

/-- Cells of `n` octets (R284). -/
def cellsOf (n : Nat) : Nat := (n + 255) / 256

/-- The cells of frame `f`, in the order of their chain. -/
def cellChain (s : State) (f : Nat) : List Nat := smGet [] s.buf.cells f

/-- Free cells of stripe `k`. -/
def stripeFree (s : State) (k : Nat) : Nat := 65536 - s.buf.unused.getD k 0 + (s.buf.back.getD k []).length

/-- BUF_GSTAT.FREE_CELLS (R292): withheld cells are on no free list (R442). -/
def freeCells (s : State) : Nat := stripeFree s 0 + stripeFree s 1 + stripeFree s 2 + stripeFree s 3

/-- Take the first cell of the free list of stripe `k`: its index (R283); none where the list is empty. -/
def takeCell (k : Nat) (s : State) : Option (Nat × State) :=
  let u := s.buf.unused.getD k 0
  if u < 65536 then some (65536 * k + u, { s with buf := { s.buf with unused := s.buf.unused.set k (u + 1) } })
  else match s.buf.back.getD k [] with
    | a :: l => some (65536 * k + a, { s with buf := { s.buf with back := s.buf.back.set k l } })
    | [] => none

/-- A cell goes back to the end of its stripe's free list. -/
def returnCell (s : State) (c : Nat) : State :=
  let k := c / 65536
  { s with buf := { s.buf with back := s.buf.back.set k (s.buf.back.getD k [] ++ [c % 65536]) } }

/-- Write words `a` up to `b` of the chain `l`, 32 octets each (R439), eight to a cell: word `w` of a cell lies in bank 8s + w (R283). -/
def writeWords (l : List Nat) (a b : Nat) (s : State) : State :=
  (List.range (b - a)).foldl (fun s k =>
    let w := a + k
    match l[w / 8]? with
    | some c => fullWrite 0 ((8 * (c / 65536) + w % 8) * 65536 + c % 65536) s
    | none => s) s

/-- Extend the chain of frame `f` by `n` cells, cell j in the stripe after that of cell j - 1 (R284), each with its link; `k` is the
stripe of the next one. Whether a cell was free for each (R293). -/
def chainCells (f : Nat) : Nat → Nat → State → Bool × State
  | 0, _, s => (true, s)
  | n + 1, k, s =>
    match takeCell k s with
    | some (c, s) =>
      chainCells f n ((k + 1) % 4) (fullWrite 1 c { s with buf := { s.buf with cells := smPut [] s.buf.cells f (cellChain s f ++ [c]) } })
    | none => (false, s)

/-- Frame `f` needs cells for `n` octets, of which `old` have been written: whether a cell was free for each (R293). The stripe of the
first cell is that with the fewest accesses pending, which the model leaves free (R284, notes/assumptions/164.md). -/
def storeCells (f old n : Nat) (s : State) : Bool × State :=
  let l := cellChain s f
  let (k, s) := match l.getLast? with
    | some c => ((c / 65536 + 1) % 4, s)
    | none => let (v, s) := drawInt s; ((v % 4).toNat, s)
  let (ok, s) := chainCells f (cellsOf n - l.length) k s
  (ok, writeWords (cellChain s f) (old / 32) ((n + 31) / 32) s)

/-- The charge of every copy of a frame of which `n` octets have come: never below the cells these need, and those cells once it has
ended (R290). -/
def chargeCopies (x : Frame) : List Copy :=
  let n := cellsOf x.octets.length
  x.copies.map fun y => { y with charge := if x.ended then n else max y.charge n }

/-- The cells of frame `f` return to the free lists, in the order of the chain (R295). -/
def freeChain (f : Nat) (s : State) : State :=
  let s' := (cellChain s f).foldl returnCell s
  { s' with buf := { s'.buf with cells := smPut [] s'.buf.cells f [] } }

/-- A frame of which no copy is left has no cells (R295); one that has ended and waits for nothing leaves the tables. -/
def reapFrame (f : Nat) (s : State) : State :=
  match frameAt s f with
  | some x =>
    if x.admitted && x.copies.isEmpty then
      let s := freeChain f s
      if x.ended && x.frer ≠ .waiting && x.frer ≠ .held then setFrame f none s else s
    else s
  | none => s

/-- A new frame takes the next number. -/
def addFrame (x : Frame) (s : State) : State :=
  setFrame s.buf.nextFrame (some x) { s with buf := { s.buf with nextFrame := s.buf.nextFrame + 1 } }

/-- A frame as it arrives: `octets` so far, from the destination address. -/
def newFrame (s : State) (port : Nat) (octets : List Nat) (rx : Option RxRec) : Frame :=
  { port, octets, ended := false, bad := none, rx, stepCount := s.tim.stepCount, headDone := false, ing := none,
    needTail := false, ins := none, ptp := none, engine := none, tfwd := false, dom := none, adds := [], frer := .none, genNo := none, admitted := false, reason := 0, rule := none, cause := 0, directed := none, host := none,
    stored := false, copies := [] }

/-- Every frame with its number. -/
def frames (s : State) : List (Nat × Frame) := s.buf.frames.filterMap fun p => p.2.map fun x => (p.1, x)

/-- The sum of `g` over all copies that satisfy `p`. -/
def sumCopies (s : State) (g : Frame → Copy → Nat) : Nat :=
  (frames s).foldl (fun a x => x.2.copies.foldl (fun a c => a + g x.2 c) a) 0

/-! ### Admission quantities (R290 to R293) -/

def clsF (f : Fld) (c : Nat) : Fld := f.on (0x10 * c)

/-- C(o,c): cells of all queued copies of output `o` and class `c`. -/
def aggregate (s : State) (o c : Nat) : Nat := sumCopies s fun _ y => if y.out = o ∧ y.tc = c then y.charge else 0

/-- The outputs the grade has. -/
def outputs (s : State) : List Nat := (List.range 66).filter (portPresent s)

/-- Every present output and class. -/
def aggregates (s : State) : List (Nat × Nat) := (outputs s).flatMap fun o => (List.range 8).map fun c => (o, c)

def minCells (s : State) (o c : Nat) : Nat := getF s (clsF R.BUF_CLS_ADM_MIN c) o

/-- shared_used of R290. -/
def sharedUsed (s : State) : Nat := (aggregates s).foldl (fun a x => a + (aggregate s x.1 x.2 - minCells s x.1 x.2)) 0

/-- P(k) of R290. -/
def poolUsed (s : State) (k : Nat) : Nat :=
  (aggregates s).foldl (fun a x => if getF s (clsF R.BUF_CLS_ADM_POOL x.2) x.1 = k then a + aggregate s x.1 x.2 else a) 0

/-- SHARED_SIZE of R291 from the headroom and the MIN values in force. -/
def sharedSize (s : State) : Int :=
  262144 - getF s R.BUF_HEADROOM_HEADROOM - ((aggregates s).foldl (fun a x => a + minCells s x.1 x.2) 0 : Nat)

/-- floor(alpha x F) of R290: ALPHA -8 acts as -7, above 3 as 3; a drop-eligible copy divides by 2^DE_SHIFT. -/
def alphaF (s : State) (o c : Nat) (de : Bool) : Nat :=
  let a := clampI (-7) 3 (sx 4 (getF s (clsF R.BUF_CLS_ADM_ALPHA c) o))
  let e := if de then a - getF s R.BUF_GCFG_DE_SHIFT else a
  let free := (sharedSize s).toNat - sharedUsed s
  if e ≥ 0 then free * 2 ^ e.toNat else free / 2 ^ (-e).toNat

/-- EST_CELLS as it acts (R290). -/
def estCells (s : State) : Nat := satN 64 (zeroAs 1 (getF s R.BUF_GCFG_EST_CELLS))

/-! ### CRC-32 (IEEE 802.3, PRESUMED: notes/assumptions/21.md) -/

/-- One octet into the reflected CRC-32. -/
def crcStep (r o : Nat) : Nat :=
  (List.range 8).foldl (fun r _ => if r % 2 = 1 then Nat.xor (r / 2) 0xEDB88320 else r / 2) (Nat.xor r (o % 256))

/-- CRC-32 of octets. -/
def crc32 (l : List Nat) : Nat := Nat.xor (l.foldl crcStep 0xFFFFFFFF) 0xFFFFFFFF

/-- The four octets of an FCS, least significant first. -/
def fcsOf (v : Nat) : List Nat := [v % 256, v / 256 % 256, v / 65536 % 256, v / 16777216 % 256]

/-- What an ended frame's FCS says (R301): 0 good, else the reason FCS_BAD or FCS_STOMPED. -/
def fcsCheck (l : List Nat) : Nat :=
  let n := l.length - 4
  let c := crc32 (l.take n)
  if l.drop n = fcsOf c then 0 else if l.drop n = fcsOf (0xFFFFFFFF - c) then 0x0D else 0x0C

/-! ### Octets -/

/-- `n` octets from `off`, big-endian. -/
def beAt (l : List Nat) (off n : Nat) : Nat := ((l.drop off).take n).foldl (fun a o => a * 256 + o % 256) 0

/-- `v` as `n` octets, big-endian. -/
def beOf (v n : Nat) : List Nat := (List.range n).map fun k => v / 256 ^ (n - 1 - k) % 256

/-- Overwrite octets at `off`. -/
def patch (l : List Nat) (off : Nat) (b : List Nat) : List Nat := l.take off ++ b ++ l.drop (off + b.length)

/-! ### Link hold (R302, R303) -/

def holdOf (s : State) (o : Nat) : Hold := smGet ⟨0, 0⟩ s.buf.holds o

def setHold (o : Nat) (h : Hold) (s : State) : State :=
  { s with buf := { s.buf with holds := smPut ⟨0, 0⟩ s.buf.holds o h } }

end Sys2Proof.Machine
end

