-- ==== Sys2Proof/Machine/EgrLvl.lean ====
section
/-!
DEFINITION. Sys2Proof/Machine/EgrLvl.lean: gate lists, the queues that EGR sees, and the levels of its shapers (spec/11).
-/
namespace Sys2Proof.Machine

/-! ### Outputs -/

def egrPort (s : State) (o : Nat) : EgrPort := smGet EgrPort.reset s.egr.ports o
def setEgrPort (o : Nat) (x : EgrPort) (s : State) : State :=
  { s with egr := { s.egr with ports := smPut EgrPort.reset s.egr.ports o x } }

/-! ### Gate lists (R320 to R323) -/

/-- The period of a list. -/
def GateList.period (g : GateList) : Period := ⟨g.num, g.den⟩

/-- The admin copy of output `o` as a list. -/
def adminList (s : State) (o : Nat) : GateList :=
  let p := getPeriod s 0xD0140 0x100000 o
  { base := (getT96 s 0xD0120 0x100000 o).units, num := p.num, den := p.den
    ext := getF s R.EGR_GATE_EXT_EXT_NS o, since := 0
    entries := (List.range (min 256 (getF s R.EGR_GATE_LEN_ADMIN_LEN o))).map fun e =>
      let w := smGet (0, 0) s.egr.admin (o * 256 + e)
      if eccDead s 11 (o * 512 + e) then (0, getF s R.EGR_GATE_CFG_INIT_STATES o, w.2) else (bitsOf w.1 8 3, bitsOf w.1 0 8, w.2) }

/-- An entry of a cycle in force: index, start, end, operation and gates. -/
structure Slice where
  idx : Nat
  st : Int
  en : Int
  op : Nat
  gates : Nat
  deriving DecidableEq, Repr

/-- The entries of the cycle from `c` to `e` that are ever in force (R320). -/
def slices (g : GateList) (c e : Int) : List Slice :=
  let raw := (g.entries.foldl (fun (acc : Nat × Int × List Slice) (x : Nat × Nat × Nat) =>
    let (i, st, l) := acc
    let en := st + (x.2.2 : Int) * unitNs
    (i + 1, en, if x.2.2 ≠ 0 ∧ st < e then l ++ [⟨i, st, if en > e then e else en, x.1, x.2.1⟩] else l)) (0, c, [])).2.2
  match raw.getLast? with
  | some z => raw.dropLast ++ [{ z with en := e }]
  | none => []

/-- The cycle index that holds `t`. -/
def GateList.cycleOf (g : GateList) (t : Int) : Int := ((t - g.base) * g.den) / ((g.num : Int) * 4294967296)

/-- The entry in force at `t` when the list runs alone; none where no entry ever is. -/
def GateList.at (g : GateList) (t : Int) : Option Slice :=
  let k := g.cycleOf t
  let c := (g.period.instant g.base k).up
  let e := (g.period.instant g.base (k + 1)).up
  (slices g c e).find? fun z => decide (z.st ≤ t ∧ t < z.en)

/-- The list a pending change puts in force: the oper list on its own base again (R325), or the admin copy. -/
def pendList (s : State) (o : Nat) (p : GatePend) : Option GateList :=
  if p.realign then (egrPort s o).oper.map fun g => { g with base := (getT96 s 0xD0130 0x100000 o).units, since := p.tc }
  else some { adminList s o with since := p.tc }

/-- The entry of output `o` in force at instant `t` of its LANE island's replica, and where it ends at the latest: the pending change of
R323 counted in. -/
def entryOn (s : State) (o : Nat) (t : Int) : Option Slice :=
  let x := egrPort s o
  match x.pend with
  | none => x.oper.bind (·.at t)
  | some p =>
    if t ≥ p.tc then (pendList s o p).bind (·.at t)
    else
      let u := match p.suppress with | some cl => if t ≥ cl then cl - 1 else t | none => t
      (x.oper.bind (·.at u)).map fun z =>
        let en := match p.suppress with | some cl => if t ≥ cl ∨ z.en ≥ cl then p.tc else z.en | none => z.en
        { z with en := if en > p.tc then p.tc else en }

/-- The entry of output `o` in force at the Last instant `t`: gates are evaluated against the replica, and an event that came late applies at
the next transmit block boundary (R35). -/
def entryAt (s : State) (o : Nat) (t : Int) : Option Slice :=
  let e := laneErr s o
  let on (t : Int) : Option Slice := (entryOn s o (t + e)).map fun z => { z with st := z.st - e, en := z.en - e }
  match (egrPort s o).late with
  | some (b, a) => if b ≤ t ∧ t < a then (on (b - 1)).map fun z => { z with en := a } else on t
  | none => on t

def gateEna (s : State) (o : Nat) : Bool := o < 64 && flag s R.EGR_GATE_CFG_ENA o

/-- A list is in force at `t`. -/
def listRuns (s : State) (o : Nat) (t : Int) : Bool :=
  (egrPort s o).oper.isSome || (match (egrPort s o).pend with | some p => decide (p.tc ≤ t) | none => false)

/-- Gate states at `t` (R320, R321). -/
def statesAt (s : State) (o : Nat) (t : Int) : Nat :=
  if !gateEna s o then 0xFF
  else match entryAt s o t with | some z => z.gates | none => getF s R.EGR_GATE_CFG_INIT_STATES o

def gateOpen (s : State) (o c : Nat) (t : Int) : Bool := bitOf (statesAt s o t) c

/-! ### Queues and tags (R288, R298, R313) -/

/-- A copy is visible to EGR (R289, R298). -/
def visible (x : Frame) (y : Copy) : Bool :=
  y.st == .queued && x.bad.isNone && !x.needTail && (x.frer == .none || x.frer == .passed)
    && (x.stored || (y.ready && (x.ended || x.octets.length ≥ 256)))

/-- The head of queue (input, output, class): the copy enqueued first (R288), where it is visible. -/
def queueHead (s : State) (i o c : Nat) : Option (Nat × Frame × Copy) :=
  let l := (frames s).filterMap fun p =>
    if p.2.port = i then (p.2.copies.find? fun y => y.out == o && y.tc == c && y.st == .queued).map fun y => (p.1, p.2, y) else none
  let h := l.foldl (fun (a : Option (Nat × Frame × Copy)) z =>
    match a with | none => some z | some b => if z.2.2.qno < b.2.2.qno then some z else some b) none
  match h with
  | some z => if visible z.2.1 z.2.2 then some z else none
  | none => none

/-- Inputs with a copy queued for an output and class. -/
def queueInputs (s : State) (o c : Nat) : List Nat :=
  ((frames s).filterMap fun p => if p.2.copies.any fun y => y.out == o && y.tc == c && y.st == .queued then some p.2.port else none).eraseDups

/-- Visible queue heads of an output and class. -/
def heads (s : State) (o c : Nat) : List (Nat × Frame × Copy) := (queueInputs s o c).filterMap fun i => queueHead s i o c

/-- The class is backlogged: a copy is visible. -/
def backlogged (s : State) (o c : Nat) : Bool := !(heads s o c).isEmpty

def tagKey (c i : Nat) : Nat := c * 66 + i
def tagOf (s : State) (o c i : Nat) : Option Nat := smGet none (egrPort s o).tags (tagKey c i)
def lastTagOf (s : State) (o c i : Nat) : Option Nat := smGet none (egrPort s o).tags (528 + tagKey c i)
def setTag (o k : Nat) (v : Option Nat) (s : State) : State :=
  let x := egrPort s o
  setEgrPort o { x with tags := smPut none x.tags k v } s

def egrCls (s : State) (o c : Nat) : EgrCls := (egrPort s o).cls.getD c ⟨0, 0, 0, 0, none⟩
def setEgrCls (o c : Nat) (v : EgrCls) (s : State) : State :=
  let x := egrPort s o
  setEgrPort o { x with cls := x.cls.set c v } s

/-! ### Shapers (R316 to R319) -/

def shaper (s : State) (o c : Nat) : Nat := getF s (clsF R.EGR_CLS_CFG_SHAPER c) o

/-- The output is down or in link hold: levels are held (R319). -/
def outHeld (s : State) (o : Nat) : Bool := o < 64 && (!portUp s o || (holdOf s o).st ≠ 0)

/-- Bring the level of one class up to the present Last (R316 to R318). A frame that is selected and has not started counts as backlog
(notes/assumptions/165.md). -/
def shaperTouch (o c : Nat) (s : State) : State :=
  let x := egrCls s o c
  let t := copyNow s islEGR / unitNs
  let dt := if t - x.tUpd < 0 then 0 else t - x.tUpd
  let m := shaper s o c
  if (m ≠ 1 ∧ m ≠ 2) ∨ outHeld s o then setEgrCls o c { x with tUpd := t } s
  else
    let y := getF s (clsF R.EGR_CLS_RATE_RATE c) o * dt.toNat * 4 + x.rem
    let gain : Int := (y / 125000 : Nat)
    let r := y % 125000
    if m = 1 then
      let b : Int := getF s (clsF R.EGR_CLS_BURST_BURST c) o * 256
      setEgrCls o c { x with level := if x.level + gain > b then b else x.level + gain, rem := r, tUpd := t } s
    else
      let log := backlogged s o c || (match (egrPort s o).sel with | some t => t.tc == c && t.tTx.isNone | none => false)
      let opn := gateOpen s o c (x.tUpd * unitNs)
      if log then
        if opn then setEgrCls o c { x with level := x.level + gain, rem := r, tUpd := t } s
        else setEgrCls o c { x with tUpd := t } s
      else if x.level ≥ 0 then setEgrCls o c { x with level := 0, rem := 0, tUpd := t } s
      else setEgrCls o c { x with level := if x.level + gain > 0 then 0 else x.level + gain, rem := r, tUpd := t } s

/-- Every class of an output. -/
def touchOut (o : Nat) (s : State) : State := (List.range 8).foldl (fun s c => shaperTouch o c s) s

/-- The shaper lets the class go. -/
def shaperOk (s : State) (o c : Nat) : Bool := (shaper s o c ≠ 1 && shaper s o c ≠ 2) || decide ((egrCls s o c).level ≥ 0)

/-- The level as EGR_CLS_LEVEL reads: 0 for mode none, saturated. -/
def levelRead (s : State) (o c : Nat) : Int :=
  if shaper s o c = 1 ∨ shaper s o c = 2 then clampI (-2147483648) 2147483647 (egrCls s o c).level else 0

/-- The levels of the classes in which copies of frame `f` wait, before what changes their backlog (R318). -/
def touchFrame (f : Nat) (s : State) : State :=
  match frameAt s f with
  | some x => x.copies.foldl (fun s y => shaperTouch y.out y.tc s) s
  | none => s

/-- A queue that has become empty otherwise than by a selection keeps no tag, nor has its class one in the band (R314). -/
def settleQueue (i o c : Nat) (s : State) : State :=
  let s := if (queueHead s i o c).isSome then s else setTag o (tagKey c i) none s
  if (heads s o c).isEmpty then setEgrCls o c { egrCls s o c with bandF := none } s else s

end Sys2Proof.Machine
end

