-- ==== Sys2Proof/Machine/BufDrop.lean ====
section
/-!
DEFINITION. Sys2Proof/Machine/BufDrop.lean: the sump, discards, stomps and link holds (spec/10).
-/
namespace Sys2Proof.Machine

/-! ### The sump (R306, R307) -/

def sumpKey (kind port reason : Nat) : Nat := (kind * 128 + port) * 32 + reason

/-- Totals are kind 0, ingress counts kind 1, output counts kind 2. -/
def sumpGet (s : State) (kind port reason : Nat) : Nat := smGet 0 s.buf.sump (sumpKey kind port reason)

def sumpInc (kind port reason : Nat) (s : State) : State :=
  let m := smPut 0 s.buf.sump (sumpKey kind port reason) ((sumpGet s kind port reason + 1) % 2 ^ 32)
  { s with buf := { s.buf with sump := m } }

/-- Count one discarded frame or copy (R306): its reason, its ingress port, and its output and class where a copy is charged. -/
def sumpCount (reason inP : Nat) (out : Option (Nat × Nat)) (s : State) : State :=
  let s := { s with buf := { s.buf with lastDrop := reason } }
  let s := monEvent 7 inP none reason 1 (sumpInc 1 inP reason (sumpInc 0 0 reason s))
  match out with
  | some (o, c) => monEvent 8 o (some c) reason 1 (sumpInc 2 o reason s)
  | none => s

/-- The sample of R307: one discard in 2^SHIFT whose reason is selected sends the frame's head to P64, unless the queues of
P64 are full. -/
def sumpSample (reason tc : Nat) (x : Frame) (s : State) : State :=
  if flag s R.BUF_SUMP_SAMPLE_ENA && bitOf (getF s R.BUF_SUMP_MASK_MASK) reason then
    let n := s.buf.discards + 1
    let due := n % 2 ^ getF s R.BUF_SUMP_SAMPLE_SHIFT == 0
    let s := { s with buf := { s.buf with discards := n } }
    let room := aggregate s 64 tc + 1 ≤ minCells s 64 tc + alphaF s 64 tc false
    let pool := getF s (clsF R.BUF_CLS_ADM_POOL tc) 64
    let pmax := getF s (R.BUF_POOL_MAX_MAX.on (4 * pool))
    let r := getF s ((R.HIF_RX_MAP_RING.on (4 * (tc / 4))).up (8 * (tc % 4)))
    let s := shaperTouch 64 tc s
    let ring := getF s R.HIF_RING_CFG_KIND r == 3 && getF s R.HIF_RING_STAT_STATE r ≠ 0
    if due && room && ring && (pmax = 0 || poolUsed s pool + 1 ≤ pmax) then
      let y := { newFrame s x.port (x.octets.take 128) x.rx with
                 ended := true, headDone := true, ing := x.ing, admitted := true, stored := true, reason := reason, cause := 2,
                 rule := x.rule,
                 copies := [⟨64, tc, false, 1, false, false, s.buf.nextQno, copyNow s islBUF, .queued, 0⟩] }
      let f := s.buf.nextFrame
      let (ok, s') := storeCells f 0 y.octets.length (addFrame y { s with buf := { s.buf with nextQno := s.buf.nextQno + 1 } })
      if ok then s' else s
    else s
  else s

/-- Count a discard and take its sample. -/
def sump (reason tc : Nat) (out : Option (Nat × Nat)) (x : Frame) (s : State) : State :=
  sumpSample reason tc x (sumpCount reason x.port out s)

/-! ### Discards and stomps (R298, R299) -/

/-- A 64-bit word of stream context `c` (R272). -/
def ctxWord (s : State) (c w : Nat) : Nat := (smGet [] s.ing.tbl c).getD w 0

def setCtxWord (c w v : Nat) (s : State) : State :=
  let e := smGet [] s.ing.tbl c
  let e := if e.isEmpty then List.replicate 16 0 else e
  { s with ing := { s.ing with tbl := smPut [] s.ing.tbl c (e.set w (v % 2 ^ 64)) } }

/-- Bits of a context word. -/
def ctxF (s : State) (c w lo n : Nat) : Nat := bitsOf (ctxWord s c w) lo n

def setCtxF (c w lo n v : Nat) (s : State) : State :=
  let x := ctxWord s c w
  setCtxWord c w (x - bitsOf x lo n * 2 ^ lo + v % 2 ^ n * 2 ^ lo) s

/-- Word `w` of a context written anew where it could not be read (R438): buckets full, T_UPD `t`, remainder and counters 0. -/
def ctxAnew (c w t : Nat) (s : State) : State :=
  let v := match w with
    | 9 => ctxF s c 8 40 24 * 256 * 2 ^ 32
    | 10 => ctxF s c 8 16 24 * 256 * 2 ^ 32
    | 11 => t * 65536
    | _ => 0
  fullWrite 9 (16 * c + w) (setCtxWord c w v s)

/-- A write of part of a state word of a context (R443). -/
def ctxNarrow (c w t : Nat) (f : State → State) (s : State) : State :=
  let (ok, s) := narrowWrite 9 (16 * c + w) s
  if ok then f s else ctxAnew c w t s

/-- A counter of a context goes up by one and wraps. -/
def ctxBump (c w lo n : Nat) (s : State) : State := ctxNarrow c w 0 (fun s => setCtxF c w lo n (ctxF s c w lo n + 1) s) s

/-- Remove the copies of frame `f` that satisfy `p`. -/
def removeCopies (f : Nat) (p : Copy → Bool) (s : State) : State :=
  match frameAt s f with
  | some x => setFrame f (some { x with copies := x.copies.filter fun c => !p c }) s
  | none => s

/-- Discard the copy for output `o` of frame `f` under a reason. -/
def dropCopy (reason f o : Nat) (s : State) : State :=
  match frameAt s f with
  | some x =>
    match x.copies.find? (·.out == o) with
    | some c =>
      let s := removeCopies f (·.out == o) (shaperTouch o c.tc s)
      let s := if c.st = .queued then settleQueue x.port o c.tc s else s
      reapFrame f (sump reason c.tc (some (o, c.tc)) x s)
    | none => s
  | none => s

/-- A frame leaves the tables and frees its cells; one still arriving stays, without copies, until its end. -/
def forgetFrame (f : Nat) (s : State) : State :=
  match frameAt s f with
  | some x =>
    let s := freeChain f s
    setFrame f (if x.ended then none else
      some { x with admitted := true, headDone := true, engine := none, tfwd := false, frer := .none, copies := [] }) s
  | none => s

/-- Discard a frame at ingress under a reason charged to its ingress port (R282). -/
def dropFrame (reason f : Nat) (s : State) : State :=
  match frameAt s f with
  | some x => sump reason 0 none x (forgetFrame f s)
  | none => s

/-- A frame is found bad (R299): copies whose head has left are stomped and, if there are any, the others are discarded;
otherwise the others are discarded when they would become visible (R298). -/
def frameBad (reason f : Nat) (s : State) : State :=
  match frameAt s f with
  | none => s
  | some x =>
    if x.bad.isSome then s
    else
      let s := setFrame f (some { x with bad := some reason }) (touchFrame f s)
      let left := x.copies.filter (·.st == .leaving)
      let s := left.foldl (fun s c =>
        let s := monEvent 11 c.out (some c.tc) 0 1 (bump R.BUF_CNT_STOMP_COUNT (sumpCount reason x.port (some (c.out, c.tc)) s) c.out)
        match x.ing.bind (·.ctx) with
        | some k => ctxBump k 15 16 16 s
        | none => s) s
      if left.isEmpty then s
      else (x.copies.filter (·.st != .leaving)).foldl (fun s c => dropCopy reason f c.out s) s

/-- Every copy of frame `f` that has not left is discarded. -/
def dropAll (reason f : Nat) (s : State) : State :=
  match frameAt s f with
  | some x => (x.copies.filter (·.st != .leaving)).foldl (fun s c => dropCopy reason f c.out s) s
  | none => s

/-- BUFFER_EXHAUSTED raises at most once per millisecond (R293). -/
def exhausted (s : State) : State :=
  let due := match s.buf.exhaustedAt with | some t => decide (copyNow s islBUF ≥ t + unitMs) | none => true
  if due then raise R.BUF_EVENT_BUFFER_EXHAUSTED { s with buf := { s.buf with exhaustedAt := some (copyNow s islBUF) } } else s

/-! ### Link hold (R302, R303) -/

/-- Every queued copy of output `o` is discarded under LINK_HOLD_FLUSH and the output stays flushed (R303). -/
def flushOutput (reason o : Nat) (s : State) : State := (frames s).foldl (fun s x => dropCopy reason x.1 o s) s

def holdExpire (o : Nat) (s : State) : State :=
  raise R.BUF_PORT_EVENT_LINK_HOLD_FLUSH (setHold o ⟨2, 0⟩ (flushOutput 0x15 o s)) o

/-- Output `o` is reported down (R302): leaving copies are lost, and the hold starts; none for RX_ONLY. -/
def bufDown (o : Nat) (rxOnly : Bool) (s : State) : State :=
  let s := (frames s).foldl (fun s x =>
    if x.2.copies.any fun c => c.out == o && c.st == .leaving then dropCopy 0x18 x.1 o s else s) s
  let ms := satN 1000 (getF s R.BUF_PORT_CFG_LINK_HOLD_MS o)
  if rxOnly then setHold o ⟨2, 0⟩ (flushOutput 0x15 o s)
  else
    let s := raise R.BUF_PORT_EVENT_LINK_HOLD_START (setHold o ⟨1, copyNow s islBUF + ms * unitMs⟩ s) o
    if ms = 0 then holdExpire o s else s

/-- Output `o` is UP again (R303): a hold in force ends without loss; a flushed output takes copies again. -/
def bufUp (o : Nat) (s : State) : State :=
  if (holdOf s o).st = 1 then raise R.BUF_PORT_EVENT_LINK_HOLD_RESUMED (setHold o ⟨0, 0⟩ s) o else setHold o ⟨0, 0⟩ s

end Sys2Proof.Machine
end

