-- ==== Sys2Proof/Machine/HifOps.lean ====
section
/-!
DEFINITION. Sys2Proof/Machine/HifOps.lean: rings, their slots and completions, and the MSI-X vectors (spec/13).
-/
namespace Sys2Proof.Machine

def hostUp (s : State) : Bool := islUp s islHOST

/-! ### Vectors (R380, R381) -/

/-- The event registers, in the order of their first source (R466). -/
def evRegs : List (Nat × Nat) :=
  [0x20010, 0x20014, 0x40008, 0x50108, 0x6000C, 0x60124, 0x70010, 0x7102C, 0x72014, 0x80014, 0x80818, 0x80C08, 0x90008,
   0x91014, 0xA0008, 0xA0418, 0xB000C, 0xC001C, 0xC0108, 0xD0104, 0xE000C, 0xE011C, 0x3000C, 0x3012C, 0x10008, 0x38004,
   0xF0828, 0xF0008].map fun o => (o, evBase o)

/-- The first source number after those of the register whose first source is `b`. -/
def evEnd (b : Nat) : Nat := evRegs.foldl (fun a x => if x.2 > b ∧ x.2 < a then x.2 else a) 320

/-- Some event bit of source `src` reads 1. -/
def sourceReads (s : State) (src : Nat) : Bool :=
  evRegs.any fun r => decide (r.2 ≤ src ∧ src < evEnd r.2)
    && s.regs.any fun p => decide (p.1 / 32 % 0x100000 = r.1 ∧ p.1 % 32 = src - r.2) && p.2 == 1

/-- Rings whose vector is `v`. -/
def vecRings (s : State) (v : Nat) : List Nat :=
  (List.range 32).filter fun r => getF s R.HIF_RING_CFG_VECTOR r == v && getF s R.HIF_RING_STAT_STATE r ≠ 0

def ring (s : State) (r : Nat) : Ring := smGet Ring.reset s.hif.rings r
def setRing (r : Nat) (x : Ring) (s : State) : State := { s with hif := { s.hif with rings := smPut Ring.reset s.hif.rings r x } }

/-- Vector `v` sends its message, or sets its pending bit behind the mask, and is disarmed; the moderation counts of its rings
start again. -/
def sendVector (v : Nat) (s : State) : State :=
  let h := s.hif
  let open_ := h.unmasked.contains v
  let s := { s with hif := { h with disarmed := if h.disarmed.contains v then h.disarmed else h.disarmed ++ [v]
                                    trig := h.trig.filter (· ≠ v)
                                    masked := if open_ || h.masked.contains v then h.masked else h.masked ++ [v] } }
  let s := (vecRings s v).foldl (fun s r => setRing r { ring s r with cnt := 0, since := none } s) s
  if open_ then emit (.msi v) s else s

/-- A trigger of vector `v` fires. -/
def fireVector (v : Nat) (s : State) : State :=
  let h := s.hif
  if h.disarmed.contains v then
    if h.trig.contains v then s else { s with hif := { h with trig := h.trig ++ [v] } }
  else sendVector v s

/-- Re-arm vector `v` (R381). -/
def rearmVector (v : Nat) (s : State) : State :=
  let due := s.hif.trig.contains v
    || (List.range 320).any fun src => flag s R.HIF_EVT_VEC_ENA src && getF s R.HIF_EVT_VEC_VECTOR src == v && sourceReads s src
  let s := { s with hif := { s.hif with disarmed := s.hif.disarmed.filter (· ≠ v) } }
  if due then sendVector v s else s

/-- An event of source `src` fires its vector. -/
def eventVector (src : Nat) (s : State) : State :=
  if flag s R.HIF_EVT_VEC_ENA src then fireVector (getF s R.HIF_EVT_VEC_VECTOR src) s else s

/-! ### Rings (R358 to R362) -/

def ringKind (s : State) (r : Nat) : Nat := getF s R.HIF_RING_CFG_KIND r
def ringState (s : State) (r : Nat) : Nat := getF s R.HIF_RING_STAT_STATE r
def setRingState (r st : Nat) (s : State) : State := setF R.HIF_RING_STAT_STATE st s r
def devIndex (s : State) (r : Nat) : Nat := getF s R.HIF_RING_STAT_DEV_INDEX r

/-- Slots of a ring: SIZE_LOG2 acts from 4 to 12. -/
def ringSize (s : State) (r : Nat) : Nat := 2 ^ min 12 (max 4 (getF s R.HIF_RING_CFG_SIZE_LOG2 r))

/-- Slots that the host has given and the device has not completed. -/
def ringFree (s : State) (r : Nat) : Nat := ((ring s r).host + 65536 - devIndex s r) % 65536

/-- DMA is possible: HOST works and Bus Master Enable is 1 (R373). -/
def dmaOk (s : State) : Bool := hostUp s && flag s R.HIF_GSTAT_BME

/-- The device may complete the next slot of ring `r`, of kind `k`. -/
def slotReady (s : State) (r k : Nat) : Bool :=
  decide (r < 32) && dmaOk s && ringKind s r == k && (ringState s r == 1 || ringState s r == 2) && decide (ringFree s r > 0)

/-- A host index passes the two tests of R361. -/
def doorbellOk (s : State) (r h : Nat) : Bool :=
  decide ((h + 65536 - devIndex s r) % 65536 ≤ ringSize s r) && decide ((h + 65536 - (ring s r).prev) % 65536 ≤ ringSize s r)

/-- Frames of ring `r` on their way complete no slot of it any more (R362). -/
def dropHost (r : Nat) (s : State) : State :=
  let mine (x : Frame) : Bool := match x.host with | some h => h.1 == r | none => false
  let s := (frames s).foldl (fun s x => if mine x.2 then setFrame x.1 (some { x.2 with host := none }) s else s) s
  { s with hif := { s.hif with txDone := s.hif.txDone.filter (·.1 ≠ r) } }

/-- The ring enters ERROR (R362). -/
def ringError (r cause : Nat) (s : State) : State :=
  let s := dropHost r s
  let s := setF R.HIF_RING_STAT_ERR_CAUSE cause (setRingState r 4 s) r
  if cause = 1 then raise R.HIF_RING_EVENT_DOORBELL_INVALID s r
  else if cause = 2 then raise R.HIF_RING_EVENT_DMA_ERROR s r
  else s

/-- A run-time application answers to ring `r`. -/
def ringRuns (s : State) (r : Nat) : Bool := match s.sys.run with | some x => x.ring == r | none => false

/-- A run-time application of ring `r` is abandoned (R362). -/
def abandonRun (r : Nat) (s : State) : State := if ringRuns s r then { s with sys := { s.sys with run := none } } else s

/-- A DMA read of ring `r` has failed (R373). -/
def dmaFail (r status : Nat) (s : State) : State := raiseFault (faultBit 8) islHOST r status islHOST (ringError r 2 (abandonRun r s))

/-- The word of memory 16 that holds what passes between ring `r` and its next slot: its staging memories come first. -/
def ringWord (s : State) (r : Nat) : Nat := 163840 + 256 * r + 8 * (devIndex s r % 32)

/-- What a slot carries passes through the ring's buffer; where it cannot be read the ring enters ERROR with cause DMA (R438). -/
def throughRing (r : Nat) (f : State → State) (s : State) : State :=
  let w := ringWord s r
  let (ok, s) := eccRead 16 w (fullWrite 16 w s)
  if ok then f s else dmaFail r 0 s

/-- A full or a refilled ring (R372). -/
def ringFull (r : Nat) (s : State) : State :=
  let x := ring s r
  if ringState s r = 1 ∧ ringFree s r = 0 then
    if x.fullSince.isSome then s else setRing r { x with fullSince := some (copyNow s islHOST) } s
  else setRing r { x with fullSince := none, stalled := false } s

/-- The slot in progress of a STOPPING ring is completed (R362). -/
def ringStopped (r : Nat) (s : State) : State :=
  if ringState s r = 2 then raise R.HIF_RING_EVENT_STOPPED (setRingState r 3 s) r else s

/-- One completion or record counts toward the ring's interrupt (R380). -/
def ringCount (r : Nat) (s : State) : State :=
  let x := ring s r
  let x := { x with cnt := x.cnt + 1, since := match x.since with | some t => some t | none => some (copyNow s islHOST) }
  let s := setRing r x s
  if x.cnt ≥ zeroAs 1 (getF s R.HIF_RING_IRQ_COUNT r) then fireVector (getF s R.HIF_RING_CFG_VECTOR r) s else s

/-- The device completes its next slot: words before +0x1C, the low bits of word +0x1C, data (R359, R368). -/
def completeSlot (r : Nat) (words : List Nat) (low : Nat) (data : List Nat) (irq : Bool) (s : State) : State :=
  let d := devIndex s r
  let size := ringSize s r
  let phase := 1 - d / size % 2
  let s := emit (.slot r (d % size) (words ++ [phase * 2 ^ 31 + low]) data) s
  let s := bump R.HIF_RING_CNT_COUNT (setF R.HIF_RING_STAT_DEV_INDEX (d + 1) s r) r
  let s := ringFull r (ringStopped r s)
  let s := if flag s R.HIF_RING_CFG_WB_ENA r then emit (.writeBack r (devIndex s r + ringState s r * 2 ^ 16)) s else s
  if irq then ringCount r s else s

/-- A command completes (R363): status, tag, three results, data it wrote. -/
def complete (r : Nat) (c : Cmd) (status : Nat) (res : List Nat) (data : List Nat) (s : State) : State :=
  completeSlot r [res.getD 0 0 % 2 ^ 32, res.getD 1 0 % 2 ^ 32, res.getD 2 0 % 2 ^ 32] (status * 65536 + c.tag % 65536) data c.irq s

/-- A record for ring `r` of kind `k` (R367, R372): written, or lost. -/
def ringRecord (ena : Bool) (r k : Nat) (words : Bool → List Nat) (low : Bool → Nat) (lost : State → State) (s : State) : State :=
  if !ena then s
  else if slotReady s r k && ringState s r == 1 then
    let o := (ring s r).ovf
    throughRing r (fun s => completeSlot r (words o) (low o) [] true (setRing r { ring s r with ovf := false } s)) s
  else lost (bump R.HIF_RING_LOST_COUNT (setRing r { ring s r with ovf := true } s) r)

/-- RX ring of class `c` (R379). -/
def rxRing (s : State) (c : Nat) : Nat := getF s ((R.HIF_RX_MAP_RING.on (4 * (c / 4))).up (8 * (c % 4)))

/-- Ring `r` is of kind RX and not OFF. -/
def isRxRing (s : State) (r : Nat) : Bool := ringKind s r == 3 && ringState s r ≠ 0

/-- A TX frame completes (R378); without Bus Master Enable it waits (R373). -/
def txComplete (d : Nat × Nat × Bool × Nat × Nat) (s : State) : State :=
  let (r, tag, irq, st, reason) := d
  if ringKind s r = 2 ∧ (ringState s r = 1 ∨ ringState s r = 2) then
    if dmaOk s then completeSlot r [reason, 0, 0] (st * 65536 + tag % 65536) [] irq s
    else { s with hif := { s.hif with txDone := s.hif.txDone ++ [d] } }
  else s

/-- BUF has decided on every copy of a host frame (R378): its TX ring completes, with the reason where none was admitted. -/
def txDecided (x : Frame) (ok : Bool) (s : State) : State :=
  match x.host with
  | some (r, tag, irq) => txComplete (r, tag, irq, if ok then 0 else 0x0D, if ok then 0 else s.buf.lastDrop % 256) s
  | none => s

end Sys2Proof.Machine
end

