-- ==== Sys2Proof/Machine/IngOps.lean ====
section
/-!
DEFINITION. Sys2Proof/Machine/IngOps.lean: the parser, the shared tables, stream identification, the stream gates and the
meter of the ingress pipelines (spec/09).
-/
namespace Sys2Proof.Machine

/-! ### Parsing (R260, R261, R111) -/

/-- The fields the parser reads. `l3` is 0 none, 1 IPv4, 2 IPv6; `len` the frame length derived from the IP header. -/
structure Parsed where
  da : Nat
  sa : Nat
  tags : List (Nat × Nat)
  etype : Option Nat
  rtag : Option Nat
  l3Off : Nat
  l3 : Nat
  dscp : Nat
  ecn : Nat
  proto : Option Nat
  frag : Bool
  nonFirst : Bool
  src : Option Nat
  dst : Option Nat
  len : Option Nat
  l4Off : Nat
  sport : Option Nat
  dport : Option Nat
  member : Bool
  ptpOff : Option Nat
  ipBad : Bool
  trunc : Bool
  deriving DecidableEq, Repr

/-- `n` octets at `off` of the head; absent when wholly or partly beyond it (R260). -/
def hf (h : List Nat) (off n : Nat) : Option Nat := if off + n ≤ h.length then some (beAt h off n) else none

/-- The ones'-complement sum of the 16-bit words of an IPv4 header of `n` octets at `off`. -/
def ipSum (h : List Nat) (off n : Nat) : Nat :=
  let x := (List.range (n / 2)).foldl (fun a k => a + beAt h (off + 2 * k) 2) 0
  let x := x % 65536 + x / 65536
  x % 65536 + x / 65536

/-- IPv6: the next header and its offset after at most two extension headers of types 0, 43, 60 and 44; also the fragment
flag and whether the fragment is not the first. -/
def ip6Next (h : List Nat) : Nat → Nat → Nat → Bool → Bool → Option Nat × Nat × Bool × Bool
  | 0, nh, off, fr, nf => (some nh, off, fr, nf)
  | k + 1, nh, off, fr, nf =>
    if nh = 0 ∨ nh = 43 ∨ nh = 60 then
      match hf h off 1, hf h (off + 1) 1 with
      | some n, some l => ip6Next h k n (off + (l + 1) * 8) fr nf
      | _, _ => (none, off, fr, nf)
    else if nh = 44 then
      match hf h off 1, hf h (off + 2) 2 with
      | some n, some w => ip6Next h k n (off + 8) (fr || w / 8 ≠ 0 || w % 2 = 1) (nf || w / 8 ≠ 0)
      | _, _ => (none, off, fr, nf)
    else (some nh, off, fr, nf)

/-- The octets the parser reads reach beyond octet 128 (R260): PARSE_TRUNC. `et` is where the EtherType stands. -/
def parseTrunc (et : Nat) (p : Parsed) : Bool :=
  let l3 := if p.l3 = 1 then p.l3Off + 20 else if p.l3 = 2 then max (p.l3Off + 40) p.l4Off else et + 2
  let l4 := if (p.proto == some 6 || p.proto == some 17) && !p.nonFirst then p.l4Off + 4 else if p.l3 = 2 ∧ p.proto = some 58 then p.l4Off + 1 else 0
  let ptp := match p.ptpOff with | some o => o + 34 | none => 0
  decide (128 < max l3 (max l4 ptp))

/-- The fields of a head. -/
def parseHead (h : List Nat) : Parsed :=
  let isTpid (x : Option Nat) : Bool := x == some 0x8100 || x == some 0x88A8
  let e0 := hf h 12 2
  let (tags, off) : List (Nat × Nat) × Nat :=
    if isTpid e0 then
      let t0 := (e0.getD 0, (hf h 14 2).getD 0)
      let e1 := hf h 16 2
      if isTpid e1 then ([t0, (e1.getD 0, (hf h 18 2).getD 0)], 20) else ([t0], 16)
    else ([], 12)
  let et := hf h off 2
  let isR := et == some 0xF1C1
  let rtag := if isR then hf h (off + 4) 2 else none
  let off := if isR then off + 6 else off
  let et := hf h off 2
  let l3Off := off + 2
  let base : Parsed :=
    { da := beAt h 0 6, sa := beAt h 6 6, tags, etype := et, rtag, l3Off, l3 := 0, dscp := 0, ecn := 0
      proto := none, frag := false, nonFirst := false, src := none, dst := none, len := none, l4Off := l3Off, sport := none
      dport := none, member := false, ptpOff := if et == some 0x88F7 then some l3Off else none, ipBad := false
      trunc := false }
  let l4 (p : Parsed) : Parsed :=
    if p.nonFirst || !(p.proto == some 6 || p.proto == some 17) then p
    else
      let dp := hf h (p.l4Off + 2) 2
      { p with sport := hf h p.l4Off 2, dport := dp,
               ptpOff := if p.proto == some 17 && (dp == some 319 || dp == some 320) then some (p.l4Off + 8) else p.ptpOff }
  if et == some 0x0800 then
    match hf h l3Off 1 with
    | none => base
    | some b =>
      let ihl := b % 16 * 4
      let whole := decide (l3Off + ihl ≤ h.length)
      if ihl < 20 || (whole && ipSum h l3Off ihl ≠ 65535) then { base with ipBad := true }
      else
        let tos := (hf h (l3Off + 1) 1).getD 0
        let fr := (hf h (l3Off + 6) 2).getD 0
        let proto := hf h (l3Off + 9) 1
        l4 { base with l3 := 1, dscp := tos / 4, ecn := tos % 4, proto, frag := fr % 16384 ≠ 0, nonFirst := fr % 8192 ≠ 0,
                       src := hf h (l3Off + 12) 4, dst := hf h (l3Off + 16) 4,
                       len := (hf h (l3Off + 2) 2).map (l3Off + · + 4), l4Off := l3Off + ihl, member := proto == some 2 }
  else if et == some 0x86DD then
    match hf h l3Off 2, hf h (l3Off + 6) 1 with
    | some b, some nh0 =>
      let tc := b / 16 % 256
      let (nh, o4, fr, nf) := ip6Next h 2 nh0 (l3Off + 40) false false
      let icmp := hf h o4 1
      l4 { base with l3 := 2, dscp := tc / 4, ecn := tc % 4, proto := nh, frag := fr, nonFirst := nf,
                     src := hf h (l3Off + 8) 16, dst := hf h (l3Off + 24) 16,
                     len := (hf h (l3Off + 4) 2).map (l3Off + 40 + · + 4), l4Off := o4,
                     member := nh == some 58 && !nf && (icmp == some 130 || icmp == some 131 || icmp == some 132 || icmp == some 143) }
    | _, _ => base
  else base

/-- Parse a head (R260). -/
def parse (h : List Nat) : Parsed :=
  let p := parseHead h
  { p with trunc := h.length == 128 && parseTrunc (p.l3Off - 2) p }

/-- The PTP message at `off` of a head (R111); the layout is that of IEEE 1588 (notes/assumptions/22.md). Fields of its body that the
head does not hold are absent, and read as 0. -/
def parsePtp (h : List Nat) (off : Nat) : Option PtpMsg :=
  if off + 34 ≤ h.length then
    let b (k : Nat) : Nat := beAt h (off + k) 1
    some { kind := b 0 % 16, major := b 0 / 16, version := b 1 % 16, minor := b 1 / 16, domain := b 4, minorSdo := b 5
           twoStep := bitOf (b 6) 1, cf := sx 64 (beAt h (off + 8) 8), src := beAt h (off + 20) 10, seq := beAt h (off + 30) 2
           ts := ((hf h (off + 34) 6).getD 0 * 1000000000 + (hf h (off + 40) 4).getD 0 : Nat) * 65536
           req := (hf h (off + 44) 10).getD 0
           rate := if hf h (off + 44) 2 == some 3 && hf h (off + 48) 3 == some 0x0080C2 then
                     (hf h (off + 54) 4).map (sx 32) else none }
  else none

/-- An event message: Sync, Delay_Req, Pdelay_Req, Pdelay_Resp. -/
def PtpMsg.isEvent (m : PtpMsg) : Bool := m.kind < 4

/-! ### Tables (R262 to R268, R516) -/

def tblKey (t i : Nat) : Nat := t * 131072 + i
def tblEntry (s : State) (t i : Nat) : List Nat := smGet [] s.ing.tbl (tblKey t i)
def setTbl (t i : Nat) (e : List Nat) (s : State) : State :=
  { s with ing := { s.ing with tbl := smPut [] s.ing.tbl (tblKey t i) (if e.all (· == 0) then [] else e) } }

/-- Word `w` of an entry. -/
def tw (e : List Nat) (w : Nat) : Nat := e.getD w 0

/-- A 66-bit port set from words `w` to `w + 2`. -/
def setOf (e : List Nat) (w : Nat) : Nat := tw e w + tw e (w + 1) * 2 ^ 32 + tw e (w + 2) % 4 * 2 ^ 64

/-- The ports of a set. -/
def portsOf (m : Nat) : List Nat := (List.range 66).filter (bitOf m)

/-- The VLAN entry of a VID (table 4): members in words 0 to 2, then FID, LEARN, SNOOP, UNREG_MODE, then router ports. -/
def vlanMembers (s : State) (vid : Nat) : Nat := setOf (tblEntry s 4 vid) 0
def vlanFid (s : State) (vid : Nat) : Nat := bitsOf (tw (tblEntry s 4 vid) 3) 0 12
def vlanLearn (s : State) (vid : Nat) : Bool := bitOf (tw (tblEntry s 4 vid) 3) 12
def vlanSnoop (s : State) (vid : Nat) : Bool := bitOf (tw (tblEntry s 4 vid) 3) 13
def vlanUnreg (s : State) (vid : Nat) : Nat := bitsOf (tw (tblEntry s 4 vid) 3) 14 2
def vlanRouters (s : State) (vid : Nat) : Nat := setOf (tblEntry s 4 vid) 4

/-- Port mask `i` (table 5). -/
def portMask (s : State) (i : Nat) : Nat := setOf (tblEntry s 5 i) 0

/-- The listed entries of a table, with their indices. -/
def tblList (s : State) (t : Nat) : List (Nat × List Nat) :=
  s.ing.tbl.filterMap fun p => if p.1 / 131072 = t then some (p.1 % 131072, p.2) else none

/-- The forwarding database (table 2): MAC in words 0 and 1, FID in word 1 [27:16], VALID, STATIC, MASK and destination in
word 2, the second of the latest source hit in word 3. -/
def fdbKey (mac fid : Nat) : Nat := mac + fid * 2 ^ 48
def fdbEntryKey (e : List Nat) : Nat := fdbKey (tw e 0 + tw e 1 % 65536 * 2 ^ 32) (bitsOf (tw e 1) 16 12)
def fdbFind (s : State) (key : Nat) : Option (Nat × List Nat) :=
  (tblList s 2).find? fun p => bitOf (tw p.2 2) 31 && fdbEntryKey p.2 == key
def fdbStatic (e : List Nat) : Bool := bitOf (tw e 2) 30
def fdbIsMask (e : List Nat) : Bool := bitOf (tw e 2) 29
def fdbDest (e : List Nat) : Nat := bitsOf (tw e 2) 0 12
def fdbMake (key : Nat) (isStatic isMask : Bool) (dest sec : Nat) : List Nat :=
  [key % 2 ^ 32, key / 2 ^ 32 % 65536 + key / 2 ^ 48 * 65536,
   2 ^ 31 + b2n isStatic * 2 ^ 30 + b2n isMask * 2 ^ 29 + dest, sec % 2 ^ 32]

/-- Entries in use (ING_GSTAT.FDB_USED). -/
def fdbUsed (s : State) : Nat := ((tblList s 2).filter fun p => bitOf (tw p.2 2) 31).length

/-- A free way in the bucket of a key (R264). -/
def fdbFree (s : State) (key : Nat) : Option Nat :=
  let b := Config.fdbHash key % 16384
  ((List.range 8).map (b * 8 + ·)).find? fun i => !bitOf (tw (tblEntry s 2 i) 2) 31

/-- The ports of a destination. -/
def fdbSet (s : State) (e : List Nat) : Nat := if fdbIsMask e then portMask s (fdbDest e) else 2 ^ fdbDest e

/-- The group table (table 3): word 0 has VALID, V6, continuation and VID; words 1 to 4 the source, 5 to 8 the group, 9 to
11 the destination set (R264). -/
def addrOf (e : List Nat) (w : Nat) : Nat := (List.range 4).foldl (fun a k => a + tw e (w + k) * 2 ^ (32 * k)) 0
def grpFind (s : State) (v6 : Bool) (vid src grp : Nat) : Option (Nat × List Nat) :=
  (tblList s 3).find? fun p =>
    bitOf (tw p.2 0) 31 && !eccDead s 4 p.1 && bitOf (tw p.2 0) 30 == v6 && bitsOf (tw p.2 0) 0 12 == vid && addrOf p.2 1 == src
      && addrOf p.2 5 == grp

/-- The flood set of R264: members, less the ingress port and less ports with FLOOD = 0. -/
def floodSet (s : State) (vid inP : Nat) : Nat :=
  (portsOf (vlanMembers s vid)).foldl (fun a p => if p ≠ inP && flag s R.ING_PORT_CFG_FLOOD p then a + 2 ^ p else a) 0

/-- The destination lookup (R264): a set, or the discard reason. -/
def lookupDest (s : State) (p : Parsed) (vid inP : Nat) : Nat ⊕ Nat :=
  let flood : Nat ⊕ Nat := .inl (floodSet s vid inP)
  let mcast := bitOf (p.da / 2 ^ 40) 0
  let grpIp := match p.l3, p.dst with
    | 1, some d => if d / 2 ^ 28 = 14 then some (false, d, decide (d / 256 = 0xE00000)) else none
    | 2, some d => if d / 2 ^ 120 = 255 then some (true, d, decide (d / 2 ^ 112 = 0xFF02)) else none
    | _, _ => none
  let byFdb : Nat ⊕ Nat :=
    match fdbFind s (fdbKey p.da (vlanFid s vid)) with
    | some e => if !mcast && !fdbIsMask e.2 && fdbDest e.2 = inP then .inr 3 else .inl (fdbSet s e.2)
    | none => flood
  if p.da = 0xFFFFFFFFFFFF then flood
  else
    match grpIp with
    | some (v6, g, localScope) =>
      if mcast && localScope then flood
      else if mcast && vlanSnoop s vid then
        match grpFind s v6 vid (p.src.getD 0) g, grpFind s v6 vid 0 g with
        | some e, _ => .inl (setOf e.2 9)
        | none, some e => .inl (setOf e.2 9)
        | none, none =>
          match vlanUnreg s vid with
          | 1 => .inl (vlanRouters s vid)
          | 2 => .inr 0x0A
          | _ => flood
      else byFdb
    | none => byFdb

/-! ### Ternary rules (R268, R269) -/

/-- The key as value and width pairs from bit 0 up, in the order of R268's table read row by row (notes/assumptions/20.md). -/
def ruleKey (p : Parsed) (inP vid pcp dei bank : Nat) : Nat :=
  let addr := match p.l3 with
    | 1 => p.src.getD 0 * 2 ^ 32 + p.dst.getD 0
    | 2 => if bank < 4 then p.dst.getD 0 else p.src.getD 0
    | _ => 0
  let fs : List (Nat × Nat) :=
    [(inP, 7), (p.l3, 2), (vid, 12), (p.ecn, 2), (p.dscp, 6), (dei, 1), (pcp, 3), (p.proto.getD 0, 8), (p.tags.length, 2),
     (b2n p.frag, 1), (p.etype.getD 0, 16), (addr, 128), (p.da, 48), (p.dport.getD 0, 16), (p.sport.getD 0, 16), (p.sa, 48),
     (b2n p.member, 1), (b2n p.rtag.isSome, 1), (b2n p.ptpOff.isSome, 1), (0, 1)]
  (fs.foldr (fun f a => f.1 % 2 ^ f.2 + a * 2 ^ f.2) 0)

/-- 320 bits of a rule entry (table 1): value in words 0 to 9, mask in 10 to 19, the action word in 20 and 21, VALID in word 21 [31],
hits in word 22. -/
def wide (e : List Nat) (w : Nat) : Nat := (List.range 10).foldl (fun a k => a + tw e (w + k) * 2 ^ (32 * k)) 0

/-- The valid rules that match, lowest number first. -/
def ruleHits (s : State) (p : Parsed) (inP vid pcp dei : Nat) : List (Nat × List Nat) :=
  (tblList s 1).filter fun r =>
    bitOf (tw r.2 21) 31 && Nat.land (Nat.xor (ruleKey p inP vid pcp dei (r.1 / 256)) (wide r.2 0)) (wide r.2 10) == 0

/-- The lowest-numbered valid rule that matches (R269); one whose action word cannot be read is not valid (R438). -/
def ruleFind (s : State) (p : Parsed) (inP vid pcp dei : Nat) : Option (Nat × Nat) :=
  ((ruleHits s p inP vid pcp dei).find? fun r => !eccDead s 7 r.1).map fun r => (r.1, tw r.2 20 + tw r.2 21 * 2 ^ 32)

/-- Actions of an action word (notes/assumptions/20.md). -/
def actDrop (a : Nat) : Bool := bitOf a 0
def actTrap (a : Nat) : Bool := bitOf a 1
def actCopy (a : Nat) : Bool := bitOf a 2
def actRedirect (a : Nat) : Option Nat := if bitOf a 3 then some (bitsOf a 11 7) else none
def actTc (a : Nat) : Option Nat := if bitOf a 4 then some (bitsOf a 8 3) else none
def actPre (a : Nat) : Bool := bitOf a 5
def actStream (a : Nat) : Option Nat := if bitOf a 6 then some (bitsOf a 18 14) else none
def actLearn (a : Nat) : Option Nat := if bitOf a 7 then some (bitsOf a 32 3) else none

/-! ### Streams (R270 to R274) -/

def ctxValid (s : State) (c : Nat) : Bool := ctxF s c 0 63 1 == 1

/-- The key words 0 to 5 of a frame under a method, where every field is present (R270): 1 null, 2 source MAC, 3 IP. -/
def streamKey (p : Parsed) (vid method : Nat) : Option (List Nat) :=
  match method with
  | 1 => some [2 ^ 60 + vid * 2 ^ 48 + p.da, 0, 0, 0, 0, 0]
  | 2 => some [2 * 2 ^ 60 + vid * 2 ^ 48 + p.sa, 0, 0, 0, 0, 0]
  | 3 =>
    match p.src, p.dst, p.sport, p.dport, p.proto with
    | some sr, some d, some sp, some dp, some pr =>
      if p.l3 = 0 then none
      else some [3 * 2 ^ 60 + vid * 2 ^ 48 + p.da,
        dp * 2 ^ 48 + sp * 2 ^ 32 + (if p.l3 = 2 then 2 ^ 14 else 0) + p.dscp * 256 + pr,
        d % 2 ^ 64, d / 2 ^ 64, sr % 2 ^ 64, sr / 2 ^ 64]
    | _, _, _, _, _ => none
  | _ => none

/-- The key words of a context, without VALID, as its METHOD uses them. -/
def ctxKey (s : State) (c : Nat) : List Nat :=
  let m := ctxF s c 0 60 3
  let w0 := ctxWord s c 0 % 2 ^ 63
  if m = 3 then w0 :: (List.range 5).map fun k => ctxWord s c (k + 1) else [w0, 0, 0, 0, 0, 0]

/-- Indexed contexts. -/
def idxCtxs (s : State) : List (Nat × Nat) := s.ing.idx.filterMap fun p => p.2.map fun c => (p.1, c)

/-- The slot that holds a key for a VALID context. -/
def idxSlot (s : State) (key : List Nat) : Option (Nat × Nat) :=
  (idxCtxs s).find? fun p => ctxValid s p.2 && ctxKey s p.2 == key

/-- The VALID context the index holds under a key (R270); a slot that cannot be read is empty (R438). -/
def idxFind (s : State) (key : List Nat) : Option Nat :=
  (idxSlot s key).bind fun p => if eccDead s 8 p.1 then none else some p.2

/-- A free slot of a key in either table (R271). -/
def idxFree (s : State) (key : List Nat) : Option Nat :=
  ([0, 1].flatMap fun t =>
    let b := Config.streamHash t key % 4096
    (List.range 4).map fun w => (t * 4096 + b) * 4 + w).find? fun i => (smGet none s.ing.idx i).isNone

def setIdx (i : Nat) (c : Option Nat) (s : State) : State :=
  fullWrite 8 i { s with ing := { s.ing with idx := smPut none s.ing.idx i c } }

/-- Remove a context from the index. -/
def idxRemove (c : Nat) (s : State) : State := (idxCtxs s).foldl (fun s p => if p.2 = c then setIdx p.1 none s else s) s

/-- Identification (R270): the rule's STREAM, else the index under IP, source MAC, null. -/
def identify (s : State) (p : Parsed) (vid : Nat) (rule : Option Nat) : Option Nat :=
  match rule.bind actStream with
  | some c => if ctxValid s c then some c else none
  | none => ([3, 2, 1].filterMap fun m => (streamKey p vid m).bind (idxFind s)).head?

/-! ### Meter (R278) -/

/-- The meter words of a context are read to be written again at `t` (R443, R438). -/
def meterWords (c : Nat) (t : Int) (s : State) : State := [9, 10, 11].foldl (fun s w => ctxNarrow c w (toU 48 t) id s) s

/-- Refill both buckets to instant `t` ns; answers the overflow of the first bucket in mode 1 as well. -/
def meterRefill (c : Nat) (t : Int) (s : State) : Nat × State :=
  let s := meterWords c t s
  let d := ((t - ctxF s c 11 16 48) % 281474976710656).toNat
  let dt := if d ≥ 140737488355328 then 0 else d
  let x := ctxF s c 7 32 32 * dt * 4 + ctxF s c 9 15 17
  let y := ctxF s c 7 0 32 * dt * 4 + ctxF s c 10 15 17
  let b1 := ctxF s c 8 40 24 * 256
  let b2 := ctxF s c 8 16 24 * 256
  let l1 := ctxF s c 9 32 32 + x / 125000
  let mode1 := ctxF s c 6 20 1 == 1
  let ovf := l1 - b1
  let extra := if mode1 && ctxF s c 6 19 1 == 1 then ovf else 0
  let l2 := ctxF s c 10 32 32 + y / 125000 + extra
  let s := setCtxF c 11 16 48 (toU 48 t) s
  let s := setCtxF c 9 32 32 (min l1 b1) (setCtxF c 9 15 17 (x % 125000) s)
  (ovf, setCtxF c 10 32 32 (min l2 b2) (setCtxF c 10 15 17 (y % 125000) s))

/-- Colours: 0 green, 1 yellow, 2 red. `l` is the metered length in 1/256 octet; `yellow` the input colour; the buckets
are refilled. -/
def meterColour (c l : Nat) (yellow : Bool) (s : State) : Nat × State :=
  let l1 := ctxF s c 9 32 32
  let l2 := ctxF s c 10 32 32
  let b1 := ctxF s c 8 40 24
  let b2 := ctxF s c 8 16 24
  let aware := ctxF s c 6 18 1 == 1
  if ctxF s c 6 20 1 == 0 then
    if b2 = 0 ∨ l2 < l then (2, s)
    else if (aware && yellow) || b1 = 0 || l1 < l then (1, setCtxF c 10 32 32 (l2 - l) s)
    else (0, setCtxF c 10 32 32 (l2 - l) (setCtxF c 9 32 32 (l1 - l) s))
  else
    if (!aware || !yellow) && b1 ≠ 0 && l1 ≥ l then (0, setCtxF c 9 32 32 (l1 - l) s)
    else if b2 ≠ 0 && l2 ≥ l then (1, setCtxF c 10 32 32 (l2 - l) s)
    else (2, s)

/-- The blocking of all frames of a context after a red one. -/
def meterBlock (c col : Nat) (s : State) : Nat × State :=
  if ctxF s c 6 23 1 == 1 && (ctxF s c 6 22 1 == 1 || col == 2) then (2, setCtxF c 6 22 1 1 (narrowWrite 9 (16 * c + 6) s).2) else (col, s)

/-- The meter of a context on a frame of `len` octets: refill, colour, blocking. -/
def meter (c len : Nat) (yellow : Bool) (t : Int) (s : State) : Nat × State :=
  let (col, s) := meterColour c (len * 256) yellow (meterRefill c t s).2
  meterBlock c col s

/-! ### Stream gates (R276, R277) -/

/-- The gate in force (table 9): base in words 0 to 2, cycle in 3 to 5, list length and the state bits in word 6. -/
def gateBase (e : List Nat) : Int := (T96.ofWords (tw e 0) (tw e 1) (tw e 2)).units
def gateCycle (e : List Nat) : Period := { num := tw e 3 + tw e 4 % 65536 * 2 ^ 32, den := tw e 5 % 2 ^ 24 }
def gateLen (e : List Nat) : Nat := bitsOf (tw e 6) 0 7

def gateRt (s : State) (g : Nat) : GateRt := smGet GateRt.reset s.ing.gates g
def setGateRt (g : Nat) (x : GateRt) (s : State) : State :=
  { s with ing := { s.ing with gates := smPut GateRt.reset s.ing.gates g x } }

/-- The entry of a list in force at offset `dt` (2^-32 ns) into a cycle: index and start; the last entry stays in force. -/
def spanAt (ivs : List Nat) (dt : Int) : Option (Nat × Int) :=
  (ivs.foldl (fun (acc : Nat × Int × Option (Nat × Int)) (iv : Nat) =>
    let (i, st, cur) := acc
    (i + 1, st + (iv : Int) * 4294967296, if iv ≠ 0 ∧ st ≤ dt then some (i, st) else cur)) (0, 0, none)).2.2

/-- The gate entry in force at `t` (R276): its number, its words and the start of its span. An instant before the latest change belongs to
the list that was in force then. -/
def gateEntryAt (s : State) (g : Nat) (t : Int) : Option (Nat × List Nat × Int) :=
  let rt := gateRt s g
  let cur : List Nat × List (List Nat) × Int := (tblEntry s 9 g, (List.range 64).map (fun i => tblEntry s 10 (64 * g + i)), rt.shift)
  let (e, lst, shift) := if t < rt.since then rt.prev.getD cur else cur
  let p := gateCycle e
  if p.ok then
    let base := gateBase e + shift
    let k := ((t - base) * p.den) / ((p.num : Int) * 4294967296)
    let c := (p.instant base k).up
    let ents := lst.take (gateLen e)
    (spanAt (ents.map (tw · 1)) (t - c)).map fun x => (x.1, ents.getD x.1 [], c + x.2)
  else none

/-- Octets the gate has passed in the span that began at `st`. -/
def spanOctets (rt : GateRt) (st : Int) : Nat := match rt.spans.find? (·.1 == st) with | some p => p.2 | none => 0

/-- They become `n`. -/
def spanPut (rt : GateRt) (st : Int) (n : Nat) : GateRt := { rt with spans := (st, n) :: rt.spans.filter (·.1 != st) }

/-- Pass a frame of `len` octets at the gate at instant `t`: the discard reason, or the IPV of the entry (R277). A gate with
no list in force is closed. -/
def gatePass (g len : Nat) (t : Int) (s : State) : (Nat ⊕ Nat) × State :=
  let e := tblEntry s 9 g
  let w6 := tw e 6
  let setBit (b : Nat) (s : State) : State := setTbl 9 g (e.set 6 (putBit w6 b true)) s
  match gateEntryAt s g t with
  | none => (.inl 6, s)
  | some (_, x, st) =>
    if !bitOf (tw x 0) 31 then
      if bitOf w6 31 && !bitOf w6 29 then (.inl 6, raise R.ING_EVENT_CLOSED_INVALID_RX (setBit 29 s) 0 g) else (.inl 6, s)
    else if bitOf w6 29 || bitOf w6 28 then (.inl 6, s)
    else
      let used := spanOctets (gateRt s g) st
      if tw x 2 ≠ 0 ∧ used + len > tw x 2 then
        if bitOf w6 30 && !bitOf w6 28 then (.inl 7, raise R.ING_EVENT_OCTETS_EXCEEDED (setBit 28 s) 0 g) else (.inl 7, s)
      else (.inr (bitsOf (tw x 0) 0 4), setGateRt g (spanPut (gateRt s g) st (used + len)) s)

end Sys2Proof.Machine
end

