-- ==== Sys2Proof/Machine/PteOps.lean ====
section
/-!
DEFINITION. Sys2Proof/Machine/PteOps.lean: the operations of the protocol engine (spec/04): profiles, port states, forcing,
committed load, the delay filter, samples, grants.
-/
namespace Sys2Proof.Machine

/-! ### Instances and profiles (R109, R118) -/

def pteInst (s : State) (i : Nat) : PteInst := smGet PteInst.reset s.pte.insts i
def setPteInst (i : Nat) (x : PteInst) (s : State) : State :=
  { s with pte := { s.pte with insts := smPut PteInst.reset s.pte.insts i x } }

/-- The port and the domain of an instance (R118). -/
def instPort (i : Nat) : Nat := i % 64
def instB (i : Nat) : Bool := decide (64 ≤ i)

/-- A field of a domain's register. -/
def domF (s : State) (b : Bool) (fa fb : Fld) : Nat := if b then getF s fb else getF s fa

def mapEna (s : State) (b : Bool) : Bool := domF s b R.PTE_DOMA_MAP_ENA R.PTE_DOMB_MAP_ENA == 1 && (!b || domainB s)
def mapGm (s : State) (b : Bool) : Bool := domF s b R.PTE_DOMA_MAP_GM R.PTE_DOMB_MAP_GM == 1
def mapRole (s : State) (b : Bool) : Nat := domF s b R.PTE_DOMA_MAP_ROLE R.PTE_DOMB_MAP_ROLE
def mapProfile (s : State) (b : Bool) : Nat := domF s b R.PTE_DOMA_MAP_PROFILE R.PTE_DOMB_MAP_PROFILE
/-- A transparent role (R123). -/
def transparent (s : State) (b : Bool) : Bool := mapRole s b == 1 || mapRole s b == 2

/-- A profile's default, least and greatest log interval: Sync, Delay_Req and Pdelay_Req, Announce (R109). -/
structure ProfRow where
  sync : Int × Int × Int
  delay : Int × Int × Int
  ann : Int × Int × Int
  domLo : Nat
  domHi : Nat
  deriving DecidableEq, Repr

/-- The table of R109. -/
def profRow (p : Nat) : ProfRow :=
  match p with
  | 0 => ⟨(0, -7, 4), (0, -7, 5), (1, 0, 4), 0, 127⟩
  | 1 => ⟨(0, -7, 4), (0, -7, 5), (1, 0, 4), 0, 127⟩
  | 2 => ⟨(-3, -7, 0), (-3, -7, 0), (1, 0, 4), 0, 127⟩
  | 3 => ⟨(-3, -7, 1), (0, -4, 3), (0, -3, 3), 0, 127⟩
  | 5 => ⟨(-3, -4, 1), (-3, -4, 5), (1, 0, 4), 0, 127⟩
  | 6 => ⟨(-4, -4, -4), (-4, -4, -4), (-3, -3, -3), 24, 43⟩
  | _ => ⟨(-3, -7, -1), (-3, -7, 0), (-2, -3, 1), 0, 127⟩

/-- The PTE_INTERVAL word of a profile's defaults. -/
def profWord (p : Nat) : Nat :=
  let r := profRow p
  toU 8 r.ann.1 * 2 ^ 24 + toU 8 r.delay.1 * 2 ^ 16 + toU 8 r.delay.1 * 256 + toU 8 r.sync.1

def pteState (s : State) (i : Nat) : Nat := getF s R.PTE_PORT_STATE_STATE i
def stSLAVE : Nat := 9
def stUNCAL : Nat := 8
def stMASTER : Nat := 6
/-- SLAVE or UNCALIBRATED. -/
def isSlave (s : State) (i : Nat) : Bool := pteState s i == 9 || pteState s i == 8
def isP2P (s : State) (i : Nat) : Bool := flag s R.PTE_PORT_CFG_DELAY_MECH i

/-- The engine acts on the instance: it is on, the instance exists and is enabled, its domain is mapped and not transparent. -/
def pteOn (s : State) (i : Nat) : Bool :=
  timUp s && flag s R.PTE_GCFG_ENA && i < 128 && instPresent s 6 i && flag s R.PTE_PORT_CFG_ENA i && mapEna s (instB i)
    && !transparent s (instB i)

/-- The instance runs the Pdelay exchange (R118, R123): a P2P instance from LISTENING to SLAVE, in any state in a P2P
transparent domain. -/
def pdOn (s : State) (i : Nat) : Bool :=
  timUp s && flag s R.PTE_GCFG_ENA && i < 128 && instPresent s 6 i && flag s R.PTE_PORT_CFG_ENA i && mapEna s (instB i)
    && isP2P s i && (mapRole s (instB i) == 2 || (!transparent s (instB i) && 4 ≤ pteState s i))

/-- PTP is enabled on port `p` in domain `b` (R115). -/
def pteEnabled (s : State) (p : Nat) (b : Bool) : Bool :=
  flag s R.PTE_GCFG_ENA && mapEna s b && p < 64 && flag s R.PTE_PORT_CFG_ENA (p + 64 * b2n b)

def pteDrop (i : Nat) (s : State) : State := bump R.PTE_CNT_DROP_COUNT s i

def logSync (s : State) (i : Nat) : Int := getS s R.PTE_INTERVAL_LOG_SYNC i
def logDelay (s : State) (i : Nat) : Int := getS s R.PTE_INTERVAL_LOG_DELAY i
def logPd (s : State) (i : Nat) : Int := getS s R.PTE_INTERVAL_LOG_PDELAY i
def logAnn (s : State) (i : Nat) : Int := getS s R.PTE_INTERVAL_LOG_ANNOUNCE i

/-- 2^log s in 2^-32 ns. -/
def logUnits (l : Int) : Int := if l ≥ 0 then unitS * (2 ^ l.toNat : Nat) else unitS / (2 ^ (-l).toNat : Nat)

/-- The first instant of the schedule of R122 after `t`: k x 2^log s + p x 2^log s / 64. -/
def schedAfter (l : Int) (p : Nat) (t : Int) : Int :=
  let u := logUnits l
  let o := u * p / 64
  ((t - o) / u + 1) * u + o

/-! ### Committed load (R136, R138) -/

/-- 16 x 2^-log units, in 1/1024 unit. -/
def loadUnits (l : Int) : Nat := if l ≥ 0 then 16384 / 2 ^ l.toNat else 16384 * 2 ^ (-l).toNat

/-- The cost of a grant (R136): Announce costs nothing. -/
def grantCost (g : Grant) : Nat := if g.mtype = 11 then 0 else loadUnits g.log

def instGrants (s : State) (i : Nat) : List Grant := (s.pte.partners.filter (·.inst == i)).flatMap (·.grants)

/-- The committed load of R136 in 1/1024 unit. -/
def committed (s : State) (i : Nat) : Nat :=
  (if pteState s i = 6 ∧ !flag s R.PTE_PORT_CFG_UNICAST i then loadUnits (logSync s i) else 0)
    + (if isP2P s i then loadUnits (logPd s i) else 0)
    + (if isSlave s i then loadUnits (logDelay s i) else 0)
    + (instGrants s i).foldl (fun a g => a + grantCost g) 0

/-- The capacity in 1/1024 unit. -/
def capacity : Nat := 2048 * 1024

/-- One pair of the token bucket (R137): the unit of `spent` is what one 1/1024 unit fills in 2^-32 ns. -/
def tokenPair : Int := 16384 * unitS

/-- Bring the token bucket up to the present Last at the load in force so far. -/
def settle (i : Nat) (s : State) : State :=
  let x := pteInst s i
  let dt := now s - x.tokenAt
  let fill := ((capacity - committed s i : Nat) : Int) * dt
  let left := x.spent - fill
  setPteInst i { x with spent := if left < 0 then 0 else left, tokenAt := now s } s

/-- Lengthen one field a step at a time until the load fits or the field is at the end of its range. -/
def lengthen (i : Nat) (f : Fld) (hi : Int) : Nat → State → State
  | 0, s => s
  | k + 1, s =>
    if committed s i ≤ capacity ∨ getS s f i ≥ hi then s
    else lengthen i f hi k (setF f (toU 8 (getS s f i + 1)) s i)

/-- Remove grants; an entry with none left is freed (R140). -/
def dropGrants (p : Partner → Grant → Bool) (s : State) : State :=
  let ps := (s.pte.partners.map fun x => { x with grants := x.grants.filter fun g => !p x g }).filter (!·.grants.isEmpty)
  setF R.PTE_GSTAT_PARTNERS ps.length { s with pte := { s.pte with partners := ps } }

/-- The latest grant of instance `i` that costs units or not, by order of granting. -/
def latestGrant (s : State) (i : Nat) : Option Nat :=
  ((instGrants s i).map (·.no)).foldl (fun a n => match a with | none => some n | some m => some (max m n)) none

/-- R138's last step: cancel grants, the latest first, until the load fits. -/
def cancelGrants (i : Nat) : Nat → State → State
  | 0, s => s
  | k + 1, s =>
    if committed s i ≤ capacity then s
    else
      match latestGrant s i with
      | none => s
      | some n =>
        let s := (s.pte.partners.filter (·.inst == i)).foldl (fun s p =>
          p.grants.foldl (fun s g => if g.no = n then emit (.cancel i p.addr p.pid g.mtype false) s else s) s) s
        cancelGrants i k (dropGrants (fun p g => p.inst == i && g.no == n) s)

/-- Fit the load of an instance into its capacity (R138). -/
def fitLoad (i : Nat) (s : State) : State :=
  if committed s i ≤ capacity then s
  else
    let r := profRow (mapProfile s (instB i))
    let s := lengthen i R.PTE_INTERVAL_LOG_PDELAY r.delay.2.2 32 s
    let s := lengthen i R.PTE_INTERVAL_LOG_SYNC r.sync.2.2 32 s
    let s := lengthen i R.PTE_INTERVAL_LOG_DELAY r.delay.2.2 32 s
    let s := raise R.PTE_PORT_EVENT_INTERVAL_CLAMPED s i
    cancelGrants i 512 s

/-- A PTE_INTERVAL word comes into force at a scheduled message (R110, R122, R138): clamped, then fitted. -/
def applyInterval (i : Nat) (s : State) : State :=
  match (pteInst s i).pend with
  | none => s
  | some w =>
    let s := settle i s
    let r := profRow (mapProfile s (instB i))
    let cl (x : Int × Int × Int) (v : Int) : Int := clampI x.2.1 x.2.2 v
    let a := sx 8 (bitsOf w 24 8); let p := sx 8 (bitsOf w 16 8); let d := sx 8 (bitsOf w 8 8); let y := sx 8 (bitsOf w 0 8)
    let a' := cl r.ann a; let p' := cl r.delay p; let d' := cl r.delay d; let y' := cl r.sync y
    let s := setF R.PTE_INTERVAL_LOG_ANNOUNCE (toU 8 a') (setF R.PTE_INTERVAL_LOG_PDELAY (toU 8 p')
      (setF R.PTE_INTERVAL_LOG_DELAY (toU 8 d') (setF R.PTE_INTERVAL_LOG_SYNC (toU 8 y') s i) i) i) i
    let s := setPteInst i { pteInst s i with pend := none } s
    let s := whenS (a ≠ a' || p ≠ p' || d ≠ d' || y ≠ y') (fun s => raise R.PTE_PORT_EVENT_INTERVAL_CLAMPED s i) s
    fitLoad i s

/-! ### Port states (R118 to R120) -/

/-- The seed of the Delay_Req intervals (R122, R511). -/
def delaySeed (i : Nat) : Nat := zeroAs 1 (instPort i)

/-- Draw the next Delay_Req interval: the 16-bit value over 65,536 of 2 x 2^LOG_DELAY s (R122). -/
def drawDelay (i : Nat) (s : State) : State :=
  let x := pteInst s i
  let v := lfsrStep (x.lfsr.getD (delaySeed i))
  setPteInst i { x with lfsr := some v, dueDelay := some (now s + 2 * logUnits (logDelay s i) * v / 65536) } s

def sampleQ (s : State) (b : Bool) : List Sample := if b then s.pte.qB else s.pte.qA
def setSampleQ (b : Bool) (q : List Sample) (s : State) : State :=
  if b then { s with pte := { s.pte with qB := q } } else { s with pte := { s.pte with qA := q } }

/-- The state of an instance becomes `st`, with what follows from it: schedules start, grants end when MASTER or SLAVE is left
(R140), samples of an instance no longer a slave go (R119), the load is fitted (R138). -/
def setPteState (i st : Nat) (s : State) : State :=
  let old := pteState s i
  if old = st then s
  else
    let s := settle i s
    let was := isSlave s i
    let s := setF R.PTE_PORT_STATE_STATE st s i
    let s := whenS (old == 6 || old == 9) (dropGrants fun p _ => p.inst == i) s
    let x := pteInst s i
    let s := setPteInst i { x with lastSync := if st = 6 then now s else x.lastSync, lastAnn := if st = 6 then now s else x.lastAnn,
                                   lastPd := if old < 4 then now s else x.lastPd } s
    let slave := isSlave s i
    let s := if slave && !was then
        drawDelay i (setPteInst i { pteInst s i with syncAt := now s, syncLost := false, syncs := [], two := none } s)
      else if was && !slave then setPteInst i { pteInst s i with dueDelay := none, wait := [], syncs := [], two := none } s
      else s
    activityCheck (fitLoad i s)

/-- A state written or forced (R119): another instance of the domain in SLAVE or UNCALIBRATED moves to PASSIVE and its waiting
samples are discarded. -/
def movePteState (i st : Nat) (s : State) : State :=
  let s := if st = 8 ∨ st = 9 then
      (List.range 64).foldl (fun s p =>
        let j := p + 64 * b2n (instB i)
        if j ≠ i && isSlave s j then
          setPteState j 7 (setSampleQ (instB i) ((sampleQ s (instB i)).filter (·.inst != j)) s)
        else s) s
    else s
  setPteState i st s

/-- The first condition of R120 that holds, 0 for none. -/
def forceReason (s : State) (i : Nat) : Nat :=
  let p := instPort i
  let prof := mapProfile s (instB i)
  let strict := prof == 2 || prof == 6
  if !flag s R.PTE_PORT_CFG_ENA i then 0
  else if !portUp s p then 1
  else if !flag s R.TSU_CTL_RX_TS_ENA p || !flag s R.TSU_CTL_TX_TS_ENA p || !flag s R.TSU_GCFG_TS_ENA then 2
  else if strict && flag s R.TSU_STATUS_RATE_MATCHED p then 3
  else if strict && !flag s R.TSU_STATUS_CAL_VALID p then 4
  else if (tally s p).bad then 5
  else 0

/-- Bring the forcing of instance `i` up to date (R120). -/
def pteForce (i : Nat) (s : State) : State :=
  let old := getF s R.PTE_PORT_STATE_FORCE_REASON i
  let r := forceReason s i
  if old = r then s
  else
    let s := setF R.PTE_PORT_STATE_FORCE_REASON r s i
    if old = 0 then raise R.PTE_PORT_EVENT_STATE_FORCED (setPteState i 2 s) i
    else if r = 0 then
      raise R.PTE_PORT_EVENT_STATE_FORCED (if flag s R.PTE_PORT_CFG_ENA i then setPteState i 4 s else s) i
    else s

/-- Forcing on both instances of port `p`. -/
def forcePort (p : Nat) (s : State) : State := pteForce (p + 64) (pteForce p s)

/-- Forcing on every instance. -/
def forceAll (s : State) : State := (List.range 64).foldl (fun s p => forcePort p s) s

/-! ### Time of a domain, messages -/

/-- o_d at a Last instant in 2^-16 ns (R98): 0 for a domain whose grandmaster is this device. -/
def domOff (s : State) (b : Bool) (t16 : Int) : Int := if mapGm s b then 0 else domOffset s b (t16 / 65536)

/-- The identity of an instance's port (R133): PTE_CLOCK_ID and port + 1. -/
def portIdent (s : State) (i : Nat) : Nat :=
  (getF s R.PTE_CLOCK_ID_ID_HI * 2 ^ 32 + getF s R.PTE_CLOCK_ID_ID_LO) * 65536 + instPort i + 1

/-- A message of an instance. -/
def ptpMsg (s : State) (i kind seq : Nat) : PtpMsg :=
  let b := instB i
  { kind, version := 2, minor := 1, domain := domF s b R.PTE_DOMA_MAP_DOMAIN R.PTE_DOMB_MAP_DOMAIN
    major := domF s b R.PTE_DOMA_MAP_MAJOR_SDO R.PTE_DOMB_MAP_MAJOR_SDO
    minorSdo := domF s b R.PTE_DOMA_MAP_MINOR_SDO R.PTE_DOMB_MAP_MINOR_SDO
    twoStep := false, cf := 0, seq := seq % 65536, src := portIdent s i, ts := 0, req := 0, rate := none }

/-- correctionField additions saturate (R100). -/
def cfAdd (a b : Int) : Int := if a + b > 9223372036854775807 ∨ a + b < -9223372036854775808 then 9223372036854775807 else a + b

/-- The whole-nanosecond part of a time in 2^-16 ns, and its fraction. -/
def wholeNs (t : Int) : Int := t / 65536 * 65536
def fracNs (t : Int) : Int := t % 65536

/-- The Follow_Up information TLV's cumulativeScaledRateOffset of R134 for domain `b`. -/
def cumRate (s : State) (b : Bool) : Int :=
  if mapGm s b then 0
  else
    match slaveInst s b with
    | none => 0
    | some j =>
      let rho := (pteInst s j).rho
      let y := getS s R.PTE_NRR_Y j
      rho + 2 * y + rho * y / 1099511627776

/-- The receive time of a frame's record, where it may be used (R81): in 2^-16 ns. -/
def usableRx (x : Frame) : Option RxRec := match x.rx with | some r => if r.valid then some r else none | none => none

/-- Residence from a receive instant in 2^-16 ns to a transmit time (R99), with the step count in force at the receipt: none when the
counts differ by more than one. -/
def residence (x : TxTime) (rx : Int) (count : Nat) : Option Int :=
  let d := (x.count + 2 ^ 32 - count % 2 ^ 32) % 2 ^ 32
  let r := rdiv x.t 65536 - rx
  if d = 0 then some r else if d = 1 then some (r - x.amt / 65536) else none

/-- Residence carried into domain `b` (R99), under TC_RATE_CORR; none for a frame of no domain. -/
def inDomain (s : State) (b : Option Bool) (r : Int) : Int :=
  match b with
  | some b => if flag s R.TSU_GCFG_TC_RATE_CORR then r + (r * (dom s b).rate) / 1099511627776 else r
  | none => r

/-! ### Insertion on octets (R97, R100) -/

/-- The ones'-complement sum folded to 16 bits. -/
def fold16 (x : Nat) : Nat :=
  let x := x % 65536 + x / 65536
  let x := x % 65536 + x / 65536
  x % 65536 + x / 65536

/-- Ten octets of a PTP timestamp from 2^-16 ns: 48-bit seconds, 32-bit nanoseconds. -/
def ptpTime (t : Int) : List Nat := let n := (t / 65536).toNat; beOf (n / 1000000000) 6 ++ beOf (n % 1000000000) 4

/-- An insertion command on the octets of a frame (R97, R98, R100): TS_WRITE of the whole nanoseconds of `ts`, `add` to correctionField, and
the UDP checksum rule. The tags before the message have moved it by `delta` octets. -/
def editTime (i : Ins) (ts add delta : Int) (l : List Nat) : List Nat :=
  let mv (n : Nat) : Nat := ((n : Int) + delta).toNat
  let cf := mv i.cfOff
  let l1 := match i.tsWrite with | some k => patch l (mv k) (ptpTime ts) | none => l
  let l' := patch l1 cf (beOf (toU 64 (cfAdd (sx 64 (beAt l cf 8)) add)) 8)
  if i.udpOff = 0 then l'
  else if !i.ipv6 then patch l' (mv i.udpOff + 6) [0, 0]
  else
    match i.trailer with
    | none => l'
    | some tr =>
      let t := mv tr
      let u := mv i.udpOff
      let sum (m : List Nat) : Nat := (List.range ((t - u) / 2)).foldl (fun a k => a + beAt m (u + 2 * k) 2) 0
      let swap (v : Nat) : Nat := if (t - u) % 2 = 0 then v else v % 256 * 256 + v / 256
      let v := fold16 (swap (beAt l' t 2) + sum l + ((t - u) / 2 * 65535 - sum l'))
      patch l' t (beOf (swap v) 2)

/-! ### The messages the engine originates, as frames (R109, R116, R133; IEEE 1588 layouts, PRESUMED: notes/assumptions/150.md) -/

/-- An event message; a peer message. -/
def evKind (k : Nat) : Bool := k ≤ 3
def peerKind (k : Nat) : Bool := k == 2 || k == 3 || k == 10

/-- The transport of an instance (R109): the one its profile has, or where it has several the one TRANSPORT names: 0 Ethernet, 1 IPv4,
2 IPv6. -/
def transport (s : State) (i : Nat) : Nat :=
  let p := mapProfile s (instB i)
  let t := getF s R.PTE_PORT_CFG_TRANSPORT i
  if p = 3 ∨ p = 6 then 0 else if p = 4 ∨ p = 5 then 1 else if t = 3 then 1 else t

/-- The template that the management firmware maintains for an instance (R116): the second flag octet, the 20 octets of the Announce body
after its originTimestamp, and the 18 octets of the Follow_Up information TLV after its rate offset. -/
def template (s : State) (i k n : Nat) : List Nat := (List.range n).map fun j => (smGet [] s.pte.templates i).getD (k + j) 0 % 256

/-- The octets of a message, without trailer. -/
def msgOctets (s : State) (i : Nat) (m : PtpMsg) (uni : Bool) : List Nat :=
  let pid := beOf m.src 10
  let tlv := match m.rate with
    | some r => beOf 3 2 ++ beOf 28 2 ++ beOf 0x0080C2 3 ++ beOf 1 3 ++ beOf (toU 32 r) 4 ++ template s i 21 18
    | none => []
  let tail := if m.kind = 11 then template s i 1 20 else if m.kind = 2 then beOf 0 10 else if m.kind = 3 ∨ m.kind = 9 ∨ m.kind = 10 then beOf m.req 10 else []
  let body := ptpTime m.ts ++ tail ++ tlv
  let ctl := if m.kind = 0 then 0 else if m.kind = 1 then 1 else if m.kind = 8 then 2 else if m.kind = 9 then 3 else 5
  let log := if m.kind = 0 ∨ m.kind = 8 then getF s R.PTE_INTERVAL_LOG_SYNC i else if m.kind = 9 then getF s R.PTE_INTERVAL_LOG_DELAY i
    else if m.kind = 11 then getF s R.PTE_INTERVAL_LOG_ANNOUNCE i else 0x7F
  [m.major * 16 + m.kind, m.minor * 16 + m.version] ++ beOf (34 + body.length) 2 ++ [m.domain, m.minorSdo]
    ++ [2 * b2n m.twoStep + 4 * b2n uni] ++ template s i 0 1 ++ beOf (toU 64 m.cf) 8 ++ beOf 0 4 ++ pid ++ beOf m.seq 2 ++ [ctl, log] ++ body

/-- The destination of a message on IP: a partner, or the group of R109. Of FF0x::181 the scope is global. -/
def ipDest (v6 : Bool) (m : PtpMsg) (dest : Option Nat) : Nat :=
  match dest with
  | some a => a
  | none =>
    if v6 then (if peerKind m.kind then 0xFF02000000000000000000000000006B else 0xFF0E0000000000000000000000000181)
    else if peerKind m.kind then 0xE000006B else 0xE0000181

/-- The destination MAC address of a message. -/
def macDest (s : State) (i : Nat) (m : PtpMsg) (dest : Option Nat) : Nat :=
  let p := mapProfile s (instB i)
  match transport s i, dest with
  | 0, some a => a
  | 0, none => if p = 1 ∨ p = 3 ∨ peerKind m.kind then 0x0180C200000E else 0x011B19000000
  | _, some a => Config.engineField 3 a % 2 ^ 48
  | 1, none => 0x01005E000000 + ipDest false m none % 2 ^ 23
  | _, none => 0x333300000000 + ipDest true m none % 2 ^ 32

/-- The sum of 16-bit words of octets. -/
def sum16 (l : List Nat) : Nat := (List.range ((l.length + 1) / 2)).foldl (fun a k => a + beAt (l ++ [0]) (2 * k) 2) 0

/-- The message in its encapsulation, from the destination address, before the FCS. UDP over IPv4 has checksum 0; over IPv6 two octets
follow the message, which the checksum rule of R100 needs. -/
def ptpFrame (s : State) (i : Nat) (m : PtpMsg) (dest : Option Nat) : List Nat :=
  let p := instPort i
  let l := msgOctets s i m dest.isSome
  let macs := beOf (macDest s i m dest) 6 ++ beOf (Config.engineField 0 p) 6
  let prt := beOf (if evKind m.kind then 319 else 320) 2
  match transport s i with
  | 0 => macs ++ beOf 0x88F7 2 ++ l
  | 1 =>
    let n := l.length + 28
    let ip (c : Nat) : List Nat := [0x45, Config.engineField 5 p % 256] ++ beOf n 2 ++ [0, 0, 0, 0, Config.engineField 4 p % 256, 17] ++ beOf c 2
      ++ beOf (Config.engineField 1 p) 4 ++ beOf (ipDest false m dest) 4
    macs ++ beOf 0x0800 2 ++ ip (65535 - fold16 (sum16 (ip 0))) ++ prt ++ prt ++ beOf (l.length + 8) 2 ++ [0, 0] ++ l
  | _ =>
    let n := l.length + 10
    let addrs := beOf (Config.engineField 2 p) 16 ++ beOf (ipDest true m dest) 16
    let udp (c : Nat) : List Nat := prt ++ prt ++ beOf n 2 ++ beOf c 2 ++ l ++ [0, 0]
    let c := 65535 - fold16 (sum16 (addrs ++ beOf n 4 ++ beOf 17 4 ++ udp 0))
    macs ++ beOf 0x86DD 2 ++ beOf (6 * 2 ^ 28 + Config.engineField 5 p % 256 * 2 ^ 20) 4 ++ beOf n 2 ++ [17, Config.engineField 4 p % 256] ++ addrs
      ++ udp (if c = 0 then 65535 else c)

/-- Where the message of instance `i` begins in its frame. -/
def ptpOffset (s : State) (i : Nat) : Nat := match transport s i with | 0 => 14 | 1 => 42 | _ => 62

/-- The insertion command on a message that the engine originates (R133): TS_WRITE at originTimestamp where `write`, correctionField, and
the checksum rule of its encapsulation. -/
def engineIns (s : State) (i : Nat) (m : PtpMsg) (write : Bool) : Ins :=
  let off := ptpOffset s i
  let t := transport s i
  { tsWrite := if write then some (off + 34) else none, residence := m.kind == 3, addend := none, cfOff := off + 8, dom := some (b2n (instB i))
    udpOff := if t = 0 then 0 else off - 8, ipv6 := t == 2, trailer := if t = 2 then some (off + (msgOctets s i m false).length) else none }

/-- A frame as it is sent: padded to 60 octets, with its FCS. -/
def framed (l : List Nat) : List Nat := let l := l ++ List.replicate (60 - l.length) 0; l ++ fcsOf (crc32 l)

/-- The engine sends a message without insertion. -/
def sendPtp (i : Nat) (m : PtpMsg) (dest : Option Nat) (s : State) : State := emit (.ptp i m (framed (ptpFrame s i m dest))) s

/-! ### Filter and samples (R128, R129) -/

def mpdWin (s : State) : Nat := zeroAs 64 (getF s R.PTE_FILT_MPD_WIN)

def meanI (l : List Int) : Int := if l.isEmpty then 0 else l.foldl (· + ·) 0 / (l.length : Int)

/-- One exchange value enters the filter of instance `i` (R128). -/
def filterAdd (i : Nat) (d : Int) (s : State) : State :=
  let x := pteInst s i
  let gate : Int := getF s R.PTE_FILT_MPD_GATE_NS * 65536
  if x.mpd.length ≥ mpdWin s ∧ gate ≠ 0 ∧ (d - meanI x.mpd).natAbs > gate then
    if x.rej + 1 ≥ 8 then setPteInst i { x with mpd := [], rej := 0 } s else setPteInst i { x with rej := x.rej + 1 } s
  else
    let l := (d :: x.mpd).take (mpdWin s)
    setWS R.PTE_MPD_MPD_LO R.PTE_MPD_MPD_HI (meanI l) (setPteInst i { x with mpd := l, rej := 0 } s) i

/-- The servo firmware runs (R132). -/
def servoRuns (s : State) : Bool := flag s R.FWT_STATUS_SERVO_RUN

/-- A Sync is accepted: t1, t2 and c_s in 2^-16 ns (R129, R131). -/
def acceptSync (i : Nat) (t1 t2 cs : Int) (lastInvalid : Bool) (epoch : Nat) (s : State) : State :=
  let x := pteInst s i
  let s := setPteInst i { x with syncs := ((t1, t2, cs, epoch) :: x.syncs).take 256, syncAt := now s, syncLost := false, two := none } s
  if x.mpd.isEmpty then s
  else
    let o := t1 + cs + meanI x.mpd + getS s R.PTE_ASYM_ASYM i - t2
    if !servoRuns s then pteDrop i s
    else
      let b := instB i
      let q := sampleQ s b
      if q.length ≥ 64 then raise (if b then R.PTE_EVENT_SAMPLE_QUEUE_OVF_B else R.PTE_EVENT_SAMPLE_QUEUE_OVF_A) s
      else setSampleQ b (q ++ [⟨o, t2, t2 - t1 - cs, i, pteState s i == 8, lastInvalid, epoch⟩]) s

/-! ### The servo's estimates (R130) -/

/-- The `n` samples of smallest transit. -/
def keepSmallest : Nat → List Sample → List Sample
  | 0, _ => []
  | n + 1, l =>
    match l.foldl (fun (a : Option Sample) x => match a with | none => some x | some y => if x.transit < y.transit then some x else some y) none with
    | none => []
    | some m => m :: keepSmallest n (l.erase m)

/-- The least-squares slope of offsets against instants (instant, offset), in 2^-40; 0 until two estimates exist. -/
def slope (l : List (Int × Int)) : Int :=
  let n : Int := l.length
  let t0 := (l.head?.getD (0, 0)).1
  let sx := l.foldl (fun a p => a + (p.1 - t0)) 0
  let sy := l.foldl (fun a p => a + p.2) 0
  let sxy := l.foldl (fun a p => a + (p.1 - t0) * p.2) 0
  let sxx := l.foldl (fun a p => a + (p.1 - t0) * (p.1 - t0)) 0
  let den := n * sxx - sx * sx
  if l.length < 2 ∨ den = 0 then 0 else (n * sxy - sx * sy) * 1099511627776 / den

/-- The estimate formed from the queue's next group (R130): offset (2^-16 ns), rate (2^-40), instant (2^-32 ns), and the
state with the group taken; no estimate where no whole group waits, the group spans a step, or the servo does not run. -/
def servoEstimate (b : Bool) (s : State) : Option (Int × Int × Int) × State :=
  let win := zeroAs 64 (domF s b R.PTE_DOMA_SERVO_EST_WIN R.PTE_DOMB_SERVO_EST_WIN)
  let keep := min win (zeroAs 1 (domF s b R.PTE_DOMA_SERVO_EST_KEEP R.PTE_DOMB_SERVO_EST_KEEP))
  let rw0 := domF s b R.PTE_DOMA_SERVO_RATE_WIN R.PTE_DOMB_SERVO_RATE_WIN
  let rw := if rw0 = 0 then 64 else if rw0 = 1 then 2 else rw0
  let q := sampleQ s b
  if !servoRuns s || q.length < win then (none, s)
  else
    let g := q.take win
    let s := setSampleQ b (q.drop win) s
    if g.any (fun x => some x.epoch != (g.head?.map (·.epoch))) then (none, s)
    else
      let k := keepSmallest keep g
      let off := meanI (k.map (·.o))
      let t := meanI (k.map (·.t2))
      let h := ((t, off) :: (if b then s.pte.estB else s.pte.estA)).take rw
      let s := if b then { s with pte := { s.pte with estB := h } } else { s with pte := { s.pte with estA := h } }
      (some (off, slope h, t * 65536), s)

/-! ### Requests and grants (R137, R139) -/

/-- A request takes a token (R137); none left: discarded, counted, DREQ_POLICED at most once per second. -/
def takeToken (i : Nat) (s : State) : Bool × State :=
  let s := settle i s
  let x := pteInst s i
  if x.spent + tokenPair ≤ 16 * tokenPair then (true, setPteInst i { x with spent := x.spent + tokenPair } s)
  else
    let s := pteDrop i s
    let due := match x.policed with | some t => decide (now s ≥ t + unitS) | none => true
    (false, if due then raise R.PTE_PORT_EVENT_DREQ_POLICED (setPteInst i { pteInst s i with policed := some (now s) } s) i else s)

/-- A general message for the management firmware takes a token of PTE_FW_RATE (R141): whether there is one. -/
def fwToken (s : State) : Bool × State :=
  let rate : Int := zeroAs 1 (getF s R.PTE_FW_RATE_RATE)
  let burst : Int := zeroAs 1 (getF s R.PTE_FW_RATE_BURST)
  let left := s.pte.fwSpent - rate * (now s - s.pte.fwAt)
  let left := if left < 0 then 0 else left
  let ok := decide (left + unitS ≤ burst * unitS)
  (ok, { s with pte := { s.pte with fwAt := now s, fwSpent := if ok then left + unitS else left } })

/-- The receive record that a frame brings to P65 (R96, R116): zeros, VALID among them, where none was formed. -/
def p65Record (x : Frame) : List Nat := match x.rx with | some r => r.words | none => [0, 0, 0, 0]

/-- The grant of message type `m` that covers a request of a partner now (R137): its latest covered request is at least its
interval back. -/
def useGrant (i addr pid m : Nat) (s : State) : Option State :=
  let ok (p : Partner) (g : Grant) : Bool :=
    p.inst == i && p.addr == addr && p.pid == pid && g.mtype == m && decide (now s ≤ g.expiry)
      && (match g.last with | some t => decide (now s ≥ t + logUnits g.log) | none => true)
  if s.pte.partners.any fun p => p.grants.any (ok p) then
    some { s with pte := { s.pte with partners := s.pte.partners.map fun p =>
      { p with grants := p.grants.map fun g => if ok p g then { g with last := some (now s) } else g } } }
  else none

/-- The protocol address of a frame's sender: its IP source, else its source MAC. -/
def senderAddr (x : Frame) : Nat := let p := parse (x.octets.take 128); if p.l3 = 0 then p.sa else p.src.getD 0

/-! ### Correlation table (R124) -/

/-- FUP_TIMEOUT_MS in 2^-32 ns; 0 acts as 1. -/
def fupLimit (s : State) : Int := (zeroAs 1 (getF s R.PTE_GCFG_FUP_TIMEOUT_MS) : Int) * unitMs

/-- Store a residence; a full table replaces its oldest entry. -/
def corrAdd (e : CorrEnt) (s : State) : State :=
  let l := if s.pte.corr.length ≥ 1024 then s.pte.corr.drop 1 else s.pte.corr
  let k := freePlace (l.map (·.slot))
  fullWrite 14 k { s with pte := { s.pte with corr := l ++ [{ e with slot := k }] } }

/-- The entry of the correlation table for a message. -/
def corrIs (s : State) (out dom src seq : Nat) (e : CorrEnt) : Bool :=
  e.out == out && e.dom == dom && e.src == src && e.seq == seq && decide (now s - e.at32 ≤ fupLimit s)

/-- A read of that entry counts; one that cannot be read is freed (R438). -/
def corrRead (out dom src seq : Nat) (s : State) : State :=
  match s.pte.corr.find? (corrIs s out dom src seq) with
  | some e =>
    let (ok, s) := eccRead 14 e.slot s
    if ok then s else { s with pte := { s.pte with corr := s.pte.corr.filter (·.slot ≠ e.slot) } }
  | none => s

/-- The entry of a Follow_Up. -/
def corrFind (s : State) (out dom src seq : Nat) : Option CorrEnt := s.pte.corr.find? (corrIs s out dom src seq)

/-- The words of a partner's entry are read to be written again (R443): where they cannot be read its grants end as at expiry, and the
entry is freed (R438). -/
def partnerRead (i addr pid : Nat) (s : State) : State :=
  match s.pte.partners.find? fun p => p.inst == i && p.addr == addr && p.pid == pid with
  | some p =>
    let (ok, s) := narrowWrite 14 (1024 + p.slot) s
    if ok then s else dropGrants (fun q _ => q.slot == p.slot) s
  | none => s

end Sys2Proof.Machine
end

