-- ==== Sys2Proof/Machine/IngTbl.lean ====
section
/-!
DEFINITION. Sys2Proof/Machine/IngTbl.lean: writes, reads and removals in the shared ingress tables, stream admission, and
the stream gates' commits (spec/09 R264 to R277, R516). Entry layouts: notes/assumptions/20.md.
-/
namespace Sys2Proof.Machine

/-- The Last copy of the pipeline of port `p` (R34): P64 and P65 enter PIPE0. -/
def pipeNow (s : State) (p : Nat) : Int := copyNow s (if p < 64 then islPIPE (p / 16) else islPIPE 0)

/-- The Last copy of PIPE0, which holds the tables. -/
def tblNow (s : State) : Int := copyNow s (islPIPE 0)

/-- The second of a Last copy. -/
def secOf (t : Int) : Nat := (t / secUnits).toNat

/-- The second of PIPE0's Last copy. -/
def nowSec (s : State) : Nat := secOf (tblNow s)

/-! ### Streams (R271, R273) -/

/-- The 16 words of a context. -/
def ctxWords (s : State) (c : Nat) : List Nat := (List.range 16).map (ctxWord s c)

def setCtxWords (c : Nat) (ws : List Nat) (s : State) : State :=
  (List.range 16).foldl (fun s w => setCtxWord c w (ws.getD w 0) s) (fullWriteAll 9 (16 * c) 16 s)

/-- Status codes of ING_TBL_CTL. -/
def stDone : Nat := 0
def stTableFull : Nat := 1
def stIndexFull : Nat := 2
def stExists : Nat := 3
def stBadIndex : Nat := 4

/-- The words as an add writes them (R273, R375): SDU_BLOCKED and MAFR 0, T_UPD now, counters 0. -/
def addWords (s : State) (ws : List Nat) : List Nat :=
  let w6 := putBit (putBit (ws.getD 6 0) 29 false) 22 false
  let w11 := toU 48 (tblNow s / unitNs) * 65536
  ((ws.take 13).set 6 w6).set 11 w11 ++ [0, 0, 0]

/-- Add a context (R273): the whole context, then its key into the index (none for METHOD RULE). -/
def ctxAdd (c : Nat) (ws : List Nat) (s : State) : Nat × State :=
  let s' := setCtxWords c (addWords s ws) (idxRemove c { s with ing := { s.ing with dels := s.ing.dels.filter (·.1 != c) } })
  if bitsOf (ws.getD 0 0) 60 3 = 4 then (stDone, s')
  else
    let key := ctxKey s' c
    if (idxFind s' key).isSome then (stExists, s)
    else
      match idxFree s' key with
      | none => (stIndexFull, s)
      | some i => (stDone, setIdx i (some c) s')

/-- Delete a context (R273): its key leaves the index now, VALID is cleared 1 µs later. -/
def ctxDelete (c : Nat) (s : State) : State :=
  let s := idxRemove c s
  { s with ing := { s.ing with dels := s.ing.dels.filter (·.1 != c) ++ [(c, tblNow s + unitUs)] } }

/-- Replace words 6 to 12 (R273): the meter is brought up to date first, its state kept, levels clamped to the new bursts. -/
def ctxModify (c : Nat) (ws : List Nat) (s : State) : State :=
  let (_, s) := meterRefill c (tblNow s / unitNs) s
  let w (k : Nat) : Nat := ws.getD k 0
  let l1 := ctxF s c 9 32 32
  let l2 := ctxF s c 10 32 32
  let s := fullWrite 9 (16 * c + 12) (fullWriteAll 9 (16 * c + 6) 3 s)
  let s := setCtxWord c 6 (putBit (putBit (w 0) 29 false) 22 false) s
  let s := setCtxWord c 7 (w 1) (setCtxWord c 8 (w 2) (setCtxWord c 12 (w 6) s))
  setCtxF c 9 32 32 (min l1 (ctxF s c 8 40 24 * 256)) (setCtxF c 10 32 32 (min l2 (ctxF s c 8 16 24 * 256)) s)

/-- 64-bit words as 32-bit words, low half first. -/
def split64 (l : List Nat) : List Nat := l.flatMap fun w => [w % 2 ^ 32, w / 2 ^ 32 % 2 ^ 32]

/-- 32-bit words as 64-bit words. -/
def join32 : List Nat → List Nat
  | a :: b :: l => (a % 2 ^ 32 + b % 2 ^ 32 * 2 ^ 32) :: join32 l
  | _ => []

/-- Learning templates (table 8) hold context words. -/
def tmplWord (s : State) (t w : Nat) : Nat := (join32 (tblEntry s 8 t)).getD w 0

/-! ### Table access (R265, R516) -/

/-- Entries of each table. -/
def tblSize (t : Nat) : Nat :=
  [16384, 2048, 131072, 32768, 4096, 4096, 256, 16384, 8, 256].getD t 0

/-- A free slot of the group table: one, or two adjacent ones for IPv6. -/
def grpFree (s : State) (v6 : Bool) : Option Nat :=
  let used := (tblList s 3).map (·.1)
  let free (i : Nat) : Bool := decide (i < 32768) && !used.contains i
  (List.range (2 * used.length + 2)).find? fun i => free i && (!v6 || free (i + 1))

/-- Write a forwarding database entry: by its key; VALID 0 removes the key. -/
def fdbWrite (ws : List Nat) (s : State) : Nat × State :=
  let key := fdbEntryKey ws
  let e := fdbMake key (bitOf (tw ws 2) 30) (bitOf (tw ws 2) 29) (bitsOf (tw ws 2) 0 12) (nowSec s)
  match fdbFind s key with
  | some (i, _) => (stDone, fullWrite 3 i (setTbl 2 i (if bitOf (tw ws 2) 31 then e else []) s))
  | none =>
    if bitOf (tw ws 2) 31 then
      match fdbFree s key with
      | some i => (stDone, fullWrite 3 i (setTbl 2 i e s))
      | none => (stTableFull, s)
    else (stDone, s)

/-- Write a multicast group entry: by its key; VALID 0 removes the key; an IPv6 entry takes two adjacent slots. -/
def grpWrite (ws : List Nat) (s : State) : Nat × State :=
  let w0 := tw ws 0
  let v6 := bitOf w0 30
  let old := (tblList s 3).find? fun p =>
    bitOf (tw p.2 0) 31 && bitOf (tw p.2 0) 30 == v6 && bitsOf (tw p.2 0) 0 12 == bitsOf w0 0 12 && addrOf p.2 1 == addrOf ws 1
      && addrOf p.2 5 == addrOf ws 5
  let e := (ws.take 12).set 0 (putBit w0 29 false)
  match old with
  | some (i, _) =>
    if bitOf w0 31 then (stDone, fullWrite 4 i (setTbl 3 i e s))
    else (stDone, fullWrite 4 i (setTbl 3 i [] (if v6 then setTbl 3 (i + 1) [] s else s)))
  | none =>
    if bitOf w0 31 then
      match grpFree s v6 with
      | some i => (stDone, fullWrite 4 i (setTbl 3 i e (if v6 then setTbl 3 (i + 1) [2 ^ 29] s else s)))
      | none => (stTableFull, s)
    else (stDone, s)

/-- Write of a gate's admin copy: a state bit written 0 is cleared in the gate in force (R277). -/
def gateWrite (g : Nat) (ws : List Nat) (s : State) : State :=
  let w6 := tw ws 6
  let e := tblEntry s 9 g
  let f6 := tw e 6
  let f6 := if bitOf w6 29 then f6 else putBit f6 29 false
  let f6 := if bitOf w6 28 then f6 else putBit f6 28 false
  let s := if e.isEmpty then s else setTbl 9 g (e.set 6 f6) s
  setTbl 6 g (ws.take 7) s

/-- Write entry `i` of table `t`: the status of ING_TBL_CTL and the state. -/
def tblWrite (t i : Nat) (ws : List Nat) (s : State) : Nat × State :=
  let ws := (List.range 32).map fun k => tw ws k % 2 ^ 32
  if t ≠ 2 ∧ t ≠ 3 ∧ tblSize t ≤ i then (stBadIndex, s)
  else
    match t with
    | 0 =>
      let cs := join32 ws
      if bitOf (cs.getD 0 0) 63 then ctxAdd i cs s else (stDone, setCtxWords i cs (idxRemove i s))
    | 1 => (stDone, fullWrite 7 i (setTbl 1 i (ws.take 23) s))
    | 2 => fdbWrite ws s
    | 3 => grpWrite ws s
    | 4 => (stDone, fullWrite 5 i (setTbl 4 i (ws.take 7) s))
    | 5 => (stDone, fullWrite 6 i (setTbl 5 i (ws.take 3) s))
    | 6 => (stDone, fullWrite 10 (64 * i) (gateWrite i ws s))
    | 7 => (stDone, fullWrite 10 i (setTbl 7 i (ws.take 3) s))
    | 8 => (stDone, setTbl 8 i ws s)
    | _ => (stBadIndex, s)

/-- The memory, the first word and the number of words that hold entry `i` of table `t` (R438); the templates are registers. -/
def tblMem (t i : Nat) : Option (Nat × Nat × Nat) :=
  match t with
  | 0 => some (9, 16 * i, 16)
  | 1 => some (7, i, 1)
  | 2 => some (3, i, 1)
  | 3 => some (4, i, 1)
  | 4 => some (5, i, 1)
  | 5 => some (6, i, 1)
  | 7 => some (10, i, 1)
  | 8 => none
  | _ => some (10, 64 * i, 1)

/-- What a read of an entry counts (R440, R441). -/
def tblEcc (t i : Nat) (s : State) : State :=
  match tblMem t i with
  | some (m, w, n) => (eccReadAll m w n s).2
  | none => s

/-- Read entry `i` of table `t`: 32 words; one that cannot be read delivers no data, zeros (R441). -/
def tblRead (s : State) (t i : Nat) : Nat × List Nat :=
  if tblSize t ≤ i then (stBadIndex, List.replicate 32 0)
  else if (tblMem t i).any fun e => (eccRange s e.1 e.2.1 e.2.2).any (eccDead s e.1) then (stDone, List.replicate 32 0)
  else
    let e := if t = 0 then split64 (ctxWords s i) else tblEntry s t i
    (stDone, (List.range 32).map (tw e))

/-! ### Learning requests (R266, R273) -/

def queueReq (r : LearnReq) (s : State) : State :=
  if s.ing.queue.length ≥ 64 then raise R.ING_EVENT_LEARN_QUEUE_FULL s
  else { s with ing := { s.ing with queue := s.ing.queue ++ [r] } }

/-- A request for a MAC and FID: merged with one of the same key, the latest giving the port. -/
def learnMac (key port : Nat) (s : State) : State :=
  let same : LearnReq → Bool := fun r => match r with | .mac k _ => k == key | _ => false
  if s.ing.queue.any same then
    { s with ing := { s.ing with queue := s.ing.queue.map fun r => if same r then .mac key port else r } }
  else queueReq (.mac key port) s

def pendingKeys (s : State) : List (List Nat) := s.ing.queue.filterMap fun r => match r with | .stream k _ => some k | _ => none

/-- The source stage (R266, R267) of a unicast source address: the second of a hit on an entry that is not STATIC, a learning request
for an address without an entry or with one on another port, or a denied move. -/
def sourceHit (p : Parsed) (vid inP : Nat) (s : State) : State :=
  if bitOf (p.sa / 2 ^ 40) 0 then s
  else
    let learns := vlanLearn s vid && flag s R.ING_PORT_CFG_LEARN inP && flag s R.ING_GCFG_LEARN_ENA
    let key := fdbKey p.sa (vlanFid s vid)
    match fdbFind s key with
    | none => whenS learns (learnMac key inP) s
    | some (i, e) =>
      let here := !fdbIsMask e && fdbDest e == inP
      if fdbStatic e then (if here then s else bump R.ING_CNT_MOVE_DENIED_COUNT s inP)
      else whenS (learns && !here) (learnMac key inP) (setTbl 2 i (e.set 3 (secOf (pipeNow s inP) % 2 ^ 32)) s)

/-- Learned entries of a port. -/
def learnedOn (s : State) (p : Nat) : Nat :=
  ((tblList s 2).filter fun e => bitOf (tw e.2 2) 31 && !fdbStatic e.2 && !fdbIsMask e.2 && fdbDest e.2 == p).length

/-- The learning engine inserts or moves an entry (R266). -/
def learnInsert (key port : Nat) (s : State) : State :=
  match fdbFind s key with
  | some (i, e) => if fdbStatic e then s else fullWrite 3 i (setTbl 2 i (fdbMake key false false port (nowSec s)) s)
  | none =>
    let lim := getF s R.ING_PORT_LEARN_LIMIT port
    let full := decide (lim ≠ 0) && decide (learnedOn s port ≥ lim)
    let s := whenS full (fun s => raise R.ING_EVENT_FDB_LIMIT s 0 port) s
    match fdbFree s key with
    | none => raise R.ING_EVENT_FDB_LEARN_FULL s
    | some i => if full then s else fullWrite 3 i (setTbl 2 i (fdbMake key false false port (nowSec s)) s)

/-- The learning engine creates a context from a template (R273). -/
def streamLearn (key : List Nat) (t : Nat) (s : State) : State :=
  let lo := getF s R.ING_LEARN_CFG_POOL_LO
  let hi := min (getF s R.ING_LEARN_CFG_POOL_HI) 16383
  if (idxFind s key).isSome then s
  else
    match ((List.range (hi + 1 - lo)).map (lo + ·)).find? fun c => !ctxValid s c, idxFree s key with
    | some c, some i =>
      let w (k : Nat) : Nat := tmplWord s t k
      let w6 := putBit (putBit (putBit (w 6) 63 true) 29 false) 22 false
      let b1 := bitsOf (w 8) 40 24 * 256
      let b2 := bitsOf (w 8) 16 24 * 256
      let ws := (2 ^ 63 + key.getD 0 0) :: (key.drop 1).take 5 ++ [w6, w 7, w 8, b1 * 2 ^ 32, b2 * 2 ^ 32,
        toU 48 (tblNow s / unitNs) * 65536, w 12, 0, 0, nowSec s % 65536]
      raise R.ING_EVENT_STREAM_LEARNED (setIdx i (some c) (setCtxWords c ws s)) 0 c
    | _, _ => raise R.ING_EVENT_STREAM_POOL_FULL s

/-! ### Gate commits (R277) -/

/-- Commit gate `g`: at the first cycle start of the admin schedule at or after the commit plus 2 µs. -/
def gateCommit (g : Nat) (s : State) : State :=
  let e := tblEntry s 6 g
  let p := gateCycle e
  if p.ok then
    let base := gateBase e
    let at32 := (p.instant base (p.firstIndex base (tblNow s + 2 * unitUs))).up
    let lst := (List.range (min 64 (gateLen e))).map fun i => tblEntry s 7 (64 * g + i)
    setGateRt g { gateRt s g with pend := some (at32, e, lst) } s
  else raise R.FLT_GEN_EVENT_PERIOD_INVALID s 0 0xB0044

/-- The admin copy of gate `g` takes effect; the state bits in force stay. -/
def gateChange (g : Nat) (s : State) : State :=
  let rt := gateRt s g
  match rt.pend with
  | some (t, e, lst) =>
    if tblNow s < t then s
    else
      let was := tblEntry s 9 g
      let wasList := (List.range 64).map fun i => tblEntry s 10 (64 * g + i)
      let w6 := putBit (putBit (tw e 6) 29 (bitOf (tw was 6) 29)) 28 (bitOf (tw was 6) 28)
      let s := setTbl 9 g ((List.range 7).map fun k => if k = 6 then w6 else tw e k) s
      let s := (List.range 64).foldl (fun s i => setTbl 10 (64 * g + i) (lst.getD i []) s) s
      setGateRt g { rt with pend := none, shift := 0, since := t, prev := some (was, wasList, rt.shift) } s
  | none => s

/-! ### Entries that name ports (R6) -/

/-- The ports that entry `e` of table `t` names: a rule's REDIRECT, a destination, the members of its sets. -/
def entryPorts (t : Nat) (e : List Nat) : List Nat :=
  match t with
  | 1 => (actRedirect (tw e 20)).toList
  | 2 => if bitOf (tw e 2) 31 && !fdbIsMask e then [fdbDest e] else []
  | 3 => portsOf (setOf e 9)
  | 4 => portsOf (setOf e 0) ++ portsOf (setOf e 4)
  | 5 => portsOf (setOf e 0)
  | _ => []

/-- Every port that `n` entries of `size` words name is present. -/
def entriesPresent (s : State) (t size : Nat) (ws : List Nat) (n : Nat) : Bool :=
  (List.range n).all fun k => (entryPorts t ((ws.drop (size * k)).take size)).all (portPresent s)

end Sys2Proof.Machine
end

