-- ==== Sys2Proof/Machine/RedOps.lean ====
section
/-!
DEFINITION. Sys2Proof/Machine/RedOps.lean: sequence generation and recovery (spec/12).
-/
namespace Sys2Proof.Machine

def fn (s : State) (n : Nat) : Fn := smGet Fn.reset s.red.fns n
def setFn (n : Nat) (x : Fn) (s : State) : State := { s with red := { s.red with fns := smPut Fn.reset s.red.fns n x } }

/-- An event of function `n`, in its RED_FN_EVENT and in RED_EVENT. -/
def redEvent (f g : Fld) (n : Nat) (s : State) : State := setF g 1 (raise f s n)

/-- HISTORY as it acts. -/
def history (s : State) (n : Nat) : Nat := let h := getF s R.RED_FN_CFG_HISTORY n; if h = 0 ∨ h > 32 then 32 else h

/-- One number leaves the expectation: hist shifts left by one with `b`, held shifts right, n goes up (R341). -/
def Fn.shift (h : Nat) (b : Bool) (x : Fn) : Bool × Fn :=
  let lost := decide (x.expected ≥ h) && !bitOf x.hist (h - 1)
  (lost, { x with hist := (x.hist * 2 + b2n b) % 2 ^ 32, n := (x.n + 1) % 65536, expected := satN 32 (x.expected + 1),
                  held := x.held.filterMap fun e => if e.1 = 0 then none else some (e.1 - 1, e.2) })

def fnShift (n : Nat) (b : Bool) (s : State) : State :=
  let (lost, x) := (fn s n).shift (history s n) b
  let s := setFn n x s
  if lost then bump R.RED_FN_CNT_LOST_COUNT s n else s

/-- Word 12 of a frame's context as the frame read it (R273). -/
def ctx12 (x : Frame) : Nat := match x.ing with | some g => g.ctxVer.getD 12 0 | none => 0
def cSeqGen (w : Nat) : Bool := bitOf w 63
def cSeqRec (w : Nat) : Bool := bitOf w 62
def cRtagPop (w : Nat) : Bool := bitOf w 60
def cRecFn (w : Nat) : Nat := bitsOf w 48 12
def cGenFn (w : Nat) : Nat := bitsOf w 36 12

/-- Function `n`'s state is written whole (R449, memory 13). -/
def fnWritten (n : Nat) (s : State) : State := fullWrite 13 (n % 4096) s

/-- RED lets a frame go: numbered by its context's generation function (R337, R338), even where no copy of it is left. -/
def redPass (f : Nat) (number : Bool) (s : State) : State :=
  match frameAt s f with
  | none => s
  | some x =>
    let s := touchFrame f s
    let w := ctx12 x
    if number && cSeqGen w then
      let g := cGenFn w
      -- a generation word that cannot be read is written again from its duplicate copy (R438)
      let s := setEcc 13 g 0 (narrowWrite 13 g s).2
      let v := getF s R.RED_GEN_SEQ_NEXT g
      reapFrame f (setFrame f (some { x with frer := .passed, genNo := some v }) (setF R.RED_GEN_SEQ_NEXT (v + 1) s g))
    else reapFrame f (setFrame f (some { x with frer := .passed }) s)

/-- Function `n` releases frame `f`. -/
def fnRelease (n f : Nat) (s : State) : State :=
  let x := fn s n
  redPass f true (bump R.RED_FN_CNT_PASSED_COUNT (setFn n { x with lastAct := copyNow s islRED, passed := x.passed + 1 } s) n)

/-- pass() of R341 for frame `f`. -/
def fnPass (n f : Nat) (s : State) : State := fnShift n true (fnRelease n f s)

/-- run() of R341. -/
def fnRun (n : Nat) : Nat → State → State
  | 0, s => s
  | k + 1, s =>
    match (fn s n).held.find? (·.1 == 0) with
    | some (_, f, _) => fnRun n k (fnPass n f s)
    | none => s

/-- RED discards a frame under an FRER reason: every copy. -/
def redDiscard (reason f : Nat) (s : State) : State :=
  match frameAt s f with
  | some x => reapFrame f (dropAll reason f (setFrame f (some { x with frer := .passed }) (touchFrame f s)))
  | none => s

def redRogue (n f : Nat) (s : State) : State :=
  redDiscard 0x1C f (redEvent R.RED_FN_EVENT_ROGUE R.RED_EVENT_ROGUE n (bump R.RED_FN_CNT_ROGUE_COUNT s n))

def redDuplicate (n f : Nat) (s : State) : State :=
  let x := fn s n
  redDiscard 0x1B f (bump R.RED_FN_CNT_DUPLICATE_COUNT (setFn n { x with disc := x.disc + 1 } s) n)

/-- `d` numbers shifted out of the history without a pass. -/
def fnSkip (n : Nat) : Nat → State → State
  | 0, s => s
  | k + 1, s => fnSkip n k (fnShift n false s)

/-- The arithmetic of R341 for frame `f` with number `q`. -/
def fnFrame (n f q : Nat) (s : State) : State :=
  let mode := getF s R.RED_FN_CFG_MODE n
  let x := fn s n
  let s := if x.takeAny then setFn n { x with n := q, hist := 0, held := [], takeAny := false, expected := 0 } s else s
  let x := fn s n
  let h := history s n
  let d : Int := ((q : Int) - x.n + 32768) % 65536 - 32768
  if mode = 1 then
    if d = -1 then redDuplicate n f s else fnPass n f (setFn n { x with n := q } s)
  else if d < 0 then
    let j := (-d - 1).toNat
    if j ≥ h then redRogue n f s
    else if bitOf x.hist j then redDuplicate n f s
    else
      let s := bump R.RED_FN_CNT_LATE_COUNT (setFn n { x with hist := putBit x.hist j true } s) n
      if mode ≠ 2 ∨ flag s R.RED_FN_CFG_LATE_ACT n then fnRelease n f s else redDiscard 0x1D f s
  else if mode ≠ 2 then
    if d ≥ h then redRogue n f s else fnPass n f (setFn n { fn (fnSkip n d.toNat s) n with n := q } (fnSkip n d.toNat s))
  else if d = 0 then fnRun n 32 (fnPass n f s)
  else if d ≤ 31 then
    if x.held.any (·.1 == d.toNat) then redDuplicate n f s
    else
      match frameAt s f with
      | some y =>
        bump R.RED_FN_CNT_HELD_COUNT
          (setFrame f (some { y with frer := .held })
            (setFn n { x with held := x.held ++ [(d.toNat, f, copyNow s islRED)], lastAct := copyNow s islRED } s)) n
      | none => s
  else redRogue n f s

/-- Held frames in sequence order. -/
def heldOrder (x : Fn) : List Nat := (List.range 32).filterMap fun d => (x.held.find? (·.1 == d)).map (·.2.1)

/-- The held frames of a function are released in sequence order and take_any becomes 1 (R344). -/
def fnReset (n : Nat) (s : State) : State :=
  let s := (heldOrder (fn s n)).foldl (fun s f => fnRelease n f s) s
  fnWritten n (setFn n { fn s n with held := [], takeAny := true } s)

/-- A RESET write acts as the idle timer does (R344). -/
def fnResetWrite (n : Nat) (s : State) : State := redEvent R.RED_FN_EVENT_TAKE_ANY R.RED_EVENT_TAKE_ANY n (fnReset n s)

/-- The state of function `n` is read to be written again (R443); one that cannot be read is reset (R438). -/
def fnRead (n : Nat) (s : State) : State :=
  let (ok, s) := narrowWrite 13 n s
  if ok then s else fnResetWrite n s

/-- TO of R342 in 2^-32 ns. -/
def reseqTo (s : State) (n : Nat) : Int :=
  let t := zeroAs 1 (getF s R.RED_FN_TIMERS_TIMEOUT_100US n)
  (satN 1000 t : Int) * 100 * unitUs

/-- The earliest arrival among the held frames. -/
def aMin (x : Fn) : Option Int :=
  x.held.foldl (fun a e => match a with | none => some e.2.2 | some t => some (if e.2.2 < t then e.2.2 else t)) none

/-- Skip up to the lowest held number, then run (R342). -/
def fnTimeout (n : Nat) : Nat → State → State
  | 0, s => s
  | k + 1, s =>
    match aMin (fn s n) with
    | none => s
    | some a =>
      if copyNow s islRED < a + reseqTo s n then s
      else
        let low := (fn s n).held.foldl (fun m e => min m e.1) 32
        let s := fnRun n 32 (fnSkip n low s)
        fnTimeout n k (redEvent R.RED_FN_EVENT_RESEQ_TIMEOUT R.RED_EVENT_RESEQ_TIMEOUT n (bump R.RED_FN_CNT_TIMEOUT_COUNT s n))

/-! ### Paths (R346) -/

def pathEna (s : State) (n i : Nat) : Bool := flag s (R.RED_FN_PATH_ENA.up (8 * i)) n
def pathPort (s : State) (n i : Nat) : Nat := getF s (R.RED_FN_PATH_PORT.up (8 * i)) n

/-- Path `i` of function `n` is up; P64 and P65 have no link state (notes/assumptions/168.md). -/
def pathIsUp (s : State) (n i : Nat) : Bool :=
  let toMs := getF s R.RED_FN_PATH_TO_PATH_TO_MS n
  let p := pathPort s n i
  pathEna s n i && (decide (64 ≤ p) || getF s R.LNK_PORT_STAT_STATE p == 5)
    && (toMs == 0 || (match ((fn s n).arrivals.getD i none) with | some t => decide (copyNow s islRED < t + toMs * unitMs) | none => false))

/-- Bring one path's state up to date: PATH_UP or PATH_DOWN at a change. -/
def pathCheck (n i : Nat) (s : State) : State :=
  let x := fn s n
  let was := x.up.getD i false
  let is := pathIsUp s n i
  if was = is then s
  else
    let s := setFn n { x with up := x.up.set i is } s
    if is then redEvent R.RED_FN_EVENT_PATH_UP R.RED_EVENT_PATH_UP n s
    else redEvent R.RED_FN_EVENT_PATH_DOWN R.RED_EVENT_PATH_DOWN n s

def pathsCheck (n : Nat) (s : State) : State := (List.range 4).foldl (fun s i => pathCheck n i s) s

/-- Functions that name a path. -/
def pathFns (s : State) : List Nat :=
  let base := R.RED_FN_PATH_ENA.off
  (s.regs.filterMap fun p =>
    let w := p.1 / 32
    if w % 0x100000 = base then some (w / 0x100000) else none).eraseDups

/-- Every function's paths. -/
def allPaths (s : State) : State := (pathFns s).foldl (fun s n => pathsCheck n s) s

/-! ### RED out of service (R349) -/

def redUp (s : State) : Bool := islUp s islRED

/-- RED goes down: held frames are discarded under `reason`, FLUSH raises, every function will start with take_any. -/
def redDown (reason : Nat) (s : State) : State :=
  let held := s.red.fns.flatMap fun p => p.2.held.map (·.2.1)
  let s := held.foldl (fun s f => redDiscard reason f s) s
  let clear (p : Nat × Fn) : Nat × Fn := (p.1, { p.2 with held := [], takeAny := true })
  { s with red := { s.red with fns := (s.red.fns.map clear).filter fun p => p.2 ≠ Fn.reset } }

end Sys2Proof.Machine
end

