-- ==== Sys2Proof/Machine/EgrOps.lean ====
section
/-!
DEFINITION. Sys2Proof/Machine/EgrOps.lean: gate lists, spans and holds, tags and classes, shapers, and the egress editor
(spec/11).
-/
namespace Sys2Proof.Machine

/-! ### MAC merge and holds (R330, R332) -/

/-- The mode supports preemption (R229). -/
def modeMm (m : Nat) : Bool := m ≠ 0 && m ≠ 2 && m < 11

/-- Preemption is active (R330). -/
def mmActive (s : State) (o : Nat) : Bool :=
  o < 64 && flag s R.EGR_MM_CFG_ENA o && modeMm (portMode s o)
    && (flag s R.EGR_MM_CFG_VERIFY_DIS o || getF s R.EGR_MM_STAT_VERIFY_STATUS o == 2)

/-- HOLD_ADV_NS in 2^-32 ns. -/
def holdAdv (s : State) (o : Nat) : Int := getF s R.EGR_GATE_CFG_HOLD_ADV_NS o * unitNs

/-- Where the holds of list `g` change near `t`, from one cycle before it to one after (R332): the instant and whether the hold begins; only
entries that begin in the list's time, before `cut_`. A hold begins `adv` before its entry. -/
def GateList.holds (g : GateList) (adv : Int) (cut_ : Option Int) (t : Int) : List (Int × Bool) :=
  let k0 := g.cycleOf t - 1
  let k1 := g.cycleOf (t + adv) + 1
  ((List.range (k1 - k0 + 1).toNat).flatMap fun (j : Nat) =>
    slices g (g.period.instant g.base (k0 + j)).up (g.period.instant g.base (k0 + j + 1)).up).filterMap fun z =>
      if decide (z.st < g.since) || (match cut_ with | some c => decide (c ≤ z.st) | none => false) then none
      else match z.op with
        | 1 => some (z.st - adv, true)
        | 2 => some (z.st, false)
        | _ => none

/-- The changes of the hold of output `o` near instant `t` of its replica: of the oper list, up to the change time, or the cycle that is not
begun before it, and of the list that follows. -/
def holdEvents (s : State) (o : Nat) (t : Int) : List (Int × Bool) :=
  let x := egrPort s o
  let adv := holdAdv s o
  let cut_ := x.pend.map fun p => p.suppress.getD p.tc
  (match x.oper with | some g => g.holds adv cut_ t | none => [])
    ++ (match x.pend.bind (pendList s o) with | some g => g.holds adv none t | none => [])

/-- The hold at `t` after changes `l`: the latest one that has come, one that begins a hold where two fall together; else `was`. -/
def holdAfter (l : List (Int × Bool)) (t : Int) (was : Bool) : Bool :=
  match (l.filter fun e => decide (e.1 ≤ t)).foldl (fun (a : Option (Int × Bool)) e =>
    match a with
    | none => some e
    | some b => if e.1 > b.1 ∨ (e.1 = b.1 ∧ e.2) then some e else some b) none with
  | some e => e.2
  | none => was

/-- A hold is in force at `t` (R332). -/
def holdAt (s : State) (o : Nat) (t : Int) : Bool :=
  mmActive s o && gateEna s o && holdAfter (holdEvents s o (t + laneErr s o)) (t + laneErr s o) (egrPort s o).hold

/-- The next instant after `t` at which a hold takes effect. -/
def nextHold (s : State) (o : Nat) (t : Int) : Option Int :=
  if !(mmActive s o && gateEna s o) then none
  else
    let e := laneErr s o
    (((holdEvents s o (t + e)).filter fun z => z.2 && decide (z.1 > t + e)).foldl (fun (a : Option Int) z =>
      match a with
      | none => some z.1
      | some b => if z.1 < b then some z.1 else some b) none).map (· - e)

/-- MAC merge verification starts again (R330). -/
def mmRestart (o : Nat) (s : State) : State :=
  setF R.EGR_MM_STAT_VERIFY_STATUS
    (if !(flag s R.EGR_MM_CFG_ENA o && modeMm (portMode s o)) then 0 else if flag s R.EGR_MM_CFG_VERIFY_DIS o then 4 else 1) s o

/-! ### Spans (R326) -/

/-- The end of the open span of class `c` from `t`, gate only: none where it never ends. -/
def gateClose (s : State) (o c : Nat) : Nat → Int → Option Int
  | 0, _ => none
  | k + 1, t =>
    match entryAt s o t with
    | none => if gateOpen s o c t then none else some t
    | some z => if bitOf z.gates c then gateClose s o c k z.en else some t

/-- Steps enough for two cycles of the list. -/
def walkFuel (s : State) (o : Nat) : Nat :=
  2 * (match (egrPort s o).oper with | some g => g.entries.length | none => 0) + 2 * getF s R.EGR_GATE_LEN_ADMIN_LEN o + 4

/-- The close of the span of class `c` from `t` (R326): gate, change time, and, for a preemptible class, the hold. -/
def closeOf (s : State) (o c : Nat) (pre : Bool) (t : Int) : Option Int :=
  if !gateEna s o then none
  else
    let g := gateClose s o c (walkFuel s o) t
    let mn (a b : Option Int) : Option Int := match a, b with
      | some x, some y => some (if x < y then x else y)
      | some x, none => some x
      | none, b => b
    let tc := match (egrPort s o).pend with | some p => if t < p.tc then some p.tc else none | none => none
    mn (mn g tc) (if pre then nextHold s o t else none)

/-- The longest span of class `c` in the oper list (R329): none where one never ends. -/
def longestSpan (s : State) (o c : Nat) : Option Int :=
  match (egrPort s o).oper with
  | none => none
  | some g =>
    let k := g.cycleOf (now s)
    let c0 := (g.period.instant g.base k).up
    let c1 := (g.period.instant g.base (k + 1)).up
    let open_ := (slices g c0 c1).filter fun z => bitOf z.gates c
    open_.foldl (fun (a : Option Int) z =>
      match a, gateClose s o c (walkFuel s o) z.st with
      | some m, some e => some (if e - z.st > m then e - z.st else m)
      | _, _ => none) (some 0)

/-! ### Lengths, edits and rates (R327, R333, R334) -/

/-- The data rate of output `o` in Gbit/s: P64 is served at 50 (R379). -/
def outRate (s : State) (o : Nat) : Nat := if o < 64 then zeroAs 1 (modeRate (portMode s o)) else 50

/-- The time of `n` octets at the rate of output `o`, in 2^-32 ns. -/
def octetTime (s : State) (o n : Nat) : Int := ((n * 8 * 4294967296 : Nat) : Int) / (outRate s o : Int)

/-- A frame's length from the destination address to the FCS, where it is known. -/
def frameLen (x : Frame) : Option Nat := if x.ended then some x.octets.length else x.ing.bind (·.known)

/-- The output is in the untagged set of a VID (R334). -/
def isUntagged (s : State) (vid o : Nat) : Bool := bitOf (smGet 0 s.egr.untagged vid) o

/-- Octets the editor adds and removes on output `o` (R333, R334). -/
def editDelta (s : State) (x : Frame) (o : Nat) : Int :=
  if o ≥ 64 then 0
  else
    match x.ing with
    | none => 0
    | some g =>
      let p := parse (x.octets.take 128)
      let w := ctx12 x
      let pop : Int := if cRtagPop w && p.rtag.isSome then -6 else 0
      let push : Int := if x.genNo.isSome then 6 else 0
      let tag : Int := if isUntagged s g.vid o then (if g.tag.isSome then -4 else 0) else if g.tag.isSome then 0 else 4
      pop + push + tag

/-- The transmitted length of a frame on output `o`, where it is known. -/
def outLen (s : State) (x : Frame) (o : Nat) : Option Nat := (frameLen x).map fun n => ((n : Int) + editDelta s x o).toNat

/-- Always express (R331, R95): an insertion command, or PTP in PTP_TC. -/
def alwaysExpress (x : Frame) : Bool := x.ins.isSome || (match x.ing with | some g => g.ptpTc | none => false)

/-- The copy of a frame for an output is preemptible. -/
def isPre (s : State) (o c : Nat) (x : Frame) : Bool :=
  mmActive s o && flag s (clsF R.EGR_CLS_CFG_PREEMPTIBLE c) o && !alwaysExpress x

/-! ### Queues, tags and virtual time (R310 to R315) -/

/-- The weight of an input on an output; 0 acts as 1, reset 1 (R313). -/
def weight (s : State) (o i : Nat) : Nat :=
  if eccDead s 12 (4096 + o * 66 + i) then 1 else zeroAs 1 (smGet 1 s.egr.weights (o * 66 + i))

/-- cost(l, w) of R313. -/
def tagCost (l w : Nat) : Nat := (l * 256 + w - 1) / w

/-- Octets of a copy for its tag (R313, R315), and whether they are an estimate. -/
def tagOctets (s : State) (x : Frame) : Nat × Bool :=
  match frameLen x with | some n => (n, false) | none => (256 * estCells s, true)

def ovh (s : State) (o : Nat) : Nat := getF s R.EGR_PORT_CFG_OVH o

/-- Signed comparison of tags modulo 2^32 (R313). -/
def tagLt (a b : Nat) : Bool := decide (sx 32 (a + 2 ^ 32 - b) < 0)

/-- Record the estimate a copy's tag was formed with (R315). -/
def markCost (f o n : Nat) (s : State) : State :=
  match frameAt s f with
  | some x => setFrame f (some { x with copies := x.copies.map fun y => if y.out = o then { y with cost := n } else y }) s
  | none => s

/-- Tags of queue heads that have none: a queue that becomes backlogged wakes at V, or at its own corrected last tag where that
is larger (R314, R315). -/
def formTags (o c : Nat) (s : State) : State :=
  (heads s o c).foldl (fun s h =>
    let i := h.2.1.port
    match tagOf s o c i with
    | some _ => s
    | none =>
      let v := (egrCls s o c).v
      let st := match lastTagOf s o c i with | some l => if tagLt v l then l else v | none => v
      let (n, est) := tagOctets s h.2.1
      let s := if est then markCost h.1 o n s else s
      let (_, s) := eccRead 12 (4096 + o * 66 + i) s
      setTag o (528 + tagKey c i) none (setTag o (tagKey c i) (some ((st + tagCost (n + ovh s o) (weight s o i)) % 2 ^ 32)) s)) s

/-- The queue R313 chooses in a class: smallest tag, lowest input on a tie. -/
def chooseQueue (s : State) (o c : Nat) : Option (Nat × Frame × Copy) :=
  let hs := heads s o c
  ((List.range 66).filterMap fun i => hs.find? (·.2.1.port == i)).foldl (fun (a : Option (Nat × Frame × Copy)) z =>
    match a with
    | none => some z
    | some b =>
      let fa := (tagOf s o c b.2.1.port).getD 0
      let fz := (tagOf s o c z.2.1.port).getD 0
      if tagLt fz fa then some z else some b) none

/-! ### Start instants, fit and eligibility (R309, R310, R327 to R329) -/

/-- A frame of class `c` may start on P64 (R379): its ring runs and has a slot that no frame on its way takes. -/
def rxFree (s : State) (c : Nat) : Bool :=
  let r := rxRing s c
  let way := (s.hif.rxq.filter fun w => rxRing s w.tc == r).length
    + (match (egrPort s 64).tx with | some x => if rxRing s x.tc = r then 1 else 0 | none => 0)
  isRxRing s r && getF s R.HIF_RING_STAT_STATE r == 1 && decide (way < ringFree s r)

/-- The output condition of R310. -/
def outReady (s : State) (o c : Nat) : Bool := if o < 64 then !outHeld s o else if o = 64 then rxFree s c else true

/-- The estimated end of a frame that leaves, or is about to. -/
def txEnd (s : State) (o : Nat) (x : Tx) : Int := x.tS + octetTime s o (x.left + 8)

/-- The earliest start instant (R309) of an express (`pre` false) or preemptible frame: after the frame ahead and the gap of 12
octets, and at the selection lead of 256 ns on an output whose gates run. -/
def earliest (s : State) (o : Nat) (pre : Bool) : Int :=
  let x := egrPort s o
  let mx (a b : Int) : Int := if a < b then b else a
  let e := match x.tx with | some t => mx x.freeAt (txEnd s o t) | none => x.freeAt
  let e := match x.ptx with | some t => if t.paused || (!pre && mmActive s o) then e else mx e (txEnd s o t) | none => e
  mx (e + octetTime s o 12) (if gateEna s o then now s + 256 * unitNs else now s)

/-- The start instant for the instant `ts` that the word boundaries give: within one word of the earliest one where gates run,
any later instant (the fixed delay of the mode) where they do not. -/
def startAt (s : State) (o : Nat) (pre : Bool) (ts : Int) : Int :=
  let lb := earliest s o pre
  if ts < lb then lb else if gateEna s o && decide (ts ≥ lb + wordPeriod (portMode s o)) then lb else ts

/-- `n` octets and the preamble end by the close of a span. -/
def fitsBy (s : State) (o : Nat) (ts : Int) (n : Nat) (close : Option Int) : Bool :=
  match close with
  | some e => decide ((((n + 8) * 8 * 4294967296 : Nat) : Int) ≤ (e - ts) * (outRate s o : Int))
  | none => true

/-- The shortest fragment of this transmitter (R330). -/
def minFrag (s : State) (o : Nat) : Nat := 64 * (1 + getF s R.EGR_MM_CFG_ADD_FRAG o)

/-- The first fragment of `n` octets (R328): the whole frame where it cannot be split (IEEE 802.3br, PRESUMED:
notes/assumptions/23.md). -/
def firstFrag (s : State) (o n : Nat) : Nat := if n ≥ minFrag s o + 60 then minFrag s o else n

/-- The fit condition at `ts` of a frame of `n` octets: always where the gates do not run. -/
def fits (s : State) (o c : Nat) (pre : Bool) (ts : Int) (n : Option Nat) : Bool :=
  if !gateEna s o then true
  else match n with
    | none => !listRuns s o ts && (closeOf s o c pre ts).isNone
    | some n => fitsBy s o ts (if pre then firstFrag s o n else n) (closeOf s o c pre ts)

/-- Gate and hold conditions of R310. -/
def gateOk (s : State) (o c : Nat) (pre : Bool) (ts : Int) : Bool := gateOpen s o c ts && !(pre && holdAt s o ts)

/-- A frame of `n` octets fits no span of its class (R329). -/
def neverFits (s : State) (o c n : Nat) : Bool :=
  gateEna s o && (match longestSpan s o c with
    | some l => (egrPort s o).oper.isSome && !fitsBy s o 0 n (some l)
    | none => false)

/-- The class is eligible for a cut-through release of frame `x` (R310). -/
def ctEligible (s : State) (o c : Nat) (x : Frame) : Bool :=
  let pre := isPre s o c x
  let ts := earliest s o pre
  outReady s o c && gateOk s o c pre ts && shaperOk s o c
    && (!(gateEna s o && listRuns s o ts) || (frameLen x).isSome) && fits s o c pre ts (outLen s x o)

/-! ### The editor (R333, R334, R97 to R102) -/

/-- Steps 1 to 3 on the octets without FCS. -/
def editTags (s : State) (x : Frame) (o : Nat) (y : Copy) (l : List Nat) : List Nat :=
  match x.ing with
  | none => l
  | some g =>
    let p := parse (x.octets.take 128)
    let ntags := p.tags.length
    let rOff := 12 + 4 * ntags
    let w := ctx12 x
    let l := if cRtagPop w && p.rtag.isSome then l.take rOff ++ l.drop (rOff + 6) else l
    let l := match x.genNo with
      | some n => l.take rOff ++ beOf 0xF1C1 2 ++ [0, 0] ++ beOf n 2 ++ l.drop rOff
      | none => l
    if isUntagged s g.vid o then (if g.tag.isSome then l.take 12 ++ l.drop 16 else l)
    else
      let pcp := if flag s R.EGR_PORT_CFG_PCP_REMARK o then y.tc else g.pcp
      let dei := if flag s R.EGR_PORT_CFG_DEI_REMARK o then b2n y.de else (match g.tag with | some t => t.2 | none => 0)
      let tpid := if flag s R.EGR_PORT_CFG_TPID_SEL o then 0x88A8 else 0x8100
      let tag := beOf tpid 2 ++ beOf (pcp * 8192 + dei * 4096 + g.vid) 2
      l.take 12 ++ tag ++ l.drop (if g.tag.isSome then 16 else 12)

/-- Step 4: whether the copy's codepoint changes (R294), and the octets. -/
def editEcn (x : Frame) (y : Copy) (delta : Int) (l : List Nat) : Bool × List Nat :=
  let p := parse (x.octets.take 128)
  if y.mark && p.l3 ≠ 0 && (p.ecn == 1 || p.ecn == 2) then
    let at_ := ((p.l3Off : Int) + delta).toNat
    if p.l3 = 1 then
      let old := beAt l at_ 2
      let new_ := old / 4 * 4 + 3
      let hc := beAt l (at_ + 10) 2
      let hc' := 65535 - fold16 ((65535 - hc) + (65535 - old) + new_)
      (true, patch (patch l at_ (beOf new_ 2)) (at_ + 10) (beOf hc' 2))
    else
      let b := beAt l at_ 2
      (true, patch l at_ (beOf (b / 64 * 64 + 3 * 16 + b % 16) 2))
  else (false, l)

/-- The addition of a command to correctionField on output `o` (R98, R99, R123, R124) for a transmit time, with the domain time that TS_WRITE
writes. -/
def insValues (s : State) (x : Frame) (o : Nat) (i : Ins) (tx : TxTime) : Int × Int :=
  let b := i.dom.map (· == 1)
  let res : Int :=
    if i.residence then
      match usableRx x with
      | some r => inDomain s b ((residence tx r.t16 x.stepCount).getD 0)
      | none => 0
    else 0
  let t := rdiv tx.t 65536
  let ts := t + (match b with | some b => domOff s b t | none => 0)
  let frac := if i.tsWrite.isSome then fracNs ts else 0
  (ts, res + frac + i.addend.getD 0 + (match x.adds.find? (·.1 == o) with | some a => a.2 | none => 0))

/-- The frame as it leaves output `o` (R333): the octets with FCS, and whether the codepoint changed. -/
def edited (s : State) (x : Frame) (o : Nat) (y : Copy) (insert : Bool) (ts add : Int) : Bool × List Nat :=
  let body := x.octets.take (x.octets.length - 4)
  if o ≥ 64 then (false, x.octets)
  else
    let l := editTags s x o y body
    let delta := (l.length : Int) - body.length
    let (ecn, l) := editEcn x y delta l
    let l := match x.ins with
      | some i => if insert then editTime i ts add delta l else l
      | none => l
    let c := crc32 l
    (ecn, l ++ fcsOf (if x.bad.isSome then 0xFFFFFFFF - c else c))

end Sys2Proof.Machine
end

