-- ==== Sys2Proof/Machine/Buf.lean ====
section
/-!
DEFINITION. Sys2Proof/Machine/Buf.lean: the commands and events of the shared buffer (spec/10).
-/
namespace Sys2Proof.Machine

/-! ### Admission (R290 to R297) -/

/-- Copies for the output are discarded at their head under PORT_DOWN: flushed (R303), never up, or an RX ring that cannot
take them (R379). -/
def outDown (s : State) (o c : Nat) : Bool :=
  if o < 64 then (holdOf s o).st == 2 || (!portUp s o && (holdOf s o).st ≠ 1)
  else o == 64 && !isRxRing s (rxRing s c)

/-- The two tests of R290 for a copy of `l` cells: the discard reason. -/
def admitTest (s : State) (o c : Nat) (de : Bool) (l : Nat) : Option Nat :=
  if aggregate s o c + l > minCells s o c + alphaF s o c de then some 0x11
  else
    let k := getF s (clsF R.BUF_CLS_ADM_POOL c) o
    let m := getF s (R.BUF_POOL_MAX_MAX.on (4 * k))
    if m ≠ 0 ∧ poolUsed s k + l > m then some 0x12 else none

/-- Cells of the VOQ (input, output, class). -/
def voqDepth (s : State) (i o c : Nat) : Nat :=
  sumCopies s fun x y => if x.port = i ∧ y.out = o ∧ y.tc = c then y.charge else 0

/-- The marking decision of R294 for a copy of `l` cells. -/
def ecnMark (i o c l : Nat) (s : State) : Bool × State :=
  if !flag s (clsF R.BUF_CLS_ECN_ENA c) o then (false, s)
  else
    let d := voqDepth s i o c + l
    let kmin := getF s (clsF R.BUF_CLS_ECN_KMIN c) o
    let kmax := max kmin (getF s (clsF R.BUF_CLS_ECN_KMAX c) o)
    if d < kmin then (false, s)
    else if d ≥ kmax then (true, s)
    else
      let seed := Nat.xor 0xACE1 o
      let v := lfsrStep (smGet seed s.buf.lfsr o)
      (decide (v < (d - kmin) * 65536 / (kmax - kmin)), { s with buf := { s.buf with lfsr := smPut seed s.buf.lfsr o v } })

/-- The conditions of R297 for a copy. -/
def ctReady (s : State) (x : Frame) (o c : Nat) : Bool :=
  flag s R.BUF_GCFG_CT_ENA && x.port < 64 && o < 64 && flag s R.BUF_PORT_CFG_CT_IN x.port && flag s R.BUF_PORT_CFG_CT_OUT o
    && decide (outRate s o ≤ outRate s x.port) && getF s R.LNK_PORT_STAT_STATE o == 5 && (holdOf s o).st == 0
    && aggregate s o c == 0 && ctEligible s o c x && !x.needTail
    && (x.frer == .none || x.frer == .passed || !cSeqRec (ctx12 x))

/-- Test one copy; an admitted one joins its aggregate. -/
def admitCopy (f o l : Nat) (s : State) : State :=
  match frameAt s f with
  | none => s
  | some x =>
    match x.ing with
    | none => s
    | some g =>
      let s := shaperTouch o g.tc s
      let drop (r : Nat) : State := sump r g.tc (some (o, g.tc)) x s
      if outDown s o g.tc then drop 0x16
      else
        match admitTest s o g.tc g.de l with
        | some r => drop r
        | none =>
          let (mark, s) := ecnMark x.port o g.tc l s
          let ready := ctReady s x o g.tc
          let y : Copy := { out := o, tc := g.tc, de := g.de, charge := l, mark, ready, qno := 0, enq := copyNow s islBUF, st := .queued, cost := 0 }
          setFrame f (some { x with copies := x.copies ++ [y] }) s

/-- Enqueue the admitted copies of frame `f` (R296): the ready ones, then the others, ascending; they count as cut-through,
stored and residue. -/
def enqueueCopies (f : Nat) (s : State) : State :=
  match frameAt s f with
  | none => s
  | some x =>
    let multi := decide (x.copies.length ≥ 2)
    let order := x.copies.filter (·.ready) ++ x.copies.filter fun y => !y.ready
    let base := s.buf.nextQno
    let num (o : Nat) : Nat := base + (order.findIdx fun y => y.out == o)
    let s := setFrame f (some { x with admitted := true, copies := x.copies.map fun y => { y with qno := num y.out } })
      { s with buf := { s.buf with nextQno := base + order.length } }
    order.foldl (fun s y =>
      let s := fullWrite 2 (num y.out % 262144) s
      if y.ready then monEvent 9 y.out (some y.tc) 0 1 (bump R.BUF_CNT_CT_COUNT s y.out)
      else
        let s := monEvent 0x0A y.out (some y.tc) 0 1 (bump R.BUF_CNT_SF_COUNT s y.out)
        if multi then monEvent 0x13 y.out (some y.tc) 0 1 (bump R.BUF_CNT_RESIDUE_COUNT s y.out) else s) s

/-- Some copy of frame `f` was admitted. -/
def admitted (s : State) (f : Nat) : Bool := match frameAt s f with | some x => !x.copies.isEmpty | none => false

/-- The octets of an admitted frame that have come are written; where no cell is free for them, its copies are discarded under
BUFFER_EXHAUSTED (R293). -/
def storeHead (f : Nat) (s : State) : State :=
  match frameAt s f with
  | none => s
  | some x =>
    let (ok, s) := storeCells f 0 x.octets.length (setFrame f (some { x with copies := chargeCopies x }) s)
    if ok then s else exhausted (dropAll 0x13 f s)

/-- No copy of the frame is admitted: it is not written (R295). One of a context that names a function of RED stays until RED has taken its
number (R336, R338). -/
def refuseAll (f : Nat) (s : State) : State :=
  match frameAt s f with
  | some x => if x.frer = .waiting then reapFrame f (setFrame f (some { x with admitted := true }) s) else forgetFrame f s
  | none => s

/-- A frame is admitted or discarded at its head (R290, R349). -/
def bufAdmit (f : Nat) (s : State) : State :=
  match frameAt s f with
  | none => s
  | some x =>
    match x.ing with
    | none => s
    | some g =>
      let w := ctx12 x
      let seq := x.frer == .waiting && (cSeqGen w || cSeqRec w)
      if !x.headDone || x.admitted || x.tfwd then s
      else if seq && !redUp s && !flag s R.RED_GCFG_DOWN_ACT then
        g.dests.foldl (fun s o => sump 0x1E g.tc (some (o, g.tc)) x s) (forgetFrame f s)
      else
        let s := if seq && !redUp s then setFrame f (some { x with frer := .none }) s else s
        let l := match g.known with | some n => cellsOf n | none => estCells s
        let s := g.dests.foldl (fun s o => admitCopy f o l s) s
        if admitted s f then storeHead f (enqueueCopies f s) else refuseAll f s

/-- The crossing by which frames of port `p` reach BUF is up (R23, R24). -/
def bufCross (s : State) (p : Nat) : Bool :=
  crossUp s (if p < 64 then islPIPE (p / 16) else if p = 64 then islHOST else islMCU) islBUF

/-- A frame that BUF has not admitted is lost with its crossing (R25): charged to the outputs it was for. -/
def loseHead (f : Nat) (x : Frame) (s : State) : State :=
  match x.ing with
  | some g => txDecided x false (g.dests.foldl (fun s o => sump 0x10 g.tc (some (o, g.tc)) x s) (forgetFrame f s))
  | none => txDecided x false (dropFrame 0x10 f s)

/-- The admission of frame `f`, and the completion of the TX ring it came from (R378). -/
def admitFrame (f : Nat) (s : State) : State :=
  match frameAt s f with
  | some x =>
    if x.headDone && !x.admitted && !x.tfwd && x.ing.isSome then
      if bufCross s x.port then let s := bufAdmit f s; txDecided x (admitted s f) s else loseHead f x s
    else s
  | none => s

/-- BUF_ADMISSION (R290). -/
def execBufAdmission (f : Nat) (s : State) : Host.Outcome State Fault Refusal :=
  let s := s.begin
  ran (if islUp s islBUF then admitFrame f s else s)

/-- A frame's last cell is written and its FCS checked (R298): its stored copies become visible, or a bad frame's waiting
copies are discarded. -/
def storeComplete (f : Nat) (s : State) : State :=
  match frameAt s f with
  | none => s
  | some x =>
    if !(x.ended && x.admitted) || x.needTail then s
    else
      match x.bad with
      | some r => reapFrame f (dropAll r f s)
      | none => setFrame f (some { x with stored := true }) (touchFrame f s)

/-- FRAME_STORE_COMPLETE (R298). -/
def execFrameStoreComplete (f : Nat) (s : State) : Host.Outcome State Fault Refusal :=
  let s := s.begin
  ran (if islUp s islBUF then storeComplete f s else s)

/-- LINK_HOLD_EXPIRY (R303). -/
def execLinkHoldExpiry (o : Nat) (s : State) : Host.Outcome State Fault Refusal :=
  let s := s.begin
  ran (if islUp s islBUF && (holdOf s o).st == 1 && decide ((holdOf s o).deadline ≤ copyNow s islBUF) then touchOut o (holdExpire o (touchOut o s)) else s)

/-! ### The admission commit (R291) -/

/-- Put the pending headroom and class settings in force. -/
def admCommit (s : State) : State :=
  let s' := setF R.BUF_HEADROOM_HEADROOM (getF s R.BUF_HEADROOM_PEND_HEADROOM) s
  let s' := (aggregates s).foldl (fun s' x =>
    setF (clsF R.BUF_CLS_ADM_POOL x.2) (getF s (clsF R.BUF_CLS_ADM_PEND_POOL x.2) x.1)
      (setF (clsF R.BUF_CLS_ADM_ALPHA x.2) (getF s (clsF R.BUF_CLS_ADM_PEND_ALPHA x.2) x.1)
        (setF (clsF R.BUF_CLS_ADM_MIN x.2) (getF s (clsF R.BUF_CLS_ADM_PEND_MIN x.2) x.1) s' x.1) x.1) x.1) s'
  if sharedSize s' < 0 then raise R.BUF_EVENT_ADM_CFG_INVALID s
  else { s' with buf := { s'.buf with pend := false } }

/-- BUF_ADMISSION_COMMIT (R291): a write of BUF_COMMIT. -/
def execBufAdmissionCommit (req : Requester) (val : Nat) (s : State) : Host.Outcome State Fault Refusal :=
  ran (writeAt req 0xC0020 (fun _ s => if bitOf val 31 then admCommit s else s) s.begin)

/-- INSERTION_COPY_AGE_LIMIT (R99): a queued copy with an insertion command, 1,000 s after its enqueue, is discarded under
AGED. -/
def execInsertionCopyAgeLimit (f o : Nat) (s : State) : Host.Outcome State Fault Refusal :=
  let s := s.begin
  ran (match frameAt s f with
    | some x =>
      if x.ins.isSome && x.copies.any fun y => y.out == o && y.st ≠ .leaving && decide (copyNow s islBUF ≥ y.enq + 1000 * unitS) then
        dropCopy 0x17 f o s
      else s
    | none => s)

end Sys2Proof.Machine
end

