-- ==== Sys2Proof/Machine/Balls.lean ====
section
/-!
DEFINITION. Sys2Proof/Machine/Balls.lean: the balls, the supplies and the electrical and thermal figures of the package (spec/20), with the
error terms of a hop (spec/03), of the outputs (spec/06) and of the TDC (spec/07).
-/
namespace Sys2Proof.Machine

/-! ### The ball grid (R491) -/

/-- The letter codes of the 51 rows, index 1 first. -/
def rowCodes : List String :=
  ["A", "B", "C", "D", "E", "F", "G", "H", "J", "K", "L", "M", "N", "P", "T", "U", "V", "W", "Y",
   "AA", "AB", "AC", "AD", "AE", "AF", "AG", "AH", "AJ", "AK", "AL", "AM", "AN", "AP", "AT", "AU", "AV", "AW", "AY",
   "BA", "BB", "BC", "BD", "BE", "BF", "BG", "BH", "BJ", "BK", "BL", "BM", "BN"]

/-- A ball: its row index and column, from 1 to 51. -/
structure Ball where
  row : Nat
  col : Nat
  deriving DecidableEq, Repr

/-- The name of a ball. -/
def Ball.name (b : Ball) : String := rowCodes.getD (b.row - 1) "" ++ toString b.col

/-! ### Supplies (R497, R498) -/

/-- The supply rails. -/
inductive Rail where
  | vdd | vddm | avddSd | avddPcie | avddClk | vddSafe | avddSdh | avddClkh | vddio
  deriving DecidableEq, Repr

/-- The code of a rail in the order of R497. -/
def railOf (n : Nat) : Rail := [Rail.vdd, .vddm, .avddSd, .avddPcie, .avddClk, .vddSafe, .avddSdh, .avddClkh, .vddio].getD n .vddio

/-- VDD's target voltage of an AVS code, in µV (R500). -/
def avsUv (code : Nat) : Nat := 600000 + 2500 * code

/-- Nominal voltage and the recommended range of a rail in µV (R497); VDD's follow the code in force. -/
def Rail.recommended (code : Nat) : Rail → Nat × Nat × Nat
  | .vdd => (avsUv code, avsUv code - 15000, avsUv code + 15000)
  | .vddSafe => (800000, 776000, 824000)
  | .avddSdh => (1200000, 1164000, 1236000)
  | .avddClkh => (1800000, 1746000, 1854000)
  | .vddio => (1800000, 1710000, 1890000)
  | .vddm | .avddSd | .avddPcie | .avddClk => (850000, 825000, 875000)

/-- The noise a rail may carry from 10 kHz to 20 MHz, in µV peak to peak (R497). -/
def Rail.noise : Rail → Nat
  | .vdd | .vddm | .vddSafe => 20000
  | .avddSd | .avddPcie | .avddSdh => 10000
  | .avddClk | .avddClkh => 5000
  | .vddio => 50000

/-- The valid window of a rail in µV (R497, R498). -/
def Rail.window : Rail → Nat × Nat
  | .vdd => (665000, 900000)
  | .vddSafe => (744000, 856000)
  | .avddSdh => (1116000, 1284000)
  | .avddClkh | .vddio => (1674000, 1926000)
  | .vddm | .avddSd | .avddPcie | .avddClk => (790000, 910000)

/-- The supply monitor declares POWER_ON: a supply has been at `uv`, outside its window, for 2 µs or longer (R498). -/
def supplyStrikes (r : Rail) (uv ns : Nat) : Bool := (decide (uv < r.window.1) || decide (r.window.2 < uv)) && decide (2000 ≤ ns)

/-- Absolute maximum of a rail in µV, from -300,000 (R496). -/
def Rail.absMax : Rail → Nat
  | .avddSdh => 1320000
  | .avddClkh | .vddio => 1980000
  | .vdd | .vddm | .avddSd | .avddPcie | .avddClk | .vddSafe => 950000

/-- Currents of a rail in mA and powers in mW: Ready, Typical, Maximum (R499). -/
def Rail.draw : Rail → List (Nat × Nat)
  | .vdd => [(18000, 13500), (62000, 46500), (80000, 68000)]
  | .vddm => [(4000, 3400), (14000, 11900), (18000, 15300)]
  | .avddSd => [(500, 430), (12000, 10200), (13000, 11050)]
  | .avddSdh => [(200, 240), (4000, 4800), (5000, 6000)]
  | .avddPcie => [(400, 340), (400, 340), (500, 430)]
  | .avddClk => [(1000, 850), (1000, 850), (1300, 1110)]
  | .avddClkh => [(500, 900), (500, 900), (600, 1080)]
  | .vddio => [(100, 180), (250, 450), (500, 900)]
  | .vddSafe => [(75, 60), (75, 60), (175, 140)]

/-! ### Signal balls (R492, R493) -/

/-- What drives a signal: the device, the board, either, or an analog part. -/
inductive Dir where
  | input | output | bidir | analog
  deriving DecidableEq, Repr

/-- A pull of a ball. -/
inductive Pull where
  | none | up | down
  deriving DecidableEq, Repr

/-- The electrical type of a ball. -/
inductive BallType where
  | lane | refIn | clkOut | lvcmos (pull : Pull) | openDrain | crystal | pcie | hcsl | analog
  deriving DecidableEq, Repr

/-- A signal and its ball; `mate`: the N ball of a pair, which has no boundary cells of its own. -/
structure Signal where
  name : String
  ball : Ball
  dir : Dir
  type : BallType
  rail : Option Rail
  mate : Bool
  deriving DecidableEq, Repr

/-- The two balls of a pair. -/
def pairAt (p n : String) (bp bn : Ball) (dir : Dir) (type : BallType) (rail : Rail) : List Signal :=
  [⟨p, bp, dir, type, some rail, false⟩, ⟨n, bn, dir, type, some rail, true⟩]

/-- Signals on successive columns of one row. -/
def rowOf (row col : Nat) (names : List String) (dir : Dir) (type : BallType) (rail : Rail) : List Signal :=
  (List.range names.length).map fun k => ⟨names.getD k "", ⟨row, col + k⟩, dir, type, some rail, false⟩

/-- The names `pre` with the numbers from 0 below `n`. -/
def numbered (pre : String) (n : Nat) : List String := (List.range n).map fun k => pre ++ toString k

/-- The balls of lane `n`: TXP, TXN, RXP, RXN (R492). -/
def laneBalls (n : Nat) : Ball × Ball × Ball × Ball :=
  let a := 3 + 3 * (n % 16)
  match n / 16 with
  | 0 => (⟨2, a⟩, ⟨2, a + 1⟩, ⟨5, a⟩, ⟨5, a + 1⟩)
  | 1 => (⟨a, 50⟩, ⟨a + 1, 50⟩, ⟨a, 47⟩, ⟨a + 1, 47⟩)
  | 2 => (⟨50, a⟩, ⟨50, a + 1⟩, ⟨47, a⟩, ⟨47, a + 1⟩)
  | _ => (⟨a, 2⟩, ⟨a + 1, 2⟩, ⟨a, 5⟩, ⟨a + 1, 5⟩)

/-- The four signals of lane `n`. -/
def laneSignals (n : Nat) : List Signal :=
  let b := laneBalls n
  let l := "L" ++ toString n
  pairAt (l ++ "TXP") (l ++ "TXN") b.1 b.2.1 .output .lane .avddSdh ++ pairAt (l ++ "RXP") (l ++ "RXN") b.2.2.1 b.2.2.2 .input .lane .avddSd

/-- Numbered pairs in one row: P and N of each `gap` columns apart, named with a number in the middle or at the end. -/
def pairsOf (row col gap n : Nat) (pre post : String → String) (dir : Dir) (type : BallType) (rail : Rail) : List Signal :=
  (List.range n).flatMap fun k =>
    pairAt (pre (toString k)) (post (toString k)) ⟨row, col + gap * k⟩ ⟨row, col + gap * k + 1⟩ dir type rail

/-- The signals of R493: the timing balls. -/
def timingSignals : List Signal :=
  pairsOf 7 10 2 8 (fun k => "REFIN" ++ k ++ "P") (fun k => "REFIN" ++ k ++ "N") .input .refIn .avddClkh
    ++ pairsOf 9 10 2 12 (fun k => "CLKOUT" ++ k ++ "P") (fun k => "CLKOUT" ++ k ++ "N") .output .clkOut .avddClkh
    ++ rowOf 10 10 (numbered "EVTIN" 8) .input (.lvcmos .down) .vddio
    ++ rowOf 10 19 ["TOD_IN"] .input (.lvcmos .up) .vddio ++ rowOf 10 20 ["TOD_OUT"] .output (.lvcmos .none) .vddio
    ++ pairAt "OCXO_INP" "OCXO_INN" ⟨10, 22⟩ ⟨10, 23⟩ .input .refIn .avddClkh
    ++ rowOf 10 24 ["OCXO_WARM"] .input (.lvcmos .down) .vddio ++ rowOf 10 26 ["XIN", "XOUT"] .analog .crystal .avddClkh

/-- The signals of R493: the host's, the flash's, I2C and JTAG. -/
def hostSignals : List Signal :=
  pairsOf 11 10 3 4 (fun k => "PCIE_TXP" ++ k) (fun k => "PCIE_TXN" ++ k) .output .pcie .avddPcie
    ++ pairsOf 13 10 3 4 (fun k => "PCIE_RXP" ++ k) (fun k => "PCIE_RXN" ++ k) .input .pcie .avddPcie
    ++ pairAt "PCIE_REFCLKP" "PCIE_REFCLKN" ⟨11, 23⟩ ⟨11, 24⟩ .input .hcsl .avddPcie
    ++ rowOf 12 10 ["QSPI_CLK"] .output (.lvcmos .none) .vddio ++ rowOf 12 11 ["QSPI_CS_N"] .output (.lvcmos .up) .vddio
    ++ rowOf 12 12 (numbered "QSPI_IO" 4) .bidir (.lvcmos .up) .vddio
    ++ rowOf 12 17 ["I2C_SCL", "I2C_SDA"] .bidir .openDrain .vddio ++ rowOf 12 19 ["ADDR"] .input (.lvcmos .none) .vddio
    ++ rowOf 12 21 ["TCK"] .input (.lvcmos .down) .vddio ++ rowOf 12 22 ["TMS", "TDI"] .input (.lvcmos .up) .vddio
    ++ rowOf 12 24 ["TDO"] .output (.lvcmos .none) .vddio ++ rowOf 12 25 ["TRST_N"] .input (.lvcmos .down) .vddio

/-- The signals of R493: control, GPIO, AVS, the thermal diode and the MGMT lane. -/
def controlSignals : List Signal :=
  rowOf 12 27 ["RESET_N"] .bidir .openDrain .vddio ++ rowOf 12 28 ["ALIVE"] .output (.lvcmos .none) .vddio
    ++ rowOf 12 29 (numbered "PROFSEL" 2) .input (.lvcmos .none) .vddio ++ rowOf 14 10 (numbered "GPIO" 16) .bidir (.lvcmos .down) .vddio
    ++ rowOf 14 27 (numbered "VID" 2) .bidir .openDrain .vddio
    ++ rowOf 14 29 ["VID2", "VID3", "VID4", "VID5", "VID6", "VID7"] .output (.lvcmos .none) .vddio
    ++ [⟨"TDIODE_P", ⟨14, 36⟩, .analog, .analog, none, false⟩, ⟨"TDIODE_N", ⟨14, 37⟩, .analog, .analog, none, true⟩]
    ++ pairAt "MGMT_TXP" "MGMT_TXN" ⟨8, 40⟩ ⟨8, 41⟩ .output .lane .avddSdh ++ pairAt "MGMT_RXP" "MGMT_RXN" ⟨10, 40⟩ ⟨10, 41⟩ .input .lane .avddSd

/-- Every signal ball: 256 of lanes and 121 others. -/
def signals : List Signal := (List.range 64).flatMap laneSignals ++ timingSignals ++ hostSignals ++ controlSignals

/-! ### Supply and ground groups (R495) -/

/-- What a ball that carries no signal belongs to. -/
inductive Group where
  | supply (rail : Rail) | vssRing | vssBand | vssCore
  deriving DecidableEq, Repr

/-- The group of a ball that no signal names: the first row of R495 that matches. -/
def groupOf (b : Ball) : Group :=
  let mid (x : Nat) : Bool := 7 ≤ x && x ≤ 45
  let (r, c) := (b.row, b.col)
  if ((r == 4 || r == 48) && mid c) || ((c == 4 || c == 48) && mid r) then .supply .avddSdh
  else if ((r == 6 || r == 46) && mid c) || ((c == 6 || c == 46) && mid r) then .supply .avddSd
  else if r ≤ 6 || 46 ≤ r || c ≤ 6 || 46 ≤ c then .vssRing
  else if r == 8 && 10 ≤ c && c ≤ 25 then .supply .avddClkh
  else if r ≤ 14 && 43 ≤ c then .supply .avddClk
  else if r == 13 && 27 ≤ c && c ≤ 42 then .supply .vddio
  else if r == 11 && 26 ≤ c && c ≤ 33 then .supply .avddPcie
  else if (r == 12 || r == 14) && 39 ≤ c && c ≤ 42 then .supply .vddSafe
  else if r ≤ 14 then .vssBand
  else if (r + c) % 2 == 1 then .vssCore
  else if r ≤ 36 then .supply .vdd
  else .supply .vddm

/-! ### JTAG (R508) -/

/-- A cell of the boundary register. -/
inductive Cell where
  | input | data | enable
  deriving DecidableEq, Repr

/-- The cells of a signal. -/
def Signal.cells (x : Signal) : List Cell :=
  if x.mate || x.type = .crystal || x.type = .analog || ["TCK", "TMS", "TDI", "TDO", "TRST_N"].contains x.name then []
  else match x.dir with
    | .input => [.input]
    | .output => [.data, .enable]
    | .bidir => [.input, .data, .enable]
    | .analog => []

/-- The boundary register from the TDO side: by row, then by column. -/
def boundary : List (String × Cell) :=
  (List.range 52).flatMap fun r =>
    let here := signals.filter fun x => x.ball.row == r
    (List.range 52).flatMap fun c => (here.filter fun x => x.ball.col == c).flatMap fun x => x.cells.map fun y => (x.name, y)

/-! ### Figures -/

/-- A figure of the manual: its parameter and condition, its least and largest value, and the unit. -/
structure Figure where
  name : String
  lo : Option Int
  hi : Option Int
  unit : String
  deriving DecidableEq, Repr

/-- Package dimensions (R491). -/
def packageFigures : List Figure := [
  ⟨"body, each side", some 52400, some 52600, "um"⟩, ⟨"ball pitch", some 1000, some 1000, "um"⟩, ⟨"array span", some 50000, some 50000, "um"⟩,
  ⟨"ball diameter before reflow", some 600, some 600, "um"⟩, ⟨"recommended board pad", some 500, some 500, "um"⟩,
  ⟨"standoff after reflow", some 350, some 550, "um"⟩, ⟨"total height", none, some 4300, "um"⟩, ⟨"lid, each side", some 45000, some 45000, "um"⟩,
  ⟨"coplanarity", none, some 200, "um"⟩, ⟨"moisture sensitivity level", some 4, some 4, ""⟩, ⟨"peak reflow", none, some 250, "degC"⟩,
  ⟨"mass", some 30, some 30, "g"⟩, ⟨"static lid load", none, some 400, "N"⟩]

/-- Absolute maximum ratings besides the rails' (R496). -/
def absoluteFigures : List Figure := [
  ⟨"any LVCMOS, open-drain, REFIN or OCXO_IN ball", some (-300), some 1980, "mV"⟩,
  ⟨"lane and PCIe receive inputs, differential peak to peak", none, some 1600, "mV"⟩, ⟨"junction temperature", none, some 125, "degC"⟩,
  ⟨"storage temperature", some (-55), some 125, "degC"⟩, ⟨"ESD, human-body model", none, some 1000, "V"⟩,
  ⟨"ESD, charged-device model", none, some 250, "V"⟩]

/-- Operating temperature, supply rise, and the start of VDD (R497, R498). -/
def operatingFigures : List Figure := [
  ⟨"junction temperature", some (-20), some 105, "degC"⟩, ⟨"canary reading against the die", some (-3), some 3, "K"⟩,
  ⟨"supply rise, 10 % to 90 %", some 200, some 20000, "us"⟩, ⟨"code of VDD at start", some 60, some 100, ""⟩,
  ⟨"AVDD_SD saved by a sleeping direction", some 40, some 40, "mA"⟩]

/-- I/O characteristics (R503). -/
def ioFigures : List Figure := [
  ⟨"VIH", some 1170, none, "mV"⟩, ⟨"VIL", none, some 630, "mV"⟩, ⟨"input hysteresis", some 100, none, "mV"⟩, ⟨"VOH, -8 mA", some 1350, none, "mV"⟩,
  ⟨"VOL, 8 mA", none, some 450, "mV"⟩, ⟨"VOL, I2C at 20 mA, RESET_N and PMBus at 8 mA", none, some 400, "mV"⟩,
  ⟨"input leakage", some (-10), some 10, "uA"⟩, ⟨"pull-up or pull-down", some 35, some 75, "kOhm"⟩, ⟨"input capacitance", none, some 5, "pF"⟩,
  ⟨"output rise and fall, 10 pF", some 300, some 1500, "ps"⟩, ⟨"QSPI clock to data out, 15 pF", some (-1000), some 2500, "ps"⟩,
  ⟨"QSPI input setup", some 2000, none, "ps"⟩, ⟨"QSPI input hold", some 1000, none, "ps"⟩, ⟨"EVTIN edge rate", some 1000, none, "mV/ns"⟩,
  ⟨"RESET_N board pull-up", some 2200, some 10000, "Ohm"⟩]

/-- Reference inputs and the local oscillator (R505). -/
def referenceFigures : List Figure := [
  ⟨"frequency, differential", some 1, some 1600000000, "Hz"⟩, ⟨"frequency, single-ended DC", some 1, some 250000000, "Hz"⟩,
  ⟨"frequency, single-ended AC", some 10000000, some 800000000, "Hz"⟩, ⟨"swing, differential", some 200, some 1600, "mV"⟩,
  ⟨"swing, single-ended AC", some 400, some 1800, "mV"⟩, ⟨"common mode, differential", some 300, some 1400, "mV"⟩,
  ⟨"edge rate", some 1000, none, "mV/ns"⟩, ⟨"high and low time, differential or AC", some 300, none, "ps"⟩,
  ⟨"high and low time, single-ended DC", some 1000, none, "ps"⟩, ⟨"input impedance per ball", some 10, some 10, "kOhm"⟩,
  ⟨"OCXO_IN frequency", some 10000000, some 54000000, "Hz"⟩, ⟨"crystal frequency", some 25000000, some 54000000, "Hz"⟩,
  ⟨"crystal ESR", none, some 60, "Ohm"⟩, ⟨"crystal load", some 8, some 8, "pF"⟩, ⟨"crystal drive", none, some 200, "uW"⟩,
  ⟨"XIN clock swing", some 400, some 1200, "mV"⟩, ⟨"oscillator of an option 1 EEC", some (-4600), some 4600, "ppb"⟩]

/-- Clock outputs (R506). -/
def clockFigures : List Figure := [
  ⟨"LVDS differential output", some 250, some 450, "mV"⟩, ⟨"LVDS offset", some 1125, some 1375, "mV"⟩, ⟨"LVDS rise and fall", none, some 150, "ps"⟩,
  ⟨"duty cycle, even DIV", some 480, some 520, "per mille"⟩, ⟨"LVCMOS VOH", some 1350, none, "mV"⟩, ⟨"LVCMOS VOL", none, some 450, "mV"⟩,
  ⟨"LVCMOS rise and fall, 10 pF", some 300, some 1000, "ps"⟩]

/-- Lanes, PCIe and JTAG (R507, R508). -/
def serdesFigures : List Figure := [
  ⟨"termination, differential", some 100, some 100, "Ohm"⟩, ⟨"full swing of LNK_TXEQ", some 1200, some 1200, "mV"⟩,
  ⟨"1/64 of full swing", some 18750, some 18750, "uV"⟩, ⟨"PCIe rate", some 2500, some 16000, "MT/s"⟩,
  ⟨"PCIE_REFCLK against 100 MHz", some (-300), some 300, "ppm"⟩, ⟨"TCK", none, some 25000000, "Hz"⟩]

/-- Thermal data (R509). -/
def thermalFigures : List Figure := [
  ⟨"thetaJC", some 100, some 100, "mK/W"⟩, ⟨"thetaJB", some 1800, some 1800, "mK/W"⟩, ⟨"psiJT", some 50, some 50, "mK/W"⟩,
  ⟨"diode ideality", some 1010, some 1010, "1/1000"⟩, ⟨"diode series resistance", some 3, some 3, "Ohm"⟩, ⟨"thetaCS", none, some 50, "mK/W"⟩]

/-- The lid top stays at or below this at a junction temperature and a power, in mK and mW (R509). -/
def lidTop (junction power : Int) : Int := junction - power / 10

/-- A term of the constant time error of a hop: the limit in ps, NRZ and PAM4, each sign (R106). -/
def hopTerms : List (String × Nat × Nat) := [
  ("receive path", 8, 12), ("transmit path", 7, 10), ("package", 4, 4), ("CDR sampling phase", 6, 12), ("PAM4 transition timing", 0, 6),
  ("tally", 3, 3), ("count and replica transfer", 4, 4), ("FEC, markers, deskew", 0, 0), ("temperature", 5, 6), ("servo", 3, 3)]

/-- Terms of the dynamic time error in ps peak to peak (R107). -/
def dynamicTerms : List (String × Nat) := [
  ("tally noise", 6), ("recovered-clock wander", 5), ("DCO0 and APLL1 wander", 4), ("servo noise", 3), ("temperature gradient", 2)]

/-- Terms of one timestamp's uncertainty in units of 0.01 ps rms, and their limit (R108). -/
def stampTerms : List (String × Nat) := [("tally", 250), ("recovered-clock jitter", 240), ("extrapolation", 150), ("quantisation", 23)]
def stampLimit : Nat := 400

/-- Figures of the synthesis chain and the outputs (R198). -/
def outputFigures : List Figure := [
  ⟨"timing-lane reference jitter", none, some 80, "fs rms"⟩, ⟨"Last clock jitter", none, some 100, "fs rms"⟩,
  ⟨"CLOCK 100 to 800 MHz from APLL3 or APLL4", none, some 150, "fs rms"⟩, ⟨"CLOCK below 100 MHz, period jitter", none, some 5, "ps"⟩,
  ⟨"skew of one APLL's outputs", none, some 30, "ps"⟩, ⟨"DCO spurs", none, some (-75), "dBc"⟩,
  ⟨"PULSE or FRAME edge placement", some (-10), some 10, "ps"⟩, ⟨"PULSE or FRAME edge jitter", none, some 3, "ps rms"⟩,
  ⟨"ToD start against DELAY_MS", some (-1), some 1, "bit"⟩]

/-- Figures of the TDC (R225), in fs where a length of time. -/
def tdcFigures : List Figure := [
  ⟨"single shot, TABLE", none, some 3500, "fs rms"⟩, ⟨"nonlinearity, TABLE", some (-2000), some 2000, "fs"⟩,
  ⟨"nonlinearity, LINEAR", some (-9000), some 9000, "fs"⟩, ⟨"single shot, INTERVAL", none, some 5000, "fs rms"⟩,
  ⟨"edge against the Last", some (-12000), some 12000, "fs"⟩, ⟨"input delay per K", none, some 500, "fs"⟩,
  ⟨"takeover offset residual", none, some 1500, "fs"⟩, ⟨"dead time", some 25600000, some 25600000, "fs"⟩,
  ⟨"event pulse width, EVTIN", some 2000000, none, "fs"⟩]

/-- The interfaces of IEEE 802.3 that lanes meet (R507). -/
def laneClauses : List String :=
  ["CAUI-4", "25GAUI", "50GAUI-1", "100GAUI-2", "200GAUI-4", "400GAUI-8", "copper cable with link training", "1000BASE-X", "SGMII"]

/-! ### Marking (R510) -/

/-- The grade suffix of the part number. -/
def gradeSuffix (grade : Nat) : String := ["-GM", "-BC", "-ED"].getD grade ""

/-- The name of a stepping byte, 0xA0 or 0xB0. -/
def steppingName (st : Nat) : String := ["A", "B"].getD (st / 16 - 10) "" ++ toString (st % 16)

/-- The lines of the marking: of a grade, a stepping, a year and week, and an assembly lot. -/
def marking (grade st : Nat) (week lot : String) : List String :=
  ["GYSAVIS KLOZIN", "KZ3264" ++ gradeSuffix grade, steppingName st ++ " " ++ week, lot]

/-- The hexadecimal digits of the EUI-64 of fuse words 36 and 37. -/
def hexDigits (n : Nat) (v : Nat) : String :=
  String.ofList ((List.range n).map fun k => "0123456789ABCDEF".toList.getD (v / 16 ^ (n - 1 - k) % 16) '0')

/-- The text of the Data Matrix code. -/
def dataMatrix (grade st : Nat) (week lot : String) (hi lo : Nat) : String :=
  "KZ3264" ++ gradeSuffix grade ++ "/" ++ steppingName st ++ "/" ++ week ++ "/" ++ lot ++ "/" ++ hexDigits 8 hi ++ hexDigits 8 lo

end Sys2Proof.Machine
end

