-- ==== Sys2Proof/Machine/SynOps.lean ====
section
/-!
DEFINITION. Sys2Proof/Machine/SynOps.lean: the synthesis chain and the outputs (spec/06).
-/
namespace Sys2Proof.Machine

def outRt (s : State) (n : Nat) : OutRt := smGet OutRt.reset s.syn.outs n
def setOut (n : Nat) (x : OutRt) (s : State) : State := { s with syn := { s.syn with outs := smPut OutRt.reset s.syn.outs n x } }

/-! ### The chain (R176 to R181) -/

/-- The nominal of DCO `k` as numerator and denominator in Hz (R179). -/
def dcoNum (s : State) (k : Nat) : Nat :=
  if k = 0 then 156250000
  else getF s R.SYN_DCO_NOM_NUM_LO k + getF s R.SYN_DCO_NOM_NUM_HI k * 2 ^ 32
def dcoDen (s : State) (k : Nat) : Nat := if k = 0 then 1 else getF s R.SYN_DCO_NOM_DEN k

/-- The oscillator and divider behind APLL0 (R171, R177): frequency in Hz times N0. -/
def baseHz (s : State) : Nat :=
  if flag s R.REF_XO_STAT_SRC then getF s R.SYN_OCXO_FREQ_FREQ_HZ * getF s R.SYN_APLL0_CFG_N0_OCXO
  else getF s R.SYN_XIN_FREQ_FREQ_HZ * getF s R.SYN_APLL0_CFG_N0_XIN

/-- The control value of DCO `k`: that of its DPLL, 0 for DCO0 (R179). -/
def dcoCtl (s : State) (k : Nat) : Int := if k = 0 then 0 else dpllW s k

/-- `num` and `div` of R179, from the nominal ratio and the control values in force. -/
def dcoRatioNum (s : State) (k : Nat) : Int := (baseHz s * dcoDen s k * 2 ^ 144 : Nat)
def dcoRatioDiv (s : State) (k : Nat) : Int :=
  (dcoNum s k : Int) * (281474976710656 + rateWord s) * (281474976710656 + dcoCtl s k)

/-- d of R179 in 2^-48 and its remainder. -/
def dcoWord (s : State) (k : Nat) : Int × Int :=
  (dcoRatioNum s k / dcoRatioDiv s k, dcoRatioNum s k % dcoRatioDiv s k)

/-! ### The modulators (R180 to R182) -/

def dcoMod (s : State) (k : Nat) : DcoMod := smGet DcoMod.reset s.syn.mods k
def setMod (k : Nat) (x : DcoMod) (s : State) : State := { s with syn := { s.syn with mods := smPut DcoMod.reset s.syn.mods k x } }

/-- What stage 1 takes in a cycle of the modulator, and the remainder accumulator after it (R180). The remainder accumulator is
reduced by the divisor in force first (R181). -/
def modIn (d rem div : Int) (dith : Int) (m : DcoMod) : Int × Nat :=
  let r := (m.racc : Int) % div + rem
  (d % 281474976710656 + (if r ≥ div then 1 else 0) + dith, (if r ≥ div then r - div else r).toNat)

/-- One cycle of a third-order MASH 1-1-1 with 48-bit accumulators (R180): each stage adds what the stage before it holds, and
the carries of stages 2 and 3 enter with their first and second differences (notes/assumptions/138.md). -/
def modCycle (d rem div : Int) (dither : Bool) (seed : Nat) (m : DcoMod) : DcoMod :=
  let v := lfsrStep (m.lfsr.getD (lfsrSeed seed))
  let taken := modIn d rem div (if dither then (v % 2 : Nat) - (m.bit : Int) else 0) m
  let t1 := m.a1 + taken.1
  let a1 := (t1 % 281474976710656).toNat
  let a2 := m.a2 + a1
  let a3 := m.a3 + a2 % 281474976710656
  let c2 := a2 / 281474976710656
  let c3 := a3 / 281474976710656
  { racc := taken.2, a1 := a1, a2 := a2 % 281474976710656, a3 := a3 % 281474976710656, c2 := c2, c3 := c3, d3 := m.c3,
    lfsr := some v, bit := v % 2, phase := m.phase,
    modulus := d / 281474976710656 + t1 / 281474976710656 + (c2 - (m.c2 : Int)) + (c3 - 2 * (m.c3 : Int) + m.d3) }

/-- DCO `k` through one cycle of the Last clock: its own cycles come in the ratio of its frequency to 625 MHz (R179), and each
runs its modulator with the word in force (notes/assumptions/138.md). -/
def dcoCycle (k : Nat) (s : State) : State :=
  let m := dcoMod s k
  let turn := dcoDen s k * 625000000 * 281474976710656
  let p := m.phase + dcoNum s k * (281474976710656 + dcoCtl s k).toNat
  if turn ≤ p then
    let m := { m with phase := (p - turn) % turn }
    if 0 < dcoRatioDiv s k then
      setMod k (modCycle (dcoWord s k).1 (dcoWord s k).2 (dcoRatioDiv s k) (flag s R.SYN_DCO_CFG_DITHER k)
        (getF s R.SYN_DCO_CFG_SEED k) m) s
    else setMod k m s
  else setMod k { m with phase := p } s

/-- A commit of DCO `k` seeds its shift register again (R182). -/
def reseed (k : Nat) (s : State) : State := setMod k { dcoMod s k with lfsr := none, bit := 0 } s

/-- APLL `j` is locked (R178). -/
def apllLocked (s : State) (j : Nat) : Bool := bitOf (getF s R.SYN_APLL_STAT_LOCK) j

/-- The DCO that feeds APLL `j` (R176). -/
def apllDco (s : State) (j : Nat) : Nat := if j ≤ 2 then 0 else getF s R.SYN_APLL_CFG_IN_SEL (j - 1)

def apllFb (s : State) (j : Nat) : Nat := if j = 1 then 32 else getF s R.SYN_APLL_CFG_FBDIV (j - 1)

/-- The VCO of APLL `j` as a ratio in Hz. -/
def vcoNum (s : State) (j : Nat) : Nat := dcoNum s (apllDco s j) * apllFb s j
def vcoDen (s : State) (j : Nat) : Nat := dcoDen s (apllDco s j)

/-! ### Outputs (R188 to R193) -/

def oOFF : Nat := 0
def oARMED : Nat := 1
def oRUNNING : Nat := 2
def oSQUELCHED : Nat := 3
def oRESTARTING : Nat := 4

def outMode (s : State) (n : Nat) : Nat := getF s R.SYN_OUT_CFG_MODE n
def outState (s : State) (n : Nat) : Nat := getF s R.SYN_OUT_STAT_STATE n
def setOutState (n st : Nat) (s : State) : State := setF R.SYN_OUT_STAT_STATE st s n
def setAligned (n : Nat) (b : Bool) (s : State) : State := setFlag R.SYN_OUT_STAT_ALIGNED b s n

/-- The source APLL of a SRC code (R188). -/
def srcApll (code : Nat) : Nat := if code = 0 then 1 else if code = 2 then 4 else 3

/-- The APLL an output depends on: its SRC in CLOCK mode, APLL1 in PULSE and FRAME modes (R187). -/
def outApll (s : State) (n : Nat) : Nat := if outMode s n = 1 then srcApll (getF s R.SYN_OUT_CFG_SRC n) else 1

def outDiv (s : State) (n : Nat) : Nat := zeroAs 1 (getF s R.SYN_OUT_CFG_DIV n)

/-- ORIGIN = 0, or FRAME mode, whose origin is fixed at 0. -/
def outEpoch (s : State) (n : Nat) : Bool := outMode s n = 3 || !flag s R.SYN_OUT_CFG_ORIGIN n

/-- OFFSET in 2^-32 ns. -/
def outOffset (s : State) (n : Nat) : Int := getS s R.SYN_OUT_OFFSET_OFFSET n * unitNs

/-- The period of an output as nanoseconds over a denominator: SYN_OUT_PERIOD, or in CLOCK mode DIV cycles of the source VCO. -/
def outPeriod (s : State) (n : Nat) : Period :=
  if outMode s n = 1 then
    let j := outApll s n
    { num := 1000000000 * outDiv s n * vcoDen s j, den := vcoNum s j }
  else getPeriod s 0x80404 0x40 n

/-- The instant of the edge of index `k` in 2^-32 ns, rounded down. -/
def edgeAt (s : State) (n : Nat) (k : Int) : Int :=
  let x := outRt s n
  let p := outPeriod s n
  (x.eNum * p.den + (k - x.k0) * (p.num * 4294967296) * x.eDen) / (x.eDen * p.den : Nat)

/-- The index of the latest edge at or before `t`. -/
def edgeIndex (s : State) (n : Nat) (t : Int) : Int :=
  let x := outRt s n
  let p := outPeriod s n
  x.k0 + ((t * x.eDen - x.eNum) * p.den) / ((p.num * 4294967296 * x.eDen : Nat) : Int)

/-- The period of the VCO of APLL `j`, ns. -/
def vcoPeriod (s : State) (j : Nat) : Period := ⟨1000000000 * vcoDen s j, vcoNum s j⟩

/-- The same in 2^-32 ns, rounded down. -/
def vcoUnits (s : State) (j : Nat) : Nat := 1000000000 * 4294967296 * vcoDen s j / vcoNum s j

/-- The leading edge of index `k` crosses the ball SYN_OUT_DELAY before its scheduled instant, in 2^-32 ns (R191). The edge generator
places a PULSE or FRAME edge in steps of 1/256 of a cycle of the Last, ahead by the measured cell delay; it takes the nearest step
(notes/assumptions/156.md). A CLOCK edge is an edge of the VCO. -/
def ballAt (s : State) (n : Nat) (k : Int) : Int :=
  let t := edgeAt s n k - getS s R.SYN_OUT_DELAY_DELAY n * 65536
  if outMode s n = 1 then t
  else
    let cell : Int := (smGet 0 s.lnk.cells n : Nat) * 65536
    let grid := s.tim.last.fifths
    (grid + rdiv ((t - cell) * 5 - grid) (cycle5 / 256) * (cycle5 / 256)) / 5 + cell

/-- The width in ns of the pulse of index `k`: in FRAME mode with SEQ_LEN of 2 or more the marker pulses are SEQW wide (R192). -/
def edgeWidth (s : State) (n : Nat) (k : Int) : Nat :=
  let len := getF s R.SYN_OUT_SEQ_SEQ_LEN n
  if outMode s n = 3 ∧ 2 ≤ len ∧ k % (len : Int) = 0 then getF s R.SYN_OUT_SEQW_SEQW n else getF s R.SYN_OUT_WIDTH_WIDTH n

/-- The active phase of the cycle of index `k` in ns: its pulse, or ceil(DIV / 2) periods of the VCO (R188, R192). -/
def activePhase (s : State) (n : Nat) (k : Int) : Period :=
  if outMode s n = 1 then
    let v := vcoPeriod s (outApll s n)
    { v with num := v.num * ((outDiv s n + 1) / 2) }
  else ⟨edgeWidth s n k, 1⟩

/-- The first cycle of an output that has been placed, at its ball: its active phase is high, and low with POL = 1 (R188); no
timing output is valid under EXTEST and the like (R508). -/
def showEdge (n : Nat) (s : State) : State :=
  let k := (outRt s n).first
  let p := activePhase s n k
  whenS (!jtagHolds s) (emit (.edge n k (ballAt s n k) p.num p.den (!flag s R.SYN_OUT_CFG_POL n))) s

/-- A SYN_OUT_DELAY that waited takes effect (R12). -/
def takeDelay (n : Nat) (s : State) : State :=
  match (outRt s n).delay with
  | some v => setF R.SYN_OUT_DELAY_DELAY v (setOut n { outRt s n with delay := none } s) n
  | none => s

/-- Take committed values: the eight words of R184's output registers. -/
def putOut (n : Nat) (ws : List Nat) (s : State) : State :=
  (List.range 8).foldl (fun s j => putWord (0x80400 + 0x40 * n + 4 * j) (ws.getD j 0) s) s

/-- The pending words of an output. -/
def pendOut (s : State) (n : Nat) : List Nat := (List.range 8).map fun j => wordOf s (0x80420 + 0x40 * n + 4 * j)

/-- The pending period of output `n` passes R70. -/
def pendPeriodOk (s : State) (n : Nat) : Bool := (getPeriod s 0x80424 0x40 n).ok

/-- The words that a commit of output `n` takes: a period that R70 rejects leaves the one in force. -/
def commitWords (s : State) (n : Nat) : List Nat :=
  if pendPeriodOk s n then pendOut s n
  else (List.range 8).map fun j => if 1 ≤ j && j ≤ 3 then wordOf s (0x80400 + 0x40 * n + 4 * j) else wordOf s (0x80420 + 0x40 * n + 4 * j)

/-- The DPLL of the source DCO is in FOLLOWING (R193); APLL1 needs none. -/
def alignable (s : State) (n : Nat) : Bool :=
  outMode s n ≠ 1 || outApll s n = 1 || dpllState s (apllDco s (outApll s n)) == stFOLLOWING

/-- Start the divider of a CLOCK output at `t` (R190): at the first VCO edge after it; with ORIGIN = 0 at the VCO edge nearest to the
first instant of R71 after `t` + 2 µs (R193). Where the VCO's edges lie the spec does not state (notes/assumptions/157.md). -/
def placeClock (n : Nat) (t : Int) (x : OutRt) (s : State) : State :=
  let vco := vcoUnits s (outApll s n)
  if outEpoch s n && alignable s n then
    let p := outPeriod s n
    let (r, s) := drawWithin (vco / 2) s
    showEdge n (setAligned n false (setOut n { x with eNum := r, eDen := 1, k0 := 0, placing := true
                                                      first := (t + 2 * unitUs) * p.den / ((p.num * 4294967296 : Nat) : Int) + 1 } s))
  else
    let (v, s) := drawInt s
    let s := setAligned n false (setOut n { x with eNum := t + 1 + v % vco, eDen := 1, k0 := 0, first := 0, placing := false } s)
    showEdge n (whenS (outEpoch s n) (fun s => raise R.SYN_OUT_EVENT_ALIGN_IGNORED s n) s)

/-- Place the first edges of an output that starts at `t` (R190): `origin` is the instant of START_AT where it was given, `late`
says that it has been missed. -/
def placeOut (n : Nat) (t : Int) (origin : Option Int) (late : Bool) (s : State) : State :=
  let x := { outRt s n with armed := none, want := false, sent := none, last := none }
  let two := t + 2 * unitUs
  let p := outPeriod s n
  let s := setOutState n oRUNNING s
  if outMode s n = 1 then placeClock n t x s
  else if outEpoch s n then
    let e := outOffset s n
    showEdge n (setAligned n false (setOut n { x with eNum := e, eDen := 1, k0 := 0, first := p.firstIndex e two, placing := true } s))
  else
    let e := outOffset s n + (match origin with | some o => o | none => (two + unitUs - 1) / unitUs * unitUs)
    let first := if origin.isSome && late then p.firstIndex e two else 0
    showEdge n (setAligned n false (setOut n { x with eNum := e, eDen := 1, k0 := 0, placing := false, first := first } s))

/-- Start output `n` at `t` (R190): while its source is unlocked it waits in RESTARTING; while its last active phase is under
way the start waits for the end of that phase. -/
def startOut (n : Nat) (t : Int) (origin : Option Int) (late : Bool) (s : State) : State :=
  if outMode s n = 0 then setOutState n oOFF s
  else if !apllLocked s (outApll s n) then setOutState n oRESTARTING (setOut n { outRt s n with armed := origin, want := false } s)
  else if (outRt s n).completing then setOutState n oRESTARTING (setOut n { outRt s n with armed := origin, want := true } s)
  else placeOut n t origin late s

/-- Stop output `n` under R189 and leave it in state `st`: a running output completes its active phase; values that waited for
a boundary are taken at the end of that phase. -/
def stopOut (n st : Nat) (s : State) : State :=
  let was := outState s n
  let x := outRt s n
  setAligned n false (setOutState n st (setOut n { x with armed := none, want := false, placing := false,
                                                          completing := x.completing || was == oRUNNING
                                                          last := if was = oRUNNING then some (edgeIndex s n (now s)) else x.last } s))

def outIds : List Nat := List.range 12

/-- A CLOCK output fed by APLL `j`. -/
def fedClock (s : State) (j n : Nat) : Bool := outMode s n = 1 && outApll s n == j

/-- APLL `j` stops feeding an output whose source it is, squelching it (R187): event SQUELCH. -/
def squelch (n : Nat) (s : State) : State := raise R.SYN_OUT_EVENT_SQUELCH (stopOut n oSQUELCHED s) n

/-- A re-alignment of output `n` (R193): ignored, or the output, or every CLOCK output of its APLL, stops and starts again. -/
def realignOut (n : Nat) (s : State) : State :=
  let bad := outState s n ≠ oRUNNING || !outEpoch s n || !alignable s n
  if bad then raise R.SYN_OUT_EVENT_ALIGN_IGNORED s n
  else
    let all := if outMode s n = 1 && outApll s n ≠ 1 then
        outIds.filter fun m => fedClock s (outApll s n) m && outEpoch s m && outState s m == oRUNNING
      else [n]
    all.foldl (fun s m => let s := stopOut m oRESTARTING s; setOut m { outRt s m with want := true } s) s

/-- The instant held in SYN_OUT_START_TIME. -/
def startTime (s : State) (n : Nat) : Int := (getT96 s 0x80804 0x40 n).units

/-- Arm output `n` for SYN_OUT_START_TIME (R190): late when less than 2 µs ahead, then it starts 2 µs after the write. -/
def armOut (n : Nat) (s : State) : State :=
  let t := startTime s n
  if t < now s + 2 * unitUs then
    startOut n (now s) (some t) true (raise R.SYN_OUT_EVENT_START_LATE s n)
  else setOutState n oARMED (setOut n { outRt s n with armed := some t } s)

/-- A write of SYN_OUT_CTL: STOP before START and REALIGN; a STOP and a START together leave the output stopped (R186). -/
def writeOutCtl (n val : Nat) (s : State) : State :=
  let s := setFlag R.SYN_OUT_CTL_START_AT (bitOf val 28) s n
  let s := whenS (bitOf val 30) (stopOut n oOFF) s
  let st := outState s n
  let s := if bitOf val 31 && !bitOf val 30 && outMode s n ≠ 0 then
      if st = oRUNNING ∨ st = oRESTARTING then s
      else if bitOf val 28 then armOut n s
      else startOut n (now s) none false s
    else s
  whenS (bitOf val 29) (realignOut n) s

/-! ### Commit (R184, R185) -/

/-- The running outputs fed by APLL `j` stop and enter RESTARTING; the APLL relocks without a loss of lock. -/
def relock (j : Nat) (s : State) : State :=
  let s := outIds.foldl (fun s n =>
    if fedClock s j n && (outState s n == oRUNNING) then stopOut n oRESTARTING s else s) s
  setF R.SYN_APLL_STAT_LOCK (putBit (getF s R.SYN_APLL_STAT_LOCK) j false) s

/-- DPLL `k` after a commit of its DCO's nominal (R185). -/
def nominalCommit (k : Nat) (s : State) : State :=
  let s := setDpll k { dpll s k with theta := 0, thSlew := 0 } s
  let st := dpllState s k
  if st = stACQUIRING ∨ st = stLOCKED then
    setDpllState k stACQUIRING (setDpll k { dpll s k with pboPending := true, sumE := 0, nE := 0, lastE := none, lockSince := none } s)
  else s

/-- The event that a failing unit raises. -/
def dcoNomOk (num den : Nat) : Bool := 1 ≤ den && 40000000 * den ≤ num && num ≤ 320000000 * den

/-- Limits of an output under the values `ws` (R184), `s` holding the APLLs as they will be. -/
def outOk (s : State) (n : Nat) (ws : List Nat) : Bool :=
  let t := putOut n ws s
  let p := getPeriod t 0x80404 0x40 n
  match outMode t n with
  | 0 => true
  | 1 => let j := outApll t n; decide (vcoNum t j ≤ 800000000 * outDiv t n * vcoDen t j)
  | _ =>
    let wide (w : Nat) : Bool := 8 ≤ w && decide ((w + 8) * p.den ≤ p.num)
    p.ok && decide (100 * p.den ≤ p.num) && decide (p.num ≤ 2000000000 * p.den) && wide (getF t R.SYN_OUT_WIDTH_WIDTH n)
      && (getF t R.SYN_OUT_SEQ_SEQ_LEN n < 2 || wide (getF t R.SYN_OUT_SEQW_SEQW n))

/-- An output in RESTARTING starts once its source is locked and its last active phase is over (R185, R190). -/
def restartCheck (n : Nat) (s : State) : State :=
  let x := outRt s n
  if outState s n = oRESTARTING ∧ !x.completing ∧ (outMode s n = 0 ∨ apllLocked s (outApll s n)) then
    startOut n (now s) x.armed x.armed.isSome s
  else s

/-- The committed values of output `n` take effect: now, in a stop and a start where MODE or SRC change, or in the run (R185). -/
def applyOut (n : Nat) (ws : List Nat) (s : State) : State :=
  let mode := outMode s n
  let src := getF s R.SYN_OUT_CFG_SRC n
  let div := outDiv s n
  let per := getPeriod s 0x80404 0x40 n
  let x := outRt s n
  let running := outState s n == oRUNNING
  let k := edgeIndex s n (now s)
  let oldP := outPeriod s n
  let s := putOut n ws (setOut n { x with take := none } s)
  if !running then restartCheck n s
  else if outMode s n ≠ mode ∨ (outMode s n = 1 ∧ srcApll (getF s R.SYN_OUT_CFG_SRC n) ≠ srcApll src) then
    startOut n (now s) none false (setAligned n false (setOutState n oOFF s))
  else if (mode = 1 ∧ outDiv s n ≠ div) ∨ (mode ≠ 1 ∧ getPeriod s 0x80404 0x40 n ≠ per) then
    let y : OutRt := { outRt s n with eNum := x.eNum * oldP.den + (k - x.k0) * (oldP.num * 4294967296) * x.eDen,
                                      eDen := x.eDen * oldP.den, k0 := k }
    setOut n y (if outEpoch s n then setAligned n false s else s)
  else s

/-- A write of SYN_COMMIT (R184): every named unit is checked; one that fails keeps its values and its pending bit. -/
def synCommit (val : Nat) (s : State) : State :=
  let dcoPend (k : Nat) : Nat × Nat :=
    (getF s R.SYN_DCO_NOM_PEND_NUM_LO k + getF s R.SYN_DCO_NOM_PEND_NUM_HI k * 2 ^ 32, getF s R.SYN_DCO_NOM_PEND_DEN k)
  let dcos := [1, 2, 3].filter fun k => bitOf val k
  let okD := dcos.filter fun k => dcoNomOk (dcoPend k).1 (dcoPend k).2
  let s := whenS (okD.length ≠ dcos.length) (fun s => raise R.SYN_EVENT_DCO_NOM_INVALID s) s
  let changedD := okD.filter fun k => dcoPend k ≠ (dcoNum s k, dcoDen s k)
  -- nominals as they will be, for the APLL checks
  let t := okD.foldl (fun t k => setF R.SYN_DCO_NOM_NUM_LO (dcoPend k).1 (setF R.SYN_DCO_NOM_NUM_HI ((dcoPend k).1 / 2 ^ 32)
    (setF R.SYN_DCO_NOM_DEN (dcoPend k).2 t k) k) k) s
  let apNew (j : Nat) : Nat × Nat := (getF s R.SYN_APLL_CFG_PEND_IN_SEL (j - 1), getF s R.SYN_APLL_CFG_PEND_FBDIV (j - 1))
  let aps := [3, 4].filter fun j => bitOf val (j + 3)
  let okA := aps.filter fun j =>
    let (i, fb) := apNew j
    let v := dcoNum t i * fb
    16 ≤ fb && fb ≤ 160 && decide (5000000000 * dcoDen t i ≤ v) && decide (v ≤ 6400000000 * dcoDen t i)
  let s := whenS (okA.length ≠ aps.length) (fun s => raise R.SYN_EVENT_APLL_CFG_INVALID s) s
  let changedA := okA.filter fun j => apNew j ≠ (apllDco s j, apllFb s j)
  let t := okA.foldl (fun t j => setF R.SYN_APLL_CFG_IN_SEL (apNew j).1 (setF R.SYN_APLL_CFG_FBDIV (apNew j).2 t (j - 1)) (j - 1)) t
  let outs := outIds.filter fun n => bitOf val (16 + n)
  let okO := outs.filter fun n => outOk t n (commitWords s n) && (pendPeriodOk s n || getF s R.SYN_OUT_CFG_PEND_MODE n < 2)
  let s := (outs.filter fun n => !pendPeriodOk s n).foldl
    (fun s n => raise R.FLT_GEN_EVENT_PERIOD_INVALID s 0 (0x8042C + 0x40 * n)) s
  let s := (outs.filter fun n => !okO.contains n).foldl (fun s n => raise R.SYN_OUT_EVENT_OUT_CFG_INVALID s n) s
  -- relocks of the APLLs that change or whose DCO changes
  let js := [3, 4].filter fun j => changedA.contains j || changedD.contains (apllDco s j)
  let s := js.foldl (fun s j => relock j s) s
  let s := okD.foldl (fun s k => setF R.SYN_DCO_NOM_NUM_LO (dcoPend k).1 (setF R.SYN_DCO_NOM_NUM_HI ((dcoPend k).1 / 2 ^ 32)
    (setF R.SYN_DCO_NOM_DEN (dcoPend k).2 s k) k) k) s
  let s := changedD.foldl (fun s k => nominalCommit k s) s
  let s := okA.foldl (fun s j => setF R.SYN_APLL_CFG_IN_SEL (apNew j).1
    (setF R.SYN_APLL_CFG_FBDIV (apNew j).2 (setF R.SYN_APLL_CFG_BW (getF s R.SYN_APLL_CFG_PEND_BW (j - 1)) s (j - 1)) (j - 1)) (j - 1)) s
  let s := whenS (bitOf val 4) (fun s => setF R.SYN_APLL_CFG_BW (getF s R.SYN_APLL_CFG_PEND_BW 0) s 0) s
  let s := (List.range 4).foldl (fun s k =>
    if bitOf val k && (k = 0 || okD.contains k) then
      reseed k (setF R.SYN_DCO_CFG_DITHER (getF s R.SYN_DCO_CFG_PEND_DITHER k)
        (setF R.SYN_DCO_CFG_SEED (getF s R.SYN_DCO_CFG_PEND_SEED k) s k) k)
    else s) s
  let s := okO.foldl (fun s n =>
    let ws := commitWords s n
    if outState s n = oRUNNING ∨ (outRt s n).completing then setOut n { outRt s n with take := some ws } s else applyOut n ws s) s
  -- pending bits of the units that took effect
  let clr (f : Fld) (b : Nat) (s : State) : State := setF f (putBit (getF s f) b false) s
  let s := okO.foldl (fun s n => clr R.SYN_PEND_OUT n s) s
  let s := okD.foldl (fun s k => clr R.SYN_PEND_DCO k s) s
  let s := whenS (bitOf val 0) (clr R.SYN_PEND_DCO 0) s
  let s := whenS (bitOf val 4) (setF R.SYN_PEND_APLL1 0) s
  let s := whenS (okA.contains 3) (setF R.SYN_PEND_APLL3 0) s
  whenS (okA.contains 4) (setF R.SYN_PEND_APLL4 0) s

/-! ### ToD messages (R195) -/

/-- CRC-16 with polynomial 0x1021 from 0xFFFF. -/
def crc16 (l : List Nat) : Nat :=
  l.foldl (fun r o => (List.range 8).foldl (fun r k =>
    let x := (if r ≥ 32768 then 1 else 0) + bitsOf o (7 - k) 1
    if x = 1 then Nat.xor (r * 2 % 65536) 0x1021 else r * 2 % 65536) r) 0xFFFF

/-- Bits per second of a rate code. -/
def todBaud (code : Nat) : Nat := [9600, 19200, 38400, 57600, 115200].getD code 9600

/-- How long the 26 octets take in 2^-32 ns: ten bits each. -/
def todLength (code : Nat) : Int := 260 * unitS / todBaud code

/-- The domain fields of a message for the active domain (R196). -/
def todFlags (s : State) : Nat × Nat :=
  let f (a b : Fld) : Nat := if s.tim.activeB then getF s b else getF s a
  (b2n s.tim.lastValid * 128 + f R.TIM_DOMA_CFG_TIMESCALE R.TIM_DOMB_CFG_TIMESCALE * 64
      + f R.TIM_DOMA_CFG_UTC_VALID R.TIM_DOMB_CFG_UTC_VALID * 32 + f R.TIM_DOMA_CFG_LEAP61 R.TIM_DOMB_CFG_LEAP61 * 16
      + f R.TIM_DOMA_CFG_LEAP59 R.TIM_DOMB_CFG_LEAP59 * 8 + b2n (dpllState s 0 == stHOLDOVER) * 4 + b2n s.tim.activeB * 2,
   f R.TIM_DOMA_CFG_UTC_OFFSET R.TIM_DOMB_CFG_UTC_OFFSET)

/-- The message for an edge at `t` (2^-32 ns). -/
def todMessage (s : State) (t : Int) : List Nat :=
  let ns := t / unitNs
  let (fl, utc) := todFlags s
  let body := [1, 20] ++ (List.range 6).map (fun k => toU 48 (ns / 1000000000) / 256 ^ (5 - k) % 256)
    ++ (List.range 4).map (fun k => (ns % 1000000000).toNat / 256 ^ (3 - k) % 256)
    ++ [fl, utc / 256 % 256, utc % 256, getF s R.SYN_TOD_QUAL_CLOCK_CLASS, getF s R.SYN_TOD_QUAL_CLOCK_ACCURACY,
        getF s R.SYN_TOD_QUAL_VARIANCE / 256, getF s R.SYN_TOD_QUAL_VARIANCE % 256, dpllState s 0, s.syn.todSeq % 256, 0]
  let c := crc16 body
  [0x4B, 0x5A] ++ body ++ [c / 256, c % 256]

/-- The output that TOD_OUT labels; codes 12 to 15 act as 0. -/
def todOut (s : State) : Nat := let n := getF s R.SYN_TOD_CFG_PPS_OUT; if n < 12 then n else 0

/-- DELAY_MS as it acts. -/
def todDelay (s : State) : Int := (satN 500 (zeroAs 1 (getF s R.SYN_TOD_CFG_DELAY_MS)) : Int) * unitMs

/-- SYN is up. -/
def synUp (s : State) : Bool := islUp s islSYN

/-- A paired message (R197): its scale, its VALID bit, and its label as a sample of TODPPS for the edge at `t`. -/
def todPair (octets : List Nat) (t : Int) (s : State) : State :=
  let be (off n : Nat) : Nat := ((octets.drop off).take n).foldl (fun a o => a * 256 + o) 0
  let fl := be 14 1
  let scale := if s.tim.activeB then getF s R.TIM_DOMB_CFG_TIMESCALE else getF s R.TIM_DOMA_CFG_TIMESCALE
  let drop (e : Fld) (s : State) : State := raise e (bump R.SYN_TOD_CNT_IN_ERR s)
  if bitsOf fl 6 1 ≠ scale then drop R.SYN_TOD_EVENT_TOD_SCALE_MISMATCH s
  else if !bitOf fl 7 then s
  else
    let sec := be 4 6
    let ns := be 10 4
    let s := bump R.SYN_TOD_CNT_IN_OK s
    let s := setF R.SYN_TOD_IN_LAST_NS ns (setF R.SYN_TOD_IN_LAST_SEC_LO sec (setF R.SYN_TOD_IN_LAST_SEC_HI (sec / 2 ^ 32)
      (setF R.SYN_TOD_IN_LAST_FLAGS fl (setF R.SYN_TOD_IN_LAST_SEQ (be 22 1) s))))
    let s := setCand 14 { cand s 14 with lastMsg := now s } s
    if timUp s then candSample 14 (t / 4194304) (((sec * 1000000000 + ns : Nat) : Int) * unitNs) s else s

end Sys2Proof.Machine
end

