-- ==== Sys2Proof/Machine/Tim.lean ====
section
/-!
DEFINITION. Sys2Proof/Machine/Tim.lean: the commands and events of the time scale (spec/02).
-/
namespace Sys2Proof.Machine

/-- One cycle of a convergence of the target toward 0 (R53, R67). -/
def convergeCycle (s : State) : State :=
  if s.tim.converging then
    let (rem, r5, done) := slewCycle (slewWord s) s.tim.target s.tim.convRes5
    { s with tim := { s.tim with target := rem, convRes5 := r5, converging := !done } }
  else s

/-- One cycle of the slew (R53). -/
def slewStep (s : State) : State :=
  if s.tim.slewRem = 0 then s
  else
    let (rem, r5, done) := slewCycle (slewWord s) s.tim.slewRem s.tim.slewRes5
    let s := { s with tim := { s.tim with slewRem := rem, slewRes5 := r5 } }
    if done then rateCheck (raise R.TIM_EVENT_SLEW_DONE s) else s

/-- One cycle of the blend: target and target rate at the present Last (R66). -/
def blendCycle (s : State) : State :=
  match s.tim.blend with
  | none => s
  | some b =>
    let (t, r) := blendAt b (now s - b.start)
    { s with tim := { s.tim with target := t, targetRate := r } }

/-- One cycle of DPLL `d`: theta integrates w_k over 1.6 ns (R158), a slewed phase write moves theta (R170), a slewed
re-alignment moves b toward 0 (R167). -/
def dpllCycle (d : Nat) (s : State) : State :=
  let x := dpll s d
  let th := if d = 0 then x.theta else x.theta + 8 * dpllW s d
  let (rem, r5, _) := slewCycle (slewWord s) x.thSlew x.thRes5
  let th := if x.thSlew = 0 then th else th + 5 * (x.thSlew - rem)
  let (b, br5, bdone) := slewCycle (slewWord s) x.b x.bRes5
  let active := x.realign && x.b ≠ 0
  let x' := { x with theta := th, thSlew := if x.thSlew = 0 then 0 else rem, thRes5 := if x.thSlew = 0 then x.thRes5 else r5,
                     b := if active then b else x.b, bRes5 := if active then br5 else x.bRes5,
                     realign := x.realign && !(active && bdone) }
  let s := setDpll d x' s
  if active && bdone then raise R.REF_DPLL_EVENT_REALIGN_DONE s d else s

/-- The increment of R42: 1.6 ns with the residue carry. -/
def Last.tick (l : Last) : Last :=
  let r := l.res + 3
  let extra := if r ≥ 5 then 1 else 0
  Last.ofUnits (l.units + 6871947673 + extra) (if r ≥ 5 then r - 5 else r)

/-- A DPLL that has left FREERUN under HO_REQ goes on to HOLDOVER in its next TIME cycle (R162). -/
def hoCycle (s : State) : State :=
  (List.range 4).foldl (fun s d =>
    let st := dpllState s d
    whenS (flag s R.REF_DPLL_CTL_HO_REQ d && dpllMode s d == .closed && (st == stACQUIRING || st == stLOCKED))
      (fun s => rateCheck (dpllEval d s)) s) s

/-- LAST_INCREMENT (R42, R53): one Last clock cycle while TIME runs, with the cycles of the DCOs that fall in it (R180). -/
def execLastIncrement (s : State) : Host.Outcome State Fault Refusal :=
  let s := tdcTick s.begin
  if timRuns s then
    let s := noteSteady s
    let was := clamped s
    let w := rateWord s
    let s := { s with tim := { s.tim with last := s.tim.last.tick, cyc := s.tim.cyc + 1 },
                      ref := { s.ref with rateSum := s.ref.rateSum + w, rateRuns := addRun w s.ref.rateRuns,
                                          wSum := s.ref.wSum + dpllW s 0, cycles := s.ref.cycles + 1 } }
    let s := dpllCycle 3 (dpllCycle 2 (dpllCycle 1 (dpllCycle 0 (blendCycle (convergeCycle (slewStep s))))))
    ran ((List.range 4).foldl (fun s k => dcoCycle k s) (hoCycle (switchUpdate (rateAged was s))))
  else ran s

/-- STEP_REQUEST (R49): a write of TIM_STEP +0x4. -/
def execStepRequest (req : Requester) (hi : Nat) (s : State) : Host.Outcome State Fault Refusal :=
  ran (writeAt req 0x40034
    (fun _ s => requestStep false false false (stagedS64 s req 0x40030 hi * 65536) s) s.begin)

/-- LAST_SET_REQUEST (R52): a write of TIM_LAST_SET +0x8. -/
def execLastSetRequest (req : Requester) (hi : Nat) (s : State) : Host.Outcome State Fault Refusal :=
  ran (timeWrite req 0x40020 hi (fun t _ s => requestStep true false false t.units s) s.begin)

/-- SERVO_PHASE_CORRECTION (R48): a correction of `amount` (2^-16 ns) posted by the servo firmware. -/
def servoCorrection (amount : Int) (s : State) : State :=
  let th := getF s R.TIM_SLEW_CFG_STEP_THRESH_US
  if th = 0 ∨ amount.natAbs ≤ th * 1000 * 65536 then addSlew amount s else requestStep false false true (amount * 65536) s

def execServoPhaseCorrection (amount : Int) (s : State) : Host.Outcome State Fault Refusal :=
  let s := s.begin
  ran (if timUp s then servoCorrection amount s else s)

/-- SLEW_REQUEST (R54): a write of TIM_SLEW +0x4. -/
def execSlewRequest (req : Requester) (hi : Nat) (s : State) : Host.Outcome State Fault Refusal :=
  ran (writeAt req 0x40054 (fun _ s => addSlew (stagedS64 s req 0x40050 hi) s) s.begin)

/-- The write of TIM_SLEW_CFG: SLEW_PPB 0 reads and acts as 1 (R53). -/
def writeSlewCfg (val : Nat) (s : State) : State :=
  rateCheck (setF R.TIM_SLEW_CFG_STEP_THRESH_US (bitsOf val 16 16)
    (setF R.TIM_SLEW_CFG_SLEW_PPB (zeroAs 1 (bitsOf val 0 16)) s))

/-- SLEW_CFG_WRITE (R53): the slew word follows SLEW_PPB from the next cycle; remainders keep their values. -/
def execSlewCfgWrite (req : Requester) (val : Nat) (s : State) : Host.Outcome State Fault Refusal :=
  ran (writeAt req 0x40048 (fun _ s => writeSlewCfg val s) s.begin)

/-- SLEW_DONE (R53): the last cycle of a slew, one whose remainder one cycle's gain covers. -/
def execSlewDone (s : State) : Host.Outcome State Fault Refusal :=
  let s := s.begin
  let (_, _, done) := slewCycle (slewWord s) s.tim.slewRem s.tim.slewRes5
  ran (if timRuns s && s.tim.slewRem ≠ 0 && done then slewStep s else s)

/-- DOMAIN_ESTIMATE_POST (R55, R58, R60, R61): the servo posts an estimate: offset in 2^-16 ns, rate in 2^-40, instant of
measurement in 2^-32 ns. -/
def postEstimate (b : Bool) (offset rate tMeas : Int) (s : State) : State :=
  if domEnabled s b then
    let e : DomEst := { posted := true, fresh := decide (now s - tMeas ≤ maxAge s), offset, rate, tMeas }
    let was := dom s b
    let s := setDom b e (setCand (ptpCand b) { cand s (ptpCand b) with lastMsg := now s } s)
    let s := whenS (was.fresh && !e.fresh) (raise R.TIM_EVENT_DOM_STALE) s
    activityCheck (weltCheck (weltUpdate (tMeas / unitNs) s))
  else s

/-- DOMAIN_STALE (R58): the estimate's age exceeds MAX_AGE_MS. -/
def execDomainStale (domB : Bool) (s : State) : Host.Outcome State Fault Refusal :=
  let s := s.begin
  ran (if (dom s domB).fresh && domAge s domB > maxAge s then
    activityCheck (weltCheck (raise R.TIM_EVENT_DOM_STALE (setDom domB { dom s domB with fresh := false } s)))
  else s)

/-- DOM_RELEASE ends the hold; selection then resumes under R155 (R514). -/
def releaseHold (s : State) : State :=
  if s.tim.domHeld then selectAll { s with tim := { s.tim with domHeld := false } } else s

/-- A change of WELT_ENA (R60, R61): 0 freezes the welt and makes it invalid; 1 leaves it uninitialised. -/
def setWeltEna (on : Bool) (s : State) : State :=
  let was := weltEna s
  let s := setFlag R.TIM_CTL_WELT_ENA on s
  if was = on then s else if on then weltUninit s else weltCheck s

/-- A write of TIM_CTL: adopt mode, welt enable, hold release, and the domain request of R63 and R64, which is one where DOM_REQ
names another domain than the one active at the write. On -ED a request for domain B is ignored under R59. -/
def writeTimCtl (val : Nat) (s : State) : State :=
  let same := bitOf val 0 == s.tim.activeB
  let s := setF R.TIM_CTL_ADOPT (bitsOf val 4 2) s
  let s := setWeltEna (bitOf val 6) s
  let s := whenS (bitOf val 1) releaseHold s
  let reqB := bitOf val 0
  if reqB && !domainB s then raise R.FLT_GEN_EVENT_GRADE_ABSENT_WRITE s
  else
    let s := setFlag R.TIM_CTL_SWITCH_AT (bitOf val 7) s
    if same ∨ reqB = s.tim.activeB then domReqSync { s with tim := { s.tim with armed := false } }
    else if bitOf val 7 then setFlag R.TIM_CTL_DOM_REQ reqB { s with tim := { s.tim with armed := true } }
    else softSwitch reqB (setFlag R.TIM_CTL_DOM_REQ reqB { s with tim := { s.tim with armed := false } })

/-- DOMAIN_SWITCH_REQUEST (R63): a write of TIM_CTL whose DOM_REQ names the other domain. -/
def execDomainSwitchRequest (req : Requester) (val : Nat) (s : State) : Host.Outcome State Fault Refusal :=
  ran (writeAt req 0x40000 (fun _ s => writeTimCtl val s) s.begin)

/-- SWITCH_ARM (R64): a write of TIM_CTL with SWITCH_AT = 1 and DOM_REQ naming the other domain. -/
def execSwitchArm (req : Requester) (val : Nat) (s : State) : Host.Outcome State Fault Refusal :=
  ran (writeAt req 0x40000 (fun _ s => writeTimCtl val s) s.begin)

/-- SWITCH_CANCEL (R64): a write of TIM_CTL that cancels the armed switch. -/
def execSwitchCancel (req : Requester) (val : Nat) (s : State) : Host.Outcome State Fault Refusal :=
  ran (writeAt req 0x40000 (fun _ s => writeTimCtl val s) s.begin)

/-- The armed switch at its instant (R64): applied or refused, and disarmed. -/
def timedSwitch (s : State) : State :=
  if s.tim.armed && now s ≥ (getT96 s 0x40060 0).units then
    let toB := !s.tim.activeB
    softSwitch toB { s with tim := { s.tim with armed := false } }
  else s

/-- SWITCH_TIME_WRITE (R64): a write of TIM_SWITCH_TIME +0x8; an armed switch whose instant is already past applies. -/
def execSwitchTimeWrite (req : Requester) (hi : Nat) (s : State) : Host.Outcome State Fault Refusal :=
  ran (timeWrite req 0x40060 hi (fun t _ s => timedSwitch (setT96 0x40060 0 t s)) s.begin)

/-- TIMED_SWITCH_INSTANT (R64): the Last reaches the armed instant. -/
def execTimedSwitchInstant (s : State) : Host.Outcome State Fault Refusal :=
  let s := s.begin
  ran (if timUp s then timedSwitch s else s)

/-- DOMAIN_RELEASE (R514): a write of TIM_CTL with DOM_RELEASE = 1. -/
def execDomainRelease (req : Requester) (val : Nat) (s : State) : Host.Outcome State Fault Refusal :=
  ran (writeAt req 0x40000 (fun _ s => writeTimCtl val s) s.begin)

/-- WELT_ENA_WRITE (R60): a write of TIM_CTL that changes WELT_ENA. -/
def execWeltEnaWrite (req : Requester) (val : Nat) (s : State) : Host.Outcome State Fault Refusal :=
  ran (writeAt req 0x40000 (fun _ s => writeTimCtl val s) s.begin)

/-- The end of the blend (R67): hold, converge, or a step of +target, held while a step is pending. -/
def blendEnd (b : Blend) (s : State) : State :=
  let (t, _) := blendAt b b.len
  let s := { s with tim := { s.tim with target := t, targetRate := 0, blend := none } }
  match getF s R.TIM_CTL_ADOPT with
  | 0 => s
  | 2 =>
    if s.tim.step.isSome then { s with tim := { s.tim with heldAdopt := true } }
    else requestStep false true false (s.tim.target / 65536) s
  | _ => { s with tim := { s.tim with converging := s.tim.target ≠ 0 } }

/-- BLEND_END (R67): the blend time ends. -/
def execBlendEnd (s : State) : Host.Outcome State Fault Refusal :=
  let s := s.begin
  ran (match s.tim.blend with
    | some b => if now s ≥ b.start + b.len then blendEnd b s else s
    | none => s)

/-- CONVERGE_DONE (R67): the last cycle of a convergence: the target reaches 0 and CONVERGING clears. -/
def execConvergeDone (s : State) : Host.Outcome State Fault Refusal :=
  let s := s.begin
  let (_, _, done) := slewCycle (slewWord s) s.tim.target s.tim.convRes5
  ran (if timRuns s && s.tim.converging && done then convergeCycle s else s)

end Sys2Proof.Machine
end

