-- ==== Sys2Proof/Machine/Pte.lean ====
section
/-!
DEFINITION. Sys2Proof/Machine/Pte.lean: the commands and events of the protocol engine (spec/04).
-/
namespace Sys2Proof.Machine

/-! ### Configuration writes -/

/-- A write of a domain's map (R109): rejected on an unused profile or a domain number out of range; a change of PROFILE gives
every instance of the domain the profile's default intervals at its next scheduled message. -/
def writeMap (b : Bool) (val : Nat) (s : State) : State :=
  let p := bitsOf val 20 4
  let r := profRow p
  let d := bitsOf val 0 8
  if p > 6 ∨ d < r.domLo ∨ r.domHi < d then raise R.PTE_EVENT_PROFILE_INVALID s 0
  else
    let changed := mapProfile s b ≠ p
    let off := if b then 0x60024 else 0x60020
    let put (lo w : Nat) (s : State) : State := setF ⟨off, lo, w, 0⟩ (bitsOf val lo w) s
    let s := put 31 1 (put 26 1 (put 24 2 (put 20 4 (put 16 4 (put 8 8 (put 0 8 s))))))
    let s := if changed then
        (List.range 64).foldl (fun s q => let i := q + 64 * b2n b; setPteInst i { pteInst s i with pend := some (profWord p) } s) s
      else s
    forceAll s

/-- DOMAIN_MAP_WRITE (R109). -/
def execDomainMapWrite (req : Requester) (domB : Bool) (val : Nat) (s : State) : Host.Outcome State Fault Refusal :=
  ran (writeAt req (if domB then 0x60024 else 0x60020) (fun _ s => writeMap domB val s) s.begin)

/-- INTERVAL_WRITE (R138, R122): the word waits for the instance's next scheduled message. -/
def execIntervalWrite (req : Requester) (val : Nat) (s : State) : Host.Outcome State Fault Refusal :=
  ran (writeAt req 0x60108 (fun i s => setPteInst i { pteInst s i with pend := some (val % 2 ^ 32) } s) s.begin)

/-- A write of PTE_PORT_STATE.STATE (R118, R120). -/
def writePortState (val i : Nat) (s : State) : State :=
  let st := bitsOf val 0 4
  if st = 0 ∨ st > 9 ∨ !flag s R.PTE_PORT_CFG_ENA i ∨ getF s R.PTE_PORT_STATE_FORCE_REASON i ≠ 0 then
    raise R.PTE_PORT_EVENT_STATE_WRITE_IGNORED s i
  else movePteState i st s

/-- The L1Sync state that the management firmware reports with a write (R135, notes/assumptions/151.md). -/
def reportL1 (req : Requester) (l1 : Option Nat) (i : Nat) (s : State) : State :=
  match l1 with
  | some v => if req = .mcu ∧ v ≤ 4 then setF R.PTE_PORT_STATE_L1SYNC_STATE v s i else s
  | none => s

/-- PORT_STATE_WRITE (R118), with the state of its L1Sync machine where the management firmware reports it (R135). -/
def execPortStateWrite (req : Requester) (w : PortStateSet) (s : State) : Host.Outcome State Fault Refusal :=
  ran (writeAt req 0x60104 (fun i s => writePortState w.val i (reportL1 req w.l1 i s)) s.begin)

/-- A write of PTE_PORT_CFG (R118): ENA to 0 disables, ENA to 1 initialises; a mechanism or mode change is fitted (R138). -/
def writePtePortCfg (val i : Nat) (s : State) : State :=
  let was := flag s R.PTE_PORT_CFG_ENA i
  let s := settle i s
  let s := setF R.PTE_PORT_CFG_TRANSPORT (bitsOf val 6 2) (setF R.PTE_PORT_CFG_UNICAST (bitsOf val 5 1)
    (setF R.PTE_PORT_CFG_NRR_SRC (bitsOf val 4 1) (setF R.PTE_PORT_CFG_PDELAY_2STEP (bitsOf val 3 1)
      (setF R.PTE_PORT_CFG_TWO_STEP (bitsOf val 2 1) (setF R.PTE_PORT_CFG_DELAY_MECH (bitsOf val 1 1)
        (setF R.PTE_PORT_CFG_ENA (bitsOf val 0 1) s i) i) i) i) i) i) i
  let ena := bitOf val 0
  let s := if was && !ena then
      pteForce i (setPteState i 3 s)
    else if !was && ena then pteForce i (setPteState i 1 s)
    else s
  fitLoad i s

/-- PORT_ENABLE_WRITE (R118). -/
def execPortEnableWrite (req : Requester) (val : Nat) (s : State) : Host.Outcome State Fault Refusal :=
  ran (writeAt req 0x60100 (writePtePortCfg val) s.begin)

/-- TALLY_INVALID_TIMEOUT (R120): the tally of port `p`'s timing lane has been invalid for more than 100 ms. -/
def execTallyInvalidTimeout (p : Nat) (s : State) : Host.Outcome State Fault Refusal :=
  let s := s.begin
  let x := tally s p
  ran (if !flag s R.TSU_TALLY_VALID p && now s > x.invalidSince + 100 * unitMs then
    forcePort p (setTally p { x with bad := true } s) else s)

/-! ### Scheduled messages (R122) -/

/-- Queue an event message for its transmit time (R93). -/
def queueTx (x : PtpTx) (s : State) : State :=
  monEvent 0x11 (instPort x.inst) none 0 1
    (bump R.PTE_CNT_TX_COUNT { s with pte := { s.pte with txq := s.pte.txq ++ [x] } } x.inst)

/-- An instance consumes an event message. -/
def pteRx (i : Nat) (s : State) : State := monEvent 0x12 (instPort i) none 0 1 (bump R.PTE_CNT_RX_COUNT s i)

/-- A grandmaster domain's instance sends no Sync, Follow_Up or Announce before the Last is valid (R121). -/
def gmSilent (s : State) (i : Nat) : Bool := mapGm s (instB i) && !s.tim.lastValid

/-- A grant under which a unicast message of type `m` to a partner is due. -/
def unicastDue (s : State) (i addr pid m : Nat) : Bool :=
  s.pte.partners.any fun p => p.inst == i && p.addr == addr && p.pid == pid && p.grants.any fun g =>
    g.mtype == m && decide (now s ≤ g.expiry) && (match g.last with | some t => decide (now s ≥ t + logUnits g.log) | none => true)

/-- The Sync of an instance: two-step under R117; the rate information of R134 on the message that carries the TLV. -/
def sendSync (i : Nat) (dest : Option Nat) (s : State) : State :=
  let x := pteInst s i
  let two := flag s R.PTE_PORT_CFG_TWO_STEP i
  let rate := if mapProfile s (instB i) = 3 then some (cumRate s (instB i)) else none
  let m := { ptpMsg s i 0 x.seqSync with twoStep := two, rate := rate }
  queueTx ⟨i, m, two, none, dest⟩ (setPteInst i { x with seqSync := (x.seqSync + 1) % 65536 } s)

/-- SYNC_TRANSMIT (R122): by multicast at the staggered instant, or, `dest` given, to a granted partner at its interval. -/
def execSyncTransmit (i : Nat) (dest : Option (Nat × Nat)) (s : State) : Host.Outcome State Fault Refusal :=
  let s := s.begin
  ran (if pteOn s i && pteState s i == 6 && !gmSilent s i then
    match dest with
    | none =>
      if !flag s R.PTE_PORT_CFG_UNICAST i && decide (schedAfter (logSync s i) (instPort i) (pteInst s i).lastSync ≤ now s) then
        sendSync i none (applyInterval i (setPteInst i { pteInst s i with lastSync := now s } s))
      else s
    | some (a, p) =>
      let s := partnerRead i a p s
      if unicastDue s i a p 0 then
        match useGrant i a p 0 s with
        | some s => sendSync i (some a) s
        | none => s
      else s
    else s)

/-- The Announce of an instance: the firmware's template with the hardware's sequenceId. -/
def sendAnnounce (i : Nat) (dest : Option Nat) (s : State) : State :=
  let x := pteInst s i
  sendPtp i (ptpMsg s i 11 x.seqAnn) dest (setPteInst i { x with seqAnn := (x.seqAnn + 1) % 65536 } s)

/-- What the firmware has made of the template of instance `i` since the message before (notes/assumptions/150.md). -/
def setTemplate (i : Nat) (tmpl : Option (List Nat)) (s : State) : State :=
  match tmpl with
  | some l => { s with pte := { s.pte with templates := smPut [] s.pte.templates i l } }
  | none => s

/-- ANNOUNCE_TRANSMIT (R122, R116). -/
def execAnnounceTransmit (i : Nat) (out : AnnounceOut) (s : State) : Host.Outcome State Fault Refusal :=
  let s := setTemplate i out.tmpl s.begin
  ran (if pteOn s i && pteState s i == 6 && !gmSilent s i then
    match out.dest with
    | none =>
      if decide (schedAfter (logAnn s i) (instPort i) (pteInst s i).lastAnn ≤ now s) then
        sendAnnounce i none (applyInterval i (setPteInst i { pteInst s i with lastAnn := now s } s))
      else s
    | some (a, p) =>
      let s := partnerRead i a p s
      if unicastDue s i a p 11 then
        match useGrant i a p 11 s with
        | some s => sendAnnounce i (some a) s
        | none => s
      else s
    else s)

/-- PDELAY_REQ_TRANSMIT (R122): a P2P instance from LISTENING to SLAVE. -/
def execPdelayReqTransmit (i : Nat) (s : State) : Host.Outcome State Fault Refusal :=
  let s := s.begin
  ran (if pdOn s i
      && decide (schedAfter (logPd s i) (instPort i) (pteInst s i).lastPd ≤ now s) then
    let s := applyInterval i (setPteInst i { pteInst s i with lastPd := now s } s)
    let x := pteInst s i
    queueTx ⟨i, ptpMsg s i 2 x.seqPd, false, none, none⟩
      (setPteInst i { x with seqPd := (x.seqPd + 1) % 65536, pd := some ⟨x.seqPd, none, 0, none⟩ } s)
    else s)

/-- DELAY_REQ_TRANSMIT (R122, R125): a ninth drops the oldest that waits. -/
def execDelayReqTransmit (i : Nat) (s : State) : Host.Outcome State Fault Refusal :=
  let s := s.begin
  ran (match (pteInst s i).dueDelay with
    | some t =>
      if pteOn s i && isSlave s i && !isP2P s i && decide (t ≤ now s) then
        let s := drawDelay i (applyInterval i s)
        let x := pteInst s i
        let full := decide (x.wait.length ≥ 8)
        let s := whenS full (pteDrop i) s
        let w := if full then x.wait.drop 1 else x.wait
        let lim := min (4 * logUnits (logDelay s i)) unitS
        let s := setPteInst i { x with wait := w ++ [⟨x.seqDelay, none, 0, now s + lim⟩],
                                       seqDelay := (x.seqDelay + 1) % 65536 } s
        queueTx ⟨i, ptpMsg s i 1 x.seqDelay, false, none, none⟩ s
      else s
    | none => s)

/-! ### The transmit time returns (R93, R117, R133) -/

/-- The insertion of a message once its transmit time is known (R98, R99, R133): whether TS_WRITE is made, the domain time that it
writes, and the addition to correctionField; none where the turnaround spans steps. -/
def insertion (s : State) (x : PtpTx) (tx : TxTime) : Option (Bool × Int × Int) :=
  let t := rdiv tx.t 65536
  let v := t + domOff s (instB x.inst) t
  match x.msg.kind with
  | 0 => some (if x.twoStep then (false, 0, 0) else (true, v, fracNs v))
  | 1 => some (true, v, fracNs v)
  | 3 =>
    if x.twoStep then some (false, 0, 0)
    else
      match x.rx with
      | some (r, n) => (residence tx r n).map fun d => (true, 0, inDomain s (some (instB x.inst)) d)
      | none => some (true, 0, 0)
  | _ => some (false, 0, 0)

/-- The message after its insertion. -/
def inserted (m : PtpMsg) (v : Bool × Int × Int) : PtpMsg := { m with ts := if v.1 then wholeNs v.2.1 else m.ts, cf := cfAdd m.cf v.2.2 }

/-- What the engine keeps once the transmit time is known: t3 of a Delay_Req, t1 of a Pdelay_Req, the Follow_Up of a two-step
message (R117). -/
def keepTx (x : PtpTx) (tx : TxTime) (s : State) : State :=
  let i := x.inst
  let t := rdiv tx.t 65536
  let p := pteInst s i
  let ep := tx.count % 4
  let v := t + domOff s (instB i) t
  let fup (kind : Nat) (cf : Int) (s : State) : State :=
    let m := { x.msg with kind := kind, twoStep := false, ts := wholeNs v, cf := cfAdd cf (fracNs v) }
    { s with pte := { s.pte with fups := s.pte.fups ++ [(i, m, x.dest)] } }
  match x.msg.kind with
  | 0 => if x.twoStep then fup 8 x.msg.cf s else s
  | 1 => setPteInst i { p with wait := p.wait.map fun w => if w.seq = x.msg.seq then { w with t3 := some t, epoch := ep } else w } s
  | 2 =>
    match p.pd with
    | some q => if q.seq = x.msg.seq then setPteInst i { p with pd := some { q with t1 := some t, epoch := ep } } s else s
    | none => s
  | 3 => if x.twoStep then fup 10 0 s else s
  | _ => s

/-- The message leaves with its insertion, or is discarded where the turnaround spans steps (R99). -/
def sendInserted (x : PtpTx) (tx : TxTime) (s : State) : State :=
  let port := instPort x.inst
  match insertion s x tx with
  | some v =>
    let l := editTime (engineIns s x.inst x.msg v.1) v.2.1 v.2.2 0 (ptpFrame s x.inst x.msg x.dest)
    emit (.ptp x.inst (inserted x.msg v) (framed l)) (bump R.TSU_CNT_INS_COUNT s port)
  | none =>
    raise R.TSU_EVENT_RESIDENCE_SPAN_STEP (bump R.TSU_CNT_NOINS_COUNT (sumpCount 0x19 port (some (port, getF s R.PTE_GCFG_PTP_TC)) s) port) port

/-- TX_TIME_RETURN (R76, R93): the oldest message on port `port` leaves; `back` and `uIns` place its SOF octet (R91). -/
def execTxTimeReturn (port back : Nat) (uIns : Int) (s : State) : Host.Outcome State Fault Refusal :=
  let s := s.begin
  ran (match s.pte.txq.find? fun x => instPort x.inst == port with
    | none => s
    | some x =>
      let s := freeReload (quadOf port) { s with pte := { s.pte with txq := s.pte.txq.erase x } }
      if !txTsOn s port then sendPtp x.inst x.msg x.dest (bump R.TSU_CNT_NOINS_COUNT s port)
      else
        let tx := txTime s port back uIns
        let s := keepTx x tx (formTx port tx s)
        if flag s R.TSU_CTL_ONESTEP_ENA port then sendInserted x tx s
        else sendPtp x.inst x.msg x.dest (bump R.TSU_CNT_NOINS_COUNT s port))

/-- FOLLOW_UP_TRANSMIT (R117): the oldest Follow_Up due of instance `i`. -/
def execFollowUpTransmit (i : Nat) (s : State) : Host.Outcome State Fault Refusal :=
  let s := s.begin
  ran (match s.pte.fups.find? fun x => x.1 == i with
    | none => s
    | some x =>
      let s := { s with pte := { s.pte with fups := s.pte.fups.erase x } }
      if (pteOn s i && x.2.1.kind == 8 && !gmSilent s i && pteState s i == 6) || (pdOn s i && x.2.1.kind == 10) then sendPtp i x.2.1 x.2.2 s else s)

/-! ### Receives (R116) -/

/-- A frame the engine takes, once it has ended well: its instance and its message. -/
def engineFrame (s : State) (f : Nat) : Option (Frame × Nat × PtpMsg) :=
  match frameAt s f with
  | some x =>
    match x.engine, x.ptp with
    | some i, some m => if x.ended && x.bad.isNone && timUp s then some (x, i, m) else none
    | _, _ => none
  | none => none

/-- A forwarded event message or Follow_Up passes TIME (R123, R124). -/
def tForward (f : Nat) (s : State) : State :=
  match frameAt s f with
  | none => s
  | some x =>
    match x.ptp with
    | none => s
    | some m =>
      if !x.tfwd then s
      else
        let b := x.dom == some 1
        let p2p := x.dom.isSome && mapRole s b == 2
        let i := x.port % 64 + 64 * b2n b
        let mpd := if p2p then getWS s R.PTE_MPD_MPD_LO R.PTE_MPD_MPD_HI i else 0
        let pz := parse (x.octets.take 128)
        let off := pz.ptpOff.getD 0
        let len := beAt x.octets (off + 2) 2
        let udp := if pz.l3 = 0 then 0 else pz.l4Off
        let trailer := if pz.l3 = 2 ∧ beAt x.octets (pz.l4Off + 4) 2 ≥ 8 + len + 2 then some (off + len) else none
        let base : Ins := { tsWrite := none, residence := true, addend := none, cfOff := off + 8, dom := x.dom.map id
                            udpOff := udp, ipv6 := pz.l3 == 2, trailer := trailer }
        if m.isEvent then
          if m.kind = 0 ∧ m.twoStep then setFrame f (some { x with tfwd := false }) s
          else
            let ins := { base with addend := if m.kind = 0 ∧ p2p then some mpd else none }
            setFrame f (some { x with tfwd := false, ins := some ins }) s
        else
          let outs := match x.ing with | some g => g.dests | none => []
          let s := outs.foldl (fun s o => corrRead o (x.dom.getD 2) m.src m.seq s) s
          let found := outs.map fun o => (o, corrFind s o (x.dom.getD 2) m.src m.seq)
          let missing := found.any fun p => p.2.isNone
          let adds := found.filterMap fun p => match p.2 with
            | some e => some (p.1, e.res + mpd)
            | none => none
          let s := if missing then pteDrop i (raise R.PTE_EVENT_FUP_MISSING s) else s
          setFrame f (some { x with tfwd := false, adds := adds,
                                    ins := if adds.isEmpty then none else some { base with residence := false } }) s

/-- TRANSPARENT_FORWARD (R123, R124). -/
def execTransparentForward (f : Nat) (s : State) : Host.Outcome State Fault Refusal :=
  let s := s.begin
  ran (if timUp s then tForward f s else s)

/-- SYNC_RECEIVE (R129): a one-step Sync is accepted; a two-step Sync waits for its Follow_Up. -/
def execSyncReceive (f : Nat) (s : State) : Host.Outcome State Fault Refusal :=
  let s := s.begin
  ran (match engineFrame s f with
    | none => s
    | some (x, i, m) =>
      if m.kind ≠ 0 then s
      else
        let s := setFrame f none s
        if !(pteOn s i && isSlave s i) then s
        else
          let s := pteRx i s
          match usableRx x with
          | none => s
          | some r =>
            if m.twoStep then
              setPteInst i { pteInst s i with two := some ⟨m.seq, m.src, r.t16, m.cf, r.lastInvalid, r.epoch⟩ } s
            else
              let s := match m.rate with | some v => setPteInst i { pteInst s i with rho := v } s | none => s
              acceptSync i m.ts r.t16 m.cf r.lastInvalid r.epoch s)

/-- FOLLOW_UP_RECEIVE (R116, R124): matched to the Sync of the same source and sequenceId, or to the forwarded Sync's entry. -/
def execFollowUpReceive (f : Nat) (s : State) : Host.Outcome State Fault Refusal :=
  let s := s.begin
  ran (match engineFrame s f with
    | none => if timUp s then tForward f s else s
    | some (_, i, m) =>
      if m.kind ≠ 8 then s
      else
        let s := setFrame f none s
        if !(pteOn s i && isSlave s i) then s
        else
          match (pteInst s i).two with
          | none => s
          | some w =>
            if w.seq = m.seq ∧ w.src = m.src then
              let s := match m.rate with | some v => setPteInst i { pteInst s i with rho := v } s | none => s
              acceptSync i m.ts w.t2 (w.cs + m.cf) w.lastInvalid w.epoch s
            else s)

/-- DELAY_REQ_RECEIVE (R133, R137): answered under a grant or a token; only granted partners on a unicast instance. -/
def execDelayReqReceive (f : Nat) (s : State) : Host.Outcome State Fault Refusal :=
  let s := s.begin
  ran (match engineFrame s f with
    | none => s
    | some (x, i, m) =>
      if m.kind ≠ 1 then s
      else
        let s := setFrame f none s
        if !(pteOn s i && pteState s i == 6) then s
        else
          let s := pteRx i s
          match usableRx x with
          | none => s
          | some r =>
            let answer (s : State) : State :=
              let v := r.t16 + domOff s (instB i) r.t16
              sendPtp i { ptpMsg s i 9 m.seq with ts := wholeNs v, cf := cfAdd m.cf (-(fracNs v)), req := m.src }
                (if flag s R.PTE_PORT_CFG_UNICAST i then some (senderAddr x) else none) s
            let s := partnerRead i (senderAddr x) m.src s
            match useGrant i (senderAddr x) m.src 9 s with
            | some s => answer s
            | none =>
              let known := s.pte.partners.any fun p => p.inst == i && p.addr == senderAddr x && p.pid == m.src && p.grants.any (·.mtype == 9)
              if flag s R.PTE_PORT_CFG_UNICAST i && !known then s
              else
                let (ok, s) := takeToken i s
                if ok then answer s else s)

/-- The path delay of R125 for an exchange, with the latest Sync received before its t3. -/
def delayExchange (i : Nat) (w : DReq) (t4 cd : Int) (s : State) : State :=
  match w.t3 with
  | none => s
  | some t3 =>
    match (pteInst s i).syncs.find? fun y => decide (y.2.1 < t3) with
    | none => s
    | some (t1, t2, cs, ep) =>
      if ep ≠ w.epoch then raise R.PTE_PORT_EVENT_EXCHANGE_SPAN_STEP s i
      else filterAdd i (((t2 - t3) + (t4 - t1) - cs - cd) / 2) s

/-- DELAY_RESP_RECEIVE (R125): matched by sequenceId and requestingPortIdentity, within its limit. -/
def execDelayRespReceive (f : Nat) (s : State) : Host.Outcome State Fault Refusal :=
  let s := s.begin
  ran (match engineFrame s f with
    | none => s
    | some (_, i, m) =>
      if m.kind ≠ 9 then s
      else
        let s := setFrame f none s
        if !(pteOn s i && isSlave s i && m.req == portIdent s i) then s
        else
          let x := pteInst s i
          match x.wait.find? fun w => w.seq == m.seq && w.t3.isSome && decide (now s ≤ w.limit) with
          | none => s
          | some w => delayExchange i w m.ts m.cf (setPteInst i { x with wait := x.wait.erase w } s))

/-- DELAY_REQ_TIMEOUT (R125): every Delay_Req of the instance past its limit is dropped and counted. -/
def execDelayReqTimeout (i : Nat) (s : State) : Host.Outcome State Fault Refusal :=
  let s := s.begin
  let x := pteInst s i
  let late := x.wait.filter fun w => decide (w.limit ≤ now s)
  ran (late.foldl (fun s _ => pteDrop i s)
    (setPteInst i { x with wait := x.wait.filter fun w => !decide (w.limit ≤ now s) } s))

/-- PDELAY_REQ_RECEIVE (R117, R133, R137): answered by a P2P instance from LISTENING to SLAVE. -/
def execPdelayReqReceive (f : Nat) (s : State) : Host.Outcome State Fault Refusal :=
  let s := s.begin
  ran (match engineFrame s f with
    | none => s
    | some (x, i, m) =>
      if m.kind ≠ 2 then s
      else
        let s := setFrame f none s
        if !(pdOn s i) then s
        else
          let s := pteRx i s
          match usableRx x with
          | none => s
          | some r =>
            let answer (s : State) : State :=
              let two := flag s R.PTE_PORT_CFG_PDELAY_2STEP i
              let v := r.t16 + domOff s (instB i) r.t16
              let a := { ptpMsg s i 3 m.seq with req := m.src, twoStep := two }
              let a := if two then { a with ts := wholeNs v, cf := -(fracNs v) } else { a with cf := m.cf }
              queueTx ⟨i, a, two, some (r.t16, x.stepCount), none⟩ s
            let s := partnerRead i (senderAddr x) m.src s
            match useGrant i (senderAddr x) m.src 3 s with
            | some s => answer s
            | none =>
              let (ok, s) := takeToken i s
              if ok then answer s else s)

/-- The rate ratio's reference, and y from two-step responses eight exchanges apart (R127). -/
def nrrTwoStep (i : Nat) (t3 t4 : Int) (s : State) : State :=
  let x := pteInst s i
  match x.nrr with
  | none => setPteInst i { x with nrr := some (t3, t4, 0) } s
  | some (a3, a4, n) =>
    if n + 1 < 8 then setPteInst i { x with nrr := some (a3, a4, n + 1) } s
    else
      let d3 := t3 - a3
      let d4 := t4 - a4
      let s := setPteInst i { x with nrr := some (t3, t4, 0) } s
      if d4 = 0 then s else setF R.PTE_NRR_Y (toU 32 ((d3 - d4) * 1099511627776 / d4)) s i

/-- y from the tally of the port's timing lane (R127). -/
def nrrTally (i : Nat) (s : State) : State :=
  match (tally s (instPort i)).y with
  | some y => setF R.PTE_NRR_Y (toU 32 y) s i
  | none => s

/-- The link delay of R126 from t1, t4 and the turnaround. -/
def linkDelay (i : Nat) (t1 t4 turn : Int) (s : State) : State :=
  let y := getS s R.PTE_NRR_Y i
  filterAdd i (((t4 - t1) * (1099511627776 + y) - turn * 1099511627776) / 2199023255552) s

/-- PDELAY_RESP_RECEIVE (R126): a one-step response completes the exchange; a two-step one waits for its Follow_Up. -/
def execPdelayRespReceive (f : Nat) (s : State) : Host.Outcome State Fault Refusal :=
  let s := s.begin
  ran (match engineFrame s f with
    | none => s
    | some (x, i, m) =>
      if m.kind ≠ 3 ∧ m.kind ≠ 10 then s
      else
        let s := setFrame f none s
        let p := pteInst s i
        if !(pdOn s i && m.req == portIdent s i) then s
        else
          match p.pd with
          | none => if m.kind = 3 then pteRx i s else s
          | some q =>
            if m.kind = 3 then
              let s := pteRx i s
              match usableRx x, q.t1 with
              | some r, some t1 =>
                if q.seq ≠ m.seq then s
                else if r.epoch ≠ q.epoch then
                  raise R.PTE_PORT_EVENT_EXCHANGE_SPAN_STEP (setPteInst i { pteInst s i with pd := none } s) i
                else if m.twoStep then
                  setPteInst i { pteInst s i with pd := some { q with resp := some (r.t16, m.ts, m.cf) } } s
                else
                  linkDelay i t1 r.t16 m.cf (nrrTally i (setPteInst i { pteInst s i with pd := none } s))
              | _, _ => s
            else
              match q.resp, q.t1 with
              | some (t4, t2, _), some t1 =>
                if q.seq ≠ m.seq then s
                else
                  let s := setPteInst i { pteInst s i with pd := none } s
                  let s := if flag s R.PTE_PORT_CFG_NRR_SRC i then nrrTally i s else nrrTwoStep i m.ts t4 s
                  linkDelay i t1 t4 (m.ts - t2) s
              | _, _ => s)

/-- GENERAL_MESSAGE_RECEIVE (R116, R141): Announce, Signaling and Management reach the management firmware through P65 under
the device's bucket. -/
def execGeneralMessageReceive (f : Nat) (s : State) : Host.Outcome State Fault Refusal :=
  let s := s.begin
  ran (match engineFrame s f with
    | none => s
    | some (x, i, m) =>
      if m.kind < 11 then s
      else
        let s := setFrame f none s
        if !(timUp s && flag s R.PTE_GCFG_ENA && mapEna s (instB i)) then s
        else if !transparent s (instB i) && pteState s i < 4 then s
        else
          let (ok, s) := fwToken s
          if ok then emit (.frame 65 x.octets (p65Record x) false) s else pteDrop i s)

/-- FUP_ENTRY_TIMEOUT (R124): entries that have reached the limit are freed. -/
def execFupEntryTimeout (s : State) : Host.Outcome State Fault Refusal :=
  let s := s.begin
  ran { s with pte := { s.pte with corr := s.pte.corr.filter fun e => decide (now s - e.at32 < fupLimit s) } }

/-- SYNC_TIMEOUT (R131). -/
def execSyncTimeout (i : Nat) (s : State) : Host.Outcome State Fault Refusal :=
  let s := s.begin
  let x := pteInst s i
  let lim := (zeroAs 1 (getF s R.PTE_TIMEOUT_SYNC_RCPT i) : Int) * logUnits (logSync s i)
  ran (if isSlave s i && !x.syncLost && decide (now s ≥ x.syncAt + lim) then
    raise R.PTE_PORT_EVENT_SYNC_TIMEOUT (setPteInst i { x with syncLost := true } s) i else s)

/-- DOMAIN_ESTIMATE_POST (R55, R130): the servo posts an estimate (offset in 2^-16 ns, rate in 2^-40, instant in 2^-32 ns):
the one given, or the one it forms from its queue. -/
def execDomainEstimatePost (domB : Bool) (est : Option (Int × Int × Int)) (s : State) : Host.Outcome State Fault Refusal :=
  let s := s.begin
  ran (if timUp s && servoRuns s then
    match est with
    | some (o, r, t) => postEstimate domB o r t s
    | none =>
      match servoEstimate domB s with
      | (some (o, r, t), s) => postEstimate domB o r t s
      | (none, s) => s
    else s)

/-! ### Unicast grants (R139, R140) -/

/-- The profile's range of a message type; none for a type that is never granted. -/
def grantRange (s : State) (i m : Nat) : Option (Int × Int) :=
  let r := profRow (mapProfile s (instB i))
  if m = 0 then some r.sync.2 else if m = 9 ∨ m = 3 then some r.delay.2 else if m = 11 then some r.ann.2 else none

/-- MAX_DURATION_S as it acts. -/
def maxDuration (s : State) : Nat :=
  let d := getF s R.PTE_UNI_CFG_MAX_DURATION_S
  if d < 10 then 10 else if d > 1000 then 1000 else d

/-- The grant of a partner for a message type, one that expires now included (R140). -/
def grantOf (s : State) (i addr pid m : Nat) : Option Grant :=
  ((s.pte.partners.filter fun p => p.inst == i && p.addr == addr && p.pid == pid).flatMap (·.grants)).find? fun g =>
    g.mtype == m && decide (now s ≤ g.expiry)

/-- Deny a request. -/
def denyGrant (i addr pid m : Nat) (log : Int) (s : State) : State :=
  emit (.grant i addr pid m log 0) (bump R.PTE_CNT_DENY_COUNT (raise R.PTE_PORT_EVENT_UNICAST_DENIED s i) i)

/-- Give a grant. -/
def giveGrant (i addr pid m : Nat) (log : Int) (dur : Nat) (s : State) : State :=
  let s := settle i s
  let d := min dur (maxDuration s)
  let g : Grant := ⟨m, log, now s + d * unitS, s.pte.grantNo, none⟩
  let isP (p : Partner) : Bool := p.inst == i && p.addr == addr && p.pid == pid
  let k := freePlace (s.pte.partners.map (·.slot))
  let ps := if s.pte.partners.any isP then
      s.pte.partners.map fun p => if isP p then { p with grants := p.grants.filter (·.mtype != m) ++ [g] } else p
    else s.pte.partners ++ [⟨k, i, addr, pid, [g]⟩]
  let s := whenS (!s.pte.partners.any isP) (fullWrite 14 (1024 + k)) s
  let s := { s with pte := { s.pte with partners := ps, grantNo := s.pte.grantNo + 1 } }
  let s := setF R.PTE_GSTAT_PARTNERS ps.length s
  let s := if getF s R.PTE_GSTAT_PARTNERS_PEAK < ps.length then setF R.PTE_GSTAT_PARTNERS_PEAK ps.length s else s
  emit (.grant i addr pid m log d) s

/-- Rules 1 to 4 of R139. -/
def unicastRequest (i addr pid m : Nat) (log : Int) (dur : Nat) (s : State) : State :=
  let s := dropGrants (fun _ g => decide (g.expiry < now s)) (settle i (partnerRead i addr pid s))
  let inRange := match grantRange s i m with | some (lo, hi) => decide (lo ≤ log ∧ log ≤ hi) | none => false
  if !flag s R.PTE_UNI_CFG_ENA ∨ dur = 0 ∨ !inRange then denyGrant i addr pid m log s
  else
    let old := grantOf s i addr pid m
    let newCost := grantCost ⟨m, log, 0, 0, none⟩
    let oldCost := match old with | some g => grantCost g | none => 0
    if old.isSome ∧ newCost ≤ oldCost then giveGrant i addr pid m log dur s
    else
      let known := s.pte.partners.any fun p => p.inst == i && p.addr == addr && p.pid == pid
      let room := known || s.pte.partners.length < 512
      let fits := decide (committed s i - oldCost + newCost ≤ (2048 - 16 * getF s R.PTE_UNI_CFG_DREQ_RESERVE) * 1024)
      if room && fits then giveGrant i addr pid m log dur s
      else denyGrant i addr pid m log (whenS (!room) (raise R.PTE_EVENT_PARTNER_TABLE_FULL) s)

/-- UNICAST_REQUEST (R139): the firmware answers a REQUEST_UNICAST_TRANSMISSION TLV. -/
def execUnicastRequest (i addr pid mtype : Nat) (log : Int) (dur : Nat) (s : State) : Host.Outcome State Fault Refusal :=
  let s := s.begin
  ran (if flag s R.FWT_STATUS_MGMT_RUN && i < 128 && instPresent s 6 i then unicastRequest i addr pid mtype log dur s else s)

/-- UNICAST_CANCEL (R140): the grant ends, its units return, ACKNOWLEDGE_CANCEL answers. -/
def execUnicastCancel (i addr pid mtype : Nat) (s : State) : Host.Outcome State Fault Refusal :=
  let s := s.begin
  ran (if flag s R.FWT_STATUS_MGMT_RUN then
    emit (.cancel i addr pid mtype true)
      (dropGrants (fun p g => p.inst == i && p.addr == addr && p.pid == pid && g.mtype == mtype) (settle i s))
    else s)

/-- GRANT_EXPIRY (R140): grants whose expiry instant is reached end. -/
def execGrantExpiry (i : Nat) (s : State) : Host.Outcome State Fault Refusal :=
  let s := s.begin
  ran (dropGrants (fun p g => p.inst == i && decide (g.expiry ≤ now s)) (settle i s))

end Sys2Proof.Machine
end

