-- ==== Sys2Proof/Machine/Tsu.lean ====
section
/-!
DEFINITION. Sys2Proof/Machine/Tsu.lean: the commands and events of the tallies, timestamps and frame reception (spec/03).
-/
namespace Sys2Proof.Machine

/-- Lane `n`'s island works. -/
def laneUp (s : State) (n : Nat) : Bool := n < 64 && frontPresent s n && islUp s (islLANE (quadOf n))

/-- TALLY_MEASUREMENT (R78): `u0` is the UI index of the tally edge at which the measurement takes effect. A whole window's y
goes to PTE_NRR where NRR_SRC selects the tally (R127); the forcing of R120 follows. -/
def execTallyMeasurement (n phi : Nat) (u0 : Int) (s : State) : Host.Outcome State Fault Refusal :=
  let s := s.begin
  ran (if laneUp s n && (laneM s n).isSome then
    let s := tallyPost n phi u0 s
    let nrr (i : Nat) (s : State) : State := if flag s R.PTE_PORT_CFG_NRR_SRC i then nrrTally i s else s
    forcePort n (nrr (n + 64) (nrr n s))
  else s)

/-- CDR_LOCK_ACQUIRE (R81): the count of two starts afresh. -/
def execCdrLockAcquire (n : Nat) (s : State) : Host.Outcome State Fault Refusal :=
  let s := s.begin
  ran (if laneUp s n then
    setTally n { tally s n with posted := 0 } (setF R.LNK_LANE_STAT_CDR_LOCK 1 s n)
  else s)

/-- CDR_LOCK_LOSS (R80, R81). -/
def execCdrLockLoss (n : Nat) (s : State) : Host.Outcome State Fault Refusal :=
  let s := s.begin
  ran (if laneUp s n then tallyInvalid n (setF R.LNK_LANE_STAT_CDR_LOCK 0 s n) else s)

/-- A frame starts on port `p` (R76, R286): a MAC control frame is discarded at the MAC; another goes to ingress with its
receive timestamp. -/
def frameStart (p : Nat) (preempt : Bool) (octets : List Nat) (uDet : Int) (age : Nat) (early : Bool) (s : State) : State :=
  let s := monEvent 1 p none 0 1 s
  if beAt octets 12 2 = 0x8808 then
    bwAdd false p octets.length (monEvent 2 p none 0 octets.length
      (sump 0x0B 0 none { newFrame s p octets none with ended := true } s))
  else
    let x := rxTime s p uDet age early
    let (rx, s) := formRx p x preempt s
    addFrame { newFrame s p octets rx with stepCount := countAgo s x.ago } s

/-- The port is aligned: a multi-lane one has measured D at its current lock (R90). -/
def aligned (s : State) (p : Nat) : Bool := modeLanes (portMode s p) ≤ 1 || flag s R.TSU_DESKEW_VALID p

/-- FRAME_RECEIVE (R76, R245, R249): a frame's start arrives at the MAC of port `p`: its octets received so far, which are
the whole frame or at least its head of 128; the UI index at which its SOF octet reaches the MAC (R84); and which of the
latched counts of R82 belong to its tally edge (`tallyAgo`). Frames enter in UP and RX_ONLY and are discarded in LOOP; none enters a
multi-lane port between loss and regain of alignment (R90). -/
def execFrameReceive (p : Nat) (preempt : Bool) (octets : List Nat) (uDet : Int) (age : Nat) (early : Bool) (s : State) :
    Host.Outcome State Fault Refusal :=
  let s := s.begin
  ran (if laneUp s p && isPort s p && aligned s p && !jtagHolds s then
    match getF s R.LNK_PORT_STAT_STATE p with
    | 8 => bump R.LNK_CNT_LOOP_RX_COUNT s p
    | 5 => frameStart p preempt octets uDet age early s
    | 7 => frameStart p preempt octets uDet age early s
    | _ => s
  else s)

/-- The longest frame the MAC passes (R301). -/
def maxFrame : Nat := 16383

/-- A frame ends (R301): its last octets, whether the PCS or the FEC marked it, the correction of its copies' charges (R290),
and what strikes it. -/
def endFrame (f : Nat) (rest : List Nat) (rxError : Bool) (s : State) : State :=
  match frameAt s f with
  | none => s
  | some x =>
    if x.ended then s
    else
      let whole := x.octets ++ rest
      let octets := whole.take maxFrame
      let n := octets.length
      let reason := if rxError || decide (whole.length > maxFrame) then 0x0E else fcsCheck octets
      let y := { x with octets := octets, ended := true }
      let s := touchFrame f s
      let s := setFrame f (some { y with copies := chargeCopies y }) s
      let s := if x.port < 64 then bwAdd false x.port n (monEvent 2 x.port none 0 n s) else s
      let (ok, s) := if x.admitted && !x.copies.isEmpty then storeCells f x.octets.length n s else (true, s)
      let s := if ok then s else exhausted (frameBad 0x13 f s)
      let s := if reason ≠ 0 then if x.engine.isSome then dropFrame reason f s else frameBad reason f s else s
      reapFrame f s

/-- FRAME_END_RECEIVE (R301). -/
def execFrameEndReceive (f : Nat) (rest : List Nat) (rxError : Bool) (s : State) : Host.Outcome State Fault Refusal :=
  ran (endFrame f rest rxError s.begin)

/-- ALIGNMENT_LOCK (R89, R90): D of a multi-lane port, 0 of a single-lane port. -/
def execAlignmentLock (p d : Nat) (s : State) : Host.Outcome State Fault Refusal :=
  let s := s.begin
  ran (if laneUp s p && isPort s p then
    let d := if modeLanes (portMode s p) ≤ 1 then 0 else d
    let x := tally s p
    let s := whenS (x.dSeen && getF s R.TSU_DESKEW_D p ≠ d % 2 ^ R.TSU_DESKEW_D.w) (fun s => raise R.TSU_EVENT_DESKEW_CHANGED s p) s
    setTally p { x with dSeen := true } (setF R.TSU_DESKEW_VALID 1 (setF R.TSU_DESKEW_D d s p) p)
  else s)

/-- CAL_CONSTANT_APPLY (R104): the lane's next tally edge, whose receive UI index is `u`. -/
def execCalConstantApply (edge : LaneEdge) (s : State) : Host.Outcome State Fault Refusal :=
  let s := s.begin
  ran (if laneUp s edge.lane then calApply edge.lane edge.ui s else s)

end Sys2Proof.Machine
end

