-- ==== Sys2Proof/Machine/LnkOps.lean ====
section
/-!
DEFINITION. Sys2Proof/Machine/LnkOps.lean: the state of a port and what follows a change of it (spec/08 R245, with R120, R301
to R303, R346), the layout check, and lane calibrations.
-/
namespace Sys2Proof.Machine

def pDOWN : Nat := 1
def pTRAINING : Nat := 2
def pALIGNING : Nat := 3
def pDEBOUNCE : Nat := 4
def pUP : Nat := 5
def pTX_ONLY : Nat := 6
def pRX_ONLY : Nat := 7
def pLOOP : Nat := 8
def pCAL : Nat := 9

def portState (s : State) (p : Nat) : Nat := getF s R.LNK_PORT_STAT_STATE p

/-- Add or remove an element of a set held as a list. -/
def setIn (n : Nat) (b : Bool) (l : List Nat) : List Nat := if b then (if l.contains n then l else l ++ [n]) else l.filter (· ≠ n)

/-- Reception on port `p` stops: frames on their way in are cut short (R301). -/
def cutRx (p : Nat) (s : State) : State :=
  (frames s).foldl (fun s x => if x.2.port = p ∧ !x.2.ended then endFrame x.1 [] true s else s) s

/-- Alignment of port `p` is lost: TSU_DESKEW reports no D until the next lock (R90, R515); D itself keeps its value. -/
def alignLost (p : Nat) (s : State) : State := setF R.TSU_DESKEW_VALID 0 s p

/-- Port `p` enters state `st`; `cause` is the new DOWN_CAUSE, where there is one. What follows: LINK_DOWN and LINK_UP, link
hold, forcing of PTP instances, activity of candidates, member paths, MAC merge verification. -/
def setPort (p st : Nat) (cause : Option Nat) (s : State) : State :=
  let old := portState s p
  let s := match cause with | some c => setF R.LNK_PORT_STAT_DOWN_CAUSE c s p | none => s
  if old = st then s
  else
    let up (x : Nat) : Bool := x == pUP || x == pTX_ONLY
    let rx (x : Nat) : Bool := x == pUP || x == pRX_ONLY
    let s := touchOut p s
    let s := setF R.LNK_PORT_STAT_STATE st s p
    let s := { s with lnk := { s.lnk with since := smPut 0 s.lnk.since p (now s) } }
    let s := whenS (rx old && !rx st) (cutRx p) s
    let s := whenS (!([pALIGNING, pDEBOUNCE, pUP, pRX_ONLY].contains st)) (alignLost p) s
    let s := whenS ((old = pUP ∨ old = pDEBOUNCE) && st == pDOWN) (fun s => raise R.LNK_PORT_EVENT_LINK_DOWN s p) s
    let s := whenS (old == pUP && st == pDOWN) (fun s => bump R.LNK_CNT_DOWN_COUNT s p) s
    let s := if up old && !up st then bufDown p (st == pRX_ONLY) s
      else if !up old && up st then bufUp p s
      else if st = pRX_ONLY then setHold p ⟨2, 0⟩ (flushOutput 0x15 p s)
      else s
    let s := whenS (st == pUP) (fun s =>
      let s := raise R.LNK_PORT_EVENT_LINK_UP s p
      let s := whenS (modeLanes (portMode s p) == 1) (fun s => setF R.TSU_DESKEW_VALID 1 (setF R.TSU_DESKEW_D 0 s p) p) s
      mmRestart p { s with lnk := { s.lnk with lpi := setIn p false s.lnk.lpi } }) s
    allPaths (activityCheck (forcePort p (touchOut p s)))

/-- A lane of port `p` is in a calibration with loop. -/
def portCal (s : State) (p : Nat) : Bool :=
  flag s R.LNK_GSTAT_CAL_RUNNING || (portLanes s p).any fun n => s.lnk.full.contains n || s.lnk.quadCal.contains (quadOf n)

/-- The state that the rows "any" of R245 force. -/
def portForced (s : State) (p : Nat) : Option Nat :=
  let ls := portLanes s p
  let uni := flag s R.LNK_PORT_CFG_UNIDIR p && portMode s p ≠ 1 && portMode s p ≠ 2
  let rxS (n : Nat) : Bool := flag s R.LNK_LANE_CFG_RX_SLEEP n
  let txS (n : Nat) : Bool := flag s R.LNK_LANE_CFG_TX_SLEEP n
  let txA (n : Nat) : Bool := flag s R.LNK_LANE_STAT_TX_AWAKE n
  if portMode s p = 0 ∨ portMode s p = 11 then some 0
  else if portCal s p then some pCAL
  else if ls.any fun n => getF s R.LNK_LANE_CFG_LOOP n ≠ 0 then some pLOOP
  else if uni && ls.all (fun n => rxS n && !txS n && txA n) then some pTX_ONLY
  else if uni && ls.all (fun n => txS n && !rxS n) then some pRX_ONLY
  else none

/-- Apply the rows of R245 that hold whatever comes. -/
def settlePort (p : Nat) (s : State) : State :=
  let st := portState s p
  match portForced s p with
  | some x => setPort p x none s
  | none => if st = 0 ∨ st ≥ pTX_ONLY then setPort p pDOWN none s else s

/-- Port `p` loses its link (R245). -/
def portLost (p cause : Nat) (s : State) : State :=
  let st := portState s p
  if st = pTRAINING ∨ st = pALIGNING ∨ st = pDEBOUNCE ∨ st = pUP then
    let clearLt (s : State) (n : Nat) : State := if getF s R.LNK_LANE_STAT_LT_STATE n = 1 then setF R.LNK_LANE_STAT_LT_STATE 0 s n else s
    setPort p pDOWN (some cause) ((portLanes s p).foldl clearLt s)
  else s

/-! ### Crossings that fall (R24, R25) -/

/-- The crossing from `a` to `b` comes up empty, or goes down with the words it holds. -/
def setCross (a b : Nat) (up : Bool) (s : State) : State :=
  whenS (a == islTIME && !up) (copyStop b) { s with xings := smPut Xing.down s.xings (a * 32 + b) ⟨up, []⟩ }

/-- The Last copies stand: TIME counts no more (R34, R44). -/
def copiesStop (s : State) : State := copyIslands.foldl (fun s d => copyStop d s) s

/-- Every crossing of island `i` goes down, and its own Last copy stands; with a fence of TIME the copies keep counting (R461). -/
def crossDown (i : Nat) (s : State) : State :=
  let s := whenS (copyIslands.contains i) (copyStop i) s
  { s with xings := smKeep (fun k => k / 32 ≠ i && k % 32 ≠ i) s.xings }

/-- Frame `f`, on its way into BUF, is lost with a crossing: a copy that leaves is stomped, the others are discarded under
CROSSING. -/
def loseFrame (f : Nat) (s : State) : State :=
  match frameAt s f with
  | none => s
  | some x =>
    if x.admitted then
      if x.copies.isEmpty then s else endFrame f [] true (dropAll 0x10 f (frameBad 0x10 f s))
    else loseHead f x s

/-- Frame `f` is on its way from an input that satisfies `p` into BUF. -/
def onWay (p : Nat → Bool) (x : Frame) : Bool := p x.port && (!x.ended || !x.admitted)

def loseInputs (p : Nat → Bool) (s : State) : State := (frames s).foldl (fun s x => if onWay p x.2 then loseFrame x.1 s else s) s

/-- Copies that leave an output that satisfies `p` are lost. -/
def loseLeaving (p : Nat → Bool) (s : State) : State :=
  (frames s).foldl (fun s x =>
    (x.2.copies.filter fun c => c.st == .leaving && p c.out).foldl (fun s c => dropCopy 0x10 x.1 c.out s) s) s

/-! ### Quad clocks (R20, R239) -/

/-- Ports with a lane in quad `q`. -/
def quadPortsOf (s : State) (q : Nat) : List Nat :=
  ((List.range 4).map fun j => portOfLane s (4 * q + j)).eraseDups.filter (isPort s)

/-- The clock-valid that quad `q` has: its monitor's, forced low on a TIMING quad while APLL1 is unlocked. -/
def quadClk (s : State) (q : Nat) : Bool :=
  s.sys.laneClk.contains q && (getF s R.LNK_QUAD_CFG_REF q ≠ 0 || bitOf (getF s R.SYN_APLL_STAT_LOCK) 1)

/-- The crossings of quad `q`, up until now, fall: frames that are partly across them are lost (R25), and its ports go down with
`cause`. -/
def quadLost (q : Nat) (cause : Option Nat) (s : State) : State :=
  let ps := quadPortsOf s q
  let s := loseLeaving ps.contains (loseInputs ps.contains (crossDown (islLANE q) s))
  ps.foldl (fun s p => if portState s p = 0 then s else setPort p pDOWN cause s) s

/-- Bring clock-valid of quad `q` up to date. When it falls, its crossings fall and its ports go down with DOWN_CAUSE 6; when it
returns, its ports take the states that R245 gives them (R239). -/
def quadClkCheck (q : Nat) (s : State) : State :=
  let is := quadClk s q
  let i := islLANE q
  if islClkValid s i = is then s
  else
    let was := islUp s i
    let s := setF R.RST_ISL_CLKVALID_ISLAND (putBit (getF s R.RST_ISL_CLKVALID_ISLAND) i is) s
    if is then (if islUp s i then (quadPortsOf s q).foldl (fun s p => settlePort p s) s else s)
    else if was then quadLost q (some 6) s
    else s

/-- Every quad. -/
def quadClks (s : State) : State := (List.range 16).foldl (fun s q => quadClkCheck q s) s

/-! ### Layout check (R230, R231) -/

/-- FEC codes allowed for a mode (R229). -/
def fecOk (mode fec : Nat) : Bool :=
  match mode with
  | 3 => fec ≤ 1
  | 4 => fec ≤ 2
  | 5 => fec == 0 || fec == 2
  | 7 => fec == 0 || fec == 2
  | 6 => fec == 3
  | 8 => fec == 3
  | 9 => fec == 3
  | 10 => fec == 3
  | _ => fec == 0

/-- The mode of port `n` if the quads of `c` commit. -/
def newMode (s : State) (c : List Nat) (n : Nat) : Nat :=
  if c.contains (quadOf n) then getF s R.LNK_PORT_CFG_PEND_MODE n else portMode s n
def newFec (s : State) (c : List Nat) (n : Nat) : Nat :=
  if c.contains (quadOf n) then getF s R.LNK_PORT_CFG_PEND_FEC n else portFec s n
def newRef (s : State) (c : List Nat) (k : Nat) : Nat :=
  if c.contains k then getF s (R.LNK_QUAD_CFG_PEND_REF) k else getF s R.LNK_QUAD_CFG_REF k

/-- Ports whose lanes reach into quad `k` under the new values. -/
def quadPorts (s : State) (c : List Nat) (k : Nat) : List Nat :=
  (List.range 8).filterMap fun j =>
    let n := 4 * k + j
    let n := if n < 4 then n else n - 4
    let m := newMode s c n
    if (4 * k < 4 ∧ j ≥ 4) ∨ m = 0 ∨ n + max 1 (modeLanes m) ≤ 4 * k then none else some n

/-- Quad `k` passes R230 with the quads of `c` committed. -/
def quadLegal (s : State) (c : List Nat) (k : Nat) : Bool :=
  let ps := quadPorts s c k
  let lanes (n : Nat) : Nat := max 1 (modeLanes (newMode s c n))
  ps.all (fun n =>
    let m := newMode s c n
    let w := lanes n
    m ≤ 11 && fecOk m (newFec s c n) && n % w == 0 && frontPresent s (n + w - 1)
      && (w ≠ 8 || (c.contains (n / 4) && c.contains (n / 4 + 1) && newRef s c (n / 4) == newRef s c (n / 4 + 1))))
    && ps.all fun n => (List.range (lanes n - 1)).all fun j => newMode s c (n + j + 1) == 0

/-- The quads of a commit that pass: a quad that fails keeps its values in force, against which the others are checked again. -/
def passing (s : State) : Nat → List Nat → List Nat
  | 0, c => c
  | k + 1, c =>
    let d := c.filter (quadLegal s c)
    if d = c then c else passing s k d

/-! ### Calibration (R251 to R255) -/

/-- Rounding of a value in 2^-32 ns to 2^-16 ns. -/
def to16 (x : Int) : Int := rdiv x 65536

/-- The analog sum a of R252, in 2^-32 ns. -/
def calA (c : LaneCal) : Int := c.sampSer - c.dLoop

/-- R253. -/
def calPass (c : LaneCal) (a : Int) : Bool :=
  c.spreadTx ≤ 6 && c.spreadRx ≤ 6 && decide ((a - c.nominal).natAbs * 1000 ≤ 300 * 4294967296)

/-- cal_tx and cal_rx of a full loop measurement (R252), in 2^-16 ns. -/
def calFull (c : LaneCal) : Int × Int :=
  let tx := (calA c * c.share) / 65536
  (to16 (c.serClaim + tx), to16 (c.rawSer - tx - c.dLoop))

/-- The same of a PARTIAL one: the analog parts `a` of the last full calibration are kept (R255). -/
def calPartial (c : LaneCal) (a : Int) : Int × Int :=
  let tx := (a * c.share) / 65536
  (to16 (c.serClaim + tx), to16 (c.rawSamp + a - tx))

/-- New constants of a lane wait for its next tally edge (R104). -/
def newConstants (n : Nat) (v : Int × Int) (s : State) : State :=
  setCalPend n { calPend s n with calTx := some (toU 32 v.1), calRx := some (toU 32 v.2) } s

/-- Result registers of a lane's calibration. -/
def calStat (c : LaneCal) (ok part : Bool) (s : State) : State :=
  let s := setF R.LNK_CAL_STAT_RESULT (if ok then 1 else 2) (setFlag R.LNK_CAL_STAT_LAST_KIND part s c.lane) c.lane
  setF R.LNK_CAL_STAT_SPREAD_TX_PS (satN 255 c.spreadTx) (setF R.LNK_CAL_STAT_SPREAD_RX_PS (satN 255 c.spreadRx) s c.lane) c.lane

/-- The lane step at power-up, or after a quad's change to TIMING (R105, R252, R253). -/
def laneStep (c : LaneCal) (s : State) : State :=
  let n := c.lane
  let ok := calPass c (calA c)
  let s := setF R.LNK_CAL_LOOP_A (toU 32 (to16 (calA c))) (calStat c ok false s) n
  if ok then noteTemp n (canSite n) (newConstants n (calFull c) (setF R.TSU_STATUS_CAL_VALID 1 s n))
  else raise R.TSU_EVENT_CAL_INVALID (setF R.TSU_STATUS_CAL_VALID 0 s n) n

/-- The quad step (R251): `load` is the mean of the 64 intervals in 2^-16 ns. The receive count, and a TIMING quad's replica, are loaded
again without the whole-cycle error (1.6 ns) that it shows; the rest stays for the lane step. -/
def quadStep (k : Nat) (load : Int) (s : State) : State :=
  let cyc := rdiv (load * 10) 1048576
  let resid := if (load * 10).natAbs > 8 * 65536 then load - rdiv (cyc * 1048576) 10 else load
  let r := repl s k
  let s := setRepl k { r with rx := 0, tx := if quadFree s k then r.tx else 0 } s
  setF R.LNK_QUAD_STAT_LOAD_DONE 1 (setF R.LNK_QUAD_STAT_LOAD_RESID (toU 16 resid) s k) k

/-- Lanes whose latest calibration failed. -/
def failedLanes (s : State) : Nat :=
  ((List.range 64).filter fun n => frontPresent s n && getF s R.LNK_CAL_STAT_RESULT n == 2).length

/-- Every port settles. -/
def settleAll (s : State) : State :=
  ((List.range 64).filter (frontPresent s)).foldl (fun s p => if portMode s p = 0 ∧ portState s p = 0 then s else settlePort p s) s

end Sys2Proof.Machine
end

