-- ==== Sys2Proof/Machine/Syn.lean ====
section
/-!
DEFINITION. Sys2Proof/Machine/Syn.lean: the commands and events of the outputs and of the ToD port (spec/06).
-/
namespace Sys2Proof.Machine

/-- SYN_COMMIT (R184). -/
def execSynCommit (req : Requester) (val : Nat) (s : State) : Host.Outcome State Fault Refusal :=
  ran (writeAt req 0x80018 (fun _ s => synCommit val s) s.begin)

/-- OUTPUT_CHANGE_APPLY (R185): the cycle boundary of output `n`, where committed values are taken. -/
def execOutputChangeApply (n : Nat) (s : State) : Host.Outcome State Fault Refusal :=
  let s := s.begin
  ran (if outState s n = oRUNNING then
      let s := takeDelay n s
      match (outRt s n).take with
      | some ws => applyOut n ws s
      | none => s
    else s)

/-- OUTPUT_START (R190): a write of SYN_OUT_CTL with START = 1. -/
def execOutputStart (req : Requester) (n val : Nat) (s : State) : Host.Outcome State Fault Refusal :=
  ran (writeAt req (0x80800 + 0x40 * n) (fun _ s => writeOutCtl n val s) s.begin)

/-- OUTPUT_START_INSTANT (R190): an armed output reaches its instant; one that a step passed over starts late. -/
def execOutputStartInstant (n : Nat) (s : State) : Host.Outcome State Fault Refusal :=
  let s := s.begin
  ran (match (outRt s n).armed with
    | some o =>
      if synUp s && outState s n == oARMED && decide (o ≤ now s) then
        let late := decide (o + unitUs ≤ now s)
        startOut n (now s) (some o) late (whenS late (fun s => raise R.SYN_OUT_EVENT_START_LATE s n) s)
      else s
    | none => s)

/-- OUTPUT_STOP (R189): a write of SYN_OUT_CTL with STOP = 1. -/
def execOutputStop (req : Requester) (n val : Nat) (s : State) : Host.Outcome State Fault Refusal :=
  ran (writeAt req (0x80800 + 0x40 * n) (fun _ s => writeOutCtl n val s) s.begin)

/-- OUTPUT_STOP_COMPLETE (R189): the last active phase of output `n` ends; values that waited are taken, and an output in RESTARTING
starts here with them unless their source is unlocked (R185, R190). -/
def stopComplete (n : Nat) (s : State) : State :=
  let x := outRt s n
  if x.completing then
    let s := takeDelay n (setOut n { x with completing := false, want := false, take := none } s)
    restartCheck n (match x.take with | some ws => putOut n ws s | none => s)
  else s

def execOutputStopComplete (n : Nat) (s : State) : Host.Outcome State Fault Refusal :=
  ran (stopComplete n s.begin)

/-- OUTPUT_REALIGN (R193): a write of SYN_OUT_CTL with REALIGN = 1. -/
def execOutputRealign (req : Requester) (n val : Nat) (s : State) : Host.Outcome State Fault Refusal :=
  ran (writeAt req (0x80800 + 0x40 * n) (fun _ s => writeOutCtl n val s) s.begin)

/-- The CLOCK outputs on DCO `k` change by `eps`, a phase correction of its DPLL that is slewed as an open-loop write (R170, R193); those
of an APLL other than `j` are no longer aligned. -/
def alignSlew (j k : Nat) (eps : Int) (s : State) : State :=
  let s := setDpll k { dpll s k with thSlew := (dpll s k).thSlew - eps * 4294967296 } s
  outIds.foldl (fun s m =>
    let i := outApll s m
    if outMode s m = 1 ∧ i ≠ 1 ∧ apllDco s i = k then
      let y := outRt s m
      let s := setOut m { y with eNum := y.eNum - eps * 65536 * y.eDen } s
      if i = j then s else setAligned m false s
    else s) s

/-- The outputs that the alignment of CLOCK output `n` places together (R193): itself with APLL1, else those of its APLL. -/
def alignGroup (s : State) (n : Nat) : List Nat :=
  let j := outApll s n
  if j = 1 then [n] else outIds.filter fun m => fedClock s j m && (outRt s m).placing && outState s m == oRUNNING

/-- An output of APLL `j` is still to start for the common alignment (R193). -/
def alignWaits (s : State) (j : Nat) : Bool :=
  j ≠ 1 && outIds.any fun m => fedClock s j m && outEpoch s m && outState s m == oRESTARTING && (outRt s m).want

/-- Output `n` is placed (R190, R193): `eps` is the measured residual of the VCO grid in 2^-16 ns, common to the outputs of an APLL, at
most half a VCO period. With APLL3 or APLL4 it is removed once, through the phase of the source DCO's DPLL. -/
def alignDone (n : Nat) (eps : Int) (s : State) : State :=
  let done (m : Nat) (s : State) : State :=
    raise R.SYN_OUT_EVENT_ALIGN_DONE (setAligned m true (setOut m { outRt s m with placing := false } s)) m
  if !((outRt s n).placing && outState s n == oRUNNING) then s
  else if outMode s n ≠ 1 then done n s
  else
    let j := outApll s n
    if alignWaits s j || decide (vcoUnits s j + 131072 < 2 * 65536 * eps.natAbs) then s
    else
      let s := (alignGroup s n).foldl (fun s m => setF R.SYN_OUT_RESID_EPS (toU 32 eps) (done m s) m) s
      if j = 1 then s else alignSlew j (apllDco s j) eps s

/-- ALIGN_DONE (R193). -/
def execAlignDone (n : Nat) (eps : Int) (s : State) : Host.Outcome State Fault Refusal :=
  ran (alignDone n eps s.begin)

/-! ### ToD port (R195 to R197) -/

/-- A write of SYN_OUT_DELAY: in force at the next cycle boundary of a running output (R12), else at once. -/
def writeOutDelay (n val : Nat) (s : State) : State :=
  if outState s n = oRUNNING ∨ (outRt s n).completing then setOut n { outRt s n with delay := some val } s
  else softWord (0x80810 + 0x40 * n) val s

/-- A write of SYN_TOD_CFG: TOD_OUT labels the edges of another output, or edges again, from now on (R196). -/
def writeTodCfg (val : Nat) (s : State) : State :=
  let was := flag s R.SYN_TOD_CFG_OUT_ENA
  let n := todOut s
  let s := softWord 0x80C00 val s
  if was && todOut s == n then s else { s with syn := { s.syn with todFrom := now s } }

/-- The first edge of the labelled output that has neither got its message nor been passed over: its index. Edges before TOD_OUT was
set to label them get none. -/
def todNext (s : State) : Int :=
  let n := todOut s
  let x := outRt s n
  let k := match x.sent with | some i => max x.first (i + 1) | none => x.first
  max k (edgeIndex s n (s.syn.todFrom - 1) + 1)

/-- The next edge to label, index and instant, once its message is due: DELAY_MS after the edge (R196). -/
def todEdge (s : State) : Option (Int × Int) :=
  let n := todOut s
  let x := outRt s n
  let k := todNext s
  if outMode s n ≥ 2 ∧ (outState s n = oRUNNING ∨ x.last.any (fun l => decide (k ≤ l))) ∧ edgeAt s n k + todDelay s ≤ now s then
    some (k, edgeAt s n k)
  else none

/-- An edge at `t` gets no message (R196): it occurs while a message is still being sent, or its own would start then
(notes/assumptions/158.md). -/
def todSkips (s : State) (t : Int) : Bool :=
  (decide (s.syn.todStart ≤ t) && decide (t < s.syn.todBusy)) || decide (t + todDelay s < s.syn.todBusy)

/-- TOD_OUT_MESSAGE (R196): DELAY_MS after an edge the message that labels it starts, edge by edge; none where it is skipped. -/
def todSend (s : State) : State :=
  match todEdge s with
  | none => s
  | some (k, t) =>
    let n := todOut s
    let s := setOut n { outRt s n with sent := some k } s
    if todSkips s t then raise R.SYN_TOD_EVENT_TOD_OUT_SKIPPED s
    else
      let start := t + todDelay s
      emit (.tod (todMessage s t)) { s with syn := { s.syn with todSeq := (s.syn.todSeq + 1) % 256
                                                                todStart := start
                                                                todBusy := start + todLength (getF s R.SYN_TOD_CFG_OUT_BAUD) } }

def execTodOutMessage (s : State) : Host.Outcome State Fault Refusal :=
  let s := s.begin
  ran (if synUp s && !jtagHolds s && flag s R.SYN_TOD_CFG_OUT_ENA then todSend s else s)

/-- The checks of R197 on a received message. -/
def todOk (octets : List Nat) : Bool :=
  octets.length == 26 && octets.take 4 == [0x4B, 0x5A, 1, 20]
    && octets.drop 24 == (let c := crc16 ((octets.drop 2).take 22); [c / 256, c % 256])

/-- A message paired with an edge in its window, the latest or the first one: `a` to `b` are the window's ends. -/
def edgeIn (s : State) (a b : Int) (latest : Bool) : Option Int :=
  let es := s.syn.edges.filter fun t => decide (a ≤ t) && decide (t ≤ b)
  if latest then es.getLast? else es.head?

/-- TOD_IN_MESSAGE (R197): the octets of a message whose last stop bit ends now, and its window's edge where it lies behind. -/
def todIn (octets : List Nat) (s : State) : State :=
  if !todOk octets then raise R.SYN_TOD_EVENT_TOD_BAD (bump R.SYN_TOD_CNT_IN_ERR s)
  else if flag s R.SYN_TOD_CFG_IN_LABEL then
    { s with syn := { s.syn with todWait := s.syn.todWait ++ [⟨octets, now s⟩] } }
  else
    let start := now s - todLength (getF s R.SYN_TOD_CFG_IN_BAUD)
    match edgeIn s (start - 990 * unitMs) (start - unitMs) true with
    | some t => todPair octets t s
    | none => raise R.SYN_TOD_EVENT_TOD_UNPAIRED (bump R.SYN_TOD_CNT_IN_ERR s)

def execTodInMessage (octets : List Nat) (s : State) : Host.Outcome State Fault Refusal :=
  let s := s.begin
  ran (if synUp s && flag s R.SYN_TOD_CFG_IN_ENA then todIn octets s else s)

/-- The edge that a waiting message labels, if it has come: the first from 10 ms to 990 ms after its last stop bit. -/
def waitEdge (s : State) (w : TodWait) : Option Int := edgeIn s (w.stop + 10 * unitMs) (w.stop + 990 * unitMs) false

/-- Waiting messages whose edge has come are paired with it, oldest first. -/
def todMatch (s : State) : State :=
  s.syn.todWait.foldl (fun s w => match waitEdge s w with
      | some t => todPair w.octets t s
      | none => s)
    { s with syn := { s.syn with todWait := s.syn.todWait.filter fun w => (waitEdge s w).isNone } }

/-- An edge at `t` on the input of TODPPS; edges older than two seconds are forgotten. -/
def todEdgeIn (t : Int) (s : State) : State :=
  todMatch { s with syn := { s.syn with edges := (s.syn.edges.filter fun e => decide (t - 2 * unitS ≤ e)) ++ [t] } }

/-- TOD_UNPAIRED (R197): the window of the oldest waiting message ends; an edge at the same instant still pairs. -/
def execTodUnpaired (s : State) : Host.Outcome State Fault Refusal :=
  let s := todMatch s.begin
  ran (match s.syn.todWait with
    | [] => s
    | w :: rest =>
      if decide (now s ≥ w.stop + 990 * unitMs) then
        raise R.SYN_TOD_EVENT_TOD_UNPAIRED (bump R.SYN_TOD_CNT_IN_ERR { s with syn := { s.syn with todWait := rest } })
      else s)

end Sys2Proof.Machine
end

