-- ==== Sys2Proof/Machine/TdcOps.lean ====
section
/-!
DEFINITION. Sys2Proof/Machine/TdcOps.lean: the channels of the TDC, their results and the spare (spec/07).
-/
namespace Sys2Proof.Machine

/-! ### Counts and the Last (R209) -/

/-- Take the present Last as the anchor. -/
def anchor (s : State) : State :=
  { s with tdc := { s.tdc with anchorK := s.tdc.k, anchorL := now s, anchorR := s.tim.last.res } }

/-! ### States (TDC_CH_STAT) -/

def chState (s : State) (n : Nat) : Nat :=
  let x := tdcCh s n
  let sv := match s.tdc.spare with | some t => if t.ch = n then t.step else 0 | none => 0
  if s.tdc.borrowed = some n then 6
  else if sv = 4 then 4
  else if sv = 3 then (if x.refill = 2 then 3 else if x.calFailed then 5 else 4)
  else if sv = 1 then 1
  else if x.refill = 2 then 3
  else if s.tdc.waits.contains n then 2
  else if x.calFailed then 5
  else if n = CHS then (if s.tdc.spare.isSome then 1 else 0)
  else if chActive s n then 1
  else 0

/-- Write the status of channel `n` and of the spare. -/
def settleCh (n : Nat) (s : State) : State :=
  let x := tdcCh s n
  let s := setF R.TDC_CH_STAT_STATE (chState s n) s n
  let s := setFlag R.TDC_CH_STAT_TABLE_VALID (!(smGet [] s.tdc.tbl n).isEmpty) s n
  let s := setF R.TDC_CH_STAT_C1 x.c1 (setF R.TDC_CH_STAT_SPAN (toU 12 ((x.c2 : Int) - x.c1)) s n) n
  setF R.TDC_PEND_TABLE (putBit (getF s R.TDC_PEND_TABLE) n (!(smGet [] s.tdc.pend n).isEmpty)) s

def settleSpare (s : State) : State :=
  let busy := s.tdc.spare.isSome || (tdcCh s CHS).refill == 2
  let s := setFlag R.TDC_GSTAT_SPARE_BUSY busy s
  let s := match s.tdc.spare with | some t => setF R.TDC_GSTAT_SPARE_FOR t.ch s | none => s
  settleCh CHS s

def settleTdc (s : State) : State := settleSpare ((List.range 24).foldl (fun s n => settleCh n s) s)

/-! ### One edge (R205 to R211) -/

/-- The table of physical channel `n` at the present cycle: a sampling edge in the cycle of a commit uses the one before (R219). -/
def tableOf (s : State) (n : Nat) : List Nat :=
  let x := tdcCh s n
  if x.commitK = some s.tdc.k then x.oldTbl else smGet [] s.tdc.tbl n

/-- The table of physical channel `n` is read (R438): one that cannot be read is invalid from then on. -/
def tableRead (n : Nat) (s : State) : State :=
  let (ok, s) := eccReadAll 15 (3072 * n) 3072 s
  if ok then s
  else settleCh n (setTdcCh n { tdcCh s n with commitK := none } { s with tdc := { s.tdc with tbl := smPut [] s.tdc.tbl n [] } })

/-- pos() of R208 on physical channel `n`. -/
def tdcPos (s : State) (n c : Nat) : Int :=
  let h := tableOf s n
  if flag s R.TDC_CH_CFG_CAL_MODE n && !h.isEmpty then 2 * (((h.take c).foldl (· + ·) 0 : Nat) : Int) + h.getD c 0 else c

/-- The pair is good (R207). -/
def pairGood (c1 c2 : Nat) : Bool := c2 ≤ 3071 && c1 + 1000 ≤ c2 && c2 ≤ c1 + 1700

/-- The interpolator result in 2^-32 ns; where both calibration codes stand at one place R208 gives none. -/
def tdcTau (n c : Nat) (s : State) : Int × State :=
  let x := tdcCh s n
  let num := tdcPos s n c + tdcPos s n x.c2 - 2 * tdcPos s n x.c1
  let den := 5 * (tdcPos s n x.c2 - tdcPos s n x.c1)
  if den = 0 then drawInt s else ((num * 34359738368 + den / 2) / den, s)

/-- To 2^-10 ns, ties up. -/
def to10 (t32 : Int) : Int := (t32 + 2097152) / 4194304

/-- Queue a record of logical channel `n` (R215): words 0 to 2 and the flag bits of word 3 but LOST, CAL_CHANGED and the count; `fresh`
where it is the first one under a new table or by a new channel. -/
def queueRecord (n w0 w1 w2 flags : Nat) (fresh : Bool) (s : State) : State :=
  let x := tdcCh s n
  let s := bump R.TDC_CH_RESULTS_COUNT s n
  if x.queue.length ≥ 16 then
    let s := setTdcCh n { x with lost := true, count := (x.count + 1) % 256, calChanged := x.calChanged || fresh } s
    raise R.TDC_CH_EVENT_LOST (bump R.TDC_CH_CNT_LOST s n) n
  else
    let w3 := flags + b2n x.lost * 2 ^ 25 + b2n (x.calChanged || fresh) * 2 ^ 24 + b2n (!s.tim.lastValid) * 2 ^ 22
      + s.tim.stepCount % 4 * 2 ^ 20 + x.count * 256 + n
    let s := setTdcCh n { x with queue := x.queue ++ [[w0, w1, w2, w3]], count := (x.count + 1) % 256, lost := false, calChanged := false } s
    setF R.TDC_CH_LAST_WORD0 w0 (setF R.TDC_CH_LAST_WORD1 w1 (setF R.TDC_CH_LAST_WORD2 w2 (setF R.TDC_CH_LAST_WORD3 w3 s n) n) n) n

/-- Nanoseconds and seconds of an instant in 2^-10 ns. -/
def ns10 (t10 : Int) : Nat := ((t10 / 1024) % 1000000000).toNat
def sec10 (t10 : Int) : Nat := toU 48 (t10 / 1024 / 1000000000)

/-- An EDGE or PROBE record. -/
def edgeRecord (n : Nat) (t10 : Int) (valid step spare probe rising fresh : Bool) (s : State) : State :=
  queueRecord n (ns10 t10) (sec10 t10 % 2 ^ 32) (sec10 t10 / 2 ^ 32 + (t10 % 1024).toNat * 2 ^ 16)
    (b2n valid * 2 ^ 31 + b2n step * 2 ^ 27 + b2n spare * 2 ^ 23 + (if probe then 2 else 0) * 2 ^ 18 + b2n rising * 2 ^ 17) fresh s

/-- The result of an INTERVAL pair (R213). -/
def pairRecord (n : Nat) (a b : Capture) (s : State) : State :=
  let r := b.byCount - a.byCount
  let excess := decide (((b.k : Int) - a.k).natAbs ≥ 2 ^ 40)
  let r := if excess then sgn r * rdiv ((5 * r.natAbs) % 2 ^ 53 : Nat) 5 else r
  let u := toU 64 r
  queueRecord n (u % 2 ^ 32) (u / 2 ^ 32) (ns10 a.byLast)
    (b2n (a.valid && b.valid) * 2 ^ 31 + b2n excess * 2 ^ 30 + b2n (decide (r.natAbs ≤ 3)) * 2 ^ 29 + b2n (decide (r < 0)) * 2 ^ 28
      + b2n (a.epoch ≠ b.epoch) * 2 ^ 27 + b2n (a.spare || b.spare) * 2 ^ 23 + 2 ^ 18 + b2n a.rising * 2 ^ 17) (a.fresh || b.fresh) s

/-- A pair after its result: armed again at the end of the dead time with REARM = 1 (R213). -/
def pairDone (n : Nat) (s : State) : State :=
  let x := tdcCh s n
  settleCh n (setTdcCh n { x with start := none, stop := none, armed := if flag s R.TDC_CH_CFG2_REARM n then some (s.tdc.k + 16) else none } s)

/-- WIN_US after the arming of the pair of start channel `n` one edge is captured and the other is not (R213): the edge of that very
cycle still is. -/
def windowOver (s : State) (n : Nat) : Bool :=
  let x := tdcCh s n
  let win := getF s R.TDC_CH_CFG2_WIN_US n
  match x.armed with
  | some a => decide (win ≠ 0) && decide (a + win * 625 < s.tdc.k) && x.start.isSome != x.stop.isSome
  | none => false

/-- The result of a pair whose window is over: TIMEOUT, value 0 (R213). -/
def intervalTimeout (n : Nat) (s : State) : State :=
  if windowOver s n then
    let x := tdcCh s n
    let one := (x.start.orElse fun _ => x.stop)
    let rising := match x.start with | some c => c.rising | none => false
    let ns := match x.start with | some c => ns10 c.byLast | none => 0
    pairDone n (raise R.TDC_CH_EVENT_TIMEOUT
      (queueRecord n 0 0 ns (2 ^ 26 + b2n (one.any (·.spare)) * 2 ^ 23 + 2 ^ 18 + b2n rising * 2 ^ 17) (one.any (·.fresh)) s) n)
  else s

/-- The marks that make the next result of channel `l`, measured by `m`, the first one under a new table or by a new channel (R215,
R219). -/
def freshMark (s : State) (l m : Nat) : Bool :=
  (tdcCh s l).calChanged || ((tdcCh s m).newTable && (tdcCh s m).commitK ≠ some s.tdc.k)

/-- They are gone once a result carries them. -/
def freshTaken (l m : Nat) (s : State) : State :=
  let s := setTdcCh l { tdcCh s l with calChanged := false } s
  if (tdcCh s m).commitK = some s.tdc.k then s else setTdcCh m { tdcCh s m with newTable := false } s

/-- One capture of the pair of start channel `n`, by physical channel `m`: the first passed edge of its kind once the pair is armed
(R213). -/
def capture (n m : Nat) (isStopEdge : Bool) (c : Capture) (s : State) : State :=
  let s := intervalTimeout n s
  let x := tdcCh s n
  if !x.armed.any (fun a => decide (a ≤ s.tdc.k)) || (if isStopEdge then x.stop.isSome else x.start.isSome) then s
  else
    let l := if isStopEdge then n + 1 else n
    let c := { c with fresh := freshMark s l m }
    let s := freshTaken l m s
    let x := if isStopEdge then { tdcCh s n with stop := some c } else { tdcCh s n with start := some c }
    let s := setTdcCh n x s
    match x.start, x.stop with
    | some a, some b => pairDone n (pairRecord n a b s)
    | _, _ => s

/-- An edge counted as missed (R206, R218). -/
def missed (n : Nat) (s : State) : State := raise R.TDC_CH_EVENT_MISSED (bump R.TDC_CH_CNT_MISSED s n) n

/-- The instants of an edge that the channel and CHS both measured in an overlap: their difference counts (R221). -/
def overlapEdge (n m : Nat) (t10 : Int) (s : State) : State :=
  match s.tdc.spare with
  | some t =>
    if t.ch = n ∧ (t.step = 1 ∨ t.step = 4) then
      let t := if m = CHS then { t with tS := some t10 } else { t with tN := some t10 }
      let t := match t.tN, t.tS with
        | some a, some b => { t with diffs := t.diffs ++ [a - b] }
        | _, _ => t
      { s with tdc := { s.tdc with spare := some t } }
    else s
  | none => s

/-- Physical channel `m` measures what is delivered for channel `n`: CHS in steps 3 and 4 of R221, else the channel itself. -/
def delivers (s : State) (n m : Nat) : Bool := (m == CHS) == served s n

/-- The measurement of logical channel `n` by physical channel `m` (R208, R210): `c` the taps passed at the sampling edge, which
is the present Last cycle. -/
def measure (n m c : Nat) (rising : Bool) (s : State) : State :=
  let k := s.tdc.k
  let (tau, s) := tdcTau m c (takeAdj n s)
  let x := tdcCh s m
  let good := x.hasPair && pairGood x.c1 x.c2
  let d := chDelay s n * 65536
  let hitBefore := match s.tdc.stepK with
    | some ks => decide (ks ≤ k) && decide (5 * tau > cycle5 * ((k : Int) - ks))
    | none => false
  let delta := match s.tdc.spare with | some t => if m = CHS ∧ t.step ≥ 3 then t.delta else 0 | none => 0
  let t10 := to10 (lastAt s k - tau - d) + delta
  let byCount := to10 (cycle5 * k / 5 - tau - d) + delta
  let s := setTdcCh m { x with lastK := some k } s
  let s := whenS (!good) (fun s => raise R.TDC_CH_EVENT_CAL_FAIL s n) s
  let spare := m == CHS
  let s := overlapEdge n m (t10 - delta) s
  if !delivers s n m then s
  else
    let cap : Capture := ⟨byCount, t10, k, rising, good, (s.tim.stepCount : Int) - b2n hitBefore, spare, false⟩
    if isStop s n then capture (n - 1) m true cap s
    else if isStart s n then capture n m false cap s
    else
      let s := whenS hitBefore (fun s => raise R.TDC_CH_EVENT_STEP s n) s
      let s := edgeRecord n t10 good hitBefore spare (actMode s n == 2) rising (freshMark s n m) (freshTaken n m s)
      if serving s (8 + getF s R.REF_GCFG_TODPPS_IN) = some n ∧ good ∧ !hitBefore ∧ synUp s then todEdgeIn (t10 * 4194304) s else s

/-- A selected edge of source channel `n` reaches physical channel `m`: divider, interruption, dead time (R202, R206, R218). A selected
edge in an interruption or in the dead time is missed, by the channel whose results are delivered. -/
def tdcEdge (n m c : Nat) (rising : Bool) (s : State) : State :=
  let x := tdcCh s m
  let s := setTdcCh m { x with edges := (x.edges + 1) % chDiv s n } s
  let dead := match x.lastK with | some l => decide (s.tdc.k ≤ l + 17) | none => false
  if m ≠ CHS ∧ x.refill = 2 ∧ served s n then s
  else if m ≠ CHS ∧ interrupted s n then missed n s
  else if dead then whenS (delivers s n m) (missed n) s
  else if x.edges = 0 then measure n m c rising (tableRead m s)
  else s

/-- The prescaler of REFIN `m` (R203, R204): it passes the first cycle of its input after its setting is written, and then every DIV-th
one, a cycle's falling edge with its rising edge (notes/assumptions/159.md). -/
def prescale (m : Nat) (rising : Bool) (s : State) : Bool × State :=
  let div := 2 ^ getF s (R.TDC_PRESC_DIV.up (2 * m))
  let at0 := smGet 0 s.tdc.presc m
  if rising then (at0 == 0, { s with tdc := { s.tdc with presc := smPut 0 s.tdc.presc m ((at0 + 1) % div) } })
  else (at0 == 1 % div, s)

/-- A channel takes edges of source `src` in this direction. -/
def takesEdge (s : State) (src : Nat) (rising : Bool) (l : Nat) : Bool :=
  chActive s l && chSrc s l == src && edgeTaken s l rising && s.tdc.borrowed ≠ some l

/-- The channel that physical channel `m` measures for: CHS for the one it serves. -/
def measuresFor (s : State) (m : Nat) : Option Nat := if m = CHS then s.tdc.spare.map (·.ch) else if m < 24 then some m else none

/-- An edge of source `src` reaches the physical channels `taps`, each with the taps it has passed at its sampling edge: those that take
it and, with a candidate's input, its activity monitor (R148, R201). -/
def sourceEdge (src : Nat) (rising : Bool) (taps : List (Nat × Nat)) (s : State) : State :=
  let seen (c : Nat) (s : State) : State := setCand c { cand s c with lastEdge := now s } s
  let s := whenS (timUp s && src < 8) (seen src) s
  let s := whenS (timUp s && src == candSrc s 14) (seen 14) s
  let s := match s.tdc.spare with
    | some t => { s with tdc := { s.tdc with spare := some { t with tN := none, tS := none } } }
    | none => s
  taps.foldl (fun s p =>
    match measuresFor s p.1 with
    | some l => if takesEdge s src rising l then tdcEdge l p.1 p.2 rising s else s
    | none => s) s

/-! ### Refill and takeover (R217 to R222) -/

/-- OVERLAP as it acts. -/
def overlap (s : State) : Nat := satN 64 (zeroAs 1 (getF s R.TDC_GCFG_OVERLAP))

/-- CHS is busy. -/
def spareBusy (s : State) : Bool := s.tdc.spare.isSome || (tdcCh s CHS).refill == 2

/-- The channel has failed calibration and the spare is to serve it (R207). -/
def failServed (s : State) (n : Nat) : Bool := n < 24 && (tdcCh s n).calFailed && flag s R.TDC_CH_CFG_TAKEOVER n

/-- CHS, which is free, begins to serve channel `n` with its divider as it stands, or its own refill starts; a refill that waited is under
way (R218, R221, R222). -/
def spareStart (n : Nat) (s : State) : State :=
  let x := tdcCh s n
  let s := if x.refill = 1 then setTdcCh n { x with refill := 2 } s else s
  if n = CHS then settleSpare s
  else
    let s := setTdcCh CHS { tdcCh s CHS with edges := x.edges } s
    settleSpare (settleCh n { s with tdc := { s.tdc with spare := some ⟨n, 1, x.refill == 1, [], none, none, now s, 0⟩ } })

/-- A request of channel `n` for CHS: served at once, or waiting in the order of the requests (R218, R222). -/
def askSpare (n : Nat) (s : State) : State :=
  if spareBusy s then
    settleCh n (if s.tdc.waits.contains n then s else { s with tdc := { s.tdc with waits := s.tdc.waits ++ [n] } })
  else spareStart n s

/-- CHS is free: the oldest request that still stands starts. -/
def nextWait (s : State) : State :=
  match s.tdc.waits.filter fun n => (tdcCh s n).refill == 1 || failServed s n with
  | [] => settleSpare { s with tdc := { s.tdc with waits := [] } }
  | n :: rest => spareStart n (settleSpare { s with tdc := { s.tdc with waits := rest } })

/-- A refill request for channel `n` (R218): with TAKEOVER the spare serves the channel meanwhile, as it may do already after a failed
calibration; else the channel is interrupted. -/
def refillAsk (n : Nat) (s : State) : State :=
  let x := tdcCh s n
  if x.refill ≠ 0 ∨ n > 24 then s
  else if n = CHS ∨ flag s R.TDC_CH_CFG_TAKEOVER n then
    match s.tdc.spare with
    | some t =>
      if t.ch = n ∧ t.step ≤ 3 then
        settleCh n (setTdcCh n { x with refill := 2 } { s with tdc := { s.tdc with spare := some { t with refill := true } } })
      else askSpare n (setTdcCh n { x with refill := 1 } s)
    | none => askSpare n (setTdcCh n { x with refill := 1 } s)
  else settleCh n (setTdcCh n { x with refill := 2 } s)

/-- The spare moves to another step of R221. -/
def spareStep (t : Takeover) (step : Nat) (s : State) : State :=
  settleCh t.ch { s with tdc := { s.tdc with spare := some { t with step := step, diffs := [], tN := none, tS := none, since := now s } } }

/-- The spare follows the needs of channel `n` (R207, R221): a failed channel asks for it; one that needs it no more returns through
step 4, or gives it up before step 3. -/
def spareCheck (n : Nat) (s : State) : State :=
  match s.tdc.spare with
  | some t =>
    if t.ch ≠ n then (if failServed s n then askSpare n s else settleCh n s)
    else
      let need := t.refill || failServed s n
      if need && t.step == 4 then spareStep t 3 s
      else if need || t.step == 4 then settleCh n s
      else if t.step = 3 then spareStep t 4 s
      else nextWait (settleCh n { s with tdc := { s.tdc with spare := none } })
  | none => if failServed s n then askSpare n s else settleCh n s

/-- The refill that the spare serves is over for it: its table is in force, or was rejected. -/
def refillOver (n : Nat) (s : State) : State :=
  match s.tdc.spare with
  | some t => if t.ch = n then spareCheck n { s with tdc := { s.tdc with spare := some { t with refill := false } } } else s
  | none => s

/-- A committed table takes effect after this cycle (R219); a refill served by CHS is then over. -/
def commitTable (n : Nat) (s : State) : State :=
  let h := smGet [] s.tdc.pend n
  if h.isEmpty then s
  else
    let x := tdcCh s n
    let s := setTdcCh n { x with newTable := true, commitK := some s.tdc.k, oldTbl := tableOf s n } (noteTemp (64 + n) 0 (fullWriteAll 15 (3072 * n) 3072 s))
    let s := settleCh n { s with tdc := { s.tdc with tbl := smPut [] s.tdc.tbl n h, pend := smPut [] s.tdc.pend n [] } }
    if x.refill = 0 then refillOver n s else s

/-- The tests of R217 on a pending table. -/
def tableOk (s : State) (n : Nat) (h : List Nat) : Bool :=
  let x := tdcCh s n
  let span := max 1 (x.g2 - x.g1)
  (h.take x.g2).all (· ≠ 0) && h.all fun v => decide (v * span * 2 ≤ 4 * 2 ^ 22)

/-- A refill ends with table `h`; it runs from step 3 of a takeover on. -/
def refillDone (n : Nat) (h : List Nat) (s : State) : State :=
  let x := tdcCh s n
  let overlaps := match s.tdc.spare with | some t => t.ch == n && t.step == 1 | none => false
  if x.refill ≠ 2 || overlaps then s
  else
    let h := (h ++ List.replicate 3072 0).take 3072
    let s := setTdcCh n { x with refill := 0 } s
    let ok := tableOk s n h
    let s := settleCh n (if ok then raise R.TDC_EVENT_REFILL_DONE { s with tdc := { s.tdc with pend := smPut [] s.tdc.pend n h } } n
      else raise R.TDC_EVENT_TABLE_REJECTED s n)
    let s := if !ok then refillOver n s else if flag s R.TDC_GCFG_AUTO_COMMIT then commitTable n s else s
    if n = CHS then nextWait s else s

/-! ### Borrowing (R224) -/

/-- The highest-numbered channel that is OFF is borrowed for a recalibration; CAL_NO_CHANNEL where there is none. -/
def borrow (s : State) : State :=
  if s.tdc.borrowed.isSome then s
  else
    match (List.range 24).reverse.find? fun n => chState s n == 0 with
    | some n => settleCh n { s with tdc := { s.tdc with borrowed := some n } }
    | none => raise R.TDC_EVENT_CAL_NO_CHANNEL s

/-- The borrowed channel is given back once no lane recalibrates. -/
def giveBack (s : State) : State :=
  match s.tdc.borrowed with
  | some n =>
    if s.lnk.full.isEmpty && s.lnk.part.isEmpty then settleCh n { s with tdc := { s.tdc with borrowed := none } } else s
  | none => s

/-- A waiting recalibration takes a channel that has become OFF. -/
def borrowLate (s : State) : State :=
  if s.tdc.borrowed.isNone && !(s.lnk.full.isEmpty && s.lnk.part.isEmpty)
      && (List.range 24).any (fun n => chState s n == 0) then borrow s else s

/-- Software may not configure channel `n` now (R224). -/
def chLocked (s : State) (n : Nat) : Bool :=
  s.tdc.borrowed == some n || (flag s R.LNK_GSTAT_CAL_RUNNING && 16 ≤ n && n < 24)

/-- A configuration write that R224 ignores: with REG_ISLAND_DOWN during the power-up calibration. -/
def lockedWrite (n off : Nat) (s : State) : State :=
  if flag s R.LNK_GSTAT_CAL_RUNNING && 16 ≤ n && n < 24 then raise R.FLT_GEN_EVENT_REG_ISLAND_DOWN s islTDC off else s

/-- A write of TDC_CH_CFG: the divider restarts; captures are dropped (R202). -/
def writeChCfg (n val : Nat) (s : State) : State :=
  if chLocked s n then lockedWrite n (0x91000 + 0x40 * n) s
  else if n ≥ 24 then s
  else
    let was := isStop s (n + 1)
    let s := softWord (0x91000 + 0x40 * n) val s
    let x := tdcCh s n
    let s := setTdcCh n { x with edges := 0, armed := none, start := none, stop := none } s
    let s := if isStop s (n + 1) = was then s else setTdcCh (n + 1) { tdcCh s (n + 1) with edges := 0 } s
    borrowLate (spareCheck n (settleTdc s))

/-- A write of TDC_GCFG: channels that it enables pass their first edge (R202). -/
def writeTdcCfg (val : Nat) (s : State) : State :=
  let was := flag s R.TDC_GCFG_ENA
  let s := softWord 0x90000 val s
  let s := if !was && flag s R.TDC_GCFG_ENA then
      (List.range 25).foldl (fun s n => setTdcCh n { tdcCh s n with edges := 0 } s) s
    else s
  borrowLate (settleTdc s)

/-- A write of TDC_CH_CFG2: REARM and WIN_US; ARM = 1 arms the pair (R213). -/
def writeChCfg2 (n val : Nat) (s : State) : State :=
  if chLocked s n then lockedWrite n (0x91004 + 0x40 * n) s
  else if n ≥ 24 then s
  else
    let s := softWord (0x91004 + 0x40 * n) val s
    if bitOf val 30 && isStart s n then
      settleCh n (setTdcCh n { tdcCh s n with armed := some s.tdc.k, start := none, stop := none } s)
    else s

/-- A write of TDC_PRESC: an input whose division changes restarts its prescaler, and its candidate at FAILED as a change of MDIV does
(R204). -/
def writePresc (val : Nat) (s : State) : State :=
  let changed := (List.range 8).filter fun m => getF s (R.TDC_PRESC_DIV.up (2 * m)) ≠ bitsOf val (2 * m) 2
  let s := { softWord 0x90020 val s with tdc := { s.tdc with presc := [] } }
  reselect (changed.foldl (fun s m => candCfgTest m (candFail m false s)) s)

/-- A write of TDC_PROBE_SEL: channels on a probe multiplexer start or stop with its code (R223). -/
def writeProbeSel (val : Nat) (s : State) : State := borrowLate (settleTdc (softWord 0x90024 val s))

/-- CH16 to CH23 while the power-up calibration runs (R224): INTERVAL pairs between the probe multiplexers, PROBE channels in its second
part; OFF again after it (notes/assumptions/160.md). -/
def calChannels (on : Bool) (s : State) : State :=
  settleTdc ((List.range 8).foldl (fun s j =>
    let n := 16 + j
    setF R.TDC_CH_CFG_ENA (b2n on) (setF R.TDC_CH_CFG_MODE (if !on then 3 else if j % 2 = 0 then 1 else 0)
      (setF R.TDC_CH_CFG_SRC (if !on then 0x3F else 0x20 + j % 2) s n) n) n) s)

end Sys2Proof.Machine
end

