-- ==== Sys2Proof/Machine/Lnk.lean ====
section
/-!
DEFINITION. Sys2Proof/Machine/Lnk.lean: the commands and events of lanes and ports (spec/08).
-/
namespace Sys2Proof.Machine

/-! ### Commit (R231, R232, R238) -/

/-- Take the pending values of port `n` into force. -/
def takePort (n : Nat) (s : State) : State :=
  let cp (f g : Fld) (s : State) : State := setF g (getF s f n) s n
  cp R.LNK_PORT_CFG_PEND_UNIDIR R.LNK_PORT_CFG_UNIDIR (cp R.LNK_PORT_CFG_PEND_LT_ENA R.LNK_PORT_CFG_LT_ENA
    (cp R.LNK_PORT_CFG_PEND_AN_ENA R.LNK_PORT_CFG_AN_ENA (cp R.LNK_PORT_CFG_PEND_FEC_BYPASS_CORR R.LNK_PORT_CFG_FEC_BYPASS_CORR
      (cp R.LNK_PORT_CFG_PEND_FEC R.LNK_PORT_CFG_FEC (cp R.LNK_PORT_CFG_PEND_MODE R.LNK_PORT_CFG_MODE s)))))

/-- The lanes of a port whose configuration changed lose their locks. -/
def dropLocks (n : Nat) (s : State) : State :=
  setF R.LNK_LANE_STAT_BLOCK_LOCK 0 (setF R.LNK_LANE_STAT_AM_LOCK 0 (setF R.LNK_LANE_STAT_CDR_LOCK 0 (tallyInvalid n s) n) n) n

/-- Take down a port whose mode, FEC, lane count or reference changes (R232). -/
def commitDown (n : Nat) (s : State) : State := if portState s n = 0 then s else setPort n pDOWN (some 5) s

/-- The elastic buffers of quad `k` under its new reference: none on a TIMING quad (R234); where a FREE quad's fill starts the spec does not
say. -/
def ebStart (k : Nat) (s : State) : State :=
  [4 * k, 4 * k + 1, 4 * k + 2, 4 * k + 3].foldl (fun s n =>
    if quadFree s k then (let (v, s) := drawInt s; setF R.LNK_LANE_STAT_EB_FILL (v % 65).toNat s n) else setF R.LNK_LANE_STAT_EB_FILL 0 s n) s

/-- The committed quads that pass take effect together. -/
def applyQuads (c : List Nat) (s : State) : State :=
  let refCh := c.filter fun k => getF s R.LNK_QUAD_CFG_REF k ≠ getF s R.LNK_QUAD_CFG_PEND_REF k
  let lanes := c.flatMap fun k => [4 * k, 4 * k + 1, 4 * k + 2, 4 * k + 3]
  let changed := lanes.filter fun n =>
    portMode s n ≠ getF s R.LNK_PORT_CFG_PEND_MODE n || portFec s n ≠ getF s R.LNK_PORT_CFG_PEND_FEC n || refCh.contains (quadOf n)
  let s := changed.foldl (fun s n => commitDown n s) s
  let s := lanes.foldl (fun s n => takePort n s) s
  let s := c.foldl (fun s k => setF R.LNK_QUAD_CFG_REF (getF s R.LNK_QUAD_CFG_PEND_REF k) s k) s
  let timing := refCh.filter fun k => getF s R.LNK_QUAD_CFG_REF k == 0
  let s := { s with lnk := { s.lnk with quadCal := timing.foldl (fun l k => setIn k true l) (s.lnk.quadCal.filter fun k => !(refCh.contains k)) } }
  let s := refCh.foldl (fun s k => loadReplica k (ebStart k s)) s
  let s := { s with lnk := { s.lnk with badAn := s.lnk.badAn.filter fun n => !changed.contains n } }
  let s := changed.foldl (fun s n => dropLocks n s) s
  let s := changed.foldl (fun s n =>
    let s := setF R.TSU_DESKEW_VALID 0 (setF R.TSU_DESKEW_D 0 s n) n
    setTally n { tally s n with dSeen := false } s) s
  let s := lanes.foldl (fun s n => tsuMode n (setF R.LNK_PORT_STAT_LANES (modeLanes (portMode s n)) s n)) s
  let s := quadClks (lanes.foldl (fun s n => settlePort n s) s)
  setF R.LNK_PEND_QUAD (c.foldl (fun v k => putBit v k false) (getF s R.LNK_PEND_QUAD)) s

/-- A write of LNK_COMMIT. -/
def lnkCommit (val : Nat) (s : State) : State :=
  let asked := (List.range 16).filter (bitOf val)
  let here := asked.filter fun k => frontPresent s (4 * k)
  let s := whenS (here.length ≠ asked.length) (fun s => raise R.FLT_GEN_EVENT_GRADE_ABSENT_WRITE s) s
  let open_ (k : Nat) : Bool := islReleased s (islLANE k) && !islFenced s (islLANE k) && !islQuar s (islLANE k)
  let up := here.filter open_
  let s := (here.filter fun k => !open_ k).foldl
    (fun s k => raise R.FLT_GEN_EVENT_REG_ISLAND_DOWN s (islLANE k) 0xA000C) s
  let ok := passing s 16 up
  let s := whenS (ok.length ≠ up.length) (fun s => raise R.LNK_EVENT_MIX_INVALID s) s
  if ok.isEmpty then s else applyQuads ok s

/-- LNK_COMMIT (R231). -/
def execLnkCommit (req : Requester) (val : Nat) (s : State) : Host.Outcome State Fault Refusal :=
  ran (writeAt req 0xA000C (fun _ s => lnkCommit val s) s.begin)

/-! ### Link states (R243 to R246) -/

/-- SIGNAL_DETECT (R245): lane `n` detects a signal; with one on every lane, a DOWN port starts. -/
def execSignalDetect (n : Nat) (s : State) : Host.Outcome State Fault Refusal :=
  let s := s.begin
  ran (if laneUp s n && !flag s R.LNK_LANE_CFG_RX_SLEEP n then
    let s := setF R.LNK_LANE_STAT_SIGNAL 1 s n
    let p := portOfLane s n
    if isPort s p && portState s p == pDOWN && (portLanes s p).all fun m => flag s R.LNK_LANE_STAT_SIGNAL m then
      if flag s R.LNK_PORT_CFG_LT_ENA p then
        setPort p pTRAINING none ((portLanes s p).foldl (fun s m => setF R.LNK_LANE_STAT_LT_STATE 1 s m) s)
      else setPort p pALIGNING none s
    else s
  else s)

/-- SIGNAL_LOSS (R245): lane `n` loses its signal. -/
def execSignalLoss (n : Nat) (s : State) : Host.Outcome State Fault Refusal :=
  let s := s.begin
  ran (if laneUp s n then
    let p := portOfLane s n
    portLost p 1 (whenS (modeLanes (portMode s p) > 1) (alignLost p) (setF R.LNK_LANE_STAT_SIGNAL 0 s n))
  else s)

/-- LINK_TRAINING_DONE (R244): every lane of port `p` is ready; `eqs` are the trained equaliser words by lane. -/
def execLinkTrainingDone (p : Nat) (eqs : List Nat) (s : State) : Host.Outcome State Fault Refusal :=
  let s := s.begin
  ran (if laneUp s p && portState s p == pTRAINING then
    let s := ((portLanes s p).zip (eqs ++ List.replicate 8 0x00FC34F8)).foldl (fun s x =>
      setF R.LNK_LANE_STAT_LT_STATE 2 (setF R.LNK_TXEQ_PRE (bitsOf x.2 16 8)
        (setF R.LNK_TXEQ_MAIN (bitsOf x.2 8 8) (setF R.LNK_TXEQ_POST (bitsOf x.2 0 8) s x.1) x.1) x.1) x.1) s
    setPort p pALIGNING none s
  else s)

/-- The training limit (R244). -/
def ltLimit (s : State) (p : Nat) : Int :=
  let t := getF s R.LNK_TIMERS_LT_TIMEOUT p
  let ms := if t ≠ 0 then t * 100 else if portMode s p = 6 ∨ portMode s p ≥ 8 then 3000 else 500
  ms * unitMs

def portSince (s : State) (p : Nat) : Int := smGet 0 s.lnk.since p

/-- LT_FAIL (R244): training outlasts its limit. -/
def execLtFail (p : Nat) (s : State) : Host.Outcome State Fault Refusal :=
  let s := s.begin
  ran (if laneUp s p && portState s p == pTRAINING && decide (now s - portSince s p ≥ ltLimit s p) then
    let s := (portLanes s p).foldl (fun s n => setF R.LNK_LANE_STAT_LT_STATE 3 s n) s
    raise R.LNK_PORT_EVENT_LT_FAIL (setPort p pDOWN none s) p
  else s)

/-- The debounce time has passed. -/
def debounced (s : State) (p : Nat) : Bool :=
  decide (now s - portSince s p ≥ (getF s R.LNK_TIMERS_UP_DEBOUNCE_US p : Int) * unitUs)

/-- Auto-negotiation lets the port come up (R242, R243): 1000BASE-X with AN_ENA = 1 has negotiated full duplex, an SGMII partner has not
signalled another speed; no other mode negotiates. -/
def anOk (s : State) (p : Nat) (an : Option Bool) : Bool :=
  if portMode s p = 1 then !flag s R.LNK_PORT_CFG_AN_ENA p || an == some true else !s.lnk.badAn.contains p

/-- LINK_CONDITIONS_MET (R245): locks are acquired and the port is ALIGNING; a multi-lane port has measured its deskew. `an` is the result
of Clause 37 auto-negotiation, full duplex or not. -/
def execLinkConditionsMet (link : LinkReady) (s : State) : Host.Outcome State Fault Refusal :=
  let s := s.begin
  let p := link.port
  ran (if laneUp s p && portState s p == pALIGNING && aligned s p && anOk s p link.an then
    let am := modeLanes (portMode s p) > 1 || portFec s p ≥ 2
    let s := (portLanes s p).foldl (fun s n =>
      setF R.LNK_LANE_STAT_BLOCK_LOCK 1 (setFlag R.LNK_LANE_STAT_AM_LOCK am (setF R.LNK_LANE_STAT_HI_BER 0 s n) n) n) s
    let s := setPort p pDEBOUNCE none s
    if getF s R.LNK_TIMERS_UP_DEBOUNCE_US p = 0 then setPort p pUP none s else s
  else s)

/-- LINK_UP (R246): the debounce time ends. -/
def execLinkUp (p : Nat) (s : State) : Host.Outcome State Fault Refusal :=
  let s := s.begin
  ran (if laneUp s p && portState s p == pDEBOUNCE && debounced s p then setPort p pUP none s else s)

/-- LINK_DOWN (R246): a link-up condition is lost for `cause` (DOWN_CAUSE 1 to 4 or 7). A port in RX_ONLY, which has no link, loses its
locks alone (R90). -/
def execLinkDown (p cause : Nat) (s : State) : Host.Outcome State Fault Refusal :=
  let s := s.begin
  ran (if laneUp s p && (portState s p == pDEBOUNCE || portState s p == pUP || portState s p == pRX_ONLY) then
    let each (f : Fld) (v : Nat) (s : State) : State := (portLanes s p).foldl (fun s n => setF f v s n) s
    let s := match cause with
      | 1 => each R.LNK_LANE_STAT_SIGNAL 0 s
      | 2 => each R.LNK_LANE_STAT_BLOCK_LOCK 0 s
      | 3 => each R.LNK_LANE_STAT_AM_LOCK 0 s
      | 4 => each R.LNK_LANE_STAT_HI_BER 1 s
      | _ => s
    portLost p cause (whenS (1 ≤ cause && decide (cause ≤ 3) && decide (modeLanes (portMode s p) > 1)) (alignLost p) s)
  else s)

/-- SGMII_CONTROL_WORD (R243): the partner of an SGMII port signals its speed in Mb/s. -/
def execSgmiiControlWord (p mbps : Nat) (s : State) : Host.Outcome State Fault Refusal :=
  let s := s.begin
  ran (if laneUp s p && portMode s p == 2 then
    let bad := mbps ≠ 1000
    let s := { s with lnk := { s.lnk with badAn := setIn p bad s.lnk.badAn } }
    if bad then portLost p 7 (raise R.LNK_PORT_EVENT_AN_FAIL s p) else s
  else s)

/-! ### Lane configuration (R244, R247, R249) -/

/-- A write of LNK_LANE_CFG. -/
def writeLaneCfg (n val : Nat) (s : State) : State :=
  let p := portOfLane s n
  let txOld := flag s R.LNK_LANE_CFG_TX_SLEEP n
  let rxOld := flag s R.LNK_LANE_CFG_RX_SLEEP n
  let tx := bitOf val 31
  let rx := bitOf val 30
  let s := setFlag R.LNK_LANE_CFG_TX_SLEEP tx (setFlag R.LNK_LANE_CFG_RX_SLEEP rx s n) n
  let s := setF R.LNK_LANE_CFG_TX_INV (bitsOf val 27 1) (setF R.LNK_LANE_CFG_RX_INV (bitsOf val 26 1) s n) n
  let s := if portState s p = pCAL then s else setF R.LNK_LANE_CFG_LOOP (bitsOf val 28 2) s n
  let s := if tx && !txOld then
      setF R.LNK_LANE_STAT_TX_AWAKE 0 { s with lnk := { s.lnk with waking := smPut none s.lnk.waking n none } } n
    else if !tx && txOld then { s with lnk := { s.lnk with waking := smPut none s.lnk.waking n (some (now s)) } }
    else s
  let s := if rx && !rxOld then
      tallyInvalid n (setF R.LNK_LANE_STAT_RX_AWAKE 0 (setF R.LNK_LANE_STAT_SIGNAL 0 (setF R.LNK_LANE_STAT_CDR_LOCK 0 s n) n) n)
    else if !rx && rxOld then setF R.LNK_LANE_STAT_RX_AWAKE 1 s n
    else s
  let s := if portState s p = pTRAINING ∧ (tx ≠ txOld ∨ rx ≠ rxOld) then portLost p (if rx && !rxOld then 1 else 0) s else s
  let s := settlePort p s
  let s := if rx && !rxOld && (portForced s p).isNone then portLost p 1 s else s
  forcePort p (activityCheck s)

/-- LANE_CFG_WRITE (R247). -/
def execLaneCfgWrite (req : Requester) (val : Nat) (s : State) : Host.Outcome State Fault Refusal :=
  ran (writeAt req 0xA0408 (fun n s => writeLaneCfg n val s) s.begin)

/-- TX_DRIVER_AWAKE (R247): the driver of lane `n` is awake again. -/
def execTxDriverAwake (n : Nat) (s : State) : Host.Outcome State Fault Refusal :=
  let s := s.begin
  ran (if laneUp s n && (smGet none s.lnk.waking n).isSome then
    let s := setF R.LNK_LANE_STAT_TX_AWAKE 1 { s with lnk := { s.lnk with waking := smPut none s.lnk.waking n none } } n
    settlePort (portOfLane s n) s
  else s)

/-- A write of LNK_TXEQ (R244): discarded beyond full swing; with LT_ENA = 1 training sets the equaliser. -/
def writeTxeq (n val : Nat) (s : State) : State :=
  let pre := sx 8 (bitsOf val 16 8)
  let post := sx 8 (bitsOf val 0 8)
  if pre.natAbs + bitsOf val 8 8 + post.natAbs > 64 then raise R.LNK_PORT_EVENT_TXEQ_INVALID s n
  else if flag s R.LNK_PORT_CFG_LT_ENA (portOfLane s n) then s
  else setF R.LNK_TXEQ_PRE (bitsOf val 16 8) (setF R.LNK_TXEQ_MAIN (bitsOf val 8 8) (setF R.LNK_TXEQ_POST (bitsOf val 0 8) s n) n) n

/-- TXEQ_WRITE (R244). -/
def execTxeqWrite (req : Requester) (val : Nat) (s : State) : Host.Outcome State Fault Refusal :=
  ran (writeAt req 0xA040C (fun n s => writeTxeq n val s) s.begin)

/-! ### Elastic buffer, LPI (R235, R236, R241) -/

/-- Lane `n` has an elastic buffer: its port's quad is FREE (R235). -/
def hasEb (s : State) (n : Nat) : Bool := laneUp s n && isPort s (portOfLane s n) && quadFree s (quadOf n)

/-- EB_IDLE_ADJUST (R235): the fill of lane `n`'s buffer has left 32 ± 8 words, to `fill`: its port inserts or deletes an idle. -/
def execEbIdleAdjust (n fill : Nat) (s : State) : Host.Outcome State Fault Refusal :=
  let s := s.begin
  ran (if hasEb s n then
    let p := portOfLane s n
    let s := setF R.LNK_LANE_STAT_EB_FILL fill s n
    if fill < 24 then bump R.LNK_CNT_EB_INS_COUNT s p else if fill > 40 then bump R.LNK_CNT_EB_DEL_COUNT s p else s
  else s)

/-- EB_SLIP (R236): the fill of lane `n`'s buffer reaches 0 or 64; the frame passing through its port is discarded. -/
def execEbSlip (n : Nat) (s : State) : Host.Outcome State Fault Refusal :=
  let s := s.begin
  ran (if hasEb s n then
    let p := portOfLane s n
    let s := (frames s).foldl (fun s x =>
      if x.2.port = p ∧ !x.2.ended then if x.2.engine.isSome then dropFrame 0x0F x.1 s else frameBad 0x0F x.1 s else s) s
    raise R.LNK_PORT_EVENT_EB_SLIP (setF R.LNK_LANE_STAT_EB_FILL 32 s n) p
  else s)

/-- LPI_RX (R241). -/
def execLpiRx (p : Nat) (s : State) : Host.Outcome State Fault Refusal :=
  let s := s.begin
  ran (if laneUp s p && isPort s p then
    let first := !s.lnk.lpi.contains p
    let s := bump R.LNK_CNT_LPI_COUNT { s with lnk := { s.lnk with lpi := setIn p true s.lnk.lpi } } p
    whenS first (fun s => raise R.LNK_PORT_EVENT_LPI_RX s p) s
  else s)

/-! ### Calibration (R250 to R256) -/

/-- The calibration of R250 to R254 ends with the quads' load means (2^-16 ns), the lanes' measurements, and for each output its cell
delay (2^-16 ns) and spread (ps). -/
def calibrated (quads : List (Nat × Int)) (lanes : List LaneCal) (outs : List (Nat × Nat × Nat)) (s : State) : State :=
  let s := (quads.filter fun q => frontPresent s (4 * q.1)).foldl (fun s q => quadStep q.1 q.2 s) s
  let s := (lanes.filter fun c => frontPresent s c.lane).foldl (fun s c => laneStep c s) s
  let s := outs.foldl (fun s o =>
    if o.2.2 > 6 then raise R.LNK_EVENT_OUT_CAL_INVALID s 0 o.1 else { s with lnk := { s.lnk with cells := smPut 0 s.lnk.cells o.1 o.2.1 } }) s
  let s := setF R.LNK_GSTAT_CAL_FAILED_LANES (failedLanes s) (setF R.LNK_GSTAT_CAL_RUNNING 0 (calChannels false s))
  let done := (List.range 64).all fun n => !frontPresent s n || getF s R.LNK_CAL_STAT_RESULT n == 1 || getF s R.LNK_CAL_STAT_RESULT n == 2
  forceAll (settleAll (setFlag R.TSU_GSTAT_CAL_DONE done s))

/-- QUAD_CALIBRATION_DONE (R238): quad `k` has run R251 and R252 after its change to TIMING. -/
def execQuadCalibrationDone (k : Nat) (load : Int) (lanes : List LaneCal) (s : State) : Host.Outcome State Fault Refusal :=
  let s := s.begin
  ran (if islUp s (islLANE k) && s.lnk.quadCal.contains k then
    let s := (lanes.filter fun c => quadOf c.lane = k).foldl (fun s c => laneStep c s) (quadStep k load s)
    let s := setF R.LNK_GSTAT_CAL_FAILED_LANES (failedLanes s) { s with lnk := { s.lnk with quadCal := setIn k false s.lnk.quadCal } }
    forceAll (settleAll s)
  else s)

/-- A recalibration of lane `n` is refused (R256). -/
def recalRefused (s : State) (n : Nat) (full : Bool) : Bool :=
  flag s R.LNK_LANE_CFG_TX_SLEEP n || flag s R.LNK_LANE_CFG_RX_SLEEP n || getF s R.LNK_LANE_CFG_LOOP n ≠ 0
    || portMode s (portOfLane s n) == 11 || (!full && !flag s R.TSU_TALLY_LOCK n) || s.lnk.full.contains n || s.lnk.part.contains n

/-- A recalibration request for lane `n`; FULL takes every lane of its port. -/
def requestRecal (n : Nat) (full : Bool) (s : State) : State :=
  let p := portOfLane s n
  let lanes := if full && isPort s p then portLanes s p else [n]
  if recalRefused s n full then raise R.LNK_PORT_EVENT_RECAL_REFUSED s n
  else
    let s := lanes.foldl (fun s m => setFlag R.LNK_CAL_STAT_LAST_KIND (!full) (setF R.LNK_CAL_STAT_RESULT 3 s m) m) s
    let s := if full then { s with lnk := { s.lnk with full := lanes.foldl (fun l m => setIn m true l) s.lnk.full } }
      else { s with lnk := { s.lnk with part := setIn n true s.lnk.part } }
    borrow (if full then settlePort p s else s)

/-- A write of LNK_RECAL: FULL before PARTIAL. -/
def writeRecal (n val : Nat) (s : State) : State :=
  if bitOf val 1 then requestRecal n true s else if bitOf val 0 then requestRecal n false s else s

/-- RECAL_PARTIAL (R255): a write of LNK_RECAL. -/
def execRecalPartial (req : Requester) (val : Nat) (s : State) : Host.Outcome State Fault Refusal :=
  ran (writeAt req 0xA0430 (fun n s => writeRecal n val s) s.begin)

/-- RECAL_FULL (R255): a write of LNK_RECAL. -/
def execRecalFull (req : Requester) (val : Nat) (s : State) : Host.Outcome State Fault Refusal :=
  ran (writeAt req 0xA0430 (fun n s => writeRecal n val s) s.begin)

/-! ### The requests of the margin plan (R482) -/

/-- A reading of canary `4 site + j`, where it is VALID. -/
def canVal (s : State) (site j : Nat) : Option Int :=
  if flag s R.MON_CAN_VAL_VALID (4 * site + j) then some (getS s R.MON_CAN_VAL_VALUE (4 * site + j)) else none

/-- The conditions of a recalibration or a refill: the temperature of site `site`, which is VALID, has moved by `dk` K, or `h` hours have
passed. -/
def planDue (s : State) (key site dk h : Nat) : Bool :=
  match canVal s site 2 with
  | some t => decide ((t - smGet 0 s.mon.calTemp key).natAbs ≥ 16 * dk)
    || (h ≠ 0 && decide (copyNow s islMCU - smGet 0 s.mon.calAt key ≥ (h : Int) * 3600 * unitS))
  | none => false

/-- The recalibration that the plan wants of lane `n`, FULL or not: of a timing lane whose conditions hold, by its port's state, and FULL
after a failed PARTIAL one. -/
def laneWant (s : State) (n : Nat) : Option Bool :=
  if !laneUp s n || quadFree s (quadOf n) || (canVal s (canSite n) 2).isNone || s.lnk.full.contains n || s.lnk.part.contains n then none
  else
    let st := portState s (portOfLane s n)
    let due := planDue s n (canSite n) (min 9 (zeroAs 1 (getF s R.MON_PLAN_CFG_RECAL_DK))) (getF s R.MON_PLAN_CFG_RECAL_H)
    if (getF s R.LNK_CAL_STAT_RESULT n == 2 && flag s R.LNK_CAL_STAT_LAST_KIND n) || (due && (st = 0 || st = pDOWN)) then some true
    else if due && st = pUP && flag s R.TSU_TALLY_LOCK n then some false
    else none

/-- The plan wants a refill of channel `n`, in TABLE mode. -/
def refillWant (s : State) (n : Nat) : Bool :=
  islUp s islTDC && flag s R.TDC_CH_CFG_CAL_MODE n && (tdcCh s n).refill == 0
    && planDue s (64 + n) 0 (zeroAs 1 (getF s R.MON_PLAN_CFG_TDC_DK)) (getF s R.MON_PLAN_CFG2_TDC_H)

/-- The recalibration of a lane, or the refill of a channel (from 64), is under way. -/
def planRuns (s : State) (key : Nat) : Bool :=
  if key < 64 then s.lnk.full.contains key || s.lnk.part.contains key else (tdcCh s (key - 64)).refill ≠ 0

/-- The request for `key`, if it is still wanted. -/
def planAsk (key : Nat) (s : State) : State :=
  if key < 64 then (match laneWant s key with | some full => requestRecal key full s | none => s)
  else whenS (refillWant s (key - 64)) (refillAsk (key - 64)) s

/-- Request one after the other until one is under way; a refused one is left to the next plan. -/
def planNext : List Nat → State → State
  | [], s => { s with mon := { s.mon with plan := [] } }
  | k :: rest, s =>
    let t := planAsk k s
    if planRuns t k then { t with mon := { t.mon with plan := k :: rest } } else planNext rest t

/-- The firmware that plans runs. -/
def plans (s : State) : Bool := islUp s islMCU && flag s R.FWT_STATUS_MGMT_RUN && flag s R.MON_PLAN_CFG_AUTO

/-- The request under way may be over: the next one follows. -/
def planTurn (s : State) : State :=
  match s.mon.plan with
  | [] => s
  | k :: rest => if planRuns s k then s else if plans s then planNext rest s else { s with mon := { s.mon with plan := [] } }

/-- RECAL_COMPLETE (R255): a lane's recalibration ends; a FULL one has run the quad step. -/
def execRecalComplete (fin : RecalEnd) (s : State) : Host.Outcome State Fault Refusal :=
  let s := s.begin
  let cal := fin.cal
  let n := cal.lane
  let part := s.lnk.part.contains n
  ran (if laneUp s n && s.tdc.borrowed.isSome && (part || s.lnk.full.contains n) then
    let a := if part then getS s R.LNK_CAL_LOOP_A n * 65536 else calA cal
    let ok := calPass cal a
    let s := { s with lnk := { s.lnk with part := setIn n false s.lnk.part, full := setIn n false s.lnk.full } }
    let s := calStat cal ok part (whenS (!part) (quadStep (quadOf n) fin.load) s)
    let s := if ok then
        let s := noteTemp n (canSite n) (newConstants n (if part then calPartial cal a else calFull cal) s)
        let s := if part then s else setF R.LNK_CAL_LOOP_A (toU 32 (to16 a)) (setF R.TSU_STATUS_CAL_VALID 1 s n) n
        raise R.TSU_EVENT_CAL_UPDATED s n
      else raise R.LNK_PORT_EVENT_CAL_FAIL s n
    planTurn (giveBack (forcePort (portOfLane s n) (settlePort (portOfLane s n) s)))
  else s)

end Sys2Proof.Machine
end

