-- ==== Sys2Proof/Machine/IslOps.lean ====
section
/-!
DEFINITION. Sys2Proof/Machine/IslOps.lean: what follows when an island goes down (spec/01 R24, R25; spec/17 R461), and what a reset
of each level does to the operating state and the registers (spec/14 R387, R388).
-/
namespace Sys2Proof.Machine

/-! ### Presence -/

/-- Slot `i` holds an island of this grade (R18, R21). -/
def islPresent (s : State) (i : Nat) : Bool :=
  i == 0 || (allIslands.contains i
    && !(flag s R.GLB_CAP_VALID && !lanesHi s && (i == 8 || i == 9 || decide (24 ≤ i))))

/-! ### Frames that are flushed (R305) -/

/-- Every copy of frame `f` is discarded and counted once (R305). -/
def flushFrame (reason f : Nat) (s : State) : State :=
  match frameAt s f with
  | none => s
  | some x =>
    let s :=
      if x.admitted then x.copies.foldl (fun s c => sumpCount reason x.port (some (c.out, c.tc)) s) s
      else txDecided x false (sumpCount reason x.port none s)
    forgetFrame f s

/-- BUF discards every queued copy and every frame in progress (R305); link holds end, the free lists are rebuilt (R442) and the LFSRs take
their seeds (R294). -/
def flushBuf (s : State) : State :=
  let s := (frames s).foldl (fun s x => flushFrame 0x1F x.1 s) s
  setF R.MON_ECC_WITHHELD_CELLS 0
    { s with buf := { s.buf with holds := [], lfsr := [], cells := [], unused := Buf.reset.unused, back := Buf.reset.back } }

/-- EGR stops: nothing is selected and nothing leaves. -/
def egrIdle (s : State) : State :=
  let idle (p : Nat × EgrPort) : Nat × EgrPort := (p.1, { p.2 with sel := none, tx := none, ptx := none })
  let s := { s with egr := { s.egr with ports := (s.egr.ports.map idle).filter fun p => p.2 ≠ EgrPort.reset } }
  (frames s).foldl (fun s x =>
    if x.2.copies.any (·.st == .selected) then
      setFrame x.1 (some { x.2 with copies := x.2.copies.map fun c => if c.st = .selected then { c with st := .queued } else c }) s
    else s) s

/-- Levels, credits, tags and virtual times after a PATH reset (R319). -/
def egrRestart (s : State) : State :=
  (outputs s).foldl (fun s o =>
    let full (c : Nat) : Int := if shaper s o c = 1 then getF s (clsF R.EGR_CLS_BURST_BURST c) o * 256 else 0
    setEgrPort o { egrPort s o with cls := (List.range 8).map fun c => ⟨0, full c, 0, copyNow s islEGR / unitNs, none⟩
                                    bandV := 0, tags := [], noFit := [], never := [] } s) (egrIdle s)

/-- RED goes down (R349): held frames go, frames that wait for a decision are settled by DOWN_ACT, FLUSH raises. -/
def redLost (s : State) : State :=
  let pass := flag s R.RED_GCFG_DOWN_ACT
  let s := redDown 0x1E s
  let wait := ((frames s).filter fun x => x.2.admitted && x.2.frer == .waiting).map (·.1)
  raise R.RED_EVENT_FLUSH (wait.foldl (fun s f => if pass then redPass f false s else redDiscard 0x1E f s) s)

/-! ### An island goes down -/

/-- The TDC stops: pairs, queues, refills and takeovers end (R387, R461). -/
def tdcStop (s : State) : State :=
  settleTdc { s with tdc := { s.tdc with chs := [], spare := none, waits := [], turn := 0, borrowed := none, presc := [] } }

/-- SYN stops every output (R189, R194) and TOD_OUT idles. -/
def synStop (s : State) : State :=
  let s := outIds.foldl (fun s n => stopOut n oOFF s) s
  { s with syn := { s.syn with todStart := 0, todBusy := 0, edges := [], todWait := [] } }

/-- Both controllers of MCU stop (R461). -/
def mcuStop (s : State) : State :=
  let s := setF R.FWT_STATUS_MGMT_RUN 0 (setF R.FWT_STATUS_SERVO_RUN 0 (setF R.FWT_STATUS_LIMP 0 (setF R.HIF_GSTAT_MCU_READY 0 s)))
  { s with sys := { s.sys with boot := 0, late := [] } }

/-- What is lost when island `i`, up until now, goes down by reset, fence or loss of its clock. -/
def islLost (i : Nat) (s : State) : State :=
  let s := crossDown i s
  if i = islTIME then setF R.TSU_GSTAT_RXCOUNT_VALID 0 s
  else if i = islSYN then synStop s
  else if i = islTDC then tdcStop s
  else if i = islMCU then mcuStop s
  else if 6 ≤ i ∧ i ≤ 9 then loseInputs (fun p => (if p < 64 then p / 16 else 0) == i - 6) s
  else if i = islBUF then loseLeaving (fun _ => true) (loseInputs (fun _ => true) s)
  else if i = islEGR then egrIdle (loseLeaving (fun _ => true) s)
  else if i = islRED then redLost s
  else if 16 ≤ i then quadLost (i - 16) none s
  else s

/-! ### Registers at a reset (R388, R10) -/

/-- The register at `off` has reset level COLD; the others have WARM. -/
def coldReg (off : Nat) : Bool :=
  let lo := off % 0x10000
  match blockOf off with
  | 0 => true
  | 1 => true
  | 2 => off ≠ 0x20004
  | 3 => false
  | 4 => true
  | 5 => [0x110, 0x114, 0x118, 0x130, 0x134].contains lo
  | 6 => lo == 0x10 || lo == 0x14 || lo == 0x114
  | 7 => true
  | 8 => lo < 0x300 || (0x810 ≤ lo && (lo - 0x810) % 0x40 == 0)
  | 9 => lo == 0 || lo == 0x20 || lo == 0x24 || (0x1000 ≤ lo && lo % 0x40 < 0x10)
  | 0xA => lo == 0x434 || lo == 0x438
  | 0xF => 0x800 ≤ lo
  | _ => false

/-- Status fields that show what a WARM reset keeps: calibration, receive counts and locks (R39, R178, R387). -/
def warmKept (off lo : Nat) : Bool :=
  off == 0x50008 || (off == 0x50104 && lo == 3) || (off == 0xA0004 && lo ≠ 31)
    || (0xA0100 ≤ off && off < 0xA0200 && off % 0x10 == 8) || (off == 0xA0414 && (lo == 31 || lo == 30))
    || (off == 0x90004 && lo == 20)

/-- Registers that a COLD reset other than POWER_ON keeps: RST_CAUSE, FLT_ESC, the pending fatal fault, and what the sequencer
itself keeps up to date (R390, R456, R462, R463). -/
def coldKept (off lo : Nat) : Bool :=
  [0x10004, 0x10010, 0x10014, 0x10018, 0x1001C, 0x20018].contains off || (off == 0x10000 && lo == 28) || (off == 0x20000 && lo == 27)

/-- The field at `off`, `lo` survives a WARM reset as RWS (R10). -/
def isRws (off lo : Nat) : Bool := (rowFields off).any fun r => r.lo == lo && r.acc == .rws

/-- Registers go back to their reset values at level `lvl` (0 COLD, 1 WARM). -/
def resetRegs (lvl : Nat) (s : State) : State :=
  let keep (k : Nat) : Bool :=
    let off := k / 32 % 0x100000
    let lo := k % 32
    if lvl = 0 then coldKept off lo else coldReg off || warmKept off lo || isRws off lo
  { s with regs := smKeep keep s.regs
           sels := smKeep (fun k => decide (lvl ≥ 2) && keep (k % 0x100000 * 32)) s.sels }

/-! ### Operating state at a reset (R387) -/

/-- HOST: every ring OFF; the PCIe function starts again (R362, R387). -/
def hostReset (cold : Bool) (s : State) : State :=
  let s := (List.range 32).foldl (fun s r =>
    setF R.HIF_RING_STAT_STATE 0 (setF R.HIF_RING_STAT_DEV_INDEX 0 (setF R.HIF_RING_STAT_ERR_CAUSE 0 s r) r) r) s
  let s := eccRepair 16 163840 8192 s
  setF R.HIF_GSTAT_BME 0
    { s with hif := { Hif.reset with flash := s.hif.flash, linkUp := !cold && s.hif.linkUp }, caps := [], staged := [] }

/-- MCU: the staging memories survive all but COLD (R422). -/
def mcuReset (cold : Bool) (s : State) : State :=
  let s := eccClear (· == 17) (mcuStop s)
  if cold then { s with sys := { s.sys with stage := [], stageOk := [] } } else s

/-- The PCS and MAC of quad `q` start again: locks, training and buffers; recalibrations of its lanes end. -/
def laneReset (q : Nat) (s : State) : State :=
  let ls := [4 * q, 4 * q + 1, 4 * q + 2, 4 * q + 3]
  let s := ls.foldl (fun s n =>
    setF R.LNK_LANE_STAT_BLOCK_LOCK 0 (setF R.LNK_LANE_STAT_AM_LOCK 0 (setF R.LNK_LANE_STAT_HI_BER 0
      (setF R.LNK_LANE_STAT_LT_STATE 0 (setF R.TSU_DESKEW_VALID 0 s n) n) n) n) n) s
  let out (l : List Nat) : List Nat := l.filter fun n => !ls.contains n
  giveBack { s with lnk := { s.lnk with badAn := out s.lnk.badAn, lpi := out s.lnk.lpi, full := out s.lnk.full, part := out s.lnk.part } }

/-- The operating state of island `i` after a reset of level `lvl`. -/
def opReset (lvl i : Nat) (s : State) : State :=
  if i = islTIME then
    eccClear (· == 14) (if lvl = 0 then { s with tim := Tim.reset, ref := Ref.reset, pte := Pte.reset } else { s with pte := Pte.reset })
  else if i = islSYN then
    { s with syn := if lvl = 0 then Syn.reset
        else { s.syn with outs := smMapTo OutRt.reset 12 (fun x => { OutRt.reset with completing := x.completing }) s.syn.outs } }
  else if i = islTDC then if lvl = 0 then { s with tdc := Tdc.reset } else s
  else if i = islMCU then mcuReset (lvl = 0) s
  else if i = islHOST then hostReset (lvl ≤ 1) s
  else if 6 ≤ i ∧ i ≤ 9 then
    if lvl ≤ 1 then eccClear (fun m => 3 ≤ m && m ≤ 10) { s with ing := Ing.reset } else if i = 6 then { s with ing := { s.ing with queue := [] } } else s
  else if i = islBUF then
    eccClear (· ≤ 2) (if lvl ≤ 1 then { flushBuf s with buf := Buf.reset } else flushBuf s)
  else if i = islEGR then if lvl ≤ 1 then eccClear (fun m => m == 11 || m == 12) { egrIdle s with egr := Egr.reset } else egrRestart s
  else if i = islRED then if lvl ≤ 1 then eccClear (· == 13) { s with red := Red.reset } else s
  else if 16 ≤ i then
    let s := laneReset (i - 16) s
    if lvl = 0 then { s with lnk := { s.lnk with since := [], waking := [], quadCal := [], cells := [] }, tallies := [], calPends := [] } else s
  else s

/-- What a WARM reset does in islands it keeps: the protocol engine's registers go (R388), the tallies count afresh, and the
windows of BUF's monitors start again. -/
def warmRest (s : State) : State :=
  let s := (List.range 64).foldl (fun s n => setTally n { Tally.reset with invalidSince := now s } s) s
  { s with pte := Pte.reset, mon := { s.mon with cyc := 0, bw := [], bwSkip := [], bwAt := [], bwPend := [], histAt := [], above := [] } }

end Sys2Proof.Machine
end

