-- ==== Sys2Proof/Machine/RstOps.lean ====
section
/-!
DEFINITION. Sys2Proof/Machine/RstOps.lean: the reset sequencer of SAFE (spec/14), the service mode and the fences (spec/17).
-/
namespace Sys2Proof.Machine

/-! ### SAFE's time (R464) -/

/-- SAFE's corrected count has reached `us`; it never goes back. -/
def tickUs (us : Nat) (s : State) : State := if s.sys.us < us then { s with sys := { s.sys with us := us } } else s

/-- Milestone `m` of R396 is reached. -/
def milestone (m : Nat) (s : State) : State :=
  if getF s R.RST_MILESTONE_T_US m = 4294967295 then setF R.RST_MILESTONE_T_US (s.sys.us - s.sys.start) s m else s

/-! ### Service mode (R452) -/

/-- FLT_STATUS.MODE. -/
def svcMode (s : State) : Nat :=
  if s.flt.startUp then 1 else if s.flt.recovery then 2
  else if flag s R.FLT_CTL_TEST || getF s R.RST_ISL_QUAR_ISLAND ≠ 0 then 3 else 0

/-- Change the open record. -/
def modOpen (f : FltRecord → FltRecord) (s : State) : State :=
  match s.flt.openSlot with
  | some k => { s with flt := { s.flt with recs := s.flt.recs.modify k fun r => r.map f } }
  | none => s

def openRec (s : State) : Option FltRecord :=
  match s.flt.openSlot with | some k => (s.flt.recs.getD k none) | none => none

/-- Outside normal service no reaction timer runs (R458). -/
def modeSync (s : State) : State := if svcMode s = 0 then s else modOpen (fun r => { r with deadline := none }) s

/-! ### ALIVE (R464) -/

def aliveStop (s : State) : State :=
  if s.flt.aliveRun then raise R.FLT_GEN_EVENT_ALIVE_STOPPED { s with flt := { s.flt with aliveRun := false } } else s

/-- ALIVE starts or starts again, with a full low phase: not before the oscillator check, nor without a crystal input, nor while a device-fatal fault is
pending. -/
def aliveStart (s : State) : State :=
  if s.flt.fatal || !s.sys.oscOk then s else emit (.pin "ALIVE" false) { s with flt := { s.flt with aliveRun := true, aliveStarted := true } }

/-! ### READY (R397) -/

/-- Every present island is released, fenced or quarantined. -/
def allSettled (s : State) : Bool :=
  allIslands.all fun i => !islPresent s i || islReleased s i || islFenced s i || islQuar s i

/-- The boot ROM has started the images or decided not to, or cannot run. -/
def bootSettled (s : State) : Bool := s.sys.boot == 2 || (!islUp s islMCU && (islFenced s islMCU || islQuar s islMCU))

def readyCheck (s : State) : State :=
  if s.flt.startUp && s.sys.jobs.all (fun j => j.level == 3) && allSettled s && bootSettled s
      && (s.sys.profDone || !islUp s islMCU) && (s.sys.level ≠ 0 || flag s R.TSU_GSTAT_CAL_DONE || s.sys.calLate) then
    milestone 7 (setF R.RST_STATUS_READY 1 { s with flt := { s.flt with startUp := false } })
  else s

/-! ### Resets in progress (R392, R394) -/

/-- SAFE drives RESET_N low (R394). -/
def driven (s : State) : Bool := s.sys.jobs.any fun j => j.drive && !j.stretched

/-- The pin follows what drove it before (`was`) and what drives it now; the input is ignored for 10 µs after a release (R395). -/
def pinFollows (was : Bool) (s : State) : State :=
  if was && !driven s then emit (.pin "RESET_N" true) { s with sys := { s.sys with pinFree := s.sys.us + 10 } }
  else if !was && driven s then emit (.pin "RESET_N" false) s
  else s

/-- A reset whose stretch is over and whose islands have all returned has ended: ALIVE restarts after a COLD or WARM one. -/
def jobsSettle (s : State) : State :=
  let done := s.sys.jobs.filter fun j => j.stretched && j.wait.isEmpty
  let s := { s with sys := { s.sys with jobs := s.sys.jobs.filter fun j => !(j.stretched && j.wait.isEmpty) } }
  let s := setFlag R.RST_STATUS_SEQ_BUSY (!s.sys.jobs.isEmpty) s
  readyCheck (whenS (done.any fun j => decide (j.level ≤ 1)) aliveStart s)

/-- Island `i` no longer holds any reset up; RECOVERY counts from the last release (R452). -/
def unwait (i : Nat) (s : State) : State :=
  let drop (j : RstJob) : RstJob := { j with wait := j.wait.filter (· ≠ i) }
  let s := { s with sys := { s.sys with jobs := s.sys.jobs.map drop } }
  if s.flt.recIsl.contains i then
    let l := s.flt.recIsl.filter (· ≠ i)
    { s with flt := { s.flt with recIsl := l, recoveryFrom := if l.isEmpty then some s.sys.us else none } }
  else s

/-! ### Fences (R461, R462) -/

def setIsl (f : Fld) (i : Nat) (b : Bool) (s : State) : State := setF f (putBit (getF s f) i b) s

/-- Fence island `i`; SAFE is never fenced. -/
def fence (i : Nat) (s : State) : State :=
  if i = 0 ∨ !allIslands.contains i ∨ islFenced s i then s
  else
    let was := islUp s i
    jobsSettle (unwait i (whenS was (islLost i) (setIsl R.RST_ISL_FENCED_ISLAND i true s)))

/-! ### Strikes (R390 to R392, R460) -/

/-- RST_SRC_MAP of source `src`. -/
def srcLevel (s : State) (src : Nat) : Nat := if src = 0 then 0 else getF s (R.RST_SRC_MAP_LEVEL.up (3 * src))
def srcDrive (s : State) (src : Nat) : Bool := src == 0 || flag s (R.RST_SRC_MAP_DRIVE.up (3 * src))

/-- The islands a level takes down (R387). -/
def levelIslands (lvl isl : Nat) : List Nat :=
  match lvl with
  | 0 => allIslands
  | 1 => allIslands.filter fun i => i ≠ islTIME && i ≠ islTDC
  | 2 => allIslands.filter fun i => 6 ≤ i
  | _ => [isl]

/-- The UNIT target of a source (R390). -/
def unitTarget (src isl : Nat) : Nat :=
  match src with
  | 1 => islMCU | 2 => islMCU | 5 => islHOST | 6 => islHOST | 7 => islHOST
  | _ => isl

/-- The slot that the next load reads (R414); a written RST_PROF_CFG takes effect first (R12). -/
def chooseSlot (cold : Bool) (s : State) : State :=
  let s := match s.sys.profCfg with
    | some v => setF R.RST_PROF_CFG_SRC (bitsOf v 31 1) (setF R.RST_PROF_CFG_SLOT v { s with sys := { s.sys with profCfg := none } })
    | none => s
  let s := whenS cold (fun s => setF R.RST_PROF_CFG_SRC 0 s) s
  let s := setF R.RST_STATUS_PROFSEL s.sys.straps s
  let slot := if flag s R.RST_PROF_CFG_SRC then getF s R.RST_PROF_CFG_SLOT else s.sys.straps % 4
  setF R.RST_STATUS_PROFILE_SLOT slot (setF R.RST_STATUS_PROFILE_NONE 0 s)

/-- Island `i` goes down for a reset of level `lvl`. -/
def takeDown (lvl i : Nat) (s : State) : State :=
  let was := islUp s i
  opReset lvl i (setIsl R.RST_ISL_RELEASED_ISLAND i false (whenS (i == islTIME) copiesStop (whenS was (islLost i) s)))

/-- FAILED of RST_LOAD_STAT from the loads that have failed for good. -/
def failedMask (s : State) : Nat := s.sys.failed.foldl (fun a n => putBit a n true) 0

/-- The loads and the boot that a COLD or WARM reset starts again (R389, R404, R405); a fuse, trim or profile load that has failed
for good is replaced by its default again (R407), the record is read at every COLD reset (R220). -/
def restartLoads (cold : Bool) (s : State) : State :=
  let y := s.sys
  let again (l : List Nat) : List Nat := l.filter fun n => n == 2 || !y.failed.contains n
  let y := if cold then
      { y with loads := again [0, 1, 2, 3], failed := y.failed.filter (· ≠ 2), recOk := false, cert := [], oscDone := false, oscOk := false, calLate := false, ceMs := [],
               scrub := [], trim := [], fuse := if y.failed.contains 0 then y.fuse else [], laneClk := [] }
    else { y with loads := y.loads.filter (· ≠ 3) ++ again [3] }
  setF R.RST_LOAD_STAT_PROFILE_ATT 0 { s with sys := { y with prof := [], profPos := 0, profWait := false, profDone := false } }

/-- Every lane starts with the nominal constants of the stepping (R105, TSU_CAL_RX and TSU_CAL_TX). -/
def nominalCals (s : State) : State :=
  let st := getF s R.GLB_ID_STEPPING
  (List.range 64).foldl (fun s n =>
    setF R.TSU_CAL_RX_DELAY (Config.nominal st 0x50110) (setF R.TSU_CAL_TX_DELAY (Config.nominal st 0x50114) s n) n) s

/-- GLB_CAP, STEPPING and the source map from the fuse words `ws` (R390, R403, R406). -/
def fuseFields (safe : Bool) (ws : List Nat) (s : State) : State :=
  let w1 := ws.getD 1 0
  let w2 := ws.getD 2 0
  let s := setF R.GLB_CAP_VALID 1 (setFlag R.GLB_CAP_FUSE_SAFE safe (setF R.GLB_CAP_GRADE (bitsOf w1 6 2) (setF R.GLB_CAP_CNT8 (bitsOf w1 5 1)
    (setF R.GLB_CAP_OCXO (bitsOf w1 4 1) s))))
  let s := setF R.GLB_CAP_FRER_ELIM (bitsOf w1 3 1) (setF R.GLB_CAP_FRER_RESEQ (bitsOf w1 2 1) (setF R.GLB_CAP_DOMAIN_B (bitsOf w1 1 1)
    (setF R.GLB_CAP_LANES_HI (w1 % 2) s)))
  let src (s : State) (k : Nat) : State :=
    setF (R.RST_SRC_MAP_LEVEL.up (3 * k)) (bitsOf w2 (3 * k) 2) (setF (R.RST_SRC_MAP_DRIVE.up (3 * k)) (bitsOf w2 (3 * k + 2) 1) s)
  nominalCals (setF R.GLB_ID_STEPPING (bitsOf w1 8 8) (setF R.RST_SRC_MAP_MAP_LOCK (bitsOf w2 31 1) ([1, 2, 3, 4, 5, 6, 7, 8].foldl src s)))

/-- The shadow of the safe defaults (R406): the -ED feature set, STEPPING from the boot ROM mask, the source map of R390, every lock
set, identity absent. -/
def defaultFuse : List Nat := [0, Config.maskStepping * 256 + 0x88, 2 ^ 31 + 57513828, 7] ++ List.replicate 124 0

def fuseDefaults (s : State) : State := fuseFields true defaultFuse s

/-- The clock section of the safe defaults (R406): XIN 25 MHz with N0 400, no OCXO. -/
def clockDefaults (s : State) : State :=
  setF R.SYN_APLL0_CFG_N0_XIN 400 (setF R.SYN_APLL0_CFG_N0_OCXO 0 (setF R.SYN_XIN_FREQ_FREQ_HZ 25000000 (setF R.SYN_OCXO_FREQ_FREQ_HZ 0 s)))

/-- What a reset of level `lvl` does beyond taking its islands down: COLD brings SAFE, the monitors and the line state to their
reset values and repeats the loads; WARM keeps what R395 keeps. -/
def levelState (lvl : Nat) (s : State) : State :=
  match lvl with
  | 0 =>
    let s := { s with mon := { Mon.reset with log := s.mon.log } }
    let s := resetRegs 0 { s with tallies := [], calPends := [], lnk := Lnk.reset, xings := [] }
    let s := setF R.RST_ISL_CLKVALID_ISLAND 1 (restartLoads true s)
    whenS (s.sys.failed.contains 3) clockDefaults (whenS (s.sys.failed.contains 0) fuseDefaults s)
  | 1 => settleTdc (warmRest (resetRegs 1 (restartLoads false s)))
  | _ => s

/-- The status that SAFE shows of the reset of level `lvl` by source `src` that begins. -/
def levelStatus (src lvl : Nat) (s : State) : State :=
  let s := setF R.RST_STATUS_LAST_LEVEL lvl (setF R.RST_STATUS_LAST_SRC src (setF R.RST_STATUS_SEQ_BUSY 1 s))
  let s := (List.range 8).foldl (fun s m => setF R.RST_MILESTONE_T_US 4294967295 s m) s
  let s := whenS (lvl = 0 && s.sys.failed.any (· ≠ 2)) (setF R.RST_STATUS_SAFE_DEFAULTS 1) s
  let s := whenS (lvl = 0) (setF R.RST_LOAD_STAT_FAILED (failedMask s)) s
  let s := if lvl ≤ 2 then setF R.RST_STATUS_READY 0 { s with flt := { s.flt with startUp := true } } else s
  whenS (lvl ≤ 1) (setF R.RST_STATUS_PROFILE_APPLIED 0) s

/-- The reset's job: the islands it holds until they are released again. -/
def addJob (src lvl isl : Nat) (held : List Nat) (s : State) : State :=
  let hold := if s.flt.fatalState then held.filter (· == islHOST) else held
  let job : RstJob := ⟨lvl, src, isl, s.sys.us, hold, false, srcDrive s src⟩
  let s := { s with sys := { s.sys with jobs := s.sys.jobs ++ [job]
                                        tested := s.sys.tested.filter fun i => !held.contains i } }
  let s := if src = 3 then { s with flt := { s.flt with recovery := true, recoveryFrom := none, recIsl := (s.flt.recIsl ++ hold).eraseDups } } else s
  modeSync s

/-- Begin a reset that acts. `lost` are the islands that a replaced reset still held. -/
def beginReset (src lvl isl : Nat) (lost : List Nat) (s : State) : State :=
  let held := (levelIslands lvl isl ++ lost).eraseDups.filter (islPresent s)
  let s := { s with sys := { s.sys with start := s.sys.us, level := if lvl ≤ 2 then lvl else s.sys.level, began := if lvl ≤ 2 then s.sys.us else s.sys.began, run := none } }
  let s := whenS (lvl ≤ 2) (fun s => (frames s).foldl (fun s x => flushFrame 0x1F x.1 s) s) s
  let s := (levelIslands lvl isl).foldl (fun s i => if islPresent s i then takeDown lvl i s else s) s
  addJob src lvl isl held (levelStatus src lvl (whenS (lvl ≤ 1) (chooseSlot (lvl = 0)) (levelState lvl s)))

/-- Resets of an island by FAULT_ESC or CLOCK_LOSS in the latest 10 s, the new one counted (R460). -/
def recentResets (s : State) (isl : Nat) : List (Nat × Nat) :=
  s.flt.resets.filter fun x => x.1 == isl && decide (s.sys.us < x.2 + 10000000)

/-- Source `src` strikes, for island `isl` where its level is UNIT (R390 to R392). -/
def strike (src isl : Nat) (s : State) : State :=
  let s := setIsl R.RST_CAUSE_SRC src true s
  let lvl := srcLevel s src
  let t := unitTarget src isl
  if lvl = 3 ∧ (t = 0 ∨ !islPresent s t) then raise R.RST_EVENT_RESET_NO_TARGET s
  else
    let absorbed := s.sys.jobs.any (fun j => decide (j.level ≤ lvl) && j.level ≠ 3) || (lvl = 3 && s.sys.jobs.any fun j => j.wait.contains t)
    if absorbed then s
    else
      let looping := (src = 3 || src = 8) && decide ((recentResets s isl).length ≥ 2)
      if looping then raiseFault (faultBit 1) isl 0 ((recentResets s isl).length + 1) islSAFE s
      else
        let s := if src = 3 ∨ src = 8 then { s with flt := { s.flt with resets := recentResets s isl ++ (s.flt.resets.filter (·.1 ≠ isl)) ++ [(isl, s.sys.us)] } } else s
        let was := driven s
        pinFollows was <| if lvl = 3 then beginReset src 3 t [] s
        else
          let lost := (s.sys.jobs.filter fun j => decide (j.level > lvl)).flatMap (·.wait)
          beginReset src lvl 0 lost { s with sys := { s.sys with jobs := s.sys.jobs.filter fun j => decide (j.level ≤ lvl) } }

end Sys2Proof.Machine
end

