-- ==== Sys2Proof/Machine/Isl.lean ====
section
/-!
DEFINITION. Sys2Proof/Machine/Isl.lean: island clocks, crossings and the locks of the APLLs (spec/01, spec/06 R178, R187).
-/
namespace Sys2Proof.Machine

/-! ### Crossings (R22 to R26) -/

/-- The principal crossings of R23: width in bits and depth of the crossing from `a` to `b`. The crossing that carries frames, the
Last copy or results is listed before the register crossing between the same islands (notes/assumptions/9.md). The row of SAFE
carries levels, which hold no words. -/
def crossSize (a b : Nat) : Option (Nat × Nat) :=
  let pipe (i : Nat) : Bool := 6 ≤ i && i ≤ 9
  if 16 ≤ a ∧ b = islPIPE ((a - 16) / 4) then some (1024, 16)
  else if pipe a && b == islBUF then some (1024, 32)
  else if pipe a && b == islRED then some (96, 64)
  else if a = islRED ∧ b = islBUF then some (64, 64)
  else if a = islBUF ∧ b = islEGR then some (1024, 32)
  else if a = islEGR ∧ 16 ≤ b then some (1024, 16)
  else if a = islTIME ∧ (pipe b || [islBUF, islEGR, islRED, islHOST, islMCU].contains b) then some (80, 4)
  else if a = islTDC ∧ (b = islTIME ∨ b = islMCU) then some (128, 32)
  else if (a = islHOST ∧ b = islBUF) ∨ (a = islBUF ∧ b = islHOST) then some (256, 64)
  else if (a = islMCU ∧ b = islBUF) ∨ (a = islBUF ∧ b = islMCU) then some (128, 32)
  else if a = islHOST ∨ b = islHOST then some (64, 8)
  else none

/-- A handshake crossing joins `a` to `b`: TIME and TDC share the Last clock, TIME and the LANE islands the phase-known transfer, and
SAFE's signals are levels (R22, R23). -/
def isCrossing (s : State) (a b : Nat) : Bool :=
  a ≠ b && a ≠ 0 && b ≠ 0 && islPresent s a && islPresent s b && (crossSize a b).isSome

/-- CROSSING_UP (R24): both sides have had clock-valid for 64 cycles and are released. A crossing of the Last copy starts with a
copy within ±1.6 ns of the Last (R34). -/
def execCrossingUp (src dst : Nat) (s : State) : Host.Outcome State Fault Refusal :=
  let s := s.begin
  ran (if isCrossing s src dst && islUp s src && islUp s dst && !crossUp s src dst then
      whenS (src == islTIME) (copyStart dst) (setCross src dst true s)
    else s)

/-- CROSSING_DELIVER (R22): the source writes `word`, which a crossing that is full does not take; or, without one, the
oldest word reaches the destination. A crossing that is down has lost its words. -/
def execCrossingDeliver (src dst : Nat) (word : Option Nat) (s : State) : Host.Outcome State Fault Refusal :=
  let s := s.begin
  let x := smGet Xing.down s.xings (src * 32 + dst)
  let put (l : List Nat) (s : State) : State := { s with xings := smPut Xing.down s.xings (src * 32 + dst) ⟨true, l⟩ }
  ran (match x.up, crossSize src dst, word, x.words with
    | true, some (w, d), some v, l => if l.length < d then put (l ++ [v % 2 ^ w]) s else s
    | true, some _, none, v :: l => emit (.crossed src dst v) (put l s)
    | _, _, _, _ => s)

/-- Frames whose descriptor is in a crossing of RED that falls: their words are discarded (R24). -/
def loseWaiting (p : Nat → Bool) (s : State) : State :=
  ((frames s).filter fun x => p x.2.port && x.2.frer == .waiting && x.2.admitted).foldl (fun s x => redDiscard 0x10 x.1 s) s

/-- What is lost with the crossing from `a` to `b` (R24, R25). -/
def crossLost (a b : Nat) (s : State) : State :=
  let quad (q : Nat) : Nat → Bool := (quadPortsOf s q).contains
  let pipe (i p : Nat) : Bool := (if p < 64 then p / 16 else 0) + 6 == i
  if 16 ≤ a then loseInputs (quad (a - 16)) s
  else if 16 ≤ b ∧ a = islEGR then loseLeaving (quad (b - 16)) s
  else if b = islBUF ∧ 6 ≤ a ∧ a ≤ 9 then loseInputs (fun p => p < 64 && pipe a p) s
  else if b = islRED ∧ 6 ≤ a ∧ a ≤ 9 then loseWaiting (pipe a) s
  else if a = islRED ∧ b = islBUF then loseWaiting (fun _ => true) s
  else if a = islBUF ∧ b = islEGR then egrIdle (loseLeaving (fun _ => true) s)
  else if a = islHOST ∧ b = islBUF then loseInputs (· == 64) s
  else if a = islMCU ∧ b = islBUF then loseInputs (· == 65) s
  else if a = islBUF ∧ b = islHOST then loseLeaving (· == 64) s
  else if a = islBUF ∧ b = islMCU then loseLeaving (· == 65) s
  else s

/-- A handshake from `a` has had no acknowledge of `b` for 1 µs (R26, R467): the fault names both, the crossing goes down. -/
def crossHang (a b : Nat) (s : State) : State :=
  hangFault a b (setCross a b false (whenS (crossUp s a b) (crossLost a b) s))

/-- CROSSING_HANG (R26): both sides report clock-valid. -/
def execCrossingHang (src dst : Nat) (s : State) : Host.Outcome State Fault Refusal :=
  let s := s.begin
  ran (if crossUp s src dst && islClkValid s src && islClkValid s dst then crossHang src dst s else s)

/-- BAR0_ACCESS_TIMEOUT (R29): the owning island of the register at `off` has not answered within 2 µs; a read returns 0. The select
registers lie in HOST, and SAFE always answers (R28, R513). -/
def execBar0AccessTimeout (off : Nat) (acc : Access) (s : State) : Host.Outcome State Fault Refusal :=
  let s := s.begin
  let req := acc.req
  let i := readInst s req off
  let isl := ownerOf off i
  let none (s : State) : State := if acc.write then s else emit (.readData req off 0) s
  ran (if isSel off || isl == islHOST || isl == islSAFE then s
    else match gateOf s off i with
      | .pass => none (crossHang islHOST isl s)
      | .lost _ => none (hangFault islHOST isl s)
      | _ => s)

/-! ### Clock-valid (R19, R20, R44) -/

/-- The clock monitor of island `i` drives clock-valid low: an island in service is fenced and source 8 strikes (R390, R467);
outside normal service the fence comes with the collection of the fault. -/
def clockLoss (i : Nat) (s : State) : State :=
  let was := islUp s i
  let had := islClkValid s i
  let s := if 16 ≤ i then quadClkCheck (i - 16) { s with sys := { s.sys with laneClk := s.sys.laneClk.filter (· ≠ i - 16) } }
    else whenS was (islLost i) (setIsl R.RST_ISL_CLKVALID_ISLAND i false (whenS (i == islTIME) copiesStop s))
  if had && islReleased s i && !islFenced s i then
    let s := raiseFault (faultBit 5) i 0 0 islSAFE s
    if svcMode s = 0 then strike 8 i (setIsl R.RST_ISL_FENCED_ISLAND i true s) else s
  else s

/-- ISLAND_CLOCK_LOSS (R19). SAFE has no clock monitor. -/
def execIslandClockLoss (isl : Nat) (s : State) : Host.Outcome State Fault Refusal :=
  let s := s.begin
  ran (if isl ≠ 0 ∧ islPresent s isl then clockLoss isl s else s)

/-- The Last resumes from its kept value (R44). -/
def lastResumes (s : State) : State :=
  raise R.TIM_EVENT_LAST_DISCONTINUITY { s with tim := { s.tim with lastValid := false } }

/-- Clock-valid of island `i` returns (R19, R44). -/
def clockReturn (i : Nat) (s : State) : State :=
  if 16 ≤ i then
    quadClkCheck (i - 16) { s with sys := { s.sys with laneClk := if s.sys.laneClk.contains (i - 16) then s.sys.laneClk else s.sys.laneClk ++ [i - 16] } }
  else if islClkValid s i then s
  else
    let s := setIsl R.RST_ISL_CLKVALID_ISLAND i true s
    whenS (i == islTIME && islReleased s i) (fun s => lastResumes s) s

/-- ISLAND_CLOCK_RETURN (R44): clock-valid of TIME and TDC needs APLL1, whose output clocks them (R18, R187). -/
def execIslandClockReturn (isl : Nat) (s : State) : Host.Outcome State Fault Refusal :=
  let s := s.begin
  ran (if isl ≠ 0 && islPresent s isl && (!(isl == islTIME || isl == islTDC) || apllLocked s 1) then clockReturn isl s else s)

/-! ### APLL locks (R178, R187) -/

/-- Outputs whose source is APLL `j` start when it locks (R185, R187): those that a commit or a start left in RESTARTING, and
those that were squelched and have AUTORESTART. -/
def locked (j : Nat) (s : State) : State :=
  outIds.foldl (fun s n =>
    let st := outState s n
    if outApll s n ≠ j then s
    else if st = oRESTARTING ∧ !(outRt s n).want then
      let a := (outRt s n).armed
      startOut n (now s) a a.isSome (whenS a.isSome (fun s => raise R.SYN_OUT_EVENT_START_LATE s n) s)
    else if st = oSQUELCHED ∧ flag s R.SYN_OUT_CFG_AUTORESTART n then startOut n (now s) none false s
    else s) s

/-- APLL_LOCK (R178), at `us`. APLL0 locks to the input that the oscillator check chose (R396, R398). APLL2 drives OFFSET_LOCK; APLL1 gives TIMING quads their reference (R239); with APLL0 comes
milestone 3. -/
def execApllLock (j us : Nat) (s : State) : Host.Outcome State Fault Refusal :=
  let s := tickUs us s.begin
  ran (if 5 ≤ j ∨ apllLocked s j ∨ (j = 0 ∧ !s.sys.oscOk) then s
    else
      let s := setF R.SYN_APLL_STAT_LOCK (putBit (getF s R.SYN_APLL_STAT_LOCK) j true) s
      let s := whenS (j == 0) (milestone 3) s
      let s := whenS (j == 1) quadClks s
      let s := whenS (j == 2) (setF R.TSU_GSTAT_OFFSET_LOCK 1) s
      if synUp s then locked j s else s)

/-- Outputs that a loss of lock of APLL `j` squelches (R187). -/
def squelched (s : State) (j n : Nat) : Bool :=
  outState s n == oRUNNING && outApll s n == j && (j == 1 || !flag s R.SYN_OUT_CFG_LOSS_ACT n)

/-- APLL_UNLOCK (R187): for APLL0 and APLL1 a recoverable fault of SYN and of TIME, whose clock-valid falls with APLL1 (R20); for
APLL2 every tally is invalid (R81). -/
def execApllUnlock (j : Nat) (s : State) : Host.Outcome State Fault Refusal :=
  let s := s.begin
  ran (if 5 ≤ j ∨ !apllLocked s j then s
    else
      let s := setF R.SYN_APLL_STAT_LOCK (putBit (getF s R.SYN_APLL_STAT_LOCK) j false) s
      let bit := R.SYN_EVENT_APLL_UNLOCK.up j
      let s := if j = 0 then raiseFault bit islSYN 0 0 islSYN s
        else if j = 1 then raiseFault bit islTIME 0 0 islSYN s
        else raise bit s
      let s := outIds.foldl (fun s n => if squelched s j n then squelch n s else s) s
      let s := whenS (j == 2) (fun s => (List.range 64).foldl (fun s n => if frontPresent s n then tallyInvalid n s else s)
        (setF R.TSU_GSTAT_OFFSET_LOCK 0 s)) s
      if j = 1 then clockLoss islTIME (quadClks s) else s)

/-! ### Power-up calibration (R250) -/

/-- POWER_UP_CALIBRATION (R250 to R254), ended at `us`: milestone 6 (R396). -/
def execPowerUpCalibration (quads : List (Nat × Int)) (lanes : List LaneCal) (outs : List (Nat × Nat × Nat)) (us : Nat) (s : State) :
    Host.Outcome State Fault Refusal :=
  let s := calibrated quads lanes outs (tickUs us s.begin)
  ran (readyCheck (whenS (flag s R.TSU_GSTAT_CAL_DONE) (milestone 6) s))

end Sys2Proof.Machine
end

