-- ==== Sys2Proof/Machine/PrfOps.lean ====
section
/-!
DEFINITION. Sys2Proof/Machine/PrfOps.lean: the format and the checks of a profile image (spec/14 R410 to R413).
-/
namespace Sys2Proof.Machine

/-- `n` octets from `off`, little-endian. -/
def leAt (l : List Nat) (off n : Nat) : Nat := ((l.drop off).take n).foldr (fun o a => a * 256 + o % 256) 0

/-- 32-bit words, least significant octet first. -/
def leWords : List Nat → List Nat
  | a :: b :: c :: d :: l => (a % 256 + b % 256 * 256 + c % 256 * 65536 + d % 256 * 16777216) :: leWords l
  | _ => []

/-- The octets of words, least significant first. -/
def wordOctets (l : List Nat) : List Nat := l.flatMap fcsOf

/-- Words of a record, its command word `w` included; 0 for an invalid OP (R412). -/
def recLen (w : Nat) : Nat :=
  let n := bitsOf w 20 8 + 1
  match w / 2 ^ 28 with
  | 0 => 1
  | 1 => 1 + n
  | 2 => 2
  | 3 => 2 + n * (if w % 256 ≥ 16 then 4 else 32)
  | 4 => 4
  | 5 => 1
  | _ => 0

/-- The records from `0x40` are well formed and end with END at the last of their words; `m`: a MARK has been seen. -/
def recsOk : Nat → List Nat → Bool → Bool
  | 0, _, _ => false
  | _ + 1, [], _ => false
  | k + 1, w :: r, m =>
    if w / 2 ^ 28 = 0 then w == 0 && r.isEmpty
    else if w / 2 ^ 28 = 5 then w % 2 ^ 28 == 0 && !m && recsOk k r true
    else recLen w ≠ 0 && decide (recLen w ≤ r.length + 1) && recsOk k (r.drop (recLen w - 1)) m

/-- A range of `n` words from `off` touches the RST block or the FWT sub-block. -/
def protectedAt (off n : Nat) : Bool :=
  let last := off + 4 * n - 1
  (decide (off ≤ 0x1FFFF) && decide (0x10000 ≤ last)) || (decide (off ≤ 0x3FFFF) && decide (0x38000 ≤ last))

/-- No record addresses a protected block. -/
def recsSafe : Nat → List Nat → Bool
  | 0, _ => true
  | _ + 1, [] => true
  | k + 1, w :: r =>
    let off := w % 2 ^ 20
    let bad := match w / 2 ^ 28 with
      | 1 => protectedAt off (bitsOf w 20 8 + 1)
      | 2 => protectedAt off (bitsOf w 20 8 + 1)
      | 4 => protectedAt off 1
      | _ => false
    !bad && recsSafe k (r.drop (recLen w - 1))

/-- The limits of R177 on an oscillator and its divider. -/
def xoOk (lo f n0 : Nat) : Bool := lo ≤ f && f ≤ 54000000 && 9900000000 ≤ f * n0 && decide (f * n0 ≤ 10100000000)

/-- Use of an image: at a reset, by PROFILE_APPLY, by PROFILE_WRITE. -/
inductive ProfUse where
  | reset | run | write
  deriving DecidableEq, Repr

/-- The records of an image, as words. -/
def profRecords (l : List Nat) : List Nat := ((leWords l).drop 16).take (leAt l 0x20 4)

/-- The first check of R413 that an image fails, as a FAIL_CAUSE code; 0 when it passes. -/
def profCheck (s : State) (use : ProfUse) (l : List Nat) : Nat :=
  let len := leAt l 8 4
  let hdr := leAt l 0 4 == 0x4B5A5046 && leAt l 4 2 == 1 && leAt l 6 2 == 64 && len % 4 == 0 && 72 ≤ len && len ≤ 32768
    && decide (len ≤ l.length)
  let crc := leAt l (len - 4) 4 == crc32 (l.take (len - 4))
  let words := leAt l 0x20 4
  let recs := profRecords l
  let grade := bitOf (leAt l 0x0C 1) (getF s R.GLB_CAP_GRADE) && decide (leAt l 0x0D 1 ≤ getF s R.GLB_ID_STEPPING)
    && decide (getF s R.GLB_ID_STEPPING ≤ leAt l 0x0E 1)
  let clock := xoOk 25000000 (leAt l 0x10 4) (leAt l 0x18 2)
    && (leAt l 0x14 4 == 0 || xoOk 10000000 (leAt l 0x14 4) (leAt l 0x1A 2))
  let use := match use with
    | .reset => bitOf (leAt l 0x0F 1) 0 && clock
    | .run => bitOf (leAt l 0x0F 1) 1
    | .write => true
  if !hdr then 2
  else if !crc then 1
  else if !(decide (17 + words ≤ len / 4) && recsOk (words + 1) recs false) then 3
  else if !recsSafe words recs then 6
  else if !grade then 4
  else if !use then 5
  else 0

/-! ### Slots (R410) -/

def slotAt (s : State) (n : Nat) : Slot := smGet Slot.empty s.sys.slots n
def setSlot (n : Nat) (x : Slot) (s : State) : State := { s with sys := { s.sys with slots := smPut Slot.empty s.sys.slots n x } }

def slVALID : Nat := 0x5A5A0001
def slWRITING : Nat := 0x5A5A0002
def slINVALID : Nat := 0x5A5A0003

/-- The code of RST_PROF_STAT.STATE. -/
def slotCode (x : Slot) : Nat := if x.state = slVALID then 1 else if x.state = slWRITING then 3 else if x.state = 0 then 0 else 2

/-- The image a VALID slot holds. -/
def slotImage (s : State) (n : Nat) : Option (List Nat) :=
  let x := slotAt s n
  if x.state = slVALID then some (x.octets.take x.len) else none

end Sys2Proof.Machine
end

