-- ==== Sys2Proof/Machine/Rst.lean ====
section
/-!
DEFINITION. Sys2Proof/Machine/Rst.lean: power-up, resets, loads and island release (spec/14).
-/
namespace Sys2Proof.Machine

/-! ### Sources (R390 to R395) -/

/-- POWER_ON (R498, R390): a supply has stood outside its window before the last supply enters its window again, with
PROFSEL and ADDR strapped. Everything but the MRAM, the flash, the
level of OCXO_WARM and the commands that wait is as after reset; SAFE drives RESET_N and holds ALIVE low (R394, R464). -/
def execPowerOn (dip : SupplyDip) (straps : Straps) (s : State) : Host.Outcome State Fault Refusal :=
  let r := State.reset
  let r := { r with pending := s.pending, fresh := s.fresh, hif := { r.hif with flash := s.hif.flash }
                    mon := { r.mon with log := s.mon.log }, sys := { r.sys with straps := straps.profsel % 4 + 4 * b2n straps.addr, warmPin := s.sys.warmPin, slots := s.sys.slots } }
  ran (if supplyStrikes (railOf dip.rail) dip.uv dip.ns then emit (.pin "RESET_N" false) (emit (.pin "ALIVE" false) (chooseSlot true r)) else s.begin)

/-- The RESET_N input is ignored: SAFE drives the pin, or has released it less than 10 µs ago (R395). -/
def pinIgnored (s : State) : Bool := driven s || decide (s.sys.us < s.sys.pinFree)

/-- RESET_N_ACCEPT (R393): the input has been low for 56 SAFE cycles at `us`. -/
def execResetNAccept (us : Nat) (s : State) : Host.Outcome State Fault Refusal :=
  let s := tickUs us s.begin
  ran (if pinIgnored s then s else strike 1 0 s)

/-- RESET_N_GLITCH (R393). -/
def execResetNGlitch (us : Nat) (s : State) : Host.Outcome State Fault Refusal :=
  let s := tickUs us s.begin
  ran (if pinIgnored s then s else bump R.RST_CNT_GLITCH_COUNT s)

/-- A write of RST_REQ: with GO, source 4 for the island it names (R390). -/
def writeRstReq (val : Nat) (s : State) : State :=
  let s := setF R.RST_REQ_ISLAND val s
  if bitOf val 31 then strike 4 (val % 32) s else s

/-- RST_REQUEST (R390). -/
def execRstRequest (req : Requester) (val : Nat) (s : State) : Host.Outcome State Fault Refusal :=
  ran (writeAt req 0x10024 (fun _ s => writeRstReq val s) s.begin)

/-- A write of RST_SRC_MAP: discarded under MAP_LOCK (R391); the fields of source 0 are fixed. -/
def writeSrcMap (val : Nat) (s : State) : State :=
  if flag s R.RST_SRC_MAP_MAP_LOCK then raise R.RST_EVENT_MAP_LOCKED s
  else
    (List.range 9).foldl (fun s k =>
      if k = 0 then s
      else setF (R.RST_SRC_MAP_LEVEL.up (3 * k)) (bitsOf val (3 * k) 2) (setF (R.RST_SRC_MAP_DRIVE.up (3 * k)) (bitsOf val (3 * k + 2) 1) s)) s

/-- SRC_MAP_WRITE (R391). -/
def execSrcMapWrite (req : Requester) (val : Nat) (s : State) : Host.Outcome State Fault Refusal :=
  ran (writeAt req 0x1000C (fun _ s => writeSrcMap val s) s.begin)

/-- RESET_STRETCH_END (R394): of the reset of island `isl`, or with 0 of the reset of the other levels. 1,100,000 SAFE
cycles last 20 ms at least; a reset by RESET_N ends once the input has been high for 56 SAFE cycles too. -/
def execResetStretchEnd (isl : Nat) (pin : StretchEnd) (s : State) : Host.Outcome State Fault Refusal :=
  let s := tickUs pin.us s.begin
  let mine (j : RstJob) : Bool :=
    (if j.level = 3 then j.isl == isl else isl == 0) && decide (j.start + 20000 ≤ pin.us) && (pin.high || j.src ≠ 1)
  let was := driven s
  let spread (j : RstJob) : RstJob := if mine j then { j with stretched := true } else j
  ran (jobsSettle (pinFollows was { s with sys := { s.sys with jobs := s.sys.jobs.map spread } }))

/-! ### Release (R399 to R401) -/

/-- Islands in the order in which they are released (R399). -/
def relOrder : List Nat := [5, 4, 2, 1, 3, 16, 17, 18, 19, 20, 21, 22, 23, 24, 25, 26, 27, 28, 29, 30, 31, 10, 12, 11, 6, 7, 8, 9]

/-- The step of R399 that releases an island. -/
def relStep (i : Nat) : Nat :=
  if i = 0 then 1 else if i = islHOST ∨ i = islMCU ∨ i = islSYN then 2 else if i = islTIME ∨ i = islTDC then 3
  else if 16 ≤ i then 4 else if i = islBUF ∨ i = islRED then 5 else if i = islEGR then 6 else 7

/-- What the step of island `i` waits for besides the islands before it and the gate (R399). -/
def relWaits (s : State) (i : Nat) : Bool :=
  let shadows := !s.sys.loads.contains 0 && !s.sys.loads.contains 1
  match relStep i with
  | 2 => shadows && (i == islHOST || apllLocked s 0)
  | 3 => apllLocked s 1 && apllLocked s 2
  | 4 => islReleased s islTIME
  | _ => true

/-- The reset of job `j` may release island `i` now: stretch over, and no island before it still waits. -/
def relTurn (i : Nat) (j : RstJob) : Bool :=
  !j.wait.contains i || (j.stretched && (relOrder.takeWhile (· ≠ i)).all fun x => !j.wait.contains x)

/-- The gate of R400 and the order of R399. -/
def canRelease (s : State) (i : Nat) : Bool :=
  s.sys.jobs.any (fun j => j.wait.contains i) && islClkValid s i && s.sys.tested.contains i && relWaits s i && s.sys.jobs.all (relTurn i)

/-- TIME runs again: the copies of quad `q` are valid again, or loaded for the first time (R82). -/
def quadReload (q : Nat) (s : State) : State := if (repl s q).loaded then setF R.TSU_GSTAT_RXCOUNT_VALID 1 s else loadQuad q s

/-- Lanes of quad `q` start after its reset (R245, R250, R82). -/
def laneReleased (q : Nat) (s : State) : State :=
  let cold := s.sys.level = 0 && !flag s R.TSU_GSTAT_CAL_DONE
  let s := if (repl s q).loaded then s else loadQuad q s
  let s := whenS cold (fun s => [0, 1, 2, 3].foldl (fun s k => setF R.LNK_CAL_STAT_RESULT 3 s (4 * q + k)) (setF R.LNK_GSTAT_CAL_RUNNING 1 (calChannels true s))) s
  (quadPortsOf s q).foldl (fun s p => settlePort p s) s

/-- What an island does at its release. -/
def startIsland (cold : Bool) (i : Nat) (s : State) : State :=
  if i = islHOST then setF R.HIF_I2C_CFG_ADDR (if bitOf s.sys.straps 2 then 0x5B else 0x5A) s
  else if i = islMCU then { s with sys := { s.sys with boot := 0 } }
  else if i = islTIME then
    let s := whenS (!cold) lastResumes s
    let s := (List.range 16).foldl (fun s q => if islUp s (islLANE q) then quadReload q s else s) s
    -- the states of R162 are found anew; the OCXO_WARM pin is read
    reselect (pinUpdate (whenS (islReleased s islTDC) anchor s))
  -- the coarse counter counts from the release at COLD (R209)
  else if i = islTDC then settleTdc (anchor s)
  else if 16 ≤ i then laneReleased (i - 16) s
  else s

/-- Island `i` is released; a fence or a quarantine ends (R462, R401). -/
def releaseIsland (i : Nat) (s : State) : State :=
  let cold := s.sys.jobs.any fun j => j.wait.contains i && j.level == 0
  let s := setIsl R.RST_ISL_QUAR_ISLAND i false (setIsl R.RST_ISL_FENCED_ISLAND i false (setIsl R.RST_ISL_RELEASED_ISLAND i true s))
  let s := { s with sys := { s.sys with tested := s.sys.tested.filter (· ≠ i) } }
  let s := startIsland cold i (unwait i s)
  let s := whenS (relStep i == 3 && islReleased s islTIME && islReleased s islTDC) (milestone 4) s
  let s := whenS (5 ≤ relStep i && [10, 12, 11, 6, 7, 8, 9].all fun x => !islPresent s x || islReleased s x) (milestone 5) s
  jobsSettle (modeSync s)

/-- ISLAND_RELEASE (R400), at `us`. -/
def execIslandRelease (isl us : Nat) (s : State) : Host.Outcome State Fault Refusal :=
  let s := tickUs us s.begin
  ran (if canRelease s isl then releaseIsland isl s else s)

/-- Bit `b` of fuse word 3 (R403); a lock holds while the shadow is not valid. -/
def fuseLock (s : State) (b : Nat) : Bool := if s.sys.fuse.isEmpty then true else bitOf (s.sys.fuse.getD 3 0) b

/-- A forced release of island `i` (R401); a bit of an empty or absent slot is ignored without an event (notes/assumptions/96.md). -/
def forceRelease (i : Nat) (s : State) : State :=
  if i = 0 ∨ !islPresent s i ∨ islReleased s i then s
  else
    let s := setIsl R.RST_ISL_QUAR_ISLAND i true (setIsl R.RST_ISL_RELEASED_ISLAND i true s)
    let s := raise R.RST_EVENT_QUARANTINE (raiseFault (faultBit 2) i 0 0 islSAFE s) i
    jobsSettle (modeSync (unwait i s))

/-- A write of RST_FORCE. -/
def writeForce (val : Nat) (s : State) : State :=
  if fuseLock s 0 then s else (List.range 32).foldl (fun s i => if bitOf val i then forceRelease i s else s) s

/-- FORCED_RELEASE (R401). -/
def execForcedRelease (req : Requester) (val : Nat) (s : State) : Host.Outcome State Fault Refusal :=
  ran (writeAt req 0x10020 (fun _ s => writeForce val s) s.begin)

/-! ### Oscillator check (R402) -/

/-- A counted frequency lies within ±20 % of its nominal. -/
def xoPresent (nominal hz : Nat) : Bool := nominal ≠ 0 && decide (nominal * 8 ≤ hz * 10) && decide (hz * 10 ≤ nominal * 12)

/-- OSCILLATOR_CHECK_END (R402): the frequencies counted over a millisecond at XIN and OCXO_IN, and SAFE's error in ppm against the
chosen input. -/
def execOscillatorCheckEnd (xinHz ocxoHz : Nat) (ppm : Int) (us : Nat) (s : State) : Host.Outcome State Fault Refusal :=
  let s := tickUs us s.begin
  ran (if s.sys.oscDone then s
    else
      let xin := xoPresent (zeroAs 25000000 (getF s R.SYN_XIN_FREQ_FREQ_HZ)) xinHz
      let ocxo := hasOcxo s && xoPresent (getF s R.SYN_OCXO_FREQ_FREQ_HZ) ocxoHz
      let ok := xin || ocxo
      let s := { s with sys := { s.sys with oscDone := true, oscOk := ok } }
      let s := setFlag R.REF_XO_STAT_SRC ocxo s
      let s := whenS (ok && decide (ppm.natAbs > 100000)) (fun s => raise R.RST_EVENT_SAFE_OSC_RANGE s) s
      aliveStart s)

/-! ### Loads (R403 to R408) -/

/-- Both later shadows are there, or replaced: milestone 2. -/
def loadEnded (n : Nat) (s : State) : State :=
  let s := { s with sys := { s.sys with loads := s.sys.loads.filter (· ≠ n) } }
  whenS (2 ≤ n && !s.sys.loads.contains 2 && !s.sys.loads.contains 3) (milestone 2) s

/-- Islands that the grade lacks hold no reset up (R21). -/
def dropAbsent (s : State) : State := (allIslands.filter fun i => !islPresent s i).foldl (fun s i => unwait i s) s

/-- The owner key hash is present (R420). -/
def ownerKey (s : State) : Bool := ((s.sys.fuse.drop 38).take 12).any (· ≠ 0)

/-- FWT_STATUS and FWT_HWC show the fuses (R419, R420, R427). -/
def fuseShown (s : State) : State :=
  let st := getF s R.GLB_ID_STEPPING
  setF R.FWT_HWC_HWC (st * 256 + (if st = 0xA0 then 1 else 2))
    (setFlag R.FWT_STATUS_SIG_REQUIRED (fuseLock s 2) (setFlag R.FWT_STATUS_OWNER_KEY (ownerKey s) s))

/-- The fuse shadow becomes valid (R403, R390, R3). -/
def fuseValid (ws : List Nat) (s : State) : State :=
  let s := fuseFields false ws { s with sys := { s.sys with fuse := ws } }
  dropAbsent (milestone 0 (loadEnded 0 (fuseShown s)))

/-- Registers that the calibration record supplies (R85, R208, R500, R408), and the word of each that it may write. -/
def recordReg (off : Nat) : Bool :=
  off == 0x50118 || off == 0x60010 || off == 0x60014 || (0x91000 ≤ off && off < 0x91640 && off % 0x40 == 8)

def setAvs (lo hi code : Nat) (s : State) : State := setF R.MON_AVS_CODE_MIN lo (setF R.MON_AVS_CODE_MAX hi (setF R.MON_AVS_CODE code s))

def vidPins : List String := ["VID0", "VID1", "VID2", "VID3", "VID4", "VID5", "VID6", "VID7"]

/-- VID[7:0] carry the code (R501). -/
def driveVid (s : State) : State :=
  let code := getF s R.MON_AVS_CODE
  (List.range 8).foldl (fun s k => emit (.pin (vidPins.getD k "") (bitOf code k)) s) { s with sys := { s.sys with vid := some code } }

/-- The constants of a record that is absent (R408, R220, R500). -/
def recordAbsent (s : State) : State :=
  let st := getF s R.GLB_ID_STEPPING
  let s := (List.range 64).foldl (fun s n => putWord 0x50118 (Config.nominal st 0x50118 % 2 ^ 32) s n) s
  let s := (List.range 25).foldl (fun s n => setF R.TDC_CH_DELAY_DELAY (Config.nominal st 0x91008) s n) s
  let s := setF R.PTE_CLOCK_ID_ID_HI (s.sys.fuse.getD 36 0) (setF R.PTE_CLOCK_ID_ID_LO (s.sys.fuse.getD 37 0) s)
  raise R.TDC_EVENT_TABLE_ABSENT (raise R.RST_EVENT_RECORD_ABSENT (setAvs 60 100 60 s))

/-- The constants of a record that is valid: register words (offset, instance, value), the code range and boot code, 25 tables. -/
def recordValid (vals : List (Nat × Nat × Nat)) (avs : Nat × Nat × Nat) (tables : List (List Nat)) (cert : List Nat) (s : State) : State :=
  let s := vals.foldl (fun s v => if recordReg v.1 then putWord v.1 v.2.2 s v.2.1 else s) (setAvs avs.1 avs.2.1 avs.2.2 s)
  let tbl := (List.range 25).foldl (fun m n => smPut [] m n (tables.getD n [])) ([] : SMap (List Nat))
  let s := fullWriteAll 15 0 (memWords 15) s
  let s := (List.range 25).foldl (fun s n => noteTemp (64 + n) 0 s) s
  settleTdc { s with tdc := { s.tdc with tbl := tbl }, sys := { s.sys with recOk := true, cert := cert } }

/-- The attempts that RST_LOAD_STAT counts for load `n`. -/
def attFld (n : Nat) : Fld := [R.RST_LOAD_STAT_FUSE_ATT, R.RST_LOAD_STAT_TRIM_ATT, R.RST_LOAD_STAT_RECORD_ATT].getD n R.RST_LOAD_STAT_PROFILE_ATT

/-- The safe default of a load whose third attempt failed (R406 to R408). -/
def replaceLoad (n : Nat) (s : State) : State :=
  let s := { s with sys := { s.sys with failed := s.sys.failed ++ [n] } }
  let s := setF R.RST_LOAD_STAT_FAILED (failedMask s) s
  if n = 2 then driveVid (loadEnded 2 (recordAbsent s))
  else
    let s := setF R.RST_STATUS_SAFE_DEFAULTS 1 (setF R.RST_STATUS_FATAL_PENDING 1 s)
    let s := raiseFault (faultBit 0) islSAFE (if n = 3 then 2 else n) 3 islSAFE s
    match n with
    | 0 => dropAbsent (milestone 0 (loadEnded 0 (fuseShown (fuseDefaults { s with sys := { s.sys with fuse := defaultFuse } }))))
    | 1 => milestone 1 (loadEnded 1 s)
    | _ => loadEnded 3 (whenS (s.sys.level == 0) clockDefaults s)

/-- A load attempt of load `n` failed (R404). -/
def loadFailed (n : Nat) (s : State) : State :=
  let s := raise R.RST_EVENT_LOAD_RETRY s
  if getF s (attFld n) ≥ 3 then replaceLoad n s else s

/-- The clock section of the profile in force (R177); it acts at COLD, where APLL0 takes its input. -/
def clockSection (l : List Nat) (s : State) : State :=
  let s := setF R.SYN_APLL0_CFG_N0_XIN (leAt l 0x18 2) (setF R.SYN_XIN_FREQ_FREQ_HZ (leAt l 0x10 4) s)
  if hasOcxo s then setF R.SYN_APLL0_CFG_N0_OCXO (leAt l 0x1A 2) (setF R.SYN_OCXO_FREQ_FREQ_HZ (leAt l 0x14 4) s) else s

/-- An attempt of the profile load ends; a slot found in WRITING counts as INVALID (R410, R413, R414). -/
def loadProfile (readOk : Bool) (s : State) : State :=
  let n := getF s R.RST_STATUS_PROFILE_SLOT
  match slotImage s n with
  | none =>
    let s := raise R.RST_EVENT_PROFILE_EMPTY (setF R.RST_STATUS_PROFILE_NONE 1 s)
    loadEnded 3 (whenS (s.sys.level == 0) clockDefaults s)
  | some l =>
    let s := bump (attFld 3) s
    -- a word of the slot that cannot be read (memory 18, R438): the spec does not say which
    let (v, t) := drawInt s
    let s := if readOk then s else uncorrectable 18 0 (4096 * n + v.natAbs % 4096) false t
    let c := if readOk then profCheck s .reset l else 1
    if c = 0 then
      loadEnded 3 (whenS (s.sys.level == 0) (clockSection l) { s with sys := { s.sys with prof := l } })
    else loadFailed 3 (setF R.RST_PROF_STAT_FAIL_CAUSE c s)

/-- LOAD_ATTEMPT_COMPLETE (R404), at `us`, with what the attempt read. -/
def execLoadAttemptComplete (data : LoadData) (us : Nat) (s : State) : Host.Outcome State Fault Refusal :=
  let s := tickUs us s.begin
  let open_ (n : Nat) : Bool := s.sys.loads.contains n && (n == 0 || !s.sys.loads.contains 0)
  ran (match data with
    | .fuse ws =>
      if !open_ 0 then s
      else
        let s := bump (attFld 0) s
        if ws.length = 128 ∧ ws.getD 127 0 = crc32 (wordOctets (ws.take 4 ++ (ws.drop 36).take 91)) then fuseValid ws s else loadFailed 0 s
    | .trim ws =>
      if !open_ 1 then s
      else
        let s := bump (attFld 1) s
        if ws.length = 32 ∧ ws.getD 31 0 = crc32 (wordOctets (ws.take 31)) then
          milestone 1 (loadEnded 1 { s with sys := { s.sys with trim := ws.take 31 } })
        else loadFailed 1 s
    | .record ok vals avs tables cert =>
      if !open_ 2 then s
      else
        let s := bump (attFld 2) s
        if ok then driveVid (loadEnded 2 (recordValid vals avs tables cert s)) else loadFailed 2 s
    | .profile ok => if open_ 3 then loadProfile ok s else s)

/-! ### Deadlines and self-tests (R398, R449, R450) -/

/-- Instants of R396 by which a step of R399 has ended after a COLD reset, in µs; 8 is the calibration, 9 the profile. -/
def stepDeadline (step : Nat) : Nat :=
  match step with
  | 2 => 26000 | 3 => 28000 | 4 => 30000 | 9 => 230000 | _ => 70000

/-- Island `i` is fenced as a start-up fault of step `step` (R398, R467). -/
def abandon (step i : Nat) (s : State) : State :=
  let s := raiseFault (faultBit 10) i step 0 islSAFE (raise R.RST_EVENT_STEP_LATE s i)
  setF R.RST_STATUS_DEGRADED 1 (fence i s)

/-- The profile's application ends (R415, R397). -/
def profileEnds (s : State) : State :=
  readyCheck (setF R.RST_STATUS_PROFILE_APPLIED 1 { s with sys := { s.sys with profDone := true, profWait := false } })

/-- STEP_DEADLINE (R398): at `us` a step of a reset is late. -/
def execStepDeadline (step us : Nat) (s : State) : Host.Outcome State Fault Refusal :=
  let s := tickUs us s.begin
  let waits := s.sys.jobs.flatMap (·.wait)
  let due := s.flt.startUp && (s.sys.level ≠ 0 || decide (s.sys.began + stepDeadline step ≤ us))
  ran (if !due then s
    else if 2 ≤ step ∧ step ≤ 7 then (relOrder.filter fun i => relStep i == step && waits.contains i).foldl (fun s i => abandon step i s) s
    else if step = 8 ∧ s.sys.level = 0 ∧ !flag s R.TSU_GSTAT_CAL_DONE ∧ !s.sys.calLate then
      let s := whenS (flag s R.LNK_GSTAT_CAL_RUNNING) (fun s => setF R.LNK_GSTAT_CAL_RUNNING 0 (calChannels false s)) s
      let s := setF R.RST_STATUS_DEGRADED 1 (raise R.RST_EVENT_STEP_LATE { s with sys := { s.sys with calLate := true } })
      let late := (List.range 16).filter fun q => islUp s (islLANE q) && getF s R.LNK_CAL_STAT_RESULT (4 * q) == 3
      readyCheck (late.foldl (fun s q => abandon step (islLANE q) s) s)
    else if step = 9 ∧ !s.sys.profDone ∧ islUp s islMCU then profileEnds (abandon step islMCU s)
    else s)

/-- The memories of an island (R438, R516). -/
def memsOf (i : Nat) : List Nat :=
  if i = islBUF then [0, 1, 2] else if i = islPIPE 0 then [3, 4, 5, 6, 7, 8, 9, 10] else if i = islEGR then [11, 12]
  else if i = islRED then [13] else if i = islTIME then [14] else if i = islTDC then [15] else if i = islHOST then [16]
  else if i = islMCU then [16, 17, 18] else []

/-- SELF_TEST_COMPLETE (R449, R450), at `us`: the memories that failed. -/
def execSelfTestComplete (isl : Nat) (fails : List Nat) (us : Nat) (s : State) : Host.Outcome State Fault Refusal :=
  let s := tickUs us s.begin
  ran (if s.sys.jobs.any (fun j => j.wait.contains isl) && islClkValid s isl then
    let bad := (memsOf isl).filter fails.contains
    let s := setIsl R.MON_BIST_STAT_FAIL isl (!bad.isEmpty) s
    let s := (memsOf isl).foldl (fun s m => setIsl R.MON_BIST_MEM_FAIL m (bad.contains m) s) s
    if bad.isEmpty then
      { s with sys := { s.sys with tested := if s.sys.tested.contains isl then s.sys.tested else s.sys.tested ++ [isl] } }
    else bad.foldl (fun s m => raiseFault (faultBit 3) isl m 0 islSAFE s) s
  else s)

end Sys2Proof.Machine
end

