-- ==== Sys2Proof/Machine/Ecc.lean ====
section
/-!
DEFINITION. Sys2Proof/Machine/Ecc.lean: error reports and the scrubbers (spec/16).
-/
namespace Sys2Proof.Machine

/-- Words that the scrubber counts. -/
def scrubbed (f : Fld) (m : Nat) (s : State) : State := bump (eccF f) s m

/-- A word that the scrubber finds uncorrectable is in use (R444): its cell belongs to a frame, its descriptor to a waiting copy, its entry
is valid; the words of memories 10 to 17 always are. -/
def wordUsed (s : State) (m bank word : Nat) : Bool :=
  let cell (c : Nat) : Bool := s.buf.cells.any fun e => e.2.contains c
  let entry (t : Nat) : Bool := !(smGet [] s.ing.tbl (tblKey t word)).isEmpty
  match m with
  | 0 => cell (65536 * (bank / 8) + word)
  | 1 => cell word
  | 2 => (frames s).any fun x => x.2.copies.any fun y => y.qno % 262144 == word
  | 3 => entry 2
  | 4 => entry 3
  | 5 => entry 4
  | 6 => entry 5
  | 7 => entry 1
  | 8 => (smGet none s.ing.idx word).isSome
  | 9 => ctxValid s (word / 16)
  | _ => true

/-- The scrubber reads the word of key `w`, which holds error `e`: 1 single-bit, 2 uncorrectable (R444). -/
def scrubWord (m bank word w e : Nat) (s : State) : State :=
  match e with
  | 0 => s
  | 1 => setEcc m w 0 (scrubbed R.MON_ECC_SCRUB_REPAIRED m s)
  | _ =>
    let s := scrubbed R.MON_ECC_SCRUB_UE_FOUND m s
    if wordUsed s m bank word then uncorrectable m bank word true (setEcc m w 2 s) else setEcc m w 0 s

/-- The scrubber of memory `m` goes on to the next bank or word; after the last one a lap is over (R446). The word it stands at and
whether a lap has ended are `sys.scrub` at `m` and `m + 32`. -/
def scrubNext (m : Nat) (s : State) : State :=
  let p := smGet 0 s.sys.scrub m + 1
  let last := decide (p ≥ memBanks m * memWords m)
  let q := smPut 0 s.sys.scrub m (if last then 0 else p)
  { s with sys := { s.sys with scrub := if last then smPut 0 q (m + 32) 1 else q } }

/-- SCRUB_ACCESS (R444), at `us`: the scrubber of memory `m` reads word `word` of bank `bank`, the next one in ascending order, in which a
particle has left `err` (0 nothing, 1 a single-bit error, 2 an uncorrectable one) beside what the word held. `overtaken`: a functional
write reaches the word before the write-back (R445). -/
def execScrubAccess (m bank word : Nat) (found : ScrubRead) (us : Nat) (s : State) : Host.Outcome State Fault Refusal :=
  let s := tickUs us s.begin
  ran (if flag s R.MON_ECC_CFG_SCRUB_ENA && m < 18 && bank < memBanks m && smGet 0 s.sys.scrub m == word * memBanks m + bank
      && islUp s (memIsland m) then
    let w := if m = 0 then bank * 65536 + word else word
    let e := max found.err (eccOf s m w)
    scrubNext m (if found.overtaken && e ≤ 1 then s else scrubWord m bank word w e s)
  else s)

/-- SCRUB_LATE (R446): a lap of memory `m`'s scrubber has ended, after `ms`. -/
def execScrubLate (m ms : Nat) (s : State) : Host.Outcome State Fault Refusal :=
  let s := s.begin
  ran (if m < 18 && smGet 0 s.sys.scrub (m + 32) == 1 && islUp s (memIsland m) then
    let s := { s with sys := { s.sys with scrub := smPut 0 s.sys.scrub (m + 32) 0 } }
    let v := satN 65535 ms
    let s := setF (eccF R.MON_ECC_LAP_LAST_MS) v (setF (eccF R.MON_ECC_LAP_PEAK_MS) (max v (getF s (eccF R.MON_ECC_LAP_PEAK_MS) m)) s m) m
    let lim := getF s R.MON_ECC_CFG_LAP_LIMIT_S
    if lim ≠ 0 ∧ lim * 1000 < ms then raiseAt R.MON_ECC_EVENT_SCRUB_LATE 0 m 0 s else s
  else s)

/-- A read of MON_ECC_LAP (R446): both times of the memory that MON_ECC_IDX names, and PEAK_MS goes to 0. -/
def readLap (s : State) : Nat × State :=
  let m := getF s R.MON_ECC_IDX_MEM
  if m ≤ 18 then
    (getF s (eccF R.MON_ECC_LAP_LAST_MS) m * 65536 + getF s (eccF R.MON_ECC_LAP_PEAK_MS) m, setF (eccF R.MON_ECC_LAP_PEAK_MS) 0 s m)
  else (0, s)

/-- ECC_LAP_READ (R446). -/
def execEccLapRead (req : Requester) (s : State) : Host.Outcome State Fault Refusal := ran (readWith req 0xF0814 (fun _ s => readLap s) s.begin)

end Sys2Proof.Machine
end

