-- ==== Sys2Proof/Machine/Egr.lean ====
section
/-!
DEFINITION. Sys2Proof/Machine/Egr.lean: selection, start and end of frames, preemption (spec/11).
-/
namespace Sys2Proof.Machine

/-- EGR works and reaches BUF (R23, R24). -/
def egrUp (s : State) : Bool := islUp s islEGR && islUp s islBUF && crossUp s islBUF islEGR

/-- The crossing by which frames leave on output `o` is up (R23, R24). -/
def outCross (s : State) (o : Nat) : Bool :=
  if o < 64 then islUp s (islLANE (quadOf o)) && crossUp s islEGR (islLANE (quadOf o))
  else if o = 64 then crossUp s islBUF islHOST else crossUp s islBUF islMCU

/-! ### Selection (R309 to R315) -/

/-- A selected frame whose copy has been discarded is selected no more. -/
def cleanSel (o : Nat) (s : State) : State :=
  let x := egrPort s o
  let has (t : Tx) (st : CopySt) : Bool :=
    match frameAt s t.frame with | some y => y.copies.any fun c => c.out == o && c.st == st | none => false
  let keep (t : Option Tx) (st : CopySt) : Option Tx := match t with | some u => if has u st then some u else none | none => none
  let sel := match x.sel with | some u => if u.tTx.isSome || has u .selected || has u .leaving then some u else none | none => none
  setEgrPort o { x with sel := sel, tx := keep x.tx .leaving, ptx := keep x.ptx .leaving } s

/-- What one class offers at a selection: its frame, whether preemptible, its start instant, and whether it is eligible, does
not fit, fits no span. -/
structure Offer where
  tc : Nat
  frame : Nat
  input : Nat
  pre : Bool
  ts : Int
  ok : Bool
  noFit : Bool
  never : Bool
  overrun : Bool
  deriving DecidableEq, Repr

/-- The frame of class `c` at a selection: one that did not fit keeps its class (R327), else R313 chooses. -/
def classFrame (s : State) (o c : Nat) : Option (Nat × Frame × Copy) :=
  match (egrPort s o).noFit.find? (·.1 == c) with
  | some (_, f) =>
    match (heads s o c).find? (·.1 == f) with
    | some h => some h
    | none => chooseQueue s o c
  | none => chooseQueue s o c

/-- The offer of class `c` for a start at `ts` (R310, R327 to R329). -/
def offer (s : State) (o c : Nat) (ts : Int) : Option Offer :=
  (classFrame s o c).map fun h =>
    let x := h.2.1
    let pre := isPre s o c x
    let ts := startAt s o pre ts
    let n := outLen s x o
    let base := outReady s o c && gateOk s o c pre ts && shaperOk s o c && !(pre && (egrPort s o).ptx.isSome)
    let fit := fits s o c pre ts n
    let never := base && !fit && !pre && (match n with | some k => neverFits s o c k | none => false)
    let begins := !gateOpen s o c (ts - wordPeriod (portMode s o))
    let excess := never && flag s R.EGR_GATE_CFG_OVERSIZE_ACT o && begins
    { tc := c, frame := h.1, input := x.port, pre, ts, ok := base && (fit || excess), noFit := base && !fit && !excess, never, overrun := excess }

def bandTag (s : State) (o c : Nat) : Nat := ((egrCls s o c).bandF).getD 0

def isShared (s : State) (o c : Nat) : Bool := flag s (clsF R.EGR_CLS_CFG_SHARED c) o

/-- Cost of a frame in the band (R311, R313). -/
def bandCost (s : State) (o c : Nat) (x : Frame) : Nat :=
  tagCost ((tagOctets s x).1 + ovh s o) (zeroAs 1 (getF s (clsF R.EGR_CLS_CFG_BAND_W c) o))

/-- A backlogged SHARED class without a tag wakes at the band's virtual time (R311, R314). -/
def formBand (o : Nat) (s : State) : State :=
  (List.range 8).foldl (fun s c =>
    match isShared s o c, (egrCls s o c).bandF, classFrame s o c with
    | true, none, some h =>
      let v := (egrPort s o).bandV
      let k := 1056 + c
      let st := match smGet none (egrPort s o).tags k with | some l => if tagLt v l then l else v | none => v
      setTag o k none (setEgrCls o c { egrCls s o c with bandF := some ((st + bandCost s o c h.2.1) % 2 ^ 32) } s)
    | _, _, _ => s) s

/-- R311 over a set of offers. -/
def chooseClass (s : State) (o : Nat) (l : List Offer) : Option Offer :=
  let l := l.filter (·.ok)
  let strict := (l.filter fun q => !isShared s o q.tc).getLast?
  let top := ((List.range 8).filter fun c => isShared s o c).getLast?
  let band := (l.filter fun q => isShared s o q.tc).foldl (fun (a : Option Offer) q =>
    match a with
    | none => some q
    | some b => if tagLt (bandTag s o b.tc) (bandTag s o q.tc) then some b else some q) none
  match strict, band, top with
  | some x, some y, some t => if x.tc > t then some x else some y
  | some x, _, _ => some x
  | none, y, _ => y

/-- Last tags that V, now `v`, has reached are kept only for queues of class `c` that still have a copy, whose cost may be corrected at its
end (R314, R315); the same for the classes of the band. -/
def purgeTags (o c : Nat) (s : State) : State :=
  let x := egrPort s o
  let has (p : Frame → Copy → Bool) : Bool := (frames s).any fun z => z.2.copies.any fun y => y.out == o && p z.2 y
  let keep (e : Nat × Option Nat) : Bool :=
    let k := e.1
    match e.2 with
    | none => true
    | some l =>
      if 528 + 66 * c ≤ k ∧ k < 594 + 66 * c then tagLt (egrCls s o c).v l || has fun z y => y.tc == c && z.port == k - (528 + 66 * c)
      else if 1056 ≤ k then tagLt x.bandV l || has fun _ y => y.tc == k - 1056
      else true
  setEgrPort o { x with tags := x.tags.filter keep } s

/-- A copy leaves the head of its queue at a selection: V becomes its tag, unless it was discarded for its age, and the next
head is tagged from it (R313, R315). The last tag of a queue that empties is that of its last selected copy. -/
def advanceQueue (o c i f bf : Nat) (moveV : Bool) (s : State) : State :=
  let shared := isShared s o c
  let s := if moveV then setEgrCls o c { egrCls s o c with v := f } s else s
  let s := if moveV && shared then setEgrPort o { egrPort s o with bandV := bf } s else s
  let s := match queueHead s i o c with
    | some h =>
      let (n, est) := tagOctets s h.2.1
      let s := if est then markCost h.1 o n s else s
      let (_, s) := eccRead 12 (4096 + o * 66 + i) s
      setTag o (tagKey c i) (some ((f + tagCost (n + ovh s o) (weight s o i)) % 2 ^ 32)) s
    | none => setTag o (528 + tagKey c i) (if moveV then some f else none) (setTag o (tagKey c i) none s)
  let s := if !shared then s
    else
      match classFrame s o c with
      | some h => setEgrCls o c { egrCls s o c with bandF := some ((bf + bandCost s o c h.2.1) % 2 ^ 32) } s
      | none => setTag o (1056 + c) (if moveV then some bf else none) (setEgrCls o c { egrCls s o c with bandF := none } s)
  purgeTags o c s

/-- The frame's copy is older than MAX_AGE_MS (R304). -/
def tooOld (s : State) (o f : Nat) : Bool :=
  let m := getF s R.BUF_PORT_CFG_MAX_AGE_MS o
  m ≠ 0 && (match frameAt s f with
    | some x => x.copies.any fun y => y.out == o && decide (copyNow s islEGR - y.enq > m * unitMs)
    | none => false)

def setCopySt (f o : Nat) (st : CopySt) (s : State) : State :=
  match frameAt s f with
  | some x => setFrame f (some { x with copies := x.copies.map fun y => if y.out = o then { y with st := st } else y }) s
  | none => s

/-- A frame aged out at its selection is discarded (R304). -/
def ageOut (o : Nat) (q : Offer) (s : State) : State :=
  let f := (tagOf s o q.tc q.input).getD 0
  let bf := bandTag s o q.tc
  advanceQueue o q.tc q.input f bf false (dropCopy 0x17 q.frame o s)

/-- What the offers that do not fit leave behind: counts, the frame that keeps its class, GATE_NEVER_FITS (R327, R329). -/
def markNoFit (o : Nat) (q : Offer) (s : State) : State :=
  let s := if q.noFit then
      let s := monEvent 0x10 o (some q.tc) 0 1 (bump R.EGR_CNT_NOFIT_COUNT s o)
      let x := egrPort s o
      setEgrPort o { x with noFit := (x.noFit.filter fun e => e.1 ≠ q.tc) ++ [(q.tc, q.frame)] } s
    else s
  let x := egrPort s o
  if q.never && !x.never.contains q.frame then
    raise R.EGR_PORT_EVENT_GATE_NEVER_FITS (setEgrPort o { x with never := x.never ++ [q.frame] } s) o
  else s

/-- The remainder of a preempted frame as an offer (R328): ahead of any other frame of its class. -/
def remainder (s : State) (o : Nat) (ts : Int) : Option Offer :=
  match (egrPort s o).ptx with
  | some t =>
    if !t.paused then none
    else
      let ts := startAt s o true ts
      let ok := outReady s o t.tc && gateOk s o t.tc true ts && shaperOk s o t.tc && fits s o t.tc true ts (some t.left)
      some { tc := t.tc, frame := t.frame, input := 0, pre := true, ts, ok, noFit := false, never := false, overrun := false }
  | none => none

/-- Take the offer: its frame is selected. -/
def takeOffer (o : Nat) (q : Offer) (s : State) : State :=
  let x := egrPort s o
  match x.ptx with
  | some t =>
    if t.paused && t.frame == q.frame then setEgrPort o { x with sel := some { t with tS := q.ts } } s
    else pick s
  | none => pick s
where
  pick (s : State) : State :=
    match frameAt s q.frame with
    | none => s
    | some y =>
      let len := (outLen s y o).getD ((tagOctets s y).1)
      let t : Tx := { frame := q.frame, tc := q.tc, tS := q.ts, left := len, pre := q.pre, charged := 0, overrun := q.overrun,
                      tTx := none, insert := false, ts := 0, add := 0, paused := false, counted := false }
      let f := (tagOf s o q.tc q.input).getD 0
      let bf := bandTag s o q.tc
      let s := advanceQueue o q.tc q.input f bf true (setCopySt q.frame o .selected s)
      let x := egrPort s o
      setEgrPort o { x with sel := some t, noFit := x.noFit.filter fun e => e.1 ≠ q.tc, never := x.never.filter (· ≠ q.frame) } s

/-- One selection of output `o`: whether EGR selects again (a frame was given up for its age), and the state after it. -/
def selectOnce (o : Nat) (ts : Int) (s : State) : Bool × State :=
  let s := formBand o ((List.range 8).foldl (fun s c => formTags o c s) s)
  let offers := (List.range 8).filterMap fun c => offer s o c ts
  let old := offers.find? fun q => q.never && !q.ok && tooOld s o q.frame
  match old with
  | some q => (true, ageOut o q s)
  | none =>
    let rem := (remainder s o ts).toList
    let express := offers.filter fun q => !q.pre
    let pre := if rem.isEmpty then offers.filter (·.pre) else rem
    let s := offers.foldl (fun s q => markNoFit o q s) s
    match (match chooseClass s o express with | some q => some q | none => chooseClass s o pre) with
    | none => (false, s)
    | some q => if tooOld s o q.frame && rem.isEmpty then (true, ageOut o q s) else (false, takeOffer o q s)

/-- Selections until one holds (R304 makes EGR select again). -/
def selectLoop (o : Nat) (ts : Int) : Nat → State → State
  | 0, s => s
  | k + 1, s => if (selectOnce o ts s).1 then selectLoop o ts k (selectOnce o ts s).2 else (selectOnce o ts s).2

/-- EGRESS_SELECTION (R309): EGR selects the next frame of output `o` for the start instant `ts` that the word boundaries of the
timing lane and, where no gate list runs, the fixed delay of the mode give. -/
def execEgressSelection (o : Nat) (ts : Int) (s : State) : Host.Outcome State Fault Refusal :=
  let s := s.begin
  ran (if egrUp s && portPresent s o && !jtagHolds s then
    let s := cleanSel o (touchOut o s)
    if (egrPort s o).sel.isSome then s else selectLoop o ts (s.buf.frames.length + 1) s
  else s)

/-! ### Preemption (R328, R332) -/

/-- Octets of the frame that have left at instant `t`, in whole steps of 8 and never less than the shortest fragment, with at
least 64 octets to come (IEEE 802.3br, PRESUMED: notes/assumptions/23.md). None where no legal point has been reached. -/
def preemptPoint (s : State) (o : Nat) (x : Tx) (t : Int) : Option Nat :=
  let span : Int := ((t - x.tS) * (outRate s o : Int)) / (8 * 4294967296)
  let gone := ((span - 12).toNat / 8) * 8
  let least := minFrag s o - 4
  let gone := min gone ((x.left - 64) / 8 * 8)
  if x.left ≥ least + 64 ∧ gone ≥ least then some gone else none

/-- The preemptible frame in progress on output `o` is preempted by instant `t`. -/
def preempt (o : Nat) (t : Int) (s : State) : State :=
  let x := egrPort s o
  match x.ptx with
  | some p =>
    if p.paused then s
    else
      match preemptPoint s o p t with
      | some n =>
        let s := setEgrPort o { x with ptx := some { p with left := p.left - n, paused := true } } s
        monEvent 0x0F o none 0 1 (bump R.EGR_CNT_PREEMPT_COUNT s o)
      | none => s
  | none => s

/-! ### Start (R308, R316, R97 to R102) -/

/-- What becomes of a copy's insertion command on its output: none, or its time formed only, made, or the frame refused under
a reason. -/
inductive InsFate where
  | none
  | ignored
  | timeOnly
  | made
  | refused (reason : Nat)
  | sentWithout
  deriving DecidableEq, Repr

/-- The decisions of R76, R99 and R101, in their order. -/
def insFate (s : State) (o : Nat) (x : Frame) (tx : TxTime) : InsFate :=
  match x.ins with
  | Option.none => .none
  | some i =>
    if o ≥ 64 then .none
    else if !txTsOn s o then .ignored
    else if !flag s R.TSU_CTL_ONESTEP_ENA o then .timeOnly
    else if i.udpOff ≠ 0 && i.ipv6 && i.trailer.isNone then
      if getF s R.TSU_CTL_NOTRAILER_ACT o = 1 then .sentWithout else .refused 0x1A
    else if i.residence then
      if (residence tx 0 x.stepCount).isNone then .refused 0x19
      else if (usableRx x).isNone then .refused 0x1A
      else .made
    else .made

/-- A forwarded two-step Sync of a transparent domain stores its residence at its output (R124). -/
def storeCorr (o : Nat) (x : Frame) (tx : TxTime) (s : State) : State :=
  match x.ptp, usableRx x with
  | some m, some r =>
    let tc : Bool := match x.dom with
      | some d => transparent s (d == 1)
      | Option.none => flag s R.PTE_GCFG_ENA && getF s R.PTE_GCFG_UNMAPPED == 1
    if m.kind = 0 ∧ m.twoStep ∧ tc ∧ x.port < 64 ∧ x.ins.isNone then
      match residence tx r.t16 x.stepCount with
      | some v => corrAdd { slot := 0, out := o, dom := x.dom.getD 2, src := m.src, seq := m.seq, res := v, at32 := now s } s
      | Option.none => s
    else s
  | _, _ => s

/-- A selected frame is refused at its start. -/
def refuseStart (o reason : Nat) (t : Tx) (s : State) : State :=
  let s := dropCopy reason t.frame o s
  setEgrPort o { egrPort s o with sel := Option.none } s

/-- The frame starts: counted, charged, sampled. -/
def beginTx (o : Nat) (t : Tx) (x : Frame) (y : Copy) (tTx : Option Int) (ins : Option (Int × Int)) (s : State) : State :=
  let s := setCopySt t.frame o .leaving s
  let s := monEvent 3 o (some t.tc) 0 1 (bump R.EGR_CNT_TX_COUNT s o)
  let known := (frameLen x).isSome
  let s := if known then monEvent 4 o (some t.tc) 0 t.left s else s
  let s := if t.overrun then bump R.EGR_CNT_OVERRUN_COUNT s o else s
  let m := shaper s o t.tc
  let n := (t.left + ovh s o) * 256
  let s := if m = 1 ∨ m = 2 then setEgrCls o t.tc { egrCls s o t.tc with level := (egrCls s o t.tc).level - n } s else s
  let s := histDelay x.port o t.tc ((t.tS - y.enq) / unitNs).toNat s
  let v := ins.getD (0, 0)
  let t := { t with charged := t.left, tTx := tTx, insert := ins.isSome, ts := v.1, add := v.2, counted := known }
  let p := egrPort s o
  setEgrPort o { p with sel := Option.none, tx := if t.pre then p.tx else some t, ptx := if t.pre then some t else p.ptx } s

/-- A read of the words of cell `c`, the `j`-th of a frame of `ws` words: those that deliver no data (R438). -/
def readWords (c j ws : Nat) (s : State) : List Nat × State :=
  ((List.range 8).filter fun w => 8 * j + w < ws).foldl (fun (a : List Nat × State) w =>
    let (ok, s) := eccRead 0 ((8 * (c / 65536) + w) * 65536 + c % 65536) a.2
    (if ok then a.1 else a.1 ++ [8 * j + w], s)) ([], s)

/-- A read of the link behind cell `c`, the `j`-th of frame `f`: where it cannot be read the frame's other cells are withheld (R442). -/
def readLink (f c j : Nat) (s : State) : Bool × State :=
  let (ok, s) := eccRead 1 c s
  if ok then (true, s)
  else (false, withhold ((cellChain s f).length - (j + 1))
    { s with buf := { s.buf with cells := smPut [] s.buf.cells f ((cellChain s f).take (j + 1)) } })

/-- A read of cell `j` of the chain `l` of a frame of `n` octets: its words, with the link to the next cell. The words that deliver no data,
and whether the link leads on. -/
def readCell (f j n : Nat) (l : List Nat) (s : State) : List Nat × Bool × State :=
  match l[j]? with
  | none => ([], true, s)
  | some c =>
    let (bad, s) := readWords c j ((n + 31) / 32) s
    let (ok, s) := if j + 1 < cellsOf n then readLink f c j s else (true, s)
    (bad, ok, s)

/-- The words that the start of a copy reads: its first cell, its descriptor, and where it is edited the untagged set (R438): whether all
can be read. The other cells are read as the frame leaves (notes/assumptions/27.md). -/
def eccStart (o f : Nat) (x : Frame) (y : Copy) (s : State) : Bool × State :=
  let (bad, ok1, s) := readCell f 0 x.octets.length (cellChain s f) s
  let (ok2, s) := eccRead 2 (y.qno % 262144) s
  let (ok3, s) := match x.ing with | some g => if o < 64 then eccRead 12 g.vid s else (true, s) | Option.none => (true, s)
  (bad.isEmpty && ok1 && ok2 && ok3, s)

/-- The cells after the first are read as the copy leaves: the words of the frame that could not be read. Nothing behind an unreadable link
can be reached. -/
def readRest (f n : Nat) (l : List Nat) : Nat → Nat → State → List Nat × State
  | 0, _, s => ([], s)
  | k + 1, j, s =>
    if j ≥ l.length then ((List.range ((n + 31) / 32)).filter (8 * j ≤ ·), s)
    else
      let (bad, ok, s) := readCell f j n l s
      if ok then let (rest, s) := readRest f n l k (j + 1) s; (bad ++ rest, s)
      else (bad ++ (List.range ((n + 31) / 32)).filter (8 * (j + 1) ≤ ·), s)

/-- The octets of words that delivered no data are free values. -/
def blankWords (ws : List Nat) (octets : List Nat) (s : State) : List Nat × State :=
  let at_ := (List.range octets.length).filter fun k => ws.contains (k / 32)
  at_.foldl (fun (a : List Nat × State) k => let (v, s) := drawInt a.2; (a.1.set k (v % 256).toNat, s)) (octets, s)

/-- What frame `f` reads as it leaves (R299, R300): an unreadable word strikes it under ECC. The frame as it is sent. -/
def eccLeave (f : Nat) (x : Frame) (s : State) : Frame × State :=
  let n := x.octets.length
  let (bad, s) := readRest f n (cellChain s f) (cellsOf n - 1) 1 s
  if bad.isEmpty then (x, s)
  else
    let s := frameBad 0x14 f s
    let (octets, s) := blankWords bad x.octets s
    ({ x with octets, bad := some (x.bad.getD 0x14) }, s)

/-- The start of transmission `t` of frame `x` by what becomes of its insertion. -/
def startBy (o : Nat) (tx : TxTime) (t : Tx) (x : Frame) (y : Copy) (fate : InsFate) (s : State) : State :=
  let noIns (s : State) : State := bump R.TSU_CNT_NOINS_COUNT s o
  match fate with
  | .none =>
    let s := if o < 64 ∧ txTsOn s o then storeCorr o x tx s else s
    beginTx o t x y Option.none Option.none s
  | .ignored => beginTx o t x y Option.none Option.none (noIns s)
  | .timeOnly => beginTx o t x y (some tx.t) Option.none (noIns (formTx o tx s))
  | .sentWithout => beginTx o t x y (some tx.t) Option.none (noIns (raise R.TSU_EVENT_ONESTEP_NO_TRAILER (formTx o tx s) o))
  | .refused r =>
    let noTrailer := match x.ins with | some i => i.udpOff ≠ 0 && i.ipv6 && i.trailer.isNone | Option.none => false
    let s := if noTrailer then raise R.TSU_EVENT_ONESTEP_NO_TRAILER s o else s
    let s := if r = 0x19 then raise R.TSU_EVENT_RESIDENCE_SPAN_STEP s o else s
    refuseStart o r t (noIns s)
  | .made =>
    let v := x.ins.map fun i => insValues s x o i tx
    beginTx o t x y (some tx.t) v (bump R.TSU_CNT_INS_COUNT (formTx o tx s) o)

/-- The start of a frame that no remainder of it precedes: the copy is read, its insertion decided. -/
def startFresh (o back : Nat) (uIns : Int) (t : Tx) (s : State) : State :=
  match frameAt s t.frame with
  | none => s
  | some x =>
    match x.copies.find? (·.out == o) with
    | none => s
    | some y =>
      match x.bad with
      | some r => refuseStart o r t s
      | none =>
        let (ok, s) := eccStart o t.frame x y (touchOut o (whenS (o < 64) (freeReload (quadOf o)) s))
        let tx := txTime s o back uIns
        if ok then startBy o tx t x y (insFate s o x tx) s else refuseStart o 0x14 t s

/-- FRAME_TX_START (R308): the selected frame of output `o` starts at its instant; `back` and `uIns` place its SOF octet at the
insertion point (R91, `txTime`). -/
def txStart (o back : Nat) (uIns : Int) (s : State) : State :=
  let s := cleanSel o s
  let p := egrPort s o
  match p.sel with
  | none => s
  | some t =>
    match p.ptx with
    | some r =>
      if r.paused && r.frame == t.frame then
        setEgrPort o { p with sel := none, ptx := some { r with tS := t.tS, paused := false } } s
      else startFresh o back uIns t (if t.pre then s else preempt o t.tS s)
    | none => startFresh o back uIns t s

/-- A port is free for the start: no express frame leaves. -/
def txIdle (s : State) (o : Nat) : Bool :=
  let p := egrPort s o
  match p.sel with
  | some t =>
    p.tx.isNone && (match p.ptx with | some r => r.paused || (!t.pre && mmActive s o && (preemptPoint s o r t.tS).isSome) | Option.none => true)
  | Option.none => false

/-- FRAME_TX_START (R308). -/
def execFrameTxStart (o back : Nat) (uIns : Int) (s : State) : Host.Outcome State Fault Refusal :=
  let s := s.begin
  ran (if egrUp s && portPresent s o && outCross s o && txIdle s o && !jtagHolds s then txStart o back uIns s else s)

/-! ### End (R315, R316) -/

/-- The corrections at the end of a frame whose length was estimated (R315, R316). -/
def correctEnd (o : Nat) (t : Tx) (x : Frame) (y : Copy) (sent : Nat) (s : State) : State :=
  let m := shaper s o t.tc
  let s := if m = 1 ∨ m = 2 then
      setEgrCls o t.tc { egrCls s o t.tc with level := (egrCls s o t.tc).level - ((sent : Int) - t.charged) * 256 } s
    else s
  if y.cost = 0 then s
  else
    let w := weight s o x.port
    let diff (w : Nat) : Int := (tagCost (x.octets.length + ovh s o) w : Int) - tagCost (y.cost + ovh s o) w
    let k := tagKey t.tc x.port
    let add (v : Nat) (w : Nat) : Nat := ((v + diff w) % 4294967296).toNat
    let s := match tagOf s o t.tc x.port, lastTagOf s o t.tc x.port with
      | some f, _ => setTag o k (some (add f w)) s
      | Option.none, some f => setTag o (528 + k) (some (add f w)) s
      | _, _ => s
    if !isShared s o t.tc then s
    else
      let bw := zeroAs 1 (getF s (clsF R.EGR_CLS_CFG_BAND_W t.tc) o)
      let z := egrCls s o t.tc
      match z.bandF, smGet Option.none (egrPort s o).tags (1056 + t.tc) with
      | some f, _ => setEgrCls o t.tc { z with bandF := some (add f bw) } s
      | Option.none, some f => setTag o (1056 + t.tc) (some (add f bw)) s
      | _, _ => s

/-- The last block before the terminating one is an error control block: a stomped frame on a port with Clause 74 or RS-FEC (R299). -/
def errorBlock (s : State) (o : Nat) (x : Frame) : Bool := x.bad.isSome && o < 64 && portFec s o ≠ 0

/-- A frame's last octet leaves (R308): edited (R333) and sent; the copy is gone. -/
def txEndOf (o : Nat) (t : Tx) (s : State) : State :=
  match frameAt s t.frame with
  | Option.none => s
  | some x =>
    match x.copies.find? (·.out == o) with
    | Option.none => s
    | some y =>
      let (x, s) := eccLeave t.frame x (touchOut o s)
      let (ecn, octets) := edited s x o y t.insert t.ts t.add
      let s := correctEnd o t x y octets.length s
      let s := if !t.counted then monEvent 4 o (some t.tc) 0 octets.length s else s
      let s := if ecn then monEvent 0x0C o (some t.tc) 0 1 (bump R.BUF_CNT_ECN_MARK_COUNT s o) else s
      let s := if o = 64 then { s with hif := { s.hif with rxq := s.hif.rxq ++ [⟨t.tc, x⟩] } } else emit (.frame o octets (if o = 65 then p65Record x else []) (errorBlock s o x)) s
      let s := if o < 64 then bwAdd true o octets.length s else s
      let p := egrPort s o
      let s := setEgrPort o { p with tx := if t.pre then p.tx else Option.none, ptx := if t.pre then Option.none else p.ptx,
                                     freeAt := now s } s
      reapFrame t.frame (removeCopies t.frame (·.out == o) s)

/-- FRAME_TX_END (R315): the express frame of output `o`, or (`pre`) the preemptible one, ends. -/
def execFrameTxEnd (o : Nat) (pre : Bool) (s : State) : Host.Outcome State Fault Refusal :=
  let s := s.begin
  ran (if egrUp s then
    let s := cleanSel o s
    match (if pre then (egrPort s o).ptx else (egrPort s o).tx) with
    | some t =>
      let done := match frameAt s t.frame with | some x => x.ended | Option.none => true
      if t.paused || !done then s else txEndOf o t s
    | Option.none => s
  else s)

/-- The event of the boundary that has been reached came less than 256 ns ahead (R35): it applies at the next transmit block boundary, `at_`,
one block of 8 octets away at most. -/
def lateEvent (o : Nat) (at_ : Int) (s : State) : State :=
  let t := now s
  let lim := t + octetTime s o 8
  let a := if at_ < t then t else if lim < at_ then lim else at_
  let s := raise R.EGR_PORT_EVENT_GATE_EVENT_LATE s o
  match entryAt s o t with
  | some z => setEgrPort o { egrPort s o with late := some (z.st, a) } s
  | none => s

/-- GATE_ENTRY_CHANGE (R320, R35): an entry boundary of output `o` is reached: a preemptible frame whose class closes is
preempted. `late`: the event reached the LANE island less than 256 ns ahead, and the next transmit block boundary is at this instant. -/
def execGateEntryChange (o : Nat) (late : Option Int) (s : State) : Host.Outcome State Fault Refusal :=
  let s := s.begin
  ran (if egrUp s && gateEna s o then
    let s := match late with | some t => lateEvent o t (touchOut o s) | none => s
    let s := cleanSel o (touchOut o s)
    match (egrPort s o).ptx with
    | some t => if gateOpen s o t.tc (now s) then s else preempt o (now s) s
    | Option.none => s
  else s)

/-- MAC_HOLD_START (R332): the hold takes effect; a preemptible frame in progress is preempted. -/
def execMacHoldStart (o : Nat) (s : State) : Host.Outcome State Fault Refusal :=
  let s := s.begin
  ran (if egrUp s && holdAt s o (now s) then preempt o (now s) (cleanSel o s) else s)

end Sys2Proof.Machine
end

