-- ==== Sys2Proof/Machine/EgrCtl.lean ====
section
/-!
DEFINITION. Sys2Proof/Machine/EgrCtl.lean: shaper, gate control and table commands of EGR (spec/11).
-/
namespace Sys2Proof.Machine

/-! ### Shapers (R319) -/

/-- SHAPER_RATE_WRITE (R319): the level is brought up to date at the old rate first. -/
def execShaperRateWrite (req : Requester) (c val : Nat) (s : State) : Host.Outcome State Fault Refusal :=
  ran (writeAt req (0xD0204 + 0x10 * c) (fun o s => setF (clsF R.EGR_CLS_RATE_RATE c) val (shaperTouch o c s) o) s.begin)

/-- A write of BURST clamps a token bucket above it. -/
def writeBurst (c val o : Nat) (s : State) : State :=
  let s := setF (clsF R.EGR_CLS_BURST_BURST c) val (shaperTouch o c s) o
  let b : Int := getF s (clsF R.EGR_CLS_BURST_BURST c) o * 256
  let x := egrCls s o c
  if shaper s o c = 1 ∧ x.level > b then setEgrCls o c { x with level := b } s else s

/-- A write of EGR_CLS_CFG: a change of SHAPER sets the level to 0. -/
def writeClsCfg (c val o : Nat) (s : State) : State :=
  let s := shaperTouch o c s
  let was := getF s (clsF R.EGR_CLS_CFG_SHAPER c) o
  let s := setF (clsF R.EGR_CLS_CFG_PREEMPTIBLE c) (bitsOf val 31 1) s o
  let s := setF (clsF R.EGR_CLS_CFG_SHARED c) (bitsOf val 30 1) s o
  let s := setF (clsF R.EGR_CLS_CFG_SHAPER c) (bitsOf val 28 2) s o
  let s := setF (clsF R.EGR_CLS_CFG_BAND_W c) (bitsOf val 8 8) s o
  let x := egrCls s o c
  if was = bitsOf val 28 2 then s else setEgrCls o c { x with level := 0, rem := 0 } s

/-- SHAPER_CFG_WRITE (R319): a write of EGR_CLS_BURST (`burst`) or of EGR_CLS_CFG. -/
def execShaperCfgWrite (req : Requester) (c val : Nat) (burst : Bool) (s : State) : Host.Outcome State Fault Refusal :=
  ran (if burst then writeAt req (0xD0208 + 0x10 * c) (fun o s => writeBurst c val o s) s.begin
    else writeAt req (0xD0200 + 0x10 * c) (fun o s => writeClsCfg c val o s) s.begin)

/-! ### Gate control (R320 to R325) -/

/-- Gate and MAC merge registers of P64 and P65: writes are discarded under R8. -/
def frontOnly (o off : Nat) (f : State → State) (s : State) : State :=
  if o ≥ 64 then raise R.FLT_GEN_EVENT_REG_ACCESS_UNMAPPED s 0 off else f s

/-- GATE_ENABLE_WRITE (R321): a write of EGR_GATE_CFG. -/
def writeGateCfg (o val : Nat) (s : State) : State :=
  let s := touchOut o s
  let s := setF R.EGR_GATE_CFG_ENA (bitsOf val 31 1) s o
  let s := setF R.EGR_GATE_CFG_OVERSIZE_ACT (bitsOf val 30 1) s o
  setF R.EGR_GATE_CFG_HOLD_ADV_NS (bitsOf val 8 16) (setF R.EGR_GATE_CFG_INIT_STATES (bitsOf val 0 8) s o) o

def execGateEnableWrite (req : Requester) (val : Nat) (s : State) : Host.Outcome State Fault Refusal :=
  ran (writeAt req 0xD0110 (fun o s => frontOnly o 0xD0110 (writeGateCfg o val) s) s.begin)

/-- The change time of a list with origin `b` for a commit at the present Last (R322). -/
def changeTime (s : State) (b : Int) (p : Period) : Instant :=
  let tw := copyNow s islEGR + 2 * unitUs
  if b ≥ tw then ⟨0, b, 0⟩ else p.instant b (p.firstIndex b tw)

/-- The instant from which the cycle that would begin is not begun before a change at `at32` + `acc`/`den` units (R323), exactly. -/
def suppressed (oper : Option GateList) (at32 acc : Int) (den : Nat) (tw : Int) : Option Int :=
  match oper with
  | some g =>
    let k := (((at32 - g.base) * den + acc) * g.den) / ((g.num : Int) * 4294967296 * den)
    let c := g.period.instant g.base k
    let d := (at32 - c.at32) * den * g.den + acc * g.den - c.acc * den
    if c.up ≥ tw ∧ d > 0 ∧ d ≤ (g.ext : Int) * unitNs * den * g.den then some c.up else none
  | none => none

/-- Start a pending change at instant `t`, whose fraction is in 1/`den` (R322, R323). -/
def startChange (o : Nat) (t : Instant) (den : Nat) (realign : Bool) (s : State) : State :=
  let x := egrPort s o
  let tw := copyNow s islEGR + 2 * unitUs
  setT96 0xD0160 0x100000 (T96.ofUnits t.at32)
    (setEgrPort o { x with pend := some { tc := t.up, at32 := t.at32, acc := t.acc, den := den, tw := tw, realign := realign,
                                          suppress := suppressed x.oper t.at32 t.acc den tw } } s) o

/-- The banks swap (R323). -/
def gateSwap (o : Nat) (s : State) : State :=
  let x := egrPort s o
  match x.pend with
  | none => s
  | some p =>
    let g := pendList s o p
    let old := match x.oper with | some g => g.holds (holdAdv s o) (some (p.suppress.getD p.tc)) p.tc | none => []
    let s := if p.realign then s
      else (List.range (min 256 (getF s R.EGR_GATE_LEN_ADMIN_LEN o))).foldl (fun s e => (eccRead 11 (o * 512 + e) s).2) s
    let s := setEgrPort o { x with oper := g, pend := none, hold := holdAfter old p.tc x.hold } s
    let s := match g with
      | some g =>
        let s := if p.realign then s
          else setT96 0xD0130 0x100000 (getT96 s 0xD0120 0x100000 o) (setPeriod 0xD0150 0x100000 g.period s o) o
        setF R.EGR_GATE_OPER_EXT_EXT_NS g.ext (setF R.EGR_GATE_LEN_OPER_LEN g.entries.length s o) o
      | none => s
    setFlag R.EGR_GATE_CTL_ALIGNED true (raise R.EGR_PORT_EVENT_GCL_CHANGED s o) o

/-- COMMIT (R322, R324). -/
def gateCommitAdmin (o : Nat) (s : State) : State :=
  let p := getPeriod s 0xD0140 0x100000 o
  let n := getF s R.EGR_GATE_LEN_ADMIN_LEN o
  if (egrPort s o).pend.isSome then raise R.EGR_PORT_EVENT_GCL_BUSY s o
  else
    let s' := whenS (!p.ok) (fun s => raise R.EGR_PORT_EVENT_PERIOD_INVALID s o 0xD0148) s
    if n = 0 ∨ n > 256 ∨ !p.ok ∨ p.num < 1000 * p.den then raise R.EGR_PORT_EVENT_GATE_CFG_INVALID s' o
    else startChange o (changeTime s (getT96 s 0xD0120 0x100000 o).units p) p.den false s

/-- CANCEL (R324): a change whose time has come in this cycle is made. -/
def gateCancel (o : Nat) (s : State) : State :=
  match (egrPort s o).pend with
  | some p => if p.tc ≤ now s then gateSwap o (touchOut o s) else setEgrPort o { egrPort s o with pend := none } s
  | none => s

/-- REALIGN (R325): with ENA = 0 no list runs (R321). -/
def gateRealign (o : Nat) (s : State) : State :=
  let x := egrPort s o
  match x.oper, x.pend, gateEna s o with
  | some g, none, true => startChange o (changeTime s (getT96 s 0xD0130 0x100000 o).units g.period) g.den true s
  | _, _, _ => raise R.EGR_PORT_EVENT_GATE_REALIGN_IGNORED s o

/-- A write of EGR_GATE_CTL: CANCEL, then COMMIT, then REALIGN (R324). -/
def writeGateCtl (o val : Nat) (s : State) : State :=
  whenS (bitOf val 29) (gateRealign o) (whenS (bitOf val 31) (gateCommitAdmin o) (whenS (bitOf val 30) (gateCancel o) s))

/-- GATE_COMMIT (R322): a write of EGR_GATE_CTL. -/
def execGateCommit (req : Requester) (val : Nat) (s : State) : Host.Outcome State Fault Refusal :=
  ran (writeAt req 0xD0114 (fun o s => frontOnly o 0xD0114 (writeGateCtl o val) s) s.begin)

/-- GATE_CANCEL (R324): a write of EGR_GATE_CTL. -/
def execGateCancel (req : Requester) (val : Nat) (s : State) : Host.Outcome State Fault Refusal :=
  ran (writeAt req 0xD0114 (fun o s => frontOnly o 0xD0114 (writeGateCtl o val) s) s.begin)

/-- GATE_REALIGN (R325): a write of EGR_GATE_CTL. -/
def execGateRealign (req : Requester) (val : Nat) (s : State) : Host.Outcome State Fault Refusal :=
  ran (writeAt req 0xD0114 (fun o s => frontOnly o 0xD0114 (writeGateCtl o val) s) s.begin)

/-- GATE_CONFIG_CHANGE (R323): the change time is reached. -/
def execGateConfigChange (o : Nat) (s : State) : Host.Outcome State Fault Refusal :=
  let s := s.begin
  ran (match (egrPort s o).pend with
    | some p => if islUp s islEGR && decide (p.tc ≤ now s) then gateSwap o (touchOut o s) else s
    | none => s)

/-- MM_VERIFY_END (R330): a verification under way succeeds or fails. -/
def execMmVerifyEnd (o : Nat) (ok : Bool) (s : State) : Host.Outcome State Fault Refusal :=
  let s := s.begin
  ran (if islUp s islEGR && getF s R.EGR_MM_STAT_VERIFY_STATUS o == 1 then
    if ok then setF R.EGR_MM_STAT_VERIFY_STATUS 2 s o
    else raise R.EGR_PORT_EVENT_MM_VERIFY_FAIL (setF R.EGR_MM_STAT_VERIFY_STATUS 3 s o) o
  else s)

/-! ### Tables (R313, R320, R324, R334) -/

/-- The memory and the word that hold entry `i` of EGR table `t` of port `o` (R438); the oper list was read at its configuration change. -/
def egrTblMem (t o i : Nat) : Option (Nat × Nat) :=
  match t with
  | 0 => some (12, i)
  | 1 => some (11, o * 512 + i)
  | 2 => none
  | _ => some (12, 4096 + o * 66 + i)

/-- What a read of an entry counts (R440, R441). -/
def egrTblEcc (t o i : Nat) (s : State) : State :=
  match egrTblMem t o i with
  | some (m, w) => (eccRead m w s).2
  | none => s

/-- An entry of EGR table `t` of port `o`: status and data words. -/
def egrTblWords (s : State) (t o i : Nat) : Nat × List Nat :=
  match t with
  | 0 =>
    let v := smGet 0 s.egr.untagged i
    if i ≥ 4096 then (4, []) else (0, [v % 2 ^ 32, v / 2 ^ 32 % 2 ^ 32, v / 2 ^ 64 % 4, 0])
  | 1 =>
    let w := smGet (0, 0) s.egr.admin (o * 256 + i)
    if i ≥ 256 ∨ o ≥ 64 then (4, []) else (0, [w.1, w.2, 0, 0])
  | 2 =>
    if i ≥ 256 ∨ o ≥ 64 then (4, [])
    else match (egrPort s o).oper.bind (·.entries[i]?) with
      | some (op, g, n) => (0, [op * 256 + g, n, 0, 0])
      | none => (0, [0, 0, 0, 0])
  | _ => if i ≥ 66 then (4, []) else (0, [smGet 1 s.egr.weights (o * 66 + i), 0, 0, 0])

/-- A read of an entry; one that cannot be read delivers no data, zeros (R441). -/
def egrTblRead (s : State) (t o i : Nat) : Nat × List Nat :=
  let (st, l) := egrTblWords s t o i
  (st, if st == 0 && (egrTblMem t o i).any (fun w => eccDead s w.1 w.2) then [0, 0, 0, 0] else l)

/-- Write an entry: the status and the state. -/
def egrTblWrite (t o i : Nat) (w : List Nat) (s : State) : Nat × State :=
  let d (k : Nat) : Nat := w.getD k 0 % 2 ^ 32
  match t with
  | 0 =>
    if i ≥ 4096 then (4, s)
    else (0, fullWrite 12 i { s with egr := { s.egr with untagged := smPut 0 s.egr.untagged i (d 0 + d 1 * 2 ^ 32 + d 2 % 4 * 2 ^ 64) } })
  | 1 =>
    if i ≥ 256 ∨ o ≥ 64 then (4, s)
    else if (egrPort s o).pend.isSome then (1, raise R.EGR_PORT_EVENT_GCL_BUSY s o)
    else (0, fullWrite 11 (o * 512 + i) { s with egr := { s.egr with admin := smPut (0, 0) s.egr.admin (o * 256 + i) (d 0 % 2048, d 1) } })
  | 2 => (2, s)
  | _ =>
    if i ≥ 66 then (4, s)
    else (0, fullWrite 12 (4096 + o * 66 + i) { s with egr := { s.egr with weights := smPut 1 s.egr.weights (o * 66 + i) (d 0 % 256) } })

/-- A write of EGR_TBL_CTL: GO starts one access, which is over at once; the selected port is the requester's EGR_SEL. -/
def writeEgrTbl (req : Requester) (val : Nat) (s : State) : State :=
  let t := bitsOf val 27 2
  let i := bitsOf val 0 12
  let o := selIndex (selWord s req 0xD0000)
  let s := setF R.EGR_TBL_CTL_WRITE (bitsOf val 29 1) (setF R.EGR_TBL_CTL_TABLE t (setF R.EGR_TBL_CTL_INDEX i s))
  if !bitOf val 31 then s
  else if (t ≠ 0 && !portPresent s o) then setF R.EGR_TBL_CTL_STATUS 4 s
  else if bitOf val 29 then
    let (st, s) := egrTblWrite t o i ((List.range 4).map fun k => getF s R.EGR_TBL_DATA_WORD k) s
    setF R.EGR_TBL_CTL_STATUS st s
  else
    let (st, w) := egrTblRead s t o i
    let s := if st = 0 then (List.range 4).foldl (fun s k => setF R.EGR_TBL_DATA_WORD (w.getD k 0) s k) (egrTblEcc t o i s) else s
    setF R.EGR_TBL_CTL_STATUS st s

/-- EGR_TABLE_READ (R313): a write of EGR_TBL_CTL. -/
def execEgrTableRead (req : Requester) (val : Nat) (s : State) : Host.Outcome State Fault Refusal :=
  ran (writeAt req 0xD0010 (fun _ s => writeEgrTbl req val s) s.begin)

/-- EGR_TABLE_WRITE (R313): a write of EGR_TBL_CTL. -/
def execEgrTableWrite (req : Requester) (val : Nat) (s : State) : Host.Outcome State Fault Refusal :=
  ran (writeAt req 0xD0010 (fun _ s => writeEgrTbl req val s) s.begin)

end Sys2Proof.Machine
end

