-- ==== Sys2Proof/Machine/Flt.lean ====
section
/-!
DEFINITION. Sys2Proof/Machine/Flt.lean: the fault collector of SAFE (spec/17).
-/
namespace Sys2Proof.Machine

/-- The class of a source (R467): 0 advisory, 1 recoverable, 2 unit-fatal, 3 device-fatal. -/
def srcClass (s : State) (src : Nat) : Nat := getF s R.FLT_SRC_CFG_CLASS src

/-- The order in which SAFE takes faults of one cycle (R453). -/
def faultBefore (s : State) (a b : FaultRec) : Bool :=
  decide (srcClass s a.src > srcClass s b.src) || (srcClass s a.src == srcClass s b.src && decide (a.src ≤ b.src))

def insertFault (s : State) (f : FaultRec) : List FaultRec → List FaultRec
  | [] => [f]
  | g :: l => if faultBefore s f g && !(srcClass s f.src == srcClass s g.src && f.src == g.src) then f :: g :: l else g :: insertFault s f l

def sortFaults (s : State) (l : List FaultRec) : List FaultRec := l.foldl (fun a f => insertFault s f a) []

/-- SAFE ignores signals of an island in reset, fenced or quarantined (R453). -/
def heard (s : State) (f : FaultRec) : Bool :=
  f.raiser == islSAFE || (islReleased s f.raiser && !islFenced s f.raiser && !islQuar s f.raiser)

/-- A new record, open (R454 to R456). -/
def openRecord (f : FaultRec) (s : State) : State :=
  let cls := srcClass s f.src
  let valid := islUp s islHOST && s.tim.lastValid
  let t := T96.ofUnits (copyNow s islHOST)
  let slot := (s.flt.newest + 1) % 16
  let seq := (s.flt.seq + 1) % 256
  let r : FltRecord :=
    { isOpen := true, escalated := false, acked := false, cls := cls, mode := svcMode s, seq := seq, src := f.src, inst := f.inst % 65536
      isl := f.isl, detail := f.detail % 2 ^ 32, mergeMask := 0, recovMask := 0, mergeCnt := 0, timeValid := valid, react := 0
      deadline := none, timeSec := if valid then t.sec else 0, timeNs := if valid then t.ns else 0
      timeFrac := if valid then t.frac else 0, safeUs := s.sys.us % 2 ^ 32, lastIsl := 0, lastSrc := 0 }
  { s with flt := { s.flt with recs := s.flt.recs.set slot (some r), newest := slot, seq := seq, openSlot := some slot } }

/-- Merge a fault into the open record (R455). -/
def mergeFault (f : FaultRec) (s : State) : State :=
  let cls := srcClass s f.src
  modOpen (fun r =>
    { r with mergeMask := putBit r.mergeMask f.isl true, mergeCnt := satN 255 (r.mergeCnt + 1), lastSrc := f.src, lastIsl := f.isl
             cls := max r.cls cls, recovMask := if cls = 1 then putBit r.recovMask f.isl true else r.recovMask }) s

/-- A recoverable fault in normal service starts the record's timer unless one runs (R455, R458). -/
def startTimer (f : FaultRec) (s : State) : State :=
  if flag s R.FLT_SRC_CFG_ESC_ENA f.src then
    let ms := zeroAs 1 (getF s R.FLT_SRC_CFG_REACT_MS f.src)
    let us := s.sys.us
    modOpen (fun r => if r.deadline.isSome then r else { r with react := ms, deadline := some (us + ms * 1000) }) s
  else s

/-- A device-fatal fault (R451, R463): in normal service everything but SAFE and HOST is fenced for good. -/
def deviceFatal (f : FaultRec) (s : State) : State :=
  let normal := svcMode s == 0
  let s := aliveStop s
  let s := setF R.RST_STATUS_FATAL_PENDING 1 (setF R.FLT_STATUS_FATAL_PENDING 1 { s with flt := { s.flt with fatal := true } })
  if normal then
    (allIslands.filter fun i => i ≠ islHOST && islPresent s i).foldl (fun s i => fence i s)
      { s with flt := { s.flt with fatalState := true } }
  else setF R.RST_STATUS_DEGRADED 1 (fence f.isl s)

/-- The reaction of the class in the service mode in force (R451, R467). -/
def react (f : FaultRec) (s : State) : State :=
  let normal := svcMode s == 0
  match srcClass s f.src with
  | 0 => s
  | 1 => if normal then startTimer f s else fence f.isl s
  | 2 =>
    if normal then
      -- MEM_BIST_FAIL is fenced only; for CLOCK_LOSS the reset of source 8 has acted
      if f.src = 5 then s else whenS (f.src ≠ 3) (strike 3 f.isl) (fence f.isl s)
    else if f.src = 5 ∧ s.sys.jobs.any (fun j => j.wait.contains f.isl) then s
    else setF R.RST_STATUS_DEGRADED 1 (fence f.isl s)
  | _ => deviceFatal f s

/-- SAFE collects one fault. -/
def collect (f : FaultRec) (s : State) : State :=
  if heard s f then react f (if s.flt.openSlot.isSome then mergeFault f s else openRecord f s) else s

/-- FAULT_COLLECT (R453): SAFE takes the faults raised since it last did, at `us`. -/
def collectAll (s : State) : State :=
  let l := sortFaults s s.flt.faults
  modeSync (l.foldl (fun s f => collect f s) { s with flt := { s.flt with faults := [] } })

def execFaultCollect (us : Nat) (s : State) : Host.Outcome State Fault Refusal := ran (collectAll (tickUs us s.begin))

/-- The open record closes. -/
def closeRecord (f : FltRecord → FltRecord) (s : State) : State :=
  let s := modOpen (fun r => f { r with isOpen := false, deadline := none }) s
  { s with flt := { s.flt with openSlot := none } }

/-- A write of FLT_ACK (R457). -/
def writeAck (val : Nat) (s : State) : State :=
  if !bitOf val 31 then s
  else
    match openRec s with
    | some r =>
      if r.seq = val % 256 then closeRecord (fun r => { r with acked := true }) s else raise R.FLT_GEN_EVENT_FLT_ACK_STALE s
    | none => raise R.FLT_GEN_EVENT_FLT_ACK_STALE s

/-- FAULT_ACK (R457, R459). -/
def execFaultAck (req : Requester) (val : Nat) (s : State) : Host.Outcome State Fault Refusal :=
  ran (writeAt req 0x20008 (fun _ s => writeAck val s) s.begin)

/-- The islands that an escalation of record `r` strikes (R458). -/
def escIslands (r : FltRecord) : List Nat := ([r.isl] ++ (List.range 32).filter (bitOf r.recovMask)).eraseDups

/-- SAFE escalates the open record (R458). -/
def escalate (r : FltRecord) (s : State) : State :=
  let s := closeRecord (fun r => { r with escalated := true }) (aliveStop s)
  let s := setF R.FLT_ESC_COUNT (satN 65535 (getF s R.FLT_ESC_COUNT + 1)) (setF R.FLT_ESC_LAST_ISLAND r.isl s)
  modeSync ((escIslands r).foldl (fun s i => strike 3 i s) s)

/-- REACTION_TIMER_EXPIRY (R458): SAFE's count reaches `us`, at which the timer of the open record has expired. -/
def execReactionTimerExpiry (us : Nat) (s : State) : Host.Outcome State Fault Refusal :=
  let s := tickUs us s.begin
  ran (match openRec s with
    | some r =>
      match r.deadline with
      | some d => if svcMode s = 0 ∧ d ≤ us then escalate r s else s
      | none => s
    | none => s)

/-- A write of FLT_CTL: TEST, and a resumption of ALIVE with a full low phase, ignored while a fatal fault is pending. -/
def writeFltCtl (val : Nat) (s : State) : State :=
  let s := modeSync (setF R.FLT_CTL_TEST (bitsOf val 31 1) s)
  if bitOf val 30 then (if s.flt.fatal then raise R.FLT_GEN_EVENT_FLT_ACK_STALE s else aliveStart s) else s

/-- ALIVE_RESUME (R464): a write of FLT_CTL. -/
def execAliveResume (req : Requester) (val : Nat) (s : State) : Host.Outcome State Fault Refusal :=
  ran (writeAt req 0x20004 (fun _ s => writeFltCtl val s) s.begin)

/-- TEST_MODE_WRITE (R452): a write of FLT_CTL. -/
def execTestModeWrite (req : Requester) (val : Nat) (s : State) : Host.Outcome State Fault Refusal :=
  ran (writeAt req 0x20004 (fun _ s => writeFltCtl val s) s.begin)

/-- RECOVERY_END (R452): 1,000 ms after the last island a FAULT_ESC reset took down has been released. -/
def execRecoveryEnd (us : Nat) (s : State) : Host.Outcome State Fault Refusal :=
  let s := tickUs us s.begin
  ran (match s.flt.recoveryFrom with
    | some t =>
      if s.flt.recovery ∧ t + 1000000 ≤ us then { s with flt := { s.flt with recovery := false, recoveryFrom := none } } else s
    | none => s)

end Sys2Proof.Machine
end

