-- ==== Sys2Proof/Machine/LogOps.lean ====
section
/-!
DEFINITION. Sys2Proof/Machine/LogOps.lean: the entries of the ageing log in MRAM and the heads of its rings (spec/18 R485, R486).
-/
namespace Sys2Proof.Machine

/-- First slot and length of a ring. -/
def logBase (long : Bool) : Nat := if long then 704 else 0
def logLen (long : Bool) : Nat := if long then 64 else 704

def logEntry (s : State) (k : Nat) : List Nat := smGet [] s.mon.log k

/-- An entry whose CRC is correct (R486). -/
def logOk (e : List Nat) : Bool := e.length == 16 && e.getD 0 0 ≠ 0 && e.getD 15 0 == crc32 (wordOctets (e.take 15))

/-- The head of a ring: the slot within it whose correct entry has the highest SEQ; none in an empty ring. -/
def logHead (s : State) (long : Bool) : Option Nat :=
  (List.range (logLen long)).foldl (fun h k =>
    let e := logEntry s (logBase long + k)
    if !logOk e then h
    else match h with
      | some j => if (logEntry s (logBase long + j)).getD 0 0 < e.getD 0 0 then some k else h
      | none => some k) none

/-- Corrected reads of all memories. -/
def ceTotal (s : State) : Nat := (List.range 19).foldl (fun a m => a + getF s (eccF R.MON_ECC_CE_COUNT) m) 0

/-- The interval of a ring's next entry begins. -/
def logBegin (long : Bool) (s : State) : State :=
  let acc : LogAcc := { LogAcc.reset with ce := ceTotal s, w := s.ref.wSum, c := s.ref.cycles }
  if long then { s with mon := { s.mon with accL := acc }, ref := { s.ref with steadyL := 1 } }
  else { s with mon := { s.mon with accS := acc, logAt := copyNow s islMCU }, ref := { s.ref with steadyS := 1 } }

/-- The firmware finds the heads at its boot, and begins its intervals (R482, R485). -/
def logBoot (s : State) : State :=
  let s := logBegin true (logBegin false { s with mon := { s.mon with planAt := copyNow s islMCU } })
  setF R.MON_LOG_STAT_VALID 1 (setF R.MON_LOG_STAT_HEAD ((logHead s false).getD 0) (setF R.MON_LOG_STAT_LONG_HEAD ((logHead s true).getD 0) s))

end Sys2Proof.Machine
end

