-- ==== Sys2Proof/Machine/Fwt.lean ====
section
/-!
DEFINITION. Sys2Proof/Machine/Fwt.lean: admission, start and measurement of firmware images (spec/15).
-/
namespace Sys2Proof.Machine

/-! ### Measurement (R433, R434) -/

/-- The octets of a 384-bit value, octet 0 first. -/
def digestOctets (d : Nat) : List Nat := (List.range 48).map fun k => d / 256 ^ k % 256

/-- FWT_MEAS register `m`. -/
def measFld (m : Nat) : Fld := ⟨0x38100 + 0x40 * m, 0, 32, 4⟩

def getMeas (s : State) (m : Nat) : Nat := (List.range 12).foldl (fun a j => a + getF s (measFld m) j * 2 ^ (32 * j)) 0

def setMeas (m d : Nat) (s : State) : State := (List.range 12).foldl (fun s j => setF (measFld m) (d / 2 ^ (32 * j)) s j) s

/-- The count of register `m`. -/
def measCnt (m : Nat) : Fld := ⟨0x38020 + m / 4 * 4, 8 * (m % 4), 8, 0⟩

/-- M := SHA-384(M ‖ D), and its log entry (R433, R434). -/
def extend (m kind d : Nat) (s : State) : State :=
  let s := setMeas m (Config.sha384 (digestOctets (getMeas s m) ++ digestOctets d)).toNat s
  let s := setF (measCnt m) (satN 255 (getF s (measCnt m) + 1)) s
  if s.sys.measLog.length < 64 then { s with sys := { s.sys with measLog := s.sys.measLog ++ [⟨m, kind, copyNow s islMCU, d⟩] } }
  else { s with sys := { s.sys with logTrunc := true } }

/-! ### Images (R418 to R423) -/

/-- The largest code of an image type, the flash address of copy `c`, and the size of a copy and of the staging memory. -/
def imgMax (servo : Bool) : Nat := if servo then 261824 else 1048256
def imgSize (servo : Bool) : Nat := if servo then 262144 else 1048576
def copyAddr (servo : Bool) (c : Nat) : Nat := if servo then 0x300000 + 0x40000 * c else 0x100000 + 0x100000 * c

def imgSigned (l : List Nat) : Bool := bitOf (leAt l 6 2) 0
def imgSigner (l : List Nat) : Nat := bitsOf (leAt l 6 2) 1 1

/-- Check 1 on a header (R419). -/
def imgHeader (servo : Bool) (l : List Nat) : Bool :=
  let len := leAt l 8 4
  let code := leAt l 0x0C 4
  leAt l 0 4 == 0x4B5A4657 && leAt l 4 1 == b2n servo && leAt l 5 1 == 1 && code ≤ imgMax servo && len % 4 == 0
    && len == 128 + code + (if imgSigned l then 192 else 0)

/-- Check 3: the cause of its failure, or 0 (R419, R420). -/
def imgSignature (s : State) (l : List Nat) : Nat :=
  let code := leAt l 0x0C 4
  if imgSigned l then
    let pub := (l.drop (0x80 + code)).take 96
    let sig := (l.drop (0xE0 + code)).take 96
    let owner := (List.range 12).foldl (fun a j => a + s.sys.fuse.getD (38 + j) 0 * 2 ^ (32 * j)) 0
    let key := if imgSigner l = 0 then pub == Config.gysavisKey else ownerKey s && (Config.sha384 pub).toNat == owner
    if key && Config.ecdsaOk pub sig (l.take (0x80 + code)) then 0 else 4
  else if fuseLock s 2 then 5 else 0

/-- The first check of R419 that an image fails; 0 when it passes. -/
def imgCheck (s : State) (servo : Bool) (l : List Nat) : Nat :=
  let hwc := getF s R.FWT_HWC_HWC
  if !imgHeader servo l then 2
  else if (Config.sha384 ((l.drop 0x80).take (leAt l 0x0C 4))).toNat ≠ leAt l 0x20 48 then 3
  else if imgSignature s l ≠ 0 then imgSignature s l
  else if leAt l 0x18 2 ≤ hwc ∧ hwc ≤ leAt l 0x1A 2 then 0
  else 6

/-- Octet `a` of the flash; one that was never written reads 0xFF. -/
def flashOctet (s : State) (a : Nat) : Nat := smGet 0xFF s.hif.flash a

def flashRead (s : State) (a n : Nat) : List Nat := (List.range n).map fun k => flashOctet s (a + k)

/-- Flash copy `c`, where its first 128 bytes pass check 1 (R423). -/
def flashCopy (s : State) (servo : Bool) (c : Nat) : Option (List Nat) :=
  let h := flashRead s (copyAddr servo c) 128
  if flag s R.HIF_QSPI_CFG_PRESENT && imgHeader servo h then some (flashRead s (copyAddr servo c) (leAt h 8 4)) else none

def stageKey (servo : Bool) : Nat := b2n servo

/-- STAGED bits of FWT_STATUS. -/
def stagedShown (s : State) : State :=
  setFlag R.FWT_STATUS_STAGED_MGMT (s.sys.stageOk.contains 0) (setFlag R.FWT_STATUS_STAGED_SERVO (s.sys.stageOk.contains 1) s)

/-- The staged image of a type becomes invalid. -/
def discardStaged (n : Nat) (s : State) : State :=
  stagedShown { s with sys := { s.sys with stageOk := s.sys.stageOk.filter (· ≠ n) } }

/-- Memory 16 holds the management staging first, then the servo staging: the first word of either and its words. -/
def stageBase (servo : Bool) : Nat := if servo then 131072 else 0
def stageWords (servo : Bool) : Nat := imgSize servo / 8

/-- The staged image is read: one that cannot be read is invalid (R438). -/
def stageRead (servo : Bool) (s : State) : State :=
  if s.sys.stageOk.contains (stageKey servo) then
    let (ok, s) := eccReadAll 16 (stageBase servo) (stageWords servo) s
    if ok then s else discardStaged (stageKey servo) s
  else s

/-- An image's code is loaded for its controller, which reads it (memory 17). -/
def loadCode (servo : Bool) (s : State) : State :=
  let w := if servo then 131072 else 0
  (eccReadAll 17 w 131072 (fullWriteAll 17 w 131072 s)).2

/-- The candidates in order, with the SRC code of each (R423). -/
def candidates (s : State) (servo : Bool) : List (Nat × List Nat) :=
  let staged := if s.sys.stageOk.contains (stageKey servo) then [(1, smGet [] s.sys.stage (stageKey servo))] else []
  let copies := match flashCopy s servo 0, flashCopy s servo 1 with
    | some a, some b => if leAt a 0x14 4 < leAt b 0x14 4 then [(3, b), (2, a)] else [(2, a), (3, b)]
    | some a, none => [(2, a)]
    | none, some b => [(3, b)]
    | none, none => []
  staged ++ copies

/-- The choice of R423: the cause, and the image to use or to measure, with its source. -/
def choose (s : State) (servo : Bool) : Nat × Option (Nat × List Nat) :=
  let cs := candidates s servo
  match cs.find? fun c => imgCheck s servo c.2 == 0 with
  | some c => (0, some c)
  | none =>
    match cs.find? fun c => imgCheck s servo c.2 == 6 with
    | some c => (6, some c)
    | none => (match cs.head? with | some c => imgCheck s servo c.2 | none => 1, none)

/-- Fields of FWT_STATUS for an image type. -/
def causeFld (servo : Bool) : Fld := if servo then R.FWT_STATUS_SERVO_CAUSE else R.FWT_STATUS_MGMT_CAUSE
def srcFld (servo : Bool) : Fld := if servo then R.FWT_STATUS_SERVO_SRC else R.FWT_STATUS_MGMT_SRC
def sigFld (servo : Bool) : Fld := if servo then R.FWT_STATUS_SERVO_SIG else R.FWT_STATUS_MGMT_SIG
def verFld (servo : Bool) : Fld := if servo then R.FWT_SERVO_VER_VERSION else R.FWT_MGMT_VER_VERSION
def sifFld (servo : Bool) : Fld := if servo then R.FWT_SIF_SERVO else R.FWT_SIF_MGMT

/-- An image is measured (R425): its header and code, its version, its interface, its source and its signer. -/
def measureImage (servo : Bool) (kind : Nat) (c : Nat × List Nat) (s : State) : State :=
  let l := c.2
  let s := extend (if servo then 3 else 2) kind (Config.sha384 (l.take (0x80 + leAt l 0x0C 4))).toNat s
  let s := setF (verFld servo) (leAt l 0x10 4) (setF (sifFld servo) (leAt l 0x1C 1 * 256 + leAt l 0x1D 1) s)
  setF (sigFld servo) (if imgSigned l then 1 + imgSigner l else 0) (setF (srcFld servo) c.1 s)

/-- Steps 3 and 4 of R425 for an image type; `late`: it missed its instant (R426). `sif` is the interface of the management image that
a servo image must fit (R428), none where no management image starts. -/
def takeImage (servo late : Bool) (sif : Option Nat) (s : State) : State :=
  let s := setF (srcFld servo) 0 (setF (sigFld servo) 0 s)
  if late then setF (causeFld servo) 9 s
  else
    let s := stageRead servo s
    let (cause, img) := choose s servo
    let s := whenS (cause == 0 && (match img, (candidates s servo).head? with | some c, some d => c.1 ≠ d.1 | _, _ => false))
      (fun s => raise R.FWT_EVENT_FW_COPY_FALLBACK s) s
    let s := whenS ([3, 4].contains cause || cause == 2) (setF (sigFld servo) 3) s
    let fits := match img, sif with
      | some c, some m => leAt c.2 0x1C 1 == m / 256 && decide (m % 256 ≤ leAt c.2 0x1D 1)
      | _, _ => true
    let cause := if servo && cause = 0 && !fits then 7 else cause
    let started := cause = 0 && (!servo || sif.isSome)
    let s := match img with | some c => measureImage servo (if started then 2 else 3) c s | none => s
    setF (causeFld servo) cause s

/-- Step 5 of R425: the outcome of R429. -/
def outcome (s : State) : State :=
  let s := whenS (getF s R.FWT_STATUS_MGMT_CAUSE ≠ 0)
    (fun s => raise R.FWT_EVENT_FW_LIMP (setF R.FWT_STATUS_SERVO_CAUSE 8 s)) s
  whenS (getF s R.FWT_STATUS_SERVO_CAUSE ≠ 0) (fun s => raise R.FWT_EVENT_SERVO_NOT_STARTED s) s

/-- Steps 6 and 7 of R425: the profile that was applied is measured, then the images or the limp service start. -/
def bootFinish (applied : List Nat) (s : State) : State :=
  let s := extend 4 4 (Config.sha384 applied).toNat s
  let servo := getF s R.FWT_STATUS_SERVO_CAUSE == 0
  let s := whenS servo (loadCode true) (setFlag R.FWT_STATUS_SERVO_RUN servo s)
  let ok := getF s R.FWT_STATUS_MGMT_CAUSE == 0
  let s := whenS ok (loadCode false) s
  let s := whenS ok logBoot (setFlag R.FWT_STATUS_MGMT_RUN ok (setFlag R.FWT_STATUS_LIMP (!ok) s))
  let s := setF R.HIF_GSTAT_MCU_READY 1 (setF R.FWT_STATUS_BOOT_DONE 1 s)
  readyCheck { s with sys := { s.sys with boot := 2 } }

/-- Step 1 of R425: every register of FWT is set again; the digests of the ROM and of the shadows are measured. -/
def bootStep1 (s : State) : State :=
  let s := { s with regs := smKeep (fun k => !(0x38000 ≤ k / 32 % 0x100000 && k / 32 % 0x100000 < 0x40000)) s.regs
                    sys := { s.sys with measLog := [], logTrunc := false, wdog := [] } }
  let s := stagedShown (fuseShown s)
  extend 1 1 (Config.sha384 (wordOctets (s.sys.fuse.take 36 ++ s.sys.trim))).toNat (extend 0 0 Config.romDigest.toNat s)

/-- BOOT_ROM_START (R425), at `us`: steps 1 to 5, with what the SFDP of the flash says (4-byte addresses, READ_MODE, SIZE_LOG2); after a
reset that applies no profile, steps 6 and 7 too. -/
def execBootRomStart (flash : Option (Bool × Nat × Nat)) (us : Nat) (s : State) : Host.Outcome State Fault Refusal :=
  let s := tickUs us s.begin
  ran (if islUp s islMCU && s.sys.boot == 0 then
    let s := bootStep1 s
    let s := match flash with
      | some (a4, m, z) => setF R.HIF_QSPI_CFG_PRESENT 1 (setFlag R.HIF_QSPI_CFG_ADDR4 a4 (setF R.HIF_QSPI_CFG_READ_MODE m (setF R.HIF_QSPI_CFG_SIZE_LOG2 z s)))
      | none => setF R.HIF_QSPI_CFG_PRESENT 0 s
    let s := takeImage false (s.sys.late.contains 0) none s
    let sif := if getF s R.FWT_STATUS_MGMT_CAUSE = 0 then some (getF s R.FWT_SIF_MGMT) else none
    let s := outcome (takeImage true (s.sys.late.contains 1) sif s)
    let s := { s with sys := { s.sys with boot := 1 } }
    if s.sys.profDone then bootFinish [] s else s
  else s)

/-- At `us` the latest instant of firmware step `step` has passed: after a COLD reset those of R425; the other resets, MCU's own UNIT
reset among them, have none of their own. -/
def fwStepDue (step us : Nat) (s : State) : Bool :=
  s.sys.level ≠ 0 || s.sys.profDone || decide (s.sys.began + (if step = 3 then 120000 else if step = 4 then 160000 else 250000) ≤ us)

/-- FW_STEP_LATE (R426): at `us` step 3, 4 or 7 has missed its instant; the image is not started. -/
def execFwStepLate (at_ : FwStep) (s : State) : Host.Outcome State Fault Refusal :=
  let step := at_.step
  let s := tickUs at_.us s.begin
  let note (n : Nat) (s : State) : State :=
    raise R.RST_EVENT_STEP_LATE { s with sys := { s.sys with late := if s.sys.late.contains n then s.sys.late else s.sys.late ++ [n] } } islMCU
  ran (if !islUp s islMCU || !fwStepDue step at_.us s then s
    else if step = 3 ∧ s.sys.boot = 0 then note 0 s
    else if step = 4 ∧ s.sys.boot = 0 then note 1 s
    else if step = 7 ∧ s.sys.boot = 1 then
      bootFinish (if flag s R.RST_STATUS_PROFILE_APPLIED then s.sys.prof else [])
        (outcome (setF R.FWT_STATUS_MGMT_CAUSE 9 (setF R.FWT_STATUS_MGMT_SRC 0 (note 0 s))))
    else s)

/-! ### FWT_CTL (R422, R431) -/

/-- SERVO_RESTART while the management firmware runs (R431). -/
def servoRestart (s : State) : State :=
  if flag s R.FWT_STATUS_MGMT_RUN then
    let s := takeImage true false (some (getF s R.FWT_SIF_MGMT)) (setF R.FWT_STATUS_SERVO_RUN 0 s)
    if getF s R.FWT_STATUS_SERVO_CAUSE = 0 then loadCode true (setF R.FWT_STATUS_SERVO_RUN 1 s) else raise R.FWT_EVENT_SERVO_NOT_STARTED s
  else s

/-- A write of FWT_CTL. -/
def writeFwtCtl (val : Nat) (s : State) : State :=
  let s := whenS (bitOf val 30) (discardStaged 0) s
  let s := whenS (bitOf val 29) (discardStaged 1) s
  whenS (bitOf val 31) servoRestart s

/-- SERVO_RESTART (R431): a write of FWT_CTL. -/
def execServoRestart (req : Requester) (val : Nat) (s : State) : Host.Outcome State Fault Refusal :=
  ran (writeAt req 0x3800C (fun _ s => writeFwtCtl val s) s.begin)

/-- DISCARD_MGMT (R422): a write of FWT_CTL. -/
def execDiscardMgmt (req : Requester) (val : Nat) (s : State) : Host.Outcome State Fault Refusal :=
  ran (writeAt req 0x3800C (fun _ s => writeFwtCtl val s) s.begin)

/-- DISCARD_SERVO (R422): a write of FWT_CTL. -/
def execDiscardServo (req : Requester) (val : Nat) (s : State) : Host.Outcome State Fault Refusal :=
  ran (writeAt req 0x3800C (fun _ s => writeFwtCtl val s) s.begin)

/-! ### Watchdogs (R432) -/

def wdArmed (servo : Bool) : Fld := if servo then R.FWT_WDOG_SERVO_ARMED else R.FWT_WDOG_MGMT_ARMED
def wdTmo (servo : Bool) : Fld := if servo then R.FWT_WDOG_SERVO_TMO_MS else R.FWT_WDOG_MGMT_TMO_MS

/-- WATCHDOG_FEED (R432), at `us`: with a limit `tmo` in ms the watchdog is armed, with 0 it is fed. -/
def execWatchdogFeed (servo : Bool) (tmo us : Nat) (s : State) : Host.Outcome State Fault Refusal :=
  let s := tickUs us s.begin
  ran (if flag s R.FWT_STATUS_MGMT_RUN && islUp s islMCU then
    let s := if tmo = 0 then s else setF (wdTmo servo) tmo (setF (wdArmed servo) 1 s)
    if flag s (wdArmed servo) then
      { s with sys := { s.sys with wdog := smPut 0 s.sys.wdog (b2n servo) (us + getF s (wdTmo servo) * 1000) } }
    else s
  else s)

/-- The watchdog is armed and its limit is over at `us`. -/
def wdDue (s : State) (servo : Bool) (us : Nat) : Bool :=
  islUp s islMCU && flag s (wdArmed servo) && decide (smGet 0 s.sys.wdog (b2n servo) ≤ us)

/-- MGMT_WATCHDOG_EXPIRY (R432): source 2 strikes. -/
def execMgmtWatchdogExpiry (us : Nat) (s : State) : Host.Outcome State Fault Refusal :=
  let s := tickUs us s.begin
  ran (if wdDue s false us then strike 2 0 s else s)

/-- SERVO_WDOG (R432): the servo controller stops. -/
def execServoWdog (us : Nat) (s : State) : Host.Outcome State Fault Refusal :=
  let s := tickUs us s.begin
  ran (if wdDue s true us && flag s R.FWT_STATUS_SERVO_RUN then
    raise R.FWT_EVENT_SERVO_WDOG (setF R.FWT_STATUS_SERVO_RUN 0 (setF R.FWT_STATUS_SERVO_CAUSE 10 s))
  else s)

/-! ### Other measurements and SPDM -/

/-- DEBUG_ATTACH (R432, R433): the digest of an attach is a free value. -/
def execDebugAttach (s : State) : Host.Outcome State Fault Refusal :=
  let s := s.begin
  ran (if islUp s islMCU && !fuseLock s 1 then
    let (d, s) := drawInt s
    extend 5 5 (toU 384 d) s
  else s)

/-- FW_MEASUREMENT_POST (R433): MEAS6 or MEAS7. -/
def execFwMeasurementPost (m digest : Nat) (s : State) : Host.Outcome State Fault Refusal :=
  let s := s.begin
  ran (if islUp s islMCU && flag s R.FWT_STATUS_MGMT_RUN && (m == 6 || m == 7) then extend m 6 (digest % 2 ^ 384) s else s)

/-- What an SPDM request carries back: measurement digests in the order of their index, the chain or its digest (R433, R437). -/
def spdmData (q : SpdmReq) (s : State) : List Nat :=
  match q with
  | .getMeasurements k => if k = 255 then (List.range 8).map (getMeas s) else if 1 ≤ k ∧ k ≤ 8 then [getMeas s (k - 1)] else []
  | .getCertificate => s.sys.cert
  | .getDigests => [(Config.sha384 s.sys.cert).toNat]
  | _ => []

/-- SPDM_REQUEST (R437). -/
def execSpdmRequest (q : SpdmReq) (s : State) : Host.Outcome State Fault Refusal :=
  let s := s.begin
  ran (if !islUp s islHOST then s
    else if !(islUp s islMCU && (flag s R.FWT_STATUS_MGMT_RUN || flag s R.FWT_STATUS_LIMP)) then emit (.spdm q 0 []) s
    else match q with
      | .other _ => emit (.spdm q 1 []) s
      | _ => emit (.spdm q 2 (spdmData q s)) s)

end Sys2Proof.Machine
end

