-- ==== Sys2Proof/Machine/Hif.lean ====
section
/-!
DEFINITION. Sys2Proof/Machine/Hif.lean: descriptor rings, frames for the host, event records, vectors, and the PCIe events (spec/13).
-/
namespace Sys2Proof.Machine

/-! ### Rings (R358 to R362) -/

/-- A ring's kind is one that works. -/
def kindWorks (k : Nat) : Bool := 1 ≤ k && k ≤ 5

/-- A doorbell of ring `r` (R361, R362). -/
def doorbell (r h : Nat) (s : State) : State :=
  let x := ring s r
  match ringState s r with
  | 4 => s
  | 1 => if doorbellOk s r h then ringFull r (setRing r { x with host := h, prev := h } s) else ringError r 1 s
  | 2 => if doorbellOk s r h then ringFull r (setRing r { x with host := h, prev := h } s) else ringError r 1 s
  | _ => setRing r { x with host := h } s

/-- A write of HIF_RING_CFG, _BASE or _WB of ring `r` (R358, R12): taken in OFF and STOPPED, in force from START. -/
def writeRingCfg (off val r : Nat) (s : State) : State :=
  if ringState s r = 0 ∨ ringState s r = 3 then
    { s with hif := { s.hif with cfgs := smPut none s.hif.cfgs (32 * r + (off - 0x30100) / 4) (some val) } }
  else raise R.HIF_EVENT_RING_CFG_BUSY s r

/-- The words of ring `r` that wait for START come into force. -/
def ringTake (r : Nat) (s : State) : State :=
  (List.range 5).foldl (fun s k =>
    match smGet none s.hif.cfgs (32 * r + k) with
    | some v => softWord (0x30100 + 4 * k) v { s with hif := { s.hif with cfgs := smPut none s.hif.cfgs (32 * r + k) none } } r
    | none => s) s

/-- START (R362): from OFF or STOPPED; what was written takes effect, and the held host index is tested. -/
def ringStart (r : Nat) (s : State) : State :=
  if ringState s r = 0 ∨ ringState s r = 3 then
    let s := ringTake r s
    if !kindWorks (ringKind s r) then setRingState r 0 s
    else
      let s := if ringState s r = 0 then setF R.HIF_RING_STAT_DEV_INDEX 0 s r else s
      let h := (ring s r).host
      if doorbellOk s r h then ringFull r (setRing r { ring s r with prev := h } (setRingState r 1 s)) else ringError r 1 s
  else s

def ringStop (r : Nat) (s : State) : State := if ringState s r = 1 then setRingState r 2 s else s

/-- RESET (R362): from STOPPED or ERROR. -/
def ringReset (r : Nat) (s : State) : State :=
  if ringState s r = 3 ∨ ringState s r = 4 then
    setRing r { ring s r with host := 0, prev := 0, fullSince := none, stalled := false }
      (setF R.HIF_RING_STAT_ERR_CAUSE 0 (setF R.HIF_RING_STAT_DEV_INDEX 0 (setRingState r 0 s) r) r)
  else s

/-- A write of HIF_RING_CTL: RESET, then STOP, then START. -/
def writeRingCtl (val r : Nat) (s : State) : State :=
  whenS (bitOf val 31) (ringStart r) (whenS (bitOf val 30) (ringStop r) (whenS (bitOf val 29) (ringReset r) s))

/-- RING_START (R362): a write of HIF_RING_CTL. -/
def execRingStart (req : Requester) (val : Nat) (s : State) : Host.Outcome State Fault Refusal :=
  ran (writeAt req 0x30114 (writeRingCtl val) s.begin)

/-- RING_STOP (R362): a write of HIF_RING_CTL. -/
def execRingStop (req : Requester) (val : Nat) (s : State) : Host.Outcome State Fault Refusal :=
  ran (writeAt req 0x30114 (writeRingCtl val) s.begin)

/-- RING_RESET (R362): a write of HIF_RING_CTL. -/
def execRingReset (req : Requester) (val : Nat) (s : State) : Host.Outcome State Fault Refusal :=
  ran (writeAt req 0x30114 (writeRingCtl val) s.begin)

/-- A TX ring has a frame in flight whose copies are not decided. -/
def txInFlight (s : State) (r : Nat) : Bool :=
  (frames s).any fun x => !x.2.admitted && (match x.2.host with | some h => h.1 == r | none => false)

/-- RING_STOPPED (R362): no slot of the ring is in progress any more. -/
def execRingStopped (r : Nat) (s : State) : Host.Outcome State Fault Refusal :=
  let s := s.begin
  ran (if hostUp s && r < 32 && !ringRuns s r && !txInFlight s r && !s.hif.txDone.any (·.1 == r) then ringStopped r s else s)

/-! ### The adit and the vectors (R360, R380, R381) -/

/-- The vectors of word `a` of HIF_VEC_ARM are re-armed. -/
def armWord (a val : Nat) (s : State) : State :=
  (List.range 32).foldl (fun s b => if bitOf val b then rearmVector (32 * a + b) s else s) s

/-- A write of `size` octets at offset `addr` of BAR2 (R357, R360). -/
def aditWrite (addr size val : Nat) (s : State) : State :=
  let r := addr / 128 % 32
  if !hostUp s then s
  else if size ≠ 4 ∨ addr % 4 ≠ 0 then raise R.HIF_EVENT_ADIT_INVALID s r
  else match addr % 128 with
    | 0 => doorbell r (val % 65536) s
    | 4 => rearmVector (getF s R.HIF_RING_CFG_VECTOR r) s
    | 8 => s
    | _ => raise R.HIF_EVENT_ADIT_INVALID s r

/-- RING_DOORBELL (R361): a write of the adit. -/
def execRingDoorbell (addr size val : Nat) (s : State) : Host.Outcome State Fault Refusal := ran (aditWrite addr size val s.begin)

/-- VECTOR_REARM (R381): the ARM word of ring `a` in the adit, or word `a` of HIF_VEC_ARM. -/
def execVectorRearm (req : Requester) (adit : Bool) (a val : Nat) (s : State) : Host.Outcome State Fault Refusal :=
  ran (if adit then aditWrite (128 * (a % 32) + 4) 4 val s.begin
    else writeAt req (0x30020 + 4 * (a % 2)) (fun _ s => armWord (a % 2) val s) s.begin)

/-- IRQ_MODERATION_TIMER (R380): TIME_US has passed since the first write that counts. -/
def execIrqModerationTimer (r : Nat) (s : State) : Host.Outcome State Fault Refusal :=
  let s := s.begin
  let us := getF s R.HIF_RING_IRQ_TIME_US r
  ran (match (ring s r).since with
    | some t => if hostUp s && us ≠ 0 && decide (t + us * unitUs ≤ copyNow s islHOST) then fireVector (getF s R.HIF_RING_CFG_VECTOR r) s else s
    | none => s)

/-- MSIX_UNMASK (R380): a message whose pending bit is set is sent. -/
def execMsixUnmask (v : Nat) (s : State) : Host.Outcome State Fault Refusal :=
  let s := s.begin
  let h := s.hif
  ran (if hostUp s && v < 64 && !h.unmasked.contains v then
    let due := h.masked.contains v
    let s := { s with hif := { h with unmasked := h.unmasked ++ [v], masked := h.masked.filter (· ≠ v) } }
    if due then emit (.msi v) s else s
  else s)

/-! ### The host packet path (R365, R366, R378, R379) -/

/-- A frame without FCS as it enters PIPE0 on port 64 or 65: padded to 60 octets, the FCS appended. -/
def sentFrame (l : List Nat) : List Nat :=
  let l := l.map (· % 256)
  let l := l ++ List.replicate (60 - l.length) 0
  l ++ fcsOf (crc32 l)

/-- The status of a TX descriptor that sends no frame, or 0 (R364, R365, R6). -/
def txStatus (s : State) (d : TxDesc) : Nat :=
  if d.len = 0 ∨ d.len > 16379 then 4
  else match d.directed with
    | some (p, _) => if p ≥ 64 then 3 else if frontPresent s p then 0 else 1
    | none => 0

/-- TX ring `r` can send its next frame: it is RUNNING, has a descriptor, and its frame before this one is decided. -/
def txReady (s : State) (r : Nat) : Bool :=
  slotReady s r 2 && ringState s r == 1 && !txInFlight s r && !s.hif.txDone.any (·.1 == r)

/-- The TX ring whose turn it is: round robin over those that can send (R378). -/
def txNext (s : State) : Option Nat := ((List.range 32).map fun k => (s.hif.txTurn + k) % 32).find? (txReady s)

/-- TX_FRAME_FETCH (R378): the next descriptor of TX ring `r`, in its turn. -/
def execTxFrameFetch (r : Nat) (d : TxDesc) (s : State) : Host.Outcome State Fault Refusal :=
  let s := s.begin
  ran (if txNext s == some r && !jtagHolds s then
    throughRing r (fun s =>
    let s := { s with hif := { s.hif with txTurn := (r + 1) % 32 } }
    let st := txStatus s d
    if st ≠ 0 then completeSlot r [0, 0, 0] (st * 65536 + d.tag % 65536) [] true s
    else
      let octets := sentFrame (d.octets.take d.len)
      addFrame { newFrame s 64 octets none with ended := true, host := some (r, d.tag % 65536, true)
                                                directed := d.directed.map fun x => (x.1, x.2 % 8) } s) s
  else s)

/-- P65_FRAME_SEND (R30): the management firmware sends a frame. -/
def execP65FrameSend (octets : List Nat) (s : State) : Host.Outcome State Fault Refusal :=
  let s := s.begin
  ran (if islUp s islMCU && flag s R.FWT_STATUS_MGMT_RUN && !octets.isEmpty && octets.length ≤ 16379 && !jtagHolds s then
    addFrame { newFrame s 65 (sentFrame octets) none with ended := true } s
  else s)

/-- The words +0x00 to +0x1B of an RX slot (R366), and the octets delivered. -/
def rxSlot (w : RxWait) (bufLen : Nat) : List Nat × List Nat :=
  let x := w.frame
  let body := x.octets.take (x.octets.length - 4)
  let out := body.take bufLen
  let trunc := decide (body.length > bufLen)
  let rec_ := match x.rx with | some r => r.words | none => [0, 0, 0, 0]
  let ctx := x.ing.bind (·.ctx)
  let vid := match x.ing with | some g => g.vid | none => 0
  (rec_ ++ [out.length + x.port * 2 ^ 14 + w.tc * 2 ^ 21 + x.reason % 256 * 2 ^ 24,
            vid % 4096 + b2n trunc * 2 ^ 12 + b2n ctx.isSome * 2 ^ 13 + x.cause % 4 * 2 ^ 14 + ctx.getD 0 % 16384 * 2 ^ 16,
            x.rule.getD 0 % 2048 + b2n x.rule.isSome * 2 ^ 11], out)

/-- BUF_LEN of a posted slot is one that R366 allows. -/
def bufLenOk (n : Nat) : Bool := n % 64 == 0 && 64 ≤ n && n ≤ 16384

/-- RX_FRAME_DELIVER (R366): the oldest frame that waits for RX ring `r`, into a buffer of `bufLen` octets. -/
def execRxFrameDeliver (r bufLen : Nat) (s : State) : Host.Outcome State Fault Refusal :=
  let s := s.begin
  let mine (w : RxWait) : Bool := rxRing s w.tc == r
  ran (match s.hif.rxq.find? mine with
    | some w =>
      if !slotReady s r 3 then s
      else if !bufLenOk bufLen then ringError r 3 s
      else
        let (ws, out) := rxSlot w bufLen
        throughRing r (fun s => completeSlot r ws 0 out true { s with hif := { s.hif with rxq := s.hif.rxq.eraseP mine } }) s
    | none => s)

/-- RX_STALL (R372): the ring has had no free slot for TMO_MS. -/
def execRxStall (r : Nat) (s : State) : Host.Outcome State Fault Refusal :=
  let s := s.begin
  let x := ring s r
  let tmo : Int := zeroAs 1 (getF s R.HIF_RING_TMO_TMO_MS r)
  ran (match x.fullSince with
    | some t =>
      if hostUp s && ringKind s r == 3 && ringState s r == 1 && !x.stalled && decide (t + tmo * unitMs ≤ copyNow s islHOST) then
        raise R.HIF_RING_EVENT_RX_STALL (setRing r { x with stalled := true } s) r
      else s
    | none => s)

/-! ### Event records (R367, R465) -/

/-- The words of an EVENT record (R367), with OVF. -/
def eventWords (s : State) (e : EventRec) (ovf : Bool) : List Nat :=
  let t := T96.ofUnits e.time
  [t.word 0, t.word 1, t.word 2, e.src % 512 + srcClass s e.src * 2 ^ 12 + b2n ovf * 2 ^ 14 + e.inst % 65536 * 2 ^ 16, e.detail % 2 ^ 32, 0, 0]

/-- EVENT_RECORD_WRITE (R367, R465, R380): HOST takes the oldest transition of an event bit: its record, where its source logs, and
its vector. -/
def execEventRecordWrite (s : State) : Host.Outcome State Fault Refusal :=
  let s := s.begin
  ran (match s.flt.events with
    | e :: l =>
      let s := { s with flt := { s.flt with events := l } }
      if !hostUp s then s
      else
        let lost (s : State) : State := raise R.HIF_EVENT_EVT_RING_OVF s (getF s R.HIF_GCFG_EVT_RING)
        let s := whenS e.log (ringRecord (flag s R.HIF_GCFG_EVT_RING_ENA) (getF s R.HIF_GCFG_EVT_RING) 4 (eventWords s e) (fun _ => 0) lost) s
        eventVector e.src s
    | [] => s)

/-! ### PCIe and DMA (R355, R373, R390) -/

/-- DMA_ERROR (R373): a read of ring `r` failed with PCIe completion status `status`. -/
def execDmaError (r status : Nat) (s : State) : Host.Outcome State Fault Refusal :=
  let s := s.begin
  ran (if r < 32 && dmaOk s && (ringState s r == 1 || ringState s r == 2) then
    dmaFail r status s
  else s)

/-- BUS_MASTER_ENABLE (R373). -/
def execBusMasterEnable (on : Bool) (s : State) : Host.Outcome State Fault Refusal :=
  let s := s.begin
  ran (if hostUp s then
    let s := setFlag R.HIF_GSTAT_BME on s
    if on then s.hif.txDone.foldl (fun s d => txComplete d s) { s with hif := { s.hif with txDone := [] } } else s
  else s)

/-- PCIE_LINK_UP (R355). -/
def execPcieLinkUp (speed width : Nat) (s : State) : Host.Outcome State Fault Refusal :=
  let s := s.begin
  ran (if hostUp s && 1 ≤ speed && speed ≤ 4 && [1, 2, 4].contains width then
    setF R.HIF_GSTAT_LINK_SPEED speed (setF R.HIF_GSTAT_LINK_WIDTH width { s with hif := { s.hif with linkUp := true } })
  else s)

/-- PCIE_HOT (R390). -/
def execPcieHot (s : State) : Host.Outcome State Fault Refusal :=
  let s := s.begin
  ran (if s.hif.linkUp then strike 5 islHOST s else s)

/-- PCIE_LINKDOWN (R390): the link goes down after link-up. -/
def execPcieLinkdown (s : State) : Host.Outcome State Fault Refusal :=
  let s := s.begin
  ran (if s.hif.linkUp then
    let s := { s with hif := { s.hif with linkUp := false } }
    strike 6 islHOST (setF R.HIF_GSTAT_LINK_SPEED 0 (setF R.HIF_GSTAT_LINK_WIDTH 0 (setF R.HIF_GSTAT_BME 0 s)))
  else s)

/-- PCIE_D3 (R390). -/
def execPcieD3 (s : State) : Host.Outcome State Fault Refusal :=
  let s := s.begin
  ran (if s.hif.linkUp then strike 7 islHOST s else s)

/-! ### JTAG (R508) -/

/-- The IDCODE of the stepping. -/
def idcode (s : State) : Nat :=
  let st := if flag s R.GLB_CAP_VALID then getF s R.GLB_ID_STEPPING else Config.maskStepping
  if st = 0xA0 then 0x132640D5 else 0x232640D5

/-- JTAG_INSTRUCTION (R508): a debug instruction acts as BYPASS under JTAG_LOCK. -/
def execJtagInstruction (i : Jtag) (s : State) : Host.Outcome State Fault Refusal :=
  let s := s.begin
  let i := match i with | .debug c => if fuseLock s 1 then .bypass else .debug c | j => j
  let s := { s with sys := { s.sys with jtag := i } }
  ran (if i = .idcode then emit (.idcode (idcode s)) s else s)

end Sys2Proof.Machine
end

