-- ==== Sys2Proof/Machine/Red.lean ====
section
/-!
DEFINITION. Sys2Proof/Machine/Red.lean: the commands and events of redundant paths (spec/12).
-/
namespace Sys2Proof.Machine

/-- An arrival of a frame of function `n` on input `p` (R346). -/
def pathArrival (n p : Nat) (s : State) : State :=
  (List.range 4).foldl (fun s i =>
    if pathEna s n i && pathPort s n i == p then
      let x := fn s n
      pathCheck n i (bump (R.RED_FN_CNT_PATH_COUNT.on (4 * i)) (setFn n { x with arrivals := x.arrivals.set i (some (copyNow s islRED)) } s) n)
    else s) s

/-- RED's decision for frame `f` (R336 to R341). -/
def redDescriptor (f : Nat) (s : State) : State :=
  match frameAt s f with
  | none => s
  | some x =>
    let w := ctx12 x
    let n := cRecFn w
    let seq := (parse (x.octets.take 128)).rtag
    if !(x.admitted && x.frer == .waiting) then s
    else if !flag s R.RED_GCFG_ENA then redPass f false s
    else if cSeqRec w then
      let s := pathArrival n x.port s
      if !flag s R.RED_FN_CFG_ENA n then redPass f true s
      else
        match seq with
        | some q => fnFrame n f q (fnRead n s)
        | none =>
          let s := bump R.RED_FN_CNT_TAGLESS_COUNT s n
          if flag s R.RED_FN_CFG_TAKE_NO_SEQ n then redPass f true s else redRogue n f s
    else if cSeqGen w && !cRtagPop w && seq.isSome then redRogue (cGenFn w) f s
    else redPass f true s

/-- The crossings of frame `f`'s descriptor and of RED's decision are up (R23, R24). -/
def descCross (f : Nat) (s : State) : Bool :=
  match frameAt s f with
  | some x => crossUp s (if x.port < 64 then islPIPE (x.port / 16) else islPIPE 0) islRED && crossUp s islRED islBUF
  | none => false

/-- FRER_DESCRIPTOR (R341). -/
def execFrerDescriptor (f : Nat) (s : State) : Host.Outcome State Fault Refusal :=
  let s := s.begin
  ran (if redUp s && islUp s islBUF && descCross f s then redDescriptor f s else s)

/-- RESEQ_TIMEOUT (R342). -/
def execReseqTimeout (n : Nat) (s : State) : Host.Outcome State Fault Refusal :=
  let s := s.begin
  ran (if redUp s then fnTimeout n 32 (whenS (!(fn s n).held.isEmpty) (fnRead n) s) else s)

/-- RESET_MS has passed since function `n` last passed or held a frame (R344). -/
def fnIdle (s : State) (n : Nat) : Bool :=
  decide (copyNow s islRED - (fn s n).lastAct ≥ (zeroAs 1 (getF s R.RED_FN_TIMERS_RESET_MS n) : Int) * unitMs)

/-- TAKE_ANY (R344). -/
def execTakeAny (n : Nat) (s : State) : Host.Outcome State Fault Refusal :=
  let s := s.begin
  ran (if redUp s && flag s R.RED_FN_CFG_ENA n && !(fn s n).takeAny && fnIdle s n then
    redEvent R.RED_FN_EVENT_TAKE_ANY R.RED_EVENT_TAKE_ANY n (fnReset n s)
  else s)

/-- FRER_FUNCTION_RESET (R344): a write of RED_FN_CTL. -/
def execFrerFunctionReset (req : Requester) (val : Nat) (s : State) : Host.Outcome State Fault Refusal :=
  ran (writeAt req 0xE0114 (fun n s => whenS (bitOf val 31) (fnResetWrite n) s) s.begin)

/-- A write of RED_FN_CFG (R344, R348): MODE 0b10 is refused without a resequencer. -/
def writeFnCfg (n val : Nat) (s : State) : State :=
  let was := getF s R.RED_FN_CFG_MODE n
  let refused := bitsOf val 29 2 == 2 && !hasReseq s
  let mode := if refused then was else bitsOf val 29 2
  let s := whenS refused (fun s => raise R.FLT_GEN_EVENT_GRADE_ABSENT_WRITE s) s
  let clears := flag s R.RED_FN_CFG_ENA n && !bitOf val 31
  let s := if mode ≠ was ∨ clears then fnReset n s else s
  let late := flag s R.RED_FN_CFG_LATENT_ENA n
  let s := setF R.RED_FN_CFG_ENA (bitsOf val 31 1) (setF R.RED_FN_CFG_MODE mode s n) n
  let s := setF R.RED_FN_CFG_TAKE_NO_SEQ (bitsOf val 28 1) (setF R.RED_FN_CFG_LATE_ACT (bitsOf val 27 1) s n) n
  let s := setF R.RED_FN_CFG_LATENT_ENA (bitsOf val 26 1) (setF R.RED_FN_CFG_HISTORY (bitsOf val 0 6) s n) n
  if bitOf val 26 && !late then setFn n { fn s n with passed := 0, disc := 0, period := copyNow s islRED } s else s

/-- FRER_CFG_WRITE (R344): a write of RED_FN_CFG. -/
def execFrerCfgWrite (req : Requester) (val : Nat) (s : State) : Host.Outcome State Fault Refusal :=
  ran (writeAt req 0xE0100 (fun n s => writeFnCfg n val s) s.begin)

/-- The end of the latent error period under way. -/
def latentEnd (s : State) (n : Nat) : Int := (fn s n).period + (zeroAs 1 (getF s R.RED_FN_LATENT_PERIOD_MS n) : Int) * unitMs

/-- LATENT_ERROR (R345): a period ends. -/
def execLatentError (n : Nat) (s : State) : Host.Outcome State Fault Refusal :=
  let s := s.begin
  ran (if redUp s && flag s R.RED_FN_CFG_LATENT_ENA n && decide (latentEnd s n ≤ copyNow s islRED) then
    let x := fn s n
    let p := ((List.range 4).filter fun i => pathEna s n i).length
    let bad := decide ((((p : Int) - 1) * x.passed - x.disc).natAbs > getF s R.RED_FN_LATENT_THRESH n)
    whenS bad (redEvent R.RED_FN_EVENT_LATENT_ERROR R.RED_EVENT_LATENT_ERROR n)
      (setFn n { x with passed := 0, disc := 0, period := latentEnd s n } s)
  else s)

/-- PATH_DOWN (R346): path `i` of function `n` times out. -/
def execPathDown (n i : Nat) (s : State) : Host.Outcome State Fault Refusal :=
  let s := s.begin
  ran (if redUp s && decide (i < 4) then pathCheck n i s else s)

end Sys2Proof.Machine
end

