-- ==== Sys2Proof/Machine/HifCmd.lean ====
section
/-!
DEFINITION. Sys2Proof/Machine/HifCmd.lean: the commands of the CMD rings (spec/13 R374 to R377, spec/14 R411, spec/15 R422, R436).
A command that its ring cannot take now (not a RUNNING or STOPPING CMD ring, no descriptor posted, no DMA, the command before it still
running) leaves the block as it is.
-/
namespace Sys2Proof.Machine

/-- Ring `r` takes its next command now (R369). -/
def cmdReady (s : State) (r : Nat) : Bool := slotReady s r 1 && !ringRuns s r

/-- HOST reaches island `i`: it works, and so does the register crossing to it (R23, R24). -/
def hostReaches (s : State) (i : Nat) : Bool := islUp s i && crossUp s islHOST i

/-- Status codes of R364. -/
def csOK : Nat := 0x00
def csUNSUPPORTED : Nat := 0x01
def csBAD_OPCODE : Nat := 0x02
def csBAD_PARAM : Nat := 0x03
def csBAD_LENGTH : Nat := 0x04
def csTIMEOUT : Nat := 0x06
def csTABLE_FULL : Nat := 0x07
def csINDEX_FULL : Nat := 0x08
def csEXISTS : Nat := 0x09
def csNOT_FOUND : Nat := 0x0A
def csBUSY : Nat := 0x0B
def csDENIED : Nat := 0x0C
def csNOT_READY : Nat := 0x0E
def csBAD_STATE : Nat := 0x0F

/-- A command completes with a status alone. -/
def finish (r : Nat) (c : Cmd) (st : Nat) (s : State) : State := complete r c st [] [] s

/-- Run a command that ring `r` takes. -/
def onRing (r : Nat) (f : State → State) (s : State) : Host.Outcome State Fault Refusal :=
  let s := s.begin
  ran (if cmdReady s r then throughRing r f s else s)

/-- Run a command without a data buffer. -/
def onBare (r : Nat) (c : Cmd) (f : State → State) (s : State) : Host.Outcome State Fault Refusal :=
  onRing r (fun s => if c.len ≠ 0 then finish r c csBAD_LENGTH s else f s) s

/-- The octets of the command's data buffer. -/
def bufOf (c : Cmd) : List Nat := (c.data.take c.len).map (· % 256)

/-- The opcodes of R374. -/
def opcodes : List Nat :=
  [0x00, 0x10, 0x11, 0x12, 0x18, 0x19, 0x1A, 0x1B, 0x20, 0x21, 0x22, 0x30, 0x31, 0x32, 0x38, 0x39, 0x3C, 0x3D, 0x3E, 0x48]

/-- CMD_BAD_OPCODE (R364). -/
def execCmdBadOpcode (r op : Nat) (c : Cmd) (s : State) : Host.Outcome State Fault Refusal :=
  onRing r (fun s => if opcodes.contains op then s else finish r c csBAD_OPCODE s) s

/-- NOP (R374). -/
def execNop (r : Nat) (c : Cmd) (s : State) : Host.Outcome State Fault Refusal := onBare r c (finish r c csOK) s

/-! ### Tables (R374, R516) -/

/-- The status of R364 for a status of ING_TBL_CTL. -/
def ingStatus (st : Nat) : Nat :=
  [csOK, csTABLE_FULL, csINDEX_FULL, csEXISTS].getD st csBAD_PARAM

/-- The status of R364 for a status of EGR_TBL_CTL: BUSY under R324; the oper list is read only. -/
def egrStatus (st : Nat) : Nat := [csOK, csBUSY].getD st csBAD_PARAM

/-- Octets of an entry: 128 for the ING tables, 16 for the EGR tables. -/
def entrySize (t : Nat) : Nat := if t < 0x10 then 128 else 16

/-- What a table command may not run on, or OK: codes, port, island (R374, R6, R516). -/
def tblGate (s : State) (t port count : Nat) : Nat :=
  if !(t ≤ 9 || (0x10 ≤ t && t ≤ 0x13)) || count = 0 || count > 256 || (0x11 ≤ t && port > 65) then csBAD_PARAM
  else if 0x11 ≤ t && !portPresent s port then csUNSUPPORTED
  else if !hostReaches s (if t ≤ 9 then islPIPE 0 else islEGR) then csBAD_STATE
  else csOK

/-- Read one entry: the status and its octets. -/
def readEntry (s : State) (t port i : Nat) : Nat × List Nat :=
  if t ≤ 9 then let (st, w) := tblRead s t i; (ingStatus st, wordOctets w)
  else let (st, w) := egrTblRead s (t - 0x10) port i; (egrStatus st, wordOctets w)

/-- Write one entry of 32-bit words: the status and the state. -/
def writeEntry (t port i : Nat) (ws : List Nat) (s : State) : Nat × State :=
  if t ≤ 9 then let (st, s) := tblWrite t i ws s; (ingStatus st, s)
  else let (st, s) := egrTblWrite (t - 0x10) port i ws s; (egrStatus st, s)

/-- Read entries in order up to the first that fails: status, entries read, their octets. -/
def readEntries (s : State) (t port : Nat) : Nat → Nat → Nat × Nat × List Nat
  | _, 0 => (csOK, 0, [])
  | i, n + 1 =>
    let (st, o) := readEntry s t port i
    if st ≠ csOK then (st, 0, [])
    else let (st, k, l) := readEntries s t port (i + 1) n; (st, k + 1, o ++ l)

/-- Write entries in order up to the first that fails (R374): status, entries written, state. `ws` is the whole buffer in words. -/
def writeEntries (t port size : Nat) (ws : List Nat) : Nat → Nat → State → Nat × Nat × State
  | _, 0, s => (csOK, 0, s)
  | i, n + 1, s =>
    let (st, s) := writeEntry t port i (ws.take size) s
    if st ≠ csOK then (st, 0, s)
    else let (st, k, s) := writeEntries t port size (ws.drop size) (i + 1) n s; (st, k + 1, s)

/-- TBL_READ (R374). -/
def execTblRead (r : Nat) (c : Cmd) (s : State) : Host.Outcome State Fault Refusal :=
  onRing r (fun s =>
    let t := c.p0 % 256
    let port := c.p0 / 256 % 256
    let g := tblGate s t port c.p2
    if g ≠ csOK then finish r c g s
    else if c.len ≠ c.p2 * entrySize t then finish r c csBAD_LENGTH s
    else
      let (st, n, l) := readEntries s t port c.p1 c.p2
      let s := (List.range n).foldl (fun s k => if t ≤ 9 then tblEcc t (c.p1 + k) s else egrTblEcc (t - 0x10) port (c.p1 + k) s) s
      complete r c st [n] l s) s

/-- TBL_WRITE (R374). -/
def execTblWrite (r : Nat) (c : Cmd) (s : State) : Host.Outcome State Fault Refusal :=
  onRing r (fun s =>
    let t := c.p0 % 256
    let port := c.p0 / 256 % 256
    let g := tblGate s t port c.p2
    if g ≠ csOK then finish r c g s
    else if c.len ≠ c.p2 * entrySize t then finish r c csBAD_LENGTH s
    else if !entriesPresent s t (entrySize t / 4) (leWords (bufOf c)) c.p2 then finish r c csUNSUPPORTED s
    else
      let (st, n, s) := writeEntries t port (entrySize t / 4) (leWords (bufOf c)) c.p1 c.p2 s
      complete r c st [n] [] s) s

/-- The forwarding entries that an FDB_FLUSH with PARAM0 `p` removes. -/
def flushed (p : Nat) (e : List Nat) : Bool :=
  bitOf (tw e 2) 31 && (bitOf p 7 || (!fdbIsMask e && fdbDest e == p % 128))
    && (bitOf p 20 || bitsOf (tw e 1) 16 12 == bitsOf p 8 12) && (bitOf p 21 || !fdbStatic e)

/-- FDB_FLUSH (R374). -/
def execFdbFlush (r : Nat) (c : Cmd) (s : State) : Host.Outcome State Fault Refusal :=
  onBare r c (fun s =>
    let p := c.p0 % 128
    if !hostReaches s (islPIPE 0) then finish r c csBAD_STATE s
    else if !bitOf c.p0 7 && decide (p > 65) then finish r c csBAD_PARAM s
    else if !bitOf c.p0 7 && !portPresent s p then finish r c csUNSUPPORTED s
    else
      let l := (tblList s 2).filter fun e => flushed c.p0 e.2
      complete r c csOK [l.length] [] (l.foldl (fun s e => setTbl 2 e.1 [] s) s)) s

/-! ### Streams (R375, R273) -/

/-- Context `x` is VALID and is not being deleted. -/
def ctxLives (s : State) (x : Nat) : Bool := ctxValid s x && !s.ing.dels.any (·.1 == x)

/-- RED_FN_PATH names a port that the grade lacks (R6). -/
def pathsAbsent (s : State) (w : Nat) : Bool :=
  (List.range 4).any fun i => bitOf w (8 * i + 7) && !portPresent s (bitsOf w (8 * i) 7)

/-- The values of bytes 128 to 143 go to RED_FN_CFG, _TIMERS, _PATH and _PATH_TO of function `n` (R375). -/
def writeFn (n : Nat) (ws : List Nat) (s : State) : State :=
  let s := writeFnCfg n (ws.getD 0 0) s
  let s := softWord 0xE0110 (ws.getD 3 0) (softWord 0xE010C (ws.getD 2 0) (softWord 0xE0104 (ws.getD 1 0) s n) n) n
  pathsCheck n s

/-- STREAM_ADD (R375). -/
def execStreamAdd (r : Nat) (c : Cmd) (s : State) : Host.Outcome State Fault Refusal :=
  onRing r (fun s =>
    let x := c.p0 % 16384
    let fn := bitOf c.p1 31
    let ws := leWords (bufOf c)
    let cs := join32 (ws.take 32)
    let fw := ws.drop 32
    let m := bitsOf (cs.getD 0 0) 60 3
    if !hostReaches s (islPIPE 0) || (fn && !hostReaches s islRED) then finish r c csBAD_STATE s
    else if c.len ≠ (if fn then 144 else 128) then finish r c csBAD_LENGTH s
    else if !bitOf (cs.getD 0 0) 63 || m = 0 || m > 4 then finish r c csBAD_PARAM s
    else if fn && ((bitsOf (fw.getD 0 0) 29 2 == 2 && !hasReseq s) || pathsAbsent s (fw.getD 2 0)) then finish r c csUNSUPPORTED s
    else if ctxValid s x then finish r c csEXISTS s
    else
      let (st, s') := ctxAdd x cs s
      if st ≠ stDone then finish r c (ingStatus st) s
      else finish r c csOK (whenS fn (writeFn (bitsOf (cs.getD 12 0) 48 12) fw) s')) s

/-- STREAM_DELETE (R273). -/
def execStreamDelete (r : Nat) (c : Cmd) (s : State) : Host.Outcome State Fault Refusal :=
  onBare r c (fun s =>
    let x := c.p0 % 16384
    if !hostReaches s (islPIPE 0) then finish r c csBAD_STATE s
    else if ctxLives s x then finish r c csOK (ctxDelete x s)
    else finish r c csNOT_FOUND s) s

/-- STREAM_MODIFY (R273). -/
def execStreamModify (r : Nat) (c : Cmd) (s : State) : Host.Outcome State Fault Refusal :=
  onRing r (fun s =>
    let x := c.p0 % 16384
    if !hostReaches s (islPIPE 0) then finish r c csBAD_STATE s
    else if c.len ≠ 56 then finish r c csBAD_LENGTH s
    else if ctxLives s x then finish r c csOK (ctxModify x (join32 (leWords (bufOf c))) s)
    else finish r c csNOT_FOUND s) s

/-- STREAM_READ (R272): the counters stay readable after a delete (R273). -/
def execStreamRead (r : Nat) (c : Cmd) (s : State) : Host.Outcome State Fault Refusal :=
  onRing r (fun s =>
    if !hostReaches s (islPIPE 0) then finish r c csBAD_STATE s
    else if c.len ≠ 128 then finish r c csBAD_LENGTH s
    else complete r c csOK [] (wordOctets (split64 (ctxWords s (c.p0 % 16384)))) s) s

/-! ### DPLLs (R376, R146) -/

/-- DPLL_FREQ (R376, R170). -/
def execDpllFreq (r : Nat) (c : Cmd) (s : State) : Host.Outcome State Fault Refusal :=
  onBare r c (fun s =>
    let d := c.p0 % 4
    if hostReaches s islTIME && dpllState s d == stOPEN then finish r c csOK (olFreq d (sx 48 (c.p1 % 2 ^ 32 + c.p2 % 65536 * 2 ^ 32)) s)
    else finish r c csBAD_STATE s) s

/-- DPLL_PHASE (R376, R170). -/
def execDpllPhase (r : Nat) (c : Cmd) (s : State) : Host.Outcome State Fault Refusal :=
  onBare r c (fun s =>
    let d := c.p0 % 4
    if hostReaches s islTIME && dpllState s d == stOPEN then finish r c csOK (olPhase d (sx 64 (c.p1 % 2 ^ 32 + c.p2 % 2 ^ 32 * 2 ^ 32)) s)
    else finish r c csBAD_STATE s) s

/-- HOST_SAMPLE (R146): RESULT0 is the HOST Last copy's nanoseconds. -/
def execHostSample (r : Nat) (c : Cmd) (s : State) : Host.Outcome State Fault Refusal :=
  onBare r c (fun s =>
    if hostReaches s islTIME then
      complete r c csOK [(T96.ofUnits (copyNow s islHOST)).ns] [] (candSample 15 0 (sx 64 (c.p1 % 2 ^ 32 + c.p2 % 2 ^ 32 * 2 ^ 32)) s)
    else finish r c csBAD_STATE s) s

/-! ### Profiles (R411) -/

/-- Run an MCU command: NOT_READY without a controller (R377). -/
def onMcu (r : Nat) (c : Cmd) (f : State → State) (s : State) : Host.Outcome State Fault Refusal :=
  onRing r (fun s => if hostReaches s islMCU && flag s R.HIF_GSTAT_MCU_READY then f s else finish r c csNOT_READY s) s

/-- PROFILE_WRITE (R411). -/
def execProfileWrite (r : Nat) (c : Cmd) (s : State) : Host.Outcome State Fault Refusal :=
  onMcu r c (fun s =>
    let n := c.p0 % 4
    let l := bufOf c
    if c.len = 0 ∨ c.len > 32768 then finish r c csBAD_LENGTH s
    else
      let x := slotAt s n
      let octets := l ++ x.octets.drop l.length
      let why := profCheck s .write l
      let len := leAt l 8 4
      if why = 0 then
        finish r c csOK (setSlot n { state := slVALID, len := len, crc := leAt l (len - 4) 4, writes := (x.writes + 1) % 2 ^ 32, octets } s)
      else finish r c csBAD_PARAM (setSlot n { x with state := slINVALID, octets } (setF R.RST_PROF_STAT_FAIL_CAUSE why s))) s

/-- PROFILE_READ (R411). -/
def execProfileRead (r : Nat) (c : Cmd) (s : State) : Host.Outcome State Fault Refusal :=
  onMcu r c (fun s =>
    if c.len ≠ 32768 then finish r c csBAD_LENGTH s
    else match slotImage s (c.p0 % 4) with
      | some l => complete r c csOK [l.length] l s
      | none => finish r c csNOT_FOUND s) s

/-! ### Firmware (R422, R436) -/

/-- FW_DOWNLOAD (R422). -/
def execFwDownload (r : Nat) (c : Cmd) (s : State) : Host.Outcome State Fault Refusal :=
  onMcu r c (fun s =>
    let servo := bitOf c.p0 0
    let k := stageKey servo
    let have_ := smGet [] s.sys.stage k
    if c.len > 65536 then finish r c csBAD_LENGTH s
    else if c.p1 ≠ 0 ∧ c.p1 ≠ have_.length then finish r c csBAD_PARAM s
    else
      let s := fullWriteAll 16 (stageBase servo + c.p1 / 8) ((c.len + 7) / 8) s
      let l := (if c.p1 = 0 then [] else have_) ++ bufOf c
      if l.length > imgSize servo then finish r c csBAD_LENGTH s
      else
        let s := discardStaged k { s with sys := { s.sys with stage := smPut [] s.sys.stage k l } }
        if !bitOf c.p0 31 then finish r c csOK s
        else
          let (ok, s) := eccReadAll 16 (stageBase servo) ((l.length + 7) / 8) s
          let cause := if leAt l 8 4 ≠ l.length then 2 else if !ok then 3 else imgCheck s servo l
          if cause = 0 then
            let s := stagedShown { s with sys := { s.sys with stageOk := s.sys.stageOk ++ [k] } }
            finish r c csOK (raise R.FWT_EVENT_STAGE_DONE s)
          else finish r c (if cause = 4 ∨ cause = 5 then csDENIED else csBAD_PARAM) (raise R.FWT_EVENT_STAGE_REJECTED s)) s

/-- The 64 octets of a measurement log entry (R434). -/
def measOctets (e : MeasEntry) : List Nat :=
  let t := T96.ofUnits e.time
  [e.reg, e.kind, 0, 0] ++ wordOctets [t.word 0, t.word 1, t.word 2] ++ digestOctets e.digest

/-- The certificate chain of the device, none without its record (R436). -/
def certOf (s : State) : List Nat := if s.sys.recOk then s.sys.cert else []

/-- The report of R436 up to its signature. -/
def reportBody (s : State) (nonce : List Nat) (log cert : Bool) (len : Nat) : List Nat :=
  let es := if log then s.sys.measLog else []
  let ch := if cert then certOf s else []
  let flags := b2n log + 2 * b2n (cert && s.sys.recOk) + 4 * b2n (flag s R.FWT_STATUS_LIMP) + 8 * b2n (flag s R.FWT_STATUS_SERVO_RUN)
    + 16 * b2n s.sys.logTrunc
  let t := T96.ofUnits (copyNow s islMCU)
  wordOctets [0x4B5A4154, 1 + flags * 65536, len, wordOf s 0x00000, wordOf s 0x00004, wordOf s 0x38000, s.sys.fuse.getD 36 0, s.sys.fuse.getD 37 0]
    ++ nonce ++ wordOctets [t.word 0, t.word 1, t.word 2, 0, wordOf s 0x38014, wordOf s 0x38018, wordOf s 0x38008, 0]
    ++ (List.range 8).flatMap (fun m => digestOctets (getMeas s m))
    ++ (List.range 8).map (fun m => getF s (measCnt m))
    ++ wordOctets [es.length, ch.length, 0, 0, 0, 0] ++ es.flatMap measOctets ++ ch ++ List.replicate ((4 - ch.length % 4) % 4) 0

/-- ATTEST (R436): without an identity, in safe defaults, the report carries no signature. -/
def execAttest (r : Nat) (c : Cmd) (s : State) : Host.Outcome State Fault Refusal :=
  onMcu r c (fun s =>
    let log := bitOf c.p0 0
    let cert := bitOf c.p0 1
    let safe := flag s R.GLB_CAP_FUSE_SAFE
    let nonce := (List.range 32).map fun k => (bufOf c).getD k 0
    let len := (reportBody s nonce log cert 0).length + (if safe then 0 else 96)
    if c.len < len then complete r c csBAD_LENGTH [len] [] s
    else
      let body := reportBody s nonce log cert len
      let sig := if safe then [] else Config.ecdsaSign (wordOctets ((s.sys.fuse.drop 50).take 12)) body
      complete r c (if safe then csDENIED else csOK) [len] (body ++ sig) s) s

/-! ### Flash (R386, R424) -/

/-- Octets of the flash. -/
def flashSize (s : State) : Nat := 2 ^ getF s R.HIF_QSPI_CFG_SIZE_LOG2

/-- A range overlaps the flash copy that a running image was loaded from (R424). -/
def flashHeld (s : State) (a n : Nat) : Bool :=
  let hit (servo : Bool) : Bool :=
    let src := getF s (srcFld servo)
    let runs := flag s (if servo then R.FWT_STATUS_SERVO_RUN else R.FWT_STATUS_MGMT_RUN)
    runs && 2 ≤ src && decide (a < copyAddr servo (src - 2) + imgSize servo) && decide (copyAddr servo (src - 2) < a + n)
  hit false || hit true

/-- What keeps a flash command of `n` octets at `a` from running, or OK. -/
def flashGate (s : State) (write : Bool) (a n : Nat) : Nat :=
  if !flag s R.HIF_QSPI_CFG_PRESENT then csBAD_STATE
  else if a + n > flashSize s then csBAD_PARAM
  else if write && flashHeld s a n then csDENIED
  else csOK

def setFlash (a v : Nat) (s : State) : State := { s with hif := { s.hif with flash := smPut 0xFF s.hif.flash a v } }

/-- The contents of a range that an error or a timeout left undefined (R371): free values. -/
def flashLost (a n : Nat) (s : State) : State :=
  (List.range n).foldl (fun s k => let (v, s) := drawInt s; setFlash (a + k) (toU 8 v) s) s

/-- FLASH_READ (R386). -/
def execFlashRead (r : Nat) (c : Cmd) (s : State) : Host.Outcome State Fault Refusal :=
  onRing r (fun s =>
    if c.len > 65536 then finish r c csBAD_LENGTH s
    else
      let g := flashGate s false c.p1 c.len
      if g ≠ csOK then finish r c g s else complete r c csOK [] (flashRead s c.p1 c.len) s) s

/-- FLASH_PROGRAM (R386): programming clears bits only, as a NOR flash does. `err`: the flash reports an error. -/
def execFlashProgram (r : Nat) (c : Cmd) (err : Bool) (s : State) : Host.Outcome State Fault Refusal :=
  onRing r (fun s =>
    if c.len > 65536 then finish r c csBAD_LENGTH s
    else
      let g := flashGate s true c.p1 c.len
      if g ≠ csOK then finish r c g s
      else if err then finish r c csBAD_STATE (raise R.HIF_EVENT_QSPI_ERROR (flashLost c.p1 c.len s))
      else
        let l := bufOf c
        finish r c csOK ((List.range c.len).foldl (fun s k => setFlash (c.p1 + k) (Nat.land (flashOctet s (c.p1 + k)) (l.getD k 0)) s) s)) s

/-- FLASH_ERASE (R386). `err`: the flash reports an error. -/
def execFlashErase (r : Nat) (c : Cmd) (err : Bool) (s : State) : Host.Outcome State Fault Refusal :=
  onBare r c (fun s =>
    if c.p1 % 4096 ≠ 0 ∨ c.p2 % 4096 ≠ 0 ∨ c.p2 > 1048576 then finish r c csBAD_PARAM s
    else
      let g := flashGate s true c.p1 c.p2
      if g ≠ csOK then finish r c g s
      else if err then finish r c csBAD_STATE (raise R.HIF_EVENT_QSPI_ERROR (flashLost c.p1 c.p2 s))
      else finish r c csOK { s with hif := { s.hif with flash := smKeep (fun a => !(c.p1 ≤ a && a < c.p1 + c.p2)) s.hif.flash } }) s

/-! ### Resets and timeouts -/

/-- RESET_REQ (R374, R390): no completion where its level resets HOST. -/
def execResetReq (r : Nat) (c : Cmd) (s : State) : Host.Outcome State Fault Refusal :=
  onBare r c (fun s =>
    let s := strike 4 (c.p0 % 32) s
    if slotReady s r 1 then finish r c csOK s else s) s

/-- What a command that timed out leaves behind (R371): flash ranges and staged images undefined, a slot that was being written in
WRITING; the others had no effect. -/
def timedOut (op : Nat) (c : Cmd) (s : State) : State :=
  match op with
  | 0x31 =>
    if flag s R.HIF_GSTAT_MCU_READY then
      let (v, s) := drawInt s
      let n := c.p0 % 4
      setSlot n { slotAt s n with state := slWRITING, octets := (bufOf c).take v.natAbs ++ (slotAt s n).octets.drop (min v.natAbs c.len) } s
    else s
  | 0x38 =>
    if flag s R.HIF_GSTAT_MCU_READY then
      let k := stageKey (bitOf c.p0 0)
      let (v, s) := drawInt s
      let old := if c.p1 = 0 then [] else smGet [] s.sys.stage k
      discardStaged k { s with sys := { s.sys with stage := smPut [] s.sys.stage k (old ++ (bufOf c).take v.natAbs) } }
    else s
  | 0x3D => if c.len ≤ 65536 ∧ flashGate s true c.p1 c.len = csOK then flashLost c.p1 c.len s else s
  | 0x3E => if c.p2 ≤ 1048576 ∧ flashGate s true c.p1 c.p2 = csOK then flashLost c.p1 c.p2 s else s
  | _ => s

/-- CMD_TIMEOUT (R371): the command of opcode `op` that ring `r` runs has not completed within TMO_MS. A run-time profile that waits
ends where it stands. -/
def execCmdTimeout (r op : Nat) (c : Cmd) (s : State) : Host.Outcome State Fault Refusal :=
  let s := s.begin
  let tmo : Int := (zeroAs 1 (getF s R.HIF_RING_TMO_TMO_MS r) : Int) * unitMs
  let due := match s.sys.run with | some x => x.ring ≠ r || decide (x.since + tmo ≤ copyNow s islHOST) | none => true
  ran (if slotReady s r 1 && opcodes.contains op && due then
    let c := match s.sys.run with | some x => if x.ring = r then { c with tag := x.tag, irq := x.irq } else c | none => c
    let s := if ringRuns s r then abandonRun r s else timedOut op c s
    finish r c csTIMEOUT (raise R.HIF_RING_EVENT_CMD_TIMEOUT s r)
  else s)

end Sys2Proof.Machine
end

