-- ==== Sys2Proof/Machine/Ing.lean ====
section
/-!
DEFINITION. Sys2Proof/Machine/Ing.lean: the commands and events of the ingress pipelines (spec/09).
-/
namespace Sys2Proof.Machine

/-! ### The head's way through the stages (R259) -/

/-- The pipeline island of an input (R30). -/
def pipeOf (p : Nat) : Nat := if p < 64 then islPIPE (p / 16) else islPIPE 0

/-- Destination addresses whose frames are never forwarded (R113). -/
def neverForward (p : Parsed) : Bool :=
  p.da == 0x0180C200000E || (p.l3 == 1 && p.dst == some 0xE000006B) || (p.l3 == 2 && p.dst == some 0xFF02000000000000000000000000006B)

/-- An ESMC frame (R109): slow protocol, subtype 0x0A. -/
def isEsmc (h : List Nat) (p : Parsed) : Bool :=
  p.da == 0x0180C2000002 && p.etype == some 0x8809 && hf h p.l3Off 1 == some 0x0A

/-- The domain of a PTP message (R112): A first. -/
def ptpDomain (s : State) (m : PtpMsg) : Option Nat :=
  let hit (b : Bool) : Bool := mapEna s b
    && m.domain == domF s b R.PTE_DOMA_MAP_DOMAIN R.PTE_DOMB_MAP_DOMAIN
    && m.major == domF s b R.PTE_DOMA_MAP_MAJOR_SDO R.PTE_DOMB_MAP_MAJOR_SDO
    && m.minorSdo == domF s b R.PTE_DOMA_MAP_MINOR_SDO R.PTE_DOMB_MAP_MINOR_SDO
  if !flag s R.PTE_GCFG_ENA then none else if hit false then some 0 else if hit true then some 1 else none

/-- What TIME makes of a received frame (R111 to R116, R123): discard counted at an instance, silent discard, the engine's,
forwarded with a step of TIME, forwarded as it is. -/
inductive PtpFate where
  | drop (inst : Nat)
  | gone
  | engine (inst : Nat)
  | forward
  | plain
  deriving DecidableEq, Repr

/-- The fate of a PTP frame of domain `d` received on input `p`. -/
def ptpFate (s : State) (p : Nat) (m : PtpMsg) (d : Option Nat) : PtpFate :=
  let i := p % 64 + 64 * d.getD 0
  if flag s R.PTE_GCFG_ENA && (m.version ≠ 2 || m.minor > 1) then .drop i
  else if p ≥ 64 then .plain
  else
    match d with
    | some k =>
      match mapRole s (k == 1) with
      | 1 => if m.isEvent || m.kind == 8 then .forward else .plain
      | 2 =>
        if m.kind = 1 then .gone
        else if m.kind = 2 ∨ m.kind = 3 ∨ m.kind = 10 then .engine i
        else if m.kind = 0 ∨ m.kind = 8 then .forward
        else .plain
      | _ => .engine i
    | none =>
      match getF s R.PTE_GCFG_UNMAPPED with
      | 0 => .plain
      | 1 => if m.isEvent || m.kind == 8 then .forward else .plain
      | _ => .drop i

/-- The VLAN stage (R262): VID, PCP, DEI and the matched tag, or the discard reason. -/
def vlanStage (s : State) (inP : Nat) (p : Parsed) : Nat ⊕ (Nat × Nat × Nat × Option (Nat × Nat)) :=
  let tpid := if flag s R.ING_PORT_CFG_TPID_SEL inP then 0x88A8 else 0x8100
  let tag := match p.tags.head? with | some (t, w) => if t = tpid then some w else none | none => none
  let tagVid := (tag.getD 0) % 4096
  let vid := if tagVid = 0 then getF s R.ING_PORT_CFG_PVID inP else tagVid
  let (pcp, dei) := match tag with
    | some w => (w / 8192, w / 4096 % 2)
    | none => (getF s R.ING_PORT_CFG_DEFAULT_PCP inP, 0)
  let acc := getF s R.ING_PORT_CFG_ACCEPT inP
  if (acc = 1 ∧ tagVid = 0) ∨ (acc = 2 ∧ tagVid ≠ 0) then .inl 2
  else if vid = 0xFFF then .inl 1
  else if flag s R.ING_PORT_CFG_VLAN_FILTER inP && !bitOf (vlanMembers s vid) inP then .inl 1
  else .inr (vid, pcp, dei, tag.map fun w => (w / 8192, w / 4096 % 2))

/-- The first class (R263). -/
def firstTc (s : State) (inP pcp : Nat) (p : Parsed) : Nat :=
  let byPcp := getF s (R.ING_PORT_TC_TC.up (3 * pcp)) inP
  match getF s R.ING_PORT_CFG_TRUST inP with
  | 0 => getF s R.ING_PORT_CFG_DEFAULT_TC inP
  | 2 => if p.l3 = 0 then byPcp else getF s ((R.ING_DSCP_MAP0_TC.on (4 * (p.dscp / 8))).up (3 * (p.dscp % 8)))
  | _ => byPcp

/-- The length a head gives (R258): its own where the whole frame is in the head, else what the IP header says. -/
def headLen (x : Frame) (p : Parsed) : Option Nat :=
  if x.ended && decide (x.octets.length ≤ 128) then some x.octets.length else p.len

/-- A frame has passed a gate and a meter: the IPV (15 none), the drop eligibility and YELLOW_TC; or the discard reason. -/
inductive Checked where
  | drop (reason : Nat)
  | pass (ipv : Nat) (de : Bool) (ytc : Option Nat)
  deriving DecidableEq, Repr

/-- A frame at gate `g` at instant `t`: the entry in force is read first (R438). -/
def gateRead (g len : Nat) (t : Int) (s : State) : (Nat ⊕ Nat) × State :=
  match gateEntryAt s g t with
  | some (k, _) => let (ok, s) := eccRead 10 (64 * g + k) s; if ok then gatePass g len t s else (.inl 0x14, s)
  | none => gatePass g len t s

/-- Stages 41 to 56 for a frame of context `c` and length `len` (R275 to R279): MAX_SDU, gate at `t`, meter at the Last copy `at32`. -/
def checkStream (c len : Nat) (t at32 : Int) (yellow : Bool) (s : State) : Checked × State :=
  let sdu := ctxF s c 6 40 14
  let excess := decide (sdu ≠ 0 ∧ len > sdu)
  let blk := ctxF s c 6 29 1 == 1
  if blk || excess then
    let newBlk := excess && !blk && ctxF s c 6 30 1 == 1
    let s := ctxBump c 14 32 16 s
    (.drop 5, if newBlk then raise R.ING_EVENT_SDU_BLOCKED (setCtxF c 6 29 1 1 (narrowWrite 9 (16 * c + 6) s).2) 0 c else s)
  else
    let (g, s) := if ctxF s c 6 31 1 = 1 then gateRead (ctxF s c 6 32 8) len t s else (Sum.inr 15, s)
    match g with
    | .inl r => (.drop r, whenS (r ≠ 0x14) (ctxBump c 14 48 16) s)
    | .inr ipv =>
      if ctxF s c 6 21 1 = 1 then
        let ovh := sx 8 (ctxF s c 8 8 8)
        let l := (len : Int) + ovh
        let (col, s) := meter c (if l < 1 then 1 else l.toNat) yellow (at32 / unitNs) s
        match col with
        | 0 => (.pass ipv false none, s)
        | 1 =>
          let s := ctxBump c 15 32 32 s
          match ctxF s c 6 27 2 with
          | 1 => (.drop 8, ctxBump c 14 0 16 s)
          | 2 => (.pass ipv true (some (ctxF s c 6 24 3)), s)
          | _ => (.pass ipv true none, s)
        | _ => (.drop 9, ctxBump c 14 16 16 s)
      else (.pass ipv false none, s)

/-- The instant at which a gate is evaluated (R276). -/
def gateInstant (s : State) (x : Frame) : Int :=
  match x.rx with | some r => if r.valid then r.t16 * 65536 else pipeNow s x.port | none => pipeNow s x.port

/-- The frame needs a tail pass (R258). -/
def needsTail (s : State) (c : Option Nat) (len : Option Nat) : Bool :=
  match c, len with
  | some k, none => ctxF s k 6 40 14 ≠ 0 || ctxF s k 6 21 1 == 1
  | _, _ => false

/-- The destination set of R281, from the lookup's set and the winning rule's action word. -/
def destSet (s : State) (set vid inP : Nat) (act : Nat) (trap : Bool) (ctx : Option Nat) (p : Parsed) : Nat :=
  let redirect := actRedirect act
  let fixed := trap || redirect.isSome
  let d := if trap then 2 ^ 65 else match redirect with | some q => 2 ^ q | none => set
  let d := match ctx with
    | some c => if ctxF s c 12 61 1 = 1 then Nat.lor d (portMask s (ctxF s c 12 24 12)) else d
    | none => d
  let d := if fixed then d
    else
      let m := Nat.land d (vlanMembers s vid)
      if bitOf m inP then m - 2 ^ inP else m
  let d := if neverForward p then Nat.land d (3 * 2 ^ 64) else d
  if actCopy act then Nat.lor d (2 ^ 64) else d

/-- R115: copies of a PTP event message from P64 or P65 to ports on which the engine runs its domain are discarded and counted. -/
def softPtp (x : Frame) (dom : Option Nat) (dests : List Nat) (s : State) : List Nat × State :=
  match x.ptp, dom with
  | some m, some d =>
    if x.port ≥ 64 && m.isEvent then
      let bad := dests.filter fun o => pteEnabled s o (d == 1)
      (dests.filter fun o => !pteEnabled s o (d == 1), bad.foldl (fun s o => pteDrop (o + 64 * d) s) s)
    else (dests, s)
  | _, _ => (dests, s)

/-- Stages 57 to 64 (R280, R281): the result of ingress, or NO_DEST. -/
def resolve (f : Nat) (x : Frame) (res : IngRes) (set : Nat) (s : State) : State :=
  let ports := (portsOf set).filter (portPresent s)
  let (dests, s) := softPtp x x.dom ports s
  if ports.isEmpty then dropFrame 0x0A f (setFrame f (some x) s)
  else if dests.isEmpty then forgetFrame f (setFrame f (some x) s)
  else
    let seq := match res.ctx with | some c => ctxF s c 12 63 1 == 1 || ctxF s c 12 62 1 == 1 | none => false
    let s := setFrame f (some { x with headDone := true, ing := some { res with dests := dests }
                                       frer := if seq then .waiting else .none }) s
    let s := match res.ctx with
      | some c => if x.needTail then s else ctxBump c 13 0 32 s
      | none => s
    monEvent 5 x.port (some res.tc) 0 1 s

/-! ### Reads that meet an error (R438, R440, R441) -/

/-- The words that a frame's lookups read, before those of its stream: VLAN, rules in their order up to one that can be read. -/
def eccFirst (s : State) (p : Parsed) (inP vid pcp dei : Nat) : Bool × State :=
  let (ok, s) := eccRead 5 vid s
  let hits := ruleHits s p inP vid pcp dei
  (ok, ((hits.takeWhile fun r => eccDead s 7 r.1) ++ (hits.filter fun r => !eccDead s 7 r.1).take 1).foldl
    (fun s r => (eccRead 7 r.1 s).2) s)

/-- The forwarding database entry of a key: one that cannot be read is removed. -/
def eccFdb (key : Nat) (s : State) : State :=
  match fdbFind s key with
  | none => s
  | some (i, _) => let (ok, s) := eccRead 3 i s; if ok then s else setEcc 3 i 0 (setTbl 2 i [] s)

/-- The group entries and index slots that a frame's lookups find. -/
def eccFound (s : State) (p : Parsed) (vid : Nat) : State :=
  let g := p.dst.getD 0
  let s := ((tblList s 3).filter fun e =>
      bitOf (tw e.2 0) 31 && p.l3 ≠ 0 && bitOf (tw e.2 0) 30 == (p.l3 == 2) && bitsOf (tw e.2 0) 0 12 == vid
        && (addrOf e.2 1 == p.src.getD 0 || addrOf e.2 1 == 0) && addrOf e.2 5 == g).foldl (fun s e => (eccRead 4 e.1 s).2) s
  [3, 2, 1].foldl (fun s m =>
    match (streamKey p vid m).bind (idxSlot s) with
    | some q => (eccRead 8 q.1 s).2
    | none => s) s

/-- The words of a frame's context that must be readable and its port masks: whether all can be read. -/
def eccStream (ctx : Option Nat) (key : Nat) (s : State) : Bool × State :=
  let masks : List Nat := (match fdbFind s key with | some (_, e) => if fdbIsMask e then [fdbDest e] else [] | none => [])
    ++ (match ctx with | some c => if ctxF s c 12 61 1 = 1 then [ctxF s c 12 24 12] else [] | none => [])
  let fixed : List Nat := match ctx with | some c => [0, 1, 2, 3, 4, 5, 6, 7, 8, 12].map (16 * c + ·) | none => []
  let go (m : Nat) (ws : List Nat) (x : Bool × State) : Bool × State :=
    ws.foldl (fun x w => let (ok, s) := eccRead m w x.2; (x.1 && ok, s)) x
  go 6 masks (go 9 fixed (true, s))

/-- The counter of the matched rule (word 22 of its table 1 entry). -/
def ruleCount (rule : Option Nat) (s : State) : State :=
  match rule with
  | some r => let e := tblEntry s 1 r; setTbl 1 r ((List.range 23).map fun k => if k = 22 then (tw e 22 + 1) % 2 ^ 32 else tw e k) s
  | none => s

/-- The frame counter and the last hit of an identified stream. -/
def streamHit (ctx : Option Nat) (sec : Nat) (s : State) : State :=
  match ctx with
  | some c => ctxNarrow c 15 0 (setCtxF c 15 0 16 sec) (ctxBump c 13 32 32 s)
  | none => s

/-- A frame of no stream whose rule learns by template `learn` offers its key to the learning queue. -/
def learnOffer (inP : Nat) (known : Bool) (p : Parsed) (vid : Nat) (learn ctx : Option Nat) (s : State) : State :=
  match ctx, learn with
  | none, some t =>
    if known then s
    else
      match streamKey p vid (bitsOf (tmplWord s t 0) 60 3) with
      | none => s
      | some key =>
        if (pendingKeys s).contains key then bump R.ING_CNT_LEARN_PENDING_COUNT s inP
        else if flag s R.ING_GCFG_LEARN_ENA && decide ((pendingKeys s).length < 16) then queueReq (.stream key t) s
        else s
  | _, _ => s

/-- The gate, filter and meter of a stream at its head; with the tail pass to come, nothing yet. -/
def checkHead (x : Frame) (ctx : Option Nat) (tail : Bool) (len : Option Nat) (yellow : Bool) (s : State) : Checked × State :=
  match ctx with
  | some c =>
    if tail then (.pass 15 false none, s)
    else
      match len with
      | some l => checkStream c l (gateInstant s x) (pipeNow s x.port) yellow s
      | none => let (v, s) := drawInt s; checkStream c v.natAbs (gateInstant s x) (pipeNow s x.port) yellow s
  | none => (.pass 15 false none, s)

/-- A general message of an enabled domain that is forwarded: a copy goes to P65 under the bucket of PTE_FW_RATE (R116, R141). -/
def generalCopy (x : Frame) (set : Nat) (s : State) : Nat × State :=
  match x.ptp, x.dom with
  | some m, some d =>
    if x.port < 64 && decide (m.kind ≥ 11) then
      let (ok, s) := fwToken s
      if ok then (Nat.lor set (2 ^ 65), s) else (set, pteDrop (x.port + 64 * d) s)
    else (set, s)
  | _, _ => (set, s)

/-- The end of a PTP frame that is not forwarded (R112, R113, R116): discarded and counted at an instance, discarded, or the engine's.
A rule's COPY, TRAP and REDIRECT concern a destination set, which it has not (notes/assumptions/162.md). -/
def ptpEnds (f : Nat) (x : Frame) (fate : PtpFate) (s : State) : State :=
  match fate with
  | .drop i => forgetFrame f (pteDrop i s)
  | .engine i =>
    let s := setFrame f (some { x with engine := some i, headDone := true }) s
    match x.bad with
    | some r => dropFrame r f s
    | none => s
  | _ => forgetFrame f s

/-- Stages 57 to 64 (R259): the class, the copies of general messages, and the destinations of a frame that the stream check lets pass. -/
def ingPass (f : Nat) (x : Frame) (p : Parsed) (fate : Option PtpFate) (ends ptpFrame : Bool) (tags : Nat × Nat × Nat × Option (Nat × Nat))
    (act : Nat) (ctx : Option Nat) (len : Option Nat) (yellow trap : Bool) (set ipv : Nat) (de : Bool) (ytc : Option Nat) (s : State) : State :=
  let inP := x.port
  let (vid, pcp, _, tag) := tags
  if ends then ptpEnds f x (fate.getD .plain) s
  else
    let tc := (actTc act).getD (firstTc s inP pcp p)
    let tc := match ctx with | some c => if ctxF s c 6 57 1 = 1 then ctxF s c 6 54 3 else tc | none => tc
    let tc := if ipv = 15 then tc else ipv % 8
    let tc := ytc.getD tc
    let tc := if ptpFrame then getF s R.PTE_GCFG_PTP_TC else tc
    let tpid := if flag s R.ING_PORT_CFG_TPID_SEL inP then 0x88A8 else 0x8100
    let sent := if (p.tags.head?.map fun w => w.2 % 4096) == some 0 then getF s R.ING_PORT_CFG_DEFAULT_PCP inP else pcp
    let res : IngRes := { vid, tag, pcp := sent, tpid, dests := [], tc, de, ctx,
                          ctxVer := match ctx with | some c => ctxWords s c | none => [],
                          precolour := yellow, known := len, ptpTc := ptpFrame }
    let (d, s) := generalCopy x (destSet s set vid inP act trap ctx p) s
    resolve f x res d s

/-- Stages 33 to 56 (R259): learning, the destination, the stream check and the meter, of a frame whose stream context is `ctx`. -/
def ingForward (f : Nat) (x : Frame) (p : Parsed) (fate : Option PtpFate) (ends ptpFrame : Bool) (tags : Nat × Nat × Nat × Option (Nat × Nat))
    (act : Nat) (ctx : Option Nat) (s : State) : State :=
  let inP := x.port
  let vid := tags.1
  let s := learnOffer inP (ptpFrame && x.dom.isSome) p vid (actLearn act) ctx (streamHit ctx (secOf (pipeNow s inP)) s)
  let member := p.member && vlanSnoop s vid
  let s := sourceHit p vid inP s
  match (if member || ends then .inl 0 else lookupDest s p vid inP) with
  | .inr r => dropFrame r f (setFrame f (some x) s)
  | .inl set =>
    let len := headLen x p
    let tail := needsTail s ctx len
    let x := { x with needTail := tail }
    let yellow := tags.2.2.1 == 1 || actPre act
    let (chk, s) := checkHead x ctx tail len yellow s
    match chk with
    | .drop r => dropFrame r f (setFrame f (some x) s)
    | .pass ipv de ytc =>
      ingPass f x p fate ends ptpFrame tags act ctx len yellow (actTrap act || member || isEsmc (x.octets.take 128) p) set ipv de ytc s

/-- Stages 25 to 56 (R259) of a frame that the rules let pass: its stream and the words of its tables, then the rest. -/
def ingStreams (f : Nat) (x : Frame) (p : Parsed) (fate : Option PtpFate) (ends ptpFrame : Bool) (tags : Nat × Nat × Nat × Option (Nat × Nat))
    (rule : Option (Nat × Nat)) (s : State) : State :=
  let vid := tags.1
  let s := eccFound (eccFdb (fdbKey p.sa (vlanFid s vid)) (eccFdb (fdbKey p.da (vlanFid s vid)) s)) p vid
  let ctx := if ptpFrame && x.dom.isSome then none else identify s p vid (rule.map (·.2))
  let (ok, s) := eccStream ctx (fdbKey p.da (vlanFid s vid)) s
  if !ok then dropFrame 0x14 f (setFrame f (some x) s)
  else ingForward f x p fate ends ptpFrame tags ((rule.map (·.2)).getD 0) ctx s

/-- Stages 13 to 64 of a frame that is not directed; `fate` is what TIME makes of a PTP frame. -/
def ingStages (f : Nat) (x : Frame) (p : Parsed) (fate : Option PtpFate) (s : State) : State :=
  let inP := x.port
  let ends := match fate with | some .forward => false | some .plain => false | none => false | _ => true
  let ptpFrame := fate.isSome && (inP < 64 || x.dom.isSome)
  match vlanStage s inP p with
  | .inl r => dropFrame r f (setFrame f (some x) s)
  | .inr (vid, pcp, dei, tag) =>
    let (ok, s) := eccFirst s p inP vid pcp dei
    if !ok then dropFrame 0x14 f (setFrame f (some x) s)
    else
      let rule := ruleFind s p inP vid pcp dei
      let s := ruleCount (rule.map (·.1)) s
      let act := match rule with | some (_, a) => a | none => 0
      let x := { x with rule := rule.map (·.1), cause := if actTrap act then 1 else 0 }
      if actDrop act then dropFrame 4 f (setFrame f (some x) s)
      else ingStreams f x p fate ends ptpFrame (vid, pcp, dei, tag) rule s

/-- Stages 57 to 64 of a directed frame (R281, R378): its port alone, in its class. -/
def ingDirected (f : Nat) (x : Frame) (p : Parsed) (port tc : Nat) (s : State) : State :=
  let vid := match p.tags.head? with | some (_, w) => if w % 4096 = 0 then getF s R.ING_PORT_CFG_PVID x.port else w % 4096
                                     | none => getF s R.ING_PORT_CFG_PVID x.port
  let tag := p.tags.head?.map fun t => (t.2 / 8192, t.2 / 4096 % 2)
  let pcp := match p.tags.head? with
    | some (_, w) => if w % 4096 = 0 then getF s R.ING_PORT_CFG_DEFAULT_PCP x.port else w / 8192
    | none => getF s R.ING_PORT_CFG_DEFAULT_PCP x.port
  let tpid := match p.tags.head? with | some t => t.1 | none => 0x8100
  resolve f x { vid, tag, pcp, tpid, dests := [], tc, de := false, ctx := none, ctxVer := [], precolour := false,
                known := headLen x p, ptpTc := false } (2 ^ port) s

/-- The crossing by which port `p` reaches its pipeline is up (R23, R24): P64 and P65 reach BUF over crossings of their own. -/
def headCross (s : State) (p : Nat) : Bool := 64 ≤ p || crossUp s (islLANE (p / 4)) (pipeOf p)

/-- A head passes the 64 stages (R259). -/
def ingressHead (f : Nat) (s : State) : State :=
  match frameAt s f with
  | none => s
  | some x =>
    if x.headDone || !(x.ended || decide (128 ≤ x.octets.length)) then s
    else if !islUp s (islPIPE 0) || !islUp s (pipeOf x.port) || !headCross s x.port then sumpCount 0x10 x.port none (forgetFrame f s)
    else
      let s := bump R.ING_CNT_HEADS_COUNT s x.port
      let head := x.octets.take 128
      let p := parse head
      let msg := p.ptpOff.bind (parsePtp head)
      let dom := msg.bind (ptpDomain s)
      let x := { x with ptp := msg, dom := dom, headDone := true }
      let fate := msg.map fun m => ptpFate s x.port m dom
      match x.directed, fate with
      | some _, some (.drop i) => forgetFrame f (pteDrop i s)
      | some (q, tc), _ => ingDirected f x p q tc s
      | none, _ => ingStages f { x with tfwd := fate == some .forward } p fate s

/-- A head's way, and the completion of the TX ring of a host frame that ends there (R378). -/
def ingressFrame (f : Nat) (s : State) : State :=
  match frameAt s f with
  | none => s
  | some x =>
    if x.headDone || !(x.ended || decide (128 ≤ x.octets.length)) then s
    else
      let s := ingressHead f { s with buf := { s.buf with lastDrop := 0 } }
      match frameAt s f with
      | some _ => s
      | none => txDecided x false s

/-- INGRESS_HEAD (R259). -/
def execIngressHead (f : Nat) (s : State) : Host.Outcome State Fault Refusal := ran (ingressFrame f s.begin)

/-- Words 6 to 8 and 12 of a context, its settings, and those of `ws` with the state bits that word 6 has now. -/
def ctxSettings (c : Nat) (ws : List Nat) (s : State) : State :=
  let now6 := ctxWord s c 6
  let w6 := putBit (putBit (ws.getD 6 0) 29 (bitOf now6 29)) 22 (bitOf now6 22)
  setCtxWord c 6 w6 (setCtxWord c 7 (ws.getD 7 0) (setCtxWord c 8 (ws.getD 8 0) (setCtxWord c 12 (ws.getD 12 0) s)))

/-- The check of a tail, with the context's settings as the frame read them at its head (R273). -/
def checkTail (x : Frame) (g : IngRes) (c : Nat) (s : State) : Checked × State :=
  let cur := ctxWords s c
  let (chk, t) := checkStream c x.octets.length (gateInstant s x) (pipeNow s x.port) g.precolour (ctxSettings c g.ctxVer s)
  (chk, ctxSettings c cur t)

/-- The tail pass (R258): stages 41 to 56 with the length known; a class from the gate or the meter moves the frame's waiting
copies. -/
def tailPass (f : Nat) (s : State) : State :=
  match frameAt s f with
  | none => s
  | some x =>
    match x.ing with
    | none => s
    | some g =>
      match g.ctx with
      | none => s
      | some c =>
        if !(x.needTail && x.ended) then s
        else
          let s := bump R.ING_CNT_TAIL_PASS_COUNT s x.port
          let x := { x with needTail := false }
          let (chk, s) := checkTail x g c s
          match chk with
          | .drop r => dropFrame r f (setFrame f (some x) s)
          | .pass ipv de ytc =>
            let tc := if ipv = 15 then g.tc else ipv % 8
            let tc := ytc.getD tc
            let tc := if g.ptpTc then getF s R.PTE_GCFG_PTP_TC else tc
            let s := x.copies.foldl (fun s y => shaperTouch y.out tc s) (touchFrame f s)
            let s := setFrame f (some { x with ing := some { g with tc := tc, de := de }
                                               copies := x.copies.map fun y => { y with tc := tc, de := de } }) s
            ctxBump c 13 0 32 s

/-- INGRESS_TAIL_PASS (R258): in the pipeline of the frame's port, with the tables of PIPE0 (R516). -/
def execIngressTailPass (f : Nat) (s : State) : Host.Outcome State Fault Refusal :=
  let s := s.begin
  ran (match frameAt s f with
    | some x => if islUp s (islPIPE 0) && islUp s (pipeOf x.port) then tailPass f s else s
    | none => s)

/-! ### Learning and ageing -/

/-- Take the first request of a kind off the queue. -/
def takeReq (p : LearnReq → Bool) (s : State) : Option LearnReq × State :=
  match s.ing.queue.find? p with
  | some r => (some r, { s with ing := { s.ing with queue := s.ing.queue.erase r } })
  | none => (none, s)

/-- LEARN_INSERT (R266). -/
def execLearnInsert (s : State) : Host.Outcome State Fault Refusal :=
  let s := s.begin
  ran (if islUp s (islPIPE 0) then
    match takeReq (fun r => match r with | .mac _ _ => true | _ => false) s with
    | (some (.mac k p), s) => learnInsert k p s
    | (_, s) => s
  else s)

/-- STREAM_LEARN (R273). -/
def execStreamLearn (s : State) : Host.Outcome State Fault Refusal :=
  let s := s.begin
  ran (if islUp s (islPIPE 0) then
    match takeReq (fun r => match r with | .stream _ _ => true | _ => false) s with
    | (some (.stream k t), s) => streamLearn k t s
    | (_, s) => s
  else s)

/-- Seconds since a hit, from the low `w` bits of its second: none where the hit lies ahead, after a backward step of the Last
(notes/assumptions/163.md). -/
def hitAge (w hit sec age : Nat) : Nat :=
  let d := (sec + 2 ^ w - hit % 2 ^ w) % 2 ^ w
  if 2 ^ (w - 1) ≤ d && decide (age < 2 ^ (w - 1)) then 0 else d

/-- AGEING_SWEEP_VISIT (R267, R274): the sweep visits forwarding entry `i`, or (`isCtx`) context `i`. -/
def execAgeingSweepVisit (isCtx : Bool) (i : Nat) (s : State) : Host.Outcome State Fault Refusal :=
  let s := s.begin
  ran (if !islUp s (islPIPE 0) then s
    else if isCtx then
      let age := getF s R.ING_LEARN_CFG_AGE_S
      let old := decide (hitAge 16 (ctxF s i 15 0 16) (nowSec s) age ≥ age)
      let s := if ctxValid s i && ctxF s i 6 63 1 == 1 && age ≠ 0 && old && !(s.ing.dels.any (·.1 == i)) then
          raise R.ING_EVENT_STREAM_AGED (ctxDelete i s) 0 i else s
      if ctxValid s i && ctxF s i 6 21 1 == 1 then (meterRefill i (tblNow s / unitNs) s).2 else s
    else
      let e := tblEntry s 2 i
      let age := getF s R.ING_GCFG_AGE_S
      let old := decide (hitAge 32 (tw e 3) (nowSec s) age ≥ age)
      if bitOf (tw e 2) 31 && !fdbStatic e && age ≠ 0 && old then setTbl 2 i [] s else s)

/-- STREAM_DELETE_CLEAR (R273): 1 µs after the key left the index. -/
def execStreamDeleteClear (c : Nat) (s : State) : Host.Outcome State Fault Refusal :=
  let s := s.begin
  ran (match s.ing.dels.find? fun d => d.1 == c && decide (d.2 ≤ tblNow s) with
    | some d =>
      let (ok, s) := narrowWrite 9 (16 * c) { s with ing := { s.ing with dels := s.ing.dels.erase d } }
      whenS ok (setCtxF c 0 63 1 0) s
    | none => s)

/-! ### Table access and gates -/

/-- A write of ING_TBL_CTL (R516): GO starts one access, which is over at once. -/
def writeIngTbl (val : Nat) (s : State) : State :=
  let t := bitsOf val 25 4
  let i := bitsOf val 0 17
  let s := setF R.ING_TBL_CTL_WRITE (bitsOf val 29 1) (setF R.ING_TBL_CTL_TABLE t (setF R.ING_TBL_CTL_INDEX i s))
  if !bitOf val 31 then s
  else if bitOf val 29 then
    let ws := (List.range 32).map fun k => getF s R.ING_TBL_DATA_WORD k
    let (st, s) := tblWrite t i ws s
    setF R.ING_TBL_CTL_STATUS st s
  else
    let (st, ws) := tblRead s t i
    let s := if st = stDone then tblEcc t i s else s
    setF R.ING_TBL_CTL_STATUS st ((List.range 32).foldl (fun s k => setF R.ING_TBL_DATA_WORD (tw ws k) s k) s)

/-- ING_TABLE_READ (R516). -/
def execIngTableRead (req : Requester) (val : Nat) (s : State) : Host.Outcome State Fault Refusal :=
  ran (writeAt req 0xB0040 (fun _ s => writeIngTbl val s) s.begin)

/-- ING_TABLE_WRITE (R516). -/
def execIngTableWrite (req : Requester) (val : Nat) (s : State) : Host.Outcome State Fault Refusal :=
  ran (writeAt req 0xB0040 (fun _ s => writeIngTbl val s) s.begin)

/-- A write of ING_GATE_COMMIT (R277). -/
def writeGateCommit (val : Nat) (s : State) : State :=
  let g := bitsOf val 0 8
  let s := setF R.ING_GATE_COMMIT_GATE g s
  if bitOf val 31 then gateCommit g s else s

/-- STREAM_GATE_COMMIT (R277). -/
def execStreamGateCommit (req : Requester) (val : Nat) (s : State) : Host.Outcome State Fault Refusal :=
  ran (writeAt req 0xB0044 (fun _ s => writeGateCommit val s) s.begin)

/-- STREAM_GATE_CHANGE (R277): the admin copy's cycle start is reached. -/
def execStreamGateChange (g : Nat) (s : State) : Host.Outcome State Fault Refusal :=
  let s := s.begin
  ran (if islUp s (islPIPE 0) then gateChange g s else s)

end Sys2Proof.Machine
end

