-- ==== Sys2Proof/Machine/Mon.lean ====
section
/-!
DEFINITION. Sys2Proof/Machine/Mon.lean: port counters, bandwidth, histograms, canaries, the margin plan and the ageing log (spec/18).
-/
namespace Sys2Proof.Machine

def bufUpS (s : State) : Bool := islUp s islBUF

/-! ### Counters (R469 to R473) -/

def aboveKey (p k : Nat) : Nat := p * 8 + k

/-- Counter `k` of port `p` and its wrap bit are cleared. -/
def clearCnt (p k : Nat) (wrap : Bool) (s : State) : State :=
  let s := setF (cntFld R.MON_CNT_CNT_HI k) 0 (setF (cntFld R.MON_CNT_CNT_LO k) 0 s p) p
  if wrap then setF R.MON_CNT_WRAP_CNT (putBit (getF s R.MON_CNT_WRAP_CNT p) k false) s p else s

/-- A write of MON_CNT_CFG or MON_CNT_THR of counter `k` (R472). -/
def writeCntCfg (off p val : Nat) (s : State) : State :=
  let k := (off - 0xF0110) / 8
  let s := clearCnt p k true (softWord off val s p)
  { s with mon := { s.mon with above := smPut 0 s.mon.above (aboveKey p k) 0 } }

/-- COUNTER_CFG_WRITE (R472): `thr` names MON_CNT_THR. -/
def execCounterCfgWrite (req : Requester) (k val : Nat) (thr : Bool) (s : State) : Host.Outcome State Fault Refusal :=
  let off := 0xF0110 + 8 * (k % 8) + 4 * b2n thr
  ran (writeAt req off (fun p s => writeCntCfg off p val s) s.begin)

/-- A write of MON_CNT_CTL (R472). -/
def writeCntCtl (p val : Nat) (s : State) : State :=
  (List.range (cntCount s)).foldl (fun s k => if bitOf val k then clearCnt p k false s else s) s

/-- COUNTER_CLEAR (R472). -/
def execCounterClear (req : Requester) (val : Nat) (s : State) : Host.Outcome State Fault Refusal :=
  ran (writeAt req 0xF0108 (fun p s => writeCntCtl p val s) s.begin)

/-- The value that an occupancy event compares (R470). -/
def occValue (s : State) (p code tc sel : Nat) : Option Nat :=
  match code with
  | 0x20 => some (sumCopies s fun _ y => if y.out = p then y.charge else 0)
  | 0x21 => some (aggregate s p tc)
  | 0x22 => some (voqDepth s sel p tc)
  | 0x23 => some (if shaper s p tc = 1 ∨ shaper s p tc = 2 then ((-(egrCls (shaperTouch p tc s) p tc).level) / 256).toNat else 0)
  | 0x24 => some (if gateEna s p && !gateOpen s p tc (now s) then aggregate s p tc else 0)
  | 0x25 => some (sharedUsed s)
  | _ => none

/-- Counter `k` of port `p` at the end of a core cycle (R471). -/
def occCount (p k : Nat) (s : State) : State :=
  match occValue s p (getF s (cntFld R.MON_CNT_CFG_EVENT k) p) (getF s (cntFld R.MON_CNT_CFG_TC k) p) (getF s (cntFld R.MON_CNT_CFG_SEL k) p) with
  | none => s
  | some v =>
    let excess := decide (v > getF s (cntFld R.MON_CNT_THR_N k) p)
    let was := smGet 0 s.mon.above (aboveKey p k) == 2
    let s' := { s with mon := { s.mon with above := smPut 0 s.mon.above (aboveKey p k) (if excess then 2 else 1) } }
    if excess && !(flag s (cntFld R.MON_CNT_CFG_MODE k) p && was) then cntAdd p k 1 s' else s'

/-- CORE_CYCLE_COUNT (R469, R471, R473): one core cycle. -/
def execCoreCycleCount (s : State) : Host.Outcome State Fault Refusal :=
  let s := s.begin
  ran (if !bufUpS s then s
    else
      let ports := (List.range 66).filter (portPresent s)
      let c := s.mon.cyc + 1
      let s := { s with mon := { s.mon with cyc := c % 2 ^ 48 } }
      let s := whenS (c == 2 ^ 48) (fun s => ports.foldl (fun s p => raiseAt R.MON_EVENT_CNT_WRAP 0 p 0 (setF R.MON_CNT_WRAP_CYC 1 s p)) s) s
      if flag s R.MON_GCFG_CNT_ENA then
        ports.foldl (fun s p => (List.range (cntCount s)).foldl (fun s k => occCount p k s) s) s
      else s)

/-! ### Bandwidth (R476) -/

/-- WIN_US as it acts. -/
def winUs (s : State) (p : Nat) : Nat := satN 1000000 (zeroAs 1 (getF s R.MON_BW_CFG_WIN_US p))

/-- The result of a window for one direction. -/
def bwResult (tx : Bool) (p : Nat) (s : State) : State :=
  let v := satN 524287 (smGet 0 s.mon.bw (2 * p + b2n tx) * 8 / winUs s p)
  if tx then setF R.MON_BW_TX_PEAK_MBPS (max v (getF s R.MON_BW_TX_PEAK_MBPS p)) (setF R.MON_BW_TX_LAST_MBPS v s p) p
  else setF R.MON_BW_RX_PEAK_MBPS (max v (getF s R.MON_BW_RX_PEAK_MBPS p)) (setF R.MON_BW_RX_LAST_MBPS v s p) p

/-- A new window of port `p` begins. -/
def bwClear (p : Nat) (s : State) : State :=
  { s with mon := { s.mon with bw := smPut 0 (smPut 0 s.mon.bw (2 * p) 0) (2 * p + 1) 0, bwSkip := s.mon.bwSkip.filter (· ≠ p) } }

/-- The microseconds of BUF's Last copy, by which the windows are taken. -/
def bwMicros (s : State) : Int := copyNow s islBUF / unitNs / 1000

/-- A window boundary of port `p`, which one microsecond holds once. -/
def bwBoundary (s : State) (p : Nat) : Bool :=
  decide (bwMicros s % (winUs s p : Int) = 0) && (s.mon.bwSkip.contains p || smGet (-1) s.mon.bwAt p ≠ bwMicros s)

/-- A WIN_US that waits comes into force at the boundary; the first window of its own begins at its first boundary. -/
def bwReflect (p : Nat) (s : State) : State :=
  let v := smGet noWin s.mon.bwPend p
  if v = noWin then s
  else
    let s := setF R.MON_BW_CFG_WIN_US v { s with mon := { s.mon with bwPend := smPut noWin s.mon.bwPend p noWin } } p
    if bwMicros s % (winUs s p : Int) = 0 then s else { s with mon := { s.mon with bwSkip := s.mon.bwSkip ++ [p] } }

/-- BW_WINDOW_END (R476): a window boundary of port `p`; the window under way when WIN_US changed or a step crossed it has no
result. -/
def execBwWindowEnd (p : Nat) (s : State) : Host.Outcome State Fault Refusal :=
  let s := s.begin
  ran (if bufUpS s && portPresent s p && flag s R.MON_GCFG_CNT_ENA && bwBoundary s p then
    let s := bwClear p (if s.mon.bwSkip.contains p then s else bwResult true p (bwResult false p s))
    bwReflect p { s with mon := { s.mon with bwAt := smPut (-1) s.mon.bwAt p (bwMicros s) } }
  else s)

/-- A write of MON_BW_CFG: a changed WIN_US waits for the next window boundary (R12) and discards the window in progress. -/
def writeBwCfg (p val : Nat) (s : State) : State :=
  let v := val % 2 ^ 20
  if v = getF s R.MON_BW_CFG_WIN_US p then { s with mon := { s.mon with bwPend := smPut noWin s.mon.bwPend p noWin } }
  else
    let s := bwClear p s
    { s with mon := { s.mon with bwSkip := s.mon.bwSkip ++ [p], bwPend := smPut noWin s.mon.bwPend p v } }

/-- A read of a PEAK register (R476). -/
def readPeak (tx : Bool) (p : Nat) (s : State) : Nat × State :=
  if tx then (getF s R.MON_BW_TX_PEAK_MBPS p, setF R.MON_BW_TX_PEAK_MBPS 0 s p)
  else (getF s R.MON_BW_RX_PEAK_MBPS p, setF R.MON_BW_RX_PEAK_MBPS 0 s p)

/-- BW_PEAK_READ (R476). -/
def execBwPeakRead (req : Requester) (tx : Bool) (s : State) : Host.Outcome State Fault Refusal :=
  ran (readWith req (if tx then 0xF01A0 else 0xF0198) (fun p s => readPeak tx p s) s.begin)

/-! ### Histograms (R477, R478) -/

/-- Unit `u` is due a depth sample: one every 2^SPACE core cycles. -/
def histDue (s : State) (u : Nat) : Bool :=
  decide (s.mon.cyc % 2 ^ satN 20 (getF s R.MON_HIST_CFG_SPACE u) = 0) && smGet 0 s.mon.histAt u ≠ s.mon.cyc + 1

/-- HIST_DEPTH_SAMPLE (R477): unit `u`. -/
def execHistDepthSample (u : Nat) (s : State) : Host.Outcome State Fault Refusal :=
  let s := s.begin
  let o := getF s R.MON_HIST_CFG_OUTPUT u
  let c := getF s R.MON_HIST_CFG_TC u
  ran (if bufUpS s && u < 8 && histDue s u then
    let s := { s with mon := { s.mon with histAt := smPut 0 s.mon.histAt u (s.mon.cyc + 1) } }
    match getF s R.MON_HIST_CFG_KIND u with
    | 0 => histAdd u (voqDepth s (getF s R.MON_HIST_CFG_INPUT u) o c) s
    | 2 => histAdd u (aggregate s o c) s
    | 4 => histAdd u (sumCopies s fun _ y => if y.out = o then y.charge else 0) s
    | _ => s
  else s)

/-- Bins, MAX, SAMPLES and SAT of unit `u` are cleared. -/
def histClear (u : Nat) (s : State) : State :=
  let s := (List.range 16).foldl (fun s b => setF (histFld u b) 0 s) s
  setF R.MON_HIST_MAX_MAX 0 (setF R.MON_HIST_STAT_SAMPLES 0 (setF R.MON_HIST_STAT_SAT 0 s u) u) u

/-- A write of MON_HIST_CFG of unit `u`. -/
def writeHistCfg (u val : Nat) (s : State) : State := histClear u (softWord (0xF0400 + 0x80 * u) val s)

/-- HIST_CLEAR (R478): a write of MON_HIST_CFG. -/
def execHistClear (req : Requester) (u val : Nat) (s : State) : Host.Outcome State Fault Refusal :=
  ran (writeAt req (0xF0400 + 0x80 * (u % 8)) (fun _ s => writeHistCfg (u % 8) val s) s.begin)

/-! ### Canaries (R479 to R481) -/

/-- A reading, and whether it is plausible (R480), from what the canary measured: the two counts and the record's q0; the count; k0, k1
and the two counts; the tap, the tap delay and the clock period in ps. -/
def canReading (j : Nat) (a b c d : Int) : Int × Bool :=
  match j with
  | 0 =>
    let q := a * 16777216 / b
    let v := (c - q) * 1000000 / c
    (v, a ≠ 0 && b ≠ 0 && c ≠ 0 && decide (-10000 ≤ v) && decide (v ≤ 200000))
  | 1 => (a, a ≠ 0)
  | 2 =>
    let v := a + b * c / d
    (v, c ≠ 0 && d ≠ 0 && decide (-640 ≤ v) && decide (v ≤ 2400))
  | _ =>
    let v := a * b - c
    (v, decide (-500 ≤ v) && decide (v ≤ 1000))

/-- A limit of canary `i`: `over` beyond it, `clear` back where it re-arms. -/
def canLimit (f : Fld) (i : Nat) (excess clear : Bool) (s : State) : State :=
  let was := smGet false s.mon.tripped i
  let mark (b : Bool) (s : State) : State := { s with mon := { s.mon with tripped := smPut false s.mon.tripped i b } }
  if excess && !was then raiseAt f 0 i 0 (mark true s) else if was && clear then mark false s else s

/-- Limit events of canary `i` (R481). -/
def canLimits (i : Nat) (v : Int) (s : State) : State :=
  let th := sx 16 (getF s R.MON_CAN_LIM_TEMP_HIGH)
  let sm := sx 16 (getF s R.MON_CAN_LIM_SLACK_MIN)
  match i % 4 with
  | 0 => canLimit R.MON_EVENT_AGEING_ALERT i (decide (v > getF s R.MON_CAN_LIM2_AGE_ALERT)) false s
  | 2 => canLimit R.MON_EVENT_TEMP_HIGH i (decide (v > th)) (decide (v < th - 32)) s
  | 3 => canLimit R.MON_EVENT_SLACK_LOW i (decide (v < sm)) (decide (v ≥ sm + 5)) s
  | _ => s

/-- The highest temperature of a site in the intervals of the log. -/
def noteHot (site : Nat) (v : Int) (s : State) : State :=
  let up (l : List (Option Int)) : List (Option Int) := l.modify site fun x => some (match x with | some y => max y v | none => v)
  { s with mon := { s.mon with accS := { s.mon.accS with hot := up s.mon.accS.hot }, accL := { s.mon.accL with hot := up s.mon.accL.hot } } }

/-- The reading's divisors are not 0; where one is, the reading is not VALID and R480 gives no VALUE. -/
def canDivides (j : Nat) (b c d : Int) : Bool :=
  match j with
  | 0 => b ≠ 0 && c ≠ 0
  | 2 => d ≠ 0
  | _ => true

/-- CANARY_MEASURE (R480): canary `i` with its counts and the record's coefficients. -/
def execCanaryMeasure (i : Nat) (a b c d : Int) (s : State) : Host.Outcome State Fault Refusal :=
  let s := s.begin
  ran (if flag s R.MON_CAN_CFG_ENA && i < 32 then
    let (q, ok) := canReading (i % 4) a b c d
    let (v, s) := if canDivides (i % 4) b c d then (q, s) else drawInt s
    let able := apllLocked s 0 && s.sys.recOk
    let s := setF R.MON_CAN_VAL_VALUE (toU 20 v) (setFlag R.MON_CAN_VAL_VALID (able && ok) s i) i
    let s := whenS (able && !ok) (raiseAt R.MON_EVENT_CAN_RANGE 0 i 0) s
    if able && ok then canLimits i v (whenS (i % 4 == 2) (noteHot (i / 4) v) s) else s
  else s)

/-! ### Margin plan (R482 to R484) -/

def sites : List Nat := List.range 8

/-- The least and the largest of some readings. -/
def leastOf (l : List Int) : Option Int := l.foldl (fun a x => some (match a with | some y => min x y | none => x)) none
def mostOf (l : List Int) : Option Int := l.foldl (fun a x => some (match a with | some y => max x y | none => x)) none

/-- MON_AVS drives the regulator (R501, R502): the VID balls in VID mode; in PMBus mode VOUT_COMMAND carries the target, VID2 to VID7 low. -/
def driveAvs (s : State) : State :=
  if flag s R.MON_AVS_MODE then
    let code := getF s R.MON_AVS_CODE
    let s := emit (.pmbus 0x21 (avsUv code)) { s with mon := { s.mon with avsAt := some (copyNow s islMCU) }, sys := { s.sys with vid := some code } }
    (List.range 6).foldl (fun s k => emit (.pin (vidPins.getD (k + 2) "") false) s) s else driveVid s

/-- The code within its range. -/
def clampCode (s : State) (v : Nat) : Nat := min (getF s R.MON_AVS_CODE_MAX) (max (getF s R.MON_AVS_CODE_MIN) v)

/-- The held plan (R483). -/
def planHeld (s : State) : State := raise R.MON_EVENT_PLAN_HELD (setF R.MON_PLAN_HELD 1 s)

/-- AVS code and equaliser margin of a new plan. -/
def planOutputs (s : State) : State :=
  let sMin := leastOf (sites.filterMap fun k => canVal s k 3)
  let target : Int := getF s R.MON_PLAN_CFG_SLACK_TARGET
  let code := getF s R.MON_AVS_CODE
  let eq := getF s R.MON_PLAN_EQ_MARGIN_MV
  let easy := match sMin with | some v => if v > target + 15 then s.mon.easy + 1 else 0 | none => 0
  let want := match sMin with | some v => if v < target then code + 1 else if easy ≥ 10 then code - 1 else code | none => code
  let newCode := clampCode s want
  let newEq := match mostOf ([6, 7].filterMap fun k => canVal s k 0) with
    | some a => (clampI 0 30 (12 + a / 5000 * 2)).toNat
    | none => eq
  let s := { s with mon := { s.mon with easy := if easy ≥ 10 then 0 else easy } }
  let s := setF R.MON_PLAN_HELD 0 (setF R.MON_PLAN_EQ_MARGIN_MV newEq (setF R.MON_AVS_CODE newCode s))
  let s := whenS (newCode ≠ code) driveAvs s
  if newCode ≠ code ∨ newEq ≠ eq then raise R.MON_EVENT_PLAN_CHANGED (bump R.MON_PLAN_GEN s) else s

/-- The recalibrations and refills that a plan requests, one at a time, in ascending lane or channel number; one that the plan before
requested goes on. -/
def planRequests (s : State) : State :=
  let keys := (List.range 64).filter (fun n => (laneWant s n).isSome) ++ ((List.range 24).filter (refillWant s)).map (64 + ·)
  match s.mon.plan with
  | k :: _ => if planRuns s k then { s with mon := { s.mon with plan := k :: keys } } else planNext keys s
  | [] => planNext keys s

/-- PLAN_S seconds have passed since the latest plan (R482). -/
def planTime (s : State) : Bool := decide (s.mon.planAt + zeroAs 1 (getF s R.MON_PLAN_CFG2_PLAN_S) * unitS ≤ copyNow s islMCU)

/-- MARGIN_PLAN (R482, R483). -/
def execMarginPlan (s : State) : Host.Outcome State Fault Refusal :=
  let s := s.begin
  ran (if plans s && planTime s then
    let s := { s with mon := { s.mon with planAt := copyNow s islMCU } }
    let ok := sites.all fun k => (canVal s k 2).isSome && (canVal s k 3).isSome
    planRequests (if ok then planOutputs s else planHeld s)
  else s)

/-- AVS_READBACK_CHECK (R483, R502): the regulator's answer to a change of the target, and its voltage (READ_VOUT) in µV 10 ms after the
change. -/
def execAvsReadbackCheck (reply : AvsReply) (uv : Nat) (s : State) : Host.Outcome State Fault Refusal :=
  let s := s.begin
  let ok := reply.ack && reply.linear
  let due := match s.mon.avsAt with
    | some t => !ok || decide (t + 10000000 * unitNs ≤ copyNow s islMCU)
    | none => false
  ran (if flag s R.MON_AVS_MODE && islUp s islMCU && due then
    let s := emit (.pmbus 0x8B 0) { s with mon := { s.mon with avsAt := none } }
    let bad := !ok || decide (((uv : Int) - avsUv (getF s R.MON_AVS_CODE)).natAbs > 5000)
    if bad then whenS (plans s) planHeld (raise R.MON_EVENT_AVS_FAULT s) else s
  else s)

/-- A write of MON_AVS (R484): CODE acts while AUTO = 0, clamped to its range. -/
def writeAvs (val : Nat) (s : State) : State :=
  let s := whenS (bitOf val 31 && !flag s R.MON_AVS_MODE) (emit (.pmbus 0x20 0)) s
  let s := setF R.MON_AVS_MODE (bitsOf val 31 1) s
  let s := if flag s R.MON_PLAN_CFG_AUTO then s else setF R.MON_AVS_CODE (clampCode s (val % 256)) s
  driveAvs s

/-- AVS_CODE_WRITE (R484): a write of MON_AVS. -/
def execAvsCodeWrite (req : Requester) (val : Nat) (s : State) : Host.Outcome State Fault Refusal :=
  ran (writeAt req 0xF0910 (fun _ s => writeAvs val s) s.begin)

/-! ### Ageing log (R485, R486) -/

/-- `v` where it is known, else a free value. -/
def orFree (v : Option Int) (s : State) : Int × State := match v with | some x => (x, s) | none => drawInt s

/-- The 16 words of the next entry of a ring, and the state after its free values. -/
def logWords (long : Bool) (hours : Nat) (s : State) : List Nat × State :=
  let a := if long then s.mon.accL else s.mon.accS
  let seq := (match logHead s long with | some h => (logEntry s (logBase long + h)).getD 0 0 | none => 0) + 1
  let flags := (if long then 2 else 1) + dpllState s 0 * 4 + b2n (steadyRun s (if long then s.ref.steadyL else s.ref.steadyS) ≥ 2) * 32 + getF s R.REF_DPLL_STAT_SEL_CAND * 64
    + getF s R.REF_XO_STAT_SRC * 1024 + b2n s.tim.lastValid * 2048
  let dc := s.ref.cycles - a.c
  let (w, s) := orFree (if dc ≤ 0 then none else some ((s.ref.wSum - a.w) / dc)) s
  let (hot, s) := sites.foldl (fun (acc : List Int × State) k =>
    let (v, t) := orFree (((a.hot.getD k none)).map (· / 16)) acc.2
    (acc.1 ++ [v], t)) (([] : List Int), s)
  let (slack, s) := orFree (leastOf (sites.filterMap fun k => canVal s k 3)) s
  let age (k : Nat) : Nat := toU 16 (getS s R.MON_CAN_VAL_VALUE (4 * k) / 10)
  let temp (k : Nat) : Nat := toU 8 (hot.getD k 0)
  let sec := s.tim.last.sec
  let ws := [seq, flags, sec % 2 ^ 32, sec / 2 ^ 32 % 65536, hours % 2 ^ 32, satN 0xFFFFFFFF (ceTotal s - a.ce), toU 48 w % 2 ^ 32, toU 48 w / 2 ^ 32]
    ++ (List.range 4).map (fun k => age (2 * k) + age (2 * k + 1) * 65536)
    ++ (List.range 2).map (fun k => temp (4 * k) + temp (4 * k + 1) * 256 + temp (4 * k + 2) * 65536 + temp (4 * k + 3) * 16777216)
    ++ [getF s R.MON_AVS_CODE + getF s R.MON_PLAN_EQ_MARGIN_MV * 256 + toU 16 slack * 65536]
  (ws ++ [crc32 (wordOctets ws)], s)

/-- Write an entry behind the head of its ring; one that fails read-back, with word `word` wrong, leaves its slot open and goes to the next,
`fails` times (R486). -/
def writeLog (long : Bool) (hours fails word : Nat) (s : State) : State :=
  let (e, s) := logWords long hours s
  let n := logLen long
  let next := match logHead s long with | some h => (h + 1) % n | none => 0
  let put (k : Nat) (v : List Nat) (s : State) : State := { s with mon := { s.mon with log := smPut [] s.mon.log (logBase long + k) v } }
  let s := (List.range fails).foldl (fun s k =>
    let (x, s) := drawInt s
    let bad := e.modify (word % 16) fun v => (v + 1 + x.natAbs % (2 ^ 32 - 1)) % 2 ^ 32
    raise R.MON_EVENT_LOG_WRITE_FAIL (put ((next + k) % n) bad s)) s
  let k := (next + fails) % n
  let s := put k e s
  if long then setF R.MON_LOG_STAT_LONG_HEAD k (logBegin true s) else setF R.MON_LOG_STAT_HEAD k (logBegin false s)

/-- The short entries of the last 7 days that the fit uses: seconds and W_MEAN. -/
def fitPoints (s : State) : List (Int × Int) :=
  (List.range 704).filterMap fun k =>
    let e := logEntry s k
    let sec := e.getD 2 0 + e.getD 3 0 * 2 ^ 32
    if logOk e && bitOf (e.getD 1 0) 5 && decide (sec + 604800 > s.tim.last.sec) then
      some ((sec : Int), sx 48 (e.getD 6 0 + e.getD 7 0 % 65536 * 2 ^ 32))
    else none

/-- Sums of a fit: count, x, y, x², xy. -/
structure FitSums where
  n : Int
  x : Int
  y : Int
  xx : Int
  xy : Int
  deriving DecidableEq, Repr

def fitSums (ps : List (Int × Int)) : FitSums :=
  ps.foldl (fun a p => ⟨a.n + 1, a.x + p.1, a.y + p.2, a.xx + p.1 * p.1, a.xy + p.1 * p.2⟩) ⟨0, 0, 0, 0, 0⟩

/-- At least 24 points that span 24 hours. -/
def fitEnough (ps : List (Int × Int)) : Bool :=
  let xs := ps.map fun p => p.1
  match leastOf xs, mostOf xs with
  | some a, some b => decide (24 ≤ ps.length) && decide (86400 ≤ b - a)
  | _, _ => false

/-- The oscillator correction from the least-squares line (R485), rounded to nearest. -/
def xoFit (s : State) : State :=
  let ps := fitPoints s
  if fitEnough ps && islUp s islTIME then
    let f := fitSums ps
    let d := f.n * f.xx - f.x * f.x
    let m := f.n * f.xy - f.x * f.y
    let t : Int := s.tim.last.sec
    let line := rdiv (f.y * d + m * (f.n * t - f.x)) (f.n * d)
    let s := writeXoCorr (toU 48 (-line)) s
    raise R.MON_EVENT_XO_UPDATED (setF R.REF_XO_AGE_AGE (toU 32 (-(rdiv (m * 4096) d))) s)
  else s

/-- The interval of LOG_S seconds that a short entry closes is over. -/
def logTime (s : State) : Bool :=
  decide (s.mon.logAt + (min 86400 (max 60 (getF s R.MON_LOG_CFG_LOG_S)) : Nat) * unitS ≤ copyNow s islMCU)

/-- AGEING_LOG_SHORT (R485): with the power-on hours, and how often the entry fails read-back. -/
def execAgeingLogShort (hours fails word : Nat) (s : State) : Host.Outcome State Fault Refusal :=
  let s := s.begin
  ran (if islUp s islMCU && flag s R.FWT_STATUS_MGMT_RUN && logTime s then xoFit (writeLog false hours fails word s) else s)

/-- Power-on hours of the head of the long ring. -/
def longHours (s : State) : Nat := match logHead s true with | some h => (logEntry s (704 + h)).getD 4 0 | none => 0

/-- AGEING_LOG_LONG (R485): every 2,160 hours of power-on. -/
def execAgeingLogLong (hours fails word : Nat) (s : State) : Host.Outcome State Fault Refusal :=
  let s := s.begin
  ran (if islUp s islMCU && flag s R.FWT_STATUS_MGMT_RUN && longHours s + 2160 ≤ hours then writeLog true hours fails word s else s)

end Sys2Proof.Machine
end

