-- ==== Sys2Proof/Machine/Tdc.lean ====
section
/-!
DEFINITION. Sys2Proof/Machine/Tdc.lean: the commands and events of the TDC (spec/07).
-/
namespace Sys2Proof.Machine

/-- TDC_EDGE_MEASURE (R202 to R213): an edge of source `src`, whose frequency is `hz`, and for each physical channel it reaches (24 is
CHS) the taps it has passed there at its sampling edge. A REFIN passes its prescaler first, whose output is at most 400 MHz (R203). -/
def execTdcEdgeMeasure (src : Nat) (rising : Bool) (hz : Nat) (taps : List (Nat × Nat)) (s : State) : Host.Outcome State Fault Refusal :=
  let s := s.begin
  ran (if !tdcUp s then s
    else if src < 8 then
      if hz > 400000000 * 2 ^ getF s (R.TDC_PRESC_DIV.up (2 * src)) then
        raise R.TDC_EVENT_PRESC_OVERRANGE s (((List.range 24).find? fun n => chActive s n && chSrc s n == src).getD src)
      else
        let (pass, s) := prescale src rising s
        if pass then sourceEdge src rising taps s else s
    else sourceEdge src rising taps s)

/-- TDC_CAL_PAIR (R205, R207): channel `n` takes a calibration pair; 16 bad ones in a row fail it, 16 good ones end that. -/
def calPair (n c1 c2 : Nat) (s : State) : State :=
  let x := tdcCh s n
  let good := pairGood c1 c2
  let x := { x with c1 := c1, c2 := c2, hasPair := true, bad := if good then 0 else satN 16 (x.bad + 1),
                    good := if good then satN 16 (x.good + 1) else 0, g1 := if good then c1 else x.g1,
                    g2 := if good then c2 else x.g2 }
  let fails := !x.calFailed && x.bad == 16
  let s := setTdcCh n { x with calFailed := (x.calFailed && x.good < 16) || fails } s
  let s := whenS fails (fun s => raise R.TDC_EVENT_TDC_CAL_FAIL s n) s
  borrowLate (spareCheck n s)

def execTdcCalPair (n c1 c2 : Nat) (s : State) : Host.Outcome State Fault Refusal :=
  let s := s.begin
  ran (if tdcUp s && n ≤ 24 then calPair n c1 c2 s else s)

/-- TDC_RESULT_DELIVER (R215, R216): the next record in the round robin leaves over the crossings of R23 to TIME and MCU, if they are up;
an EDGE record of a channel with HOST = 1 also goes to the TDC ring. -/
def deliver (s : State) : State :=
  let order := (List.range 24).map fun j => (s.tdc.turn + j) % 24
  match order.find? fun n => !(tdcCh s n).queue.isEmpty with
  | none => s
  | some n =>
    let x := tdcCh s n
    let r := x.queue.headD []
    let s := setTdcCh n { x with queue := x.queue.tail } { s with tdc := { s.tdc with turn := (n + 1) % 24 } }
    let s := emit (.tdc r (crossUp s islTDC islTIME) (crossUp s islTDC islMCU)) s
    if flag s R.TDC_CH_CFG_HOST n && bitsOf (r.getD 3 0) 18 2 == 0 && hostUp s then
      let g := getF s R.HIF_GCFG_TDC_RING
      ringRecord (flag s R.HIF_GCFG_TDC_RING_ENA) g 5 (fun _ => r ++ [0, 0, 0]) (fun o => b2n o * 2 ^ 30)
        (fun s => raise R.HIF_EVENT_TDC_RING_OVF s g) s
    else s

def execTdcResultDeliver (s : State) : Host.Outcome State Fault Refusal :=
  let s := s.begin
  ran (if tdcUp s && (crossUp s islTDC islTIME || crossUp s islTDC islMCU) then deliver s else s)

/-- TDC_ANCHOR_RENEW (R209). -/
def execTdcAnchorRenew (s : State) : Host.Outcome State Fault Refusal :=
  let s := s.begin
  ran (if tdcUp s && timRuns s then anchor s else s)

/-- INTERVAL_ARM (R213): a write of TDC_CH_CFG2. -/
def execIntervalArm (req : Requester) (n val : Nat) (s : State) : Host.Outcome State Fault Refusal :=
  ran (writeAt req (0x91004 + 0x40 * n) (fun _ s => writeChCfg2 n val s) s.begin)

/-- INTERVAL_TIMEOUT (R213): WIN_US after arming one edge is captured and the other is not. -/
def execIntervalTimeout (n : Nat) (s : State) : Host.Outcome State Fault Refusal :=
  let s := s.begin
  ran (if tdcUp s then intervalTimeout n s else s)

/-- TDC_CH_CFG_WRITE (R202). -/
def execTdcChCfgWrite (req : Requester) (n val : Nat) (s : State) : Host.Outcome State Fault Refusal :=
  ran (writeAt req (0x91000 + 0x40 * n) (fun _ s => writeChCfg n val s) s.begin)

/-- PRESCALER_WRITE (R204): a write of TDC_PRESC. -/
def execPrescalerWrite (req : Requester) (val : Nat) (s : State) : Host.Outcome State Fault Refusal :=
  ran (writeAt req 0x90020 (fun _ s => writePresc val s) s.begin)

/-- TDC_REFILL_REQUEST (R218): a write of TDC_REFILL. -/
def execTdcRefillRequest (req : Requester) (val : Nat) (s : State) : Host.Outcome State Fault Refusal :=
  ran (writeAt req 0x9000C (fun _ s => ((List.range 25).filter (bitOf val)).foldl (fun s n => refillAsk n s) s) s.begin)

/-- TDC_REFILL_COMPLETE (R217): the refill of channel `n` has counted its hits into `h`. -/
def execTdcRefillComplete (n : Nat) (h : List Nat) (s : State) : Host.Outcome State Fault Refusal :=
  let s := s.begin
  ran (if tdcUp s then planTurn (borrowLate (refillDone n h s)) else s)

/-- TDC_TABLE_COMMIT (R219): a write of TDC_COMMIT. -/
def execTdcTableCommit (req : Requester) (val : Nat) (s : State) : Host.Outcome State Fault Refusal :=
  ran (writeAt req 0x90010 (fun _ s => ((List.range 25).filter (bitOf val)).foldl (fun s n => commitTable n s) s) s.begin)

/-- The mean of a list, rounded down. -/
def mean10 (l : List Int) : Int := if l.isEmpty then 0 else (l.foldl (· + ·) 0) / (l.length : Int)

/-- An overlap has run for OVERLAP edges or for 1 s. -/
def overlapOver (s : State) (t : Takeover) : Bool :=
  decide (t.diffs.length ≥ overlap s) || decide (now s ≥ t.since + unitS)

/-- TAKEOVER_OVERLAP_END (R221, R222): the offset is fixed and CHS serves the channel. -/
def execTakeoverOverlapEnd (s : State) : Host.Outcome State Fault Refusal :=
  let s := s.begin
  ran (match s.tdc.spare with
    | some t =>
      if tdcUp s && t.step == 1 && overlapOver s t then
        let s := spareStep { t with delta := mean10 t.diffs } 3 (setTdcCh t.ch { tdcCh s t.ch with calChanged := true } s)
        raise R.TDC_EVENT_TAKEOVER (settleSpare s) t.ch
      else s
    | none => s)

/-- TAKEOVER_END (R221, R222): the return overlap ends, CHS is released, and the next waiting request starts. -/
def execTakeoverEnd (s : State) : Host.Outcome State Fault Refusal :=
  let s := s.begin
  ran (match s.tdc.spare with
    | some t =>
      if tdcUp s && t.step == 4 && overlapOver s t then
        let s := setTdcCh t.ch { tdcCh s t.ch with calChanged := true } { s with tdc := { s.tdc with spare := none } }
        borrowLate (nextWait (raise R.TDC_EVENT_TAKEOVER_END (settleCh t.ch s) t.ch))
      else s
    | none => s)

/-- The count that TDC_TBL_ADDR names. -/
def tblData (s : State) : Nat :=
  let n := getF s R.TDC_TBL_ADDR_CH
  (smGet [] (if flag s R.TDC_TBL_ADDR_PEND then s.tdc.pend else s.tdc.tbl) n).getD (getF s R.TDC_TBL_ADDR_BIN) 0

/-- A read of TDC_TBL_DATA: the count, and BIN moves on (R217). -/
def readTblData (req : Requester) (s : State) : State :=
  match gateOf s 0x90034 0 with
  | .pass => bump R.TDC_TBL_ADDR_BIN (emit (.readData req 0x90034 (tblData s)) s)
  | g => emit (.readData req 0x90034 0) (gateEvent g 0x90034 false s)

/-- TDC_TABLE_DATA_READ (R217). -/
def execTdcTableDataRead (req : Requester) (s : State) : Host.Outcome State Fault Refusal :=
  ran (readTblData req s.begin)

end Sys2Proof.Machine
end

