-- ==== Sys2Proof/Machine/Views.lean ====
section
/-!
DEFINITION. Sys2Proof/Machine/Views.lean: what a read returns of the registers that report the engines' state instead of stored fields.
-/
namespace Sys2Proof.Machine

/-- The two words of a signed value of `w` bits. -/
def halfOf (w : Nat) (x : Int) (k : Nat) : Nat := toU w x / 2 ^ (32 * k) % 2 ^ 32

/-! ### SAFE -/

/-- Word `w` of fault record `k` (R454). -/
def recWord (s : State) (k w : Nat) : Nat :=
  match s.flt.recs.getD k none with
  | none => 0
  | some r =>
    match w with
    | 0 => 2 ^ 31 + b2n r.isOpen * 2 ^ 30 + b2n r.escalated * 2 ^ 29 + b2n r.acked * 2 ^ 28 + r.cls % 4 * 2 ^ 26 + r.mode % 4 * 2 ^ 24
        + r.seq % 256 * 2 ^ 16 + r.src % 512
    | 1 => r.inst % 65536 * 2 ^ 16 + r.isl % 32
    | 2 => r.detail % 2 ^ 32
    | 3 => r.mergeMask % 2 ^ 32
    | 4 => r.mergeCnt % 256 * 2 ^ 24 + b2n r.timeValid * 2 ^ 23 + b2n r.deadline.isSome * 2 ^ 22 + r.react % 65536
    | 5 => r.timeNs % 2 ^ 32
    | 6 => r.timeSec % 2 ^ 32
    | 7 => r.timeSec / 2 ^ 32 % 65536 + r.timeFrac % 65536 * 65536
    | 8 => r.safeUs % 2 ^ 32
    | 9 => r.lastIsl % 32 * 2 ^ 20 + r.lastSrc % 512
    | _ => 0

/-- FLT_STATUS. -/
def fltStatus (s : State) : Nat :=
  let (seq, cls) := match openRec s with | some r => (r.seq, r.cls) | none => (0, 0)
  b2n (openRec s).isSome * 2 ^ 31 + svcMode s * 2 ^ 29 + b2n s.flt.aliveRun * 2 ^ 28 + b2n s.flt.fatal * 2 ^ 27
    + seq % 256 * 2 ^ 16 + cls % 4 * 2 ^ 14 + s.flt.newest % 16

/-- FLT_TIMER: whole milliseconds left. -/
def fltTimer (s : State) : Nat :=
  match (openRec s).bind (·.deadline) with | some d => satN 65534 ((d - s.sys.us) / 1000) | none => 65535

def viewSafe (s : State) (off : Nat) : Option Nat :=
  match off with
  | 0x10034 => some ((List.range 4).foldl (fun a n => a + slotCode (slotAt s n) * 4 ^ n) (readFields s off 0))
  | 0x10068 =>
    let w := getF s R.RST_FUSE_ADDR_WORD
    some (if 36 ≤ w ∧ w < 64 then 0 else s.sys.fuse.getD w 0)
  | 0x20000 => some (fltStatus s)
  | 0x2000C => some (fltTimer s)
  | _ =>
    if 0x20040 ≤ off ∧ off < 0x20068 then
      let j := (off - 0x20040) / 4
      some ((List.range 32).foldl (fun a b => a + b2n (sourceReads s (32 * j + b)) * 2 ^ b) 0)
    else if 0x21000 ≤ off ∧ off < 0x21400 then some (recWord s ((off - 0x21000) / 0x40) ((off - 0x21000) / 4 % 16))
    else none

/-! ### HOST -/

def viewHost (s : State) (off i : Nat) : Option Nat :=
  if off = 0x30104 then some (readFields s off i / 256 * 256)
  else if off = 0x3010C then some (readFields s off i / 8 * 8)
  else if off = 0x30028 ∨ off = 0x3002C then
    let a := (off - 0x30028) / 4
    some ((List.range 32).foldl (fun w b => w + b2n (!s.hif.disarmed.contains (32 * a + b)) * 2 ^ b) 0)
  else none

/-! ### TIME -/

/-- TIM_STATUS. -/
def timStatus (s : State) : Nat :=
  b2n s.tim.domHeld * 256 + b2n s.tim.lastValid * 128 + b2n s.tim.welt.valid * 64 + b2n s.tim.converging * 32 + b2n (s.tim.blend.isSome || s.tim.heldAdopt) * 16
    + b2n s.tim.armed * 8 + b2n (s.tim.slewRem ≠ 0) * 4 + b2n s.tim.step.isSome * 2 + b2n s.tim.activeB

/-- TIM_DOMx_STAT (R58; notes/assumptions/175.md). -/
def domStat (s : State) (b : Bool) : Nat :=
  let e := dom s b
  b2n e.fresh * 2 ^ 31 + (if e.posted then satN 0xFFFFFF (domAge s b / unitUs).toNat else 0xFFFFFF)

/-- The offset of a domain at the present Last; 0 before its first estimate. -/
def domOffsetNow (s : State) (b : Bool) : Int := if (dom s b).posted then domOffset s b (nowNs s) else 0

/-- Registers of TIME that are computed; TIM_TARGET and LAST_RESID_NS are rounded toward minus infinity (notes/assumptions/174.md, 176.md). -/
def viewTim (s : State) (off : Nat) : Option Nat :=
  let w := s.tim.welt
  let three (base : Nat) (t : T96) : Option Nat := some (t.word ((off - base) / 4))
  match off with
  | 0x40004 => some (timStatus s)
  | 0x40010 => three 0x40010 (T96.ofUnits (now s))
  | 0x40014 => three 0x40010 (T96.ofUnits (now s))
  | 0x40018 => three 0x40010 (T96.ofUnits (now s))
  | 0x40040 => some (halfOf 48 (rateWord s) 0)
  | 0x40044 => some (halfOf 48 (rateWord s) 1)
  | 0x40058 => some (halfOf 64 (tdiv s.tim.slewRem 4294967296) 0)
  | 0x4005C => some (halfOf 64 (tdiv s.tim.slewRem 4294967296) 1)
  | 0x40070 => some (halfOf 64 (s.tim.target / 4294967296) 0)
  | 0x40074 => some (halfOf 64 (s.tim.target / 4294967296) 1)
  | 0x40078 => some (toU 32 s.tim.targetRate)
  | 0x40110 => three 0x40110 (T96.ofOffset (domOffsetNow s false))
  | 0x40114 => three 0x40110 (T96.ofOffset (domOffsetNow s false))
  | 0x40118 => three 0x40110 (T96.ofOffset (domOffsetNow s false))
  | 0x40120 => some (toU 32 s.tim.domA.rate)
  | 0x40124 => some (domStat s false)
  | 0x40190 => three 0x40190 (T96.ofOffset (domOffsetNow s true))
  | 0x40194 => three 0x40190 (T96.ofOffset (domOffsetNow s true))
  | 0x40198 => three 0x40190 (T96.ofOffset (domOffsetNow s true))
  | 0x401A0 => some (toU 32 s.tim.domB.rate)
  | 0x401A4 => some (domStat s true)
  | 0x40210 => three 0x40210 (T96.ofOffset (if w.init then weltOff w (nowNs s) else 0))
  | 0x40214 => three 0x40210 (T96.ofOffset (if w.init then weltOff w (nowNs s) else 0))
  | 0x40218 => three 0x40210 (T96.ofOffset (if w.init then weltOff w (nowNs s) else 0))
  | 0x40220 => some (toU 32 w.rate)
  | 0x40224 => some (satN 255 w.updates * 2 ^ 24 + satN 0xFFFFFF (w.lastResid / 65536))
  | _ => none

/-- TSU (instance `i` a lane or port). -/
def viewTsu (s : State) (off i : Nat) : Option Nat :=
  match off with
  | 0x50008 => some (readFields s off 0 + s.tim.stepCount % 4 * 16)
  | 0x50010 => some (halfOf 64 (s.tim.stepAmt / 65536) 0)
  | 0x50014 => some (halfOf 64 (s.tim.stepAmt / 65536) 1)
  | 0x50104 => some (readFields s off i + (if flag s R.TSU_STATUS_PORT_ACTIVE i then
      b2n (flag s R.TSU_DESKEW_VALID i) * 64 + b2n (flag s R.TSU_TALLY_LOCK i) * 32 + b2n (flag s R.TSU_TALLY_VALID i) * 16 else 0))
  | _ => none

/-- Port `p` is a timing port: active, locked to the Last, and calibrated (R75, R92, R105). -/
def timingPort (s : State) (p : Nat) : Bool :=
  flag s R.TSU_STATUS_PORT_ACTIVE p && !flag s R.TSU_STATUS_RATE_MATCHED p && flag s R.TSU_STATUS_CAL_VALID p

/-- TX_COHERENT (R135). -/
def txCoherent (s : State) (p : Nat) : Bool := timingPort s p && apllLocked s 1

/-- RX_COHERENT (R135). -/
def rxCoherent (s : State) (p : Nat) : Bool :=
  let c := getF s R.REF_DPLL_STAT_SEL_CAND
  dpllState s 0 == stLOCKED && flag s R.REF_DPLL_STAT_SEL_VALID
    && (synceBound s c == some p && 10 ≤ c && c ≤ 13
        || (c == 8 || c == 9) && (match slaveInst s (c == 9) with | some i => i % 64 == p | none => false))

def viewPte (s : State) (off i : Nat) : Option Nat :=
  match off with
  | 0x60104 =>
    let p := i % 64
    some (readFields s off i + b2n (txCoherent s p && rxCoherent s p) * 2 ^ 14 + b2n (rxCoherent s p) * 2 ^ 13 + b2n (txCoherent s p) * 2 ^ 12)
  | 0x60110 => some (2048 * 2 ^ 16 + satN 4095 (committed s i / 1024))
  | _ => none

/-- REF_CAND_STAT: the stored state, UNCAL, and the age of the qualification. -/
def candStatWord (s : State) (c off : Nat) : Nat :=
  let uncal := (c == 8 || c == 9) && (match slaveInst s (c == 9) with | some i => pteState s i == 8 | none => false)
  let age := match (cand s c).qualSince with
    | some t => if candQual s c then satN 65535 ((now s - t) / unitS).toNat else 0
    | none => 0
  readFields s off 0 + b2n uncal * 2 ^ 27 + age

/-- WTR_REM_S: what the best waiting entry still waits, in seconds rounded up (R155). -/
def wtrRem (s : State) (d : Nat) : Nat :=
  let cur := getF s R.REF_DPLL_STAT_SEL_ENTRY d
  if !flag s R.REF_DPLL_STAT_SEL_VALID d then 0
  else match bestEntry s d fun e => eligible s d e && betterThan s d cur e && !wtrDone s d e with
    | none => 0
    | some e =>
      match (prioEntry s d e).bind fun c => (cand s c).qualSince with
      | some t => satN 65535 ((t + (getF s R.REF_DPLL_CFG_WTR_S d : Int) * unitS - now s + unitS - 1) / unitS).toNat
      | none => 0

/-- REF_CAND_CFG reads ALIGN as 1 where it is fixed (R142). -/
def viewRef (s : State) (off : Nat) : Option Nat :=
  if 0x71000 ≤ off ∧ off < 0x71400 ∧ off % 0x40 = 0 then
    some (putBit (readFields s off 0) 30 (candAlign s ((off - 0x71000) / 0x40)))
  else if off = 0x7000C then some ((List.range 16).foldl (fun a c => a + candState s c * 4 ^ c) 0)
  else if 0x71000 ≤ off ∧ off < 0x71400 ∧ off % 0x40 = 0x20 then some (candStatWord s ((off - 0x71000) / 0x40) off)
  else if 0x72000 ≤ off ∧ off < 0x72400 then
    let d := (off - 0x72000) / 0x100
    let x := dpll s d
    match off % 0x100 with
    | 0x10 => some (readFields s off 0 + wtrRem s d)
    | 0x20 => some (halfOf 64 x.e 0)
    | 0x24 => some (halfOf 64 x.e 1)
    | 0x28 => some (halfOf 64 (x.b / 4294967296) 0)
    | 0x2C => some (halfOf 64 (x.b / 4294967296) 1)
    | 0x30 => some (halfOf 48 (dpllW s d) 0)
    | 0x34 => some (halfOf 48 (dpllW s d) 1)
    | 0x38 => some (halfOf 48 x.hoVal 0)
    | 0x3C => some (halfOf 48 x.hoVal 1)
    | _ => none
  else none

/-! ### SYN, TDC, LNK -/

def viewSyn (s : State) (off : Nat) : Option Nat :=
  if 0x80100 ≤ off ∧ off < 0x80200 ∧ off % 0x40 = 0x10 then some (halfOf 56 (dcoWord s ((off - 0x80100) / 0x40)).1 0)
  else if 0x80100 ≤ off ∧ off < 0x80200 ∧ off % 0x40 = 0x14 then some (halfOf 56 (dcoWord s ((off - 0x80100) / 0x40)).1 1)
  else if 0x80400 ≤ off ∧ off < 0x80700 ∧ off % 0x20 = 0 then
    -- ORIGIN reads 0 in FRAME mode
    let w := readFields s off 0
    some (if bitsOf w 30 2 = 3 then putBit w 24 false else w)
  else if 0x80800 ≤ off ∧ off < 0x80B00 ∧ off % 0x40 = 0x14 then
    let n := (off - 0x80800) / 0x40
    some (readFields s off 0 + b2n (apllLocked s (outApll s n)) * 2 ^ 27)
  else none

def viewTdc (s : State) (off : Nat) : Option Nat :=
  if off = 0x90004 then some (readFields s off 0 + b2n s.sys.recOk * 2 ^ 20)
  else if 0x91000 ≤ off ∧ off < 0x91640 ∧ off % 0x40 = 0x10 then
    some (readFields s off 0 + b2n ((tdcCh s ((off - 0x91000) / 0x40)).armed.any fun a => decide (a ≤ s.tdc.k)) * 2 ^ 27)
  else none

def viewLnk (s : State) (off i : Nat) : Option Nat :=
  if 0xA0100 ≤ off ∧ off < 0xA0200 ∧ off % 0x10 = 8 then some (readFields s off 0 + b2n (quadClk s ((off - 0xA0100) / 0x10)) * 2 ^ 31)
  else if off = 0xA0420 then some (if getF s R.LNK_RAW_CFG_RATE_MULT i = 1360 then readFields s off i else putBit (readFields s off i) 26 false)
  else none

/-! ### PIPE, BUF, EGR, RED -/

def viewIng (s : State) (off : Nat) : Option Nat :=
  match off with
  | 0xB0008 => some (fdbUsed s * 2 ^ 14)
  | 0xB0044 => some (readFields s off 0 + b2n (gateRt s (getF s R.ING_GATE_COMMIT_GATE)).pend.isSome * 2 ^ 30)
  | _ => none

/-- A sump count under BUF_SUMP_IDX.REASON (R306). -/
def sumpRead (s : State) (kind p : Nat) : Nat :=
  let r := getF s R.BUF_SUMP_IDX_REASON
  if r < 32 then sumpGet s kind p r else 0

/-- BUF_PORT_STAT of output `o`. -/
def bufPortStat (s : State) (o : Nat) : Nat :=
  let h := holdOf s o
  let rem := if h.st = 1 then satN 1023 ((h.deadline - now s) / unitMs).toNat else 0
  h.st % 4 * 2 ^ 30 + rem * 2 ^ 20 + satN 0x7FFFF (sumCopies s fun _ y => if y.out = o then y.charge else 0)

def viewBuf (s : State) (off i : Nat) : Option Nat :=
  match off with
  | 0xC0010 => some (freeCells s)
  | 0xC0014 => some (sharedSize s).toNat
  | 0xC0018 => some (satN 0xFFFFFF (sharedUsed s))
  | 0xC0020 => some (b2n s.buf.pend * 2 ^ 30)
  | 0xC0054 => some (sumpRead s 0 0)
  | 0xC0104 => some (bufPortStat s i)
  | 0xC010C => some (satN 0x7FFFF (voqDepth s (getF s R.BUF_VOQ_SEL_INPUT) i (getF s R.BUF_VOQ_SEL_TC)))
  | 0xC0110 => some (sumpRead s 1 i)
  | 0xC0114 => some (sumpRead s 2 i)
  | _ =>
    if 0xC0040 ≤ off ∧ off < 0xC0050 then some (satN 0xFFFFFF (poolUsed s ((off - 0xC0040) / 4)))
    else if 0xC0200 ≤ off ∧ off < 0xC0280 ∧ off % 0x10 = 0xC then some (satN 0x7FFFF (aggregate s i ((off - 0xC0200) / 0x10)))
    else none

def viewEgr (s : State) (off i : Nat) : Option Nat :=
  if gateWord off ∧ i ≥ 64 then some 0
  else match off with
  | 0xD0114 => some (readFields s off i + b2n (gateEna s i && listRuns s i (now s)) * 2 + b2n (egrPort s i).pend.isSome)
  | 0xD016C => some (statesAt s i (now s) * 2 ^ 24 + b2n (holdAt s i (now s)) * 2 ^ 23
      + (if gateEna s i then (match entryAt s i (now s) with | some z => z.idx % 256 | none => 0) else 0))
  | 0xD0174 => some (readFields s off i + b2n (mmActive s i) * 2 ^ 28)
  | _ =>
    if 0xD0200 ≤ off ∧ off < 0xD0280 ∧ off % 0x10 = 0xC then some (toU 32 (levelRead (shaperTouch i ((off - 0xD0200) / 0x10) s) i ((off - 0xD0200) / 0x10)))
    else none

/-- Functions that hold frames. -/
def holding (s : State) : List (Nat × Fn) := s.red.fns.filter fun p => !p.2.held.isEmpty

/-- The lowest function with an event bit set. -/
def eventFn (s : State) : Option Nat :=
  s.regs.foldl (fun a p =>
    if p.1 / 32 % 0x100000 = 0xE011C ∧ p.2 ≠ 0 then
      let n := p.1 / 32 / 0x100000
      match a with | some m => some (min m n) | none => some n
    else a) none

def viewRed (s : State) (off i : Nat) : Option Nat :=
  match off with
  | 0xE0008 => some ((holding s).length * 2 ^ 17 + (holding s).foldl (fun a p => a + p.2.held.length) 0)
  | 0xE0010 => some (match eventFn s with | some n => 2 ^ 31 + n | none => 0)
  | 0xE0118 =>
    let x := fn s i
    some (b2n x.takeAny * 2 ^ 31 + (List.range 4).foldl (fun a k => a + b2n (x.up.getD k false) * 2 ^ (27 + k)) 0
      + satN 31 x.held.length * 2 ^ 22 + x.n % 65536)
  | _ => none

/-! ### MON -/

/-- The memory that MON_ECC_IDX names. -/
def eccMem (s : State) : Nat := getF s R.MON_ECC_IDX_MEM

/-- A report of the memory selected; 0 beyond memory 18. -/
def eccWord (s : State) (off : Nat) : Nat :=
  if eccMem s ≤ 18 then (rowFields off).foldl (fun a r => a + getF s (eccF (rowFld off r)) (eccMem s) * 2 ^ r.lo) 0 else 0

/-- The log entry selected (R487). -/
def logRead (s : State) (w : Nat) : Nat :=
  let long := flag s R.MON_LOG_IDX_LONG
  let e := getF s R.MON_LOG_IDX_ENTRY
  if e < logLen long then (logEntry s (logBase long + e)).getD w 0 else 0

def viewMon (s : State) (off : Nat) : Option Nat :=
  match off with
  | 0xF0100 => some (s.mon.cyc % 2 ^ 32)
  | 0xF0104 => some (s.mon.cyc / 2 ^ 32 % 65536)
  | 0xF0808 => some (eccWord s off)
  | 0xF080C => some (eccWord s off)
  | 0xF0810 => some (eccWord s off)
  | 0xF0818 => some (eccWord s off)
  | _ => if 0xF0940 ≤ off ∧ off < 0xF0980 then some (logRead s ((off - 0xF0940) / 4)) else none

/-- The view of a word, where it has one. -/
def viewOf (s : State) (off i : Nat) : Option Nat :=
  match blockOf off with
  | 1 => viewSafe s off
  | 2 => viewSafe s off
  | 3 => viewHost s off i
  | 4 => viewTim s off
  | 5 => viewTsu s off i
  | 6 => viewPte s off i
  | 7 => viewRef s off
  | 8 => viewSyn s off
  | 9 => viewTdc s off
  | 0xA => viewLnk s off i
  | 0xB => viewIng s off
  | 0xC => viewBuf s off i
  | 0xD => viewEgr s off i
  | 0xE => viewRed s off i
  | 0xF => viewMon s off
  | _ => none

/-- What a read of the word at `off` returns at instance `i`, where no capture is concerned. -/
def viewWord (s : State) (off i : Nat) : Nat := (viewOf s off i).getD (readFields s off i)

end Sys2Proof.Machine
end

