-- ==== Sys2Proof/Machine/Bus.lean ====
section
/-!
DEFINITION. Sys2Proof/Machine/Bus.lean: a write or a read of any register of BAR0 (spec/00 R7 to R17, spec/13 R382 to R385).
-/
namespace Sys2Proof.Machine

/-! ### What a write does beyond storing the word -/

/-- A 96-bit time whose word +0x8 is `off` (R15, R16). -/
def timeEff (req : Requester) (off val : Nat) (f : T96 → State → State) (s : State) (i : Nat := 0) : State :=
  let t := stagedT96 s req (off - 8) val i
  if t.ns > 999999999 then raise R.FLT_GEN_EVENT_TIME_FORMAT s 0 off else f t s

def effSafe (off val : Nat) (s : State) : State :=
  match off with
  | 0x1000C => writeSrcMap val s
  | 0x10020 => writeForce val s
  | 0x10024 => writeRstReq val s
  | 0x10030 => { s with sys := { s.sys with profCfg := some val } }
  | 0x20004 => writeFltCtl val s
  | 0x20008 => writeAck val s
  | _ => softWord off val s

/-- HIF and FWT; `r` is the ring (R358). -/
def effHost (off val r : Nat) (s : State) : State :=
  match off with
  | 0x30020 => armWord 0 val s
  | 0x30024 => armWord 1 val s
  | 0x30114 => writeRingCtl val r s
  | 0x3800C => writeFwtCtl val s
  | _ =>
    if 0x30100 ≤ off ∧ off ≤ 0x30110 then writeRingCfg off val r s
    else softWord off val s (if perInstance off then r else 0)

def effTim (req : Requester) (off val : Nat) (s : State) : State :=
  match off with
  | 0x40000 => writeTimCtl val s
  | 0x40020 => stageWord req off val s
  | 0x40024 => stageWord req off val s
  | 0x40028 => timeEff req off val (fun t s => requestStep true false false t.units s) s
  | 0x40030 => stageWord req off val s
  | 0x40034 => requestStep false false false (stagedS64 s req 0x40030 val * 65536) s
  | 0x40048 => writeSlewCfg val s
  | 0x40050 => stageWord req off val s
  | 0x40054 => addSlew (stagedS64 s req 0x40050 val) s
  | 0x40060 => stageWord req off val s
  | 0x40064 => stageWord req off val s
  | 0x40068 => timeEff req off val (fun t s => timedSwitch (setT96 0x40060 0 t s)) s
  | _ => activityCheck (weltSettings (softWord off val s))

/-- TSU; the asymmetries wait for a tally edge (R104). -/
def effTsu (off val i : Nat) (s : State) : State :=
  match off with
  | 0x50130 => setCalPend i { calPend s i with asymRx := some val } s
  | 0x50134 => setCalPend i { calPend s i with asymTx := some val } s
  | _ => forceAll (softWord off val s (if perInstance off then i else 0))

def effPte (req : Requester) (off val i : Nat) (s : State) : State :=
  match off with
  | 0x60010 => stageWord req off val s
  | 0x60014 => softWord 0x60014 val (softWord 0x60010 (stagedWord s req 0x60010) s)
  | 0x60020 => writeMap false val s
  | 0x60024 => writeMap true val s
  | 0x60100 => writePtePortCfg val i s
  | 0x60104 => writePortState val i s
  | 0x60108 => setPteInst i { pteInst s i with pend := some val } s
  | _ => softWord off val s (if perInstance off then i else 0)

def effRef (req : Requester) (off val : Nat) (s : State) : State :=
  match off with
  | 0x70004 => writeSynceBind val s
  | 0x70008 => writeRefCommit val s
  | 0x70018 => stageWord req off val s
  | 0x7001C => candSample 15 0 (stagedS64 s req 0x70018 val) s
  | 0x70020 => warmUpdate (softWord off val s)
  | 0x70028 => stageWord req off val s
  | 0x7002C => writeXoCorr (stagedWord s req 0x70028 + val % 65536 * 2 ^ 32) s
  | 0x70030 => rateCheck (softWord off val s)
  | _ =>
    if off < 0x71000 then bwCheckAll (softWord off val s)
    else if off < 0x72000 then
      let c := (off - 0x71000) / 0x40
      match off % 0x40 with
      | 0x00 => writeCandCfg c val s
      | 0x04 => stageWord req off val s
      | 0x08 => stageWord req off val s
      | 0x10 => writeCandMon c off val s
      | 0x14 => writeCandMon c off val s
      | 0x18 => writeCandMon c off val s
      | 0x0C => writeCandPeriod c ⟨stagedWord s req (off - 8) + stagedWord s req (off - 4) % 65536 * 2 ^ 32, val % 16777216⟩ s
      | _ => softWord off val s
    else
      let d := (off - 0x72000) / 0x100
      match off % 0x100 with
      | 0x00 => writeDpllCfg d val s
      | 0x0C => writeDpllCtl d val s
      | 0x60 => stageWord req off val s
      | 0x64 => olFreq d (sx 48 (stagedWord s req (off - 4) + val * 2 ^ 32)) s
      | 0x68 => stageWord req off val s
      | 0x6C => olPhase d (stagedS64 s req (off - 4) val) s
      | _ => softWord off val s

/-- A write of a pending twin: the word, and the bit of SYN_PEND (R184). The words of DCO0's nominal, and of APLL1 and APLL2 but for
the BW of APLL1, take no write. -/
def synTwin (off val : Nat) (s : State) : State :=
  let k := off / 0x40 % 4
  if off < 0x80200 then
    if k = 0 ∧ off ≠ 0x80120 then s
    else setF R.SYN_PEND_DCO (putBit (getF s R.SYN_PEND_DCO) k true) (softWord off val s)
  else if off < 0x80300 then
    if k = 0 then setF R.SYN_PEND_APLL1 1 (setF R.SYN_APLL_CFG_PEND_BW (bitsOf val 28 2) s)
    else if k = 1 then s
    else setF (if k = 2 then R.SYN_PEND_APLL3 else R.SYN_PEND_APLL4) 1 (softWord off val s)
  else setF R.SYN_PEND_OUT (putBit (getF s R.SYN_PEND_OUT) ((off - 0x80400) / 0x40) true) (softWord off val s)

def effSyn (req : Requester) (off val : Nat) (s : State) : State :=
  if off = 0x80018 then synCommit val s
  else if 0x80100 ≤ off ∧ off < 0x80700 then (if off % 0x40 ≥ 0x20 then synTwin off val s else s)
  else if 0x80800 ≤ off ∧ off < 0x80B00 then
    match off % 0x40 with
    | 0x00 => writeOutCtl ((off - 0x80800) / 0x40) val s
    | 0x04 => stageWord req off val s
    | 0x08 => stageWord req off val s
    | 0x0C => timeEff req off val (fun t s => setT96 (off - 8) 0 t s) s
    | 0x10 => writeOutDelay ((off - 0x80800) / 0x40) val s
    | _ => softWord off val s
  else if off = 0x80C00 then writeTodCfg val s
  else softWord off val s

def effTdc (off val : Nat) (s : State) : State :=
  match off with
  | 0x90000 => writeTdcCfg val s
  | 0x9000C => ((List.range 25).filter (bitOf val)).foldl (fun s n => refillAsk n s) s
  | 0x90010 => ((List.range 25).filter (bitOf val)).foldl (fun s n => commitTable n s) s
  | 0x90020 => writePresc val s
  | 0x90024 => writeProbeSel val s
  | _ =>
    if off < 0x91000 then softWord off val s
    else
      let n := (off - 0x91000) / 0x40
      match off % 0x40 with
      | 0x00 => writeChCfg n val s
      | 0x04 => writeChCfg2 n val s
      | 0x0C => if chLocked s n then lockedWrite n off s else { s with tdc := { s.tdc with adjs := smPut none s.tdc.adjs n (some val) } }
      | _ => softWord off val s

/-- LNK; a pending twin sets its quad's bit of LNK_PEND. -/
def effLnk (off val n : Nat) (s : State) : State :=
  let pend (q : Nat) (s : State) : State := setF R.LNK_PEND_QUAD (putBit (getF s R.LNK_PEND_QUAD) q true) s
  match off with
  | 0xA000C => lnkCommit val s
  | 0xA0404 => pend (n / 4) (softWord off val s n)
  | 0xA0408 => writeLaneCfg n val s
  | 0xA040C => writeTxeq n val s
  | 0xA0430 => writeRecal n val s
  | _ =>
    if 0xA0100 ≤ off ∧ off < 0xA0200 ∧ off % 0x10 = 4 then pend ((off - 0xA0100) / 0x10) (softWord off val s)
    else softWord off val s (if perInstance off then n else 0)

def effIng (off val i : Nat) (s : State) : State :=
  match off with
  | 0xB0040 => writeIngTbl val s
  | 0xB0044 => writeGateCommit val s
  | _ => softWord off val s (if perInstance off then i else 0)

def effBuf (off val i : Nat) (s : State) : State :=
  let pend (s : State) : State := { s with buf := { s.buf with pend := true } }
  match off with
  | 0xC000C => pend (softWord off val s)
  | 0xC0020 => if bitOf val 31 then admCommit s else s
  | _ =>
    if 0xC0200 ≤ off ∧ off < 0xC0280 ∧ off % 0x10 = 4 then pend (softWord off val s i)
    else softWord off val s (if perInstance off then i else 0)

/-- Gate registers of output `o` (R320 to R325): base, cycle, extension and length keep still while a change is pending (R324). -/
def effGate (req : Requester) (off val o : Nat) (s : State) : State :=
  let quiet (f : State → State) (s : State) : State :=
    if (egrPort s o).pend.isSome then raise R.EGR_PORT_EVENT_GCL_BUSY s o else f s
  match off with
  | 0xD0110 => writeGateCfg o val s
  | 0xD0114 => writeGateCtl o val s
  | 0xD0120 => quiet (fun s => stageWord req off val s o) s
  | 0xD0124 => quiet (fun s => stageWord req off val s o) s
  | 0xD0128 => quiet (fun s => timeEff req off val (fun t s => setT96 0xD0120 0x100000 t s o) s o) s
  | 0xD0170 => mmRestart o (softWord off val s o)
  | _ => quiet (fun s => softWord off val s o) s

def effEgr (req : Requester) (off val o : Nat) (s : State) : State :=
  if off = 0xD0010 then writeEgrTbl req val s
  else if gateWord off then (if hasWritable off || off == 0xD0114 then frontOnly o off (effGate req off val o) s else frontOnly o off id s)
  else if 0xD0200 ≤ off ∧ off < 0xD0280 then
    let c := (off - 0xD0200) / 0x10
    match off % 0x10 with
    | 0x0 => writeClsCfg c val o s
    | 0x4 => setF (clsF R.EGR_CLS_RATE_RATE c) val (shaperTouch o c s) o
    | 0x8 => writeBurst c val o s
    | _ => s
  else softWord off val s (if perInstance off then o else 0)

/-- RED_EVENT is the OR over the functions: bits of RED_EVENT clear in every function, and a function's bit that clears leaves
RED_EVENT to the others. -/
def orEvents (s : State) : State :=
  (List.range 6).foldl (fun s b =>
    setFlag (R.RED_EVENT_ROGUE.up b) (s.regs.any fun p => p.1 / 32 % 0x100000 == 0xE011C && p.1 % 32 == b && p.2 == 1) s) s

def effRed (off val n : Nat) (s : State) : State :=
  match off with
  | 0xE000C =>
    let fns := (s.regs.filter fun p => p.1 / 32 % 0x100000 == 0xE011C).map fun p => p.1 / 32 / 0x100000
    softWord off val (fns.eraseDups.foldl (fun s m => softWord 0xE011C val s m) s)
  | 0xE0100 => writeFnCfg n val s
  | 0xE010C => pathsCheck n (softWord off val s n)
  | 0xE0110 => pathsCheck n (softWord off val s n)
  | 0xE0114 => whenS (bitOf val 31) (fnResetWrite n) s
  | 0xE011C => orEvents (softWord off val s n)
  | _ => softWord off val s (if perInstance off then n else 0)

def effMon (off val p : Nat) (s : State) : State :=
  match off with
  | 0xF0108 => writeCntCtl p val s
  | 0xF0190 => writeBwCfg p val s
  | 0xF0910 => writeAvs val s
  | 0xF082C => injectSettle (softWord off val s)
  | _ =>
    if 0xF0110 ≤ off ∧ off < 0xF0150 then writeCntCfg off p val s
    else if 0xF0400 ≤ off ∧ off < 0xF0800 ∧ off % 0x80 = 0 then writeHistCfg ((off - 0xF0400) / 0x80) val s
    else softWord off val s (if perInstance off then p else 0)

/-- The effect of a write of `val` to the word at `off`, instance `i`, in its owning island (R12). -/
def effect (req : Requester) (off val i : Nat) (s : State) : State :=
  match blockOf off with
  | 3 => effHost off val i s
  | 4 => effTim req off val s
  | 5 => effTsu off val i s
  | 6 => effPte req off val i s
  | 7 => effRef req off val s
  | 8 => effSyn req off val s
  | 9 => effTdc off val s
  | 0xA => effLnk off val i s
  | 0xB => effIng off val i s
  | 0xC => effBuf off val i s
  | 0xD => effEgr req off val i s
  | 0xE => effRed off val i s
  | 0xF => effMon off val i s
  | _ => effSafe off val s

/-- A write of a requester's select register (R382): BCAST and INDEX; it is kept in HOST (R513). -/
def selWrite (req : Requester) (off val : Nat) (s : State) : State :=
  if hostUp s then { s with sels := smPut 0 s.sels (reqKey req off) (bitsOf val 31 1 * 2 ^ 31 + val % 65536) }
  else raise R.FLT_GEN_EVENT_REG_ISLAND_DOWN s islHOST off

/-- A write of an aligned word of BAR0. -/
def busWrite (req : Requester) (off val : Nat) (s : State) : State :=
  let val := val % 2 ^ 32
  if isSel off then selWrite req off val s else writeAt req off (effect req off val) s

/-- A write of `size` octets (R7). -/
def sizedWrite (req : Requester) (off val size : Nat) (s : State) : State :=
  if size ≠ 4 ∨ off % 4 ≠ 0 then raise R.FLT_GEN_EVENT_REG_ACCESS_SIZE s 0 off else busWrite req off val s

/-! ### Reads -/

/-- A read of a select register (R382). -/
def selRead (s : State) (req : Requester) (off : Nat) : Nat :=
  let w := selWord s req off
  w + b2n (instPresent s (blockOf off) (selIndex w)) * 2 ^ 30

/-- The multi-word registers that a read of +0x0 captures (R15): first word, words, how many registers and their distance. -/
def captureRegs : List (Nat × Nat × Nat × Nat) :=
  [(0x40010, 3, 1, 0), (0x40040, 2, 1, 0), (0x40058, 2, 1, 0), (0x40060, 3, 1, 0), (0x40070, 3, 1, 0), (0x40110, 3, 1, 0),
   (0x40190, 3, 1, 0), (0x40210, 3, 1, 0), (0x50010, 2, 1, 0), (0x50150, 4, 1, 0), (0x50160, 4, 1, 0), (0x60010, 2, 1, 0),
   (0x60118, 2, 1, 0), (0x72020, 2, 4, 0x100), (0x72028, 2, 4, 0x100), (0x72030, 2, 4, 0x100), (0x72038, 2, 4, 0x100),
   (0x80110, 2, 4, 0x40), (0x80804, 3, 12, 0x40), (0x80C10, 4, 1, 0), (0x91020, 4, 25, 0x40), (0x38100, 12, 8, 0x40),
   (0x21000, 16, 16, 0x40), (0xD0120, 3, 1, 0), (0xD0130, 3, 1, 0), (0xD0160, 3, 1, 0), (0xF0100, 2, 1, 0), (0xF0150, 2, 8, 8)]

/-- The register that captures the word at `off`: its first word and how many words it has. -/
def captureOf (off : Nat) : Option (Nat × Nat) :=
  captureRegs.findSome? fun c =>
    let d := off - c.1
    let k := if c.2.2.2 = 0 then 0 else d / c.2.2.2
    if c.1 ≤ off ∧ k < c.2.2.1 ∧ d - k * c.2.2.2 < 4 * c.2.1 then some (c.1 + k * c.2.2.2, c.2.1) else none

/-- A counter of line data moves by an amount that no command carries: a free value (R227, R229, notes/assumptions/35.md). -/
def lineAdd (f : Fld) (i : Nat) (s : State) : State := let (v, s) := drawInt s; bump f s i v.natAbs

/-- The counters of codewords and of pattern errors up to a read: a port with FEC counts, but corrects nothing under FEC_BYPASS_CORR; a RAW
lane counts with CHECK_ENA = 1. A programmable counter of events 0x0D and 0x0E counts those codewords too (R470). -/
def lineCount (off i : Nat) (s : State) : State :=
  let fec := isPort s i && portFec s i ≠ 0
  match off with
  | 0xA0448 => whenS (fec && !(flag s R.LNK_PORT_CFG_FEC_BYPASS_CORR i && portFec s i ≥ 2)) (lineAdd R.LNK_CNT_FEC_CORR_COUNT i) s
  | 0xA044C => whenS fec (lineAdd R.LNK_CNT_FEC_UNCORR_COUNT i) s
  | 0xA045C => whenS (portMode s i == 11 && flag s R.LNK_RAW_CFG_CHECK_ENA i) (lineAdd R.LNK_CNT_PRBS_ERR_COUNT i) s
  | _ =>
    let k := (off - 0xF0150) / 8
    let ev := getF s (cntFld R.MON_CNT_CFG_EVENT k) i
    let moves := fec && (ev == 0x0E || (ev == 0x0D && !(flag s R.LNK_PORT_CFG_FEC_BYPASS_CORR i && portFec s i ≥ 2)))
    if 0xF0150 ≤ off ∧ off < 0xF0190 ∧ flag s R.MON_GCFG_CNT_ENA ∧ moves then
      let (v, s) := drawInt s
      cntAdd i k (v.natAbs % 2 ^ 48) s
    else s

/-- A read of one word at instance `i`: the value and what the read does. -/
def readWord (req : Requester) (off i : Nat) (s : State) : Nat × State :=
  match off with
  | 0x90034 => (tblData s, bump R.TDC_TBL_ADDR_BIN s)
  | 0xF0198 => readPeak false i s
  | 0xF01A0 => readPeak true i s
  | 0xF0814 => readLap s
  | _ =>
    match captureOf off with
    | none => let s := lineCount off i s; (viewWord s off i, s)
    | some (base, n) =>
      if off = base then
        let s := if base < 0xF0000 then s else lineCount off i s
        (viewWord s off i, { s with caps := (List.range n).foldl (fun c k =>
          smPut 0 c (instKey req (base + 4 * k) i) (viewWord s (base + 4 * k) i % 2 ^ 32)) s.caps })
      else (smGet 0 s.caps (instKey req off i), s)

/-- A read of the aligned word at `off`: its value and the state after it, with the event of what stops it (R5, R8, R28). -/
def busRead (req : Requester) (off : Nat) (s : State) : Nat × State :=
  if isSel off then (if hostUp s then (selRead s req off, s) else (0, raise R.FLT_GEN_EVENT_REG_ISLAND_DOWN s islHOST off))
  else
    let i := readInst s req off
    match gateOf s off i with
    | .pass => let (v, t) := readWord req off i s; (v % 2 ^ 32, t)
    | g => (0, gateEvent g off false s)

/-! ### Commands -/

/-- REGISTER_WRITE (R7, R12): a write of `size` octets of `val` at offset `off` of BAR0. -/
def execRegisterWrite (req : Requester) (off val size : Nat) (s : State) : Host.Outcome State Fault Refusal :=
  ran (sizedWrite req (off % 0x100000) val size s.begin)

/-- SELECT_WRITE (R382, R383): a write of the select register of a windowed block; another offset is an ordinary write. -/
def execSelectWrite (req : Requester) (off val : Nat) (s : State) : Host.Outcome State Fault Refusal :=
  ran (busWrite req (off % 0x100000 / 4 * 4) val s.begin)

/-- CAPTURE_READ (R7, R15): a read of BAR0; a read that is not aligned returns the octets of the enclosing word. -/
def execCaptureRead (req : Requester) (off : Nat) (s : State) : Host.Outcome State Fault Refusal :=
  let a := off % 0x100000
  let (v, t) := busRead req (a / 4 * 4) s.begin
  ran (emit (.readData req a (v / 256 ^ (a % 4))) t)

/-- TIME_WRITE_COMMIT (R15, R16): a write of the last word of a 96-bit time register. -/
def execTimeWriteCommit (req : Requester) (off val : Nat) (s : State) : Host.Outcome State Fault Refusal :=
  ran (busWrite req (off % 0x100000 / 4 * 4) val s.begin)

/-! ### The I2C target (R384, R385) -/

/-- One octet into the SMBus PEC, polynomial x^8 + x^2 + x + 1 (notes/assumptions/24.md). -/
def pecStep (c o : Nat) : Nat :=
  (List.range 8).foldl (fun c _ => if c ≥ 128 then Nat.xor (c * 2 % 256) 7 else c * 2) (Nat.xor c (o % 256))

def pec (l : List Nat) : Nat := l.foldl pecStep 0

/-- The octets of a transaction up to its offset: address and W, command, offset. -/
def i2cHead (s : State) (cmd off : Nat) : List Nat :=
  [getF s R.HIF_I2C_CFG_ADDR * 2, cmd, off / 65536 % 256, off / 256 % 256, off % 256]

/-- The target answers its address (R384, R385). -/
def i2cOn (s : State) : Bool := hostUp s && flag s R.HIF_I2C_CFG_ENA

/-- I2C_WRITE (R384): command octet, 24-bit offset, four data octets as a word, and the PEC octet where one is sent. -/
def execI2cWrite (cmd off val : Nat) (pec? : Option Nat) (s : State) : Host.Outcome State Fault Refusal :=
  let s := s.begin
  ran (if !i2cOn s || cmd ≠ 1 || off ≥ 0x100000 then emit (.i2c false []) s
    else
      let want := pec (i2cHead s cmd off ++ [val % 256, val / 256 % 256, val / 65536 % 256, val / 16777216 % 256])
      let s := emit (.i2c true []) s
      if flag s R.HIF_I2C_CFG_PEC_ENA && pec? ≠ some want then raise R.HIF_EVENT_I2C_PEC s else sizedWrite .i2c off val 4 s)

/-- Read `n` consecutive words. -/
def i2cWords (off : Nat) : Nat → State → List Nat × State
  | 0, s => ([], s)
  | n + 1, s =>
    let (v, s) := busRead .i2c (off % 0x100000 / 4 * 4) s
    let (l, s) := i2cWords (off + 4) n s
    ([v % 256, v / 256 % 256, v / 65536 % 256, v / 16777216 % 256] ++ l, s)

/-- I2C_READ (R384): command octet, 24-bit offset, 1 to 16 words; with PEC_ENA the PEC octet is appended. -/
def execI2cRead (cmd off n : Nat) (s : State) : Host.Outcome State Fault Refusal :=
  let s := s.begin
  ran (if !i2cOn s || cmd ≠ 2 || off ≥ 0x100000 then emit (.i2c false []) s
    else
      let (l, t) := i2cWords off (min 16 (max 1 n)) s
      let head := i2cHead s cmd off ++ [getF s R.HIF_I2C_CFG_ADDR * 2 + 1]
      emit (.i2c true (l ++ (if flag s R.HIF_I2C_CFG_PEC_ENA then [pec (head ++ l)] else []))) t)

/-- I2C_TIMEOUT (R385): SCL has stayed low for more than 25 ms. -/
def execI2cTimeout (s : State) : Host.Outcome State Fault Refusal :=
  let s := s.begin
  ran (if i2cOn s then raise R.HIF_EVENT_I2C_TIMEOUT s else s)

end Sys2Proof.Machine
end

