-- ==== Sys2Proof/Machine/Prf.lean ====
section
/-!
DEFINITION. Sys2Proof/Machine/Prf.lean: the application of stored profiles (spec/14 R415 to R417).
-/
namespace Sys2Proof.Machine

/-- Write words to consecutive registers as the management controller. -/
def writeRun (off : Nat) : List Nat → State → State
  | [], s => s
  | v :: l, s => writeRun (off + 4) l (busWrite .mcu (off % 0x100000 / 4 * 4) v s)

/-- Write `n` entries of `size` words from index `i` of a table as TBL_WRITE does, up to the first that fails. -/
def writeTblRun (t port size i n : Nat) (ws : List Nat) (s : State) : State :=
  if tblGate s t port n = csOK && entriesPresent s t size ws n then (writeEntries t port size ws i n s).2.2 else s

/-- Apply records in list order (R412, R415, R416), up to a WAIT that is not met or, in a run-time application, a MARK whose instant
is not reached: the words that remain, whether a MARK was met late, and the state. -/
def runRecs (atReset : Bool) (at32 : Option Int) : Nat → List Nat → State → List Nat × Bool × State
  | 0, ws, s => (ws, false, s)
  | _ + 1, [], s => ([], false, s)
  | k + 1, w :: r, s =>
    let n := bitsOf w 20 8 + 1
    let off := w % 2 ^ 20
    match w / 2 ^ 28 with
    | 1 => runRecs atReset at32 k (r.drop n) (writeRun off (r.take n) s)
    | 2 => runRecs atReset at32 k (r.drop 1) (writeRun off (List.replicate n (r.getD 0 0)) s)
    | 3 =>
      let size := if w % 256 ≥ 16 then 4 else 32
      runRecs atReset at32 k (r.drop (1 + n * size)) (writeTblRun (w % 256) (w / 256 % 256) size (r.getD 0 0) n (r.drop 1) s)
    | 4 =>
      let (v, t) := busRead .mcu (off / 4 * 4) s
      if Nat.land v (r.getD 0 0) = r.getD 1 0 then runRecs atReset at32 k (r.drop 3) t else (w :: r, false, t)
    | 5 =>
      if atReset then runRecs atReset at32 k r s
      else match at32 with
        | none => runRecs atReset at32 k r s
        | some t =>
          if t ≤ copyNow s islMCU then
            let (l, _, s) := runRecs atReset at32 k r s
            (l, true, s)
          else (w :: r, false, s)
    | _ => ([], false, s)

/-! ### At a reset (R415) -/

/-- The words of a WAIT that was first met at `since` and has timed out; its limit is at most 100,000 µs (R412). -/
def waitOver (ws : List Nat) (since : Int) (s : State) : Bool :=
  match ws with
  | w :: _ :: _ :: t :: _ => w / 2 ^ 28 == 4 && decide (since + (satN 100000 t : Int) * 1000 * 4294967296 ≤ copyNow s islMCU)
  | _ => false

/-- When the WAIT at the front of `rest` was first met: `old` where the application stood at it before. -/
def waitSince (before rest : List Nat) (old : Int) (s : State) : Int := if before = rest then old else copyNow s islMCU

/-- The records of the profile shadow that remain. -/
def shadowRest (s : State) : List Nat := (profRecords s.sys.prof).drop s.sys.profPos

/-- The application may run: step 7 of R399 is over and the boot ROM has reached its step 6. -/
def profTurn (s : State) : Bool :=
  islUp s islMCU && s.sys.boot == 1 && !s.sys.profDone
    && (List.range 4).all fun k => !islPresent s (islPIPE k) || islReleased s (islPIPE k) || islFenced s (islPIPE k) || islQuar s (islPIPE k)

/-- PROFILE_RESET_APPLY (R415): apply the records from where the application stands; at the end the boot ROM's last steps follow. -/
def execProfileResetApply (s : State) : Host.Outcome State Fault Refusal :=
  let s := s.begin
  ran (if !profTurn s then s
    else
      let all := profRecords s.sys.prof
      let ws := shadowRest s
      let (l, _, s') := runRecs true none (all.length + 1) ws s
      let from_ := waitSince (if s.sys.profWait then ws else []) l s.sys.profWaitAt s'
      let s := s'
      if l.isEmpty then bootFinish s.sys.prof (profileEnds { s with sys := { s.sys with profPos := all.length } })
      else { s with sys := { s.sys with profPos := all.length - l.length, profWait := true, profWaitAt := from_ } })

/-! ### At run time (R416) -/

/-- The completion of a run-time application. -/
def runEnds (x : ProfRun) (st : Nat) (late : Bool) (s : State) : State :=
  let c : Cmd := { irq := x.irq, tag := x.tag, len := 0, data := [], p0 := 0, p1 := 0, p2 := 0 }
  complete x.ring c st [b2n late] [] { s with sys := { s.sys with run := none } }

/-- Go on with a run-time application: its completion, or what remains of it. -/
def runGoes (x : ProfRun) (s : State) : State :=
  let reached := match x.at32 with | some t => decide (t ≤ copyNow s islMCU) | none => true
  let ws := match x.words with
    | w :: r => if w / 2 ^ 28 == 5 && reached then r else w :: r
    | [] => []
  let (l, late, s) := runRecs false x.at32 (ws.length + 1) ws s
  if l.isEmpty then runEnds x csOK (x.late || late) s
  else { s with sys := { s.sys with run := some { x with words := l, late := x.late || late, waitAt := waitSince x.words l x.waitAt s } } }

/-- The activation instant of a command's 12 octets (R14). -/
def runInstant (c : Cmd) : T96 :=
  let l := bufOf c
  T96.ofWords (leAt l 0 4) (leAt l 4 4) (leAt l 8 4)

/-- PROFILE_APPLY (R416): the image is measured (R433), the records before MARK are applied at once, and those after it now or at the
instant given. -/
def execProfileApply (r : Nat) (c : Cmd) (s : State) : Host.Outcome State Fault Refusal :=
  onMcu r c (fun s =>
    let timed := bitOf c.p0 8
    if flag s R.FWT_STATUS_LIMP then finish r c csBAD_STATE s
    else if s.sys.run.isSome then finish r c csBUSY s
    else if c.len ≠ (if timed then 12 else 0) then finish r c csBAD_LENGTH s
    else if timed && (runInstant c).ns > 999999999 then finish r c csBAD_PARAM s
    else match slotImage s (c.p0 % 4) with
      | none => finish r c csBAD_PARAM s
      | some l =>
        let why := profCheck s .run l
        if why ≠ 0 then finish r c csBAD_PARAM (setF R.RST_PROF_STAT_FAIL_CAUSE why s)
        else
          let s := extend 5 4 (Config.sha384 l).toNat s
          let at32 := if timed then some (runInstant c).units else none
          let late := match at32 with | some t => decide (t ≤ copyNow s islMCU) | none => false
          let ws := profRecords l
          -- an image that begins with MARK has no staged records
          let (rest, late', s) := runRecs false at32 (ws.length + 1) ws s
          let x : ProfRun := { ring := r, tag := c.tag, irq := c.irq, words := rest, at32 := at32, late := late || late'
                               since := copyNow s islHOST, waitAt := copyNow s islMCU }
          if rest.isEmpty then runEnds x csOK x.late s else { s with sys := { s.sys with run := some x } }) s

/-- PROFILE_TIMED_APPLY (R416): the waiting application goes on: its instant is reached, or its WAIT is met. -/
def execProfileTimedApply (s : State) : Host.Outcome State Fault Refusal :=
  let s := s.begin
  ran (match s.sys.run with
    | some x => if islUp s islMCU then runGoes x s else s
    | none => s)

/-- PROFILE_WAIT_TIMEOUT (R415): the WAIT at which an application stands has timed out: at a reset the application ends; at run time the
command completes with TIMEOUT (notes/assumptions/25.md). -/
def execProfileWaitTimeout (s : State) : Host.Outcome State Fault Refusal :=
  let s := s.begin
  ran (if profTurn s && s.sys.profWait && waitOver (shadowRest s) s.sys.profWaitAt s then
    bootFinish s.sys.prof (profileEnds (setF R.RST_STATUS_DEGRADED 1 (raise R.RST_EVENT_PROFILE_WAIT_TIMEOUT s)))
  else match s.sys.run with
    | some x =>
      if islUp s islMCU && waitOver x.words x.waitAt s then
        runEnds x csTIMEOUT x.late (raise R.RST_EVENT_PROFILE_WAIT_TIMEOUT s)
      else s
    | none => s)

end Sys2Proof.Machine
end

