-- ==== Sys2Proof/Machine/Stp.lean ====
section
/-!
DEFINITION. Sys2Proof/Machine/Stp.lean: a step of the Last (spec/02): the counter, and what it does to every schedule, relative
deadline and phase of the block (R51, R52, R175, R210). In each definition `a` is the amount S in 2^-32 ns; where a quantity is
held in 2^-16 ns it moves by S rounded toward minus infinity (notes/assumptions/26.md).
-/
namespace Sys2Proof.Machine

/-- S in 2^-16 ns, as TSU_STEP_AMT reports it (R52). -/
def amt16 (a : Int) : Int := a / 65536

/-- The instant moved by S, where there is one. -/
def moved (a : Int) (o : Option Int) : Option Int := o.map (· + a)

/-- Domain offsets change by -S, the instants of their measurement by S (R51, R58). -/
def DomEst.stepped (a : Int) (e : DomEst) : DomEst := { e with offset := e.offset - amt16 a, tMeas := e.tMeas + a }

/-- TIME at a step: every Last copy (R49), the domains, the welt, whose offset is unchanged, and the blend (R51, R66). -/
def timStepped (a : Int) (t : Tim) : Tim :=
  let w := t.welt
  { t with copies := smMap LastCopy.reset (fun c => { c with held := moved a c.held }) t.copies,
           domA := t.domA.stepped a, domB := t.domB.stepped a,
           welt := { w with tLast := w.tLast + a / unitNs },
           blend := t.blend.map fun b => { b with start := b.start + a } }

/-- A phase sample of a candidate: its instant moves, and with ALIGN = 1 its phase by -S (R175). -/
def PSample.stepped (a : Int) (align : Bool) (x : PSample) : PSample :=
  { x with p := if align then x.p - amt16 a else x.p, t := x.t + a }

/-- A candidate (R175): the grid of one with ALIGN = 0 moves by S. -/
def Cand.stepped (a : Int) (align : Bool) (x : Cand) : Cand :=
  { x with origin := if align then x.origin else x.origin.map (· + amt16 a),
           latest := x.latest.map (PSample.stepped a align), start := x.start.map (PSample.stepped a align),
           winAt := x.winAt + a, goodSince := moved a x.goodSince, qualSince := moved a x.qualSince, lastEdge := x.lastEdge + a, lastMsg := x.lastMsg + a }

/-- A DPLL (R166, R175): theta of DPLL1 to DPLL3 decreases by S and b stays; `de` is the change of the phase error of samples that
wait for the next update, whose phase hit test is omitted. -/
def Dpll.stepped (a de : Int) (own : Bool) (x : Dpll) : Dpll :=
  { x with theta := if own then x.theta - 5 * 65536 * a else x.theta, sumE := x.sumE + x.nE * de, lastE := none,
           lastUpd := x.lastUpd + a, lockSince := moved a x.lockSince, avgHist := x.avgHist.map fun v => (v.1 + a, v.2), hoSince := x.hoSince + a,
           freq := { x.freq with lastAt := moved a x.freq.lastAt }, phase := { x.phase with lastAt := moved a x.phase.lastAt } }

/-- The change of the phase error of DPLL `d` at a step (R158, R175), but for what it does to b and the target. -/
def errStep (s : State) (d : Nat) (a : Int) : Int :=
  (if flag s R.REF_DPLL_STAT_SEL_VALID d && candTimeAlign s (getF s R.REF_DPLL_STAT_SEL_CAND d) then - amt16 a else 0)
    + (if d = 0 then 0 else amt16 a)

/-- Candidates, DPLLs and the ageing time of the oscillator (R172, R175). -/
def refStepped (a : Int) (s : State) : State :=
  let r := s.ref
  { s with ref := { r with cands := r.cands.mapIdx fun c x => x.stepped a (candTimeAlign s c),
                           dplls := r.dplls.mapIdx fun d x => x.stepped a (errStep s d a) (d != 0),
                           xoSince := r.xoSince + a } }

/-- The engine: timers, limits and policing move by S; estimates of the history as the domains (R51). -/
def PteInst.stepped (a : Int) (x : PteInst) : PteInst :=
  { x with lastSync := x.lastSync + a, lastAnn := x.lastAnn + a, lastPd := x.lastPd + a, dueDelay := moved a x.dueDelay,
           wait := x.wait.map fun w => { w with limit := w.limit + a }, nrr := x.nrr.map fun r => (r.1, r.2.1 + amt16 a, r.2.2),
           tokenAt := x.tokenAt + a, policed := moved a x.policed, syncAt := x.syncAt + a }

def Grant.stepped (a : Int) (g : Grant) : Grant := { g with expiry := g.expiry + a, last := moved a g.last }

def pteStepped (a : Int) (p : Pte) : Pte :=
  { p with insts := smMapTo PteInst.reset 128 (PteInst.stepped a) p.insts,
           estA := p.estA.map fun e => (e.1 + amt16 a, e.2 - amt16 a), estB := p.estB.map fun e => (e.1 + amt16 a, e.2 - amt16 a),
           partners := p.partners.map fun q => { q with grants := q.grants.map (Grant.stepped a) },
           corr := p.corr.map fun e => { e with at32 := e.at32 + a }, fwAt := p.fwAt + a }

/-- BUF: link holds, the ages of copies and the interval of BUFFER_EXHAUSTED (R51, R302, R304). -/
def bufStepped (a : Int) (b : Buf) : Buf :=
  { b with frames := b.frames.map fun p => (p.1, p.2.map fun x => { x with copies := x.copies.map fun c => { c with enq := c.enq + a } }),
           holds := smMap ⟨0, 0⟩ (fun h => if h.st = 1 then { h with deadline := h.deadline + a } else h) b.holds,
           exhaustedAt := moved a b.exhaustedAt }

def Tx.stepped (a : Int) (t : Tx) : Tx := { t with tS := t.tS + a }

/-- An output of EGR (R51, R324): the oper cycles move; t_c does not, and the cycle that is not begun before it is found again. -/
def EgrPort.stepped (a : Int) (t : Int) (x : EgrPort) : EgrPort :=
  let oper : Option GateList := x.oper.map fun g => { g with base := g.base + a, since := g.since + a }
  let pend : Option GatePend := x.pend.map fun p =>
    let tw := p.tw + a
    let sup := match p.suppress with
      | some c => if c ≤ t then some (c + a) else suppressed oper p.at32 p.acc p.den tw
      | none => suppressed oper p.at32 p.acc p.den tw
    { p with tw := tw, suppress := sup }
  { x with sel := x.sel.map (Tx.stepped a), tx := x.tx.map (Tx.stepped a), ptx := x.ptx.map (Tx.stepped a),
           freeAt := x.freeAt + a, oper := oper, pend := pend, late := x.late.map fun l => (l.1 + a, l.2 + a) }

/-- A recovery function: arrivals and timers (R342, R344 to R346). -/
def Fn.stepped (a : Int) (x : Fn) : Fn :=
  { x with held := x.held.map fun h => (h.1, h.2.1, h.2.2 + a), lastAct := x.lastAct + a, period := x.period + a,
           arrivals := x.arrivals.map (moved a) }

/-- A ring: its timeouts (R372, R380). -/
def Ring.stepped (a : Int) (r : Ring) : Ring := { r with fullSince := moved a r.fullSince, since := moved a r.since }

/-- A stream gate: its cycles move with the Last (R51). -/
def GateRt.stepped (a : Int) (x : GateRt) : GateRt :=
  { x with spans := x.spans.map (fun p => (p.1 + a, p.2)), shift := x.shift + a, since := x.since + a,
           prev := x.prev.map fun p => (p.1, p.2.1, p.2.2 + a) }

/-- The stream gates and the contexts under deletion (R51, R273, R276). -/
def ingStepped (a : Int) (g : Ing) : Ing :=
  { g with gates := smMapTo GateRt.reset 256 (GateRt.stepped a) g.gates,
           dels := g.dels.map fun d => (d.1, d.2 + a) }

/-- An output of SYN: its edges move with the Last, an armed instant does not (R191, R51). -/
def OutRt.stepped (a : Int) (x : OutRt) : OutRt := { x with eNum := x.eNum + a * x.eDen }

def synStepped (a : Int) (y : Syn) : Syn :=
  { y with outs := smMapTo OutRt.reset 12 (OutRt.stepped a) y.outs, todStart := y.todStart + a,
           todBusy := y.todBusy + a, todFrom := y.todFrom + a, edges := y.edges.map (· + a),
           todWait := y.todWait.map fun w => { w with stop := w.stop + a } }

/-- The TDC: L_a changes by S, the counter runs on (R210). -/
def tdcStepped (a : Int) (t : Tdc) : Tdc :=
  { t with anchorL := t.anchorL + a, stepK := some t.k,
           spare := t.spare.map fun p => { p with since := p.since + a } }

/-- Everything but the Last itself: what a step by `a` does to the state (R51). -/
def shiftAll (a : Int) (s : State) : State :=
  let t := now s
  let lnk : Lnk := { s.lnk with since := smMapTo 0 64 (· + a) s.lnk.since, waking := smMap none (moved a) s.lnk.waking }
  let egr : Egr := { s.egr with ports := smMapTo EgrPort.reset 66 (EgrPort.stepped a t) s.egr.ports }
  let mon : Mon := { s.mon with bwSkip := List.range 66, calAt := smMapTo 0 90 (· + a) s.mon.calAt, planAt := s.mon.planAt + a,
                                logAt := s.mon.logAt + a, avsAt := s.mon.avsAt.map (· + a) }
  let s := refStepped a s
  let s := { s with tim := timStepped a s.tim, pte := pteStepped a s.pte, buf := bufStepped a s.buf, egr := egr,
                    red := { s.red with fns := smMapTo Fn.reset 4096 (Fn.stepped a) s.red.fns },
                    sys := { s.sys with run := s.sys.run.map fun x => { x with since := x.since + a, waitAt := x.waitAt + a }, profWaitAt := s.sys.profWaitAt + a },
                    hif := { s.hif with rings := smMap Ring.reset (Ring.stepped a) s.hif.rings },
                    ing := ingStepped a s.ing, syn := synStepped a s.syn, tdc := tdcStepped a s.tdc, lnk := lnk, mon := mon,
                    tallies := smMapTo Tally.reset 64 (fun x => { x with invalidSince := x.invalidSince + a }) s.tallies }
  -- outputs and gate lists read unaligned (R193, R325)
  let s := outIds.foldl (fun s n => setAligned n false s) s
  (List.range 64).foldl (fun s o => setFlag R.EGR_GATE_CTL_ALIGNED false s o) s

/-- An adopt step brings the target to 0 (R67). -/
def adoptZero (s : State) : State :=
  let x := dpll s 0
  let z := s.tim.target / 4294967296
  setDpll 0 { x with sumE := x.sumE + x.nE * z } { s with tim := { s.tim with target := 0 } }

/-- The step of a re-alignment of DPLL0 brings b to 0 (R167). -/
def realignZero (s : State) : State :=
  let x := dpll s 0
  if x.realignStep then
    raise R.REF_DPLL_EVENT_REALIGN_DONE
      (setDpll 0 { x with b := 0, realignStep := false, realign := false, sumE := x.sumE + x.nE * (x.b / 4294967296) } s) 0
  else s

/-- A held adopt step is requested in the TIME cycle after the step instant (R67). -/
def heldAdoptStep (s : State) : State :=
  if s.tim.heldAdopt then
    let t := s.tim.last.tick.units
    { s with tim := { s.tim with heldAdopt := false, step := some ⟨stepInstant t, false, s.tim.target / 65536, true, false, s.tim.cyc⟩ } }
  else s

/-- The size of step `q` in 2^-32 ns, from the Last as it is. -/
def stepSize (q : StepReq) (s : State) : Int := if q.absolute then q.value - now s else q.value

/-- The Last after step `q`, and the count of steps (R49, R52): an absolute set clears the residue. -/
def stepLast (q : StepReq) (a : Int) (s : State) : State :=
  { s with tim := { s.tim with last := if q.absolute then Last.ofUnits q.value 0 else Last.ofUnits (now s + a) s.tim.last.res
                               lastValid := true, step := none, stepCount := (s.tim.stepCount + 1) % 2 ^ 32, stepAmt := a
                               stepCyc := some s.tim.cyc, stepPre := s.tim.last.fifths } }

/-- The pending step `q` takes effect (R49 to R52): LAST_STEPPED, and the first one after COLD makes the Last valid (R43). -/
def applyStep (q : StepReq) (s : State) : State :=
  let s := raise R.TIM_EVENT_LAST_STEPPED (stepLast q (stepSize q s) (shiftAll (stepSize q s) s))
  let s := whenS q.adopt adoptZero s
  -- a switch whose instant is reached follows the step (R69)
  whenS (timUp s) timedSwitch (heldAdoptStep (realignZero s))

/-- STEP_APPLY (R49): the Last reaches the instant of the pending step. -/
def execStepApply (s : State) : Host.Outcome State Fault Refusal :=
  let s := s.begin
  ran (match s.tim.step with
    | some q => if timRuns s && decide (q.instant ≤ now s) then applyStep q s else s
    | none => s)

end Sys2Proof.Machine
end

