-- ==== Sys2Proof/Machine/Dispatch.lean ====
section
/-!
DEFINITION. Sys2Proof/Machine/Dispatch.lean: the meaning of each command, one arm per constructor of Instr.
-/
namespace Sys2Proof.Machine

def exec (i : Instr) (s : State) : Host.Outcome State Fault Refusal :=
  match i with
  | .registerWrite req off val size => Sys2Proof.Machine.execRegisterWrite req off val size s
  | .selectWrite req off val => Sys2Proof.Machine.execSelectWrite req off val s
  | .captureRead req off => Sys2Proof.Machine.execCaptureRead req off s
  | .timeWriteCommit req off val => Sys2Proof.Machine.execTimeWriteCommit req off val s
  | .bar0AccessTimeout off acc => Sys2Proof.Machine.execBar0AccessTimeout off acc s
  | .islandClockLoss isl => Sys2Proof.Machine.execIslandClockLoss isl s
  | .islandClockReturn isl => Sys2Proof.Machine.execIslandClockReturn isl s
  | .crossingUp src dst => Sys2Proof.Machine.execCrossingUp src dst s
  | .crossingDeliver src dst word => Sys2Proof.Machine.execCrossingDeliver src dst word s
  | .crossingHang src dst => Sys2Proof.Machine.execCrossingHang src dst s
  | .lastIncrement => Sys2Proof.Machine.execLastIncrement s
  | .stepRequest req hi => Sys2Proof.Machine.execStepRequest req hi s
  | .lastSetRequest req hi => Sys2Proof.Machine.execLastSetRequest req hi s
  | .servoPhaseCorrection amount => Sys2Proof.Machine.execServoPhaseCorrection amount s
  | .stepApply => Sys2Proof.Machine.execStepApply s
  | .slewRequest req hi => Sys2Proof.Machine.execSlewRequest req hi s
  | .slewCfgWrite req val => Sys2Proof.Machine.execSlewCfgWrite req val s
  | .slewDone => Sys2Proof.Machine.execSlewDone s
  | .domainEstimatePost domB est => Sys2Proof.Machine.execDomainEstimatePost domB est s
  | .domainStale domB => Sys2Proof.Machine.execDomainStale domB s
  | .domainSwitchRequest req val => Sys2Proof.Machine.execDomainSwitchRequest req val s
  | .switchArm req val => Sys2Proof.Machine.execSwitchArm req val s
  | .switchCancel req val => Sys2Proof.Machine.execSwitchCancel req val s
  | .switchTimeWrite req hi => Sys2Proof.Machine.execSwitchTimeWrite req hi s
  | .timedSwitchInstant => Sys2Proof.Machine.execTimedSwitchInstant s
  | .domainRelease req val => Sys2Proof.Machine.execDomainRelease req val s
  | .weltEnaWrite req val => Sys2Proof.Machine.execWeltEnaWrite req val s
  | .blendEnd => Sys2Proof.Machine.execBlendEnd s
  | .convergeDone => Sys2Proof.Machine.execConvergeDone s
  | .tallyMeasurement n phi u0 => Sys2Proof.Machine.execTallyMeasurement n phi u0 s
  | .cdrLockAcquire n => Sys2Proof.Machine.execCdrLockAcquire n s
  | .cdrLockLoss n => Sys2Proof.Machine.execCdrLockLoss n s
  | .frameReceive p preempt octets uDet age early => Sys2Proof.Machine.execFrameReceive p preempt octets uDet age early s
  | .frameEndReceive f rest rxError => Sys2Proof.Machine.execFrameEndReceive f rest rxError s
  | .alignmentLock p d => Sys2Proof.Machine.execAlignmentLock p d s
  | .calConstantApply edge => Sys2Proof.Machine.execCalConstantApply edge s
  | .domainMapWrite req domB val => Sys2Proof.Machine.execDomainMapWrite req domB val s
  | .intervalWrite req val => Sys2Proof.Machine.execIntervalWrite req val s
  | .portStateWrite req w => Sys2Proof.Machine.execPortStateWrite req w s
  | .portEnableWrite req val => Sys2Proof.Machine.execPortEnableWrite req val s
  | .tallyInvalidTimeout p => Sys2Proof.Machine.execTallyInvalidTimeout p s
  | .syncTransmit inst dest => Sys2Proof.Machine.execSyncTransmit inst dest s
  | .announceTransmit inst out => Sys2Proof.Machine.execAnnounceTransmit inst out s
  | .pdelayReqTransmit inst => Sys2Proof.Machine.execPdelayReqTransmit inst s
  | .delayReqTransmit inst => Sys2Proof.Machine.execDelayReqTransmit inst s
  | .txTimeReturn port back uIns => Sys2Proof.Machine.execTxTimeReturn port back uIns s
  | .followUpTransmit inst => Sys2Proof.Machine.execFollowUpTransmit inst s
  | .syncReceive f => Sys2Proof.Machine.execSyncReceive f s
  | .followUpReceive f => Sys2Proof.Machine.execFollowUpReceive f s
  | .delayReqReceive f => Sys2Proof.Machine.execDelayReqReceive f s
  | .delayRespReceive f => Sys2Proof.Machine.execDelayRespReceive f s
  | .delayReqTimeout inst => Sys2Proof.Machine.execDelayReqTimeout inst s
  | .pdelayReqReceive f => Sys2Proof.Machine.execPdelayReqReceive f s
  | .pdelayRespReceive f => Sys2Proof.Machine.execPdelayRespReceive f s
  | .generalMessageReceive f => Sys2Proof.Machine.execGeneralMessageReceive f s
  | .transparentForward f => Sys2Proof.Machine.execTransparentForward f s
  | .fupEntryTimeout => Sys2Proof.Machine.execFupEntryTimeout s
  | .syncTimeout inst => Sys2Proof.Machine.execSyncTimeout inst s
  | .unicastRequest inst addr pid mtype log dur => Sys2Proof.Machine.execUnicastRequest inst addr pid mtype log dur s
  | .unicastCancel inst addr pid mtype => Sys2Proof.Machine.execUnicastCancel inst addr pid mtype s
  | .grantExpiry inst => Sys2Proof.Machine.execGrantExpiry inst s
  | .candidatePhaseSample c tm val => Sys2Proof.Machine.execCandidatePhaseSample c tm val s
  | .candidateActivityLoss c => Sys2Proof.Machine.execCandidateActivityLoss c s
  | .freqWindowClose c => Sys2Proof.Machine.execFreqWindowClose c s
  | .waitToRestoreExpiry d => Sys2Proof.Machine.execWaitToRestoreExpiry d s
  | .prioTableCommit req val => Sys2Proof.Machine.execPrioTableCommit req val s
  | .dpllModeWrite req d val => Sys2Proof.Machine.execDpllModeWrite req d val s
  | .dpllHoldoverRequest req d val => Sys2Proof.Machine.execDpllHoldoverRequest req d val s
  | .dpllForce req d val => Sys2Proof.Machine.execDpllForce req d val s
  | .dpllRealign req d val => Sys2Proof.Machine.execDpllRealign req d val s
  | .realignDone d => Sys2Proof.Machine.execRealignDone d s
  | .dpllLoopUpdate d => Sys2Proof.Machine.execDpllLoopUpdate d s
  | .holdoverAvgUpdate d => Sys2Proof.Machine.execHoldoverAvgUpdate d s
  | .holdoverWUpdate d => Sys2Proof.Machine.execHoldoverWUpdate d s
  | .holdoverValid d => Sys2Proof.Machine.execHoldoverValid d s
  | .olFreqWrite req d hi => Sys2Proof.Machine.execOlFreqWrite req d hi s
  | .olPhaseWrite req d hi => Sys2Proof.Machine.execOlPhaseWrite req d hi s
  | .olWriteApply d isPhase => Sys2Proof.Machine.execOlWriteApply d isPhase s
  | .hostPhaseWrite req hi => Sys2Proof.Machine.execHostPhaseWrite req hi s
  | .xoCorrWrite req hi => Sys2Proof.Machine.execXoCorrWrite req hi s
  | .xoStabilitySample xin => Sys2Proof.Machine.execXoStabilitySample xin s
  | .ocxoWarmPin level => Sys2Proof.Machine.execOcxoWarmPin level s
  | .candCfgWrite req c val => Sys2Proof.Machine.execCandCfgWrite req c val s
  | .candPeriodWrite req c hi => Sys2Proof.Machine.execCandPeriodWrite req c hi s
  | .synceBindWrite req val => Sys2Proof.Machine.execSynceBindWrite req val s
  | .apllLock j us => Sys2Proof.Machine.execApllLock j us s
  | .apllUnlock j => Sys2Proof.Machine.execApllUnlock j s
  | .synCommit req val => Sys2Proof.Machine.execSynCommit req val s
  | .outputChangeApply n => Sys2Proof.Machine.execOutputChangeApply n s
  | .outputStart req n val => Sys2Proof.Machine.execOutputStart req n val s
  | .outputStartInstant n => Sys2Proof.Machine.execOutputStartInstant n s
  | .outputStop req n val => Sys2Proof.Machine.execOutputStop req n val s
  | .outputStopComplete n => Sys2Proof.Machine.execOutputStopComplete n s
  | .outputRealign req n val => Sys2Proof.Machine.execOutputRealign req n val s
  | .alignDone n eps => Sys2Proof.Machine.execAlignDone n eps s
  | .todOutMessage => Sys2Proof.Machine.execTodOutMessage s
  | .todInMessage octets => Sys2Proof.Machine.execTodInMessage octets s
  | .todUnpaired => Sys2Proof.Machine.execTodUnpaired s
  | .tdcEdgeMeasure src rising hz taps => Sys2Proof.Machine.execTdcEdgeMeasure src rising hz taps s
  | .tdcCalPair n c1 c2 => Sys2Proof.Machine.execTdcCalPair n c1 c2 s
  | .tdcResultDeliver => Sys2Proof.Machine.execTdcResultDeliver s
  | .tdcAnchorRenew => Sys2Proof.Machine.execTdcAnchorRenew s
  | .intervalArm req n val => Sys2Proof.Machine.execIntervalArm req n val s
  | .intervalTimeout n => Sys2Proof.Machine.execIntervalTimeout n s
  | .tdcChCfgWrite req n val => Sys2Proof.Machine.execTdcChCfgWrite req n val s
  | .prescalerWrite req val => Sys2Proof.Machine.execPrescalerWrite req val s
  | .tdcRefillRequest req val => Sys2Proof.Machine.execTdcRefillRequest req val s
  | .tdcRefillComplete n h => Sys2Proof.Machine.execTdcRefillComplete n h s
  | .tdcTableCommit req val => Sys2Proof.Machine.execTdcTableCommit req val s
  | .takeoverOverlapEnd => Sys2Proof.Machine.execTakeoverOverlapEnd s
  | .takeoverEnd => Sys2Proof.Machine.execTakeoverEnd s
  | .tdcTableDataRead req => Sys2Proof.Machine.execTdcTableDataRead req s
  | .lnkCommit req val => Sys2Proof.Machine.execLnkCommit req val s
  | .signalDetect n => Sys2Proof.Machine.execSignalDetect n s
  | .signalLoss n => Sys2Proof.Machine.execSignalLoss n s
  | .linkTrainingDone p eqs => Sys2Proof.Machine.execLinkTrainingDone p eqs s
  | .ltFail p => Sys2Proof.Machine.execLtFail p s
  | .linkConditionsMet link => Sys2Proof.Machine.execLinkConditionsMet link s
  | .linkUp p => Sys2Proof.Machine.execLinkUp p s
  | .linkDown p cause => Sys2Proof.Machine.execLinkDown p cause s
  | .sgmiiControlWord p mbps => Sys2Proof.Machine.execSgmiiControlWord p mbps s
  | .laneCfgWrite req val => Sys2Proof.Machine.execLaneCfgWrite req val s
  | .txeqWrite req val => Sys2Proof.Machine.execTxeqWrite req val s
  | .ebIdleAdjust n fill => Sys2Proof.Machine.execEbIdleAdjust n fill s
  | .ebSlip n => Sys2Proof.Machine.execEbSlip n s
  | .lpiRx p => Sys2Proof.Machine.execLpiRx p s
  | .powerUpCalibration quads lanes outs us => Sys2Proof.Machine.execPowerUpCalibration quads lanes outs us s
  | .recalPartial req val => Sys2Proof.Machine.execRecalPartial req val s
  | .recalFull req val => Sys2Proof.Machine.execRecalFull req val s
  | .recalComplete fin => Sys2Proof.Machine.execRecalComplete fin s
  | .ingressHead f => Sys2Proof.Machine.execIngressHead f s
  | .ingressTailPass f => Sys2Proof.Machine.execIngressTailPass f s
  | .learnInsert => Sys2Proof.Machine.execLearnInsert s
  | .streamLearn => Sys2Proof.Machine.execStreamLearn s
  | .ageingSweepVisit isCtx inst => Sys2Proof.Machine.execAgeingSweepVisit isCtx inst s
  | .streamDeleteClear c => Sys2Proof.Machine.execStreamDeleteClear c s
  | .ingTableRead req val => Sys2Proof.Machine.execIngTableRead req val s
  | .ingTableWrite req val => Sys2Proof.Machine.execIngTableWrite req val s
  | .streamGateCommit req val => Sys2Proof.Machine.execStreamGateCommit req val s
  | .streamGateChange g => Sys2Proof.Machine.execStreamGateChange g s
  | .bufAdmission f => Sys2Proof.Machine.execBufAdmission f s
  | .frameStoreComplete f => Sys2Proof.Machine.execFrameStoreComplete f s
  | .linkHoldExpiry o => Sys2Proof.Machine.execLinkHoldExpiry o s
  | .bufAdmissionCommit req val => Sys2Proof.Machine.execBufAdmissionCommit req val s
  | .egressSelection o ts => Sys2Proof.Machine.execEgressSelection o ts s
  | .frameTxStart o back uIns => Sys2Proof.Machine.execFrameTxStart o back uIns s
  | .frameTxEnd o pre => Sys2Proof.Machine.execFrameTxEnd o pre s
  | .shaperRateWrite req c val => Sys2Proof.Machine.execShaperRateWrite req c val s
  | .shaperCfgWrite req c val burst => Sys2Proof.Machine.execShaperCfgWrite req c val burst s
  | .gateEntryChange o late => Sys2Proof.Machine.execGateEntryChange o late s
  | .macHoldStart o => Sys2Proof.Machine.execMacHoldStart o s
  | .gateEnableWrite req val => Sys2Proof.Machine.execGateEnableWrite req val s
  | .gateCommit req val => Sys2Proof.Machine.execGateCommit req val s
  | .gateCancel req val => Sys2Proof.Machine.execGateCancel req val s
  | .gateRealign req val => Sys2Proof.Machine.execGateRealign req val s
  | .gateConfigChange o => Sys2Proof.Machine.execGateConfigChange o s
  | .mmVerifyEnd o ok => Sys2Proof.Machine.execMmVerifyEnd o ok s
  | .egrTableRead req val => Sys2Proof.Machine.execEgrTableRead req val s
  | .egrTableWrite req val => Sys2Proof.Machine.execEgrTableWrite req val s
  | .frerDescriptor f => Sys2Proof.Machine.execFrerDescriptor f s
  | .reseqTimeout n => Sys2Proof.Machine.execReseqTimeout n s
  | .takeAny n => Sys2Proof.Machine.execTakeAny n s
  | .frerFunctionReset req val => Sys2Proof.Machine.execFrerFunctionReset req val s
  | .frerCfgWrite req val => Sys2Proof.Machine.execFrerCfgWrite req val s
  | .latentError n => Sys2Proof.Machine.execLatentError n s
  | .pathDown n inst => Sys2Proof.Machine.execPathDown n inst s
  | .ringDoorbell addr size val => Sys2Proof.Machine.execRingDoorbell addr size val s
  | .ringStart req val => Sys2Proof.Machine.execRingStart req val s
  | .ringStop req val => Sys2Proof.Machine.execRingStop req val s
  | .ringStopped r => Sys2Proof.Machine.execRingStopped r s
  | .ringReset req val => Sys2Proof.Machine.execRingReset req val s
  | .vectorRearm req adit a val => Sys2Proof.Machine.execVectorRearm req adit a val s
  | .irqModerationTimer r => Sys2Proof.Machine.execIrqModerationTimer r s
  | .msixUnmask v => Sys2Proof.Machine.execMsixUnmask v s
  | .cmdBadOpcode r op c => Sys2Proof.Machine.execCmdBadOpcode r op c s
  | .nop r c => Sys2Proof.Machine.execNop r c s
  | .tblRead r c => Sys2Proof.Machine.execTblRead r c s
  | .tblWrite r c => Sys2Proof.Machine.execTblWrite r c s
  | .fdbFlush r c => Sys2Proof.Machine.execFdbFlush r c s
  | .streamAdd r c => Sys2Proof.Machine.execStreamAdd r c s
  | .streamDelete r c => Sys2Proof.Machine.execStreamDelete r c s
  | .streamModify r c => Sys2Proof.Machine.execStreamModify r c s
  | .streamRead r c => Sys2Proof.Machine.execStreamRead r c s
  | .dpllFreq r c => Sys2Proof.Machine.execDpllFreq r c s
  | .dpllPhase r c => Sys2Proof.Machine.execDpllPhase r c s
  | .hostSample r c => Sys2Proof.Machine.execHostSample r c s
  | .profileApply r c => Sys2Proof.Machine.execProfileApply r c s
  | .profileTimedApply => Sys2Proof.Machine.execProfileTimedApply s
  | .profileWrite r c => Sys2Proof.Machine.execProfileWrite r c s
  | .profileRead r c => Sys2Proof.Machine.execProfileRead r c s
  | .fwDownload r c => Sys2Proof.Machine.execFwDownload r c s
  | .attest r c => Sys2Proof.Machine.execAttest r c s
  | .flashRead r c => Sys2Proof.Machine.execFlashRead r c s
  | .flashProgram r c err => Sys2Proof.Machine.execFlashProgram r c err s
  | .flashErase r c err => Sys2Proof.Machine.execFlashErase r c err s
  | .resetReq r c => Sys2Proof.Machine.execResetReq r c s
  | .cmdTimeout r op c => Sys2Proof.Machine.execCmdTimeout r op c s
  | .txFrameFetch r d => Sys2Proof.Machine.execTxFrameFetch r d s
  | .rxFrameDeliver r bufLen => Sys2Proof.Machine.execRxFrameDeliver r bufLen s
  | .rxStall r => Sys2Proof.Machine.execRxStall r s
  | .eventRecordWrite => Sys2Proof.Machine.execEventRecordWrite s
  | .dmaError r status => Sys2Proof.Machine.execDmaError r status s
  | .busMasterEnable on => Sys2Proof.Machine.execBusMasterEnable on s
  | .i2cWrite cmd off val pec => Sys2Proof.Machine.execI2cWrite cmd off val pec s
  | .i2cRead cmd off n => Sys2Proof.Machine.execI2cRead cmd off n s
  | .i2cTimeout => Sys2Proof.Machine.execI2cTimeout s
  | .pcieHot => Sys2Proof.Machine.execPcieHot s
  | .pcieLinkdown => Sys2Proof.Machine.execPcieLinkdown s
  | .pcieD3 => Sys2Proof.Machine.execPcieD3 s
  | .powerOn dip straps => Sys2Proof.Machine.execPowerOn dip straps s
  | .resetNAccept us => Sys2Proof.Machine.execResetNAccept us s
  | .resetNGlitch us => Sys2Proof.Machine.execResetNGlitch us s
  | .rstRequest req val => Sys2Proof.Machine.execRstRequest req val s
  | .srcMapWrite req val => Sys2Proof.Machine.execSrcMapWrite req val s
  | .resetStretchEnd isl pin => Sys2Proof.Machine.execResetStretchEnd isl pin s
  | .islandRelease isl us => Sys2Proof.Machine.execIslandRelease isl us s
  | .forcedRelease req val => Sys2Proof.Machine.execForcedRelease req val s
  | .oscillatorCheckEnd xinHz ocxoHz ppm us => Sys2Proof.Machine.execOscillatorCheckEnd xinHz ocxoHz ppm us s
  | .loadAttemptComplete data us => Sys2Proof.Machine.execLoadAttemptComplete data us s
  | .stepDeadline step us => Sys2Proof.Machine.execStepDeadline step us s
  | .selfTestComplete isl fails us => Sys2Proof.Machine.execSelfTestComplete isl fails us s
  | .profileResetApply => Sys2Proof.Machine.execProfileResetApply s
  | .profileWaitTimeout => Sys2Proof.Machine.execProfileWaitTimeout s
  | .bootRomStart flash us => Sys2Proof.Machine.execBootRomStart flash us s
  | .fwStepLate at_ => Sys2Proof.Machine.execFwStepLate at_ s
  | .servoRestart req val => Sys2Proof.Machine.execServoRestart req val s
  | .discardMgmt req val => Sys2Proof.Machine.execDiscardMgmt req val s
  | .discardServo req val => Sys2Proof.Machine.execDiscardServo req val s
  | .watchdogFeed servo tmo us => Sys2Proof.Machine.execWatchdogFeed servo tmo us s
  | .mgmtWatchdogExpiry us => Sys2Proof.Machine.execMgmtWatchdogExpiry us s
  | .servoWdog us => Sys2Proof.Machine.execServoWdog us s
  | .debugAttach => Sys2Proof.Machine.execDebugAttach s
  | .fwMeasurementPost m digest => Sys2Proof.Machine.execFwMeasurementPost m digest s
  | .spdmRequest q => Sys2Proof.Machine.execSpdmRequest q s
  | .scrubAccess m bank word found us => Sys2Proof.Machine.execScrubAccess m bank word found us s
  | .scrubLate m ms => Sys2Proof.Machine.execScrubLate m ms s
  | .eccLapRead req => Sys2Proof.Machine.execEccLapRead req s
  | .faultCollect us => Sys2Proof.Machine.execFaultCollect us s
  | .faultAck req val => Sys2Proof.Machine.execFaultAck req val s
  | .reactionTimerExpiry us => Sys2Proof.Machine.execReactionTimerExpiry us s
  | .aliveResume req val => Sys2Proof.Machine.execAliveResume req val s
  | .testModeWrite req val => Sys2Proof.Machine.execTestModeWrite req val s
  | .recoveryEnd us => Sys2Proof.Machine.execRecoveryEnd us s
  | .counterCfgWrite req k val thr => Sys2Proof.Machine.execCounterCfgWrite req k val thr s
  | .counterClear req val => Sys2Proof.Machine.execCounterClear req val s
  | .bwWindowEnd p => Sys2Proof.Machine.execBwWindowEnd p s
  | .bwPeakRead req tx => Sys2Proof.Machine.execBwPeakRead req tx s
  | .histDepthSample u => Sys2Proof.Machine.execHistDepthSample u s
  | .histClear req u val => Sys2Proof.Machine.execHistClear req u val s
  | .canaryMeasure inst a b c d => Sys2Proof.Machine.execCanaryMeasure inst a b c d s
  | .marginPlan => Sys2Proof.Machine.execMarginPlan s
  | .avsReadbackCheck reply uv => Sys2Proof.Machine.execAvsReadbackCheck reply uv s
  | .avsCodeWrite req val => Sys2Proof.Machine.execAvsCodeWrite req val s
  | .ageingLogShort hours fails word => Sys2Proof.Machine.execAgeingLogShort hours fails word s
  | .ageingLogLong hours fails word => Sys2Proof.Machine.execAgeingLogLong hours fails word s
  | .qualifyTimeExpiry c => Sys2Proof.Machine.execQualifyTimeExpiry c s
  | .txDriverAwake n => Sys2Proof.Machine.execTxDriverAwake n s
  | .quadCalibrationDone k load lanes => Sys2Proof.Machine.execQuadCalibrationDone k load lanes s
  | .insertionCopyAgeLimit f o => Sys2Proof.Machine.execInsertionCopyAgeLimit f o s
  | .coreCycleCount => Sys2Proof.Machine.execCoreCycleCount s
  | .pcieLinkUp speed width => Sys2Proof.Machine.execPcieLinkUp speed width s
  | .p65FrameSend octets => Sys2Proof.Machine.execP65FrameSend octets s
  | .jtagInstruction inst => Sys2Proof.Machine.execJtagInstruction inst s

end Sys2Proof.Machine
end

