-- ==== Sys2Proof/WellFormed.lean ====
section
/-!
DEFINITION. Sys2Proof/WellFormed.lean: the operands a command may carry: register offsets inside BAR0 (R7), 32-bit words,
indices inside what the spec numbers. A meaning is total on any operand; an ill-formed command is one no sender makes.
-/
namespace Sys2Proof

/-- Octets are below 256. -/
def octetsOk (l : List Nat) : Bool := l.all fun x => decide (x < 256)
/-- The fields of a command descriptor fit (R363). -/
def Cmd.wf (c : Cmd) : Bool :=
  decide (c.tag < 2 ^ 16) && decide (c.len < 2 ^ 32) && decide (c.p0 < 2 ^ 32) && decide (c.p1 < 2 ^ 32) && decide (c.p2 < 2 ^ 32) &&
    octetsOk c.data
/-- The fields of a TX descriptor fit (R365). -/
def TxDesc.wf (d : TxDesc) : Bool := decide (d.tag < 2 ^ 16) && decide (d.len < 2 ^ 14) && octetsOk d.octets &&
  d.directed.all fun x => decide (x.1 < 128) && decide (x.2 < 8)
/-- The operands are in the ranges the spec gives them. -/
def Instr.wf : Instr → Bool
  | .registerWrite _ off val _ => decide (off < 2 ^ 20) && decide (val < 2 ^ 32)
  | .selectWrite _ off val => decide (off < 2 ^ 20) && decide (val < 2 ^ 32)
  | .captureRead _ off => decide (off < 2 ^ 20)
  | .timeWriteCommit _ off val => decide (off < 2 ^ 20) && decide (val < 2 ^ 32)
  | .bar0AccessTimeout off _ => decide (off < 2 ^ 20)
  | .islandClockLoss isl => decide (isl < 32)
  | .islandClockReturn isl => decide (isl < 32)
  | .crossingUp src dst => decide (src < 32) && decide (dst < 32)
  | .crossingDeliver src dst _ => decide (src < 32) && decide (dst < 32)
  | .crossingHang src dst => decide (src < 32) && decide (dst < 32)
  | .lastIncrement => true
  | .stepRequest _ hi => decide (hi < 2 ^ 32)
  | .lastSetRequest _ hi => decide (hi < 2 ^ 32)
  | .servoPhaseCorrection _ => true
  | .stepApply => true
  | .slewRequest _ hi => decide (hi < 2 ^ 32)
  | .slewCfgWrite _ val => decide (val < 2 ^ 32)
  | .slewDone => true
  | .domainEstimatePost _ _ => true
  | .domainStale _ => true
  | .domainSwitchRequest _ val => decide (val < 2 ^ 32)
  | .switchArm _ val => decide (val < 2 ^ 32)
  | .switchCancel _ val => decide (val < 2 ^ 32)
  | .switchTimeWrite _ hi => decide (hi < 2 ^ 32)
  | .timedSwitchInstant => true
  | .domainRelease _ val => decide (val < 2 ^ 32)
  | .weltEnaWrite _ val => decide (val < 2 ^ 32)
  | .blendEnd => true
  | .convergeDone => true
  | .tallyMeasurement n _ _ => decide (n < 64)
  | .cdrLockAcquire n => decide (n < 64)
  | .cdrLockLoss n => decide (n < 64)
  | .frameReceive p _ octets _ _ _ => decide (p < 64) && octetsOk octets
  | .frameEndReceive _ rest _ => octetsOk rest
  | .alignmentLock p d => decide (p < 64) && decide (d < 2 ^ 16)
  | .calConstantApply edge => decide (edge.lane < 64)
  | .domainMapWrite _ _ val => decide (val < 2 ^ 32)
  | .intervalWrite _ val => decide (val < 2 ^ 32)
  | .portStateWrite _ w => decide (w.val < 2 ^ 32)
  | .portEnableWrite _ val => decide (val < 2 ^ 32)
  | .tallyInvalidTimeout p => decide (p < 64)
  | .syncTransmit inst _ => decide (inst < 128)
  | .announceTransmit inst _ => decide (inst < 128)
  | .pdelayReqTransmit inst => decide (inst < 128)
  | .delayReqTransmit inst => decide (inst < 128)
  | .txTimeReturn port _ _ => decide (port < 64)
  | .followUpTransmit inst => decide (inst < 128)
  | .syncReceive _ => true
  | .followUpReceive _ => true
  | .delayReqReceive _ => true
  | .delayRespReceive _ => true
  | .delayReqTimeout inst => decide (inst < 128)
  | .pdelayReqReceive _ => true
  | .pdelayRespReceive _ => true
  | .generalMessageReceive _ => true
  | .transparentForward _ => true
  | .fupEntryTimeout => true
  | .syncTimeout inst => decide (inst < 128)
  | .unicastRequest inst _ _ mtype _ _ => decide (inst < 128) && decide (mtype < 16)
  | .unicastCancel inst _ _ mtype => decide (inst < 128) && decide (mtype < 16)
  | .grantExpiry inst => decide (inst < 128)
  | .candidatePhaseSample c _ _ => decide (c < 16)
  | .candidateActivityLoss c => decide (c < 16)
  | .freqWindowClose c => decide (c < 16)
  | .waitToRestoreExpiry d => decide (d < 4)
  | .prioTableCommit _ val => decide (val < 2 ^ 32)
  | .dpllModeWrite _ d val => decide (d < 4) && decide (val < 2 ^ 32)
  | .dpllHoldoverRequest _ d val => decide (d < 4) && decide (val < 2 ^ 32)
  | .dpllForce _ d val => decide (d < 4) && decide (val < 2 ^ 32)
  | .dpllRealign _ d val => decide (d < 4) && decide (val < 2 ^ 32)
  | .realignDone d => decide (d < 4)
  | .dpllLoopUpdate d => decide (d < 4)
  | .holdoverAvgUpdate d => decide (d < 4)
  | .holdoverWUpdate d => decide (d < 4)
  | .holdoverValid d => decide (d < 4)
  | .olFreqWrite _ d hi => decide (d < 4) && decide (hi < 2 ^ 32)
  | .olPhaseWrite _ d hi => decide (d < 4) && decide (hi < 2 ^ 32)
  | .olWriteApply d _ => decide (d < 4)
  | .hostPhaseWrite _ hi => decide (hi < 2 ^ 32)
  | .xoCorrWrite _ hi => decide (hi < 2 ^ 32)
  | .xoStabilitySample _ => true
  | .ocxoWarmPin _ => true
  | .candCfgWrite _ c val => decide (c < 16) && decide (val < 2 ^ 32)
  | .candPeriodWrite _ c hi => decide (c < 16) && decide (hi < 2 ^ 32)
  | .synceBindWrite _ val => decide (val < 2 ^ 32)
  | .apllLock j _ => decide (j < 5)
  | .apllUnlock j => decide (j < 5)
  | .synCommit _ val => decide (val < 2 ^ 32)
  | .outputChangeApply n => decide (n < 12)
  | .outputStart _ n val => decide (n < 12) && decide (val < 2 ^ 32)
  | .outputStartInstant n => decide (n < 12)
  | .outputStop _ n val => decide (n < 12) && decide (val < 2 ^ 32)
  | .outputStopComplete n => decide (n < 12)
  | .outputRealign _ n val => decide (n < 12) && decide (val < 2 ^ 32)
  | .alignDone n _ => decide (n < 12)
  | .todOutMessage => true
  | .todInMessage octets => octetsOk octets
  | .todUnpaired => true
  | .tdcEdgeMeasure src _ _ _ => decide (src < 64)
  | .tdcCalPair n _ _ => decide (n < 25)
  | .tdcResultDeliver => true
  | .tdcAnchorRenew => true
  | .intervalArm _ n val => decide (n < 25) && decide (val < 2 ^ 32)
  | .intervalTimeout n => decide (n < 12)
  | .tdcChCfgWrite _ n val => decide (n < 25) && decide (val < 2 ^ 32)
  | .prescalerWrite _ val => decide (val < 2 ^ 32)
  | .tdcRefillRequest _ val => decide (val < 2 ^ 32)
  | .tdcRefillComplete n _ => decide (n < 25)
  | .tdcTableCommit _ val => decide (val < 2 ^ 32)
  | .takeoverOverlapEnd => true
  | .takeoverEnd => true
  | .tdcTableDataRead _ => true
  | .lnkCommit _ val => decide (val < 2 ^ 32)
  | .signalDetect n => decide (n < 64)
  | .signalLoss n => decide (n < 64)
  | .linkTrainingDone p _ => decide (p < 64)
  | .ltFail p => decide (p < 64)
  | .linkConditionsMet link => decide (link.port < 64)
  | .linkUp p => decide (p < 64)
  | .linkDown p _ => decide (p < 64)
  | .sgmiiControlWord p _ => decide (p < 64)
  | .laneCfgWrite _ val => decide (val < 2 ^ 32)
  | .txeqWrite _ val => decide (val < 2 ^ 32)
  | .ebIdleAdjust _ _ => true
  | .ebSlip _ => true
  | .lpiRx p => decide (p < 64)
  | .powerUpCalibration _ _ _ _ => true
  | .recalPartial _ val => decide (val < 2 ^ 32)
  | .recalFull _ val => decide (val < 2 ^ 32)
  | .recalComplete fin => decide (fin.cal.lane < 64)
  | .ingressHead _ => true
  | .ingressTailPass _ => true
  | .learnInsert => true
  | .streamLearn => true
  | .ageingSweepVisit _ _ => true
  | .streamDeleteClear c => decide (c < 16384)
  | .ingTableRead _ val => decide (val < 2 ^ 32)
  | .ingTableWrite _ val => decide (val < 2 ^ 32)
  | .streamGateCommit _ val => decide (val < 2 ^ 32)
  | .streamGateChange g => decide (g < 256)
  | .bufAdmission _ => true
  | .frameStoreComplete _ => true
  | .linkHoldExpiry o => decide (o < 66)
  | .bufAdmissionCommit _ val => decide (val < 2 ^ 32)
  | .egressSelection o _ => decide (o < 66)
  | .frameTxStart o _ _ => decide (o < 66)
  | .frameTxEnd o _ => decide (o < 66)
  | .shaperRateWrite _ c val => decide (c < 8) && decide (val < 2 ^ 32)
  | .shaperCfgWrite _ c val _ => decide (c < 8) && decide (val < 2 ^ 32)
  | .gateEntryChange o _ => decide (o < 66)
  | .macHoldStart o => decide (o < 66)
  | .gateEnableWrite _ val => decide (val < 2 ^ 32)
  | .gateCommit _ val => decide (val < 2 ^ 32)
  | .gateCancel _ val => decide (val < 2 ^ 32)
  | .gateRealign _ val => decide (val < 2 ^ 32)
  | .gateConfigChange o => decide (o < 66)
  | .mmVerifyEnd o _ => decide (o < 66)
  | .egrTableRead _ val => decide (val < 2 ^ 32)
  | .egrTableWrite _ val => decide (val < 2 ^ 32)
  | .frerDescriptor _ => true
  | .reseqTimeout n => decide (n < 4096)
  | .takeAny n => decide (n < 4096)
  | .frerFunctionReset _ val => decide (val < 2 ^ 32)
  | .frerCfgWrite _ val => decide (val < 2 ^ 32)
  | .latentError n => decide (n < 4096)
  | .pathDown n inst => decide (n < 4096) && decide (inst < 4)
  | .ringDoorbell addr _ val => decide (addr < 4096) && decide (val < 2 ^ 32)
  | .ringStart _ val => decide (val < 2 ^ 32)
  | .ringStop _ val => decide (val < 2 ^ 32)
  | .ringStopped r => decide (r < 32)
  | .ringReset _ val => decide (val < 2 ^ 32)
  | .vectorRearm _ _ _ val => decide (val < 2 ^ 32)
  | .irqModerationTimer r => decide (r < 32)
  | .msixUnmask v => decide (v < 64)
  | .cmdBadOpcode r _ c => decide (r < 32) && c.wf
  | .nop r c => decide (r < 32) && c.wf
  | .tblRead r c => decide (r < 32) && c.wf
  | .tblWrite r c => decide (r < 32) && c.wf
  | .fdbFlush r c => decide (r < 32) && c.wf
  | .streamAdd r c => decide (r < 32) && c.wf
  | .streamDelete r c => decide (r < 32) && c.wf
  | .streamModify r c => decide (r < 32) && c.wf
  | .streamRead r c => decide (r < 32) && c.wf
  | .dpllFreq r c => decide (r < 32) && c.wf
  | .dpllPhase r c => decide (r < 32) && c.wf
  | .hostSample r c => decide (r < 32) && c.wf
  | .profileApply r c => decide (r < 32) && c.wf
  | .profileTimedApply => true
  | .profileWrite r c => decide (r < 32) && c.wf
  | .profileRead r c => decide (r < 32) && c.wf
  | .fwDownload r c => decide (r < 32) && c.wf
  | .attest r c => decide (r < 32) && c.wf
  | .flashRead r c => decide (r < 32) && c.wf
  | .flashProgram r c _ => decide (r < 32) && c.wf
  | .flashErase r c _ => decide (r < 32) && c.wf
  | .resetReq r c => decide (r < 32) && c.wf
  | .cmdTimeout r _ c => decide (r < 32) && c.wf
  | .txFrameFetch r d => decide (r < 32) && d.wf
  | .rxFrameDeliver r _ => decide (r < 32)
  | .rxStall r => decide (r < 32)
  | .eventRecordWrite => true
  | .dmaError r _ => decide (r < 32)
  | .busMasterEnable _ => true
  | .i2cWrite cmd off val _ => decide (cmd < 256) && decide (off < 2 ^ 20) && decide (val < 2 ^ 32)
  | .i2cRead cmd off _ => decide (cmd < 256) && decide (off < 2 ^ 20)
  | .i2cTimeout => true
  | .pcieHot => true
  | .pcieLinkdown => true
  | .pcieD3 => true
  | .powerOn dip straps => decide (dip.rail < 9) && decide (straps.profsel < 4)
  | .resetNAccept _ => true
  | .resetNGlitch _ => true
  | .rstRequest _ val => decide (val < 2 ^ 32)
  | .srcMapWrite _ val => decide (val < 2 ^ 32)
  | .resetStretchEnd isl _ => decide (isl < 32)
  | .islandRelease isl _ => decide (isl < 32)
  | .forcedRelease _ val => decide (val < 2 ^ 32)
  | .oscillatorCheckEnd _ _ _ _ => true
  | .loadAttemptComplete _ _ => true
  | .stepDeadline _ _ => true
  | .selfTestComplete isl _ _ => decide (isl < 32)
  | .profileResetApply => true
  | .profileWaitTimeout => true
  | .bootRomStart _ _ => true
  | .fwStepLate at_ => decide (at_.step < 8)
  | .servoRestart _ val => decide (val < 2 ^ 32)
  | .discardMgmt _ val => decide (val < 2 ^ 32)
  | .discardServo _ val => decide (val < 2 ^ 32)
  | .watchdogFeed _ _ _ => true
  | .mgmtWatchdogExpiry _ => true
  | .servoWdog _ => true
  | .debugAttach => true
  | .fwMeasurementPost m digest => decide (m < 8) && decide (digest < 2 ^ 384)
  | .spdmRequest _ => true
  | .scrubAccess m bank word found _ => decide (m < 18) && decide (bank < 32) && decide (word < 2 ^ 24) && decide (found.err < 3)
  | .scrubLate m _ => decide (m < 18)
  | .eccLapRead _ => true
  | .faultCollect _ => true
  | .faultAck _ val => decide (val < 2 ^ 32)
  | .reactionTimerExpiry _ => true
  | .aliveResume _ val => decide (val < 2 ^ 32)
  | .testModeWrite _ val => decide (val < 2 ^ 32)
  | .recoveryEnd _ => true
  | .counterCfgWrite _ k val _ => decide (k < 8) && decide (val < 2 ^ 32)
  | .counterClear _ val => decide (val < 2 ^ 32)
  | .bwWindowEnd p => decide (p < 66)
  | .bwPeakRead _ _ => true
  | .histDepthSample u => decide (u < 8)
  | .histClear _ u val => decide (u < 8) && decide (val < 2 ^ 32)
  | .canaryMeasure inst _ _ _ _ => decide (inst < 32)
  | .marginPlan => true
  | .avsReadbackCheck _ _ => true
  | .avsCodeWrite _ val => decide (val < 2 ^ 32)
  | .ageingLogShort _ _ _ => true
  | .ageingLogLong _ _ _ => true
  | .qualifyTimeExpiry c => decide (c < 16)
  | .txDriverAwake n => decide (n < 64)
  | .quadCalibrationDone k _ _ => decide (k < 16)
  | .insertionCopyAgeLimit _ o => decide (o < 66)
  | .coreCycleCount => true
  | .pcieLinkUp _ _ => true
  | .p65FrameSend octets => octetsOk octets
  | .jtagInstruction _ => true

end Sys2Proof
end

