-- ==== Sys2Proof/Safety.lean ====
section
/-!
DEFINITION. Sys2Proof/Safety.lean: what counts as a safe state and a safe step, in the terms the statements use: the canonical
form of the register file, the format of the Last, the parts of the state that a command may write, and the writes that
reach their register.
-/
namespace Sys2Proof.Machine

/-- The register file is in its canonical form: keys rising and no entry at its reset value. -/
def regsWf (s : State) : Prop := smWf keyReset s.regs = true

/-- The Last is in the format of R41: seconds of 48 bits, nanoseconds below 1,000,000,000, a fraction of 32 bits, and a residue
counted in fifths. -/
def lastInFormat (s : State) : Prop :=
  s.tim.last.sec < 2 ^ 48 ∧ s.tim.last.ns < 1000000000 ∧ s.tim.last.frac < 2 ^ 32 ∧ s.tim.last.res < 5

/-- A step that goes on: neither a fault nor a refusal. -/
def completes (c : Instr) (s : State) : Prop := ∃ t, exec c s = .next t

/-- The requester's write of `off` goes to instance `i` alone and nothing stops it on its way: the register is mapped, present
in the grade, and its island is up (R5, R8, R28, R382). -/
abbrev reaches (req : Requester) (off i : Nat) (s : State) : Prop := targets s req off = [i] ∧ gateOf s off i = .pass

/-- A read of the word at `off` has no effect of its own and no word of it is counted at the read: neither a peak, a lap, a word of
a table nor a counter of line data. -/
def readPlain (off : Nat) : Bool :=
  !([0x90034, 0xF0198, 0xF01A0, 0xF0814, 0xA0448, 0xA044C, 0xA045C].contains off)

/-- What a requester sees of an access that timed out (R29): a read returns 0, a write nothing. -/
def zeroAnswer (off : Nat) (acc : Access) (s : State) : State := if acc.write then s else emit (.readData acc.req off 0) s

/-- What a slot of ring `r` carries passes through the ring's buffer (R438): whether it can be read there, and the state after the read. -/
def slotIn (r : Nat) (s : State) : Bool × State := eccRead 16 (ringWord s r) (fullWrite 16 (ringWord s r) s)

/-- The parts of the state, without the queue: the fields of State by name. -/
inductive Part where
  | regs
  | sels
  | caps
  | staged
  | xings
  | tim
  | ref
  | flt
  | tallies
  | calPends
  | pte
  | ing
  | buf
  | egr
  | red
  | mon
  | hif
  | lnk
  | syn
  | tdc
  | sys
  | outs
  | fresh
  deriving DecidableEq, Repr

/-- Part `p` of `t` is as in `s`. -/
def Part.same (s t : State) : Part → Prop
  | .regs => t.regs = s.regs
  | .sels => t.sels = s.sels
  | .caps => t.caps = s.caps
  | .staged => t.staged = s.staged
  | .xings => t.xings = s.xings
  | .tim => t.tim = s.tim
  | .ref => t.ref = s.ref
  | .flt => t.flt = s.flt
  | .tallies => t.tallies = s.tallies
  | .calPends => t.calPends = s.calPends
  | .pte => t.pte = s.pte
  | .ing => t.ing = s.ing
  | .buf => t.buf = s.buf
  | .egr => t.egr = s.egr
  | .red => t.red = s.red
  | .mon => t.mon = s.mon
  | .hif => t.hif = s.hif
  | .lnk => t.lnk = s.lnk
  | .syn => t.syn = s.syn
  | .tdc => t.tdc = s.tdc
  | .sys => t.sys = s.sys
  | .outs => t.outs = s.outs
  | .fresh => t.fresh = s.fresh

/-- Every part. -/
def Part.all : List Part :=
  [.regs, .sels, .caps, .staged, .xings, .tim, .ref, .flt, .tallies, .calPends, .pte, .ing,
   .buf, .egr, .red, .mon, .hif, .lnk, .syn, .tdc, .sys, .outs, .fresh]

def Part.allBut (l : List Part) : List Part := Part.all.filter fun p => !l.contains p

/-- `t` differs from `s` in the parts of `w` at most, and its queue is the same. -/
def onlyWrites (w : List Part) (s t : State) : Prop := t.pending = s.pending ∧ ∀ p, p ∉ w → Part.same s t p

/-- The parts of the state that a command may write; `outs` is written by every command, since the outputs of the step before
are gone. -/
def writes : Instr → List Part
  | .registerWrite _ _ _ _ => Part.all
  | .selectWrite _ _ _ => Part.all
  | .captureRead _ _ => [.regs, .caps, .flt, .egr, .outs, .fresh]
  | .timeWriteCommit _ _ _ => Part.all
  | .bar0AccessTimeout _ _ => [.regs, .xings, .tim, .flt, .ing, .buf, .egr, .mon, .hif, .sys, .outs, .fresh]
  | .islandClockLoss _ => Part.all
  | .islandClockReturn _ => Part.allBut [.sels, .caps, .staged, .tallies, .calPends, .syn, .tdc]
  | .crossingUp _ _ => [.xings, .tim, .outs, .fresh]
  | .crossingDeliver _ _ _ => [.xings, .outs]
  | .crossingHang _ _ => [.regs, .xings, .tim, .flt, .ing, .buf, .egr, .mon, .hif, .sys, .outs, .fresh]
  | .lastIncrement => [.regs, .tim, .ref, .flt, .syn, .tdc, .outs]
  | .stepRequest _ _ => [.regs, .tim, .flt, .outs]
  | .lastSetRequest _ _ => [.regs, .tim, .flt, .outs]
  | .servoPhaseCorrection _ => [.regs, .tim, .flt, .outs]
  | .stepApply => Part.allBut [.sels, .caps, .staged, .xings, .calPends, .fresh]
  | .slewRequest _ _ => [.regs, .tim, .flt, .outs]
  | .slewCfgWrite _ _ => [.regs, .flt, .outs]
  | .slewDone => [.regs, .tim, .flt, .outs]
  | .domainEstimatePost _ _ => [.regs, .tim, .ref, .flt, .pte, .outs]
  | .domainStale _ => [.regs, .tim, .ref, .flt, .outs]
  | .domainSwitchRequest _ _ => [.regs, .tim, .ref, .flt, .outs]
  | .switchArm _ _ => [.regs, .tim, .ref, .flt, .outs]
  | .switchCancel _ _ => [.regs, .tim, .ref, .flt, .outs]
  | .switchTimeWrite _ _ => [.regs, .tim, .ref, .flt, .outs]
  | .timedSwitchInstant => [.regs, .tim, .ref, .flt, .outs]
  | .domainRelease _ _ => [.regs, .tim, .ref, .flt, .outs]
  | .weltEnaWrite _ _ => [.regs, .tim, .ref, .flt, .outs]
  | .blendEnd => [.regs, .tim, .flt, .outs]
  | .convergeDone => [.tim, .outs]
  | .tallyMeasurement _ _ _ => [.regs, .tim, .ref, .flt, .tallies, .pte, .outs]
  | .cdrLockAcquire _ => [.regs, .tallies, .outs]
  | .cdrLockLoss _ => [.regs, .tim, .ref, .flt, .tallies, .outs]
  | .frameReceive _ _ _ _ _ _ => [.regs, .flt, .buf, .egr, .mon, .outs, .fresh]
  | .frameEndReceive _ _ _ => [.regs, .flt, .ing, .buf, .egr, .mon, .sys, .outs, .fresh]
  | .alignmentLock _ _ => [.regs, .flt, .tallies, .outs]
  | .calConstantApply _ => [.regs, .tallies, .calPends, .outs]
  | .domainMapWrite _ _ _ => [.regs, .tim, .ref, .flt, .pte, .outs]
  | .intervalWrite _ _ => [.regs, .flt, .pte, .outs]
  | .portStateWrite _ _ => [.regs, .tim, .ref, .flt, .pte, .outs]
  | .portEnableWrite _ _ => [.regs, .tim, .ref, .flt, .pte, .outs]
  | .tallyInvalidTimeout _ => [.regs, .tim, .ref, .flt, .tallies, .pte, .outs]
  | .syncTransmit _ _ => [.regs, .flt, .pte, .mon, .sys, .outs]
  | .announceTransmit _ _ => [.regs, .flt, .pte, .mon, .sys, .outs]
  | .pdelayReqTransmit _ => [.regs, .flt, .pte, .outs]
  | .delayReqTransmit _ => [.regs, .flt, .pte, .outs]
  | .txTimeReturn _ _ _ => [.regs, .flt, .pte, .buf, .lnk, .outs, .fresh]
  | .followUpTransmit _ => [.pte, .outs]
  | .syncReceive _ => [.regs, .flt, .pte, .buf, .outs]
  | .followUpReceive _ => [.regs, .flt, .pte, .buf, .sys, .outs]
  | .delayReqReceive _ => [.regs, .flt, .pte, .buf, .mon, .sys, .outs]
  | .delayRespReceive _ => [.regs, .flt, .pte, .buf, .outs]
  | .delayReqTimeout _ => [.regs, .pte, .outs]
  | .pdelayReqReceive _ => [.regs, .flt, .pte, .buf, .mon, .sys, .outs]
  | .pdelayRespReceive _ => [.regs, .flt, .pte, .buf, .outs]
  | .generalMessageReceive _ => [.regs, .pte, .buf, .outs]
  | .transparentForward _ => [.regs, .flt, .pte, .buf, .sys, .outs]
  | .fupEntryTimeout => [.pte, .outs]
  | .syncTimeout _ => [.regs, .flt, .pte, .outs]
  | .unicastRequest _ _ _ _ _ _ => [.regs, .flt, .pte, .mon, .sys, .outs]
  | .unicastCancel _ _ _ _ => [.regs, .pte, .outs]
  | .grantExpiry _ => [.regs, .pte, .outs]
  | .candidatePhaseSample _ _ _ => [.regs, .ref, .flt, .tdc, .outs]
  | .candidateActivityLoss _ => [.regs, .tim, .ref, .flt, .tdc, .outs]
  | .freqWindowClose _ => [.regs, .tim, .ref, .flt, .outs]
  | .waitToRestoreExpiry _ => [.regs, .tim, .ref, .flt, .outs]
  | .prioTableCommit _ _ => [.regs, .tim, .ref, .flt, .outs]
  | .dpllModeWrite _ _ _ => [.regs, .tim, .ref, .flt, .outs]
  | .dpllHoldoverRequest _ _ _ => [.regs, .tim, .ref, .flt, .outs]
  | .dpllForce _ _ _ => [.regs, .tim, .ref, .flt, .outs]
  | .dpllRealign _ _ _ => [.regs, .tim, .ref, .flt, .outs]
  | .realignDone _ => [.regs, .ref, .flt, .outs]
  | .dpllLoopUpdate _ => [.regs, .ref, .flt, .outs]
  | .holdoverAvgUpdate _ => [.ref, .outs]
  | .holdoverWUpdate _ => [.regs, .ref, .flt, .outs]
  | .holdoverValid _ => [.regs, .outs]
  | .olFreqWrite _ _ _ => [.regs, .ref, .flt, .outs]
  | .olPhaseWrite _ _ _ => [.regs, .tim, .ref, .flt, .outs]
  | .olWriteApply _ _ => [.regs, .tim, .ref, .flt, .outs]
  | .hostPhaseWrite _ _ => [.regs, .ref, .flt, .outs]
  | .xoCorrWrite _ _ => [.regs, .ref, .flt, .outs]
  | .xoStabilitySample _ => [.regs, .ref, .flt, .outs]
  | .ocxoWarmPin _ => [.regs, .flt, .sys, .outs]
  | .candCfgWrite _ _ _ => [.regs, .tim, .ref, .flt, .outs]
  | .candPeriodWrite _ _ _ => [.regs, .tim, .ref, .flt, .outs]
  | .synceBindWrite _ _ => [.regs, .tim, .ref, .flt, .outs]
  | .apllLock _ _ => Part.allBut [.sels, .caps, .staged, .tallies, .calPends, .tdc]
  | .apllUnlock _ => Part.all
  | .synCommit _ _ => [.regs, .ref, .flt, .syn, .outs, .fresh]
  | .outputChangeApply _ => [.regs, .flt, .syn, .outs, .fresh]
  | .outputStart _ _ _ => [.regs, .flt, .syn, .outs, .fresh]
  | .outputStartInstant _ => [.regs, .flt, .syn, .outs, .fresh]
  | .outputStop _ _ _ => [.regs, .flt, .syn, .outs, .fresh]
  | .outputStopComplete _ => [.regs, .flt, .syn, .outs, .fresh]
  | .outputRealign _ _ _ => [.regs, .flt, .syn, .outs, .fresh]
  | .alignDone _ _ => [.regs, .ref, .flt, .syn, .outs]
  | .todOutMessage => [.regs, .flt, .syn, .outs]
  | .todInMessage _ => [.regs, .ref, .flt, .syn, .outs]
  | .todUnpaired => [.regs, .ref, .flt, .syn, .outs]
  | .tdcEdgeMeasure _ _ _ _ => [.regs, .ref, .flt, .syn, .tdc, .sys, .outs, .fresh]
  | .tdcCalPair _ _ _ => [.regs, .flt, .tdc, .outs]
  | .tdcResultDeliver => [.regs, .flt, .buf, .mon, .hif, .tdc, .sys, .outs]
  | .tdcAnchorRenew => [.tdc, .outs]
  | .intervalArm _ _ _ => [.regs, .flt, .tdc, .outs]
  | .intervalTimeout _ => [.regs, .flt, .tdc, .outs]
  | .tdcChCfgWrite _ _ _ => [.regs, .flt, .tdc, .outs]
  | .prescalerWrite _ _ => [.regs, .tim, .ref, .flt, .tdc, .outs]
  | .tdcRefillRequest _ _ => [.regs, .flt, .tdc, .outs]
  | .tdcRefillComplete _ _ => Part.allBut [.sels, .caps, .staged, .xings, .tallies, .calPends, .hif, .syn]
  | .tdcTableCommit _ _ => [.regs, .flt, .mon, .tdc, .outs]
  | .takeoverOverlapEnd => [.regs, .flt, .tdc, .outs]
  | .takeoverEnd => [.regs, .flt, .tdc, .outs]
  | .tdcTableDataRead _ => [.regs, .flt, .outs]
  | .lnkCommit _ _ => Part.allBut [.sels, .caps, .staged, .calPends, .syn, .tdc]
  | .signalDetect _ => [.regs, .tim, .ref, .flt, .pte, .ing, .buf, .egr, .red, .mon, .lnk, .sys, .outs, .fresh]
  | .signalLoss _ => [.regs, .tim, .ref, .flt, .pte, .ing, .buf, .egr, .red, .mon, .lnk, .sys, .outs, .fresh]
  | .linkTrainingDone _ _ => [.regs, .tim, .ref, .flt, .pte, .ing, .buf, .egr, .red, .mon, .lnk, .sys, .outs, .fresh]
  | .ltFail _ => [.regs, .tim, .ref, .flt, .pte, .ing, .buf, .egr, .red, .mon, .lnk, .sys, .outs, .fresh]
  | .linkConditionsMet _ => [.regs, .tim, .ref, .flt, .pte, .ing, .buf, .egr, .red, .mon, .lnk, .sys, .outs, .fresh]
  | .linkUp _ => [.regs, .tim, .ref, .flt, .pte, .ing, .buf, .egr, .red, .mon, .lnk, .sys, .outs, .fresh]
  | .linkDown _ _ => [.regs, .tim, .ref, .flt, .pte, .ing, .buf, .egr, .red, .mon, .lnk, .sys, .outs, .fresh]
  | .sgmiiControlWord _ _ => [.regs, .tim, .ref, .flt, .pte, .ing, .buf, .egr, .red, .mon, .lnk, .sys, .outs, .fresh]
  | .laneCfgWrite _ _ => Part.allBut [.sels, .caps, .staged, .xings, .calPends, .hif, .syn, .tdc]
  | .txeqWrite _ _ => [.regs, .flt, .outs]
  | .ebIdleAdjust _ _ => [.regs, .outs]
  | .ebSlip _ => [.regs, .flt, .ing, .buf, .egr, .mon, .sys, .outs, .fresh]
  | .lpiRx _ => [.regs, .flt, .lnk, .outs]
  | .powerUpCalibration _ _ _ _ => Part.allBut [.sels, .caps, .staged, .xings, .tallies, .hif, .syn, .tdc]
  | .recalPartial _ _ => Part.allBut [.sels, .caps, .staged, .xings, .tallies, .calPends, .hif, .syn]
  | .recalFull _ _ => Part.allBut [.sels, .caps, .staged, .xings, .tallies, .calPends, .hif, .syn]
  | .recalComplete _ => Part.allBut [.sels, .caps, .staged, .xings, .tallies, .hif, .syn]
  | .ingressHead _ => [.regs, .flt, .pte, .ing, .buf, .egr, .mon, .hif, .sys, .outs, .fresh]
  | .ingressTailPass _ => [.regs, .flt, .ing, .buf, .egr, .mon, .sys, .outs, .fresh]
  | .learnInsert => [.regs, .flt, .ing, .mon, .outs]
  | .streamLearn => [.regs, .flt, .ing, .mon, .outs]
  | .ageingSweepVisit _ _ => [.regs, .flt, .ing, .mon, .sys, .outs]
  | .streamDeleteClear _ => [.regs, .flt, .ing, .mon, .sys, .outs]
  | .ingTableRead _ _ => [.regs, .flt, .ing, .mon, .sys, .outs]
  | .ingTableWrite _ _ => [.regs, .flt, .ing, .mon, .sys, .outs]
  | .streamGateCommit _ _ => [.regs, .flt, .ing, .outs]
  | .streamGateChange _ => [.ing, .outs]
  | .bufAdmission _ => [.regs, .flt, .buf, .egr, .mon, .hif, .outs, .fresh]
  | .frameStoreComplete _ => [.regs, .flt, .buf, .egr, .mon, .outs, .fresh]
  | .linkHoldExpiry _ => [.regs, .flt, .buf, .egr, .mon, .outs, .fresh]
  | .bufAdmissionCommit _ _ => [.regs, .flt, .buf, .outs]
  | .egressSelection _ _ => [.regs, .flt, .buf, .egr, .mon, .sys, .outs, .fresh]
  | .frameTxStart _ _ _ => [.regs, .flt, .pte, .buf, .egr, .mon, .lnk, .sys, .outs, .fresh]
  | .frameTxEnd _ _ => [.regs, .flt, .ing, .buf, .egr, .mon, .hif, .sys, .outs, .fresh]
  | .shaperRateWrite _ _ _ => [.regs, .flt, .egr, .outs]
  | .shaperCfgWrite _ _ _ _ => [.regs, .flt, .egr, .outs]
  | .gateEntryChange _ _ => [.regs, .flt, .egr, .outs]
  | .macHoldStart _ => [.regs, .flt, .egr, .outs]
  | .gateEnableWrite _ _ => [.regs, .flt, .egr, .outs]
  | .gateCommit _ _ => [.regs, .flt, .egr, .sys, .outs]
  | .gateCancel _ _ => [.regs, .flt, .egr, .sys, .outs]
  | .gateRealign _ _ => [.regs, .flt, .egr, .sys, .outs]
  | .gateConfigChange _ => [.regs, .flt, .egr, .sys, .outs]
  | .mmVerifyEnd _ _ => [.regs, .flt, .outs]
  | .egrTableRead _ _ => [.regs, .flt, .egr, .mon, .sys, .outs]
  | .egrTableWrite _ _ => [.regs, .flt, .egr, .mon, .sys, .outs]
  | .frerDescriptor _ => [.regs, .flt, .buf, .egr, .red, .mon, .sys, .outs, .fresh]
  | .reseqTimeout _ => [.regs, .flt, .buf, .egr, .red, .mon, .sys, .outs]
  | .takeAny _ => [.regs, .flt, .buf, .egr, .red, .mon, .sys, .outs]
  | .frerFunctionReset _ _ => [.regs, .flt, .buf, .egr, .red, .mon, .sys, .outs]
  | .frerCfgWrite _ _ => [.regs, .flt, .buf, .egr, .red, .mon, .sys, .outs]
  | .latentError _ => [.regs, .flt, .red, .outs]
  | .pathDown _ _ => [.regs, .flt, .red, .outs]
  | .ringDoorbell _ _ _ => [.regs, .flt, .buf, .hif, .outs]
  | .ringStart _ _ => [.regs, .flt, .buf, .hif, .outs]
  | .ringStop _ _ => [.regs, .flt, .buf, .hif, .outs]
  | .ringStopped _ => [.regs, .flt, .outs]
  | .ringReset _ _ => [.regs, .flt, .buf, .hif, .outs]
  | .vectorRearm _ _ _ _ => [.regs, .flt, .buf, .hif, .outs]
  | .irqModerationTimer _ => [.hif, .outs]
  | .msixUnmask _ => [.hif, .outs]
  | .cmdBadOpcode _ _ _ => [.regs, .flt, .buf, .mon, .hif, .sys, .outs]
  | .nop _ _ => [.regs, .flt, .buf, .mon, .hif, .sys, .outs]
  | .tblRead _ _ => [.regs, .flt, .buf, .mon, .hif, .sys, .outs]
  | .tblWrite _ _ => [.regs, .flt, .ing, .buf, .egr, .mon, .hif, .sys, .outs]
  | .fdbFlush _ _ => [.regs, .flt, .ing, .buf, .mon, .hif, .sys, .outs]
  | .streamAdd _ _ => [.regs, .flt, .ing, .buf, .egr, .red, .mon, .hif, .sys, .outs]
  | .streamDelete _ _ => [.regs, .flt, .ing, .buf, .mon, .hif, .sys, .outs]
  | .streamModify _ _ => [.regs, .flt, .ing, .buf, .mon, .hif, .sys, .outs]
  | .streamRead _ _ => [.regs, .flt, .buf, .mon, .hif, .sys, .outs]
  | .dpllFreq _ _ => [.regs, .ref, .flt, .buf, .mon, .hif, .sys, .outs]
  | .dpllPhase _ _ => [.regs, .tim, .ref, .flt, .buf, .mon, .hif, .sys, .outs]
  | .hostSample _ _ => [.regs, .ref, .flt, .buf, .mon, .hif, .sys, .outs]
  | .profileApply _ _ => Part.all
  | .profileTimedApply => Part.all
  | .profileWrite _ _ => [.regs, .flt, .buf, .mon, .hif, .sys, .outs]
  | .profileRead _ _ => [.regs, .flt, .buf, .mon, .hif, .sys, .outs]
  | .fwDownload _ _ => [.regs, .flt, .buf, .mon, .hif, .sys, .outs]
  | .attest _ _ => [.regs, .flt, .buf, .mon, .hif, .sys, .outs]
  | .flashRead _ _ => [.regs, .flt, .buf, .mon, .hif, .sys, .outs]
  | .flashProgram _ _ _ => [.regs, .flt, .buf, .mon, .hif, .sys, .outs, .fresh]
  | .flashErase _ _ _ => [.regs, .flt, .buf, .mon, .hif, .sys, .outs, .fresh]
  | .resetReq _ _ => Part.all
  | .cmdTimeout _ _ _ => [.regs, .flt, .hif, .sys, .outs, .fresh]
  | .txFrameFetch _ _ => [.regs, .flt, .buf, .mon, .hif, .sys, .outs]
  | .rxFrameDeliver _ _ => [.regs, .flt, .buf, .mon, .hif, .sys, .outs]
  | .rxStall _ => [.regs, .flt, .hif, .outs]
  | .eventRecordWrite => [.regs, .flt, .buf, .mon, .hif, .sys, .outs]
  | .dmaError _ _ => [.regs, .flt, .buf, .hif, .sys, .outs]
  | .busMasterEnable _ => [.regs, .flt, .hif, .outs]
  | .i2cWrite _ _ _ _ => Part.all
  | .i2cRead _ _ _ => [.regs, .caps, .flt, .egr, .outs, .fresh]
  | .i2cTimeout => [.regs, .flt, .outs]
  | .pcieHot => Part.all
  | .pcieLinkdown => Part.all
  | .pcieD3 => Part.all
  | .powerOn _ _ => Part.all
  | .resetNAccept _ => Part.all
  | .resetNGlitch _ => [.regs, .sys, .outs]
  | .rstRequest _ _ => Part.all
  | .srcMapWrite _ _ => [.regs, .flt, .outs]
  | .resetStretchEnd _ _ => [.regs, .flt, .sys, .outs]
  | .islandRelease _ _ => Part.allBut [.sels, .caps, .staged, .xings, .tallies, .calPends, .hif, .syn]
  | .forcedRelease _ _ => [.regs, .flt, .sys, .outs]
  | .oscillatorCheckEnd _ _ _ _ => [.regs, .flt, .sys, .outs]
  | .loadAttemptComplete _ _ => [.regs, .flt, .mon, .tdc, .sys, .outs, .fresh]
  | .stepDeadline _ _ => Part.allBut [.sels, .caps, .staged, .tallies, .calPends]
  | .selfTestComplete _ _ _ => [.regs, .flt, .sys, .outs]
  | .profileResetApply => Part.all
  | .profileWaitTimeout => [.regs, .ref, .flt, .mon, .hif, .sys, .outs]
  | .bootRomStart _ _ => [.regs, .ref, .flt, .mon, .sys, .outs]
  | .fwStepLate _ => [.regs, .ref, .flt, .mon, .sys, .outs]
  | .servoRestart _ _ => [.regs, .flt, .mon, .sys, .outs]
  | .discardMgmt _ _ => [.regs, .flt, .mon, .sys, .outs]
  | .discardServo _ _ => [.regs, .flt, .mon, .sys, .outs]
  | .watchdogFeed _ _ _ => [.regs, .sys, .outs]
  | .mgmtWatchdogExpiry _ => Part.all
  | .servoWdog _ => [.regs, .flt, .sys, .outs]
  | .debugAttach => [.regs, .sys, .outs, .fresh]
  | .fwMeasurementPost _ _ => [.regs, .sys, .outs]
  | .spdmRequest _ => [.outs]
  | .scrubAccess _ _ _ _ _ => [.regs, .flt, .mon, .sys, .outs]
  | .scrubLate _ _ => [.regs, .flt, .sys, .outs]
  | .eccLapRead _ => [.regs, .flt, .outs]
  | .faultCollect _ => Part.all
  | .faultAck _ _ => [.regs, .flt, .outs]
  | .reactionTimerExpiry _ => Part.all
  | .aliveResume _ _ => [.regs, .flt, .outs]
  | .testModeWrite _ _ => [.regs, .flt, .outs]
  | .recoveryEnd _ => [.flt, .sys, .outs]
  | .counterCfgWrite _ _ _ _ => [.regs, .flt, .mon, .outs]
  | .counterClear _ _ => [.regs, .flt, .outs]
  | .bwWindowEnd _ => [.regs, .mon, .outs]
  | .bwPeakRead _ _ => [.regs, .flt, .outs]
  | .histDepthSample _ => [.regs, .flt, .mon, .outs]
  | .histClear _ _ _ => [.regs, .flt, .outs]
  | .canaryMeasure _ _ _ _ _ => [.regs, .flt, .mon, .outs, .fresh]
  | .marginPlan => Part.allBut [.sels, .caps, .staged, .xings, .tallies, .calPends, .hif, .syn]
  | .avsReadbackCheck _ _ => [.regs, .flt, .mon, .outs]
  | .avsCodeWrite _ _ => [.regs, .flt, .mon, .sys, .outs]
  | .ageingLogShort _ _ _ => [.regs, .ref, .flt, .mon, .outs, .fresh]
  | .ageingLogLong _ _ _ => [.regs, .ref, .flt, .mon, .outs, .fresh]
  | .qualifyTimeExpiry _ => [.regs, .tim, .ref, .flt, .outs]
  | .txDriverAwake _ => [.regs, .tim, .ref, .flt, .pte, .ing, .buf, .egr, .red, .mon, .lnk, .sys, .outs, .fresh]
  | .quadCalibrationDone _ _ _ => Part.allBut [.sels, .caps, .staged, .xings, .tallies, .hif, .syn, .tdc]
  | .insertionCopyAgeLimit _ _ => [.regs, .flt, .buf, .egr, .mon, .outs, .fresh]
  | .coreCycleCount => [.regs, .flt, .egr, .mon, .outs]
  | .pcieLinkUp _ _ => [.regs, .hif, .outs]
  | .p65FrameSend _ => [.buf, .outs]
  | .jtagInstruction _ => [.sys, .outs]

/-- The commands that are writes of one register of BAR0: the requester, the offset of the word that
acts, and the value written to it. -/
def writeOf : Instr → Option (Requester × Nat × Nat)
  | .stepRequest req hi => some (req, 0x40034, hi)
  | .lastSetRequest req hi => some (req, 0x40028, hi)
  | .slewRequest req hi => some (req, 0x40054, hi)
  | .slewCfgWrite req val => some (req, 0x40048, val)
  | .domainSwitchRequest req val => some (req, 0x40000, val)
  | .switchArm req val => some (req, 0x40000, val)
  | .switchCancel req val => some (req, 0x40000, val)
  | .switchTimeWrite req hi => some (req, 0x40068, hi)
  | .domainRelease req val => some (req, 0x40000, val)
  | .weltEnaWrite req val => some (req, 0x40000, val)
  | .domainMapWrite req domB val => some (req, if domB then 0x60024 else 0x60020, val)
  | .intervalWrite req val => some (req, 0x60108, val)
  | .portStateWrite req w => some (req, 0x60104, w.val)
  | .portEnableWrite req val => some (req, 0x60100, val)
  | .prioTableCommit req val => some (req, 0x70008, val)
  | .dpllModeWrite req d val => some (req, 0x72000 + 0x100 * d, val)
  | .dpllHoldoverRequest req d val => some (req, 0x7200C + 0x100 * d, val)
  | .dpllForce req d val => some (req, 0x7200C + 0x100 * d, val)
  | .dpllRealign req d val => some (req, 0x7200C + 0x100 * d, val)
  | .olFreqWrite req d hi => some (req, 0x72060 + 0x100 * d + 4, hi)
  | .olPhaseWrite req d hi => some (req, 0x72068 + 0x100 * d + 4, hi)
  | .hostPhaseWrite req hi => some (req, 0x7001C, hi)
  | .xoCorrWrite req hi => some (req, 0x7002C, hi)
  | .candCfgWrite req c val => some (req, 0x71000 + 0x40 * c, val)
  | .candPeriodWrite req c hi => some (req, 0x71004 + 0x40 * c + 8, hi)
  | .synceBindWrite req val => some (req, 0x70004, val)
  | .synCommit req val => some (req, 0x80018, val)
  | .outputStart req n val => some (req, 0x80800 + 0x40 * n, val)
  | .outputStop req n val => some (req, 0x80800 + 0x40 * n, val)
  | .outputRealign req n val => some (req, 0x80800 + 0x40 * n, val)
  | .intervalArm req n val => some (req, 0x91004 + 0x40 * n, val)
  | .tdcChCfgWrite req n val => some (req, 0x91000 + 0x40 * n, val)
  | .prescalerWrite req val => some (req, 0x90020, val)
  | .tdcRefillRequest req val => some (req, 0x9000C, val)
  | .tdcTableCommit req val => some (req, 0x90010, val)
  | .lnkCommit req val => some (req, 0xA000C, val)
  | .laneCfgWrite req val => some (req, 0xA0408, val)
  | .txeqWrite req val => some (req, 0xA040C, val)
  | .recalPartial req val => some (req, 0xA0430, val)
  | .recalFull req val => some (req, 0xA0430, val)
  | .ingTableRead req val => some (req, 0xB0040, val)
  | .ingTableWrite req val => some (req, 0xB0040, val)
  | .streamGateCommit req val => some (req, 0xB0044, val)
  | .bufAdmissionCommit req val => some (req, 0xC0020, val)
  | .shaperRateWrite req c val => some (req, 0xD0204 + 0x10 * c, val)
  | .gateEnableWrite req val => some (req, 0xD0110, val)
  | .gateCommit req val => some (req, 0xD0114, val)
  | .gateCancel req val => some (req, 0xD0114, val)
  | .gateRealign req val => some (req, 0xD0114, val)
  | .egrTableRead req val => some (req, 0xD0010, val)
  | .egrTableWrite req val => some (req, 0xD0010, val)
  | .frerFunctionReset req val => some (req, 0xE0114, val)
  | .frerCfgWrite req val => some (req, 0xE0100, val)
  | .ringStart req val => some (req, 0x30114, val)
  | .ringStop req val => some (req, 0x30114, val)
  | .ringReset req val => some (req, 0x30114, val)
  | .rstRequest req val => some (req, 0x10024, val)
  | .srcMapWrite req val => some (req, 0x1000C, val)
  | .forcedRelease req val => some (req, 0x10020, val)
  | .servoRestart req val => some (req, 0x3800C, val)
  | .discardMgmt req val => some (req, 0x3800C, val)
  | .discardServo req val => some (req, 0x3800C, val)
  | .faultAck req val => some (req, 0x20008, val)
  | .aliveResume req val => some (req, 0x20004, val)
  | .testModeWrite req val => some (req, 0x20004, val)
  | .counterCfgWrite req k val thr => some (req, 0xF0110 + 8 * (k % 8) + 4 * b2n thr, val)
  | .counterClear req val => some (req, 0xF0108, val)
  | .histClear req u val => some (req, 0xF0400 + 0x80 * (u % 8), val)
  | .avsCodeWrite req val => some (req, 0xF0910, val)
  | _ => none

end Sys2Proof.Machine
end

