-- ==== Sys2Proof/Certificates/Slice0/Obligations.lean ====
section
/-!
DEFINITION. Sys2Proof/Certificates/Slice0/Obligations.lean: the statements for the provers. Where a statement says what a
command does, it names the state and operands on which the command has its own effect, and the next state that the rules
give; `s.begin` is `s` without the outputs of the step before (notes/assumptions/2.md).
-/

open Sys2Proof Sys2Proof.Machine

/-- For every command c, state s and queue q, a step of s with c at the front of its queue is exec c on s with the queue's
rest. The queue is the model's own, not the spec's (notes/assumptions/1.md). -/
def Obligations.StepRunsTheFrontCommand : Prop :=
  ∀ (c : Instr) (q : List Instr) (s : State),
    step { s with pending := c :: q } = exec c { s with pending := q }

/-- With no command waiting a step leaves the state as it is. This is the model's choice (notes/assumptions/1.md), no rule of
the spec. -/
def Obligations.EmptyQueueIdles : Prop :=
  ∀ s : State, s.pending = [] → step s = .next s

/-- For every command and every state, whatever its operands, exec answers a next state. An access that cannot reach its
register, a unit that is down or a precondition that does not hold gives the next state the rules give, never a stop. -/
def Obligations.EveryCommandAnswersANextState : Prop :=
  ∀ (c : Instr) (s : State), ∃ t, exec c s = .next t

/-- For every command c and states s and t: if exec c s answers next t, then t has the queue of s, and every part of the state
outside writes c (Safety.lean: one list of parts for each command) is in t as it is in s. The parts are the register file, the
selects, captures and staging of the requesters, the crossings, and the typed state of each block. -/
def Obligations.EveryCommandWritesItsPartsOnly : Prop :=
  ∀ (c : Instr) (s t : State), exec c s = .next t → onlyWrites (writes c) s t

/-- For every state s in which no register entry equals its reset value, with keys strictly rising, and in which the Last is
in the format of R41 (48-bit seconds, nanoseconds below 1,000,000,000, a 32-bit fraction, a residue of 0 to 4 fifths): if a
step of s answers next t, both hold of t. -/
def Obligations.EveryStepKeepsRegistersCanonicalAndLastInFormat : Prop :=
  ∀ s t : State, regsWf s → lastInFormat s → step s = .next t → regsWf t ∧ lastInFormat t

/-- State.reset has a canonical register file, a Last in the format of R41, and an empty queue. -/
def Obligations.ResetMeetsTheInvariant : Prop :=
  regsWf State.reset ∧ lastInFormat State.reset ∧ State.reset.pending = []

/-- For every requester, offset below 1 MiB, value and size: a REGISTER_WRITE whose size is not 4 or whose offset is no
multiple of 4 answers the state with REG_ACCESS_SIZE raised and nothing else. A read at any offset outputs the value that the
read of its enclosing word outputs, from the octet at the offset on (little-endian), and leaves the same state but for that
output. -/
def Obligations.MisalignedAccessesActOnNoRegister : Prop :=
  (∀ (req : Requester) (off val size : Nat) (s : State), off < 0x100000 → (size ≠ 4 ∨ off % 4 ≠ 0) →
    exec (.registerWrite req off val size) s = .next (raise R.FLT_GEN_EVENT_REG_ACCESS_SIZE s.begin 0 off)) ∧
  (∀ (req : Requester) (off : Nat) (s : State), off < 0x100000 → ∃ v t,
    exec (.captureRead req (off / 4 * 4)) s = .next (emit (.readData req (off / 4 * 4) v) t) ∧
    exec (.captureRead req off) s = .next (emit (.readData req off (v / 256 ^ (off % 4))) t))

/-- For every requester and every aligned offset of BAR0 that has no register and is no select register: a read outputs 0 and
changes nothing else; where the write goes to one instance, a write of a word answers the state with REG_ACCESS_UNMAPPED
raised and nothing else. -/
def Obligations.UnmappedOffsetsReadZeroAndDiscardWrites : Prop :=
  ∀ (req : Requester) (off : Nat) (s : State), off < 0x100000 → off % 4 = 0 → isSel off = false → regRow off = none →
    exec (.captureRead req off) s = .next (emit (.readData req off 0) s.begin) ∧
    (∀ val i, targets s req off = [i] →
      exec (.registerWrite req off val 4) s = .next (raise R.FLT_GEN_EVENT_REG_ACCESS_UNMAPPED s.begin 0 off))

/-- For each command that is the write of one register (writeOf of Safety.lean: its requester, its offset and its value), on
every state: where the write goes to one instance and the gate of the access (gateOf of Gate.lean) does not pass (unmapped
offset, absent by grade, island down, crossing to the island lost), the next state is the state with that gate's event. -/
def Obligations.WritesThatAreStoppedRaiseTheirEventOnly : Prop :=
  ∀ (c : Instr) (req : Requester) (off val i : Nat) (s : State), writeOf c = some (req, off, val) →
    targets s req off = [i] → gateOf s off i ≠ .pass →
    exec c s = .next (gateEvent (gateOf s off i) off true s.begin)

/-- For each well-formed command that is the write of one register (writeOf of Safety.lean: requester, offset and value): on
every state it answers what REGISTER_WRITE of that value at that offset answers; PORT_STATE_WRITE where it reports no L1Sync
state. PORT_STATE_WRITE with a report, where the write goes to one instance and its gate passes, answers the plain write on
the state that holds the reported L1Sync state (notes/assumptions/151.md). -/
def Obligations.OwnRowAndRegisterWriteAgree : Prop :=
  (∀ (c : Instr) (req : Requester) (off val : Nat) (s : State), c.wf = true → writeOf c = some (req, off, val) →
    (∀ q w, c = .portStateWrite q w → w.l1 = none) → exec c s = exec (.registerWrite req off val 4) s) ∧
  (∀ (req : Requester) (w : PortStateSet) (i : Nat) (s : State), reaches req 0x60104 i s →
    exec (.portStateWrite req w) s = .next (writePortState w.val i (reportL1 req w.l1 i s.begin)))

/-- For TIM_LAST_SET, TIM_SWITCH_TIME, SYN_OUT_EPOCH of each output and the admin base time of a front port without a pending
change: where the write of word +0x8 reaches its register and the word that the requester staged at +0x0 exceeds 999,999,999,
TIME_WRITE_COMMIT answers the state with TIME_FORMAT raised and nothing else; so do LAST_SET_REQUEST and SWITCH_TIME_WRITE. -/
def Obligations.TimesWithTooManyNanosecondsAreRejected : Prop :=
  ∀ (req : Requester) (hi : Nat) (s : State), hi < 2 ^ 32 →
    (reaches req 0x40028 0 s → 999999999 < stagedWord s req 0x40020 →
      exec (.timeWriteCommit req 0x40028 hi) s = .next (raise R.FLT_GEN_EVENT_TIME_FORMAT s.begin 0 0x40028) ∧
      exec (.lastSetRequest req hi) s = .next (raise R.FLT_GEN_EVENT_TIME_FORMAT s.begin 0 0x40028)) ∧
    (reaches req 0x40068 0 s → 999999999 < stagedWord s req 0x40060 →
      exec (.timeWriteCommit req 0x40068 hi) s = .next (raise R.FLT_GEN_EVENT_TIME_FORMAT s.begin 0 0x40068) ∧
      exec (.switchTimeWrite req hi) s = .next (raise R.FLT_GEN_EVENT_TIME_FORMAT s.begin 0 0x40068)) ∧
    (∀ n, n < 12 → reaches req (0x8080C + 0x40 * n) 0 s → 999999999 < stagedWord s req (0x80804 + 0x40 * n) →
      exec (.timeWriteCommit req (0x8080C + 0x40 * n) hi) s =
        .next (raise R.FLT_GEN_EVENT_TIME_FORMAT s.begin 0 (0x8080C + 0x40 * n))) ∧
    (∀ o, o < 64 → reaches req 0xD0128 o s → (egrPort s o).pend = none → 999999999 < stagedWord s req 0xD0120 o →
      exec (.timeWriteCommit req 0xD0128 hi) s = .next (raise R.FLT_GEN_EVENT_TIME_FORMAT s.begin 0 0xD0128))

/-- For every requester. REGISTER_WRITE of an aligned word that is no select register, SELECT_WRITE and TIME_WRITE_COMMIT of
it have, instance after instance of those the write goes to, the register's effect where the access passes and else the event
of what stops it; where one instance is reached, that effect alone. On a select register, while HOST is up, the three keep
BCAST and INDEX of the value for that requester and block, and touch no other select. CAPTURE_READ of an aligned word whose
gate passes outputs the word and leaves the state as it is, where the word is no part of a multi-word register and its read
has no effect of its own; at word +0x0 of a multi-word register below 0xF0000 it also keeps every word of the register for
that requester and instance; at a later word it outputs the kept one. Any other read that passes answers what readWord of
Bus.lean says of it. A read of a select register outputs it while HOST is up. BAR0_ACCESS_TIMEOUT of a mapped register of an
island other than HOST and SAFE outputs 0 for a read and nothing for a write, with the crossing from HOST to the owning island
hung; where that crossing or clock is lost already, with the fault alone. -/
def Obligations.RegisterAccessesTakeEffect : Prop :=
  (∀ (req : Requester) (off val : Nat) (s : State), off < 0x100000 → off % 4 = 0 → isSel off = false →
    let t := writeAt req off (effect req off (val % 2 ^ 32)) s.begin
    exec (.registerWrite req off val 4) s = .next t ∧ exec (.selectWrite req off val) s = .next t ∧
    exec (.timeWriteCommit req off val) s = .next t ∧
    ∀ i, reaches req off i s → t = effect req off (val % 2 ^ 32) i s.begin) ∧
  (∀ (req : Requester) (off val : Nat) (s : State), off < 0x100000 → off % 4 = 0 → isSel off = true → hostUp s = true →
    ∃ t, exec (.selectWrite req off val) s = .next t ∧ exec (.registerWrite req off val 4) s = .next t ∧
      exec (.timeWriteCommit req off val) s = .next t ∧ onlyWrites [.sels, .outs] s t ∧ t.outs = [] ∧
      selWord t req off = bitsOf (val % 2 ^ 32) 31 1 * 2 ^ 31 + val % 2 ^ 32 % 65536 ∧
      ∀ q b, (q, b) ≠ (req, blockOf off) → b < 16 → selWord t q (b * 0x10000) = selWord s q (b * 0x10000)) ∧
  (∀ (req : Requester) (off : Nat) (s : State), off < 0x100000 → off % 4 = 0 → isSel off = false →
    gateOf s off (readInst s req off) = .pass →
    let i := readInst s req off
    let r := readWord req off i s.begin
    exec (.captureRead req off) s = .next (emit (.readData req off (r.1 % 2 ^ 32)) r.2) ∧
    (captureOf off = none → readPlain off = true →
      exec (.captureRead req off) s = .next (emit (.readData req off (viewWord s off i % 2 ^ 32)) s.begin)) ∧
    (∀ n, captureOf off = some (off, n) → off < 0xF0000 →
      ∃ t, exec (.captureRead req off) s = .next t ∧ onlyWrites [.caps, .outs] s t ∧
        t.outs = [.readData req off (viewWord s off i % 2 ^ 32)] ∧
        ∀ k, k < n → smGet 0 t.caps (instKey req (off + 4 * k) i) = viewWord s (off + 4 * k) i % 2 ^ 32) ∧
    (∀ base n, captureOf off = some (base, n) → off ≠ base →
      exec (.captureRead req off) s = .next (emit (.readData req off (smGet 0 s.caps (instKey req off i) % 2 ^ 32)) s.begin))) ∧
  (∀ (req : Requester) (off : Nat) (s : State), off < 0x100000 → off % 4 = 0 → isSel off = true → hostUp s = true →
    exec (.captureRead req off) s = .next (emit (.readData req off (selRead s req off)) s.begin)) ∧
  (∀ (off : Nat) (acc : Access) (s : State), isSel off = false →
    let i := readInst s acc.req off
    let isl := ownerOf off i
    isl ≠ islHOST → isl ≠ islSAFE →
    (gateOf s off i = .pass →
      exec (.bar0AccessTimeout off acc) s = .next (zeroAnswer off acc (crossHang islHOST isl s.begin))) ∧
    (gateOf s off i = .lost isl →
      exec (.bar0AccessTimeout off acc) s = .next (zeroAnswer off acc (hangFault islHOST isl s.begin))))

/-- CROSSING_UP on a crossing of the device that is down and whose two islands are up brings it up, without words; a crossing
from TIME also starts the copy of the Last at its destination (copyStart), and with any other the crossings are all that
changes; every other crossing is as it was. CROSSING_DELIVER over a crossing that is up and has a place in its depth writes
the word, cut to the width of the crossing, behind those that wait; over a full one it changes nothing; without a word it
delivers the oldest word that waits. Over a crossing that is down it does nothing. CROSSING_HANG on a crossing that is up,
both sides reporting clock-valid, takes that crossing down with what it loses (crossHang) and queues the fault CROSSING_HANG
for SAFE, naming both islands. -/
def Obligations.CrossingsCarryWordsOnlyWhileUp : Prop :=
  (∀ (src dst : Nat) (s : State), src < 32 → dst < 32 → isCrossing s src dst = true → islUp s src = true → islUp s dst = true →
    crossUp s src dst = false →
    ∃ t, exec (.crossingUp src dst) s = .next t ∧ t = whenS (src == islTIME) (copyStart dst) (setCross src dst true s.begin) ∧
      smGet Xing.down t.xings (src * 32 + dst) = ⟨true, []⟩ ∧ onlyWrites [.xings, .tim, .outs, .fresh] s t ∧
      (src ≠ islTIME → onlyWrites [.xings, .outs] s t) ∧
      ∀ a b, a < 32 → b < 32 → (a, b) ≠ (src, dst) → smGet Xing.down t.xings (a * 32 + b) = smGet Xing.down s.xings (a * 32 + b)) ∧
  (∀ (src dst w : Nat) (l : List Nat) (bits depth : Nat) (s : State),
    smGet Xing.down s.xings (src * 32 + dst) = ⟨true, l⟩ → crossSize src dst = some (bits, depth) → l.length < depth →
    exec (.crossingDeliver src dst (some w)) s =
      .next { s.begin with xings := smPut Xing.down s.xings (src * 32 + dst) ⟨true, l ++ [w % 2 ^ bits]⟩ }) ∧
  (∀ (src dst w : Nat) (l : List Nat) (bits depth : Nat) (s : State),
    smGet Xing.down s.xings (src * 32 + dst) = ⟨true, l⟩ → crossSize src dst = some (bits, depth) → depth ≤ l.length →
    exec (.crossingDeliver src dst (some w)) s = .next s.begin) ∧
  (∀ (src dst v : Nat) (l : List Nat) (bits depth : Nat) (s : State),
    smGet Xing.down s.xings (src * 32 + dst) = ⟨true, v :: l⟩ → crossSize src dst = some (bits, depth) →
    exec (.crossingDeliver src dst none) s =
      .next (emit (.crossed src dst v) { s.begin with xings := smPut Xing.down s.xings (src * 32 + dst) ⟨true, l⟩ })) ∧
  (∀ (src dst : Nat) (word : Option Nat) (s : State), crossUp s src dst = false →
    exec (.crossingDeliver src dst word) s = .next s.begin) ∧
  (∀ (src dst : Nat) (s : State), crossUp s src dst = true → islClkValid s src = true → islClkValid s dst = true →
    ∃ t, exec (.crossingHang src dst) s = .next t ∧ t = crossHang src dst s.begin ∧ crossUp t src dst = false ∧
      t.flt.faults.getLast? = some ⟨(faultBit 6).src, dst, src, 0, src⟩)

/-- ISLAND_CLOCK_LOSS on a present island other than SAFE answers clockLoss of it: its clock-valid and what was in it go, and
an island in service is fenced with the fault. ISLAND_CLOCK_RETURN on one answers clockReturn of it (TIME and TDC with APLL1
locked; the condition is DEDUCED, see the log); where TIME is released and its clock-valid was 0, the Last resumes from its
kept value, invalid, with LAST_DISCONTINUITY, and clock-valid is 1. APLL_LOCK of an unlocked APLL (of APLL0 after the
oscillator check) sets its LOCK bit, with the milestone of APLL0, the quads of APLL1 and OFFSET_LOCK of APLL2, and then what
its outputs start. APLL_UNLOCK of a locked APLL clears the bit, raises its event or fault and squelches its outputs; with
APLL1 the clock of TIME is lost, with APLL2 every tally of a present front port is invalid. -/
def Obligations.ClockMonitorsAndApllsDriveClockValid : Prop :=
  (∀ (isl : Nat) (s : State), isl ≠ 0 → islPresent s isl = true → exec (.islandClockLoss isl) s = .next (clockLoss isl s.begin)) ∧
  (∀ (isl : Nat) (s : State), isl ≠ 0 → islPresent s isl = true → (isl = islTIME ∨ isl = islTDC → apllLocked s 1 = true) →
    exec (.islandClockReturn isl) s = .next (clockReturn isl s.begin)) ∧
  (∀ s : State, islPresent s islTIME = true → apllLocked s 1 = true → islClkValid s islTIME = false → islReleased s islTIME = true →
    ∃ t, exec (.islandClockReturn islTIME) s = .next t ∧ t.tim = { s.tim with lastValid := false } ∧
      flag t R.TIM_EVENT_LAST_DISCONTINUITY = true ∧ islClkValid t islTIME = true) ∧
  (∀ (j us : Nat) (s : State), j < 5 → apllLocked s j = false → (j = 0 → s.sys.oscOk = true) →
    ∃ u, exec (.apllLock j us) s = .next (if synUp u then locked j u else u) ∧
      u = whenS (j == 2) (setF R.TSU_GSTAT_OFFSET_LOCK 1) (whenS (j == 1) quadClks (whenS (j == 0) (milestone 3)
        (setF R.SYN_APLL_STAT_LOCK (putBit (getF s R.SYN_APLL_STAT_LOCK) j true) (tickUs us s.begin))))) ∧
  (∀ (j : Nat) (s : State), (j = 3 ∨ j = 4) → apllLocked s j = true →
    exec (.apllUnlock j) s = .next (outIds.foldl (fun s n => if squelched s j n then squelch n s else s)
      (raise (R.SYN_EVENT_APLL_UNLOCK.up j) (setF R.SYN_APLL_STAT_LOCK (putBit (getF s R.SYN_APLL_STAT_LOCK) j false) s.begin)))) ∧
  (∀ (j : Nat) (s : State), j < 3 → apllLocked s j = true →
    ∃ u, exec (.apllUnlock j) s = .next (if j = 1 then clockLoss islTIME (quadClks u) else u) ∧
      u = whenS (j == 2) (fun s => (List.range 64).foldl (fun s n => if frontPresent s n then tallyInvalid n s else s)
            (setF R.TSU_GSTAT_OFFSET_LOCK 0 s))
          (outIds.foldl (fun s n => if squelched s j n then squelch n s else s)
            ((fun s => if j = 0 then raiseFault R.SYN_EVENT_APLL_UNLOCK islSYN 0 0 islSYN s
                else if j = 1 then raiseFault (R.SYN_EVENT_APLL_UNLOCK.up 1) islTIME 0 0 islSYN s
                else raise (R.SYN_EVENT_APLL_UNLOCK.up 2) s)
              (setF R.SYN_APLL_STAT_LOCK (putBit (getF s R.SYN_APLL_STAT_LOCK) j false) s.begin))))

/-- While TIME runs, LAST_INCREMENT puts the Last one tick on and leaves LAST_VALID and the step count. A tick adds 1 ns and
2,576,980,377 units of 2^-32 ns, and 3 to the residue; a residue of 5 or more gives 5 back for one further unit; nanoseconds
carry into seconds at 1,000,000,000 and the 48-bit seconds wrap. Five ticks add exactly 8 ns and bring the residue back, in
every state of the format. -/
def Obligations.TheLastAdvancesByOnePointSixNs : Prop :=
  (∀ s : State, timRuns s = true → ∃ t, exec .lastIncrement s = .next t ∧ t.tim.last = s.tim.last.tick ∧
    t.tim.lastValid = s.tim.lastValid ∧ t.tim.stepCount = s.tim.stepCount) ∧
  (∀ l : Last, l.sec < 2 ^ 48 → l.ns < 1000000000 → l.frac < 2 ^ 32 → l.res < 5 →
    l.tick.units = (l.units + 4294967296 + 2576980377 + (if l.res + 3 ≥ 5 then 1 else 0)) % (281474976710656 * secUnits) ∧
    l.tick.res = (if l.res + 3 ≥ 5 then l.res + 3 - 5 else l.res + 3) ∧
    l.tick.sec < 2 ^ 48 ∧ l.tick.ns < 1000000000 ∧ l.tick.frac < 2 ^ 32) ∧
  (∀ l : Last, l.sec < 2 ^ 48 → l.ns < 1000000000 → l.frac < 2 ^ 32 → l.res < 5 →
    l.tick.tick.tick.tick.tick.units = (l.units + 8 * 4294967296) % (281474976710656 * secUnits) ∧
    l.tick.tick.tick.tick.tick.res = l.res)

/-- STEP_REQUEST of a staged amount and LAST_SET_REQUEST of a staged time, where they reach their register, request a step
(requestStep): with none pending, the request is pending at the first whole microsecond of the Last at least 1 us ahead; with
one pending, STEP_REJECTED raises and the state is otherwise as it was, except that a host request takes the place of a servo
request of the same cycle of the Last (the order within one cycle as notes/assumptions/148.md says). SERVO_PHASE_CORRECTION
with TIME up slews an amount of at most STEP_THRESH_US (all of them where that is 0) and requests a step of a larger one.
STEP_APPLY with the instant reached answers applyStep of the pending request; the Last after it (stepLast) is the value of a
set, with a residue of 0, or the Last plus the amount with its residue kept, it is valid, nothing is pending, and the step
count is one more modulo 2^32. -/
def Obligations.StepsAreRequestedOnceAndAppliedWhole : Prop :=
  (∀ (req : Requester) (hi : Nat) (s : State), reaches req 0x40034 0 s →
    exec (.stepRequest req hi) s = .next (requestStep false false false (stagedS64 s req 0x40030 hi * 65536) s.begin)) ∧
  (∀ (req : Requester) (hi : Nat) (s : State), reaches req 0x40028 0 s → stagedWord s req 0x40020 ≤ 999999999 →
    exec (.lastSetRequest req hi) s = .next (requestStep true false false (stagedT96 s req 0x40020 hi).units s.begin)) ∧
  (∀ (absolute adopt servo : Bool) (value : Int) (s : State),
    (s.tim.step = none → requestStep absolute adopt servo value s =
      { s with tim := { s.tim with step := some ⟨stepInstant (now s), absolute, value, adopt, servo, s.tim.cyc⟩ } }) ∧
    ∀ q, s.tim.step = some q →
      (q.servo = true ∧ servo = false ∧ q.cyc = s.tim.cyc → requestStep absolute adopt servo value s = raise R.TIM_EVENT_STEP_REJECTED
        { s with tim := { s.tim with step := some ⟨stepInstant (now s), absolute, value, adopt, servo, s.tim.cyc⟩ } }) ∧
      (¬ (q.servo = true ∧ servo = false ∧ q.cyc = s.tim.cyc) →
        requestStep absolute adopt servo value s = raise R.TIM_EVENT_STEP_REJECTED s)) ∧
  (∀ t : Int, stepInstant t % unitUs = 0 ∧ t + unitUs ≤ stepInstant t ∧
    ∀ x, x % unitUs = 0 → t + unitUs ≤ x → stepInstant t ≤ x) ∧
  (∀ (amount : Int) (s : State), timUp s = true →
    exec (.servoPhaseCorrection amount) s = .next (
      if getF s R.TIM_SLEW_CFG_STEP_THRESH_US = 0 ∨ amount.natAbs ≤ getF s R.TIM_SLEW_CFG_STEP_THRESH_US * 1000 * 65536
      then addSlew amount s.begin else requestStep false false true (amount * 65536) s.begin)) ∧
  (∀ (q : StepReq) (s : State), s.tim.step = some q → timRuns s = true → q.instant ≤ now s →
    exec .stepApply s = .next (applyStep q s.begin)) ∧
  (∀ (q : StepReq) (a : Int) (s : State), (q.absolute = true →
      (stepLast q a s).tim.last = Last.ofUnits q.value 0) ∧ (q.absolute = false →
      (stepLast q a s).tim.last = Last.ofUnits (now s + a) s.tim.last.res) ∧
    (stepLast q a s).tim.lastValid = true ∧ (stepLast q a s).tim.step = none ∧ (stepLast q a s).tim.stepAmt = a ∧
    (stepLast q a s).tim.stepCount = (s.tim.stepCount + 1) % 2 ^ 32)

/-- SLEW_REQUEST that reaches its register adds the staged signed amount, at 2^32 units each, to the remainder, and changes
nothing else of TIME's state; where that takes away all that remained, SLEW_DONE is set (the model's reading of R54,
notes/assumptions/54.md). SLEW_CFG_WRITE that reaches its register answers writeSlewCfg: SLEW_PPB acts as 1 to 10,000,
STEP_THRESH_US is kept, and TIME's state with the remainder does not change. In each LAST_INCREMENT of a running slew the
remainder falls by the gain of (8 s + res5) / 5, its sign respected, or becomes 0 where the gain covers it, and res5 is the
rest. SLEW_DONE in the last cycle of a slew takes that cycle, brings the remainder to 0 and sets SLEW_DONE. -/
def Obligations.SlewsRunAtTheSlewWord : Prop :=
  (∀ (req : Requester) (hi : Nat) (s : State), reaches req 0x40054 0 s →
    exec (.slewRequest req hi) s = .next (addSlew (stagedS64 s req 0x40050 hi) s.begin)) ∧
  (∀ (amount : Int) (s : State), (addSlew amount s).tim = { s.tim with slewRem := s.tim.slewRem + amount * 4294967296 } ∧
    (s.tim.slewRem ≠ 0 → s.tim.slewRem + amount * 4294967296 = 0 → flag (addSlew amount s) R.TIM_EVENT_SLEW_DONE = true)) ∧
  (∀ (req : Requester) (val : Nat) (s : State), reaches req 0x40048 0 s →
    ∃ t, exec (.slewCfgWrite req val) s = .next t ∧ t = writeSlewCfg val s.begin ∧ t.tim = s.tim ∧
      slewPpb t = min 10000 (max 1 (val % 65536)) ∧ getF t R.TIM_SLEW_CFG_STEP_THRESH_US = val / 65536 % 65536) ∧
  (∀ s : State, timRuns s = true → s.tim.slewRem ≠ 0 → (8 * slewWord s + s.tim.slewRes5) / 5 ≥ s.tim.slewRem.natAbs →
    exec .slewDone s = .next (slewStep s.begin) ∧ (slewStep s.begin).tim.slewRem = 0 ∧
      flag (slewStep s.begin) R.TIM_EVENT_SLEW_DONE = true) ∧
  (∀ s : State, timRuns s = true → s.tim.slewRem ≠ 0 → ∃ t, exec .lastIncrement s = .next t ∧
    t.tim.slewRem = (if (8 * slewWord s + s.tim.slewRes5) / 5 ≥ s.tim.slewRem.natAbs then 0
      else s.tim.slewRem - sgn s.tim.slewRem * ((8 * slewWord s + s.tim.slewRes5) / 5)) ∧
    (t.tim.slewRes5 : Int) = (8 * slewWord s + s.tim.slewRes5) % 5)

/-- DOMAIN_ESTIMATE_POST with TIME up, the servo running and its domain enabled keeps the offset, rate and instant, fresh
where its age is within MAX_AGE_MS, and answers postEstimate, which updates the welt; without a given estimate the servo forms
it from the history the engine holds (servoEstimate, its arithmetic is the log's), and nothing is posted where it forms none.
DOMAIN_STALE on a fresh domain past MAX_AGE_MS makes it not fresh, sets DOM_STALE, and then checks the welt and the activity
of the PTP candidates. DOMAIN_MAP_WRITE that reaches its register answers writeMap of its domain and value. -/
def Obligations.DomainEstimatesFeedTheWelt : Prop :=
  (∀ (domB : Bool) (o r tm : Int) (s : State), timUp s = true → servoRuns s = true → domEnabled s domB = true →
    ∃ t, exec (.domainEstimatePost domB (some (o, r, tm))) s = .next t ∧ t = postEstimate domB o r tm s.begin ∧
      dom t domB = ⟨true, decide (now s - tm ≤ maxAge s), o, r, tm⟩) ∧
  (∀ (domB : Bool) (s : State), timUp s = true → servoRuns s = true →
    exec (.domainEstimatePost domB none) s = .next (match servoEstimate domB s.begin with
      | (some (o, r, t), s) => postEstimate domB o r t s
      | (none, s) => s)) ∧
  (∀ (domB : Bool) (s : State), (dom s domB).fresh = true → maxAge s < domAge s domB →
    ∃ t, exec (.domainStale domB) s = .next t ∧
      t = activityCheck (weltCheck (raise R.TIM_EVENT_DOM_STALE (setDom domB { dom s domB with fresh := false } s.begin))) ∧
      dom t domB = { dom s domB with fresh := false } ∧ flag t R.TIM_EVENT_DOM_STALE = true) ∧
  (∀ (req : Requester) (domB : Bool) (val : Nat) (s : State), reaches req (if domB then 0x60024 else 0x60020) 0 s →
    exec (.domainMapWrite req domB val) s = .next (writeMap domB val s.begin))

/-- DOMAIN_SWITCH_REQUEST, SWITCH_ARM, SWITCH_CANCEL, DOMAIN_RELEASE and WELT_ENA_WRITE that reach TIM_CTL answer writeTimCtl
of their value. Without DOM_RELEASE and where DOM_REQ names the other domain (on -ED not B) it keeps ADOPT, WELT_ENA and
SWITCH_AT, and arms the switch (SWITCH_AT = 1) or switches by software at once; where DOM_REQ names the active domain, nothing
stays armed and no switch happens. With DOM_RELEASE a hold ends, with a selection of every DPLL. WELT_ENA from 0 to 1 leaves
the welt uninitialised, from 1 to 0 invalid. A switch by software is applied, and the domain held, unless R68 refuses it, as
with an invalid welt or a domain that is disabled or not fresh. SWITCH_TIME_WRITE of a valid time keeps it and tests the armed
switch against it; TIMED_SWITCH_INSTANT switches when the Last has reached it. BLEND_END at the end of the blend time answers
blendEnd: the target at the end of the blend is kept (ADOPT 0), converges (1, 3), or is the amount of a step, requested at
once with none pending and else held (2). CONVERGE_DONE in the last cycle of a convergence brings the target to 0 and writes
no register. -/
def Obligations.DomainSwitchesAreRequestedArmedCancelledAndRefused : Prop :=
  (∀ (req : Requester) (val : Nat) (s : State), reaches req 0x40000 0 s →
    exec (.domainSwitchRequest req val) s = .next (writeTimCtl val s.begin)) ∧
  (∀ (req : Requester) (val : Nat) (s : State), reaches req 0x40000 0 s →
    exec (.switchArm req val) s = .next (writeTimCtl val s.begin)) ∧
  (∀ (req : Requester) (val : Nat) (s : State), reaches req 0x40000 0 s →
    exec (.switchCancel req val) s = .next (writeTimCtl val s.begin)) ∧
  (∀ (req : Requester) (val : Nat) (s : State), reaches req 0x40000 0 s →
    exec (.domainRelease req val) s = .next (writeTimCtl val s.begin)) ∧
  (∀ (req : Requester) (val : Nat) (s : State), reaches req 0x40000 0 s →
    exec (.weltEnaWrite req val) s = .next (writeTimCtl val s.begin)) ∧
  (∀ (val : Nat) (s : State), bitOf val 1 = false → bitOf val 0 ≠ s.tim.activeB → (bitOf val 0 = true → domainB s = true) →
    writeTimCtl val s =
      (if bitOf val 7 then fun v => setFlag R.TIM_CTL_DOM_REQ (bitOf val 0) { v with tim := { v.tim with armed := true } }
       else fun v => softSwitch (bitOf val 0) (setFlag R.TIM_CTL_DOM_REQ (bitOf val 0) { v with tim := { v.tim with armed := false } }))
      (setFlag R.TIM_CTL_SWITCH_AT (bitOf val 7) (setWeltEna (bitOf val 6) (setF R.TIM_CTL_ADOPT (bitsOf val 4 2) s)))) ∧
  (∀ (val : Nat) (s : State), bitOf val 1 = true → bitOf val 0 = s.tim.activeB → (bitOf val 0 = true → domainB s = true) →
    ∃ u, writeTimCtl val s = domReqSync { u with tim := { u.tim with armed := false } } ∧
      u = setFlag R.TIM_CTL_SWITCH_AT (bitOf val 7)
        (releaseHold (setWeltEna (bitOf val 6) (setF R.TIM_CTL_ADOPT (bitsOf val 4 2) s)))) ∧
  (∀ s : State, (s.tim.domHeld = true → releaseHold s = selectAll { s with tim := { s.tim with domHeld := false } }) ∧
    (s.tim.domHeld = false → releaseHold s = s)) ∧
  (∀ s : State, (weltEna s = false → setWeltEna true s = weltUninit (setFlag R.TIM_CTL_WELT_ENA true s)) ∧
    (weltEna s = true → setWeltEna false s = weltCheck (setFlag R.TIM_CTL_WELT_ENA false s) ∧ (setWeltEna false s).tim.welt.valid = false)) ∧
  (∀ (val : Nat) (s : State), bitOf val 1 = false → bitOf val 0 = s.tim.activeB → (bitOf val 0 = true → domainB s = true) →
    (writeTimCtl val s).tim.armed = false ∧ (writeTimCtl val s).tim.activeB = s.tim.activeB ∧
    flag (writeTimCtl val s) R.TIM_CTL_DOM_REQ = s.tim.activeB) ∧
  (∀ (toB : Bool) (s : State),
    (switchRefused s toB true = true → softSwitch toB s = refuseSwitch s) ∧
    (switchRefused s toB true = false → softSwitch toB s = holdDomain toB (applySwitch toB s)) ∧
    (s.tim.welt.valid = false ∨ domEnabled s toB = false ∨ (dom s toB).fresh = false → switchRefused s toB true = true)) ∧
  (∀ (req : Requester) (hi : Nat) (s : State), reaches req 0x40068 0 s → stagedWord s req 0x40060 ≤ 999999999 →
    exec (.switchTimeWrite req hi) s = .next (timedSwitch (setT96 0x40060 0 (stagedT96 s req 0x40060 hi) s.begin))) ∧
  (∀ s : State, timUp s = true → s.tim.armed = true → (getT96 s 0x40060 0).units ≤ now s →
    exec .timedSwitchInstant s = .next (softSwitch (!s.tim.activeB) { s.begin with tim := { s.tim with armed := false } })) ∧
  (∀ (b : Blend) (s : State), s.tim.blend = some b → b.start + b.len ≤ now s →
    exec .blendEnd s = .next (blendEnd b s.begin)) ∧
  (∀ (b : Blend) (s : State), ∃ v : Int, v = (blendAt b b.len).1 ∧ (blendEnd b s).tim.blend = none ∧ (getF s R.TIM_CTL_ADOPT = 0 →
      blendEnd b s = { s with tim := { s.tim with target := v, targetRate := 0, blend := none } }) ∧
    ((getF s R.TIM_CTL_ADOPT = 1 ∨ getF s R.TIM_CTL_ADOPT = 3) →
      blendEnd b s = { s with tim := { s.tim with target := v, targetRate := 0, blend := none, converging := decide (v ≠ 0) } }) ∧
    (getF s R.TIM_CTL_ADOPT = 2 → s.tim.step = none →
      (blendEnd b s).tim.step = some ⟨stepInstant (now s), false, v / 65536, true, false, s.tim.cyc⟩) ∧
    (getF s R.TIM_CTL_ADOPT = 2 → s.tim.step ≠ none → blendEnd b s =
      { s with tim := { s.tim with target := v, targetRate := 0, blend := none, heldAdopt := true } })) ∧
  (∀ s : State, timRuns s = true → s.tim.converging = true → (8 * slewWord s + s.tim.convRes5) / 5 ≥ s.tim.target.natAbs →
    ∃ t, exec .convergeDone s = .next t ∧ t.tim.target = 0 ∧ t.tim.converging = false ∧ t.regs = s.regs)

/-- INTERVAL_WRITE that reaches its register leaves the word for the instance's next scheduled message. PORT_STATE_WRITE that
reaches its register takes the L1Sync state that it reports (reportL1, notes/assumptions/151.md) and then moves the state of
an enabled, unforced instance to a code of 1 to 9, and otherwise raises STATE_WRITE_IGNORED and nothing else;
PORT_ENABLE_WRITE that reaches its register answers writePtePortCfg of its value. TALLY_INVALID_TIMEOUT of a tally invalid for
more than 100 ms marks it and forces the port's instances (forcePort). SYNC_TIMEOUT of a slave at the limit raises
SYNC_TIMEOUT, once until the next Sync. DELAY_REQ_TIMEOUT drops and counts every Delay_Req past its limit. FUP_ENTRY_TIMEOUT
frees the entries of the correlation table at their limit. -/
def Obligations.PtpConfigurationIsWrittenAndItsLimitsExpire : Prop :=
  (∀ (req : Requester) (val : Nat) (i : Nat) (s : State), reaches req 0x60108 i s →
    exec (.intervalWrite req val) s = .next (setPteInst i { pteInst s i with pend := some (val % 2 ^ 32) } s.begin)) ∧
  (∀ (req : Requester) (w : PortStateSet) (i : Nat) (s : State), reaches req 0x60104 i s →
    exec (.portStateWrite req w) s = .next (writePortState w.val i (reportL1 req w.l1 i s.begin))) ∧
  (∀ (val i : Nat) (s : State),
    (bitsOf val 0 4 = 0 ∨ 9 < bitsOf val 0 4 ∨ flag s R.PTE_PORT_CFG_ENA i = false ∨ getF s R.PTE_PORT_STATE_FORCE_REASON i ≠ 0 →
      writePortState val i s = raise R.PTE_PORT_EVENT_STATE_WRITE_IGNORED s i) ∧
    (bitsOf val 0 4 ≠ 0 → bitsOf val 0 4 ≤ 9 → flag s R.PTE_PORT_CFG_ENA i = true → getF s R.PTE_PORT_STATE_FORCE_REASON i = 0 →
      writePortState val i s = movePteState i (bitsOf val 0 4) s)) ∧
  (∀ (req : Requester) (val : Nat) (i : Nat) (s : State), reaches req 0x60100 i s →
    exec (.portEnableWrite req val) s = .next (writePtePortCfg val i s.begin)) ∧
  (∀ (p : Nat) (s : State), flag s R.TSU_TALLY_VALID p = false → (tally s p).invalidSince + 100 * unitMs < now s →
    exec (.tallyInvalidTimeout p) s = .next (forcePort p (setTally p { tally s p with bad := true } s.begin))) ∧
  (∀ (i : Nat) (s : State), isSlave s i = true → (pteInst s i).syncLost = false →
    (pteInst s i).syncAt + (max 1 (getF s R.PTE_TIMEOUT_SYNC_RCPT i) : Nat) * logUnits (logSync s i) ≤ now s →
    exec (.syncTimeout i) s = .next (raise R.PTE_PORT_EVENT_SYNC_TIMEOUT (setPteInst i { pteInst s i with syncLost := true } s.begin) i)) ∧
  (∀ (i : Nat) (s : State),
    let late := (pteInst s i).wait.filter fun w => decide (w.limit ≤ now s)
    let u := setPteInst i { pteInst s i with wait := (pteInst s i).wait.filter fun w => !decide (w.limit ≤ now s) } s.begin
    exec (.delayReqTimeout i) s = .next (late.foldl (fun t _ => pteDrop i t) u) ∧
    (late ≠ [] → getF (late.foldl (fun t _ => pteDrop i t) u) R.PTE_CNT_DROP_COUNT i =
      (getF s R.PTE_CNT_DROP_COUNT i + late.length) % 2 ^ R.PTE_CNT_DROP_COUNT.w)) ∧
  (∀ s : State, exec .fupEntryTimeout s =
    .next { s.begin with pte := { s.pte with corr := s.pte.corr.filter fun e => decide (now s - e.at32 < fupLimit s) } })

/-- A MASTER instance that may speak sends its Sync (SYNC_TRANSMIT, sendSync) and Announce (ANNOUNCE_TRANSMIT, sendAnnounce,
with the template the firmware keeps) at the staggered instant of its port and interval, with a written interval in force from
then on; to a partner it sends them under a grant that is due. PDELAY_REQ_TRANSMIT at its instant and DELAY_REQ_TRANSMIT at
the drawn one queue their message under the next number; a Delay_Req waits for its answer up to the limit of R125, at most
eight waiting. TX_TIME_RETURN takes the oldest message of the port: with transmit time stamps on it forms the time (formTx),
keeps what the engine needs of it (keepTx), and sends the message with its insertion where ONESTEP_ENA is 1, else as it is,
counting which; without them it goes out as it is. Where the turnaround spans steps, the message to insert into is discarded
with RESIDENCE_SPAN_STEP. FOLLOW_UP_TRANSMIT sends the oldest Follow_Up due of an instance that may speak. -/
def Obligations.PtpMessagesAreSentAtTheirInstants : Prop :=
  (∀ (i : Nat) (s : State), pteOn s i = true → pteState s i = 6 → gmSilent s i = false → flag s R.PTE_PORT_CFG_UNICAST i = false →
    schedAfter (logSync s i) (instPort i) (pteInst s i).lastSync ≤ now s →
    exec (.syncTransmit i none) s = .next (sendSync i none (applyInterval i (setPteInst i { pteInst s i with lastSync := now s } s.begin)))) ∧
  (∀ (i a p : Nat) (s t : State), pteOn s i = true → pteState s i = 6 → gmSilent s i = false →
    unicastDue (partnerRead i a p s.begin) i a p 0 = true → useGrant i a p 0 (partnerRead i a p s.begin) = some t →
    exec (.syncTransmit i (some (a, p))) s = .next (sendSync i (some a) t)) ∧
  (∀ (i : Nat) (tmpl : Option (List Nat)) (s : State), pteOn s i = true → pteState s i = 6 → gmSilent s i = false →
    schedAfter (logAnn s i) (instPort i) (pteInst s i).lastAnn ≤ now s →
    exec (.announceTransmit i ⟨none, tmpl⟩) s = .next (sendAnnounce i none (applyInterval i
      (setPteInst i { pteInst (setTemplate i tmpl s.begin) i with lastAnn := now s } (setTemplate i tmpl s.begin))))) ∧
  (∀ (i a p : Nat) (tmpl : Option (List Nat)) (s t : State), pteOn s i = true → pteState s i = 6 → gmSilent s i = false →
    unicastDue (partnerRead i a p (setTemplate i tmpl s.begin)) i a p 11 = true →
    useGrant i a p 11 (partnerRead i a p (setTemplate i tmpl s.begin)) = some t →
    exec (.announceTransmit i ⟨some (a, p), tmpl⟩) s = .next (sendAnnounce i (some a) t)) ∧
  (∀ (i : Nat) (s : State), pdOn s i = true → schedAfter (logPd s i) (instPort i) (pteInst s i).lastPd ≤ now s →
    ∃ u, u = applyInterval i (setPteInst i { pteInst s i with lastPd := now s } s.begin) ∧
      exec (.pdelayReqTransmit i) s = .next (queueTx ⟨i, ptpMsg u i 2 (pteInst u i).seqPd, false, none, none⟩
        (setPteInst i { pteInst u i with seqPd := ((pteInst u i).seqPd + 1) % 65536
                                         pd := some ⟨(pteInst u i).seqPd, none, 0, none⟩ } u))) ∧
  (∀ (i : Nat) (d : Int) (s : State), (pteInst s i).dueDelay = some d → d ≤ now s → pteOn s i = true → isSlave s i = true → isP2P s i = false →
    ∃ u v x, u = drawDelay i (applyInterval i s.begin) ∧ x = pteInst u i ∧
      v = (if x.wait.length ≥ 8 then pteDrop i u else u) ∧
      exec (.delayReqTransmit i) s = .next (queueTx ⟨i, ptpMsg v i 1 x.seqDelay, false, none, none⟩
        (setPteInst i { x with wait := (if x.wait.length ≥ 8 then x.wait.drop 1 else x.wait)
                                 ++ [⟨x.seqDelay, none, 0, now v + min (4 * logUnits (logDelay v i)) unitS⟩]
                               seqDelay := (x.seqDelay + 1) % 65536 } v))) ∧
  (∀ (port back : Nat) (uIns : Int) (x : PtpTx) (s : State), (s.pte.txq.find? fun x => instPort x.inst == port) = some x →
    let v := freeReload (quadOf port) { s.begin with pte := { s.pte with txq := s.pte.txq.erase x } }
    let tx := txTime v port back uIns
    let w := keepTx x tx (formTx port tx v)
    (txTsOn v port = false →
      exec (.txTimeReturn port back uIns) s = .next (sendPtp x.inst x.msg x.dest (bump R.TSU_CNT_NOINS_COUNT v port))) ∧
    (txTsOn v port = true → flag w R.TSU_CTL_ONESTEP_ENA port = true →
      exec (.txTimeReturn port back uIns) s = .next (sendInserted x tx w)) ∧
    (txTsOn v port = true → flag w R.TSU_CTL_ONESTEP_ENA port = false →
      exec (.txTimeReturn port back uIns) s = .next (sendPtp x.inst x.msg x.dest (bump R.TSU_CNT_NOINS_COUNT w port)))) ∧
  (∀ (x : PtpTx) (tx : TxTime) (s : State),
    (∀ v, insertion s x tx = some v → ∃ l, sendInserted x tx s =
      emit (.ptp x.inst (inserted x.msg v) l) (bump R.TSU_CNT_INS_COUNT s (instPort x.inst))) ∧
    (insertion s x tx = none → ∃ u, sendInserted x tx s = raise R.TSU_EVENT_RESIDENCE_SPAN_STEP
        (bump R.TSU_CNT_NOINS_COUNT u (instPort x.inst)) (instPort x.inst) ∧
      u = sumpCount 0x19 (instPort x.inst) (some (instPort x.inst, getF s R.PTE_GCFG_PTP_TC)) s)) ∧
  (∀ (i : Nat) (m : PtpMsg) (dest : Option Nat) (s : State), (s.pte.fups.find? fun x => x.1 == i) = some (i, m, dest) →
    (pteOn s i = true ∧ m.kind = 8 ∧ gmSilent s i = false ∧ pteState s i = 6) ∨ (pdOn s i = true ∧ m.kind = 10) →
    exec (.followUpTransmit i) s =
      .next (sendPtp i m dest { s.begin with pte := { s.pte with fups := s.pte.fups.erase (i, m, dest) } }))

/-- For a frame that the engine takes, received whole with TIME up (engineFrame), with a usable time stamp where the kind
needs one: SYNC_RECEIVE on a slave accepts a one-step Sync (keeping its rate) and keeps a two-step one for its Follow_Up,
which FOLLOW_UP_RECEIVE of the same source and number accepts. DELAY_REQ_RECEIVE on a master answers under a grant, or with a
token where the instance has no UNICAST or the partner is known. DELAY_RESP_RECEIVE for this port closes the waiting exchange
of its number. PDELAY_REQ_RECEIVE queues the one- or two-step answer under a grant or a token. PDELAY_RESP_RECEIVE for this
port closes the exchange at a one-step response, keeps a two-step one and closes the exchange at its Follow_Up, and ends one
that spans a step with EXCHANGE_SPAN_STEP. GENERAL_MESSAGE_RECEIVE hands the frame with its record to P65 under the bucket of
R141 and drops it otherwise. TRANSPARENT_FORWARD with TIME up, and FOLLOW_UP_RECEIVE of a frame the engine does not take, pass
TIME (tForward). -/
def Obligations.PtpReceivesAreTakenByTheirInstances : Prop :=
  (∀ (f i : Nat) (x : Frame) (m : PtpMsg) (r : RxRec) (s : State), engineFrame s f = some (x, i, m) → m.kind = 0 → pteOn s i = true → isSlave s i = true → usableRx x = some r → m.twoStep = false →
    ∀ u, u = (match m.rate with
        | some v => (fun t => setPteInst i { pteInst t i with rho := v } t) (pteRx i (setFrame f none s.begin))
        | none => pteRx i (setFrame f none s.begin)) →
    exec (.syncReceive f) s = .next (acceptSync i m.ts r.t16 m.cf r.lastInvalid r.epoch u)) ∧
  (∀ (f i : Nat) (x : Frame) (m : PtpMsg) (r : RxRec) (s : State), engineFrame s f = some (x, i, m) → m.kind = 0 → pteOn s i = true → isSlave s i = true → usableRx x = some r → m.twoStep = true →
    ∀ u, u = pteRx i (setFrame f none s.begin) →
    exec (.syncReceive f) s = .next (setPteInst i { pteInst u i with two := some ⟨m.seq, m.src, r.t16, m.cf, r.lastInvalid, r.epoch⟩ } u)) ∧
  (∀ (f i : Nat) (x : Frame) (m : PtpMsg) (w : SyncWait) (s : State), engineFrame s f = some (x, i, m) → m.kind = 8 → pteOn s i = true → isSlave s i = true → (pteInst s i).two = some w → w.seq = m.seq → w.src = m.src →
    ∀ u, u = (match m.rate with
        | some v => setPteInst i { pteInst s i with rho := v } (setFrame f none s.begin)
        | none => setFrame f none s.begin) →
    exec (.followUpReceive f) s = .next (acceptSync i m.ts w.t2 (w.cs + m.cf) w.lastInvalid w.epoch u)) ∧
  (∀ (f : Nat) (s : State), engineFrame s f = none → timUp s = true → exec (.followUpReceive f) s = .next (tForward f s.begin)) ∧
  (∀ (f i : Nat) (x : Frame) (m : PtpMsg) (r : RxRec) (u v : State) (s : State), engineFrame s f = some (x, i, m) → m.kind = 1 →
    pteOn s i = true → pteState s i = 6 → usableRx x = some r →
    u = partnerRead i (senderAddr x) m.src (pteRx i (setFrame f none s.begin)) →
    (useGrant i (senderAddr x) m.src 9 u = some v ∨
      (useGrant i (senderAddr x) m.src 9 u = none ∧ takeToken i u = (true, v) ∧
        (flag u R.PTE_PORT_CFG_UNICAST i = false ∨
          (u.pte.partners.any fun p => p.inst == i && p.addr == senderAddr x && p.pid == m.src && p.grants.any (·.mtype == 9)) = true))) →
    exec (.delayReqReceive f) s = .next (sendPtp i { ptpMsg v i 9 m.seq with
        ts := wholeNs (r.t16 + domOff v (instB i) r.t16)
        cf := cfAdd m.cf (-(fracNs (r.t16 + domOff v (instB i) r.t16)))
        req := m.src } (if flag v R.PTE_PORT_CFG_UNICAST i then some (senderAddr x) else none) v)) ∧
  (∀ (f i : Nat) (x : Frame) (m : PtpMsg) (w : DReq) (s : State), engineFrame s f = some (x, i, m) → m.kind = 9 → pteOn s i = true → isSlave s i = true → m.req = portIdent s i →
    ((pteInst s i).wait.find? fun w => w.seq == m.seq && w.t3.isSome && decide (now s ≤ w.limit)) = some w →
    exec (.delayRespReceive f) s = .next (delayExchange i w m.ts m.cf (setPteInst i { pteInst s i with wait := (pteInst s i).wait.erase w } (setFrame f none s.begin)))) ∧
  (∀ (f i : Nat) (x : Frame) (m : PtpMsg) (r : RxRec) (u v : State) (a : PtpMsg) (s : State), engineFrame s f = some (x, i, m) →
    m.kind = 2 → pdOn s i = true → usableRx x = some r →
    u = partnerRead i (senderAddr x) m.src (pteRx i (setFrame f none s.begin)) →
    (useGrant i (senderAddr x) m.src 3 u = some v ∨
      (useGrant i (senderAddr x) m.src 3 u = none ∧ takeToken i u = (true, v))) →
    a = (if flag v R.PTE_PORT_CFG_PDELAY_2STEP i then
          { ptpMsg v i 3 m.seq with req := m.src, twoStep := true, ts := wholeNs (r.t16 + domOff v (instB i) r.t16),
                                    cf := -(fracNs (r.t16 + domOff v (instB i) r.t16)) }
        else { ptpMsg v i 3 m.seq with req := m.src, twoStep := false, cf := m.cf }) →
    exec (.pdelayReqReceive f) s = .next (queueTx ⟨i, a, flag v R.PTE_PORT_CFG_PDELAY_2STEP i, some (r.t16, x.stepCount), none⟩ v)) ∧
  (∀ (f i : Nat) (x : Frame) (m : PtpMsg) (r : RxRec) (q : PdReq) (t1 : Int) (s : State), engineFrame s f = some (x, i, m) → m.kind = 3 → pdOn s i = true → m.req = portIdent s i → (pteInst s i).pd = some q → q.t1 = some t1 → usableRx x = some r →
    q.seq = m.seq → r.epoch = q.epoch → m.twoStep = false → ∀ u, u = pteRx i (setFrame f none s.begin) →
    exec (.pdelayRespReceive f) s = .next (linkDelay i t1 r.t16 m.cf (nrrTally i (setPteInst i { pteInst u i with pd := none } u)))) ∧
  (∀ (f i : Nat) (x : Frame) (m : PtpMsg) (r : RxRec) (q : PdReq) (t1 : Int) (s : State), engineFrame s f = some (x, i, m) → m.kind = 3 → pdOn s i = true → m.req = portIdent s i → (pteInst s i).pd = some q → q.t1 = some t1 → usableRx x = some r →
    q.seq = m.seq → r.epoch = q.epoch → m.twoStep = true → ∀ u, u = pteRx i (setFrame f none s.begin) →
    exec (.pdelayRespReceive f) s = .next (setPteInst i { pteInst u i with pd := some { q with resp := some (r.t16, m.ts, m.cf) } } u)) ∧
  (∀ (f i : Nat) (x : Frame) (m : PtpMsg) (r : RxRec) (q : PdReq) (t1 : Int) (s : State), engineFrame s f = some (x, i, m) → m.kind = 3 → pdOn s i = true → m.req = portIdent s i → (pteInst s i).pd = some q → q.t1 = some t1 → usableRx x = some r →
    q.seq = m.seq → r.epoch ≠ q.epoch → ∀ u, u = pteRx i (setFrame f none s.begin) →
    exec (.pdelayRespReceive f) s = .next (raise R.PTE_PORT_EVENT_EXCHANGE_SPAN_STEP (setPteInst i { pteInst u i with pd := none } u) i)) ∧
  (∀ (f i : Nat) (x : Frame) (m : PtpMsg) (q : PdReq) (t4 t2 c t1 : Int) (s : State), engineFrame s f = some (x, i, m) → m.kind = 10 → pdOn s i = true → m.req = portIdent s i → (pteInst s i).pd = some q → q.t1 = some t1 → q.resp = some (t4, t2, c) →
    q.seq = m.seq → ∀ u, u = setPteInst i { pteInst s i with pd := none } (setFrame f none s.begin) →
    exec (.pdelayRespReceive f) s = .next (linkDelay i t1 t4 (m.ts - t2) (if flag s R.PTE_PORT_CFG_NRR_SRC i then nrrTally i u else nrrTwoStep i m.ts t4 u))) ∧
  (∀ (f i : Nat) (x : Frame) (m : PtpMsg) (left : Int) (s : State), engineFrame s f = some (x, i, m) → 11 ≤ m.kind → flag s R.PTE_GCFG_ENA = true → mapEna s (instB i) = true →
    transparent s (instB i) = true ∨ 4 ≤ pteState s i →
    left = max 0 (s.pte.fwSpent - (max 1 (getF s R.PTE_FW_RATE_RATE) : Nat) * (now s - s.pte.fwAt)) →
    exec (.generalMessageReceive f) s = .next (if left + unitS ≤ (max 1 (getF s R.PTE_FW_RATE_BURST) : Nat) * unitS then
      emit (.frame 65 x.octets (p65Record x) false) { setFrame f none s.begin with pte := { s.pte with fwAt := now s, fwSpent := left + unitS } }
    else pteDrop i { setFrame f none s.begin with pte := { s.pte with fwAt := now s, fwSpent := left } })) ∧
  (∀ (f : Nat) (s : State), timUp s = true → exec (.transparentForward f) s = .next (tForward f s.begin))

/-- UNICAST_REQUEST with the management firmware running, on a present instance, answers unicastRequest: with ENA 0, a
duration of 0 or a type never granted it is denied (denyGrant), and a grant that is given (giveGrant) stands in the partner
table with its interval and its expiry, the duration limited by MAX_DURATION_S, and is answered with them. UNICAST_CANCEL with
the management firmware running ends the partner's grant of the type and acknowledges it. GRANT_EXPIRY ends every grant of the
instance whose expiry is reached. An entry without grants is freed, and PARTNERS counts the entries. -/
def Obligations.UnicastGrantsAreGivenCancelledAndExpire : Prop :=
  (∀ (i addr pid mtype : Nat) (log : Int) (dur : Nat) (s : State), flag s R.FWT_STATUS_MGMT_RUN = true → i < 128 → instPresent s 6 i = true →
    exec (.unicastRequest i addr pid mtype log dur) s = .next (unicastRequest i addr pid mtype log dur s.begin)) ∧
  (∀ (i addr pid m : Nat) (log : Int) (dur : Nat) (s : State), flag s R.PTE_UNI_CFG_ENA = false ∨ dur = 0 ∨ grantRange s i m = none →
    unicastRequest i addr pid m log dur s = denyGrant i addr pid m log
      (dropGrants (fun _ g => decide (g.expiry < now s)) (settle i (partnerRead i addr pid s)))) ∧
  (∀ (i addr pid m : Nat) (log : Int) (dur : Nat) (s : State), ∃ t, giveGrant i addr pid m log dur s = emit (.grant i addr pid m log (min dur (maxDuration s))) t ∧
    t.pte.partners.any (fun p => p.inst == i && p.addr == addr && p.pid == pid &&
      p.grants.any fun g => g.mtype == m && g.log == log && g.expiry == now s + min dur (maxDuration s) * unitS) = true) ∧
  (∀ (i addr pid mtype : Nat) (s : State), flag s R.FWT_STATUS_MGMT_RUN = true →
    exec (.unicastCancel i addr pid mtype) s = .next (emit (.cancel i addr pid mtype true)
      (dropGrants (fun p g => p.inst == i && p.addr == addr && p.pid == pid && g.mtype == mtype) (settle i s.begin)))) ∧
  (∀ (i : Nat) (s : State), exec (.grantExpiry i) s =
    .next (dropGrants (fun p g => p.inst == i && decide (g.expiry ≤ now s)) (settle i s.begin))) ∧
  (∀ (q : Partner → Grant → Bool) (s : State),
    (dropGrants q s).pte.partners.length ≤ s.pte.partners.length ∧
    (∀ p ∈ (dropGrants q s).pte.partners, p.grants ≠ []) ∧
    getF (dropGrants q s) R.PTE_GSTAT_PARTNERS = (dropGrants q s).pte.partners.length % 2 ^ R.PTE_GSTAT_PARTNERS.w)

/-- CANDIDATE_PHASE_SAMPLE with TIME up (for a REFIN or TODPPS candidate with a channel that serves it and, once a TDC_CH_ADJ
of that channel that waits has taken effect, a measurement that spans no step) and HOST_PHASE_WRITE that reaches its register,
for HOSTSTEER, answer candSample: an enabled, validly configured, live candidate keeps the sample with its time and counts
(sampleAt), FAILED becomes MONITORING and active, and every DPLL that has it selected takes the phase. CANDIDATE_ACTIVITY_LOSS
of an active candidate whose criterion of R142 is lost makes it FAILED and not active, with ACT_LOSS, and selects again.
FREQ_WINDOW_CLOSE at the end of a window answers windowClose and then the next window; qualification moves by ACCEPT and
REJECT, REJECT not below ACCEPT. QUALIFY_TIME_EXPIRY of a candidate good for QUAL_S makes it QUALIFIED and selects again.
CAND_CFG_WRITE, CAND_PERIOD_WRITE and SYNCE_BIND_WRITE that reach their register answer writeCandCfg, writeCandPeriod and
writeSynceBind of what they write. -/
def Obligations.ReferenceCandidatesAreSampledTestedAndRejected : Prop :=
  (∀ (c : Nat) (tm val : Int) (s : State), timUp s = true → (c < 8 ∨ c = 14 → candFed s c = true ∧ spansStep (adjFor c s) c tm = false) →
    exec (.candidatePhaseSample c tm val) s = .next (candSample c tm val (if c < 8 ∨ c = 14 then adjFor c s.begin else s.begin))) ∧
  (∀ (c : Nat) (tm val : Int) (s : State), c < 16 → s.ref.cands.length = 16 → candTakes s c = true → ∃ o p, candSample c tm val s =
      (List.range 4).foldl (fun t d =>
          if flag t R.REF_DPLL_STAT_SEL_VALID d && getF t R.REF_DPLL_STAT_SEL_CAND d == c then dpllSample d p t else t)
        (if candState s c = 0 then setF R.REF_CAND_STAT_ACTIVE 1 (setCandState c 1 (setCand c o s)) c else setCand c o s) ∧
      o.fresh = true ∧ o.lastEdge = now s ∧
      o.latest = some (sampleAt s p (if c < 8 ∨ c = 14 then tm * 4194304 else now s))) ∧
  (∀ (c : Nat) (s : State), timUp s = true → candState s c ≠ 0 → activityLost s c = true →
    exec (.candidateActivityLoss c) s = .next (reselect (candFail c true (whenS (c < 8) (restartDivider c) s.begin)))) ∧
  (∀ (c : Nat) (s : State), candState s c ≠ 0 → candState (candFail c true s) c = 0 ∧ flag (candFail c true s) R.REF_CAND_STAT_ACTIVE c = false ∧
    flag (candFail c true s) R.REF_CAND_EVENT_ACT_LOSS c = true) ∧
  (∀ (c : Nat) (s : State), timUp s = true → flag s R.REF_CAND_CFG_ENA c = true → winEnd s c ≤ now s →
    exec (.freqWindowClose c) s = .next (bwCheckAll (windowOpen c (windowClose c s.begin)))) ∧
  (∀ (c : Nat) (y : Int) (s : State),
    (candState s c = 1 → withinPpm y (getF s R.REF_CAND_LIMITS_ACCEPT c) = true → candState (qualify c y s) c = 2) ∧
    (candState s c = 2 → withinPpm y (getF s R.REF_CAND_LIMITS_ACCEPT c) = false → candState (qualify c y s) c = 1) ∧
    (candState s c = 3 → withinPpm y (max (getF s R.REF_CAND_LIMITS_ACCEPT c) (getF s R.REF_CAND_LIMITS_REJECT c)) = false →
      candState (qualify c y s) c = 1 ∧ flag (qualify c y s) R.REF_CAND_EVENT_DISQUALIFIED c = true) ∧
    (candState s c = 3 → withinPpm y (max (getF s R.REF_CAND_LIMITS_ACCEPT c) (getF s R.REF_CAND_LIMITS_REJECT c)) = true →
      qualify c y s = s)) ∧
  (∀ (c : Nat) (t : Int) (s : State), (cand s c).goodSince = some t → timUp s = true → candState s c = 2 →
    t + (max 1 (getF s R.REF_CAND_MON_QUAL_S c) : Nat) * unitS ≤ now s →
    exec (.qualifyTimeExpiry c) s = .next (reselect (raise R.REF_CAND_EVENT_QUALIFIED
      (setCand c { cand s c with qualSince := some (now s), goodSince := none } (setCandState c 3 s.begin)) c))) ∧
  (∀ (req : Requester) (hi : Nat) (s : State), reaches req 0x7001C 0 s →
    exec (.hostPhaseWrite req hi) s = .next (candSample 15 0 (stagedS64 s req 0x70018 hi) s.begin)) ∧
  (∀ (req : Requester) (c val : Nat) (s : State), reaches req (0x71000 + 0x40 * c) 0 s →
    exec (.candCfgWrite req c val) s = .next (writeCandCfg c val s.begin)) ∧
  (∀ (req : Requester) (c hi : Nat) (s : State), reaches req (0x71004 + 0x40 * c + 8) 0 s →
    exec (.candPeriodWrite req c hi) s = .next (writeCandPeriod c ⟨stagedWord s req (0x71004 + 0x40 * c)
      + stagedWord s req (0x71004 + 0x40 * c + 4) % 65536 * 2 ^ 32, hi % 16777216⟩ s.begin)) ∧
  (∀ (req : Requester) (val : Nat) (s : State), reaches req 0x70004 0 s →
    exec (.synceBindWrite req val) s = .next (writeSynceBind val s.begin))

/-- WAIT_TO_RESTORE_EXPIRY with TIME up selects again for its DPLL. PRIO_TABLE_COMMIT that reaches its register takes every
named pending table into force, then one selection per DPLL. DPLL_MODE_WRITE, DPLL_HOLDOVER_REQUEST, DPLL_FORCE and
DPLL_REALIGN that reach their register answer writeDpllCfg and writeDpllCtl of their value; a re-alignment (dpllRealign) is
ignored with REALIGN_IGNORED outside ACQUIRING and LOCKED or without a valid, time-aligned selection, and else, outside mode 1
and with b not 0, starts to slew b. REALIGN_DONE in the last cycle of one brings b to 0 and raises REALIGN_DONE. -/
def Obligations.DpllsAreSelectedForcedRealignedAndControlled : Prop :=
  (∀ (d : Nat) (s : State), timUp s = true →
    exec (.waitToRestoreExpiry d) s = .next (bwCheck d (rateCheck (dpllEval d s.begin)))) ∧
  (∀ (req : Requester) (val : Nat) (s : State), reaches req 0x70008 0 s →
    exec (.prioTableCommit req val) s = .next (reselect ((List.range 4).foldl (fun s d => whenS (bitOf val d) (commitPrio d) s) s.begin))) ∧
  (∀ (req : Requester) (d val : Nat) (s : State), reaches req (0x72000 + 0x100 * d) 0 s →
    exec (.dpllModeWrite req d val) s = .next (writeDpllCfg d val s.begin)) ∧
  (∀ (req : Requester) (d val : Nat) (s : State), reaches req (0x7200C + 0x100 * d) 0 s →
    exec (.dpllHoldoverRequest req d val) s = .next (writeDpllCtl d val s.begin)) ∧
  (∀ (req : Requester) (d val : Nat) (s : State), reaches req (0x7200C + 0x100 * d) 0 s →
    exec (.dpllForce req d val) s = .next (writeDpllCtl d val s.begin)) ∧
  (∀ (req : Requester) (d val : Nat) (s : State), reaches req (0x7200C + 0x100 * d) 0 s →
    exec (.dpllRealign req d val) s = .next (writeDpllCtl d val s.begin)) ∧
  (∀ (d : Nat) (s : State),
    (candTimeAlign s (getF s R.REF_DPLL_STAT_SEL_CAND d) = false ∨ flag s R.REF_DPLL_STAT_SEL_VALID d = false ∨
      (dpllState s d ≠ stACQUIRING ∧ dpllState s d ≠ stLOCKED) → dpllRealign d s = raise R.REF_DPLL_EVENT_REALIGN_IGNORED s d) ∧
    (candTimeAlign s (getF s R.REF_DPLL_STAT_SEL_CAND d) = true → flag s R.REF_DPLL_STAT_SEL_VALID d = true →
      (dpllState s d = stACQUIRING ∨ dpllState s d = stLOCKED) → getF s R.REF_DPLL_CTL_REALIGN_MODE d ≠ 1 → (dpll s d).b ≠ 0 →
      dpllRealign d s = setDpll d { dpll s d with realign := true, bRes5 := 0 } s)) ∧
  (∀ (d : Nat) (s : State), timRuns s = true → (dpll s d).realign = true →
    (8 * slewWord s + (dpll s d).bRes5) / 5 ≥ (dpll s d).b.natAbs →
    exec (.realignDone d) s = .next (raise R.REF_DPLL_EVENT_REALIGN_DONE
      (setDpll d { dpll s d with b := 0, bRes5 := ((8 * slewWord s + (dpll s d).bRes5) % 5).toNat, realign := false } s.begin) d))

/-- DPLL_LOOP_UPDATE with TIME up of a DPLL in ACQUIRING or LOCKED, 125 us after the update before or as the first one,
answers loopUpdate. HOLDOVER_AVG_UPDATE while LOCKED counts the second and, not on a cold OCXO, moves the average by 2^-HO_TAU
and keeps the latest 16 with their instants. HOLDOVER_W_UPDATE in HOLDOVER sets w from the holdover value less the ageing
since. HOLDOVER_VALID sets HO_VALID after HO_MIN_S seconds LOCKED. OL_FREQ_WRITE and OL_PHASE_WRITE that reach their register
answer olFreq and olPhase: outside OPEN nothing; in OPEN, 1 ms after the write applied before, they apply at once; sooner they
are held, a second one replacing the frequency and adding to the phase with OL_COALESCED, as does one in the same cycle of the
Last as the write applied before. OL_WRITE_APPLY applies a held one after the 1 ms. XO_CORR_WRITE that reaches its register
answers writeXoCorr. On the grade with the warm-up logic and with TIME up, XO_STABILITY_SAMPLE answers stabilitySample and
OCXO_WARM_PIN takes the level of the pin; WARM becomes 1 with OCXO_WARM when the test has passed and the pin, if used, is
high, and 0 with OCXO_COLD when a used pin is low. -/
def Obligations.DpllLoopsHoldAndFollowTheOscillator : Prop :=
  (∀ (d : Nat) (s : State), timUp s = true → (dpllState s d = stACQUIRING ∨ dpllState s d = stLOCKED) →
    ((dpll s d).firstUpd = true ∨ (dpll s d).lastUpd + 125 * unitUs ≤ now s) → exec (.dpllLoopUpdate d) s = .next (loopUpdate d s.begin)) ∧
  (∀ (d : Nat) (s : State), timUp s = true → dpllState s d = stLOCKED →
    (flag s R.REF_XO_STAT_SRC = true → flag s R.REF_XO_STAT_WARM = false →
      exec (.holdoverAvgUpdate d) s = .next (setDpll d { dpll s d with lockedSecs := (dpll s d).lockedSecs + 1 } s.begin)) ∧
    (flag s R.REF_XO_STAT_SRC = false ∨ flag s R.REF_XO_STAT_WARM = true →
      ∀ avg, avg = (dpll s d).avg + ((dpll s d).w - (dpll s d).avg) / (2 ^ min 12 (getF s R.REF_DPLL_CFG2_HO_TAU d) : Nat) →
      exec (.holdoverAvgUpdate d) s = .next (setDpll d { dpll s d with lockedSecs := (dpll s d).lockedSecs + 1, avg := avg
                                                                       avgHist := ((now s, avg) :: (dpll s d).avgHist).take 16 } s.begin))) ∧
  (∀ (d : Nat) (s : State), timRuns s = true → dpllState s d = stHOLDOVER →
    exec (.holdoverWUpdate d) s = .next (rateCheck (setDpll d { dpll s d with
      w := (dpll s d).hoVal - (getS s R.REF_XO_AGE_AGE * ((now s - (dpll s d).hoSince) / unitS)) / 4096 } s.begin))) ∧
  (∀ (d : Nat) (s : State), timUp s = true → getF s R.REF_DPLL_CFG3_HO_MIN_S d ≤ (dpll s d).lockedSecs →
    exec (.holdoverValid d) s = .next (setF R.REF_DPLL_STAT_HO_VALID 1 s.begin d)) ∧
  (∀ (req : Requester) (d hi : Nat) (s : State), reaches req (0x72060 + 0x100 * d + 4) 0 s →
    exec (.olFreqWrite req d hi) s = .next (olFreq d (sx 48 (stagedWord s req (0x72060 + 0x100 * d) + hi * 2 ^ 32)) s.begin)) ∧
  (∀ (req : Requester) (d hi : Nat) (s : State), reaches req (0x72068 + 0x100 * d + 4) 0 s →
    exec (.olPhaseWrite req d hi) s = .next (olPhase d (stagedS64 s req (0x72068 + 0x100 * d) hi) s.begin)) ∧
  (∀ (d : Nat) (v : Int) (s : State),
    (dpllState s d ≠ stOPEN → olFreq d v s = s ∧ olPhase d v s = s) ∧
    (dpllState s d = stOPEN → (dpll s d).freq.held = none → olThisCycle s (dpll s d).freq = false → olFree s (dpll s d).freq = true →
      olFreq d v s = olApplyFreq d v s) ∧
    (dpllState s d = stOPEN → (dpll s d).phase.held = none → olThisCycle s (dpll s d).phase = false → olFree s (dpll s d).phase = true →
      olPhase d v s = olApplyPhase d v s) ∧
    (dpllState s d = stOPEN → ((dpll s d).freq.held = none ∧ (dpll s d).phase.held = none) →
      (olThisCycle s (dpll s d).freq = false ∧ olThisCycle s (dpll s d).phase = false) →
      (olFree s (dpll s d).freq = false ∧ olFree s (dpll s d).phase = false) →
      olFreq d v s = setDpll d { dpll s d with freq := { (dpll s d).freq with held := some v } } s ∧
      olPhase d v s = setDpll d { dpll s d with phase := { (dpll s d).phase with held := some v } } s) ∧
    (dpllState s d = stOPEN → ((dpll s d).freq.held = none ∧ olThisCycle s (dpll s d).freq = true) →
      olFreq d v s = raise R.REF_DPLL_EVENT_OL_COALESCED (olApplyFreq d v s) d) ∧
    (dpllState s d = stOPEN → ((dpll s d).phase.held = none ∧ olThisCycle s (dpll s d).phase = true) →
      olPhase d v s = raise R.REF_DPLL_EVENT_OL_COALESCED (olApplyPhase d v s) d) ∧
    (dpllState s d = stOPEN → ∀ h, (dpll s d).freq.held = some h → olFreq d v s = raise R.REF_DPLL_EVENT_OL_COALESCED
      (setDpll d { dpll s d with freq := { (dpll s d).freq with held := some v } } s) d) ∧
    (dpllState s d = stOPEN → ∀ h, (dpll s d).phase.held = some h → olPhase d v s = raise R.REF_DPLL_EVENT_OL_COALESCED
      (setDpll d { dpll s d with phase := { (dpll s d).phase with held := some (h + v) } } s) d)) ∧
  (∀ (d : Nat) (v : Int) (s : State), timUp s = true →
    ((dpll s d).phase.held = some v → olFree s (dpll s d).phase = true → exec (.olWriteApply d true) s = .next (olApplyPhase d v s.begin)) ∧
    ((dpll s d).freq.held = some v → olFree s (dpll s d).freq = true → exec (.olWriteApply d false) s = .next (olApplyFreq d v s.begin))) ∧
  (∀ (req : Requester) (hi : Nat) (s : State), reaches req 0x7002C 0 s →
    exec (.xoCorrWrite req hi) s = .next (writeXoCorr (stagedWord s req 0x70028 + hi % 65536 * 2 ^ 32) s.begin)) ∧
  (∀ (xin : Option Int) (s : State), timUp s = true → hasOcxo s = true →
    exec (.xoStabilitySample xin) s = .next (stabilitySample xin s.begin)) ∧
  (∀ (level : Bool) (s : State), timUp s = true → hasOcxo s = true →
    exec (.ocxoWarmPin level) s = .next (warmUpdate (setFlag R.REF_XO_STAT_PIN level { s.begin with sys := { s.sys with warmPin := level } }))) ∧
  (∀ s : State,
    (flag s R.REF_XO_STAT_WARM = false → flag s R.REF_XO_STAT_TEST_PASS = true → (flag s R.REF_XO_CFG_WARM_PIN_USE = true → flag s R.REF_XO_STAT_PIN = true) →
      warmUpdate s = raise R.REF_EVENT_OCXO_WARM (setF R.REF_XO_STAT_WARM 1 s)) ∧
    (flag s R.REF_XO_STAT_WARM = true → flag s R.REF_XO_CFG_WARM_PIN_USE = true → flag s R.REF_XO_STAT_PIN = false →
      warmUpdate s = raise R.REF_EVENT_OCXO_COLD (setF R.REF_XO_STAT_WARM 0 s)))

/-- For every period that R70 accepts and every origin: the next instant formed by q, r and the accumulator is the instant of
the next index; D periods on, the instant has advanced by exactly N 2^32 units with the same remainder; and the first index of
R71 for a time t is the least index whose exact instant is not before t. -/
def Obligations.PeriodicInstantsAreExact : Prop :=
  (∀ (p : Period) (e k : Int), p.ok = true → p.next (p.instant e k) = p.instant e (k + 1)) ∧
  (∀ (p : Period) (e k : Int), p.ok = true →
    (p.instant e (k + p.den)).at32 = (p.instant e k).at32 + p.num * 4294967296 ∧ (p.instant e (k + p.den)).acc = (p.instant e k).acc) ∧
  (∀ (p : Period) (e t k : Int), p.ok = true →
    (t * p.den ≤ (p.instant e k).at32 * p.den + (p.instant e k).acc ↔ p.firstIndex e t ≤ k))

/-- SYN_COMMIT that reaches its register answers synCommit, and OUTPUT_START, OUTPUT_STOP and OUTPUT_REALIGN that reach theirs
answer writeOutCtl, of their value. A write with STOP and without REALIGN stops the output; one with START alone, on an output
with a mode that neither runs nor restarts, starts it at once or, with START_AT, arms it for START_TIME, late with START_LATE
when that is less than 2 us ahead; one with REALIGN alone re-aligns it. OUTPUT_START_INSTANT starts an armed output whose
instant is reached, late with START_LATE where it is passed by 1 us. OUTPUT_CHANGE_APPLY of a running output takes a delay
that waits and then committed values. OUTPUT_STOP_COMPLETE of an output whose last active phase ends takes the delay and the
values that waited; an output in RESTARTING then starts where its source is locked. ALIGN_DONE of a running output that is
being placed (of a CLOCK output once its group is, with a residual within half a VCO period) sets ALIGN_DONE, and keeps the
residual of a CLOCK output. -/
def Obligations.OutputsStartStopAndRealign : Prop :=
  (∀ (req : Requester) (val : Nat) (s : State), reaches req 0x80018 0 s → exec (.synCommit req val) s = .next (synCommit val s.begin)) ∧
  (∀ (n : Nat) (s : State), outState s n = oRUNNING →
    (∀ ws, (outRt s n).take = some ws → exec (.outputChangeApply n) s = .next (applyOut n ws (takeDelay n s.begin))) ∧
    ((outRt s n).take = none → exec (.outputChangeApply n) s = .next (takeDelay n s.begin))) ∧
  (∀ (req : Requester) (n val : Nat) (s : State), reaches req (0x80800 + 0x40 * n) 0 s →
    exec (.outputStart req n val) s = .next (writeOutCtl n val s.begin)) ∧
  (∀ (req : Requester) (n val : Nat) (s : State), reaches req (0x80800 + 0x40 * n) 0 s →
    exec (.outputStop req n val) s = .next (writeOutCtl n val s.begin)) ∧
  (∀ (req : Requester) (n val : Nat) (s : State), reaches req (0x80800 + 0x40 * n) 0 s →
    exec (.outputRealign req n val) s = .next (writeOutCtl n val s.begin)) ∧
  (∀ (n val : Nat) (s : State), n < 12 → bitOf val 29 = false → bitOf val 30 = true →
    writeOutCtl n val s = stopOut n oOFF (setFlag R.SYN_OUT_CTL_START_AT (bitOf val 28) s n)) ∧
  (∀ (n val : Nat) (s : State), n < 12 → bitOf val 31 = true → bitOf val 30 = false → bitOf val 29 = false → outMode s n ≠ 0 →
    outState s n ≠ oRUNNING → outState s n ≠ oRESTARTING →
    writeOutCtl n val s = (if bitOf val 28 then armOut n else fun t => startOut n (now t) none false t)
      (setFlag R.SYN_OUT_CTL_START_AT (bitOf val 28) s n)) ∧
  (∀ (n : Nat) (s : State), (startTime s n < now s + 2 * unitUs →
      armOut n s = startOut n (now s) (some (startTime s n)) true (raise R.SYN_OUT_EVENT_START_LATE s n)) ∧
    (now s + 2 * unitUs ≤ startTime s n → armOut n s = setOutState n oARMED (setOut n { outRt s n with armed := some (startTime s n) } s))) ∧
  (∀ (n : Nat) (o : Int) (s : State), (outRt s n).armed = some o → synUp s = true → outState s n = oARMED → o ≤ now s →
    exec (.outputStartInstant n) s = .next (startOut n (now s) (some o) (decide (o + unitUs ≤ now s))
      (whenS (decide (o + unitUs ≤ now s)) (fun s => raise R.SYN_OUT_EVENT_START_LATE s n) s.begin))) ∧
  (∀ (n val : Nat) (s : State), bitOf val 31 = false → bitOf val 30 = false → bitOf val 29 = true →
    writeOutCtl n val s = realignOut n (setFlag R.SYN_OUT_CTL_START_AT (bitOf val 28) s n)) ∧
  (∀ (n : Nat) (s : State), (outRt s n).completing = true → ∃ u,
    u = (match (outRt s n).take with | some ws => putOut n ws | none => id)
      (takeDelay n (setOut n { outRt s n with completing := false, want := false, take := none } s.begin)) ∧
    exec (.outputStopComplete n) s = .next (restartCheck n u)) ∧
  (∀ (n : Nat) (s : State),
    (outState s n = oRESTARTING → (outRt s n).completing = false → (outMode s n = 0 ∨ apllLocked s (outApll s n) = true) →
      restartCheck n s = startOut n (now s) (outRt s n).armed (outRt s n).armed.isSome s) ∧
    (outState s n ≠ oRESTARTING → restartCheck n s = s)) ∧
  (∀ (n : Nat) (eps : Int) (s : State), n < 12 → (outRt s n).placing = true → outState s n = oRUNNING →
    (outMode s n = 1 → alignWaits s (outApll s n) = false ∧ (2 * 65536 * eps.natAbs : Int) ≤ vcoUnits s (outApll s n) + 131072) →
    ∃ t, exec (.alignDone n eps) s = .next t ∧ t = alignDone n eps s.begin ∧ flag t R.SYN_OUT_EVENT_ALIGN_DONE n = true ∧
      (outRt t n).placing = false ∧ (outMode s n = 1 → getF t R.SYN_OUT_RESID_EPS n = toU 32 eps))

/-- TOD_OUT_MESSAGE with SYN up, no JTAG hold and OUT_ENA answers todSend: the next edge that is due and not labelled
(todEdge) gets a message with the next sequence number, which is being sent from then on, or none with TOD_OUT_SKIPPED where
one is being sent (todSkips, notes/assumptions/158.md). TOD_IN_MESSAGE with SYN up and IN_ENA answers todIn: a malformed
message is dropped with TOD_BAD and counted, one that labels a later edge is kept behind those that wait, and one that labels
an earlier edge is paired with the latest edge of its window or dropped with TOD_UNPAIRED. TOD_UNPAIRED first pairs every
waiting message whose edge has come (todMatch); then the oldest, at the end of its window, is dropped with TOD_UNPAIRED and
counted. -/
def Obligations.TodMessagesAreSentPairedAndDropped : Prop :=
  (∀ (s : State), synUp s = true → jtagHolds s = false → flag s R.SYN_TOD_CFG_OUT_ENA = true →
    exec .todOutMessage s = .next (todSend s.begin)) ∧
  (∀ (k t : Int) (s : State), todEdge s = some (k, t) →
    let u := setOut (todOut s) { outRt s (todOut s) with sent := some k } s
    (todSkips u t = true → todSend s = raise R.SYN_TOD_EVENT_TOD_OUT_SKIPPED u) ∧
    (todSkips u t = false → todSend s = emit (.tod (todMessage u t)) { u with syn := { u.syn with
      todSeq := (s.syn.todSeq + 1) % 256
      todStart := t + todDelay u, todBusy := t + todDelay u + todLength (getF s R.SYN_TOD_CFG_OUT_BAUD) } })) ∧
  (∀ (octets : List Nat) (s : State), synUp s = true → flag s R.SYN_TOD_CFG_IN_ENA = true →
    exec (.todInMessage octets) s = .next (todIn octets s.begin)) ∧
  (∀ (octets : List Nat) (s : State),
    (todOk octets = false → todIn octets s = raise R.SYN_TOD_EVENT_TOD_BAD (bump R.SYN_TOD_CNT_IN_ERR s)) ∧
    (todOk octets = true → flag s R.SYN_TOD_CFG_IN_LABEL = true →
      todIn octets s = { s with syn := { s.syn with todWait := s.syn.todWait ++ [⟨octets, now s⟩] } }) ∧
    (todOk octets = true → flag s R.SYN_TOD_CFG_IN_LABEL = false → ∀ start, start = now s - todLength (getF s R.SYN_TOD_CFG_IN_BAUD) →
      todIn octets s = (match edgeIn s (start - 990 * unitMs) (start - unitMs) true with
        | some t => todPair octets t s
        | none => raise R.SYN_TOD_EVENT_TOD_UNPAIRED (bump R.SYN_TOD_CNT_IN_ERR s)))) ∧
  (∀ (w : TodWait) (rest : List TodWait) (s : State), (todMatch s.begin).syn.todWait = w :: rest →
    let m := todMatch s.begin
    (w.stop + 990 * unitMs ≤ now m → exec .todUnpaired s =
      .next (raise R.SYN_TOD_EVENT_TOD_UNPAIRED (bump R.SYN_TOD_CNT_IN_ERR { m with syn := { m.syn with todWait := rest } }))) ∧
    (now m < w.stop + 990 * unitMs → exec .todUnpaired s = .next m))

/-- TDC_EDGE_MEASURE with TDC up: an edge of a REFIN whose frequency is above 400 MHz times the divisor of its prescaler
raises PRESC_OVERRANGE on the first channel at work on that input; else the prescaler passes it or holds it back; an edge it
passes, and every edge of another source, reaches the channels (sourceEdge), and a channel at work on the source that takes
the direction and is not lent measures it (tdcEdge), CHS for the channel it serves. TDC_CAL_PAIR keeps the pair, which is good
exactly for a second code within 3,071 whose distance from the first is 1,000 to 1,700. TDC_RESULT_DELIVER, with a crossing
from TDC to TIME or to MCU up, delivers a record: where the channel in turn has one, its oldest, and for a channel that does
not send it to the host too, nothing else. TDC_ANCHOR_RENEW takes the count and the Last as anchor. INTERVAL_TIMEOUT: once
more than WIN_US has passed since the arming with one of the two edges captured, the timeout record is queued with the instant
of the start edge (0 without one), TIMEOUT is raised, and the pair is done. TDC_TABLE_DATA_READ outputs the count that
TBL_ADDR names and BIN moves on. TDC_CH_CFG, TDC_CH_CFG2 and TDC_PRESC writes have the effects writeChCfg, writeChCfg2 and
writePresc. -/
def Obligations.TdcMeasuresEdgesAndDeliversRecords : Prop :=
  (∀ (src hz : Nat) (rising : Bool) (taps : List (Nat × Nat)) (s : State), tdcUp s = true → src < 8 →
    hz > 400000000 * 2 ^ getF s (R.TDC_PRESC_DIV.up (2 * src)) →
    exec (.tdcEdgeMeasure src rising hz taps) s = .next (raise R.TDC_EVENT_PRESC_OVERRANGE s.begin
      (((List.range 24).find? fun n => chActive s n && chSrc s n == src).getD src))) ∧
  (∀ (src hz : Nat) (rising : Bool) (taps : List (Nat × Nat)) (s : State), tdcUp s = true → src < 8 →
    hz ≤ 400000000 * 2 ^ getF s (R.TDC_PRESC_DIV.up (2 * src)) → (prescale src rising s.begin).1 = true →
    exec (.tdcEdgeMeasure src rising hz taps) s = .next (sourceEdge src rising taps (prescale src rising s.begin).2)) ∧
  (∀ (src hz : Nat) (rising : Bool) (taps : List (Nat × Nat)) (s : State), tdcUp s = true → src < 8 →
    hz ≤ 400000000 * 2 ^ getF s (R.TDC_PRESC_DIV.up (2 * src)) → (prescale src rising s.begin).1 = false →
    exec (.tdcEdgeMeasure src rising hz taps) s = .next (prescale src rising s.begin).2) ∧
  (∀ (src hz : Nat) (rising : Bool) (taps : List (Nat × Nat)) (s : State), tdcUp s = true → 8 ≤ src →
    exec (.tdcEdgeMeasure src rising hz taps) s = .next (sourceEdge src rising taps s.begin)) ∧
  (∀ (src l n c : Nat) (rising : Bool) (s : State), (n < 24 ∧ l = n) ∨ (n = 24 ∧ s.tdc.spare.map (·.ch) = some l) →
    chActive s l = true → chSrc s l = src → edgeTaken s l rising = true → s.tdc.borrowed ≠ some l → 8 ≤ src → s.tdc.spare = none →
    src ≠ candSrc s 14 → sourceEdge src rising [(n, c)] s = tdcEdge l n c rising s) ∧
  (∀ (n c1 c2 : Nat) (s : State), tdcUp s = true → n ≤ 24 →
    exec (.tdcCalPair n c1 c2) s = .next (calPair n c1 c2 s.begin)) ∧
  (∀ c1 c2 : Nat, pairGood c1 c2 = true ↔ c2 ≤ 3071 ∧ 1000 ≤ (c2 : Int) - c1 ∧ (c2 : Int) - c1 ≤ 1700) ∧
  (∀ (s : State), tdcUp s = true → crossUp s islTDC islTIME = true ∨ crossUp s islTDC islMCU = true →
    exec .tdcResultDeliver s = .next (deliver s.begin)) ∧
  (∀ (n : Nat) (r : List Nat) (q : List (List Nat)) (s : State), n < 24 → (tdcCh s n).queue = r :: q → s.tdc.turn = n →
    (flag s R.TDC_CH_CFG_HOST n = false ∨ bitsOf (r.getD 3 0) 18 2 ≠ 0) →
    deliver s = emit (.tdc r (crossUp s islTDC islTIME) (crossUp s islTDC islMCU))
      (setTdcCh n { tdcCh s n with queue := q } { s with tdc := { s.tdc with turn := (n + 1) % 24 } })) ∧
  (∀ (s : State), tdcUp s = true → timRuns s = true →
    exec .tdcAnchorRenew s = .next ({ s.begin with tdc := { s.tdc with anchorK := s.tdc.k, anchorL := now s, anchorR := s.tim.last.res } })) ∧
  (∀ (req : Requester) (n val : Nat) (s : State), reaches req (0x91004 + 0x40 * n) 0 s →
    exec (.intervalArm req n val) s = .next (writeChCfg2 n val s.begin)) ∧
  (∀ (n : Nat) (s : State), tdcUp s = true →
    exec (.intervalTimeout n) s = .next (intervalTimeout n s.begin)) ∧
  (∀ (n : Nat) (c : Capture) (s : State), windowOver s n = true → (tdcCh s n).start = some c →
    intervalTimeout n s = pairDone n (raise R.TDC_CH_EVENT_TIMEOUT (queueRecord n 0 0 (ns10 c.byLast)
      (2 ^ 26 + b2n c.spare * 2 ^ 23 + 2 ^ 18 + b2n c.rising * 2 ^ 17) c.fresh s) n)) ∧
  (∀ (n : Nat) (c : Capture) (s : State), windowOver s n = true → (tdcCh s n).start = none → (tdcCh s n).stop = some c →
    intervalTimeout n s = pairDone n (raise R.TDC_CH_EVENT_TIMEOUT (queueRecord n 0 0 0 (2 ^ 26 + b2n c.spare * 2 ^ 23 + 2 ^ 18) c.fresh s) n)) ∧
  (∀ (n : Nat) (s : State), windowOver s n = true ↔ ∃ a, (tdcCh s n).armed = some a ∧ getF s R.TDC_CH_CFG2_WIN_US n ≠ 0 ∧
    a + getF s R.TDC_CH_CFG2_WIN_US n * 625 < s.tdc.k ∧ (tdcCh s n).start.isSome ≠ (tdcCh s n).stop.isSome) ∧
  (∀ (req : Requester) (n val : Nat) (s : State), reaches req (0x91000 + 0x40 * n) 0 s →
    exec (.tdcChCfgWrite req n val) s = .next (writeChCfg n val s.begin)) ∧
  (∀ (req : Requester) (val : Nat) (s : State), reaches req 0x90020 0 s →
    exec (.prescalerWrite req val) s = .next (writePresc val s.begin)) ∧
  (∀ (req : Requester) (s : State), gateOf s 0x90034 0 = .pass →
    exec (.tdcTableDataRead req) s = .next (bump R.TDC_TBL_ADDR_BIN (emit (.readData req 0x90034 (tblData s)) s.begin)))

/-- TDC_REFILL_REQUEST asks for a refill of every channel its bits name: a channel that is not under refill and has TAKEOVER,
or CHS, asks for CHS, and where CHS serves that channel already the refill begins; another is refilled at once. A channel that
asks while CHS is free gets it: CHS begins to serve it in step 1, with the divider as it stands. TDC_REFILL_COMPLETE with TDC
up ends the refill with the counts (refillDone). TDC_TABLE_COMMIT commits every named table (commitTable, which does nothing
without a pending table). TAKEOVER_OVERLAP_END in step 1, once OVERLAP edges or 1 s have passed, fixes the offset as the mean
of the differences, and CHS serves the channel in step 3, with CAL_CHANGED and TAKEOVER. TAKEOVER_END in step 4, at the same
end of its overlap, frees CHS with CAL_CHANGED and TAKEOVER_END and lets the oldest waiting request start. -/
def Obligations.TdcTablesAreRefilledCommittedAndTakenOver : Prop :=
  (∀ (req : Requester) (val : Nat) (s : State), reaches req 0x9000C 0 s →
    exec (.tdcRefillRequest req val) s = .next (((List.range 25).filter (bitOf val)).foldl (fun s n => refillAsk n s) s.begin)) ∧
  (∀ (n : Nat) (h : List Nat) (s : State), tdcUp s = true →
    exec (.tdcRefillComplete n h) s = .next (planTurn (borrowLate (refillDone n h s.begin)))) ∧
  (∀ (req : Requester) (val : Nat) (s : State), reaches req 0x90010 0 s →
    exec (.tdcTableCommit req val) s = .next (((List.range 25).filter (bitOf val)).foldl (fun s n => commitTable n s) s.begin)) ∧
  (∀ (t : Takeover) (s : State), s.tdc.spare = some t → tdcUp s = true → t.step = 1 → overlapOver s t = true →
    exec .takeoverOverlapEnd s = .next (raise R.TDC_EVENT_TAKEOVER (settleSpare (settleCh t.ch
      (let u := setTdcCh t.ch { tdcCh s t.ch with calChanged := true } s.begin
       { u with tdc := { u.tdc with spare := some { t with step := 3, delta := mean10 t.diffs, diffs := [], tN := none, tS := none, since := now s } } }))) t.ch)) ∧
  (∀ (t : Takeover) (s : State), s.tdc.spare = some t → tdcUp s = true → t.step = 4 → overlapOver s t = true →
    exec .takeoverEnd s = .next (borrowLate (nextWait (raise R.TDC_EVENT_TAKEOVER_END (settleCh t.ch
      (setTdcCh t.ch { tdcCh s t.ch with calChanged := true } { s.begin with tdc := { s.tdc with spare := none } })) t.ch)))) ∧
  (∀ (t : Takeover) (s : State), overlapOver s t = true ↔ t.diffs.length ≥ overlap s ∨ now s ≥ t.since + unitS) ∧
  (∀ (n : Nat) (s : State), n ≤ 24 → (tdcCh s n).refill = 0 →
    ((n = 24 ∨ flag s R.TDC_CH_CFG_TAKEOVER n = true) → (∀ t, s.tdc.spare = some t → t.ch ≠ n ∨ t.step = 4) →
      refillAsk n s = askSpare n (setTdcCh n { tdcCh s n with refill := 1 } s)) ∧
    ((n = 24 ∨ flag s R.TDC_CH_CFG_TAKEOVER n = true) → ∀ t, s.tdc.spare = some t → t.ch = n → t.step ≤ 3 →
      refillAsk n s = settleCh n (setTdcCh n { tdcCh s n with refill := 2 }
        { s with tdc := { s.tdc with spare := some { t with refill := true } } })) ∧
    ((n ≠ 24 ∧ flag s R.TDC_CH_CFG_TAKEOVER n = false) → refillAsk n s = settleCh n (setTdcCh n { tdcCh s n with refill := 2 } s))) ∧
  (∀ (n : Nat) (s : State), n < 24 → spareBusy s = false → (tdcCh s n).refill = 1 →
    askSpare n s = settleSpare (settleCh n
      (let u := setTdcCh 24 { tdcCh s 24 with edges := (tdcCh s n).edges } (setTdcCh n { tdcCh s n with refill := 2 } s)
       { u with tdc := { u.tdc with spare := some ⟨n, 1, true, [], none, none, now s, 0⟩ } }))) ∧
  (∀ (n : Nat) (s : State), smGet [] s.tdc.pend n = [] → commitTable n s = s)

/-- SIGNAL_DETECT on an awake lane of a running quad sets SIGNAL; with one on every lane of a DOWN port the port trains
(LT_ENA = 1) or aligns. LINK_TRAINING_DONE takes the trained equaliser words and aligns; LT_FAIL past the limit takes the port
down with LT_FAIL. LINK_CONDITIONS_MET of an aligning port whose lanes are aligned and whose negotiation lets it (anOk,
aligned) sets the locks and debounces, or comes up at once with a debounce of 0. LINK_UP after the debounce brings the port
up. SIGNAL_LOSS on a running lane, and LINK_DOWN of a port in DEBOUNCE, UP or RX_ONLY, clear the condition lost, a multi-lane
port loses its alignment, and portLost follows with the cause. An SGMII control word of 1,000 Mb/s clears the bad negotiation;
another marks it, raises AN_FAIL and loses the link with cause 7. -/
def Obligations.PortsTrainAlignDebounceAndGoDown : Prop :=
  (∀ (n : Nat) (s : State), laneUp s n = true → flag s R.LNK_LANE_CFG_RX_SLEEP n = false → ∃ u p, u = setF R.LNK_LANE_STAT_SIGNAL 1 s.begin n ∧
    p = portOfLane u n ∧
    ((isPort u p = true ∧ portState u p = pDOWN ∧ ∀ m ∈ portLanes u p, flag u R.LNK_LANE_STAT_SIGNAL m = true) →
      exec (.signalDetect n) s = .next (if flag u R.LNK_PORT_CFG_LT_ENA p = true then
          setPort p pTRAINING none ((portLanes u p).foldl (fun s m => setF R.LNK_LANE_STAT_LT_STATE 1 s m) u)
        else setPort p pALIGNING none u)) ∧
    (¬ (isPort u p = true ∧ portState u p = pDOWN ∧ ∀ m ∈ portLanes u p, flag u R.LNK_LANE_STAT_SIGNAL m = true) →
      exec (.signalDetect n) s = .next u)) ∧
  (∀ (n : Nat) (s : State), laneUp s n = true → ∃ u p, u = setF R.LNK_LANE_STAT_SIGNAL 0 s.begin n ∧ p = portOfLane s n ∧
    exec (.signalLoss n) s = .next (portLost p 1 (if 1 < modeLanes (portMode u p) then alignLost p u else u))) ∧
  (∀ (p : Nat) (eqs : List Nat) (s : State), laneUp s p = true → portState s p = pTRAINING →
    exec (.linkTrainingDone p eqs) s = .next (setPort p pALIGNING none
      (((portLanes s p).zip (eqs ++ List.replicate 8 0x00FC34F8)).foldl (fun s x =>
        setF R.LNK_LANE_STAT_LT_STATE 2 (setF R.LNK_TXEQ_PRE (bitsOf x.2 16 8)
          (setF R.LNK_TXEQ_MAIN (bitsOf x.2 8 8) (setF R.LNK_TXEQ_POST (bitsOf x.2 0 8) s x.1) x.1) x.1) x.1) s.begin))) ∧
  (∀ (p : Nat) (s : State), laneUp s p = true → portState s p = pTRAINING → ltLimit s p ≤ now s - portSince s p →
    exec (.ltFail p) s = .next (raise R.LNK_PORT_EVENT_LT_FAIL (setPort p pDOWN none
      ((portLanes s p).foldl (fun s n => setF R.LNK_LANE_STAT_LT_STATE 3 s n) s.begin)) p)) ∧
  (∀ (link : LinkReady) (s : State), laneUp s link.port = true → portState s link.port = pALIGNING → aligned s link.port = true →
    anOk s link.port link.an = true → ∃ u, u = setPort link.port pDEBOUNCE none ((portLanes s link.port).foldl
      (fun v n => setF R.LNK_LANE_STAT_BLOCK_LOCK 1 (setFlag R.LNK_LANE_STAT_AM_LOCK
        (modeLanes (portMode s link.port) > 1 || portFec s link.port ≥ 2) (setF R.LNK_LANE_STAT_HI_BER 0 v n) n) n) s.begin) ∧
    exec (.linkConditionsMet link) s = .next (if getF u R.LNK_TIMERS_UP_DEBOUNCE_US link.port = 0 then setPort link.port pUP none u else u)) ∧
  (∀ (p : Nat) (an : Option Bool) (s : State),
    (anOk s p an = true ↔ (portMode s p = 1 ∧ (flag s R.LNK_PORT_CFG_AN_ENA p = false ∨ an = some true)) ∨
      (portMode s p ≠ 1 ∧ p ∉ s.lnk.badAn)) ∧
    (aligned s p = true ↔ modeLanes (portMode s p) ≤ 1 ∨ flag s R.TSU_DESKEW_VALID p = true)) ∧
  (∀ (p : Nat) (s : State), laneUp s p = true → portState s p = pDEBOUNCE → debounced s p = true →
    exec (.linkUp p) s = .next (setPort p pUP none s.begin)) ∧
  (∀ (p cause : Nat) (s : State), laneUp s p = true → (portState s p = pDEBOUNCE ∨ portState s p = pUP ∨ portState s p = pRX_ONLY) → ∃ u,
    u = (match cause with
      | 1 => (portLanes s p).foldl (fun s n => setF R.LNK_LANE_STAT_SIGNAL 0 s n) s.begin
      | 2 => (portLanes s p).foldl (fun s n => setF R.LNK_LANE_STAT_BLOCK_LOCK 0 s n) s.begin
      | 3 => (portLanes s p).foldl (fun s n => setF R.LNK_LANE_STAT_AM_LOCK 0 s n) s.begin
      | 4 => (portLanes s p).foldl (fun s n => setF R.LNK_LANE_STAT_HI_BER 1 s n) s.begin
      | _ => s.begin) ∧
    exec (.linkDown p cause) s = .next (portLost p cause
      (if 1 ≤ cause ∧ cause ≤ 3 ∧ 1 < modeLanes (portMode u p) then alignLost p u else u))) ∧
  (∀ (p mbps : Nat) (s : State), laneUp s p = true → portMode s p = 2 →
    (mbps = 1000 → exec (.sgmiiControlWord p mbps) s = .next { s.begin with lnk := { s.lnk with badAn := setIn p false s.lnk.badAn } }) ∧
    (mbps ≠ 1000 → exec (.sgmiiControlWord p mbps) s = .next (portLost p 7 (raise R.LNK_PORT_EVENT_AN_FAIL
      { s.begin with lnk := { s.lnk with badAn := setIn p true s.lnk.badAn } } p))))

/-- LNK_COMMIT, LANE_CFG_WRITE, TXEQ_WRITE and the RECAL writes that reach their register have the effects lnkCommit,
writeLaneCfg, writeTxeq and writeRecal. A TXEQ beyond full swing is discarded with TXEQ_INVALID; another is taken without
LT_ENA. A refused recalibration raises RECAL_REFUSED; an accepted partial one marks its lane as running and asks for a TDC
channel. TX_DRIVER_AWAKE of a waking lane sets TX_AWAKE and settles the port. On a lane with an elastic buffer (a running lane
of a port on a FREE quad) EB_IDLE_ADJUST keeps the fill and counts an insertion below 24 and a deletion above 40, and EB_SLIP
marks the frames on their way into the port bad (drops those of the engine), sets the fill to 32 and raises EB_SLIP. LPI_RX of
a running port counts, and raises LPI_RX the first time. RECAL_COMPLETE with a TDC channel lent ends the recalibration, FULL
or PARTIAL: it takes the new constants with CAL_UPDATED or raises CAL_FAIL, settles and forces the port, gives the channel
back and lets the plan go on. QUAD_CALIBRATION_DONE of a quad in calibration runs the quad step and the lane steps of its
lanes; POWER_UP_CALIBRATION applies what was measured (calibrated) and reaches milestone 6 with CAL_DONE. -/
def Obligations.LanesAreConfiguredAndRecalibrated : Prop :=
  (∀ (req : Requester) (val : Nat) (s : State), reaches req 0xA000C 0 s →
    exec (.lnkCommit req val) s = .next (lnkCommit val s.begin)) ∧
  (∀ (req : Requester) (val : Nat) (n : Nat) (s : State), reaches req 0xA0408 n s →
    exec (.laneCfgWrite req val) s = .next (writeLaneCfg n val s.begin)) ∧
  (∀ (req : Requester) (val : Nat) (n : Nat) (s : State), reaches req 0xA040C n s →
    exec (.txeqWrite req val) s = .next (writeTxeq n val s.begin)) ∧
  (∀ (n val : Nat) (s : State),
    (64 < (sx 8 (bitsOf val 16 8)).natAbs + bitsOf val 8 8 + (sx 8 (bitsOf val 0 8)).natAbs →
      writeTxeq n val s = raise R.LNK_PORT_EVENT_TXEQ_INVALID s n) ∧
    ((sx 8 (bitsOf val 16 8)).natAbs + bitsOf val 8 8 + (sx 8 (bitsOf val 0 8)).natAbs ≤ 64 →
      flag s R.LNK_PORT_CFG_LT_ENA (portOfLane s n) = false →
      writeTxeq n val s = setF R.LNK_TXEQ_PRE (bitsOf val 16 8) (setF R.LNK_TXEQ_MAIN (bitsOf val 8 8)
        (setF R.LNK_TXEQ_POST (bitsOf val 0 8) s n) n) n)) ∧
  (∀ (n : Nat) (s : State), laneUp s n = true → (smGet none s.lnk.waking n).isSome = true → ∃ u,
    u = setF R.LNK_LANE_STAT_TX_AWAKE 1 { s.begin with lnk := { s.lnk with waking := smPut none s.lnk.waking n none } } n ∧
    exec (.txDriverAwake n) s = .next (settlePort (portOfLane u n) u)) ∧
  (∀ (n fill : Nat) (s : State), hasEb s n = true → ∃ u,
    u = setF R.LNK_LANE_STAT_EB_FILL fill s.begin n ∧
    exec (.ebIdleAdjust n fill) s = .next (if fill < 24 then bump R.LNK_CNT_EB_INS_COUNT u (portOfLane s n)
      else if 40 < fill then bump R.LNK_CNT_EB_DEL_COUNT u (portOfLane s n) else u)) ∧
  (∀ (n : Nat) (s : State), hasEb s n = true →
    ∃ u, exec (.ebSlip n) s = .next (raise R.LNK_PORT_EVENT_EB_SLIP (setF R.LNK_LANE_STAT_EB_FILL 32 u n) (portOfLane s n)) ∧
      u = (frames s).foldl (fun v x => if x.2.port = portOfLane s n ∧ !x.2.ended then
        if x.2.engine.isSome then dropFrame 0x0F x.1 v else frameBad 0x0F x.1 v else v) s.begin) ∧
  (∀ (n : Nat) (s : State), hasEb s n = true ↔
    laneUp s n = true ∧ isPort s (portOfLane s n) = true ∧ quadFree s (quadOf n) = true) ∧
  (∀ (p : Nat) (s : State), laneUp s p = true → isPort s p = true →
    exec (.lpiRx p) s = .next (whenS (!s.lnk.lpi.contains p) (fun s => raise R.LNK_PORT_EVENT_LPI_RX s p)
      (bump R.LNK_CNT_LPI_COUNT { s.begin with lnk := { s.lnk with lpi := setIn p true s.lnk.lpi } } p))) ∧
  (∀ (req : Requester) (val : Nat) (n : Nat) (s : State), reaches req 0xA0430 n s →
    exec (.recalPartial req val) s = .next (writeRecal n val s.begin)) ∧
  (∀ (req : Requester) (val : Nat) (n : Nat) (s : State), reaches req 0xA0430 n s →
    exec (.recalFull req val) s = .next (writeRecal n val s.begin)) ∧
  (∀ (n : Nat) (s : State), (recalRefused s n true = true → writeRecal n 2 s = raise R.LNK_PORT_EVENT_RECAL_REFUSED s n) ∧
    (recalRefused s n false = true → writeRecal n 1 s = raise R.LNK_PORT_EVENT_RECAL_REFUSED s n) ∧
    (recalRefused s n false = false → ∃ u, writeRecal n 1 s = borrow u ∧ u.lnk.part = setIn n true s.lnk.part ∧
      getF u R.LNK_CAL_STAT_RESULT n = 3)) ∧
  (∀ (fin : RecalEnd) (s : State), laneUp s fin.cal.lane = true → s.tdc.borrowed.isSome = true → fin.cal.lane ∈ s.lnk.full →
    fin.cal.lane ∉ s.lnk.part → let n := fin.cal.lane
    ∃ u, u = calStat fin.cal (calPass fin.cal (calA fin.cal)) false (quadStep (quadOf n) fin.load { s.begin with lnk := { s.lnk with
          part := setIn n false s.lnk.part, full := setIn n false s.lnk.full } }) ∧
      (calPass fin.cal (calA fin.cal) = false → ∃ v, v = raise R.LNK_PORT_EVENT_CAL_FAIL u n ∧
        exec (.recalComplete fin) s = .next (planTurn (giveBack (forcePort (portOfLane v n) (settlePort (portOfLane v n) v))))) ∧
      (calPass fin.cal (calA fin.cal) = true → ∃ v, v = raise R.TSU_EVENT_CAL_UPDATED (setF R.LNK_CAL_LOOP_A (toU 32 (to16 (calA fin.cal)))
          (setF R.TSU_STATUS_CAL_VALID 1 (noteTemp n (canSite n) (newConstants n (calFull fin.cal) u)) n) n) n ∧
        exec (.recalComplete fin) s = .next (planTurn (giveBack (forcePort (portOfLane v n) (settlePort (portOfLane v n) v)))))) ∧
  (∀ (fin : RecalEnd) (a : Int) (s : State), laneUp s fin.cal.lane = true → s.tdc.borrowed.isSome = true → fin.cal.lane ∈ s.lnk.part →
    a = getS s R.LNK_CAL_LOOP_A fin.cal.lane * 65536 → let n := fin.cal.lane
    ∃ u, u = calStat fin.cal (calPass fin.cal a) true { s.begin with lnk := { s.lnk with
          part := setIn n false s.lnk.part, full := setIn n false s.lnk.full } } ∧
      (calPass fin.cal a = false → ∃ v, v = raise R.LNK_PORT_EVENT_CAL_FAIL u n ∧
        exec (.recalComplete fin) s = .next (planTurn (giveBack (forcePort (portOfLane v n) (settlePort (portOfLane v n) v))))) ∧
      (calPass fin.cal a = true → ∃ v,
        v = raise R.TSU_EVENT_CAL_UPDATED (noteTemp n (canSite n) (newConstants n (calPartial fin.cal a) u)) n ∧
        exec (.recalComplete fin) s = .next (planTurn (giveBack (forcePort (portOfLane v n) (settlePort (portOfLane v n) v)))))) ∧
  (∀ (k : Nat) (load : Int) (lanes : List LaneCal) (s : State), islUp s (islLANE k) = true → k ∈ s.lnk.quadCal → ∃ u,
    u = (lanes.filter fun c => quadOf c.lane = k).foldl (fun s c => laneStep c s) (quadStep k load s.begin) ∧
    exec (.quadCalibrationDone k load lanes) s = .next (forceAll (settleAll (setF R.LNK_GSTAT_CAL_FAILED_LANES (failedLanes u)
      { u with lnk := { u.lnk with quadCal := setIn k false u.lnk.quadCal } })))) ∧
  (∀ (quads : List (Nat × Int)) (lanes : List LaneCal) (outs : List (Nat × Nat × Nat)) (us : Nat) (s : State), ∃ u,
    u = calibrated quads lanes outs (tickUs us s.begin) ∧
    exec (.powerUpCalibration quads lanes outs us) s = .next (readyCheck (whenS (flag u R.TSU_GSTAT_CAL_DONE) (milestone 6) u)))

/-- TALLY_MEASUREMENT on a lane with a tally keeps the phase modulo 2,048, its change wrapped to -1,024 to 1,023, validity
from the second measurement with clock recovery, offset lock and the receiver awake, and lock at the fourth good one in a row;
the earlier measurement is kept. CDR_LOCK_ACQUIRE starts the count of two afresh. CDR_LOCK_LOSS is tallyInvalid, which forgets
the measurements and counts of the lane. ALIGNMENT_LOCK keeps D, 0 on a port of one lane, with DESKEW_CHANGED when it differs
from an earlier one. CAL_CONSTANT_APPLY takes the waiting CAL_RX and CAL_TX constants into force, leaves those that do not
wait, and keeps the UI index of the edge and the receive delay before it. -/
def Obligations.TalliesCountTheirMeasurements : Prop :=
  (∀ (n phi : Nat) (u0 : Int) (s : State), laneUp s n = true → (laneM s n).isSome = true → ∃ t dphi valid good,
    exec (.tallyMeasurement n phi u0) s = .next t ∧
    dphi = (((phi % 2048 : Nat) : Int) - getF s R.TSU_TALLY_PHI n + 1024) % 2048 - 1024 ∧
    valid = (flag s R.LNK_LANE_STAT_CDR_LOCK n && flag s R.TSU_GSTAT_OFFSET_LOCK && !flag s R.LNK_LANE_CFG_RX_SLEEP n
      && decide (1 ≤ (tally s n).posted)) ∧
    good = (if valid = true ∧ dphi.natAbs ≤ getF s R.TSU_GCFG_TALLY_SLIP then min 4 ((tally s n).good + 1) else 0) ∧
    (tally t n).cur = some ⟨phi % 2048, dphi, u0, valid && decide (4 ≤ good), valid⟩ ∧ (tally t n).prev = (tally s n).cur ∧
    (tally t n).good = good) ∧
  (∀ (n : Nat) (s : State), laneUp s n = true →
    exec (.cdrLockAcquire n) s = .next (setTally n { tally s n with posted := 0 } (setF R.LNK_LANE_STAT_CDR_LOCK 1 s.begin n))) ∧
  (∀ (n : Nat) (s : State), laneUp s n = true →
    exec (.cdrLockLoss n) s = .next (tallyInvalid n (setF R.LNK_LANE_STAT_CDR_LOCK 0 s.begin n))) ∧
  (∀ (n : Nat) (s : State), tally (tallyInvalid n s) n = { tally s n with
    cur := none, prev := none, good := 0, posted := 0, sum := 0, n := 0, y := none, calOld := none
    invalidSince := if flag s R.TSU_TALLY_VALID n then now s else (tally s n).invalidSince }) ∧
  (∀ (p d : Nat) (s : State), laneUp s p = true → isPort s p = true → ∃ v, v = (if modeLanes (portMode s p) ≤ 1 then 0 else d) ∧
    exec (.alignmentLock p d) s = .next (setTally p { tally s p with dSeen := true } (setF R.TSU_DESKEW_VALID 1 (setF R.TSU_DESKEW_D v
      (whenS ((tally s p).dSeen && getF s R.TSU_DESKEW_D p ≠ v % 2 ^ R.TSU_DESKEW_D.w) (fun s => raise R.TSU_EVENT_DESKEW_CHANGED s p) s.begin) p) p))) ∧
  (∀ (edge : LaneEdge) (s : State), laneUp s edge.lane = true →
    exec (.calConstantApply edge) s = .next (calApply edge.lane edge.ui s.begin)) ∧
  (∀ (n : Nat) (u : Int) (s : State), calPend (calApply n u s) n = CalPend.reset ∧
    (∀ v, (calPend s n).calRx = some v → getF (calApply n u s) R.TSU_CAL_RX_DELAY n = v % 2 ^ R.TSU_CAL_RX_DELAY.w) ∧
    ((calPend s n).calRx = none → getF (calApply n u s) R.TSU_CAL_RX_DELAY n = getF s R.TSU_CAL_RX_DELAY n) ∧
    (∀ v, (calPend s n).calTx = some v → getF (calApply n u s) R.TSU_CAL_TX_DELAY n = v % 2 ^ R.TSU_CAL_TX_DELAY.w) ∧
    ((calPend s n).calTx = none → getF (calApply n u s) R.TSU_CAL_TX_DELAY n = getF s R.TSU_CAL_TX_DELAY n) ∧
    ((calPend s n).calRx ≠ none → (tally (calApply n u s) n).calU = u ∧ (tally (calApply n u s) n).calOld = some (laneDelay s n false)))

/-- FRAME_RECEIVE on a port of a running quad, aligned and outside JTAG: in UP and RX_ONLY the frame starts (frameStart); in
LOOP it is only counted. FRAME_END_RECEIVE is endFrame: a frame from a port, not yet admitted, of at most 16,383 octets and
with a good FCS, ends with its octets and counts, and leaves when nothing else waits for it; one that has ended is left as it
is. -/
def Obligations.FramesEnterAndEnd : Prop :=
  (∀ (p age : Nat) (pre early : Bool) (o : List Nat) (u : Int) (s : State), laneUp s p = true → isPort s p = true → aligned s p = true →
    jtagHolds s = false →
    ((portState s p = 5 ∨ portState s p = 7) → exec (.frameReceive p pre o u age early) s = .next (frameStart p pre o u age early s.begin)) ∧
    (portState s p = 8 → exec (.frameReceive p pre o u age early) s = .next (bump R.LNK_CNT_LOOP_RX_COUNT s.begin p))) ∧
  (∀ (f : Nat) (rest : List Nat) (e : Bool) (s : State), exec (.frameEndReceive f rest e) s = .next (endFrame f rest e s.begin)) ∧
  (∀ (f : Nat) (rest : List Nat) (x : Frame) (s : State), frameAt s f = some x → x.ended = false → x.port < 64 → x.copies = [] → x.admitted = false →
    (x.octets ++ rest).length ≤ 16383 → fcsCheck (x.octets ++ rest) = 0 →
    endFrame f rest false s = reapFrame f (bwAdd false x.port (x.octets ++ rest).length (monEvent 2 x.port none 0 (x.octets ++ rest).length
      (setFrame f (some { x with octets := x.octets ++ rest, ended := true }) s)))) ∧
  (∀ (f : Nat) (rest : List Nat) (x : Frame) (s : State), frameAt s f = some x → x.ended = true → endFrame f rest false s = s)

/-- INGRESS_HEAD decides a frame whose head is there and has not passed yet (ingressHead, and the TX ring's completion where
it ends there); with PIPE0, its own pipeline or its crossing down the frame is lost under CROSSING, else an undirected frame
without PTP passes the stages (ingStages). INGRESS_TAIL_PASS of an ended frame that waits for its tail checks it with the
settings it read and drops it, or moves its copies to the class that results. LEARN_INSERT and STREAM_LEARN take the oldest
request of their kind; a known address moves unless it is static, a new one goes into a free entry, or raises FDB_LIMIT at the
port's limit. AGEING_SWEEP_VISIT removes an aged learned entry, and starts the deletion of an aged learned context with
STREAM_AGED and refills its meter. STREAM_DELETE_CLEAR at its instant clears VALID of the context where the word can be read. -/
def Obligations.IngressDecidesLearnsAndAges : Prop :=
  (∀ (f : Nat) (x : Frame) (s : State), frameAt s f = some x → x.headDone = false → (x.ended = true ∨ 128 ≤ x.octets.length) →
    ∃ u, u = ingressHead f { s.begin with buf := { s.buf with lastDrop := 0 } } ∧
      exec (.ingressHead f) s = .next (match frameAt u f with | some _ => u | none => txDecided x false u)) ∧
  (∀ (f : Nat) (x : Frame) (s : State), frameAt s f = some x → x.headDone = false → (x.ended = true ∨ 128 ≤ x.octets.length) →
    (islUp s (islPIPE 0) = false ∨ islUp s (pipeOf x.port) = false ∨ headCross s x.port = false) →
    ingressHead f s = sumpCount 0x10 x.port none (forgetFrame f s)) ∧
  (∀ (f : Nat) (x : Frame) (s : State), frameAt s f = some x → x.headDone = false → (x.ended = true ∨ 128 ≤ x.octets.length) →
    islUp s (islPIPE 0) = true → islUp s (pipeOf x.port) = true → headCross s x.port = true → x.directed = none →
    (parse (x.octets.take 128)).ptpOff = none →
    ingressHead f s = ingStages f { x with ptp := none, dom := none, headDone := true, tfwd := false } (parse (x.octets.take 128)) none
      (bump R.ING_CNT_HEADS_COUNT s x.port)) ∧
  (∀ (f c : Nat) (x : Frame) (g : IngRes) (s : State), frameAt s f = some x → islUp s (islPIPE 0) = true → islUp s (pipeOf x.port) = true →
    x.ing = some g → g.ctx = some c → x.needTail = true → x.ended = true → ∃ y k, y = { x with needTail := false } ∧
    k = checkTail y g c (bump R.ING_CNT_TAIL_PASS_COUNT s.begin x.port) ∧
    (∀ r, k.1 = .drop r → exec (.ingressTailPass f) s = .next (dropFrame r f (setFrame f (some y) k.2))) ∧
    (∀ ipv de ytc, k.1 = .pass ipv de ytc → ∃ tc, tc = (if g.ptpTc then getF (touchFrame f k.2) R.PTE_GCFG_PTP_TC
        else ytc.getD (if ipv = 15 then g.tc else ipv % 8)) ∧
      exec (.ingressTailPass f) s = .next (ctxBump c 13 0 32 (setFrame f
        (some { y with ing := some { g with tc := tc, de := de }, copies := y.copies.map fun q => { q with tc := tc, de := de } })
        (y.copies.foldl (fun s q => shaperTouch q.out tc s) (touchFrame f k.2)))))) ∧
  (∀ (k p : Nat) (s : State), islUp s (islPIPE 0) = true →
    (s.ing.queue.find? fun r => match r with | .mac _ _ => true | _ => false) = some (.mac k p) →
    exec .learnInsert s = .next (learnInsert k p { s.begin with ing := { s.ing with queue := s.ing.queue.erase (.mac k p) } })) ∧
  (∀ (key port i : Nat) (s : State), fdbFind s key = none → fdbFree s key = some i →
    (getF s R.ING_PORT_LEARN_LIMIT port = 0 ∨ learnedOn s port < getF s R.ING_PORT_LEARN_LIMIT port →
      learnInsert key port s = fullWrite 3 i (setTbl 2 i (fdbMake key false false port (nowSec s)) s)) ∧
    (getF s R.ING_PORT_LEARN_LIMIT port ≠ 0 → getF s R.ING_PORT_LEARN_LIMIT port ≤ learnedOn s port →
      learnInsert key port s = raise R.ING_EVENT_FDB_LIMIT s 0 port)) ∧
  (∀ (key port i : Nat) (e : List Nat) (s : State), fdbFind s key = some (i, e) →
    learnInsert key port s = if fdbStatic e then s else fullWrite 3 i (setTbl 2 i (fdbMake key false false port (nowSec s)) s)) ∧
  (∀ (k : List Nat) (t : Nat) (s : State), islUp s (islPIPE 0) = true →
    (s.ing.queue.find? fun r => match r with | .stream _ _ => true | _ => false) = some (.stream k t) →
    exec .streamLearn s = .next (streamLearn k t { s.begin with ing := { s.ing with queue := s.ing.queue.erase (.stream k t) } })) ∧
  (∀ (i : Nat) (s : State), islUp s (islPIPE 0) = true →
    exec (.ageingSweepVisit false i) s = .next (
      if bitOf (tw (tblEntry s 2 i) 2) 31 = true ∧ fdbStatic (tblEntry s 2 i) = false ∧ getF s R.ING_GCFG_AGE_S ≠ 0 ∧
          getF s R.ING_GCFG_AGE_S ≤ hitAge 32 (tw (tblEntry s 2 i) 3) (nowSec s) (getF s R.ING_GCFG_AGE_S)
      then setTbl 2 i [] s.begin else s.begin)) ∧
  (∀ (i : Nat) (s : State), islUp s (islPIPE 0) = true → ∃ t,
    t = (if ctxValid s i = true ∧ ctxF s i 6 63 1 = 1 ∧ getF s R.ING_LEARN_CFG_AGE_S ≠ 0 ∧
          getF s R.ING_LEARN_CFG_AGE_S ≤ hitAge 16 (ctxF s i 15 0 16) (nowSec s) (getF s R.ING_LEARN_CFG_AGE_S) ∧ ∀ d ∈ s.ing.dels, d.1 ≠ i
        then raise R.ING_EVENT_STREAM_AGED (ctxDelete i s.begin) 0 i else s.begin) ∧
    exec (.ageingSweepVisit true i) s = .next (
      if ctxValid t i = true ∧ ctxF t i 6 21 1 = 1 then (meterRefill i (tblNow t / unitNs) t).2 else t)) ∧
  (∀ (w hit sec age : Nat) (d : Nat), d = (sec + 2 ^ w - hit % 2 ^ w) % 2 ^ w →
    ((2 ^ (w - 1) ≤ d ∧ age < 2 ^ (w - 1)) → hitAge w hit sec age = 0) ∧ (¬ (2 ^ (w - 1) ≤ d ∧ age < 2 ^ (w - 1)) → hitAge w hit sec age = d)) ∧
  (∀ (c : Nat) (d : Nat × Int) (s : State), (s.ing.dels.find? fun d => d.1 == c && decide (d.2 ≤ tblNow s)) = some d → ∃ k,
    k = narrowWrite 9 (16 * c) { s.begin with ing := { s.ing with dels := s.ing.dels.erase d } } ∧
    exec (.streamDeleteClear c) s = .next (if k.1 then setCtxF c 0 63 1 0 k.2 else k.2))

/-- ING_TABLE_READ and ING_TABLE_WRITE that reach ING_TBL_CTL keep table, index and direction; without GO nothing else
happens; with GO a write stores the 32 words of the data window and a read fills it, and STATUS says how it ended: an index
beyond the table gives BAD_INDEX, no change, and zeros. STREAM_GATE_COMMIT of a gate with a valid period leaves its admin copy
pending for an instant at least 2 us ahead, and one with an invalid period raises PERIOD_INVALID. STREAM_GATE_CHANGE does
nothing before that instant; from it on the change is no longer pending, the cycles are unshifted and the earlier list is
kept. -/
def Obligations.IngressTablesAndStreamGatesChange : Prop :=
  (∀ (req : Requester) (val : Nat) (s : State), reaches req 0xB0040 0 s →
    exec (.ingTableRead req val) s = .next (writeIngTbl val s.begin)) ∧
  (∀ (req : Requester) (val : Nat) (s : State), reaches req 0xB0040 0 s →
    exec (.ingTableWrite req val) s = .next (writeIngTbl val s.begin)) ∧
  (∀ (val : Nat) (s : State), ∃ u, u = setF R.ING_TBL_CTL_WRITE (bitsOf val 29 1) (setF R.ING_TBL_CTL_TABLE (bitsOf val 25 4)
        (setF R.ING_TBL_CTL_INDEX (bitsOf val 0 17) s)) ∧
    (bitOf val 31 = false → writeIngTbl val s = u) ∧
    (bitOf val 31 = true → bitOf val 29 = true → ∃ r, r = tblWrite (bitsOf val 25 4) (bitsOf val 0 17)
        ((List.range 32).map fun k => getF u R.ING_TBL_DATA_WORD k) u ∧ writeIngTbl val s = setF R.ING_TBL_CTL_STATUS r.1 r.2) ∧
    (bitOf val 31 = true → bitOf val 29 = false → getF (writeIngTbl val s) R.ING_TBL_CTL_STATUS
      = (tblRead u (bitsOf val 25 4) (bitsOf val 0 17)).1 % 2 ^ R.ING_TBL_CTL_STATUS.w)) ∧
  (∀ (t i : Nat) (ws : List Nat) (s : State), t ≠ 2 → t ≠ 3 → tblSize t ≤ i → tblWrite t i ws s = (stBadIndex, s) ∧
    (tblRead s t i).1 = stBadIndex ∧ ∀ k, tw (tblRead s t i).2 k = 0) ∧
  (∀ (req : Requester) (val : Nat) (s : State), reaches req 0xB0044 0 s →
    exec (.streamGateCommit req val) s = .next (writeGateCommit val s.begin)) ∧
  (∀ (g : Nat) (s : State), (gateCycle (tblEntry s 6 g)).ok = true → ∃ r,
    gateCommit g s = setGateRt g { gateRt s g with pend := some r } s ∧ tblNow s + 2 * unitUs ≤ r.1 ∧ r.2.1 = tblEntry s 6 g) ∧
  (∀ (g : Nat) (s : State), (gateCycle (tblEntry s 6 g)).ok = false →
    gateCommit g s = raise R.FLT_GEN_EVENT_PERIOD_INVALID s 0 0xB0044) ∧
  (∀ (g : Nat) (s : State), islUp s (islPIPE 0) = true →
    exec (.streamGateChange g) s = .next (gateChange g s.begin)) ∧
  (∀ (g : Nat) (t : Int) (e : List Nat) (l : List (List Nat)) (s : State), (gateRt s g).pend = some (t, e, l) → t ≤ tblNow s →
    ∃ was, gateRt (gateChange g s) g = { gateRt s g with pend := none, shift := 0, since := t, prev := some was }) ∧
  (∀ (g : Nat) (t : Int) (e : List Nat) (l : List (List Nat)) (s : State), (gateRt s g).pend = some (t, e, l) → tblNow s < t →
    gateChange g s = s)

/-- BUF_ADMISSION with BUF up decides a frame whose head has passed ingress: over its crossing it is admitted (bufAdmit) and
its TX ring told; without the crossing it is lost (loseHead). A frame without a function of RED is tested for each of its
destinations with its cells or the estimate; with a copy admitted it is stored and its copies are enqueued, else it is
refused. A copy passes the two tests exactly when its aggregate stays within its minimum and alpha share and its pool within
its maximum. FRAME_STORE_COMPLETE of an admitted frame that has ended and waits for no tail makes a good frame stored and
discards the waiting copies of a bad one. LINK_HOLD_EXPIRY at the deadline ends the hold (holdExpire). BUF_ADMISSION_COMMIT is
admCommit. INSERTION_COPY_AGE_LIMIT discards a waiting copy with an insertion after 1,000 s, under AGED. -/
def Obligations.TheBufferAdmitsStoresAndDiscards : Prop :=
  (∀ (f : Nat) (x : Frame) (s : State), islUp s islBUF = true → frameAt s f = some x → x.headDone = true → x.admitted = false →
    x.tfwd = false → x.ing.isSome = true →
    (bufCross s x.port = true → exec (.bufAdmission f) s = .next (txDecided x (admitted (bufAdmit f s.begin) f) (bufAdmit f s.begin))) ∧
    (bufCross s x.port = false → exec (.bufAdmission f) s = .next (loseHead f x s.begin))) ∧
  (∀ (f l : Nat) (x : Frame) (g : IngRes) (s : State), frameAt s f = some x → x.ing = some g → x.headDone = true → x.admitted = false →
    x.tfwd = false → x.frer = .none → l = (match g.known with | some n => cellsOf n | none => estCells s) → ∃ u,
    u = g.dests.foldl (fun s o => admitCopy f o l s) s ∧ bufAdmit f s = if admitted u f then storeHead f (enqueueCopies f u) else refuseAll f u) ∧
  (∀ (o c : Nat) (de : Bool) (l : Nat) (s : State),
    (admitTest s o c de l = none ↔ aggregate s o c + l ≤ minCells s o c + alphaF s o c de ∧
      (getF s (R.BUF_POOL_MAX_MAX.on (4 * getF s (clsF R.BUF_CLS_ADM_POOL c) o)) = 0 ∨
       poolUsed s (getF s (clsF R.BUF_CLS_ADM_POOL c) o) + l ≤ getF s (R.BUF_POOL_MAX_MAX.on (4 * getF s (clsF R.BUF_CLS_ADM_POOL c) o)))) ∧
    (admitTest s o c de l = some 0x11 ↔ minCells s o c + alphaF s o c de < aggregate s o c + l)) ∧
  (∀ (f : Nat) (x : Frame) (s : State), islUp s islBUF = true → frameAt s f = some x → x.ended = true → x.admitted = true → x.needTail = false →
    (x.bad = none → exec (.frameStoreComplete f) s = .next (setFrame f (some { x with stored := true }) (touchFrame f s.begin))) ∧
    (∀ r, x.bad = some r → exec (.frameStoreComplete f) s = .next (reapFrame f (dropAll r f s.begin)))) ∧
  (∀ (o : Nat) (s : State), islUp s islBUF = true → (holdOf s o).st = 1 → (holdOf s o).deadline ≤ copyNow s islBUF →
    exec (.linkHoldExpiry o) s = .next (touchOut o (holdExpire o (touchOut o s.begin)))) ∧
  (∀ (req : Requester) (val : Nat) (s : State), reaches req 0xC0020 0 s →
    exec (.bufAdmissionCommit req val) s = .next (if bitOf val 31 then admCommit s.begin else s.begin)) ∧
  (∀ (f o : Nat) (x : Frame) (y : Copy) (s : State), frameAt s f = some x → x.ins.isSome = true → y ∈ x.copies → y.out = o →
    y.st ≠ .leaving → y.enq + 1000 * unitS ≤ copyNow s islBUF → exec (.insertionCopyAgeLimit f o) s = .next (dropCopy 0x17 f o s.begin))

/-- EGRESS_SELECTION of a present output with EGR up, outside JTAG, brings its classes up to date and, with nothing selected,
selects by the rules (selectLoop). FRAME_TX_START of an idle output over its crossing is txStart: with no preempted frame
there it reads the copy and starts the selected frame by what becomes of its insertion (startBy), or refuses it under ECC; the
start leaves it as the output's transmission, express or preemptible. FRAME_TX_END of a frame that has ended and is not paused
is txEndOf: at a front port its edited octets go out and the MAC is free. GATE_ENTRY_CHANGE preempts a preemptible frame whose
class is closed, after lateEvent when the event came late. MAC_HOLD_START preempts it at a hold. -/
def Obligations.EgressSelectsStartsAndEndsFrames : Prop :=
  (∀ (o : Nat) (ts : Int) (s : State), egrUp s = true → portPresent s o = true → jtagHolds s = false → ∃ u, u = cleanSel o (touchOut o s.begin) ∧
    exec (.egressSelection o ts) s = .next (if (egrPort u o).sel.isSome then u else selectLoop o ts (u.buf.frames.length + 1) u)) ∧
  (∀ (o back : Nat) (u : Int) (s : State), egrUp s = true → portPresent s o = true → outCross s o = true → txIdle s o = true →
    jtagHolds s = false → exec (.frameTxStart o back u) s = .next (txStart o back u s.begin)) ∧
  (∀ (o back : Nat) (u : Int) (t : Tx) (x : Frame) (y : Copy) (s v : State), v = cleanSel o s → (egrPort v o).sel = some t → (egrPort v o).ptx = none →
    frameAt v t.frame = some x → x.copies.find? (·.out == o) = some y → x.bad = none → ∃ k,
    k = eccStart o t.frame x y (touchOut o (whenS (o < 64) (freeReload (quadOf o)) v)) ∧
    (k.1 = true → txStart o back u s = startBy o (txTime k.2 o back u) t x y (insFate k.2 o x (txTime k.2 o back u)) k.2) ∧
    (k.1 = false → txStart o back u s = refuseStart o 0x14 t k.2)) ∧
  (∀ (o : Nat) (t : Tx) (x : Frame) (y : Copy) (tt : Option Int) (ins : Option (Int × Int)) (s : State), ∃ v r,
    r = { t with charged := t.left, tTx := tt, insert := ins.isSome, ts := (ins.getD (0, 0)).1, add := (ins.getD (0, 0)).2
                 counted := (frameLen x).isSome } ∧
    beginTx o t x y tt ins s = setEgrPort o { egrPort v o with
      sel := none, tx := if t.pre then (egrPort v o).tx else some r, ptx := if t.pre then some r else (egrPort v o).ptx } v) ∧
  (∀ (o : Nat) (pre : Bool) (t : Tx) (x : Frame) (s : State), egrUp s = true →
    (if pre then (egrPort (cleanSel o s.begin) o).ptx else (egrPort (cleanSel o s.begin) o).tx) = some t → t.paused = false →
    frameAt (cleanSel o s.begin) t.frame = some x → x.ended = true →
    exec (.frameTxEnd o pre) s = .next (txEndOf o t (cleanSel o s.begin))) ∧
  (∀ (o : Nat) (t : Tx) (x : Frame) (y : Copy) (s : State), o < 64 → frameAt s t.frame = some x → x.copies.find? (·.out == o) = some y →
    (∃ z v err, (z, v) = eccLeave t.frame x (touchOut o s) ∧ .frame o (edited v z o y t.insert t.ts t.add).2 [] err ∈ (txEndOf o t s).outs) ∧
    (t.pre = false → (egrPort (txEndOf o t s) o).tx = none) ∧ (t.pre = true → (egrPort (txEndOf o t s) o).ptx = none)) ∧
  (∀ (o : Nat) (late : Option Int) (s : State), egrUp s = true → gateEna s o = true → ∃ u,
    u = cleanSel o (touchOut o (match late with | some t => lateEvent o t (touchOut o s.begin) | none => s.begin)) ∧
    exec (.gateEntryChange o late) s = .next (match (egrPort u o).ptx with
      | some t => if gateOpen u o t.tc (now u) then u else preempt o (now u) u
      | none => u)) ∧
  (∀ (o : Nat) (s : State), egrUp s = true → holdAt s o (now s) = true →
    exec (.macHoldStart o) s = .next (preempt o (now s) (cleanSel o s.begin)))

/-- The shaper and gate writes that reach their registers have the effects named; those of P64 and P65 raise
REG_ACCESS_UNMAPPED for the gate registers. A write of EGR_GATE_CTL does CANCEL, COMMIT and REALIGN in this order: CANCEL
gives a pending change up, or makes it where its time has come; a commit with one pending raises GCL_BUSY, a valid one starts
a change at changeTime. GATE_CONFIG_CHANGE from the change time on swaps the lists (gateSwap). MM_VERIFY_END of a verification
under way keeps the outcome, with MM_VERIFY_FAIL. EGR_TABLE_READ and EGR_TABLE_WRITE are writeEgrTbl: with no injection armed
an untagged word written is read back, and the oper list cannot be written. -/
def Obligations.ShapersGatesAndEgressTablesAreControlled : Prop :=
  (∀ (req : Requester) (c val : Nat) (o : Nat) (s : State), reaches req (0xD0204 + 0x10 * c) o s →
    exec (.shaperRateWrite req c val) s = .next (setF (clsF R.EGR_CLS_RATE_RATE c) val (shaperTouch o c s.begin) o)) ∧
  (∀ (req : Requester) (c val o : Nat) (s : State),
    (reaches req (0xD0208 + 0x10 * c) o s → exec (.shaperCfgWrite req c val true) s = .next (writeBurst c val o s.begin)) ∧
    (reaches req (0xD0200 + 0x10 * c) o s → exec (.shaperCfgWrite req c val false) s = .next (writeClsCfg c val o s.begin))) ∧
  (∀ (req : Requester) (val : Nat) (o : Nat) (s : State), reaches req 0xD0110 o s →
    exec (.gateEnableWrite req val) s = .next (frontOnly o 0xD0110 (writeGateCfg o val) s.begin)) ∧
  (∀ (req : Requester) (val : Nat) (o : Nat) (s : State), reaches req 0xD0114 o s →
    exec (.gateCommit req val) s = .next (frontOnly o 0xD0114 (writeGateCtl o val) s.begin)) ∧
  (∀ (req : Requester) (val : Nat) (o : Nat) (s : State), reaches req 0xD0114 o s →
    exec (.gateCancel req val) s = .next (frontOnly o 0xD0114 (writeGateCtl o val) s.begin)) ∧
  (∀ (req : Requester) (val : Nat) (o : Nat) (s : State), reaches req 0xD0114 o s →
    exec (.gateRealign req val) s = .next (frontOnly o 0xD0114 (writeGateCtl o val) s.begin)) ∧
  (∀ (o off val : Nat) (s : State),
    (64 ≤ o → frontOnly o off (writeGateCtl o val) s = raise R.FLT_GEN_EVENT_REG_ACCESS_UNMAPPED s 0 off) ∧
    (o < 64 → frontOnly o off (writeGateCtl o val) s = whenS (bitOf val 29) (gateRealign o) (whenS (bitOf val 31) (gateCommitAdmin o)
      (whenS (bitOf val 30) (gateCancel o) s)))) ∧
  (∀ (o : Nat) (s : State),
    ((egrPort s o).pend.isSome = true → gateCommitAdmin o s = raise R.EGR_PORT_EVENT_GCL_BUSY s o) ∧
    ((egrPort s o).pend = none → (getPeriod s 0xD0140 0x100000 o).ok = true → 1 ≤ getF s R.EGR_GATE_LEN_ADMIN_LEN o →
      getF s R.EGR_GATE_LEN_ADMIN_LEN o ≤ 256 → 1000 * (getPeriod s 0xD0140 0x100000 o).den ≤ (getPeriod s 0xD0140 0x100000 o).num →
      gateCommitAdmin o s = startChange o (changeTime s (getT96 s 0xD0120 0x100000 o).units (getPeriod s 0xD0140 0x100000 o))
        (getPeriod s 0xD0140 0x100000 o).den false s) ∧
    ((egrPort s o).pend = none → gateCancel o s = s) ∧
    (∀ p, (egrPort s o).pend = some p → gateCancel o s =
      if p.tc ≤ now s then gateSwap o (touchOut o s) else setEgrPort o { egrPort s o with pend := none } s)) ∧
  (∀ (o : Nat) (p : GatePend) (s : State), (egrPort s o).pend = some p → islUp s islEGR = true → p.tc ≤ now s →
    exec (.gateConfigChange o) s = .next (gateSwap o (touchOut o s.begin))) ∧
  (∀ (o : Nat) (s : State), islUp s islEGR = true → getF s R.EGR_MM_STAT_VERIFY_STATUS o = 1 →
    exec (.mmVerifyEnd o true) s = .next (setF R.EGR_MM_STAT_VERIFY_STATUS 2 s.begin o) ∧
    exec (.mmVerifyEnd o false) s = .next (raise R.EGR_PORT_EVENT_MM_VERIFY_FAIL (setF R.EGR_MM_STAT_VERIFY_STATUS 3 s.begin o) o)) ∧
  (∀ (req : Requester) (val : Nat) (s : State), reaches req 0xD0010 0 s →
    exec (.egrTableRead req val) s = .next (writeEgrTbl req val s.begin)) ∧
  (∀ (req : Requester) (val : Nat) (s : State), reaches req 0xD0010 0 s →
    exec (.egrTableWrite req val) s = .next (writeEgrTbl req val s.begin)) ∧
  (∀ (t o i v : Nat) (ws : List Nat) (s : State), i < 4096 → v < 2 ^ 32 → flag s R.MON_ECC_INJECT_ARM = false →
    egrTblRead (egrTblWrite 0 o i [v, 0, 0, 0] s).2 0 o i = (0, [v, 0, 0, 0]) ∧
    egrTblWrite 2 o i ws s = (2, s))

/-- FRER_DESCRIPTOR with RED and BUF up over the crossings decides the frame (redDescriptor). With RED_GCFG.ENA = 0 a waiting
frame passes without a number; with it, a frame with an R-TAG whose context generates without recovering or popping is rogue.
A frame with copies that is released with SEQ_GEN takes the next number of its function, which goes up by one modulo 65,536.
Without take_any: in MATCH mode only a repeat of the latest number is a duplicate; in the other modes a number in the past is
rogue outside HISTORY and a duplicate where its history bit is 1; in RESEQ mode the next number passes with the held frames
behind it, and one of the 31 after it that is not held is held. -/
def Obligations.RedundancyEliminationFollowsTheSequenceNumbers : Prop :=
  (∀ (f : Nat) (s : State), redUp s = true → islUp s islBUF = true → descCross f s = true →
    exec (.frerDescriptor f) s = .next (redDescriptor f s.begin)) ∧
  (∀ (f : Nat) (x : Frame) (s : State), frameAt s f = some x → x.admitted = true → x.frer = .waiting →
    (flag s R.RED_GCFG_ENA = false → redDescriptor f s = redPass f false s) ∧
    (flag s R.RED_GCFG_ENA = true → cSeqRec (ctx12 x) = false → cSeqGen (ctx12 x) = true → cRtagPop (ctx12 x) = false →
      (parse (x.octets.take 128)).rtag.isSome = true → redDescriptor f s = redRogue (cGenFn (ctx12 x)) f s)) ∧
  (∀ (f : Nat) (x : Frame) (s : State), frameAt s f = some x → x.copies ≠ [] → cSeqGen (ctx12 x) = true →
    frameAt (redPass f true s) f = some { x with frer := .passed, genNo := some (getF s R.RED_GEN_SEQ_NEXT (cGenFn (ctx12 x))) } ∧
    getF (redPass f true s) R.RED_GEN_SEQ_NEXT (cGenFn (ctx12 x)) = (getF s R.RED_GEN_SEQ_NEXT (cGenFn (ctx12 x)) + 1) % 65536) ∧
  (∀ (n f q : Nat) (s : State), (fn s n).takeAny = false → getF s R.RED_FN_CFG_MODE n = 1 →
    (q = ((fn s n).n + 65535) % 65536 → (fn s n).n < 65536 → fnFrame n f q s = redDuplicate n f s) ∧
    (q < 65536 → (fn s n).n < 65536 → q ≠ ((fn s n).n + 65535) % 65536 → fnFrame n f q s = fnPass n f (setFn n { fn s n with n := q } s))) ∧
  (∀ (n f q j : Nat) (s : State), (fn s n).takeAny = false → getF s R.RED_FN_CFG_MODE n ≠ 1 → (fn s n).n < 65536 → q < 65536 → j < 32768 →
    ((q : Int) - (fn s n).n) % 65536 = 65535 - j →
    (history s n ≤ j → fnFrame n f q s = redRogue n f s) ∧
    (j < history s n → bitOf (fn s n).hist j = true → fnFrame n f q s = redDuplicate n f s)) ∧
  (∀ (n f q : Nat) (s : State), (fn s n).takeAny = false → getF s R.RED_FN_CFG_MODE n = 2 → (fn s n).n < 65536 → q < 65536 →
    (q = (fn s n).n → fnFrame n f q s = fnRun n 32 (fnPass n f s)) ∧
    (∀ d y, d < 32 → d ≠ 0 → q = ((fn s n).n + d) % 65536 → (∀ e ∈ (fn s n).held, e.1 ≠ d) → frameAt s f = some y →
      (d, f, copyNow s islRED) ∈ (fn (fnFrame n f q s) n).held ∧ frameAt (fnFrame n f q s) f = some { y with frer := .held }))

/-- With RED up: RESEQ_TIMEOUT, while the earliest held frame has waited the timeout, skips to the lowest held number,
releases what follows, counts and raises RESEQ_TIMEOUT. TAKE_ANY of an enabled idle function and a RESET write of RED_FN_CTL
are fnReset, which leaves nothing held and sets take_any, with TAKE_ANY. A write of RED_FN_CFG takes ENA and MODE; MODE 0b10
without the resequencer leaves MODE and raises GRADE_ABSENT_WRITE. LATENT_ERROR at a period's end tests |(P - 1) PASSED -
DISC| against THRESH and starts the next period. PATH_DOWN brings the path's state up to date, with PATH_DOWN where it goes
down. -/
def Obligations.RecoveryFunctionsTimeOutResetAndWatchTheirPaths : Prop :=
  (∀ (n : Nat) (s : State), redUp s = true →
    exec (.reseqTimeout n) s = .next (fnTimeout n 32 (whenS (!(fn s n).held.isEmpty) (fnRead n) s.begin))) ∧
  (∀ (n k : Nat) (t : Int) (s : State), aMin (fn s n) = some t →
    (copyNow s islRED < t + reseqTo s n → fnTimeout n (k + 1) s = s) ∧
    (t + reseqTo s n ≤ copyNow s islRED → fnTimeout n (k + 1) s = fnTimeout n k (redEvent R.RED_FN_EVENT_RESEQ_TIMEOUT R.RED_EVENT_RESEQ_TIMEOUT n
      (bump R.RED_FN_CNT_TIMEOUT_COUNT (fnRun n 32 (fnSkip n ((fn s n).held.foldl (fun m e => min m e.1) 32) s)) n)))) ∧
  (∀ (n : Nat) (s : State), redUp s = true → flag s R.RED_FN_CFG_ENA n = true → (fn s n).takeAny = false → fnIdle s n = true →
    exec (.takeAny n) s = .next (redEvent R.RED_FN_EVENT_TAKE_ANY R.RED_EVENT_TAKE_ANY n (fnReset n s.begin))) ∧
  (∀ (n : Nat) (s : State), (fn (fnReset n s) n).takeAny = true ∧ (fn (fnReset n s) n).held = [] ∧
    getF (fnResetWrite n s) R.RED_FN_EVENT_TAKE_ANY n = 1 ∧ getF (fnResetWrite n s) R.RED_EVENT_TAKE_ANY = 1) ∧
  (∀ (req : Requester) (val : Nat) (n : Nat) (s : State), reaches req 0xE0114 n s →
    exec (.frerFunctionReset req val) s = .next (whenS (bitOf val 31) (fnResetWrite n) s.begin)) ∧
  (∀ (req : Requester) (val : Nat) (n : Nat) (s : State), reaches req 0xE0100 n s →
    exec (.frerCfgWrite req val) s = .next (writeFnCfg n val s.begin)) ∧
  (∀ (n val : Nat) (s : State),
    flag (writeFnCfg n val s) R.RED_FN_CFG_ENA n = bitOf val 31 ∧
    (bitsOf val 29 2 ≠ 2 ∨ hasReseq s = true → getF (writeFnCfg n val s) R.RED_FN_CFG_MODE n = bitsOf val 29 2) ∧
    (bitsOf val 29 2 = 2 → hasReseq s = false → getF (writeFnCfg n val s) R.RED_FN_CFG_MODE n = getF s R.RED_FN_CFG_MODE n ∧
      getF (writeFnCfg n val s) R.FLT_GEN_EVENT_GRADE_ABSENT_WRITE = 1)) ∧
  (∀ (n : Nat) (s : State), redUp s = true → flag s R.RED_FN_CFG_LATENT_ENA n = true → latentEnd s n ≤ copyNow s islRED →
    exec (.latentError n) s = .next (whenS (decide
      ((((((List.range 4).filter fun i => pathEna s n i).length : Int) - 1) * (fn s n).passed - (fn s n).disc).natAbs > getF s R.RED_FN_LATENT_THRESH n))
      (redEvent R.RED_FN_EVENT_LATENT_ERROR R.RED_EVENT_LATENT_ERROR n)
      (setFn n { fn s n with passed := 0, disc := 0, period := latentEnd s n } s.begin))) ∧
  (∀ (n i : Nat) (s : State), redUp s = true → i < 4 →
    exec (.pathDown n i) s = .next (pathCheck n i s.begin)) ∧
  (∀ (n i : Nat) (s : State), i < 4 → (fn s n).up.length = 4 →
    (fn (pathCheck n i s) n).up.getD i false = pathIsUp s n i ∧
    ((fn s n).up.getD i false = true → pathIsUp s n i = false → getF (pathCheck n i s) R.RED_FN_EVENT_PATH_DOWN n = 1))

/-- RING_DOORBELL with HOST up: a write of the adit that is not an aligned word, or lies above +0x08, raises ADIT_INVALID;
+0x00 is a doorbell, +0x04 re-arms, +0x08 has no effect. A doorbell in ERROR is discarded, in OFF or STOPPED it is held, and
in RUNNING or STOPPING it is taken when both differences of R361 are at most the ring's size; otherwise the ring enters ERROR
with cause 1 and DOORBELL_INVALID. STOP takes RUNNING to STOPPING, RESET takes STOPPED or ERROR to OFF with indices 0, START
takes OFF to RUNNING with D = 0 for a kind that works and a held index that passes, once what was written to HIF_RING_CFG,
_BASE and _WB has taken effect; such a write changes no register before START, and raises RING_CFG_BUSY where the ring is
neither OFF nor STOPPED. RING_STOPPED of a ring with nothing in progress takes STOPPING to STOPPED. DMA_ERROR puts a working
ring in ERROR and raises HOST_DMA_ERROR. BUS_MASTER_ENABLE sets BME; with 1 the TX completions that waited are written. -/
def Obligations.RingsFollowTheirStatesAndDoorbells : Prop :=
  (∀ (addr size val : Nat) (s : State), hostUp s = true →
    (size ≠ 4 ∨ addr % 4 ≠ 0 ∨ 8 < addr % 128 →
      exec (.ringDoorbell addr size val) s = .next (raise R.HIF_EVENT_ADIT_INVALID s.begin (addr / 128 % 32))) ∧
    (size = 4 → addr % 128 = 0 → exec (.ringDoorbell addr size val) s = .next (doorbell (addr / 128 % 32) (val % 65536) s.begin)) ∧
    (size = 4 → addr % 128 = 4 →
      exec (.ringDoorbell addr size val) s = .next (rearmVector (getF s R.HIF_RING_CFG_VECTOR (addr / 128 % 32)) s.begin)) ∧
    (size = 4 → addr % 128 = 8 → exec (.ringDoorbell addr size val) s = .next s.begin)) ∧
  (∀ (r h : Nat) (s : State),
    (ringState s r = 4 → doorbell r h s = s) ∧
    (ringState s r = 0 ∨ ringState s r = 3 → doorbell r h s = setRing r { ring s r with host := h } s) ∧
    (ringState s r = 1 ∨ ringState s r = 2 → (h + 65536 - devIndex s r) % 65536 ≤ ringSize s r → (h + 65536 - (ring s r).prev) % 65536 ≤ ringSize s r →
      doorbell r h s = ringFull r (setRing r { ring s r with host := h, prev := h } s)) ∧
    (ringState s r = 1 ∨ ringState s r = 2 → ¬ ((h + 65536 - devIndex s r) % 65536 ≤ ringSize s r ∧ (h + 65536 - (ring s r).prev) % 65536 ≤ ringSize s r) →
      doorbell r h s = ringError r 1 s ∧ ringState (doorbell r h s) r = 4 ∧ getF (doorbell r h s) R.HIF_RING_STAT_ERR_CAUSE r = 1 ∧
      getF (doorbell r h s) R.HIF_RING_EVENT_DOORBELL_INVALID r = 1)) ∧
  (∀ (req : Requester) (val : Nat) (r : Nat) (s : State), reaches req 0x30114 r s →
    exec (.ringStart req val) s = .next (writeRingCtl val r s.begin)) ∧
  (∀ (req : Requester) (val : Nat) (r : Nat) (s : State), reaches req 0x30114 r s →
    exec (.ringStop req val) s = .next (writeRingCtl val r s.begin)) ∧
  (∀ (req : Requester) (val : Nat) (r : Nat) (s : State), reaches req 0x30114 r s →
    exec (.ringReset req val) s = .next (writeRingCtl val r s.begin)) ∧
  (∀ (r : Nat) (s : State),
    (writeRingCtl (2 ^ 31) r s = ringStart r s ∧ writeRingCtl (2 ^ 30) r s = ringStop r s ∧ writeRingCtl (2 ^ 29) r s = ringReset r s) ∧
    (ringState s r = 1 → ringState (ringStop r s) r = 2) ∧
    (ringState s r = 3 ∨ ringState s r = 4 → ringState (ringReset r s) r = 0 ∧ devIndex (ringReset r s) r = 0 ∧ (ring (ringReset r s) r).host = 0) ∧
    (ringState s r = 0 ∨ ringState s r = 3 → kindWorks (ringKind (ringTake r s) r) = false → ringState (ringStart r s) r = 0) ∧
    (ringState s r = 0 → kindWorks (ringKind (ringTake r s) r) = true → (ring s r).host ≤ ringSize (ringTake r s) r → (ring s r).host < 65536 →
      ((ring s r).host + 65536 - (ring s r).prev) % 65536 ≤ ringSize (ringTake r s) r →
      ringState (ringStart r s) r = 1 ∧ devIndex (ringStart r s) r = 0) ∧
    (ringState s r = 1 ∨ ringState s r = 2 ∨ ringState s r = 4 → ringStart r s = s) ∧
    (∀ off val : Nat, (ringState s r = 0 ∨ ringState s r = 3 → (writeRingCfg off val r s).regs = s.regs) ∧
      (ringState s r ≠ 0 → ringState s r ≠ 3 → writeRingCfg off val r s = raise R.HIF_EVENT_RING_CFG_BUSY s r))) ∧
  (∀ (r : Nat) (s : State), hostUp s = true → r < 32 → ringRuns s r = false → txInFlight s r = false → (∀ d ∈ s.hif.txDone, d.1 ≠ r) →
    ringState s r = 2 → exec (.ringStopped r) s = .next (raise R.HIF_RING_EVENT_STOPPED (setRingState r 3 s.begin) r)) ∧
  (∀ (r st : Nat) (s : State), r < 32 → dmaOk s = true → ringState s r = 1 ∨ ringState s r = 2 →
    exec (.dmaError r st) s = .next (raiseFault (faultBit 8) islHOST r st islHOST (ringError r 2 (abandonRun r s.begin)))) ∧
  (∀ (s : State), hostUp s = true →
    exec (.busMasterEnable false) s = .next (setF R.HIF_GSTAT_BME 0 s.begin) ∧
    exec (.busMasterEnable true) s = .next (s.hif.txDone.foldl (fun s d => txComplete d s)
      { setF R.HIF_GSTAT_BME 1 s.begin with hif := { (setF R.HIF_GSTAT_BME 1 s.begin).hif with txDone := [] } }))

/-- A trigger of an armed vector sends its message, or sets the pending bit behind its mask, and disarms it; on a disarmed
vector it is kept, and re-arming an unmasked one then sends at once. VECTOR_REARM does what the ARM word of a ring's adit or
the word of HIF_VEC_ARM does. IRQ_MODERATION_TIMER fires the ring's vector once TIME_US has passed since the first completion
that counts. MSIX_UNMASK of a masked vector unmasks it, and sends the message whose pending bit is set. EVENT_RECORD_WRITE
takes the oldest event: with HOST down nothing follows; with HOST up its vector follows, and where its source logs and the
EVENT ring is enabled, RUNNING and has a free slot, no injection being armed, its record is written. -/
def Obligations.VectorsSendRearmAndModerate : Prop :=
  (∀ (req : Requester) (a val : Nat) (s : State), hostUp s = true →
    exec (.vectorRearm req true a val) s = .next (rearmVector (getF s R.HIF_RING_CFG_VECTOR (a % 32)) s.begin)) ∧
  (∀ (req : Requester) (a val : Nat) (s : State), reaches req (0x30020 + 4 * (a % 2)) 0 s →
    exec (.vectorRearm req false a val) s = .next (armWord (a % 2) val s.begin)) ∧
  (∀ (v : Nat) (s : State),
    (v ∉ s.hif.disarmed → v ∈ s.hif.unmasked → fireVector v s = sendVector v s ∧ .msi v ∈ (fireVector v s).outs ∧ v ∈ (fireVector v s).hif.disarmed) ∧
    (v ∉ s.hif.disarmed → v ∉ s.hif.unmasked → v ∈ (fireVector v s).hif.masked ∧ v ∈ (fireVector v s).hif.disarmed) ∧
    (v ∈ s.hif.disarmed → v ∈ (fireVector v s).hif.trig ∧ (fireVector v s).outs = s.outs) ∧
    (v ∈ s.hif.trig → v ∈ s.hif.unmasked → .msi v ∈ (rearmVector v s).outs ∧ v ∈ (rearmVector v s).hif.disarmed)) ∧
  (∀ (r : Nat) (t : Int) (s : State), (ring s r).since = some t → hostUp s = true → getF s R.HIF_RING_IRQ_TIME_US r ≠ 0 →
    t + (getF s R.HIF_RING_IRQ_TIME_US r : Int) * unitUs ≤ copyNow s islHOST →
    exec (.irqModerationTimer r) s = .next (fireVector (getF s R.HIF_RING_CFG_VECTOR r) s.begin)) ∧
  (∀ (v : Nat) (s : State), hostUp s = true → v < 64 → v ∉ s.hif.unmasked →
    (v ∈ s.hif.masked → ∃ u, exec (.msixUnmask v) s = .next u ∧ .msi v ∈ u.outs ∧ v ∈ u.hif.unmasked ∧ v ∉ u.hif.masked) ∧
    (v ∉ s.hif.masked → exec (.msixUnmask v) s = .next { s.begin with hif := { s.hif with
      unmasked := s.hif.unmasked ++ [v], masked := s.hif.masked.filter (· ≠ v) } })) ∧
  (∀ (e : EventRec) (l : List EventRec) (s : State), s.flt.events = e :: l →
    (hostUp s = false → exec .eventRecordWrite s = .next { s.begin with flt := { s.flt with events := l } }) ∧
    (hostUp s = true → e.log = false →
      exec .eventRecordWrite s = .next (eventVector e.src { s.begin with flt := { s.flt with events := l } })) ∧
    (hostUp s = true → e.log = true → ∃ u, exec .eventRecordWrite s = .next u ∧
      (slotReady s (getF s R.HIF_GCFG_EVT_RING) 4 = true → ringState s (getF s R.HIF_GCFG_EVT_RING) = 1 → flag s R.HIF_GCFG_EVT_RING_ENA = true →
        flag s R.MON_ECC_INJECT_ARM = false →
        ∃ o, .slot (getF s R.HIF_GCFG_EVT_RING) (devIndex s (getF s R.HIF_GCFG_EVT_RING) % ringSize s (getF s R.HIF_GCFG_EVT_RING))
          (eventWords s e o ++ [(1 - devIndex s (getF s R.HIF_GCFG_EVT_RING) / ringSize s (getF s R.HIF_GCFG_EVT_RING) % 2) * 2 ^ 31]) [] ∈ u.outs)))

/-- A completion on a ring with a free slot writes the slot of the device index with three results, PHASE, STATUS and TAG, and
D and the slot counter go up by one. On a ring that takes a command, whose buffer word can be read (slotIn; else the ring
fails as after a DMA error), NOP completes with OK and an opcode outside the catalogue with BAD_OPCODE. TBL_READ and TBL_WRITE
read or write the entries in order (readEntries, writeEntries), with UNSUPPORTED for a write that names an absent port, and
with the status of tblGate where that is not OK; FDB_FLUSH removes the entries it names and counts them. DPLL_FREQ and
DPLL_PHASE act as the open-loop writes on a DPLL in OPEN and complete with BAD_STATE otherwise; HOST_SAMPLE gives candidate 15
a sample and answers the copy's nanoseconds. RESET_REQ strikes the host's reset and completes where the slot is still ready.
CMD_TIMEOUT raises CMD_TIMEOUT and completes with TIMEOUT, for a waiting application from its limit on. A buffer where none
belongs completes NOP, RESET_REQ and HOST_SAMPLE with BAD_LENGTH (the model's choice, entry 61). -/
def Obligations.CommandsCompleteInTheirSlotWithTheirEffect : Prop :=
  (∀ (r st : Nat) (c : Cmd) (res data : List Nat) (s : State), slotReady s r 1 = true →
    .slot r (devIndex s r % ringSize s r) [res.getD 0 0 % 2 ^ 32, res.getD 1 0 % 2 ^ 32, res.getD 2 0 % 2 ^ 32,
      (1 - devIndex s r / ringSize s r % 2) * 2 ^ 31 + (st * 65536 + c.tag % 65536)] data ∈ (complete r c st res data s).outs ∧
    devIndex (complete r c st res data s) r = (devIndex s r + 1) % 65536 ∧
    getF (complete r c st res data s) R.HIF_RING_CNT_COUNT r = (getF s R.HIF_RING_CNT_COUNT r + 1) % 2 ^ 32) ∧
  (∀ (r : Nat) (c : Cmd) (s v : State), cmdReady s r = true → slotIn r s.begin = (false, v) →
    exec (.nop r c) s = .next (dmaFail r 0 v)) ∧
  (∀ (r : Nat) (c : Cmd) (s v : State), cmdReady s r = true → slotIn r s.begin = (true, v) →
    c.len = 0 → exec (.nop r c) s = .next (finish r c csOK v)) ∧
  (∀ (r op : Nat) (c : Cmd) (s v : State), cmdReady s r = true → slotIn r s.begin = (true, v) → op ∉ opcodes →
    exec (.cmdBadOpcode r op c) s = .next (finish r c csBAD_OPCODE v)) ∧
  (∀ (r : Nat) (c : Cmd) (s v : State), cmdReady s r = true → slotIn r s.begin = (true, v) →
    tblGate v (c.p0 % 256) (c.p0 / 256 % 256) c.p2 = csOK → c.len = c.p2 * entrySize (c.p0 % 256) →
    ∃ st n l, readEntries v (c.p0 % 256) (c.p0 / 256 % 256) c.p1 c.p2 = (st, n, l) ∧
      exec (.tblRead r c) s = .next (complete r c st [n] l ((List.range n).foldl (fun s k =>
        if c.p0 % 256 ≤ 9 then tblEcc (c.p0 % 256) (c.p1 + k) s else egrTblEcc (c.p0 % 256 - 0x10) (c.p0 / 256 % 256) (c.p1 + k) s) v))) ∧
  (∀ (r : Nat) (c : Cmd) (s v : State), cmdReady s r = true → slotIn r s.begin = (true, v) →
    tblGate v (c.p0 % 256) (c.p0 / 256 % 256) c.p2 = csOK → c.len = c.p2 * entrySize (c.p0 % 256) →
    (entriesPresent v (c.p0 % 256) (entrySize (c.p0 % 256) / 4) (leWords (bufOf c)) c.p2 = false →
      exec (.tblWrite r c) s = .next (finish r c csUNSUPPORTED v)) ∧
    (entriesPresent v (c.p0 % 256) (entrySize (c.p0 % 256) / 4) (leWords (bufOf c)) c.p2 = true → ∃ st n u,
      writeEntries (c.p0 % 256) (c.p0 / 256 % 256) (entrySize (c.p0 % 256) / 4) (leWords (bufOf c)) c.p1 c.p2 v = (st, n, u) ∧
      exec (.tblWrite r c) s = .next (complete r c st [n] [] u))) ∧
  (∀ (r : Nat) (c : Cmd) (s v : State), cmdReady s r = true → slotIn r s.begin = (true, v) → tblGate v (c.p0 % 256) (c.p0 / 256 % 256) c.p2 ≠ csOK →
    exec (.tblRead r c) s = .next (finish r c (tblGate v (c.p0 % 256) (c.p0 / 256 % 256) c.p2) v) ∧
    exec (.tblWrite r c) s = .next (finish r c (tblGate v (c.p0 % 256) (c.p0 / 256 % 256) c.p2) v)) ∧
  (∀ (r : Nat) (c : Cmd) (s v : State), cmdReady s r = true → slotIn r s.begin = (true, v) →
    c.len = 0 → hostReaches v (islPIPE 0) = true → (bitOf c.p0 7 = true ∨ (c.p0 % 128 ≤ 65 ∧ portPresent v (c.p0 % 128) = true)) → exec (.fdbFlush r c) s = .next (complete r c csOK [((tblList v 2).filter fun e => flushed c.p0 e.2).length] []
      (((tblList v 2).filter fun e => flushed c.p0 e.2).foldl (fun s e => setTbl 2 e.1 [] s) v))) ∧
  (∀ (r : Nat) (c : Cmd) (s v : State), cmdReady s r = true → slotIn r s.begin = (true, v) →
    c.len = 0 → hostReaches v islTIME = true → dpllState v (c.p0 % 4) = stOPEN → exec (.dpllFreq r c) s = .next (finish r c csOK (olFreq (c.p0 % 4) (sx 48 (c.p1 % 2 ^ 32 + c.p2 % 65536 * 2 ^ 32)) v))) ∧
  (∀ (r : Nat) (c : Cmd) (s v : State), cmdReady s r = true → slotIn r s.begin = (true, v) →
    c.len = 0 → hostReaches v islTIME = true → dpllState v (c.p0 % 4) = stOPEN → exec (.dpllPhase r c) s = .next (finish r c csOK (olPhase (c.p0 % 4) (sx 64 (c.p1 % 2 ^ 32 + c.p2 % 2 ^ 32 * 2 ^ 32)) v))) ∧
  (∀ (r : Nat) (c : Cmd) (s v : State), cmdReady s r = true → slotIn r s.begin = (true, v) → c.len = 0 →
    (hostReaches v islTIME = false ∨ dpllState v (c.p0 % 4) ≠ stOPEN) →
    exec (.dpllFreq r c) s = .next (finish r c csBAD_STATE v) ∧ exec (.dpllPhase r c) s = .next (finish r c csBAD_STATE v)) ∧
  (∀ (r : Nat) (c : Cmd) (s v : State), cmdReady s r = true → slotIn r s.begin = (true, v) →
    c.len = 0 → hostReaches v islTIME = true → exec (.hostSample r c) s = .next (complete r c csOK [(T96.ofUnits (copyNow v islHOST)).ns] []
      (candSample 15 0 (sx 64 (c.p1 % 2 ^ 32 + c.p2 % 2 ^ 32 * 2 ^ 32)) v))) ∧
  (∀ (r : Nat) (c : Cmd) (s v : State), cmdReady s r = true → slotIn r s.begin = (true, v) →
    c.len = 0 → exec (.resetReq r c) s = .next (if slotReady (strike 4 (c.p0 % 32) v) r 1 then finish r c csOK (strike 4 (c.p0 % 32) v) else strike 4 (c.p0 % 32) v)) ∧
  (∀ (r op : Nat) (c : Cmd) (s : State), slotReady s r 1 = true → op ∈ opcodes →
    ((s.sys.run = none ∨ ∃ x, s.sys.run = some x ∧ x.ring ≠ r) →
      exec (.cmdTimeout r op c) s = .next (finish r c csTIMEOUT (raise R.HIF_RING_EVENT_CMD_TIMEOUT (timedOut op c s.begin) r))) ∧
    (∀ x, s.sys.run = some x → x.ring = r → x.since + (zeroAs 1 (getF s R.HIF_RING_TMO_TMO_MS r) : Int) * unitMs ≤ copyNow s islHOST →
      exec (.cmdTimeout r op c) s = .next (finish r { c with tag := x.tag, irq := x.irq } csTIMEOUT
        (raise R.HIF_RING_EVENT_CMD_TIMEOUT (abandonRun r s.begin) r)))) ∧
  (∀ (r : Nat) (c : Cmd) (s v : State), cmdReady s r = true → slotIn r s.begin = (true, v) → c.len ≠ 0 →
    exec (.nop r c) s = .next (finish r c csBAD_LENGTH v) ∧ exec (.resetReq r c) s = .next (finish r c csBAD_LENGTH v) ∧
    exec (.hostSample r c) s = .next (finish r c csBAD_LENGTH v))

/-- On a ring that takes a command, its buffer word read, and with PIPE0 reached: STREAM_ADD of 128 octets with VALID and a
used METHOD adds the context that is not there, with OK; of 144 octets, for a function of RED, it writes the function's
registers too (writeFn); VALID 0 or an unused METHOD gives BAD_PARAM. STREAM_DELETE deletes a context that lives, which then
lives no more; STREAM_MODIFY with 56 octets modifies one that lives (ctxModify); both complete with NOT_FOUND where none
lives. STREAM_READ with 128 octets delivers the context's words. -/
def Obligations.StreamCommandsAddDeleteModifyAndReadContexts : Prop :=
  (∀ (r : Nat) (c : Cmd) (s v u : State), cmdReady s r = true → slotIn r s.begin = (true, v) → hostReaches v (islPIPE 0) = true → bitOf c.p1 31 = false → c.len = 128 →
    bitOf ((join32 ((leWords (bufOf c)).take 32)).getD 0 0) 63 = true → 1 ≤ bitsOf ((join32 ((leWords (bufOf c)).take 32)).getD 0 0) 60 3 → bitsOf ((join32 ((leWords (bufOf c)).take 32)).getD 0 0) 60 3 ≤ 4 →
    ctxValid v (c.p0 % 16384) = false → ctxAdd (c.p0 % 16384) (join32 ((leWords (bufOf c)).take 32)) v = (stDone, u) →
    exec (.streamAdd r c) s = .next (finish r c csOK u)) ∧
  (∀ (r : Nat) (c : Cmd) (s v u : State), cmdReady s r = true → slotIn r s.begin = (true, v) → hostReaches v (islPIPE 0) = true → hostReaches v islRED = true →
    bitOf c.p1 31 = true → c.len = 144 → bitOf ((join32 ((leWords (bufOf c)).take 32)).getD 0 0) 63 = true → 1 ≤ bitsOf ((join32 ((leWords (bufOf c)).take 32)).getD 0 0) 60 3 → bitsOf ((join32 ((leWords (bufOf c)).take 32)).getD 0 0) 60 3 ≤ 4 →
    (bitsOf (((leWords (bufOf c)).drop 32).getD 0 0) 29 2 ≠ 2 ∨ hasReseq v = true) →
    pathsAbsent v (((leWords (bufOf c)).drop 32).getD 2 0) = false →
    ctxValid v (c.p0 % 16384) = false → ctxAdd (c.p0 % 16384) (join32 ((leWords (bufOf c)).take 32)) v = (stDone, u) →
    exec (.streamAdd r c) s = .next (finish r c csOK
      (writeFn (bitsOf ((join32 ((leWords (bufOf c)).take 32)).getD 12 0) 48 12) ((leWords (bufOf c)).drop 32) u))) ∧
  (∀ (r : Nat) (c : Cmd) (s v : State), cmdReady s r = true → slotIn r s.begin = (true, v) → hostReaches v (islPIPE 0) = true → bitOf c.p1 31 = false → c.len = 128 →
    (bitOf ((join32 ((leWords (bufOf c)).take 32)).getD 0 0) 63 = false ∨ bitsOf ((join32 ((leWords (bufOf c)).take 32)).getD 0 0) 60 3 = 0 ∨ 4 < bitsOf ((join32 ((leWords (bufOf c)).take 32)).getD 0 0) 60 3) →
    exec (.streamAdd r c) s = .next (finish r c csBAD_PARAM v)) ∧
  (∀ (r : Nat) (c : Cmd) (s v : State), cmdReady s r = true → slotIn r s.begin = (true, v) →
    c.len = 0 → hostReaches v (islPIPE 0) = true → ctxLives v (c.p0 % 16384) = true → exec (.streamDelete r c) s = .next (finish r c csOK (ctxDelete (c.p0 % 16384) v))) ∧
  (∀ (r : Nat) (c : Cmd) (s v : State), cmdReady s r = true → slotIn r s.begin = (true, v) →
    hostReaches v (islPIPE 0) = true → c.len = 56 → ctxLives v (c.p0 % 16384) = true → exec (.streamModify r c) s = .next (finish r c csOK (ctxModify (c.p0 % 16384) (join32 (leWords (bufOf c))) v))) ∧
  (∀ (r : Nat) (c : Cmd) (s v : State), cmdReady s r = true → slotIn r s.begin = (true, v) → hostReaches v (islPIPE 0) = true → ctxLives v (c.p0 % 16384) = false →
    (c.len = 0 → exec (.streamDelete r c) s = .next (finish r c csNOT_FOUND v)) ∧
    (c.len = 56 → exec (.streamModify r c) s = .next (finish r c csNOT_FOUND v))) ∧
  (∀ (r : Nat) (c : Cmd) (s v : State), cmdReady s r = true → slotIn r s.begin = (true, v) →
    hostReaches v (islPIPE 0) = true → c.len = 128 → exec (.streamRead r c) s = .next (complete r c csOK [] (wordOctets (split64 (ctxWords v (c.p0 % 16384)))) v)) ∧
  (∀ (x : Nat) (s : State), ctxLives (ctxDelete x s) x = false)

/-- On a ring that takes a command, its buffer word read: where the controller is not reached or not ready, its commands
complete with NOT_READY. PROFILE_WRITE of an image that passes the checks makes the slot VALID with its length, its CRC and
one more write, and completes with OK; one that fails leaves the slot INVALID with FAIL_CAUSE and BAD_PARAM. PROFILE_READ
delivers the image of a VALID slot, or completes with NOT_FOUND. A part of FW_DOWNLOAD that starts the staging memory over, or
follows the octets there, is kept, and what was staged is discarded; the last part is checked: the image is staged with
STAGE_DONE, or rejected with STAGE_REJECTED. A part that does neither completes with BAD_PARAM. ATTEST delivers the report
with its signature, without one and with DENIED under safe defaults, and with BAD_LENGTH where the buffer is too short. -/
def Obligations.ControllerCommandsKeepProfilesImagesAndReports : Prop :=
  (∀ (r : Nat) (c : Cmd) (s v : State), cmdReady s r = true → slotIn r s.begin = (true, v) →
    (hostReaches v islMCU = false ∨ flag v R.HIF_GSTAT_MCU_READY = false) →
    exec (.profileWrite r c) s = .next (finish r c csNOT_READY v) ∧ exec (.profileRead r c) s = .next (finish r c csNOT_READY v) ∧
    exec (.fwDownload r c) s = .next (finish r c csNOT_READY v) ∧ exec (.attest r c) s = .next (finish r c csNOT_READY v) ∧
    exec (.profileApply r c) s = .next (finish r c csNOT_READY v)) ∧
  (∀ (r : Nat) (c : Cmd) (s v : State), cmdReady s r = true → slotIn r s.begin = (true, v) →
    hostReaches v islMCU = true → flag v R.HIF_GSTAT_MCU_READY = true → 1 ≤ c.len → c.len ≤ 32768 → profCheck v .write (bufOf c) = 0 → exec (.profileWrite r c) s = .next (finish r c csOK (setSlot (c.p0 % 4)
      { state := slVALID, len := leAt (bufOf c) 8 4, crc := leAt (bufOf c) (leAt (bufOf c) 8 4 - 4) 4,
        writes := ((slotAt v (c.p0 % 4)).writes + 1) % 2 ^ 32,
        octets := bufOf c ++ (slotAt v (c.p0 % 4)).octets.drop (bufOf c).length } v))) ∧
  (∀ (r : Nat) (c : Cmd) (s v : State), cmdReady s r = true → slotIn r s.begin = (true, v) →
    hostReaches v islMCU = true → flag v R.HIF_GSTAT_MCU_READY = true → 1 ≤ c.len → c.len ≤ 32768 → profCheck v .write (bufOf c) ≠ 0 → exec (.profileWrite r c) s = .next (finish r c csBAD_PARAM (setSlot (c.p0 % 4)
      { slotAt v (c.p0 % 4) with state := slINVALID, octets := bufOf c ++ (slotAt v (c.p0 % 4)).octets.drop (bufOf c).length }
      (setF R.RST_PROF_STAT_FAIL_CAUSE (profCheck v .write (bufOf c)) v)))) ∧
  (∀ (r : Nat) (c : Cmd) (l : List Nat) (s v : State), cmdReady s r = true → slotIn r s.begin = (true, v) →
    hostReaches v islMCU = true → flag v R.HIF_GSTAT_MCU_READY = true → c.len = 32768 →
    (slotImage v (c.p0 % 4) = some l → exec (.profileRead r c) s = .next (complete r c csOK [l.length] l v)) ∧
    (slotImage v (c.p0 % 4) = none → exec (.profileRead r c) s = .next (finish r c csNOT_FOUND v))) ∧
  (∀ (n x : Nat) (y : Slot) (s : State), y.state = slVALID → slotImage (setSlot n y s) n = some (y.octets.take y.len)) ∧
  (∀ (r : Nat) (c : Cmd) (l : List Nat) (s v w : State), cmdReady s r = true → slotIn r s.begin = (true, v) →
    hostReaches v islMCU = true → flag v R.HIF_GSTAT_MCU_READY = true → c.len ≤ 65536 →
    (c.p1 = 0 ∨ c.p1 = (smGet [] v.sys.stage (stageKey (bitOf c.p0 0))).length) →
    l = (if c.p1 = 0 then [] else smGet [] v.sys.stage (stageKey (bitOf c.p0 0))) ++ bufOf c → l.length ≤ imgSize (bitOf c.p0 0) →
    w = fullWriteAll 16 (stageBase (bitOf c.p0 0) + c.p1 / 8) ((c.len + 7) / 8) v →
    ∃ u, u = discardStaged (stageKey (bitOf c.p0 0))
        { w with sys := { w.sys with stage := smPut [] w.sys.stage (stageKey (bitOf c.p0 0)) l } } ∧
      (bitOf c.p0 31 = false → exec (.fwDownload r c) s = .next (finish r c csOK u)) ∧
      (bitOf c.p0 31 = true → ∃ ok x, eccReadAll 16 (stageBase (bitOf c.p0 0)) ((l.length + 7) / 8) u = (ok, x) ∧
        ((ok = true ∧ leAt l 8 4 = l.length ∧ imgCheck x (bitOf c.p0 0) l = 0) → exec (.fwDownload r c) s = .next (finish r c csOK
          (raise R.FWT_EVENT_STAGE_DONE (stagedShown { x with sys := { x.sys with stageOk := x.sys.stageOk ++ [stageKey (bitOf c.p0 0)] } })))) ∧
        (¬ (ok = true ∧ leAt l 8 4 = l.length ∧ imgCheck x (bitOf c.p0 0) l = 0) → ∃ st,
          exec (.fwDownload r c) s = .next (finish r c st (raise R.FWT_EVENT_STAGE_REJECTED x)) ∧
          (leAt l 8 4 ≠ l.length → st = csBAD_PARAM)))) ∧
  (∀ (r : Nat) (c : Cmd) (s v : State), cmdReady s r = true → slotIn r s.begin = (true, v) →
    hostReaches v islMCU = true → flag v R.HIF_GSTAT_MCU_READY = true → c.len ≤ 65536 → c.p1 ≠ 0 → c.p1 ≠ (smGet [] v.sys.stage (stageKey (bitOf c.p0 0))).length → exec (.fwDownload r c) s = .next (finish r c csBAD_PARAM v)) ∧
  (∀ (r : Nat) (c : Cmd) (s v : State), cmdReady s r = true → slotIn r s.begin = (true, v) → hostReaches v islMCU = true → flag v R.HIF_GSTAT_MCU_READY = true →
    ∃ len body, len = (reportBody v ((List.range 32).map fun k => (bufOf c).getD k 0) (bitOf c.p0 0) (bitOf c.p0 1) 0).length
        + (if flag v R.GLB_CAP_FUSE_SAFE then 0 else 96) ∧
      body = reportBody v ((List.range 32).map fun k => (bufOf c).getD k 0) (bitOf c.p0 0) (bitOf c.p0 1) len ∧
      (c.len < len → exec (.attest r c) s = .next (complete r c csBAD_LENGTH [len] [] v)) ∧
      (len ≤ c.len → flag v R.GLB_CAP_FUSE_SAFE = true → exec (.attest r c) s = .next (complete r c csDENIED [len] body v)) ∧
      (len ≤ c.len → flag v R.GLB_CAP_FUSE_SAFE = false →
        exec (.attest r c) s = .next (complete r c csOK [len] (body ++ Config.ecdsaSign (wordOctets ((v.sys.fuse.drop 50).take 12)) body) v)))

/-- On a ring that takes a command, its buffer word read, with the flash present and the range within it: FLASH_READ delivers
its octets; FLASH_PROGRAM ANDs the octets in (PRESUMED, entry 78: a NOR flash clears bits), and FLASH_ERASE of aligned 4 KiB
sectors up to 1 MiB leaves 0xFF. An error of the flash completes with BAD_STATE, raises QSPI_ERROR and leaves the range
undefined (flashLost). Without a flash the gate of these commands is BAD_STATE, beyond its size BAD_PARAM (the model's
choices, entry 77), and for a write of the copy that a running image came from DENIED. -/
def Obligations.FlashCommandsReadProgramAndErase : Prop :=
  (∀ (r : Nat) (c : Cmd) (s v : State), cmdReady s r = true → slotIn r s.begin = (true, v) →
    c.len ≤ 65536 → flashGate v false c.p1 c.len = csOK → exec (.flashRead r c) s = .next (complete r c csOK [] (flashRead v c.p1 c.len) v)) ∧
  (∀ (r : Nat) (c : Cmd) (s v : State), cmdReady s r = true → slotIn r s.begin = (true, v) → c.len ≤ 65536 → flashGate v true c.p1 c.len = csOK →
    exec (.flashProgram r c false) s = .next (finish r c csOK ((List.range c.len).foldl
      (fun s k => setFlash (c.p1 + k) (Nat.land (flashOctet s (c.p1 + k)) ((bufOf c).getD k 0)) s) v)) ∧
    exec (.flashProgram r c true) s = .next (finish r c csBAD_STATE (raise R.HIF_EVENT_QSPI_ERROR (flashLost c.p1 c.len v)))) ∧
  (∀ (r : Nat) (c : Cmd) (s v : State), cmdReady s r = true → slotIn r s.begin = (true, v) → c.len = 0 → c.p1 % 4096 = 0 → c.p2 % 4096 = 0 →
    c.p2 ≤ 1048576 → flashGate v true c.p1 c.p2 = csOK →
    exec (.flashErase r c false) s = .next (finish r c csOK
      { v with hif := { v.hif with flash := smKeep (fun a => !(c.p1 ≤ a && a < c.p1 + c.p2)) v.hif.flash } }) ∧
    exec (.flashErase r c true) s = .next (finish r c csBAD_STATE (raise R.HIF_EVENT_QSPI_ERROR (flashLost c.p1 c.p2 v)))) ∧
  (∀ (a n k : Nat) (s : State), a ≤ k → k < a + n →
    flashOctet { s with hif := { s.hif with flash := smKeep (fun a' => !(a ≤ a' && a' < a + n)) s.hif.flash } } k = 0xFF) ∧
  (∀ (a n : Nat) (w : Bool) (s : State),
    (flag s R.HIF_QSPI_CFG_PRESENT = false → flashGate s w a n = csBAD_STATE) ∧
    (flag s R.HIF_QSPI_CFG_PRESENT = true → flashSize s < a + n → flashGate s w a n = csBAD_PARAM) ∧
    (flag s R.HIF_QSPI_CFG_PRESENT = true → a + n ≤ flashSize s → flashHeld s a n = true → flashGate s true a n = csDENIED) ∧
    (flag s R.HIF_QSPI_CFG_PRESENT = true → a + n ≤ flashSize s → (w = false ∨ flashHeld s a n = false) → flashGate s w a n = csOK))

/-- TX_FRAME_FETCH takes the next descriptor of the TX ring whose turn it is; txNext is that ring, and after its turn the next
ring is first. A frame whose length and port are valid enters on P64, padded and with its FCS; another completes with its
status. RX_FRAME_DELIVER gives the oldest frame that waits for the ring its octets without FCS, cut to BUF_LEN, with the words
of rxSlot; a BUF_LEN outside the multiples of 64 up to 16,384 puts the ring in ERROR with cause BAD_POST. Both pass the ring's
buffer word (slotIn), and where it cannot be read the ring enters ERROR with cause DMA. RX_STALL raises once TMO_MS, with 0
acting as 1, has passed in the Last copy of HOST without a free slot. P65_FRAME_SEND takes a frame of the running firmware. -/
def Obligations.HostAndControllerFramesEnterAndLeave : Prop :=
  (∀ (r : Nat) (d : TxDesc) (s v u : State), txNext s = some r → jtagHolds s = false → slotIn r s.begin = (true, v) →
    u = { v with hif := { v.hif with txTurn := (r + 1) % 32 } } →
    (txStatus u d = 0 → exec (.txFrameFetch r d) s = .next (addFrame
      { newFrame u 64 (sentFrame (d.octets.take d.len)) none with
        ended := true, host := some (r, d.tag % 65536, true), directed := d.directed.map fun x => (x.1, x.2 % 8) } u)) ∧
    (txStatus u d ≠ 0 → exec (.txFrameFetch r d) s = .next (completeSlot r [0, 0, 0] (txStatus u d * 65536 + d.tag % 65536) [] true u))) ∧
  (∀ (d : TxDesc) (s : State),
    ((d.len = 0 ∨ 16379 < d.len) → txStatus s d = 4) ∧
    (1 ≤ d.len → d.len ≤ 16379 → (d.directed = none → txStatus s d = 0) ∧
      (∀ p k, d.directed = some (p, k) →
        (64 ≤ p → txStatus s d = 3) ∧ (p < 64 → frontPresent s p = false → txStatus s d = 1) ∧ (p < 64 → frontPresent s p = true → txStatus s d = 0)))) ∧
  (∀ (r : Nat) (d : TxDesc) (s v : State), txNext s = some r → jtagHolds s = false → slotIn r s.begin = (false, v) →
    exec (.txFrameFetch r d) s = .next (dmaFail r 0 v)) ∧
  (∀ (r n : Nat) (w : RxWait) (s : State), s.hif.rxq.find? (fun w => rxRing s w.tc == r) = some w → slotReady s r 3 = true →
    (bufLenOk n = false → exec (.rxFrameDeliver r n) s = .next (ringError r 3 s.begin)) ∧
    (∀ v, bufLenOk n = true → slotIn r s.begin = (true, v) →
      exec (.rxFrameDeliver r n) s = .next (completeSlot r (rxSlot w n).1 0 (rxSlot w n).2 true
        { v with hif := { v.hif with rxq := v.hif.rxq.eraseP fun w => rxRing s w.tc == r } })) ∧
    (∀ v, bufLenOk n = true → slotIn r s.begin = (false, v) → exec (.rxFrameDeliver r n) s = .next (dmaFail r 0 v))) ∧
  (∀ (w : RxWait) (n : Nat), (rxSlot w n).2 = (w.frame.octets.take (w.frame.octets.length - 4)).take n ∧
    ((rxSlot w n).1).length = ((match w.frame.rx with | some r => r.words | none => [0, 0, 0, 0] : List Nat)).length + 3) ∧
  (∀ (r : Nat) (t : Int) (s : State), (ring s r).fullSince = some t → hostUp s = true → ringKind s r = 3 → ringState s r = 1 → (ring s r).stalled = false →
    t + ((zeroAs 1 (getF s R.HIF_RING_TMO_TMO_MS r) : Nat) : Int) * unitMs ≤ copyNow s islHOST →
    exec (.rxStall r) s = .next (raise R.HIF_RING_EVENT_RX_STALL (setRing r { ring s r with stalled := true } s.begin) r)) ∧
  (∀ (l : List Nat) (s : State), islUp s islMCU = true → flag s R.FWT_STATUS_MGMT_RUN = true → l ≠ [] → l.length ≤ 16379 → jtagHolds s = false →
    exec (.p65FrameSend l) s = .next (addFrame { newFrame s.begin 65 (sentFrame l) none with ended := true } s.begin)) ∧
  (∀ (l : List Nat), 60 ≤ l.length ∨ (sentFrame l).length = 64)

/-- After link-up, PCIE_HOT, PCIE_LINKDOWN and PCIE_D3 act as resets of their sources, and the loss of the link clears speed,
width and BME; PCIE_LINK_UP sets speed and width. With the target on, I2C_WRITE writes the word, but with PEC_ENA and without
the right PEC octet it discards it and raises I2C_PEC; I2C_READ delivers 1 to 16 words, least significant octet first, with
the PEC octet under PEC_ENA; I2C_TIMEOUT raises its event. With the target off, another command octet or an offset from
0x100000 up neither is acknowledged. A JTAG instruction is taken, IDCODE is delivered, and a debug instruction acts as BYPASS
under JTAG_LOCK. The PEC polynomial is PRESUMED (entry 24). -/
def Obligations.PcieI2cAndJtagActOnTheirInterfaces : Prop :=
  (∀ (s : State), s.hif.linkUp = true →
    exec .pcieHot s = .next (strike 5 islHOST s.begin) ∧ exec .pcieD3 s = .next (strike 7 islHOST s.begin) ∧
    exec .pcieLinkdown s = .next (strike 6 islHOST (setF R.HIF_GSTAT_LINK_SPEED 0 (setF R.HIF_GSTAT_LINK_WIDTH 0
      (setF R.HIF_GSTAT_BME 0 { s.begin with hif := { s.hif with linkUp := false } }))))) ∧
  (∀ (speed width : Nat) (s : State), hostUp s = true → 1 ≤ speed → speed ≤ 4 → width ∈ [1, 2, 4] →
    exec (.pcieLinkUp speed width) s = .next (setF R.HIF_GSTAT_LINK_SPEED speed (setF R.HIF_GSTAT_LINK_WIDTH width
      { s.begin with hif := { s.hif with linkUp := true } }))) ∧
  (∀ (off val : Nat) (p : Option Nat) (s : State), i2cOn s = true → off < 0x100000 →
    (flag s R.HIF_I2C_CFG_PEC_ENA = false → exec (.i2cWrite 1 off val p) s = .next (sizedWrite .i2c off val 4 (emit (.i2c true []) s.begin))) ∧
    (flag s R.HIF_I2C_CFG_PEC_ENA = true →
      p = some (pec (i2cHead s 1 off ++ [val % 256, val / 256 % 256, val / 65536 % 256, val / 16777216 % 256])) →
      exec (.i2cWrite 1 off val p) s = .next (sizedWrite .i2c off val 4 (emit (.i2c true []) s.begin))) ∧
    (flag s R.HIF_I2C_CFG_PEC_ENA = true →
      p ≠ some (pec (i2cHead s 1 off ++ [val % 256, val / 256 % 256, val / 65536 % 256, val / 16777216 % 256])) →
      exec (.i2cWrite 1 off val p) s = .next (raise R.HIF_EVENT_I2C_PEC (emit (.i2c true []) s.begin)))) ∧
  (∀ (off n : Nat) (s : State), i2cOn s = true → off < 0x100000 →
    ∃ l t, i2cWords off (min 16 (max 1 n)) s.begin = (l, t) ∧ l.length = 4 * min 16 (max 1 n) ∧
      exec (.i2cRead 2 off n) s = .next (emit (.i2c true (l ++ (if flag s R.HIF_I2C_CFG_PEC_ENA then
        [pec (i2cHead s 2 off ++ [getF s R.HIF_I2C_CFG_ADDR * 2 + 1] ++ l)] else []))) t)) ∧
  (∀ (off n : Nat) (s : State), i2cOn s = true → off < 0x100000 → 1 ≤ n → n ≤ 16 →
    (∀ u v, busRead .i2c (off / 4 * 4) s.begin = (v, u) → ∃ l t, i2cWords off n s.begin = (v % 256 :: v / 256 % 256 :: v / 65536 % 256 :: v / 16777216 % 256 :: l, t))) ∧
  (∀ (s : State), i2cOn s = true → exec .i2cTimeout s = .next (raise R.HIF_EVENT_I2C_TIMEOUT s.begin)) ∧
  (∀ (cmd off val n : Nat) (p : Option Nat) (s : State),
    (i2cOn s = false ∨ cmd ≠ 1 ∨ 0x100000 ≤ off → exec (.i2cWrite cmd off val p) s = .next (emit (.i2c false []) s.begin)) ∧
    (i2cOn s = false ∨ cmd ≠ 2 ∨ 0x100000 ≤ off → exec (.i2cRead cmd off n) s = .next (emit (.i2c false []) s.begin))) ∧
  (∀ (i : Jtag) (s : State), ∃ u, exec (.jtagInstruction i) s = .next u ∧
    u.sys.jtag = (match i with | .debug c => if fuseLock s 1 then .bypass else .debug c | j => j) ∧
    (i = .idcode → u.outs = [.idcode (idcode s)]) ∧ (i ≠ .idcode → u.outs = []))

/-- Records are applied in list order: END ends, WRITE and FILL write consecutive registers as the controller does, TABLE
writes consecutive entries (writeTblRun), WAIT goes on once its test of the register holds, and MARK passes at a reset or
without an instant; with one it waits until the Last copy of MCU reaches it, and a MARK met with its instant reached marks the
application late. PROFILE_APPLY on a ring whose buffer word is read, of a VALID slot that passes the checks, measures the
image and applies its records; it completes at the end, or waits. In limp mode it completes with BAD_STATE, during another
application with BUSY, and with the status of its parameters where they fail. PROFILE_TIMED_APPLY goes on with the waiting
one. PROFILE_RESET_APPLY, in its turn, applies the rest of the shadow and then the boot ROM finishes. PROFILE_WAIT_TIMEOUT,
once the limit of the WAIT at the front is over (at most 100,000 microseconds), ends the application at a reset with DEGRADED;
at run time the command completes with TIMEOUT (entry 25). -/
def Obligations.ProfilesAreAppliedRecordByRecord : Prop :=
  (∀ (z : Bool) (t : Option Int) (k w : Nat) (l : List Nat) (s : State),
    (w / 2 ^ 28 = 0 → runRecs z t (k + 1) (w :: l) s = ([], false, s)) ∧
    (w / 2 ^ 28 = 1 → runRecs z t (k + 1) (w :: l) s =
      runRecs z t k (l.drop (bitsOf w 20 8 + 1)) (writeRun (w % 2 ^ 20) (l.take (bitsOf w 20 8 + 1)) s)) ∧
    (w / 2 ^ 28 = 2 → runRecs z t (k + 1) (w :: l) s =
      runRecs z t k (l.drop 1) (writeRun (w % 2 ^ 20) (List.replicate (bitsOf w 20 8 + 1) (l.getD 0 0)) s)) ∧
    (∀ v u, w / 2 ^ 28 = 4 → busRead .mcu (w % 2 ^ 20 / 4 * 4) s = (v, u) → runRecs z t (k + 1) (w :: l) s =
      if Nat.land v (l.getD 0 0) = l.getD 1 0 then runRecs z t k (l.drop 3) u else (w :: l, false, u)) ∧
    (∀ z4, w / 2 ^ 28 = 3 → z4 = (if w % 256 ≥ 16 then 4 else 32) → runRecs z t (k + 1) (w :: l) s =
      runRecs z t k (l.drop (1 + (bitsOf w 20 8 + 1) * z4)) (writeTblRun (w % 256) (w / 256 % 256) z4 (l.getD 0 0) (bitsOf w 20 8 + 1) (l.drop 1) s)) ∧
    (w / 2 ^ 28 = 5 → z = true ∨ t = none → runRecs z t (k + 1) (w :: l) s = runRecs z t k l s) ∧
    (∀ x, w / 2 ^ 28 = 5 → z = false → t = some x →
      (x ≤ copyNow s islMCU → runRecs z t (k + 1) (w :: l) s = ((runRecs z t k l s).1, true, (runRecs z t k l s).2.2)) ∧
      (copyNow s islMCU < x → runRecs z t (k + 1) (w :: l) s = (w :: l, false, s)))) ∧
  (∀ (r : Nat) (c : Cmd) (l rest : List Nat) (a : Option Int) (d late : Bool) (s v e u : State), cmdReady s r = true → slotIn r s.begin = (true, v) → hostReaches v islMCU = true → flag v R.HIF_GSTAT_MCU_READY = true →
    flag v R.FWT_STATUS_LIMP = false → v.sys.run = none →
    ((bitOf c.p0 8 = false ∧ c.len = 0 ∧ a = none) ∨
      (bitOf c.p0 8 = true ∧ c.len = 12 ∧ (runInstant c).ns ≤ 999999999 ∧ a = some (runInstant c).units)) →
    slotImage v (c.p0 % 4) = some l → profCheck v .run l = 0 →
    e = extend 5 4 (Config.sha384 l).toNat v → (d = true ↔ ∃ t, a = some t ∧ t ≤ copyNow e islMCU) →
    runRecs false a ((profRecords l).length + 1) (profRecords l) e = (rest, late, u) →
    (rest = [] → exec (.profileApply r c) s = .next
      (complete r { c with len := 0, data := [], p0 := 0, p1 := 0, p2 := 0 } csOK [b2n (d || late)] [] { u with sys := { u.sys with run := none } })) ∧
    (rest ≠ [] → ∀ x : ProfRun,
      x = { ring := r, tag := c.tag, irq := c.irq, words := rest, at32 := a, late := d || late, since := copyNow u islHOST, waitAt := copyNow u islMCU } →
      exec (.profileApply r c) s = .next { u with sys := { u.sys with run := some x } })) ∧
  (∀ (r : Nat) (c : Cmd) (s v : State), cmdReady s r = true → slotIn r s.begin = (true, v) → hostReaches v islMCU = true → flag v R.HIF_GSTAT_MCU_READY = true →
    (flag v R.FWT_STATUS_LIMP = true → exec (.profileApply r c) s = .next (finish r c csBAD_STATE v)) ∧
    (flag v R.FWT_STATUS_LIMP = false → v.sys.run.isSome = true → exec (.profileApply r c) s = .next (finish r c csBUSY v)) ∧
    (flag v R.FWT_STATUS_LIMP = false → v.sys.run = none →
      (c.len ≠ (if bitOf c.p0 8 then 12 else 0) → exec (.profileApply r c) s = .next (finish r c csBAD_LENGTH v)) ∧
      (c.len = (if bitOf c.p0 8 then 12 else 0) →
        (bitOf c.p0 8 = true → 999999999 < (runInstant c).ns → exec (.profileApply r c) s = .next (finish r c csBAD_PARAM v)) ∧
        (bitOf c.p0 8 = false ∨ (runInstant c).ns ≤ 999999999 →
          (slotImage v (c.p0 % 4) = none → exec (.profileApply r c) s = .next (finish r c csBAD_PARAM v)) ∧
          (∀ l, slotImage v (c.p0 % 4) = some l → profCheck v .run l ≠ 0 →
            exec (.profileApply r c) s = .next (finish r c csBAD_PARAM (setF R.RST_PROF_STAT_FAIL_CAUSE (profCheck v .run l) v))))))) ∧
  (∀ (x : ProfRun) (s : State), s.sys.run = some x → islUp s islMCU = true → exec .profileTimedApply s = .next (runGoes x s.begin)) ∧
  (∀ (x : ProfRun) (w : Nat) (rest l : List Nat) (late : Bool) (s u : State), x.words = w :: l →
    (if w / 2 ^ 28 = 5 ∧ (∀ t, x.at32 = some t → t ≤ copyNow s islMCU) then runRecs false x.at32 (l.length + 1) l s
      else runRecs false x.at32 (l.length + 2) (w :: l) s) = (rest, late, u) →
    (rest = [] → runGoes x s = complete x.ring { irq := x.irq, tag := x.tag, len := 0, data := [], p0 := 0, p1 := 0, p2 := 0 } csOK
      [b2n (x.late || late)] [] { u with sys := { u.sys with run := none } }) ∧
    (rest ≠ [] → ∀ y : ProfRun, y = { x with words := rest, late := x.late || late, waitAt := waitSince x.words rest x.waitAt u } →
      runGoes x s = { u with sys := { u.sys with run := some y } })) ∧
  (∀ (l : List Nat) (late : Bool) (s u : State), profTurn s = true →
    runRecs true none ((profRecords s.sys.prof).length + 1) (shadowRest s) s.begin = (l, late, u) →
    (l = [] → exec .profileResetApply s = .next
      (bootFinish s.sys.prof (profileEnds { u with sys := { u.sys with profPos := (profRecords s.sys.prof).length } }))) ∧
    (l ≠ [] → exec .profileResetApply s = .next
      { u with sys := { u.sys with profPos := (profRecords s.sys.prof).length - l.length, profWait := true
                                   profWaitAt := waitSince (if s.sys.profWait then shadowRest s else []) l s.sys.profWaitAt u } })) ∧
  (∀ (w a b t : Nat) (l : List Nat) (since : Int) (s : State),
    waitOver (w :: a :: b :: t :: l) since s = true ↔ w / 2 ^ 28 = 4 ∧ since + (min 100000 t : Int) * 1000 * 4294967296 ≤ copyNow s islMCU) ∧
  (∀ (s : State), profTurn s = true → s.sys.profWait = true → waitOver (shadowRest s) s.sys.profWaitAt s = true →
    exec .profileWaitTimeout s = .next (bootFinish s.sys.prof (profileEnds (setF R.RST_STATUS_DEGRADED 1 (raise R.RST_EVENT_PROFILE_WAIT_TIMEOUT s.begin))))) ∧
  (∀ (x : ProfRun) (s : State), (profTurn s && s.sys.profWait && waitOver (shadowRest s) s.sys.profWaitAt s) = false →
    s.sys.run = some x → islUp s islMCU = true → waitOver x.words x.waitAt s = true →
    ∀ u, u = raise R.RST_EVENT_PROFILE_WAIT_TIMEOUT s.begin → exec .profileWaitTimeout s = .next
      (complete x.ring { irq := x.irq, tag := x.tag, len := 0, data := [], p0 := 0, p1 := 0, p2 := 0 } csTIMEOUT [b2n x.late] []
        { u with sys := { u.sys with run := none } }))

/-- POWER_ON, where a supply stood outside its window for 2 microseconds or longer, leaves the reset state with the straps,
the flash, the profile slots and the log, and drives RESET_N and ALIVE low. RESET_N_ACCEPT strikes source 1 and RESET_N_GLITCH
counts, unless the pin is ignored. A write of RST_REQ with GO strikes source 4 for its island; RST_SRC_MAP takes levels and
DRIVE of sources 1 to 8, and under MAP_LOCK raises MAP_LOCKED only. With no reset in progress a strike of a COLD, WARM or PATH
level begins that reset: LAST_SRC, LAST_LEVEL, SEQ_BUSY 1 and READY 0; of the UNIT level it begins the reset of its target,
and without one raises RESET_NO_TARGET. RESET_STRETCH_END ends the stretch of the resets of its island (0: of the other
levels) that have lasted 20 ms, for RESET_N with the input high; the pin RESET_N follows what drives it. -/
def Obligations.ResetSourcesStrikeAndAreMapped : Prop :=
  (∀ (d : SupplyDip) (p : Straps) (s : State),
    (supplyStrikes (railOf d.rail) d.uv d.ns = true → ∃ u, exec (.powerOn d p) s = .next u ∧ u.sys.straps = p.profsel % 4 + 4 * b2n p.addr ∧
      u.hif.flash = s.hif.flash ∧ u.mon.log = s.mon.log ∧ u.sys.slots = s.sys.slots ∧ u.buf = State.reset.buf ∧ u.tim = State.reset.tim ∧
      getF u R.RST_STATUS_PROFILE_SLOT = p.profsel % 4 ∧ getF u R.RST_STATUS_LAST_SRC = 0 ∧ getF u R.RST_STATUS_SEQ_BUSY = 1 ∧
      .pin "RESET_N" false ∈ u.outs ∧ .pin "ALIVE" false ∈ u.outs) ∧
    (supplyStrikes (railOf d.rail) d.uv d.ns = false → exec (.powerOn d p) s = .next s.begin)) ∧
  (∀ (r : Rail) (uv ns : Nat), supplyStrikes r uv ns = true ↔ ((uv < r.window.1 ∨ r.window.2 < uv) ∧ 2000 ≤ ns)) ∧
  (∀ (us : Nat) (s : State),
    (pinIgnored (tickUs us s) = false → exec (.resetNAccept us) s = .next (strike 1 0 (tickUs us s.begin)) ∧
      exec (.resetNGlitch us) s = .next (bump R.RST_CNT_GLITCH_COUNT (tickUs us s.begin))) ∧
    (pinIgnored (tickUs us s) = true → exec (.resetNAccept us) s = .next (tickUs us s.begin) ∧
      exec (.resetNGlitch us) s = .next (tickUs us s.begin))) ∧
  (∀ (req : Requester) (val : Nat) (s : State), reaches req 0x10024 0 s →
    exec (.rstRequest req val) s = .next (writeRstReq val s.begin)) ∧
  (∀ (req : Requester) (val : Nat) (s : State), reaches req 0x1000C 0 s →
    exec (.srcMapWrite req val) s = .next (writeSrcMap val s.begin)) ∧
  (∀ (val : Nat) (s : State),
    (bitOf val 31 = true → writeRstReq val s = strike 4 (val % 32) (setF R.RST_REQ_ISLAND val s)) ∧
    (bitOf val 31 = false → writeRstReq val s = setF R.RST_REQ_ISLAND val s) ∧
    (flag s R.RST_SRC_MAP_MAP_LOCK = true → writeSrcMap val s = raise R.RST_EVENT_MAP_LOCKED s) ∧
    (∀ k, flag s R.RST_SRC_MAP_MAP_LOCK = false → 1 ≤ k → k ≤ 8 → srcLevel (writeSrcMap val s) k = bitsOf val (3 * k) 2 ∧
      srcDrive (writeSrcMap val s) k = bitOf val (3 * k + 2))) ∧
  (∀ (src i : Nat) (s : State), s.sys.jobs = [] → src < 9 → src ≠ 3 → src ≠ 8 →
    (srcLevel s src = 3 → unitTarget src i = 0 ∨ islPresent s (unitTarget src i) = false →
      strike src i s = raise R.RST_EVENT_RESET_NO_TARGET (setIsl R.RST_CAUSE_SRC src true s)) ∧
    (srcLevel s src = 3 → unitTarget src i ≠ 0 → islPresent s (unitTarget src i) = true →
      strike src i s = pinFollows false (beginReset src 3 (unitTarget src i) [] (setIsl R.RST_CAUSE_SRC src true s))) ∧
    (srcLevel s src < 3 → strike src i s = pinFollows false (beginReset src (srcLevel s src) 0 [] (setIsl R.RST_CAUSE_SRC src true s)) ∧
      getF (strike src i s) R.RST_STATUS_LAST_SRC = src ∧ getF (strike src i s) R.RST_STATUS_LAST_LEVEL = srcLevel s src ∧
      getF (strike src i s) R.RST_STATUS_SEQ_BUSY = 1 ∧ getF (strike src i s) R.RST_STATUS_READY = 0)) ∧
  (∀ (isl : Nat) (pin : StretchEnd) (s u : State), u = tickUs pin.us s.begin →
    ∀ ends : RstJob → RstJob, (∀ j, ends j =
      if (if j.level = 3 then j.isl = isl else isl = 0) ∧ j.start + 20000 ≤ pin.us ∧ (pin.high = true ∨ j.src ≠ 1) then { j with stretched := true } else j) →
    exec (.resetStretchEnd isl pin) s = .next (jobsSettle (pinFollows (driven s) { u with sys := { u.sys with jobs := u.sys.jobs.map ends } }))) ∧
  (∀ (was : Bool) (s : State),
    (was = true → driven s = false → pinFollows was s = emit (.pin "RESET_N" true) { s with sys := { s.sys with pinFree := s.sys.us + 10 } }) ∧
    (was = false → driven s = true → pinFollows was s = emit (.pin "RESET_N" false) s) ∧
    (was = driven s → pinFollows was s = s))

/-- ISLAND_RELEASE releases an island that may be released: its clock is valid, its self-test has passed, and a reset whose
stretch is over holds it. FORCED_RELEASE, unless DBG_LOCK is 1, releases a present island at once into quarantine.
OSCILLATOR_CHECK_END finds an input within 20 % of its nominal, and SAFE's error above 100,000 ppm raises SAFE_OSC_RANGE.
LOAD_ATTEMPT_COMPLETE takes a shadow whose CRC is right, a valid record or a profile that passes the checks; a failed attempt
raises LOAD_RETRY, and after the third the load is replaced. STEP_DEADLINE, once due, abandons the islands of the late step,
the lanes still calibrating, or the application of the profile. SELF_TEST_COMPLETE lets a sound island pass and raises
MEM_BIST_FAIL for each memory that failed. -/
def Obligations.LoadsSelfTestsAndReleasesBringIslandsUp : Prop :=
  (∀ (i us : Nat) (s : State), canRelease (tickUs us s) i = true →
    exec (.islandRelease i us) s = .next (releaseIsland i (tickUs us s.begin))) ∧
  (∀ (i : Nat) (s : State), canRelease s i = true → islClkValid s i = true ∧ i ∈ s.sys.tested ∧ ∃ j ∈ s.sys.jobs, i ∈ j.wait ∧ j.stretched = true) ∧
  (∀ (req : Requester) (val : Nat) (s : State), reaches req 0x10020 0 s →
    exec (.forcedRelease req val) s = .next (writeForce val s.begin)) ∧
  (∀ (val : Nat) (s : State), (fuseLock s 0 = true → writeForce val s = s) ∧
    (∀ i, i ≠ 0 → i < 32 → islPresent s i = true → islReleased s i = false →
      islReleased (forceRelease i s) i = true ∧ islQuar (forceRelease i s) i = true ∧ getF (forceRelease i s) R.RST_EVENT_QUARANTINE = 1)) ∧
  (∀ (xin ocxo us : Nat) (ppm : Int) (s : State),
    (s.sys.oscDone = true → exec (.oscillatorCheckEnd xin ocxo ppm us) s = .next (tickUs us s.begin)) ∧
    (s.sys.oscDone = false → ∃ u, exec (.oscillatorCheckEnd xin ocxo ppm us) s = .next u ∧ u.sys.oscDone = true ∧
      u.sys.oscOk = (xoPresent (zeroAs 25000000 (getF s R.SYN_XIN_FREQ_FREQ_HZ)) xin || (hasOcxo s && xoPresent (getF s R.SYN_OCXO_FREQ_FREQ_HZ) ocxo)) ∧
      (u.sys.oscOk = true → 100000 < ppm.natAbs → getF u R.RST_EVENT_SAFE_OSC_RANGE = 1) ∧
      (u.flt.aliveRun = true → s.flt.aliveRun = true ∨ u.sys.oscOk = true))) ∧
  (∀ (n hz : Nat), xoPresent n hz = true ↔ n ≠ 0 ∧ n * 8 ≤ hz * 10 ∧ hz * 10 ≤ n * 12) ∧
  (∀ (ws : List Nat) (us : Nat) (s : State), 0 ∈ s.sys.loads →
    (ws.length = 128 → ws.getD 127 0 = crc32 (wordOctets (ws.take 4 ++ (ws.drop 36).take 91)) →
      exec (.loadAttemptComplete (.fuse ws) us) s = .next (fuseValid ws (bump R.RST_LOAD_STAT_FUSE_ATT (tickUs us s.begin)))) ∧
    (¬ (ws.length = 128 ∧ ws.getD 127 0 = crc32 (wordOctets (ws.take 4 ++ (ws.drop 36).take 91))) →
      exec (.loadAttemptComplete (.fuse ws) us) s = .next (loadFailed 0 (bump R.RST_LOAD_STAT_FUSE_ATT (tickUs us s.begin))))) ∧
  (∀ (ws : List Nat) (us : Nat) (s u : State), 1 ∈ s.sys.loads → 0 ∉ s.sys.loads → u = bump R.RST_LOAD_STAT_TRIM_ATT (tickUs us s.begin) →
    (ws.length = 32 → ws.getD 31 0 = crc32 (wordOctets (ws.take 31)) →
      exec (.loadAttemptComplete (.trim ws) us) s = .next (milestone 1 (loadEnded 1 { u with sys := { u.sys with trim := ws.take 31 } }))) ∧
    (¬ (ws.length = 32 ∧ ws.getD 31 0 = crc32 (wordOctets (ws.take 31))) →
      exec (.loadAttemptComplete (.trim ws) us) s = .next (loadFailed 1 u))) ∧
  (∀ (vals : List (Nat × Nat × Nat)) (avs : Nat × Nat × Nat) (tables : List (List Nat)) (cert : List Nat) (us : Nat) (s u : State),
    2 ∈ s.sys.loads → 0 ∉ s.sys.loads → u = bump R.RST_LOAD_STAT_RECORD_ATT (tickUs us s.begin) →
    exec (.loadAttemptComplete (.record true vals avs tables cert) us) s = .next (driveVid (loadEnded 2 (recordValid vals avs tables cert u))) ∧
    exec (.loadAttemptComplete (.record false vals avs tables cert) us) s = .next (loadFailed 2 u)) ∧
  (∀ (ok : Bool) (us : Nat) (s u v : State), 3 ∈ s.sys.loads → 0 ∉ s.sys.loads → u = tickUs us s.begin → v = bump R.RST_LOAD_STAT_PROFILE_ATT u →
    (slotImage s (getF s R.RST_STATUS_PROFILE_SLOT) = none →
      exec (.loadAttemptComplete (.profile ok) us) s = .next (loadEnded 3 (whenS (s.sys.level == 0) clockDefaults
        (raise R.RST_EVENT_PROFILE_EMPTY (setF R.RST_STATUS_PROFILE_NONE 1 u))))) ∧
    (∀ l, slotImage s (getF s R.RST_STATUS_PROFILE_SLOT) = some l → ok = true →
      (profCheck v .reset l = 0 → exec (.loadAttemptComplete (.profile ok) us) s = .next (loadEnded 3 (whenS (s.sys.level == 0) (clockSection l)
        { v with fresh := v.fresh + 1, sys := { v.sys with prof := l } }))) ∧
      (profCheck v .reset l ≠ 0 → exec (.loadAttemptComplete (.profile ok) us) s = .next (loadFailed 3
        (setF R.RST_PROF_STAT_FAIL_CAUSE (profCheck v .reset l) { v with fresh := v.fresh + 1 }))))) ∧
  (∀ (n : Nat) (s : State),
    (getF s (attFld n) < 3 → loadFailed n s = raise R.RST_EVENT_LOAD_RETRY s) ∧
    (3 ≤ getF s (attFld n) → loadFailed n s = replaceLoad n (raise R.RST_EVENT_LOAD_RETRY s))) ∧
  (∀ (step us : Nat) (s u : State), u = tickUs us s.begin →
    (s.flt.startUp = false ∨ (s.sys.level = 0 ∧ us < s.sys.began + stepDeadline step) → exec (.stepDeadline step us) s = .next u) ∧
    (s.flt.startUp = true → s.sys.level ≠ 0 ∨ s.sys.began + stepDeadline step ≤ us →
      (2 ≤ step → step ≤ 7 → exec (.stepDeadline step us) s = .next ((relOrder.filter fun i => relStep i == step && (s.sys.jobs.flatMap (·.wait)).contains i).foldl
        (fun s i => abandon step i s) u)) ∧
      (step = 9 → s.sys.profDone = false → islUp s islMCU = true → exec (.stepDeadline step us) s = .next (profileEnds (abandon step islMCU u))) ∧
      (step = 8 → s.sys.level = 0 → flag s R.TSU_GSTAT_CAL_DONE = false → s.sys.calLate = false → ∀ v w,
        v = whenS (flag s R.LNK_GSTAT_CAL_RUNNING) (fun s => setF R.LNK_GSTAT_CAL_RUNNING 0 (calChannels false s)) u →
        w = setF R.RST_STATUS_DEGRADED 1 (raise R.RST_EVENT_STEP_LATE { v with sys := { v.sys with calLate := true } }) →
        exec (.stepDeadline step us) s = .next (readyCheck (((List.range 16).filter fun q =>
          islUp w (islLANE q) && getF w R.LNK_CAL_STAT_RESULT (4 * q) == 3).foldl (fun s q => abandon step (islLANE q) s) w))))) ∧
  (∀ (i us : Nat) (l : List Nat) (s u : State), s.sys.jobs.any (fun j => j.wait.contains i) = true → islClkValid s i = true →
    u = (memsOf i).foldl (fun s m => setIsl R.MON_BIST_MEM_FAIL m (((memsOf i).filter l.contains).contains m) s)
      (setIsl R.MON_BIST_STAT_FAIL i (!((memsOf i).filter l.contains).isEmpty) (tickUs us s.begin)) →
    ((∀ m ∈ memsOf i, m ∉ l) → exec (.selfTestComplete i l us) s = .next
      { u with sys := { u.sys with tested := if u.sys.tested.contains i then u.sys.tested else u.sys.tested ++ [i] } }) ∧
    (∀ m ∈ memsOf i, m ∈ l → exec (.selfTestComplete i l us) s = .next
      (((memsOf i).filter l.contains).foldl (fun s m => raiseFault (faultBit 3) i m 0 islSAFE s) u)))

/-- BOOT_ROM_START with the MCU up runs the boot ROM to the application of the profile, or to its end where none follows: then
BOOT_DONE and MCU_READY are 1. A late image has cause LATE, and without the management image the servo cause says so; a
candidate that passes its checks is chosen. Once due, FW_STEP_LATE of step 3 or 4 notes the late image and raises STEP_LATE;
of step 7 it ends the boot in limp mode with neither image running. The writes of FWT_CTL discard a staged image or restart
the servo image, which runs exactly if its cause is 0. -/
def Obligations.FirmwareIsChosenMeasuredAndStarted : Prop :=
  (∀ (fl : Option (Bool × Nat × Nat)) (us : Nat) (s : State), islUp (tickUs us s) islMCU = true → s.sys.boot = 0 →
    ∃ u, exec (.bootRomStart fl us) s = .next u ∧
      (s.sys.profDone = false → u.sys.boot = 1 ∧ getF u R.HIF_QSPI_CFG_PRESENT = b2n fl.isSome ∧
        (0 ∈ s.sys.late → getF u R.FWT_STATUS_MGMT_CAUSE = 9 ∧ getF u R.FWT_STATUS_SERVO_CAUSE = 8)) ∧
      (s.sys.profDone = true → u.sys.boot = 2 ∧ getF u R.FWT_STATUS_BOOT_DONE = 1 ∧ getF u R.HIF_GSTAT_MCU_READY = 1)) ∧
  (∀ (servo late : Bool) (sif : Option Nat) (s : State),
    (late = true → getF (takeImage servo late sif s) (causeFld servo) = 9) ∧
    (late = false → servo = false → getF (takeImage servo late sif s) (causeFld servo) = (choose (stageRead servo (setF (srcFld servo) 0 (setF (sigFld servo) 0 s))) servo).1)) ∧
  (∀ (servo : Bool) (s : State) (k : Nat) (l : List Nat), (k, l) ∈ candidates s servo → imgCheck s servo l = 0 →
    (choose s servo).1 = 0 ∧ ∃ c, (choose s servo).2 = some c ∧ c ∈ candidates s servo ∧ imgCheck s servo c.2 = 0) ∧
  (∀ (k us : Nat) (s u : State), islUp s islMCU = true → u = tickUs us s.begin → fwStepDue k us u = true →
    (∀ n, (k = 3 ∧ n = 0) ∨ (k = 4 ∧ n = 1) → s.sys.boot = 0 → exec (.fwStepLate ⟨k, us⟩) s = .next (raise R.RST_EVENT_STEP_LATE
      { u with sys := { u.sys with late := if s.sys.late.contains n then s.sys.late else s.sys.late ++ [n] } } islMCU)) ∧
    (k = 7 → s.sys.boot = 1 → ∃ v, exec (.fwStepLate ⟨k, us⟩) s = .next v ∧ v.sys.boot = 2 ∧ getF v R.FWT_STATUS_MGMT_CAUSE = 9 ∧
      getF v R.FWT_STATUS_LIMP = 1 ∧ getF v R.FWT_STATUS_MGMT_RUN = 0 ∧ getF v R.FWT_STATUS_SERVO_RUN = 0)) ∧
  (∀ (k us : Nat) (s : State), fwStepDue k us s = true ↔
    (s.sys.level ≠ 0 ∨ s.sys.profDone = true ∨ s.sys.began + (if k = 3 then 120000 else if k = 4 then 160000 else 250000) ≤ us)) ∧
  (∀ (req : Requester) (val : Nat) (s : State), reaches req 0x3800C 0 s →
    exec (.servoRestart req val) s = .next (writeFwtCtl val s.begin)) ∧
  (∀ (req : Requester) (val : Nat) (s : State), reaches req 0x3800C 0 s →
    exec (.discardMgmt req val) s = .next (writeFwtCtl val s.begin)) ∧
  (∀ (req : Requester) (val : Nat) (s : State), reaches req 0x3800C 0 s →
    exec (.discardServo req val) s = .next (writeFwtCtl val s.begin)) ∧
  (∀ (s : State),
    (writeFwtCtl (2 ^ 30) s = discardStaged 0 s ∧ writeFwtCtl (2 ^ 29) s = discardStaged 1 s ∧ writeFwtCtl (2 ^ 31) s = servoRestart s) ∧
    (∀ n, n ∉ (discardStaged n s).sys.stageOk) ∧ flag (discardStaged 0 s) R.FWT_STATUS_STAGED_MGMT = false ∧
    flag (discardStaged 1 s) R.FWT_STATUS_STAGED_SERVO = false ∧
    (flag s R.FWT_STATUS_MGMT_RUN = false → servoRestart s = s) ∧
    (flag s R.FWT_STATUS_MGMT_RUN = true →
      (flag (servoRestart s) R.FWT_STATUS_SERVO_RUN = true ↔ getF (servoRestart s) R.FWT_STATUS_SERVO_CAUSE = 0)))

/-- WATCHDOG_FEED of a running controller arms the watchdog with a limit in ms or feeds it; MGMT_WATCHDOG_EXPIRY, once the
limit is over, strikes source 2, and SERVO_WDOG stops the servo image with its cause and event. A measurement replaces its
register by the SHA-384 of the register and the digest, counts up to 255 and appends to the log up to 64 entries, then sets
LOG_TRUNC; DEBUG_ATTACH measures a free digest (entry 3) where JTAG_LOCK is 0, FW_MEASUREMENT_POST the firmware's in MEAS6 or
MEAS7. SPDM_REQUEST answers with its data, with an error for an unsupported code, and with ERROR Busy while neither image nor
limp service runs. -/
def Obligations.WatchdogsMeasurementsAndSpdmAnswer : Prop :=
  (∀ (servo : Bool) (t us : Nat) (s : State), flag s R.FWT_STATUS_MGMT_RUN = true → islUp s islMCU = true →
    (t ≠ 0 → ∃ u, exec (.watchdogFeed servo t us) s = .next u ∧ flag u (wdArmed servo) = true ∧ getF u (wdTmo servo) = t % 4096 ∧
      smGet 0 u.sys.wdog (b2n servo) = us + t % 4096 * 1000) ∧
    (flag s (wdArmed servo) = true → ∃ u, exec (.watchdogFeed servo 0 us) s = .next u ∧
      smGet 0 u.sys.wdog (b2n servo) = us + getF s (wdTmo servo) * 1000) ∧
    (flag s (wdArmed servo) = false → exec (.watchdogFeed servo 0 us) s = .next (tickUs us s.begin))) ∧
  (∀ (us : Nat) (s : State),
    (wdDue s false us = true → exec (.mgmtWatchdogExpiry us) s = .next (strike 2 0 (tickUs us s.begin))) ∧
    (wdDue s false us = false → exec (.mgmtWatchdogExpiry us) s = .next (tickUs us s.begin)) ∧
    (wdDue s true us = true → flag s R.FWT_STATUS_SERVO_RUN = true → exec (.servoWdog us) s =
      .next (raise R.FWT_EVENT_SERVO_WDOG (setF R.FWT_STATUS_SERVO_RUN 0 (setF R.FWT_STATUS_SERVO_CAUSE 10 (tickUs us s.begin)))))) ∧
  (∀ (m kind d : Nat) (s : State), m < 8 →
    getMeas (extend m kind d s) m = (Config.sha384 (digestOctets (getMeas s m) ++ digestOctets d)).toNat % 2 ^ 384 ∧
    getF (extend m kind d s) (measCnt m) = min 255 (getF s (measCnt m) + 1) ∧
    (∀ n, n < 8 → n ≠ m → getMeas (extend m kind d s) n = getMeas s n) ∧
    (s.sys.measLog.length < 64 → (extend m kind d s).sys.measLog = s.sys.measLog ++ [⟨m, kind, copyNow s islMCU, d⟩]) ∧
    (64 ≤ s.sys.measLog.length → (extend m kind d s).sys.measLog = s.sys.measLog ∧ (extend m kind d s).sys.logTrunc = true)) ∧
  (∀ (s : State), islUp s islMCU = true → fuseLock s 1 = false →
    exec .debugAttach s = .next (extend 5 5 (toU 384 (drawInt s).1) { s.begin with fresh := s.fresh + 1 })) ∧
  (∀ (m d : Nat) (s : State), islUp s islMCU = true → flag s R.FWT_STATUS_MGMT_RUN = true → m = 6 ∨ m = 7 →
    exec (.fwMeasurementPost m d) s = .next (extend m 6 (d % 2 ^ 384) s.begin)) ∧
  (∀ (q : SpdmReq) (s : State), islUp s islHOST = true →
    (islUp s islMCU = false ∨ (flag s R.FWT_STATUS_MGMT_RUN = false ∧ flag s R.FWT_STATUS_LIMP = false) →
      exec (.spdmRequest q) s = .next (emit (.spdm q 0 []) s.begin)) ∧
    (islUp s islMCU = true → flag s R.FWT_STATUS_MGMT_RUN = true ∨ flag s R.FWT_STATUS_LIMP = true → (∀ c, q ≠ .other c) →
      exec (.spdmRequest q) s = .next (emit (.spdm q 2 (spdmData q s)) s.begin)) ∧
    (∀ c, islUp s islMCU = true → flag s R.FWT_STATUS_MGMT_RUN = true ∨ flag s R.FWT_STATUS_LIMP = true → q = .other c → exec (.spdmRequest q) s = .next (emit (.spdm q 1 []) s.begin)))

/-- FAULT_COLLECT takes the faults raised: a fault that is not heard is ignored, one with no record open opens the next with
its source, island, instance, detail, the next SEQ and SAFE's count, and one with a record open merges into it. FAULT_ACK of
the open record's SEQ closes it as acknowledged; any other raises FLT_ACK_STALE. REACTION_TIMER_EXPIRY in normal service
escalates: ALIVE stops, the record closes, the count goes up and source 3 strikes each island. A write of FLT_CTL sets TEST,
and resumes ALIVE unless a fatal fault is pending. RECOVERY_END ends recovery 1,000 ms after the last release. -/
def Obligations.FaultsAreRecordedAcknowledgedAndEscalated : Prop :=
  (∀ (us : Nat) (s : State), exec (.faultCollect us) s = .next (collectAll (tickUs us s.begin))) ∧
  (∀ (s : State), (∀ f ∈ s.flt.faults, heard s f = false) → collectAll s = modeSync { s with flt := { s.flt with faults := [] } }) ∧
  (∀ (f : FaultRec) (s : State),
    (heard s f = false → collect f s = s) ∧
    (heard s f = true → s.flt.openSlot = none → collect f s = react f (openRecord f s)) ∧
    (heard s f = true → s.flt.openSlot.isSome = true → collect f s = react f (mergeFault f s)) ∧
    (s.flt.recs.length = 16 → ∃ r, openRec (openRecord f s) = some r ∧ r.isOpen = true ∧ r.src = f.src ∧ r.isl = f.isl ∧
      r.inst = f.inst % 65536 ∧ r.detail = f.detail % 2 ^ 32 ∧ r.cls = srcClass s f.src ∧ r.mode = svcMode s ∧
      r.seq = (s.flt.seq + 1) % 256 ∧ r.safeUs = s.sys.us % 2 ^ 32 ∧ r.mergeCnt = 0)) ∧
  (∀ (f : FaultRec) (r : FltRecord) (k : Nat) (s : State), s.flt.openSlot = some k → k < s.flt.recs.length → s.flt.recs.getD k none = some r →
    openRec (mergeFault f s) = some
      { r with
        mergeMask := putBit r.mergeMask f.isl true, mergeCnt := min 255 (r.mergeCnt + 1), lastSrc := f.src
        lastIsl := f.isl, cls := max r.cls (srcClass s f.src)
        recovMask := if srcClass s f.src = 1 then putBit r.recovMask f.isl true else r.recovMask }) ∧
  (∀ (req : Requester) (val : Nat) (s : State), reaches req 0x20008 0 s →
    exec (.faultAck req val) s = .next (writeAck val s.begin)) ∧
  (∀ (val : Nat) (s : State),
    (bitOf val 31 = false → writeAck val s = s) ∧
    (bitOf val 31 = true → openRec s = none → writeAck val s = raise R.FLT_GEN_EVENT_FLT_ACK_STALE s) ∧
    (∀ r, bitOf val 31 = true → openRec s = some r → r.seq ≠ val % 256 → writeAck val s = raise R.FLT_GEN_EVENT_FLT_ACK_STALE s) ∧
    (∀ r, bitOf val 31 = true → openRec s = some r → r.seq = val % 256 → (writeAck val s).flt.openSlot = none ∧
      ∃ k, s.flt.openSlot = some k ∧ (writeAck val s).flt.recs.getD k none = some { r with isOpen := false, deadline := none, acked := true })) ∧
  (∀ (us d : Nat) (r : FltRecord) (s : State), openRec s = some r → r.deadline = some d → svcMode s = 0 → d ≤ us →
    exec (.reactionTimerExpiry us) s = .next (escalate r (tickUs us s.begin))) ∧
  (∀ (r : FltRecord) (s : State), openRec s = some r →
    ∃ u, escalate r s = modeSync ((escIslands r).foldl (fun s i => strike 3 i s) u) ∧ u.flt.aliveRun = false ∧ u.flt.openSlot = none ∧
      getF u R.FLT_ESC_COUNT = min 65535 (getF s R.FLT_ESC_COUNT + 1) ∧ getF u R.FLT_ESC_LAST_ISLAND = r.isl % 32) ∧
  (∀ (req : Requester) (val : Nat) (s : State), reaches req 0x20004 0 s →
    exec (.aliveResume req val) s = .next (writeFltCtl val s.begin)) ∧
  (∀ (req : Requester) (val : Nat) (s : State), reaches req 0x20004 0 s →
    exec (.testModeWrite req val) s = .next (writeFltCtl val s.begin)) ∧
  (∀ (val : Nat) (s : State), flag (writeFltCtl val s) R.FLT_CTL_TEST = bitOf val 31 ∧
    (bitOf val 31 = true → s.flt.startUp = false → s.flt.recovery = false → svcMode (writeFltCtl val s) = 3) ∧
    (bitOf val 30 = true → s.flt.fatal = true → getF (writeFltCtl val s) R.FLT_GEN_EVENT_FLT_ACK_STALE = 1) ∧
    (bitOf val 30 = true → s.flt.fatal = false → s.sys.oscOk = true → (writeFltCtl val s).flt.aliveRun = true)) ∧
  (∀ (us t : Nat) (s : State), s.flt.recoveryFrom = some t → s.flt.recovery = true → t + 1000000 ≤ us →
    ∃ v, v = tickUs us s.begin ∧
      exec (.recoveryEnd us) s = .next { v with flt := { v.flt with recovery := false, recoveryFrom := none } })

/-- SCRUB_ACCESS at the scrubber's bank and word moves on: a single-bit error, of a particle or stored, is repaired and
counted unless a functional write overtook it; an uncorrectable word that is not in use is counted and repaired, and one in
use stays and is reported: MON_ECC_ADDR and UE count, and the fault with the island and the word (memory 0: the event bit of
PBUF_UE alone). After the last word the scrubber starts again and a lap has ended. SCRUB_LATE keeps the time of that lap and
its peak, and raises SCRUB_LATE beyond the limit. ECC_LAP_READ delivers both times and takes the peak to 0. -/
def Obligations.ScrubbersAndEccCountTheirFindings : Prop :=
  (∀ (m bank word us w e : Nat) (x : ScrubRead) (s u t : State), flag s R.MON_ECC_CFG_SCRUB_ENA = true → m < 18 → bank < memBanks m →
    smGet 0 s.sys.scrub m = word * memBanks m + bank → islUp s (memIsland m) = true → u = tickUs us s.begin →
    w = (if m = 0 then bank * 65536 + word else word) → e = max x.err (eccOf s m w) →
    t = bump (eccF R.MON_ECC_SCRUB_UE_FOUND) u m →
    (e = 0 ∨ (x.overtaken = true ∧ e = 1) → exec (.scrubAccess m bank word x us) s = .next (scrubNext m u)) ∧
    (e = 1 → x.overtaken = false → exec (.scrubAccess m bank word x us) s =
      .next (scrubNext m (setEcc m w 0 (bump (eccF R.MON_ECC_SCRUB_REPAIRED) u m)))) ∧
    (2 ≤ e → wordUsed t m bank word = false → exec (.scrubAccess m bank word x us) s = .next (scrubNext m (setEcc m w 0 t))) ∧
    (2 ≤ e → wordUsed t m bank word = true → exec (.scrubAccess m bank word x us) s =
      .next (scrubNext m (uncorrectable m bank word true (setEcc m w 2 t))))) ∧
  (∀ (m p : Nat) (s : State), p = smGet 0 s.sys.scrub m + 1 →
    (p < memBanks m * memWords m → scrubNext m s = { s with sys := { s.sys with scrub := smPut 0 s.sys.scrub m p } }) ∧
    (memBanks m * memWords m ≤ p → smGet 0 (scrubNext m s).sys.scrub m = 0 ∧ smGet 0 (scrubNext m s).sys.scrub (m + 32) = 1)) ∧
  (∀ (m bank w : Nat) (scrub : Bool) (s : State),
    flag (uncorrectable m bank w scrub s) (eccF R.MON_ECC_ADDR_UE) m = true ∧
    getF (uncorrectable m bank w scrub s) (eccF R.MON_ECC_UE_COUNT) m = getF (bump (eccF R.MON_ECC_UE_COUNT) s m) (eccF R.MON_ECC_UE_COUNT) m ∧
    (1 ≤ m → m ≤ 16 → ∃ e ∈ (uncorrectable m bank w scrub s).flt.faults, e.src = (faultBit 7).src ∧ e.isl = memIsland m ∧ e.inst = m ∧ e.detail = bank * 2 ^ 24 + w) ∧
    (m = 0 → getF (uncorrectable m bank w scrub s) (faultBit 9) = 1) ∧
    (m = 17 → ∃ e ∈ (uncorrectable m bank w scrub s).flt.faults, e.src = (faultBit 4).src ∧ e.isl = islMCU ∧ e.inst = 17 ∧ e.detail = w)) ∧
  (∀ (m ms : Nat) (s : State), m < 18 → smGet 0 s.sys.scrub (m + 32) = 1 → islUp s (memIsland m) = true →
    ∃ u, exec (.scrubLate m ms) s = .next u ∧ smGet 0 u.sys.scrub (m + 32) = 0 ∧ getF u (eccF R.MON_ECC_LAP_LAST_MS) m = min 65535 ms ∧
      getF u (eccF R.MON_ECC_LAP_PEAK_MS) m = max (min 65535 ms) (getF s (eccF R.MON_ECC_LAP_PEAK_MS) m) % 65536 ∧
      (getF s R.MON_ECC_CFG_LAP_LIMIT_S ≠ 0 → getF s R.MON_ECC_CFG_LAP_LIMIT_S * 1000 < ms → getF u R.MON_ECC_EVENT_SCRUB_LATE = 1)) ∧
  (∀ (req : Requester) (s : State), gateOf s 0xF0814 0 = .pass →
    exec (.eccLapRead req) s = .next (emit (.readData req 0xF0814 (readLap s).1) (readLap s.begin).2)) ∧
  (∀ (s : State), (18 < getF s R.MON_ECC_IDX_MEM → readLap s = (0, s)) ∧
    (getF s R.MON_ECC_IDX_MEM ≤ 18 → getF (readLap s).2 (eccF R.MON_ECC_LAP_PEAK_MS) (getF s R.MON_ECC_IDX_MEM) = 0 ∧
      (readLap s).1 = getF s (eccF R.MON_ECC_LAP_LAST_MS) (getF s R.MON_ECC_IDX_MEM) * 65536 + getF s (eccF R.MON_ECC_LAP_PEAK_MS) (getF s R.MON_ECC_IDX_MEM)))

/-- A write of a counter's CFG or THR clears the counter and its wrap bit; a write of MON_CNT_CTL clears the counters it names
and no other. A counter adds modulo 2^48 and a wrap sets its bit and CNT_WRAP. CORE_CYCLE_COUNT with BUF up advances the cycle
count and, with CNT_ENA, every occupancy counter. BW_WINDOW_END at a boundary in the Last copy of BUF gives the rates of the
window, none for a skipped one, starts the next and takes a WIN_US that waits. BW_PEAK_READ delivers the peak and takes it to
0. HIST_DEPTH_SAMPLE, once in 2^SPACE core cycles, adds the depth to the bin of its unit, which saturates; HIST_CLEAR writes
MON_HIST_CFG and clears the bins. -/
def Obligations.CountersBandwidthAndHistogramsMeasure : Prop :=
  (∀ (req : Requester) (k val p : Nat) (thr : Bool) (s : State), k < 8 → reaches req (0xF0110 + 8 * k + 4 * b2n thr) p s →
    exec (.counterCfgWrite req k val thr) s = .next (writeCntCfg (0xF0110 + 8 * k + 4 * b2n thr) p val s.begin)) ∧
  (∀ (off p val k : Nat) (s : State), off = 0xF0110 + 8 * k ∨ off = 0xF0114 + 8 * k → k < 8 →
    getW (writeCntCfg off p val s) (cntFld R.MON_CNT_CNT_LO k) (cntFld R.MON_CNT_CNT_HI k) p = 0 ∧
    bitOf (getF (writeCntCfg off p val s) R.MON_CNT_WRAP_CNT p) k = false) ∧
  (∀ (req : Requester) (val : Nat) (p : Nat) (s : State), reaches req 0xF0108 p s →
    exec (.counterClear req val) s = .next (writeCntCtl p val s.begin)) ∧
  (∀ (p val k : Nat) (s : State), k < cntCount s →
    (bitOf val k = true → getW (writeCntCtl p val s) (cntFld R.MON_CNT_CNT_LO k) (cntFld R.MON_CNT_CNT_HI k) p = 0) ∧
    (bitOf val k = false → getW (writeCntCtl p val s) (cntFld R.MON_CNT_CNT_LO k) (cntFld R.MON_CNT_CNT_HI k) p =
      getW s (cntFld R.MON_CNT_CNT_LO k) (cntFld R.MON_CNT_CNT_HI k) p)) ∧
  (∀ (p k n : Nat) (s : State), k < 8 → ∃ v, v = getW s (cntFld R.MON_CNT_CNT_LO k) (cntFld R.MON_CNT_CNT_HI k) p + n ∧
    getW (cntAdd p k n s) (cntFld R.MON_CNT_CNT_LO k) (cntFld R.MON_CNT_CNT_HI k) p = v % 2 ^ 48 ∧
    (2 ^ 48 ≤ v → bitOf (getF (cntAdd p k n s) R.MON_CNT_WRAP_CNT p) k = true ∧ getF (cntAdd p k n s) R.MON_EVENT_CNT_WRAP = 1)) ∧
  (∀ (s u v : State), islUp s islBUF = true → u = { s.begin with mon := { s.mon with cyc := (s.mon.cyc + 1) % 2 ^ 48 } } →
    v = (if s.mon.cyc + 1 = 2 ^ 48 then
      ((List.range 66).filter (portPresent s)).foldl (fun s p => raiseAt R.MON_EVENT_CNT_WRAP 0 p 0 (setF R.MON_CNT_WRAP_CYC 1 s p)) u else u) →
    (flag s R.MON_GCFG_CNT_ENA = false → exec .coreCycleCount s = .next v) ∧
    (flag s R.MON_GCFG_CNT_ENA = true → exec .coreCycleCount s = .next (((List.range 66).filter (portPresent s)).foldl
      (fun s p => (List.range (cntCount s)).foldl (fun s k => occCount p k s) s) v))) ∧
  (∀ (p : Nat) (s : State), islUp s islBUF = true → portPresent s p = true → flag s R.MON_GCFG_CNT_ENA = true → bwBoundary s p = true →
    ∃ u, exec (.bwWindowEnd p) s = .next u ∧ smGet 0 u.mon.bw (2 * p) = 0 ∧ smGet 0 u.mon.bw (2 * p + 1) = 0 ∧ smGet (-1) u.mon.bwAt p = bwMicros s ∧
      (p ∉ s.mon.bwSkip → getF u R.MON_BW_RX_LAST_MBPS p = min 524287 (smGet 0 s.mon.bw (2 * p) * 8 / winUs s p) ∧
        getF u R.MON_BW_TX_LAST_MBPS p = min 524287 (smGet 0 s.mon.bw (2 * p + 1) * 8 / winUs s p)) ∧
      (p ∈ s.mon.bwSkip → getF u R.MON_BW_RX_LAST_MBPS p = getF s R.MON_BW_RX_LAST_MBPS p ∧
        getF u R.MON_BW_TX_LAST_MBPS p = getF s R.MON_BW_TX_LAST_MBPS p) ∧
      (smGet noWin s.mon.bwPend p = noWin → p ∉ u.mon.bwSkip ∧ getF u R.MON_BW_CFG_WIN_US p = getF s R.MON_BW_CFG_WIN_US p) ∧
      (smGet noWin s.mon.bwPend p ≠ noWin → getF u R.MON_BW_CFG_WIN_US p = smGet noWin s.mon.bwPend p % 2 ^ 20)) ∧
  (∀ (p : Nat) (s : State), bwBoundary s p = true ↔
    (copyNow s islBUF / unitNs / 1000) % (winUs s p : Int) = 0 ∧ (p ∈ s.mon.bwSkip ∨ smGet (-1) s.mon.bwAt p ≠ copyNow s islBUF / unitNs / 1000)) ∧
  (∀ (req : Requester) (tx : Bool) (p : Nat) (s : State), p = readInst s req (if tx then 0xF01A0 else 0xF0198) →
    gateOf s (if tx then 0xF01A0 else 0xF0198) p = .pass →
    exec (.bwPeakRead req tx) s = .next (emit (.readData req (if tx then 0xF01A0 else 0xF0198) (readPeak tx p s).1) (readPeak tx p s.begin).2) ∧
    getF (readPeak tx p s).2 (if tx then R.MON_BW_TX_PEAK_MBPS else R.MON_BW_RX_PEAK_MBPS) p = 0) ∧
  (∀ (u : Nat) (s v : State), islUp s islBUF = true → u < 8 → histDue s u = true →
    v = { s.begin with mon := { s.mon with histAt := smPut 0 s.mon.histAt u (s.mon.cyc + 1) } } →
    (getF s R.MON_HIST_CFG_KIND u = 0 → exec (.histDepthSample u) s = .next (histAdd u (voqDepth s (getF s R.MON_HIST_CFG_INPUT u)
      (getF s R.MON_HIST_CFG_OUTPUT u) (getF s R.MON_HIST_CFG_TC u)) v)) ∧
    (getF s R.MON_HIST_CFG_KIND u = 2 → exec (.histDepthSample u) s = .next (histAdd u (aggregate s
      (getF s R.MON_HIST_CFG_OUTPUT u) (getF s R.MON_HIST_CFG_TC u)) v)) ∧
    (getF s R.MON_HIST_CFG_KIND u = 4 → exec (.histDepthSample u) s = .next (histAdd u
      (sumCopies s fun _ y => if y.out = getF s R.MON_HIST_CFG_OUTPUT u then y.charge else 0) v)) ∧
    (getF s R.MON_HIST_CFG_KIND u ∉ [0, 2, 4] → exec (.histDepthSample u) s = .next v)) ∧
  (∀ (u : Nat) (s : State), histDue s u = true ↔ s.mon.cyc % 2 ^ min 20 (getF s R.MON_HIST_CFG_SPACE u) = 0 ∧ smGet 0 s.mon.histAt u ≠ s.mon.cyc + 1) ∧
  (∀ (u v : Nat) (s : State), u < 8 → flag s R.MON_GCFG_CNT_ENA = true → flag s R.MON_HIST_CFG_ENA u = true → flag s R.MON_HIST_CFG_HOLD u = false →
    getF (histAdd u v s) (histFld u (histBin (getF s R.MON_HIST_BASE_BASE u) v)) =
      min 0xFFFFFFFF (getF s (histFld u (histBin (getF s R.MON_HIST_BASE_BASE u) v)) + 1) ∧
    getF (histAdd u v s) R.MON_HIST_MAX_MAX u = max (getF s R.MON_HIST_MAX_MAX u) (min 0xFFFFFFFF v)) ∧
  (∀ (req : Requester) (u val : Nat) (s : State), u < 8 → reaches req (0xF0400 + 0x80 * u) 0 s →
    exec (.histClear req u val) s = .next (writeHistCfg u val s.begin)) ∧
  (∀ (u b : Nat) (s : State), b < 16 → getF (histClear u s) (histFld u b) = 0)

/-- CANARY_MEASURE keeps the reading where its divisors are not 0, VALID only with APLL0 locked, a record and a plausible
value, and raises CAN_RANGE for one that is not plausible. MARGIN_PLAN of the running firmware with AUTO, PLAN_S after the
plan before, makes a new plan where every site has temperature and slack, and otherwise holds it; requests follow in both
cases. AVS_READBACK_CHECK of a change of the target, in PMBus mode, without acknowledge or linear format, or 10 ms later more
than 5 mV off, raises AVS_FAULT and holds the plan where plans are made. A write of MON_AVS sets MODE and, with AUTO 0, the
code clamped to its range. AGEING_LOG_SHORT, once LOG_S is over, and AGEING_LOG_LONG, 2,160 hours after the latest entry,
write an entry of 16 words with its CRC behind the head of its ring, after as many slots as failed read-back, with
LOG_WRITE_FAIL; the short one then fits the oscillator correction. -/
def Obligations.CanariesMarginPlanAndAgeingLogAct : Prop :=
  (∀ (i : Nat) (a b c d : Int) (s : State), flag s R.MON_CAN_CFG_ENA = true → i < 32 →
    ∃ u, exec (.canaryMeasure i a b c d) s = .next u ∧
      (canDivides (i % 4) b c d = true → getF u R.MON_CAN_VAL_VALUE i = toU 20 (canReading (i % 4) a b c d).1 % 2 ^ 20) ∧
      flag u R.MON_CAN_VAL_VALID i = (apllLocked s 0 && s.sys.recOk && (canReading (i % 4) a b c d).2) ∧
      (apllLocked s 0 = true → s.sys.recOk = true → (canReading (i % 4) a b c d).2 = false → getF u R.MON_EVENT_CAN_RANGE = 1)) ∧
  ((canReading 0 (1000 : Int) 2 (16777216 * 600) 0).1 = (16777216 * 600 - 1000 * 16777216 / 2) * 1000000 / (16777216 * 600) ∧
    (∀ a b c d : Int, d ≠ 0 → c ≠ 0 → (canReading 2 a b c d).1 = a + b * c / d) ∧ (∀ a b c d : Int, (canReading 3 a b c d).1 = a * b - c)) ∧
  (∀ (s u : State), plans s = true → planTime s = true → u = { s.begin with mon := { s.mon with planAt := copyNow s islMCU } } →
    ((∀ k, k < 8 → (canVal s k 2).isSome = true ∧ (canVal s k 3).isSome = true) → exec .marginPlan s = .next (planRequests (planOutputs u))) ∧
    (∀ k, k < 8 → canVal s k 2 = none ∨ canVal s k 3 = none →
      exec .marginPlan s = .next (planRequests (raise R.MON_EVENT_PLAN_HELD (setF R.MON_PLAN_HELD 1 u))))) ∧
  (∀ (s : State), planTime s = true ↔ s.mon.planAt + (zeroAs 1 (getF s R.MON_PLAN_CFG2_PLAN_S) : Int) * unitS ≤ copyNow s islMCU) ∧
  (∀ (s : State) (v : Nat), getF s R.MON_AVS_CODE_MIN ≤ getF s R.MON_AVS_CODE_MAX →
    getF s R.MON_AVS_CODE_MIN ≤ clampCode s v ∧ clampCode s v ≤ getF s R.MON_AVS_CODE_MAX ∧
    (getF s R.MON_AVS_CODE_MIN ≤ v → v ≤ getF s R.MON_AVS_CODE_MAX → clampCode s v = v)) ∧
  (∀ (r : AvsReply) (uv : Nat) (t : Int) (s v : State), flag s R.MON_AVS_MODE = true → islUp s islMCU = true → s.mon.avsAt = some t →
    (r.ack = false ∨ r.linear = false ∨ t + 10000000 * unitNs ≤ copyNow s islMCU) →
    v = emit (.pmbus 0x8B 0) { s.begin with mon := { s.mon with avsAt := none } } →
    (r.ack = true → r.linear = true → ((uv : Int) - (600000 + 2500 * (getF s R.MON_AVS_CODE : Int))).natAbs ≤ 5000 → exec (.avsReadbackCheck r uv) s = .next v) ∧
    (r.ack = false ∨ r.linear = false ∨ 5000 < ((uv : Int) - (600000 + 2500 * (getF s R.MON_AVS_CODE : Int))).natAbs →
      (plans s = true → exec (.avsReadbackCheck r uv) s =
        .next (raise R.MON_EVENT_PLAN_HELD (setF R.MON_PLAN_HELD 1 (raise R.MON_EVENT_AVS_FAULT v)))) ∧
      (plans s = false → exec (.avsReadbackCheck r uv) s = .next (raise R.MON_EVENT_AVS_FAULT v)))) ∧
  (∀ (req : Requester) (val : Nat) (s : State), reaches req 0xF0910 0 s →
    exec (.avsCodeWrite req val) s = .next (writeAvs val s.begin)) ∧
  (∀ (val : Nat) (s : State), flag (writeAvs val s) R.MON_AVS_MODE = bitOf val 31 ∧
    (flag s R.MON_PLAN_CFG_AUTO = true → getF (writeAvs val s) R.MON_AVS_CODE = getF s R.MON_AVS_CODE) ∧
    (flag s R.MON_PLAN_CFG_AUTO = false → getF (writeAvs val s) R.MON_AVS_CODE = clampCode s (val % 256) % 256)) ∧
  (∀ (hours fails word : Nat) (s : State), islUp s islMCU = true → flag s R.FWT_STATUS_MGMT_RUN = true →
    (logTime s = true → exec (.ageingLogShort hours fails word) s = .next (xoFit (writeLog false hours fails word s.begin))) ∧
    (longHours s + 2160 ≤ hours → exec (.ageingLogLong hours fails word) s = .next (writeLog true hours fails word s.begin))) ∧
  (∀ (s : State), logTime s = true ↔ s.mon.logAt + ((min 86400 (max 60 (getF s R.MON_LOG_CFG_LOG_S)) : Nat) : Int) * unitS ≤ copyNow s islMCU) ∧
  (∀ (long : Bool) (hours fails word : Nat) (s : State), ∃ e u k, logWords long hours s = (e, u) ∧ e.length = 16 ∧
    e.getD 15 0 = crc32 (wordOctets (e.take 15)) ∧ e.getD 4 0 = hours % 2 ^ 32 ∧
    k = (match logHead u long with | some h => (h + 1) % logLen long | none => 0) ∧
    logEntry (writeLog long hours fails word s) (logBase long + (k + fails) % logLen long) = e ∧
    (1 ≤ fails → getF (writeLog long hours fails word s) R.MON_EVENT_LOG_WRITE_FAIL = 1))

/-- With a positive divisor d and the remainder of R179 give num back exactly. A modulator cycle takes the fraction of d, a
carry of the remainder accumulator and the dither, and loses nothing of the remainder; its three stages are 48-bit
accumulators, its shift register takes one step from its state or its seed, and without dither the modulus lies within the
integer part of d, -3 to +4. That the stages add without delay, and how many cycles fall in a cycle of the Last clock, is the
model's reading (notes/assumptions/138.md). LAST_INCREMENT while TIME runs brings DCO0 to its modulator cycle on every fourth
cycle of the Last clock, with the word in force after it. -/
def Obligations.DcoModulatorsKeepTheExactMeanRatio : Prop :=
  (∀ (s : State) (k : Nat), 0 < dcoRatioDiv s k →
    (dcoWord s k).1 * dcoRatioDiv s k + (dcoWord s k).2 = dcoRatioNum s k ∧ 0 ≤ (dcoWord s k).2 ∧
      (dcoWord s k).2 < dcoRatioDiv s k) ∧
  (∀ (d rem div dith : Int) (m : DcoMod), 0 ≤ rem → rem < div → ∃ x r, modIn d rem div dith m = (x, r) ∧ (r : Int) < div ∧
    (x - dith - d % 281474976710656) * div + r = (m.racc : Int) % div + rem) ∧
  (∀ (d rem div : Int) (dither : Bool) (seed : Nat) (m n : DcoMod), n = modCycle d rem div dither seed m →
    n.lfsr = some (lfsrStep (m.lfsr.getD (lfsrSeed seed))) ∧ n.bit = lfsrStep (m.lfsr.getD (lfsrSeed seed)) % 2 ∧
    n.a1 < 281474976710656 ∧ n.a2 < 281474976710656 ∧ n.a3 < 281474976710656 ∧ n.phase = m.phase ∧
    n.c2 * 281474976710656 + n.a2 = m.a2 + n.a1 ∧ n.c3 * 281474976710656 + n.a3 = m.a3 + n.a2 ∧ n.d3 = m.c3 ∧
    (n.modulus - d / 281474976710656 - (n.c2 - m.c2) - (n.c3 - 2 * m.c3 + m.d3)) * 281474976710656 + n.a1 = m.a1 +
      (modIn d rem div (if dither then (n.bit : Int) - m.bit else 0) m).1) ∧
  (∀ (d rem div : Int) (seed : Nat) (m n : DcoMod), n = modCycle d rem div false seed m →
    m.a1 < 281474976710656 → m.a2 < 281474976710656 → m.a3 < 281474976710656 → m.c2 ≤ 1 → m.c3 ≤ 1 → m.d3 ≤ 1 →
    n.c2 ≤ 1 ∧ n.c3 ≤ 1 ∧ n.d3 ≤ 1 ∧ d / 281474976710656 - 3 ≤ n.modulus ∧ n.modulus ≤ d / 281474976710656 + 4) ∧
  (∀ s : State, timRuns s = true → ∃ t p, exec .lastIncrement s = .next t ∧
    p = (dcoMod s 0).phase + 156250000 * 281474976710656 ∧
    (p < 625000000 * 281474976710656 → dcoMod t 0 = { dcoMod s 0 with phase := p }) ∧
    (625000000 * 281474976710656 ≤ p → 0 < dcoRatioDiv t 0 → dcoMod t 0 = modCycle (dcoWord t 0).1 (dcoWord t 0).2
      (dcoRatioDiv t 0) (flag t R.SYN_DCO_CFG_DITHER 0) (getF t R.SYN_DCO_CFG_SEED 0)
      { dcoMod s 0 with phase := (p - 625000000 * 281474976710656) % (625000000 * 281474976710656) }))
end

