-- ==== Sys2Proof/Laws/Map.lean ====
section
/-!
SUPPORT. Sys2Proof/Laws/Map.lean: the laws of sparse tables: read after write, and that every operation keeps the
canonical form.
-/
namespace Sys2Proof.Machine

variable {α : Type}

@[simp] theorem smGet_nil (d : α) (k : Nat) : smGet d [] k = d := rfl

theorem smGet_smIns_same (d : α) (m : SMap α) (k : Nat) (v : α) : smGet d (smIns k v m) k = v := by
  induction m with
  | nil => simp [smIns, smGet]
  | cons p m ih =>
    obtain ⟨j, u⟩ := p
    unfold smIns
    split
    · simp [smGet]
    · split
      · simp [smGet]
      · rename_i h; simp [smGet, h, ih]

theorem smGet_smIns_other (d : α) (m : SMap α) (k j : Nat) (v : α) (h : j ≠ k) :
    smGet d (smIns k v m) j = smGet d m j := by
  induction m with
  | nil => simp [smIns, smGet, h]
  | cons p m ih =>
    obtain ⟨i, u⟩ := p
    unfold smIns
    split
    · simp [smGet, h]
    · split
      · rename_i hk; subst hk; simp [smGet, h]
      · simp [smGet, ih]

theorem smGet_smDel_same (d : α) (m : SMap α) (k : Nat) : smGet d (smDel k m) k = d := by
  induction m with
  | nil => rfl
  | cons p m ih =>
    obtain ⟨j, u⟩ := p
    by_cases h : j = k
    · subst h; simpa [smDel] using ih
    · have h' : k ≠ j := fun e => h e.symm
      simp only [smDel, List.filter_cons] at ih ⊢
      simp [h, smGet, h']
      simpa using ih

theorem smGet_smDel_other (d : α) (m : SMap α) (k j : Nat) (h : j ≠ k) :
    smGet d (smDel k m) j = smGet d m j := by
  induction m with
  | nil => rfl
  | cons p m ih =>
    obtain ⟨i, u⟩ := p
    by_cases hi : i = k
    · subst hi; simp only [smDel, List.filter_cons] at ih ⊢
      simp [smGet, h]; simpa using ih
    · simp only [smDel, List.filter_cons] at ih ⊢
      simp [hi, smGet]
      split
      · rfl
      · simpa using ih

/-- Reading a key after writing it gives the value written. -/
@[simp] theorem smGet_smPut_same [DecidableEq α] (d : α) (m : SMap α) (k : Nat) (v : α) :
    smGet d (smPut d m k v) k = v := by
  unfold smPut
  split
  · rename_i h; subst h; exact smGet_smDel_same _ _ _
  · exact smGet_smIns_same _ _ _ _

/-- A write leaves every other key alone. -/
theorem smGet_smPut_other [DecidableEq α] (d d' : α) (m : SMap α) (k j : Nat) (v : α) (h : j ≠ k) :
    smGet d (smPut d' m k v) j = smGet d m j := by
  unfold smPut
  split
  · exact smGet_smDel_other _ _ _ _ h
  · exact smGet_smIns_other _ _ _ _ _ h

theorem smRising_iff (m : SMap α) : smRising m = true ↔ m.Pairwise (fun a b => a.1 < b.1) := by
  induction m with
  | nil => simp [smRising]
  | cons p m ih =>
    cases m with
    | nil => simp [smRising]
    | cons q m =>
      simp only [smRising, Bool.and_eq_true, decide_eq_true_eq, ih, List.pairwise_cons]
      constructor
      · rintro ⟨h1, h2, h3⟩
        refine ⟨?_, h2, h3⟩
        intro a ha
        rcases List.mem_cons.1 ha with rfl | ha
        · exact h1
        · exact Nat.lt_trans h1 (h2 a ha)
      · rintro ⟨h1, h2, h3⟩
        exact ⟨h1 q (by simp), h2, h3⟩

theorem mem_smIns (m : SMap α) (k : Nat) (v : α) (p : Nat × α) (h : p ∈ smIns k v m) : p = (k, v) ∨ p ∈ m := by
  induction m with
  | nil => simpa [smIns] using h
  | cons q m ih =>
    obtain ⟨j, u⟩ := q
    unfold smIns at h
    split at h
    · simpa using h
    · split at h
      · rcases List.mem_cons.1 h with h | h
        · exact .inl h
        · exact .inr (List.mem_cons_of_mem _ h)
      · rcases List.mem_cons.1 h with h | h
        · exact .inr (by simp [h])
        · rcases ih h with h | h
          · exact .inl h
          · exact .inr (List.mem_cons_of_mem _ h)

theorem smRising_smIns (m : SMap α) (k : Nat) (v : α) (h : smRising m = true) : smRising (smIns k v m) = true := by
  rw [smRising_iff] at h ⊢
  induction m with
  | nil => simp [smIns]
  | cons p m ih =>
    obtain ⟨j, u⟩ := p
    rw [List.pairwise_cons] at h
    unfold smIns
    split
    · rename_i hk
      refine List.pairwise_cons.2 ⟨?_, List.pairwise_cons.2 h⟩
      intro a ha
      rcases List.mem_cons.1 ha with rfl | ha
      · exact hk
      · exact Nat.lt_trans hk (h.1 a ha)
    · split
      · rename_i hk; subst hk; exact List.pairwise_cons.2 h
      · refine List.pairwise_cons.2 ⟨?_, ih h.2⟩
        intro a ha
        rcases mem_smIns m k v a ha with rfl | ha
        · simp; omega
        · exact h.1 a ha

/-- Writing a key keeps the canonical form. -/
theorem smWf_smPut [DecidableEq α] (d : Nat → α) (m : SMap α) (k : Nat) (v : α) (h : smWf d m = true) :
    smWf d (smPut (d k) m k v) = true := by
  simp only [smWf, Bool.and_eq_true, List.all_eq_true, decide_eq_true_eq] at h ⊢
  unfold smPut
  split
  · refine ⟨?_, fun p hp => h.2 p ((List.mem_filter.1 hp).1)⟩
    rw [smRising_iff] at h ⊢
    exact h.1.filter _
  · rename_i hv
    refine ⟨smRising_smIns m k v h.1, fun p hp => ?_⟩
    rcases mem_smIns m k v p hp with rfl | hp
    · exact hv
    · exact h.2 p hp

/-- Dropping entries keeps the canonical form. -/
theorem smWf_smKeep [DecidableEq α] (d : Nat → α) (m : SMap α) (p : Nat → Bool) (h : smWf d m = true) :
    smWf d (smKeep p m) = true := by
  simp only [smWf, Bool.and_eq_true, List.all_eq_true, decide_eq_true_eq] at h ⊢
  refine ⟨?_, fun q hq => h.2 q ((List.mem_filter.1 hq).1)⟩
  rw [smRising_iff] at h ⊢
  exact h.1.filter _

end Sys2Proof.Machine
end

