-- ==== Sys2Proof/Laws/Keeps.lean ====
section
/-! SUPPORT. What every operation of the block keeps, whatever it does: the queue of waiting commands, the canonical form of
the register file (no entry equal to its reset value), the format of the Last (R41), and every field of the state that the
operation does not write. `Keeps W s0 s` says so of a state `s` reached from `s0` by operations that write the fields of the
mask `W` only; one lemma `keeps_<operation>` for each operation, in the files Keeps<Part>, holds for every `W` that has the
fields this operation writes. -/

namespace Sys2Proof.Machine

/-- The Last is in its format (R41). -/
def Last.ok (l : Last) : Prop := l.sec < 2 ^ 48 ∧ l.ns < 1000000000 ∧ l.frac < 2 ^ 32 ∧ l.res < 5

def lastOk (s : State) : Prop := s.tim.last.ok

/-- The fields of the state (all but the queue) that `t` has as `s` has them, where bit k of `W` is 0: k counts the fields of
`State` in their order, `pending` being 0. -/
structure Same (W : Nat) (s t : State) : Prop where
  regs : W.testBit 1 = false → t.regs = s.regs
  sels : W.testBit 2 = false → t.sels = s.sels
  caps : W.testBit 3 = false → t.caps = s.caps
  staged : W.testBit 4 = false → t.staged = s.staged
  xings : W.testBit 5 = false → t.xings = s.xings
  tim : W.testBit 6 = false → t.tim = s.tim
  ref : W.testBit 7 = false → t.ref = s.ref
  flt : W.testBit 8 = false → t.flt = s.flt
  tallies : W.testBit 9 = false → t.tallies = s.tallies
  calPends : W.testBit 10 = false → t.calPends = s.calPends
  pte : W.testBit 11 = false → t.pte = s.pte
  ing : W.testBit 12 = false → t.ing = s.ing
  buf : W.testBit 13 = false → t.buf = s.buf
  egr : W.testBit 14 = false → t.egr = s.egr
  red : W.testBit 15 = false → t.red = s.red
  mon : W.testBit 16 = false → t.mon = s.mon
  hif : W.testBit 17 = false → t.hif = s.hif
  lnk : W.testBit 18 = false → t.lnk = s.lnk
  syn : W.testBit 19 = false → t.syn = s.syn
  tdc : W.testBit 20 = false → t.tdc = s.tdc
  sys : W.testBit 21 = false → t.sys = s.sys
  outs : W.testBit 22 = false → t.outs = s.outs
  fresh : W.testBit 23 = false → t.fresh = s.fresh

/-- `t` is reached from `s` by operations that write the fields of `W` only. -/
structure Keeps (W : Nat) (s t : State) : Prop where
  queue : t.pending = s.pending
  regs : smWf keyReset s.regs = true → smWf keyReset t.regs = true
  last : lastOk s → lastOk t
  same : Same W s t

structure KeepsOut (W : Nat) (s : State) (o : Host.Outcome State Fault Refusal) : Prop where
  next : ∀ t, o = .next t → Keeps W s t

variable {W : Nat} {s0 s t u : State}

theorem same_refl : Same W s s := by constructor <;> intro _ <;> rfl

theorem same_trans (h : Same W s t) (k : Same W t u) : Same W s u := by
  constructor <;> intro e
  · exact (k.regs e).trans (h.regs e)
  · exact (k.sels e).trans (h.sels e)
  · exact (k.caps e).trans (h.caps e)
  · exact (k.staged e).trans (h.staged e)
  · exact (k.xings e).trans (h.xings e)
  · exact (k.tim e).trans (h.tim e)
  · exact (k.ref e).trans (h.ref e)
  · exact (k.flt e).trans (h.flt e)
  · exact (k.tallies e).trans (h.tallies e)
  · exact (k.calPends e).trans (h.calPends e)
  · exact (k.pte e).trans (h.pte e)
  · exact (k.ing e).trans (h.ing e)
  · exact (k.buf e).trans (h.buf e)
  · exact (k.egr e).trans (h.egr e)
  · exact (k.red e).trans (h.red e)
  · exact (k.mon e).trans (h.mon e)
  · exact (k.hif e).trans (h.hif e)
  · exact (k.lnk e).trans (h.lnk e)
  · exact (k.syn e).trans (h.syn e)
  · exact (k.tdc e).trans (h.tdc e)
  · exact (k.sys e).trans (h.sys e)
  · exact (k.outs e).trans (h.outs e)
  · exact (k.fresh e).trans (h.fresh e)

/-- The fields of mask `a` are among those of mask `W`. -/
def sub (a W : Nat) : Bool := Nat.beq (a &&& W) a

theorem sub_bit {a k : Nat} (hk : a.testBit k = true) (h : sub a W = true) : W.testBit k = true := by
  have e : a &&& W = a := Nat.eq_of_beq_eq_true h
  have := congrArg (fun x => x.testBit k) e
  simp only [Nat.testBit_and, hk] at this
  simpa using this

theorem sub_trans {a b : Nat} (h : sub a b = true) (k : sub b W = true) : sub a W = true := by
  have e : a &&& b = a := Nat.eq_of_beq_eq_true h
  have f : b &&& W = b := Nat.eq_of_beq_eq_true k
  have : a &&& W = a := by rw [← e, Nat.and_assoc, f]
  simp [sub, this]

/-- A field of the mask may have any value. -/
theorem off {a k : Nat} {p : Prop} (hk : a.testBit k = true) (h : sub a W = true) (e : W.testBit k = false) : p := by
  rw [sub_bit hk h] at e; cases e

theorem keeps_refl : Keeps W s s := ⟨rfl, id, id, same_refl⟩

/-- The state of a pair is kept. -/
def KeepsP (W : Nat) {α : Type} (s : State) (x : α × State) : Prop := Keeps W s x.2

/-- The state of a triple is kept. -/
def KeepsP2 (W : Nat) {α β : Type} (s : State) (x : α × β × State) : Prop := Keeps W s x.2.2

theorem keepsP_mk {α : Type} {a : α} (h : Keeps W s0 s) : KeepsP W s0 (a, s) := h

theorem keepsP2_mk {α β : Type} {a : α} {b : β} (h : Keeps W s0 s) : KeepsP2 W s0 (a, b, s) := h

theorem keeps_pair {α : Type} {x : α × State} {a : α} (e : x = (a, t)) (h : KeepsP W s0 x) : Keeps W s0 t := by subst e; exact h

theorem keeps_pair2 {α β : Type} {x : α × β × State} {a : α} {b : β} (e : x = (a, b, t)) (h : KeepsP2 W s0 x) :
    Keeps W s0 t := by
  subst e; exact h

theorem keeps_snd {α : Type} {x : α × State} (h : KeepsP W s0 x) : Keeps W s0 x.2 := h

theorem keeps_snd2 {α β : Type} {x : α × β × State} (h : KeepsP2 W s0 x) : Keeps W s0 x.2.2 := h

theorem keeps_foldl {α : Type} {l : List α} {f : State → α → State} (h : Keeps W s0 s)
    (hf : ∀ t x, Keeps W s0 t → Keeps W s0 (f t x)) : Keeps W s0 (l.foldl f s) := by
  induction l generalizing s with
  | nil => exact h
  | cons a l ih => exact ih (hf _ _ h)

theorem keeps_step (h : Keeps W s0 s) (hp : t.pending = s.pending) (hr : smWf keyReset s.regs = true → smWf keyReset t.regs = true)
    (hl : lastOk s → lastOk t) (hs : Same W s t) : Keeps W s0 t :=
  ⟨hp.trans h.queue, fun w => hr (h.regs w), fun w => hl (h.last w), same_trans h.same hs⟩

theorem keeps_up_sels {x} (hk : W.testBit 2 = true) (h : Keeps W s0 s) : Keeps W s0 { s with sels := x } :=
  keeps_step h rfl id id (by constructor <;> first | exact fun _ => rfl | exact fun e => by rw [hk] at e; cases e)

theorem keeps_up_caps {x} (hk : W.testBit 3 = true) (h : Keeps W s0 s) : Keeps W s0 { s with caps := x } :=
  keeps_step h rfl id id (by constructor <;> first | exact fun _ => rfl | exact fun e => by rw [hk] at e; cases e)

theorem keeps_up_staged {x} (hk : W.testBit 4 = true) (h : Keeps W s0 s) : Keeps W s0 { s with staged := x } :=
  keeps_step h rfl id id (by constructor <;> first | exact fun _ => rfl | exact fun e => by rw [hk] at e; cases e)

theorem keeps_up_xings {x} (hk : W.testBit 5 = true) (h : Keeps W s0 s) : Keeps W s0 { s with xings := x } :=
  keeps_step h rfl id id (by constructor <;> first | exact fun _ => rfl | exact fun e => by rw [hk] at e; cases e)

theorem keeps_up_tim {x : Tim} (hk : W.testBit 6 = true) (hl : x.last = s.tim.last) (h : Keeps W s0 s) :
    Keeps W s0 { s with tim := x } :=
  keeps_step h rfl id (fun w => by simp only [lastOk, hl] at *; exact w)
    (by constructor <;> first | exact fun _ => rfl | exact fun e => by rw [hk] at e; cases e)

theorem keeps_up_ref {x} (hk : W.testBit 7 = true) (h : Keeps W s0 s) : Keeps W s0 { s with ref := x } :=
  keeps_step h rfl id id (by constructor <;> first | exact fun _ => rfl | exact fun e => by rw [hk] at e; cases e)

theorem keeps_up_flt {x} (hk : W.testBit 8 = true) (h : Keeps W s0 s) : Keeps W s0 { s with flt := x } :=
  keeps_step h rfl id id (by constructor <;> first | exact fun _ => rfl | exact fun e => by rw [hk] at e; cases e)

theorem keeps_up_tallies {x} (hk : W.testBit 9 = true) (h : Keeps W s0 s) : Keeps W s0 { s with tallies := x } :=
  keeps_step h rfl id id (by constructor <;> first | exact fun _ => rfl | exact fun e => by rw [hk] at e; cases e)

theorem keeps_up_calPends {x} (hk : W.testBit 10 = true) (h : Keeps W s0 s) : Keeps W s0 { s with calPends := x } :=
  keeps_step h rfl id id (by constructor <;> first | exact fun _ => rfl | exact fun e => by rw [hk] at e; cases e)

theorem keeps_up_pte {x} (hk : W.testBit 11 = true) (h : Keeps W s0 s) : Keeps W s0 { s with pte := x } :=
  keeps_step h rfl id id (by constructor <;> first | exact fun _ => rfl | exact fun e => by rw [hk] at e; cases e)

theorem keeps_up_ing {x} (hk : W.testBit 12 = true) (h : Keeps W s0 s) : Keeps W s0 { s with ing := x } :=
  keeps_step h rfl id id (by constructor <;> first | exact fun _ => rfl | exact fun e => by rw [hk] at e; cases e)

theorem keeps_up_buf {x} (hk : W.testBit 13 = true) (h : Keeps W s0 s) : Keeps W s0 { s with buf := x } :=
  keeps_step h rfl id id (by constructor <;> first | exact fun _ => rfl | exact fun e => by rw [hk] at e; cases e)

theorem keeps_up_egr {x} (hk : W.testBit 14 = true) (h : Keeps W s0 s) : Keeps W s0 { s with egr := x } :=
  keeps_step h rfl id id (by constructor <;> first | exact fun _ => rfl | exact fun e => by rw [hk] at e; cases e)

theorem keeps_up_red {x} (hk : W.testBit 15 = true) (h : Keeps W s0 s) : Keeps W s0 { s with red := x } :=
  keeps_step h rfl id id (by constructor <;> first | exact fun _ => rfl | exact fun e => by rw [hk] at e; cases e)

theorem keeps_up_mon {x} (hk : W.testBit 16 = true) (h : Keeps W s0 s) : Keeps W s0 { s with mon := x } :=
  keeps_step h rfl id id (by constructor <;> first | exact fun _ => rfl | exact fun e => by rw [hk] at e; cases e)

theorem keeps_up_hif {x} (hk : W.testBit 17 = true) (h : Keeps W s0 s) : Keeps W s0 { s with hif := x } :=
  keeps_step h rfl id id (by constructor <;> first | exact fun _ => rfl | exact fun e => by rw [hk] at e; cases e)

theorem keeps_up_lnk {x} (hk : W.testBit 18 = true) (h : Keeps W s0 s) : Keeps W s0 { s with lnk := x } :=
  keeps_step h rfl id id (by constructor <;> first | exact fun _ => rfl | exact fun e => by rw [hk] at e; cases e)

theorem keeps_up_syn {x} (hk : W.testBit 19 = true) (h : Keeps W s0 s) : Keeps W s0 { s with syn := x } :=
  keeps_step h rfl id id (by constructor <;> first | exact fun _ => rfl | exact fun e => by rw [hk] at e; cases e)

theorem keeps_up_tdc {x} (hk : W.testBit 20 = true) (h : Keeps W s0 s) : Keeps W s0 { s with tdc := x } :=
  keeps_step h rfl id id (by constructor <;> first | exact fun _ => rfl | exact fun e => by rw [hk] at e; cases e)

theorem keeps_up_sys {x} (hk : W.testBit 21 = true) (h : Keeps W s0 s) : Keeps W s0 { s with sys := x } :=
  keeps_step h rfl id id (by constructor <;> first | exact fun _ => rfl | exact fun e => by rw [hk] at e; cases e)

theorem keeps_up_outs {x} (hk : W.testBit 22 = true) (h : Keeps W s0 s) : Keeps W s0 { s with outs := x } :=
  keeps_step h rfl id id (by constructor <;> first | exact fun _ => rfl | exact fun e => by rw [hk] at e; cases e)

theorem keeps_up_fresh {x} (hk : W.testBit 23 = true) (h : Keeps W s0 s) : Keeps W s0 { s with fresh := x } :=
  keeps_step h rfl id id (by constructor <;> first | exact fun _ => rfl | exact fun e => by rw [hk] at e; cases e)

theorem keeps_mk {f0 f1 f2 f3 f4 f5 f6 f7 f8 f9 f10 f11 f12 f13 f14 f15 f16 f17 f18 f19 f20 f21 f22 f23} (h : Keeps W s0 s)
    (hp : f0 = s.pending) (hr : f1 = s.regs) (hl : f6.last = s.tim.last)
    (hs : Same W s (State.mk f0 f1 f2 f3 f4 f5 f6 f7 f8 f9 f10 f11 f12 f13 f14 f15 f16 f17 f18 f19 f20 f21 f22 f23)) :
    Keeps W s0 (State.mk f0 f1 f2 f3 f4 f5 f6 f7 f8 f9 f10 f11 f12 f13 f14 f15 f16 f17 f18 f19 f20 f21 f22 f23) :=
  keeps_step h hp (by subst hr; exact id) (fun w => by simp only [lastOk, hl] at *; exact w) hs

theorem keeps_mkKeep {p : Nat → Bool} {f0 f1 f2 f3 f4 f5 f6 f7 f8 f9 f10 f11 f12 f13 f14 f15 f16 f17 f18 f19 f20 f21 f22 f23}
    (h : Keeps W s0 s) (hp : f0 = s.pending) (hr : f1 = smKeep p s.regs) (hl : f6.last = s.tim.last)
    (hs : Same W s (State.mk f0 f1 f2 f3 f4 f5 f6 f7 f8 f9 f10 f11 f12 f13 f14 f15 f16 f17 f18 f19 f20 f21 f22 f23)) :
    Keeps W s0 (State.mk f0 f1 f2 f3 f4 f5 f6 f7 f8 f9 f10 f11 f12 f13 f14 f15 f16 f17 f18 f19 f20 f21 f22 f23) :=
  keeps_step h hp (by subst hr; exact smWf_smKeep _ _ _) (fun w => by simp only [lastOk, hl] at *; exact w) hs

theorem keeps_mkLast {f0 f1 f2 f3 f4 f5 f6 f7 f8 f9 f10 f11 f12 f13 f14 f15 f16 f17 f18 f19 f20 f21 f22 f23} (h : Keeps W s0 s)
    (hp : f0 = s.pending) (hr : f1 = s.regs) (hl : lastOk s → f6.last.ok)
    (hs : Same W s (State.mk f0 f1 f2 f3 f4 f5 f6 f7 f8 f9 f10 f11 f12 f13 f14 f15 f16 f17 f18 f19 f20 f21 f22 f23)) :
    Keeps W s0 (State.mk f0 f1 f2 f3 f4 f5 f6 f7 f8 f9 f10 f11 f12 f13 f14 f15 f16 f17 f18 f19 f20 f21 f22 f23) :=
  keeps_step h hp (by subst hr; exact id) hl hs

theorem keeps_cut {P : Prop} (h : Keeps W s0 s) (k : Keeps W s0 s → P) : P := k h

theorem keeps_id (h : Keeps W s0 s) : Keeps W s0 (id s) := h

theorem keepsP_foldl {α β : Type} {l : List α} {x : β × State} {f : β × State → α → β × State} (h : KeepsP W s0 x)
    (hf : ∀ x a, KeepsP W s0 x → KeepsP W s0 (f x a)) : KeepsP W s0 (l.foldl f x) := by
  induction l generalizing x with
  | nil => exact h
  | cons a l ih => exact ih (hf _ _ h)

theorem keeps_ite {c : Prop} [Decidable c] {a b : State} (h : Keeps W s0 a) (k : Keeps W s0 b) : Keeps W s0 (if c then a else b) := by
  split <;> assumption

theorem keepsP_ite {α : Type} {c : Prop} [Decidable c] {a b : α × State} (h : KeepsP W s0 a) (k : KeepsP W s0 b) :
    KeepsP W s0 (if c then a else b) := by split <;> assumption

theorem keepsP2_ite {α β : Type} {c : Prop} [Decidable c] {a b : α × β × State} (h : KeepsP2 W s0 a) (k : KeepsP2 W s0 b) :
    KeepsP2 W s0 (if c then a else b) := by split <;> assumption

theorem keepsOut_ite {c : Prop} [Decidable c] {a b : Host.Outcome State Fault Refusal} (h : KeepsOut W s0 a) (k : KeepsOut W s0 b) :
    KeepsOut W s0 (if c then a else b) := by split <;> assumption

theorem ok_zero : (⟨0, 0, 0, 0⟩ : Last).ok := by unfold Last.ok; decide

theorem ok_ofUnits {u : Int} {r : Nat} (h : r < 5) : (Last.ofUnits u r).ok := by
  have hu : 0 ≤ u % (281474976710656 * secUnits) := Int.emod_nonneg _ (by decide)
  have hl : u % (281474976710656 * secUnits) < 281474976710656 * secUnits := Int.emod_lt_of_pos _ (by decide)
  simp only [secUnits] at hu hl
  simp only [Last.ok, Last.ofUnits, secUnits]
  omega

theorem ok_tick {l : Last} (h : l.ok) : l.tick.ok := by
  obtain ⟨-, -, -, h⟩ := h
  simp only [Last.tick]
  exact ok_ofUnits (by split <;> omega)

end Sys2Proof.Machine
end

