-- ==== Sys2Proof/Laws/KeepsBase.lean ====
section
/-! SUPPORT. The shared operations, the Last and the reference inputs: what each operation keeps (Keeps.lean). -/

namespace Sys2Proof.Machine

variable {W : Nat} {s0 s t : State}

theorem keeps_setF {f v i} (hW : sub 2 W = true) (h : Keeps W s0 s) : Keeps W s0 (setF f v s i) :=
  ⟨h.queue, fun w => smWf_smPut keyReset _ _ _ (h.regs w), h.last,
    same_trans h.same (by constructor <;> first | exact off rfl hW | exact fun _ => rfl)⟩

theorem keeps_setFlag {a1 a2 a4} (hW : sub 2 W = true) (h : Keeps W s0 s) : Keeps W s0 (@setFlag a1 a2 s a4) := by
  unfold setFlag
  repeat' first
    | with_reducible assumption | with_reducible apply keeps_setF

theorem keeps_setWS {a1 a2 a3 a5} (hW : sub 2 W = true) (h : Keeps W s0 s) : Keeps W s0 (@setWS a1 a2 a3 s a5) := by
  unfold setWS
  repeat' first
    | with_reducible assumption | with_reducible apply keeps_setF

theorem keeps_bump {a1 a3 a4} (hW : sub 2 W = true) (h : Keeps W s0 s) : Keeps W s0 (@bump a1 s a3 a4) := by
  unfold bump
  repeat' first
    | with_reducible assumption | with_reducible apply keeps_setF

theorem keeps_setT96 {a1 a2 a3 a5} (hW : sub 2 W = true) (h : Keeps W s0 s) : Keeps W s0 (@setT96 a1 a2 a3 s a5) := by
  unfold setT96
  repeat' first
    | with_reducible assumption | with_reducible apply keeps_setF

theorem keeps_setPeriod {a1 a2 a3 a5} (hW : sub 2 W = true) (h : Keeps W s0 s) : Keeps W s0 (@setPeriod a1 a2 a3 s a5) := by
  unfold setPeriod
  repeat' first
    | with_reducible assumption | with_reducible apply keeps_setF

theorem keeps_setCopy {a1 a2} (hW : sub 64 W = true) (h : Keeps W s0 s) : Keeps W s0 (@setCopy a1 a2 s) := by
  unfold setCopy
  repeat' first
    | with_reducible assumption | with_reducible refine keeps_up_tim (sub_bit rfl hW) rfl ?_

theorem keeps_raiseAt {a1 a2 a3 a4} (hW : sub 258 W = true) (h : Keeps W s0 s) : Keeps W s0 (@raiseAt a1 a2 a3 a4 s) := by
  unfold raiseAt
  repeat' first
    | with_reducible assumption | exact sub_trans rfl hW | with_reducible apply keeps_setF | with_reducible apply keeps_ite
    | with_reducible refine keeps_up_flt (sub_bit rfl hW) ?_

theorem keeps_raise {a1 a3 a4} (hW : sub 258 W = true) (h : Keeps W s0 s) : Keeps W s0 (@raise a1 s a3 a4) := by
  unfold raise
  repeat' first
    | with_reducible assumption | with_reducible apply keeps_raiseAt

theorem keeps_raiseFault {a1 a2 a3 a4 a5} (hW : sub 258 W = true) (h : Keeps W s0 s) : Keeps W s0 (@raiseFault a1 a2 a3 a4 a5 s) := by
  unfold raiseFault
  repeat' first
    | with_reducible assumption | with_reducible apply keeps_raiseAt | with_reducible refine keeps_up_flt (sub_bit rfl hW) ?_

theorem keeps_noteTemp {a1 a2} (hW : sub 65536 W = true) (h : Keeps W s0 s) : Keeps W s0 (@noteTemp a1 a2 s) := by
  unfold noteTemp
  repeat' first
    | with_reducible assumption | with_reducible refine keeps_up_mon (sub_bit rfl hW) ?_

theorem keeps_drawInt (hW : sub 8388608 W = true) (h : Keeps W s0 s) : KeepsP W s0 (@drawInt s) := by
  unfold drawInt
  repeat' first
    | with_reducible assumption | with_reducible apply keepsP_mk | with_reducible refine keeps_up_fresh (sub_bit rfl hW) ?_

theorem keeps_drawWithin {a1} (hW : sub 8388608 W = true) (h : Keeps W s0 s) : KeepsP W s0 (@drawWithin a1 s) := by
  unfold drawWithin
  repeat' first
    | with_reducible assumption | with_reducible apply keeps_drawInt | split | with_reducible apply keepsP_mk
    | with_reducible refine keeps_pair (by assumption) ?_

theorem keeps_copyStart {a1} (hW : sub 8388672 W = true) (h : Keeps W s0 s) : Keeps W s0 (@copyStart a1 s) := by
  unfold copyStart
  repeat' first
    | with_reducible assumption | exact sub_trans rfl hW
    | with_reducible refine keeps_snd (keeps_drawWithin (sub_trans rfl hW) ?_) | with_reducible apply keeps_setCopy

theorem keeps_copyStop {a1} (hW : sub 64 W = true) (h : Keeps W s0 s) : Keeps W s0 (@copyStop a1 s) := by
  unfold copyStop
  repeat' first
    | with_reducible assumption | with_reducible apply keeps_setCopy

theorem keeps_emit {a1} (hW : sub 4194304 W = true) (h : Keeps W s0 s) : Keeps W s0 (@emit a1 s) := by
  unfold emit
  repeat' first
    | with_reducible assumption | with_reducible refine keeps_up_outs (sub_bit rfl hW) ?_

theorem keeps_State_begin (hW : sub 4194304 W = true) (h : Keeps W s0 s) : Keeps W s0 (@State.begin s) := by
  unfold State.begin
  repeat' first
    | with_reducible assumption | with_reducible refine keeps_up_outs (sub_bit rfl hW) ?_

theorem keeps_whenS {a1 a2} (hW : sub 0 W = true) (h : Keeps W s0 s) (h2 : ∀ t, Keeps W s0 t → Keeps W s0 (a2 t)) : Keeps W s0 (@whenS a1 a2 s) := by
  unfold whenS
  repeat' first
    | with_reducible assumption | with_reducible apply h2 | with_reducible apply keeps_ite

theorem keeps_ran (hW : sub 0 W = true) (h : Keeps W s0 s) : KeepsOut W s0 (ran s) := by
  constructor
  intro t e
  cases e
  exact h

theorem keeps_hangFault {a1 a2} (hW : sub 258 W = true) (h : Keeps W s0 s) : Keeps W s0 (@hangFault a1 a2 s) := by
  unfold hangFault
  repeat' first
    | with_reducible assumption | with_reducible apply keeps_raiseFault

theorem keeps_gateEvent {a1 a2 a3} (hW : sub 258 W = true) (h : Keeps W s0 s) : Keeps W s0 (@gateEvent a1 a2 a3 s) := by
  unfold gateEvent
  repeat' first
    | with_reducible assumption | with_reducible apply keeps_hangFault | with_reducible apply keeps_raise
    | with_reducible apply keeps_ite | split

theorem keeps_writeAt {a1 a2 a3} (hW : sub 258 W = true) (h : Keeps W s0 s) (h3 : ∀ x0 t, Keeps W s0 t → Keeps W s0 (a3 x0 t)) : Keeps W s0 (@writeAt a1 a2 a3 s) := by
  unfold writeAt
  repeat' first
    | with_reducible assumption | with_reducible apply h3 | with_reducible apply keeps_gateEvent
    | with_reducible apply keeps_foldl | split | intro _

theorem keeps_stageWord {a1 a2 a3 a5} (hW : sub 16 W = true) (h : Keeps W s0 s) : Keeps W s0 (@stageWord a1 a2 a3 s a5) := by
  unfold stageWord
  repeat' first
    | with_reducible assumption | with_reducible refine keeps_up_staged (sub_bit rfl hW) ?_

theorem keeps_timeWrite {a1 a2 a3 a4} (hW : sub 258 W = true) (h : Keeps W s0 s) (h4 : ∀ x0 x1 t, Keeps W s0 t → Keeps W s0 (a4 x0 x1 t)) : Keeps W s0 (@timeWrite a1 a2 a3 a4 s) := by
  unfold timeWrite
  repeat' first
    | with_reducible assumption | with_reducible apply h4 | with_reducible apply keeps_writeAt
    | with_reducible apply keeps_raise | with_reducible apply keeps_ite | intro _

theorem keeps_setTdcCh {a1 a2} (hW : sub 1048576 W = true) (h : Keeps W s0 s) : Keeps W s0 (@setTdcCh a1 a2 s) := by
  unfold setTdcCh
  repeat' first
    | with_reducible assumption | with_reducible refine keeps_up_tdc (sub_bit rfl hW) ?_

theorem keeps_takeAdj {a1} (hW : sub 1048578 W = true) (h : Keeps W s0 s) : Keeps W s0 (@takeAdj a1 s) := by
  unfold takeAdj
  repeat' first
    | with_reducible assumption | exact sub_trans rfl hW | with_reducible apply keeps_setF | split
    | with_reducible refine keeps_up_tdc (sub_bit rfl hW) ?_

theorem keeps_adjFor {a1} (hW : sub 1048578 W = true) (h : Keeps W s0 s) : Keeps W s0 (@adjFor a1 s) := by
  unfold adjFor
  repeat' first
    | with_reducible assumption | with_reducible apply keeps_takeAdj | split

theorem keeps_restartDivider {a1} (hW : sub 1048576 W = true) (h : Keeps W s0 s) : Keeps W s0 (@restartDivider a1 s) := by
  unfold restartDivider
  repeat' first
    | with_reducible assumption | with_reducible apply keeps_setTdcCh | split
    | with_reducible refine keeps_up_tdc (sub_bit rfl hW) ?_

theorem keeps_setDpll {a1 a2} (hW : sub 128 W = true) (h : Keeps W s0 s) : Keeps W s0 (@setDpll a1 a2 s) := by
  unfold setDpll
  repeat' first
    | with_reducible assumption | with_reducible refine keeps_up_ref (sub_bit rfl hW) ?_

theorem keeps_setCand {a1 a2} (hW : sub 128 W = true) (h : Keeps W s0 s) : Keeps W s0 (@setCand a1 a2 s) := by
  unfold setCand
  repeat' first
    | with_reducible assumption | with_reducible refine keeps_up_ref (sub_bit rfl hW) ?_

theorem keeps_wideCheck (hW : sub 258 W = true) (h : Keeps W s0 s) : Keeps W s0 (@wideCheck s) := by
  unfold wideCheck
  repeat' first
    | with_reducible assumption | exact sub_trans rfl hW | with_reducible apply keeps_whenS | with_reducible apply keeps_raise
    | with_reducible apply keeps_setFlag | intro _

theorem keeps_rateCheck (hW : sub 258 W = true) (h : Keeps W s0 s) : Keeps W s0 (@rateCheck s) := by
  unfold rateCheck
  repeat' first
    | with_reducible assumption | exact sub_trans rfl hW | with_reducible apply keeps_wideCheck
    | with_reducible apply keeps_whenS | with_reducible apply keeps_raise | intro _

theorem keeps_rateAged {a1} (hW : sub 258 W = true) (h : Keeps W s0 s) : Keeps W s0 (@rateAged a1 s) := by
  unfold rateAged
  repeat' first
    | with_reducible assumption | exact sub_trans rfl hW | with_reducible apply keeps_wideCheck
    | with_reducible apply keeps_whenS | with_reducible apply keeps_raise | intro _

theorem keeps_addSlew {a1} (hW : sub 322 W = true) (h : Keeps W s0 s) : Keeps W s0 (@addSlew a1 s) := by
  unfold addSlew
  repeat' first
    | with_reducible assumption | exact sub_trans rfl hW | with_reducible apply keeps_rateCheck
    | with_reducible apply keeps_whenS | with_reducible apply keeps_raise
    | with_reducible refine keeps_up_tim (sub_bit rfl hW) rfl ?_ | intro _

theorem keeps_requestStep {a1 a2 a3 a4} (hW : sub 322 W = true) (h : Keeps W s0 s) : Keeps W s0 (@requestStep a1 a2 a3 a4 s) := by
  unfold requestStep
  repeat' first
    | with_reducible assumption | exact sub_trans rfl hW | with_reducible apply keeps_whenS | with_reducible apply keeps_raise
    | with_reducible apply keeps_ite | with_reducible refine keeps_up_tim (sub_bit rfl hW) rfl ?_ | intro _

theorem keeps_setDom {a1 a2} (hW : sub 64 W = true) (h : Keeps W s0 s) : Keeps W s0 (@setDom a1 a2 s) := by
  unfold setDom
  repeat' first
    | with_reducible assumption | with_reducible apply keeps_ite | with_reducible refine keeps_up_tim (sub_bit rfl hW) rfl ?_

theorem keeps_weltCheck (hW : sub 322 W = true) (h : Keeps W s0 s) : Keeps W s0 (@weltCheck s) := by
  unfold weltCheck
  repeat' first
    | with_reducible assumption | exact sub_trans rfl hW | with_reducible apply keeps_raise | with_reducible apply keeps_ite
    | with_reducible refine keeps_up_tim (sub_bit rfl hW) rfl ?_

theorem keeps_weltUninit (hW : sub 322 W = true) (h : Keeps W s0 s) : Keeps W s0 (@weltUninit s) := by
  unfold weltUninit
  repeat' first
    | with_reducible assumption | with_reducible apply keeps_weltCheck
    | with_reducible refine keeps_up_tim (sub_bit rfl hW) rfl ?_

theorem keeps_freshCheck {a1} (hW : sub 322 W = true) (h : Keeps W s0 s) : Keeps W s0 (@freshCheck a1 s) := by
  unfold freshCheck
  repeat' first
    | with_reducible assumption | exact sub_trans rfl hW | with_reducible apply keeps_setDom | with_reducible apply keeps_whenS
    | with_reducible apply keeps_raise | intro _

theorem keeps_weltSettings (hW : sub 322 W = true) (h : Keeps W s0 s) : Keeps W s0 (@weltSettings s) := by
  unfold weltSettings
  repeat' first
    | with_reducible assumption | with_reducible apply keeps_freshCheck | with_reducible apply keeps_weltUninit
    | with_reducible apply keeps_weltCheck | with_reducible apply keeps_ite

theorem keeps_weltUpdate {a1} (hW : sub 64 W = true) (h : Keeps W s0 s) : Keeps W s0 (@weltUpdate a1 s) := by
  unfold weltUpdate
  repeat' first
    | with_reducible assumption | with_reducible apply keeps_ite | with_reducible refine keeps_up_tim (sub_bit rfl hW) rfl ?_

theorem keeps_domReqSync (hW : sub 2 W = true) (h : Keeps W s0 s) : Keeps W s0 (@domReqSync s) := by
  unfold domReqSync
  repeat' first
    | with_reducible assumption | with_reducible apply keeps_setFlag

theorem keeps_applySwitch {a1} (hW : sub 322 W = true) (h : Keeps W s0 s) : Keeps W s0 (@applySwitch a1 s) := by
  unfold applySwitch
  repeat' first
    | with_reducible assumption | exact sub_trans rfl hW | with_reducible apply keeps_domReqSync
    | with_reducible apply keeps_raise | split | with_reducible refine keeps_up_tim (sub_bit rfl hW) rfl ?_

theorem keeps_refuseSwitch (hW : sub 258 W = true) (h : Keeps W s0 s) : Keeps W s0 (@refuseSwitch s) := by
  unfold refuseSwitch
  repeat' first
    | with_reducible assumption | exact sub_trans rfl hW | with_reducible apply keeps_domReqSync
    | with_reducible apply keeps_raise

theorem keeps_tdcTick (hW : sub 1048576 W = true) (h : Keeps W s0 s) : Keeps W s0 (@tdcTick s) := by
  unfold tdcTick
  repeat' first
    | with_reducible assumption | with_reducible apply keeps_ite | with_reducible refine keeps_up_tdc (sub_bit rfl hW) ?_

theorem keeps_setCandState {a1 a2} (hW : sub 2 W = true) (h : Keeps W s0 s) : Keeps W s0 (@setCandState a1 a2 s) := by
  unfold setCandState
  repeat' first
    | with_reducible assumption | with_reducible apply keeps_setF

theorem keeps_candFail {a1 a2} (hW : sub 386 W = true) (h : Keeps W s0 s) : Keeps W s0 (@candFail a1 a2 s) := by
  unfold candFail
  repeat' first
    | with_reducible assumption | exact sub_trans rfl hW | with_reducible apply keeps_setCandState
    | with_reducible apply keeps_setCand | with_reducible apply keeps_raise | with_reducible apply keeps_setF
    | with_reducible apply keeps_ite

theorem keeps_resolveSel {d n a} (hW : sub 322 W = true) (h : Keeps W s0 s) : KeepsP2 W s0 (resolveSel d n a s) := by
  induction n generalizing a s with
  | zero => exact h
  | succ n ih =>
    unfold resolveSel
    split
    · exact h
    · split
      · split
        · exact ih (keeps_refuseSwitch (sub_trans rfl hW) h)
        · exact keeps_applySwitch (sub_trans rfl hW) h
      · exact h

theorem keeps_setSel {a1 a2} (hW : sub 258 W = true) (h : Keeps W s0 s) : Keeps W s0 (@setSel a1 a2 s) := by
  unfold setSel
  repeat' first
    | with_reducible assumption | exact sub_trans rfl hW | with_reducible apply keeps_whenS | with_reducible apply keeps_raise
    | with_reducible apply keeps_setF | split | intro _

theorem keeps_setDpllState {a1 a2} (hW : sub 386 W = true) (h : Keeps W s0 s) : Keeps W s0 (@setDpllState a1 a2 s) := by
  unfold setDpllState
  repeat' first
    | with_reducible assumption | exact sub_trans rfl hW | with_reducible apply keeps_setDpll
    | with_reducible apply keeps_raise | with_reducible apply keeps_setF | with_reducible apply keeps_ite

theorem keeps_enterAcquiring {a1 a2} (hW : sub 386 W = true) (h : Keeps W s0 s) : Keeps W s0 (@enterAcquiring a1 a2 s) := by
  unfold enterAcquiring
  repeat' first
    | with_reducible assumption | exact sub_trans rfl hW | with_reducible apply keeps_setDpllState
    | with_reducible apply keeps_setDpll

theorem keeps_enterHoldover {a1} (hW : sub 386 W = true) (h : Keeps W s0 s) : Keeps W s0 (@enterHoldover a1 s) := by
  unfold enterHoldover
  repeat' first
    | with_reducible assumption | exact sub_trans rfl hW | with_reducible apply keeps_setDpllState
    | with_reducible apply keeps_setDpll | with_reducible apply keeps_raise

theorem keeps_reloadHoldover {a1} (hW : sub 386 W = true) (h : Keeps W s0 s) : Keeps W s0 (@reloadHoldover a1 s) := by
  unfold reloadHoldover
  repeat' first
    | with_reducible assumption | exact sub_trans rfl hW | with_reducible apply keeps_setDpllState
    | with_reducible apply keeps_setDpll | with_reducible apply keeps_setF

theorem keeps_hitless {a1 a2} (hW : sub 128 W = true) (h : Keeps W s0 s) : Keeps W s0 (@hitless a1 a2 s) := by
  unfold hitless
  repeat' first
    | with_reducible assumption | with_reducible apply keeps_setDpll

theorem keeps_dpllEval {a1} (hW : sub 450 W = true) (h : Keeps W s0 s) : Keeps W s0 (@dpllEval a1 s) := by
  unfold dpllEval
  repeat' first
    | with_reducible assumption | exact sub_trans rfl hW | with_reducible apply keeps_hitless
    | with_reducible apply keeps_reloadHoldover | with_reducible apply keeps_enterHoldover
    | with_reducible apply keeps_enterAcquiring | with_reducible apply keeps_setDpllState | with_reducible apply keeps_setSel
    | with_reducible apply keeps_resolveSel | with_reducible apply keeps_setDpll | with_reducible apply keeps_ite | split
    | with_reducible refine keeps_pair2 (by assumption) ?_

theorem keeps_noteSteady (hW : sub 128 W = true) (h : Keeps W s0 s) : Keeps W s0 (@noteSteady s) := by
  unfold noteSteady
  repeat' first
    | with_reducible assumption | with_reducible refine keeps_up_ref (sub_bit rfl hW) ?_

theorem keeps_bwCheck {a1} (hW : sub 258 W = true) (h : Keeps W s0 s) : Keeps W s0 (@bwCheck a1 s) := by
  unfold bwCheck
  repeat' first
    | with_reducible assumption | exact sub_trans rfl hW | with_reducible apply keeps_raise
    | with_reducible apply keeps_setFlag | with_reducible apply keeps_setF | with_reducible apply keeps_ite

theorem keeps_bwCheckAll (hW : sub 258 W = true) (h : Keeps W s0 s) : Keeps W s0 (@bwCheckAll s) := by
  unfold bwCheckAll
  repeat' first
    | with_reducible assumption | with_reducible apply keeps_bwCheck

theorem keeps_selectAll (hW : sub 450 W = true) (h : Keeps W s0 s) : Keeps W s0 (@selectAll s) := by
  unfold selectAll
  repeat' first
    | with_reducible assumption | exact sub_trans rfl hW | with_reducible apply keeps_bwCheckAll
    | with_reducible apply keeps_dpllEval | with_reducible apply keeps_rateCheck

theorem keeps_holdDomain {a1} (hW : sub 450 W = true) (h : Keeps W s0 s) : Keeps W s0 (@holdDomain a1 s) := by
  unfold holdDomain
  repeat' first
    | with_reducible assumption | exact sub_trans rfl hW | with_reducible apply keeps_hitless
    | with_reducible apply keeps_enterAcquiring | with_reducible apply keeps_setSel | with_reducible apply keeps_ite | split
    | with_reducible refine keeps_up_tim (sub_bit rfl hW) rfl ?_

theorem keeps_softSwitch {a1} (hW : sub 450 W = true) (h : Keeps W s0 s) : Keeps W s0 (@softSwitch a1 s) := by
  unfold softSwitch
  repeat' first
    | with_reducible assumption | exact sub_trans rfl hW | with_reducible apply keeps_holdDomain
    | with_reducible apply keeps_refuseSwitch | with_reducible apply keeps_applySwitch | with_reducible apply keeps_ite

theorem keeps_holdCheck (hW : sub 64 W = true) (h : Keeps W s0 s) : Keeps W s0 (@holdCheck s) := by
  unfold holdCheck
  repeat' first
    | with_reducible assumption | with_reducible apply keeps_ite | with_reducible refine keeps_up_tim (sub_bit rfl hW) rfl ?_

theorem keeps_forceCheck {a1} (hW : sub 386 W = true) (h : Keeps W s0 s) : Keeps W s0 (@forceCheck a1 s) := by
  unfold forceCheck
  repeat' first
    | with_reducible assumption | exact sub_trans rfl hW | with_reducible apply keeps_setDpll
    | with_reducible apply keeps_raise | with_reducible apply keeps_ite

theorem keeps_reselect (hW : sub 450 W = true) (h : Keeps W s0 s) : Keeps W s0 (@reselect s) := by
  unfold reselect
  repeat' first
    | with_reducible assumption | exact sub_trans rfl hW | with_reducible apply keeps_forceCheck
    | with_reducible apply keeps_holdCheck | with_reducible apply keeps_selectAll

theorem keeps_dpllSample {a1 a2} (hW : sub 386 W = true) (h : Keeps W s0 s) : Keeps W s0 (@dpllSample a1 a2 s) := by
  unfold dpllSample
  repeat' first
    | with_reducible assumption | exact sub_trans rfl hW | with_reducible apply keeps_setDpll
    | with_reducible apply keeps_raise | with_reducible apply keeps_ite

theorem keeps_lockTest {a1 a2} (hW : sub 386 W = true) (h : Keeps W s0 s) : Keeps W s0 (@lockTest a1 a2 s) := by
  unfold lockTest
  repeat' first
    | with_reducible assumption | exact sub_trans rfl hW | with_reducible apply keeps_setDpllState
    | with_reducible apply keeps_setDpll | with_reducible apply keeps_setF | with_reducible apply keeps_ite

theorem keeps_loopUpdate {a1} (hW : sub 386 W = true) (h : Keeps W s0 s) : Keeps W s0 (@loopUpdate a1 s) := by
  unfold loopUpdate
  repeat' first
    | with_reducible assumption | exact sub_trans rfl hW | with_reducible apply keeps_lockTest
    | with_reducible apply keeps_bwCheck | with_reducible apply keeps_rateCheck | with_reducible apply keeps_setDpll
    | with_reducible apply keeps_ite

theorem keeps_switchUpdate (hW : sub 450 W = true) (h : Keeps W s0 s) : Keeps W s0 (@switchUpdate s) := by
  unfold switchUpdate
  repeat' first
    | with_reducible assumption | exact sub_trans rfl hW | with_reducible apply keeps_loopUpdate
    | with_reducible apply keeps_dpllSample | with_reducible apply keeps_ite
    | with_reducible refine keeps_up_tim (sub_bit rfl hW) rfl ?_

theorem keeps_putWord {a1 a2 a4} (hW : sub 2 W = true) (h : Keeps W s0 s) : Keeps W s0 (@putWord a1 a2 s a4) := by
  unfold putWord
  repeat' first
    | with_reducible assumption | with_reducible apply keeps_setF | with_reducible apply keeps_foldl | intro _

theorem keeps_softWord {a1 a2 a4} (hW : sub 2 W = true) (h : Keeps W s0 s) : Keeps W s0 (@softWord a1 a2 s a4) := by
  unfold softWord
  repeat' first
    | with_reducible assumption | with_reducible apply keeps_setF | with_reducible apply keeps_foldl | split | intro _

theorem keeps_readWith {a1 a2 a3} (hW : sub 4194562 W = true) (h : Keeps W s0 s) (h3 : ∀ x0 t, Keeps W s0 t → KeepsP W s0 (a3 x0 t)) : Keeps W s0 (@readWith a1 a2 a3 s) := by
  unfold readWith
  repeat' first
    | with_reducible assumption | intro _ | lift_lets | with_reducible refine keeps_snd (h3 _ _ ?_) | exact sub_trans rfl hW
    | with_reducible apply keeps_gateEvent | with_reducible apply keeps_emit | split | intro _

end Sys2Proof.Machine
end

