-- ==== Sys2Proof/Laws/KeepsRef.lean ====
section
/-! SUPPORT. The reference inputs, the sources and the servo (spec/04): what each operation keeps (Keeps.lean). -/

namespace Sys2Proof.Machine

variable {W : Nat} {s0 s t : State}

theorem keeps_candSample {a1 a2 a3} (hW : sub 386 W = true) (h : Keeps W s0 s) : Keeps W s0 (@candSample a1 a2 a3 s) := by
  unfold candSample
  repeat' first
    | with_reducible assumption | intro _ | lift_lets | exact sub_trans rfl hW | with_reducible apply keeps_dpllSample
    | with_reducible apply keeps_setCandState | with_reducible apply keeps_setCand | with_reducible apply keeps_setF
    | with_reducible apply keeps_foldl | with_reducible apply keeps_ite | intro _

theorem keeps_execCandidatePhaseSample {a1 a2 a3} (hW : sub 5243266 W = true) (h : Keeps W s0 s) : KeepsOut W s0 (@execCandidatePhaseSample a1 a2 a3 s) := by
  unfold execCandidatePhaseSample
  repeat' first
    | with_reducible assumption | exact sub_trans rfl hW | with_reducible apply keeps_candSample
    | with_reducible apply keeps_adjFor | with_reducible apply keeps_ran | with_reducible apply keeps_whenS
    | with_reducible apply keeps_State_begin | with_reducible apply keeps_ite | intro _

theorem keeps_execCandidateActivityLoss {a1} (hW : sub 5243330 W = true) (h : Keeps W s0 s) : KeepsOut W s0 (@execCandidateActivityLoss a1 s) := by
  unfold execCandidateActivityLoss
  repeat' first
    | with_reducible assumption | exact sub_trans rfl hW | with_reducible apply keeps_reselect
    | with_reducible apply keeps_candFail | with_reducible apply keeps_restartDivider | with_reducible apply keeps_ran
    | with_reducible apply keeps_whenS | with_reducible apply keeps_State_begin | with_reducible apply keeps_ite | intro _

theorem keeps_activityCheck (hW : sub 450 W = true) (h : Keeps W s0 s) : Keeps W s0 (@activityCheck s) := by
  unfold activityCheck
  repeat' first
    | with_reducible assumption | intro _ | lift_lets | exact sub_trans rfl hW | with_reducible apply keeps_reselect
    | with_reducible apply keeps_candFail | with_reducible apply keeps_foldl | with_reducible apply keeps_ite | intro _

theorem keeps_driftMonitor {a1 a2} (hW : sub 386 W = true) (h : Keeps W s0 s) : Keeps W s0 (@driftMonitor a1 a2 s) := by
  unfold driftMonitor
  repeat' first
    | with_reducible assumption | exact sub_trans rfl hW | with_reducible apply keeps_setCand
    | with_reducible apply keeps_raise | with_reducible apply keeps_setF | with_reducible apply keeps_ite | split
    | with_reducible refine keeps_up_ref (sub_bit rfl hW) ?_

theorem keeps_qualify {a1 a2} (hW : sub 386 W = true) (h : Keeps W s0 s) : Keeps W s0 (@qualify a1 a2 s) := by
  unfold qualify
  try simp only []
  repeat' first
    | with_reducible assumption | exact sub_trans rfl hW | with_reducible apply keeps_setCandState
    | with_reducible apply keeps_setCand | with_reducible apply keeps_raise | with_reducible apply keeps_ite | split

theorem keeps_windowClose {a1} (hW : sub 450 W = true) (h : Keeps W s0 s) : Keeps W s0 (@windowClose a1 s) := by
  unfold windowClose
  repeat' first
    | with_reducible assumption | exact sub_trans rfl hW | with_reducible apply keeps_qualify
    | with_reducible apply keeps_driftMonitor | with_reducible apply keeps_reselect | with_reducible apply keeps_setCand
    | with_reducible apply keeps_setF | with_reducible apply keeps_ite | split
    | with_reducible refine keeps_up_tim (sub_bit rfl hW) rfl ?_

theorem keeps_applyPends {a1} (hW : sub 130 W = true) (h : Keeps W s0 s) : Keeps W s0 (@applyPends a1 s) := by
  unfold applyPends
  repeat' first
    | with_reducible assumption | exact sub_trans rfl hW | with_reducible apply keeps_softWord
    | with_reducible apply keeps_setCand | with_reducible apply keeps_foldl | intro _

theorem keeps_windowOpen {a1} (hW : sub 130 W = true) (h : Keeps W s0 s) : Keeps W s0 (@windowOpen a1 s) := by
  unfold windowOpen
  repeat' first
    | with_reducible assumption | exact sub_trans rfl hW | with_reducible apply keeps_applyPends
    | with_reducible apply keeps_setCand

theorem keeps_writeCandMon {a1 a2 a3} (hW : sub 130 W = true) (h : Keeps W s0 s) : Keeps W s0 (@writeCandMon a1 a2 a3 s) := by
  unfold writeCandMon
  repeat' first
    | with_reducible assumption | exact sub_trans rfl hW | with_reducible apply keeps_softWord
    | with_reducible apply keeps_setCand | with_reducible apply keeps_ite

theorem keeps_execFreqWindowClose {a1} (hW : sub 4194754 W = true) (h : Keeps W s0 s) : KeepsOut W s0 (@execFreqWindowClose a1 s) := by
  unfold execFreqWindowClose
  repeat' first
    | with_reducible assumption | exact sub_trans rfl hW | with_reducible apply keeps_windowOpen
    | with_reducible apply keeps_windowClose | with_reducible apply keeps_bwCheckAll | with_reducible apply keeps_ran
    | with_reducible apply keeps_State_begin | with_reducible apply keeps_ite

theorem keeps_execQualifyTimeExpiry {a1} (hW : sub 4194754 W = true) (h : Keeps W s0 s) : KeepsOut W s0 (@execQualifyTimeExpiry a1 s) := by
  unfold execQualifyTimeExpiry
  repeat' first
    | with_reducible assumption | exact sub_trans rfl hW | with_reducible apply keeps_reselect
    | with_reducible apply keeps_setCandState | with_reducible apply keeps_setCand | with_reducible apply keeps_ran
    | with_reducible apply keeps_State_begin | with_reducible apply keeps_raise | with_reducible apply keeps_ite | split

theorem keeps_execWaitToRestoreExpiry {a1} (hW : sub 4194754 W = true) (h : Keeps W s0 s) : KeepsOut W s0 (@execWaitToRestoreExpiry a1 s) := by
  unfold execWaitToRestoreExpiry
  repeat' first
    | with_reducible assumption | exact sub_trans rfl hW | with_reducible apply keeps_bwCheck
    | with_reducible apply keeps_dpllEval | with_reducible apply keeps_rateCheck | with_reducible apply keeps_ran
    | with_reducible apply keeps_State_begin | with_reducible apply keeps_ite

theorem keeps_commitPrio {a1} (hW : sub 2 W = true) (h : Keeps W s0 s) : Keeps W s0 (@commitPrio a1 s) := by
  unfold commitPrio
  repeat' first
    | with_reducible assumption | with_reducible apply keeps_setF | with_reducible apply keeps_foldl | intro _

theorem keeps_writeRefCommit {a1} (hW : sub 450 W = true) (h : Keeps W s0 s) : Keeps W s0 (@writeRefCommit a1 s) := by
  unfold writeRefCommit
  repeat' first
    | with_reducible assumption | exact sub_trans rfl hW | with_reducible apply keeps_commitPrio
    | with_reducible apply keeps_reselect | with_reducible apply keeps_whenS | with_reducible apply keeps_foldl | intro _

theorem keeps_execPrioTableCommit {a1 a2} (hW : sub 4194754 W = true) (h : Keeps W s0 s) : KeepsOut W s0 (@execPrioTableCommit a1 a2 s) := by
  unfold execPrioTableCommit
  repeat' first
    | with_reducible assumption | exact sub_trans rfl hW | with_reducible apply keeps_writeRefCommit
    | with_reducible apply keeps_writeAt | with_reducible apply keeps_ran | with_reducible apply keeps_State_begin | intro _

theorem keeps_writeDpllCfg {a1 a2} (hW : sub 450 W = true) (h : Keeps W s0 s) : Keeps W s0 (@writeDpllCfg a1 a2 s) := by
  unfold writeDpllCfg
  repeat' first
    | with_reducible assumption | exact sub_trans rfl hW | with_reducible apply keeps_reselect
    | with_reducible apply keeps_setF

theorem keeps_execDpllModeWrite {a1 a2 a3} (hW : sub 4194754 W = true) (h : Keeps W s0 s) : KeepsOut W s0 (@execDpllModeWrite a1 a2 a3 s) := by
  unfold execDpllModeWrite
  repeat' first
    | with_reducible assumption | exact sub_trans rfl hW | with_reducible apply keeps_writeDpllCfg
    | with_reducible apply keeps_writeAt | with_reducible apply keeps_ran | with_reducible apply keeps_State_begin | intro _

theorem keeps_dpllRealign {a1} (hW : sub 450 W = true) (h : Keeps W s0 s) : Keeps W s0 (@dpllRealign a1 s) := by
  unfold dpllRealign
  repeat' first
    | with_reducible assumption | exact sub_trans rfl hW | with_reducible apply keeps_requestStep
    | with_reducible apply keeps_setDpll | with_reducible apply keeps_raise | with_reducible apply keeps_ite

theorem keeps_writeDpllCtl {a1 a2} (hW : sub 450 W = true) (h : Keeps W s0 s) : Keeps W s0 (@writeDpllCtl a1 a2 s) := by
  unfold writeDpllCtl
  repeat' first
    | with_reducible assumption | exact sub_trans rfl hW | with_reducible apply keeps_dpllRealign
    | with_reducible apply keeps_reselect | with_reducible apply keeps_whenS | with_reducible apply keeps_setF
    | with_reducible apply keeps_ite | split | with_reducible refine keeps_up_tim (sub_bit rfl hW) rfl ?_ | intro _

theorem keeps_execDpllHoldoverRequest {a1 a2 a3} (hW : sub 4194754 W = true) (h : Keeps W s0 s) : KeepsOut W s0 (@execDpllHoldoverRequest a1 a2 a3 s) := by
  unfold execDpllHoldoverRequest
  repeat' first
    | with_reducible assumption | exact sub_trans rfl hW | with_reducible apply keeps_writeDpllCtl
    | with_reducible apply keeps_writeAt | with_reducible apply keeps_ran | with_reducible apply keeps_State_begin | intro _

theorem keeps_execDpllForce {a1 a2 a3} (hW : sub 4194754 W = true) (h : Keeps W s0 s) : KeepsOut W s0 (@execDpllForce a1 a2 a3 s) := by
  unfold execDpllForce
  repeat' first
    | with_reducible assumption | exact sub_trans rfl hW | with_reducible apply keeps_writeDpllCtl
    | with_reducible apply keeps_writeAt | with_reducible apply keeps_ran | with_reducible apply keeps_State_begin | intro _

theorem keeps_execDpllRealign {a1 a2 a3} (hW : sub 4194754 W = true) (h : Keeps W s0 s) : KeepsOut W s0 (@execDpllRealign a1 a2 a3 s) := by
  unfold execDpllRealign
  repeat' first
    | with_reducible assumption | exact sub_trans rfl hW | with_reducible apply keeps_writeDpllCtl
    | with_reducible apply keeps_writeAt | with_reducible apply keeps_ran | with_reducible apply keeps_State_begin | intro _

theorem keeps_execRealignDone {a1} (hW : sub 4194690 W = true) (h : Keeps W s0 s) : KeepsOut W s0 (@execRealignDone a1 s) := by
  unfold execRealignDone
  repeat' first
    | with_reducible assumption | exact sub_trans rfl hW | with_reducible apply keeps_setDpll | with_reducible apply keeps_ran
    | with_reducible apply keeps_State_begin | with_reducible apply keeps_raise | with_reducible apply keeps_ite

theorem keeps_execDpllLoopUpdate {a1} (hW : sub 4194690 W = true) (h : Keeps W s0 s) : KeepsOut W s0 (@execDpllLoopUpdate a1 s) := by
  unfold execDpllLoopUpdate
  repeat' first
    | with_reducible assumption | exact sub_trans rfl hW | with_reducible apply keeps_loopUpdate
    | with_reducible apply keeps_ran | with_reducible apply keeps_State_begin | with_reducible apply keeps_ite

theorem keeps_execHoldoverAvgUpdate {a1} (hW : sub 4194432 W = true) (h : Keeps W s0 s) : KeepsOut W s0 (@execHoldoverAvgUpdate a1 s) := by
  unfold execHoldoverAvgUpdate
  repeat' first
    | with_reducible assumption | exact sub_trans rfl hW | with_reducible apply keeps_setDpll | with_reducible apply keeps_ran
    | with_reducible apply keeps_State_begin | with_reducible apply keeps_ite

theorem keeps_execHoldoverWUpdate {a1} (hW : sub 4194690 W = true) (h : Keeps W s0 s) : KeepsOut W s0 (@execHoldoverWUpdate a1 s) := by
  unfold execHoldoverWUpdate
  repeat' first
    | with_reducible assumption | exact sub_trans rfl hW | with_reducible apply keeps_rateCheck
    | with_reducible apply keeps_setDpll | with_reducible apply keeps_ran | with_reducible apply keeps_State_begin
    | with_reducible apply keeps_ite

theorem keeps_execHoldoverValid {a1} (hW : sub 4194306 W = true) (h : Keeps W s0 s) : KeepsOut W s0 (@execHoldoverValid a1 s) := by
  unfold execHoldoverValid
  repeat' first
    | with_reducible assumption | exact sub_trans rfl hW | with_reducible apply keeps_ran
    | with_reducible apply keeps_State_begin | with_reducible apply keeps_setF | with_reducible apply keeps_ite

theorem keeps_olApplyFreq {a1 a2} (hW : sub 386 W = true) (h : Keeps W s0 s) : Keeps W s0 (@olApplyFreq a1 a2 s) := by
  unfold olApplyFreq
  repeat' first
    | with_reducible assumption | exact sub_trans rfl hW | with_reducible apply keeps_rateCheck
    | with_reducible apply keeps_setDpll

theorem keeps_olApplyPhase {a1 a2} (hW : sub 450 W = true) (h : Keeps W s0 s) : Keeps W s0 (@olApplyPhase a1 a2 s) := by
  unfold olApplyPhase
  repeat' first
    | with_reducible assumption | exact sub_trans rfl hW | with_reducible apply keeps_addSlew
    | with_reducible apply keeps_setDpll | with_reducible apply keeps_ite

theorem keeps_olFreq {a1 a2} (hW : sub 386 W = true) (h : Keeps W s0 s) : Keeps W s0 (@olFreq a1 a2 s) := by
  unfold olFreq
  repeat' first
    | with_reducible assumption | exact sub_trans rfl hW | with_reducible apply keeps_olApplyFreq
    | with_reducible apply keeps_setDpll | with_reducible apply keeps_raise | with_reducible apply keeps_ite

theorem keeps_olPhase {a1 a2} (hW : sub 450 W = true) (h : Keeps W s0 s) : Keeps W s0 (@olPhase a1 a2 s) := by
  unfold olPhase
  repeat' first
    | with_reducible assumption | exact sub_trans rfl hW | with_reducible apply keeps_olApplyPhase
    | with_reducible apply keeps_setDpll | with_reducible apply keeps_raise | with_reducible apply keeps_ite | split

theorem keeps_execOlFreqWrite {a1 a2 a3} (hW : sub 4194690 W = true) (h : Keeps W s0 s) : KeepsOut W s0 (@execOlFreqWrite a1 a2 a3 s) := by
  unfold execOlFreqWrite
  repeat' first
    | with_reducible assumption | exact sub_trans rfl hW | with_reducible apply keeps_olFreq
    | with_reducible apply keeps_writeAt | with_reducible apply keeps_ran | with_reducible apply keeps_State_begin | intro _

theorem keeps_execOlPhaseWrite {a1 a2 a3} (hW : sub 4194754 W = true) (h : Keeps W s0 s) : KeepsOut W s0 (@execOlPhaseWrite a1 a2 a3 s) := by
  unfold execOlPhaseWrite
  repeat' first
    | with_reducible assumption | exact sub_trans rfl hW | with_reducible apply keeps_olPhase
    | with_reducible apply keeps_writeAt | with_reducible apply keeps_ran | with_reducible apply keeps_State_begin | intro _

theorem keeps_execOlWriteApply {a1 a2} (hW : sub 4194754 W = true) (h : Keeps W s0 s) : KeepsOut W s0 (@execOlWriteApply a1 a2 s) := by
  unfold execOlWriteApply
  repeat' first
    | with_reducible assumption | exact sub_trans rfl hW | with_reducible apply keeps_olApplyPhase
    | with_reducible apply keeps_olApplyFreq | with_reducible apply keeps_ran | with_reducible apply keeps_State_begin
    | with_reducible apply keeps_ite | split

theorem keeps_execHostPhaseWrite {a1 a2} (hW : sub 4194690 W = true) (h : Keeps W s0 s) : KeepsOut W s0 (@execHostPhaseWrite a1 a2 s) := by
  unfold execHostPhaseWrite
  repeat' first
    | with_reducible assumption | exact sub_trans rfl hW | with_reducible apply keeps_candSample
    | with_reducible apply keeps_writeAt | with_reducible apply keeps_ran | with_reducible apply keeps_State_begin | intro _

theorem keeps_writeXoCorr {a1} (hW : sub 386 W = true) (h : Keeps W s0 s) : Keeps W s0 (@writeXoCorr a1 s) := by
  unfold writeXoCorr
  repeat' first
    | with_reducible assumption | exact sub_trans rfl hW | with_reducible apply keeps_rateCheck
    | with_reducible apply keeps_setF | with_reducible refine keeps_up_ref (sub_bit rfl hW) ?_

theorem keeps_execXoCorrWrite {a1 a2} (hW : sub 4194690 W = true) (h : Keeps W s0 s) : KeepsOut W s0 (@execXoCorrWrite a1 a2 s) := by
  unfold execXoCorrWrite
  repeat' first
    | with_reducible assumption | exact sub_trans rfl hW | with_reducible apply keeps_writeXoCorr
    | with_reducible apply keeps_writeAt | with_reducible apply keeps_ran | with_reducible apply keeps_State_begin | intro _

theorem keeps_warmUpdate (hW : sub 258 W = true) (h : Keeps W s0 s) : Keeps W s0 (@warmUpdate s) := by
  unfold warmUpdate
  repeat' first
    | with_reducible assumption | exact sub_trans rfl hW | with_reducible apply keeps_raise
    | with_reducible apply keeps_setFlag | with_reducible apply keeps_ite

theorem keeps_stabilitySample {a1} (hW : sub 386 W = true) (h : Keeps W s0 s) : Keeps W s0 (@stabilitySample a1 s) := by
  unfold stabilitySample
  repeat' first
    | with_reducible assumption | exact sub_trans rfl hW | with_reducible apply keeps_warmUpdate
    | with_reducible apply keeps_setFlag | with_reducible apply keeps_setF | with_reducible apply keeps_ite | split
    | with_reducible refine keeps_up_ref (sub_bit rfl hW) ?_

theorem keeps_execXoStabilitySample {a1} (hW : sub 4194690 W = true) (h : Keeps W s0 s) : KeepsOut W s0 (@execXoStabilitySample a1 s) := by
  unfold execXoStabilitySample
  repeat' first
    | with_reducible assumption | exact sub_trans rfl hW | with_reducible apply keeps_stabilitySample
    | with_reducible apply keeps_ran | with_reducible apply keeps_State_begin | with_reducible apply keeps_ite

theorem keeps_pinUpdate (hW : sub 258 W = true) (h : Keeps W s0 s) : Keeps W s0 (@pinUpdate s) := by
  unfold pinUpdate
  repeat' first
    | with_reducible assumption | exact sub_trans rfl hW | with_reducible apply keeps_warmUpdate
    | with_reducible apply keeps_setFlag | with_reducible apply keeps_ite

theorem keeps_execOcxoWarmPin {a1} (hW : sub 6291714 W = true) (h : Keeps W s0 s) : KeepsOut W s0 (@execOcxoWarmPin a1 s) := by
  unfold execOcxoWarmPin
  repeat' first
    | with_reducible assumption | exact sub_trans rfl hW | with_reducible apply keeps_pinUpdate
    | with_reducible apply keeps_ran | with_reducible apply keeps_State_begin
    | with_reducible refine keeps_up_sys (sub_bit rfl hW) ?_

theorem keeps_candCfgTest {a1} (hW : sub 386 W = true) (h : Keeps W s0 s) : Keeps W s0 (@candCfgTest a1 s) := by
  unfold candCfgTest
  repeat' first
    | with_reducible assumption | exact sub_trans rfl hW | with_reducible apply keeps_setCand
    | with_reducible apply keeps_raise | with_reducible apply keeps_ite

theorem keeps_writeCandCfg {a1 a2} (hW : sub 450 W = true) (h : Keeps W s0 s) : Keeps W s0 (@writeCandCfg a1 a2 s) := by
  unfold writeCandCfg
  repeat' first
    | with_reducible assumption | exact sub_trans rfl hW | with_reducible apply keeps_candCfgTest
    | with_reducible apply keeps_applyPends | with_reducible apply keeps_reselect | with_reducible apply keeps_candFail
    | with_reducible apply keeps_setCand | with_reducible apply keeps_whenS | with_reducible apply keeps_setF
    | with_reducible apply keeps_ite | intro _

theorem keeps_execCandCfgWrite {a1 a2 a3} (hW : sub 4194754 W = true) (h : Keeps W s0 s) : KeepsOut W s0 (@execCandCfgWrite a1 a2 a3 s) := by
  unfold execCandCfgWrite
  repeat' first
    | with_reducible assumption | exact sub_trans rfl hW | with_reducible apply keeps_writeCandCfg
    | with_reducible apply keeps_writeAt | with_reducible apply keeps_ran | with_reducible apply keeps_State_begin | intro _

theorem keeps_writeCandPeriod {a1 a2} (hW : sub 450 W = true) (h : Keeps W s0 s) : Keeps W s0 (@writeCandPeriod a1 a2 s) := by
  unfold writeCandPeriod
  repeat' first
    | with_reducible assumption | exact sub_trans rfl hW | with_reducible apply keeps_candCfgTest
    | with_reducible apply keeps_reselect | with_reducible apply keeps_candFail | with_reducible apply keeps_setCand
    | with_reducible apply keeps_raise | with_reducible apply keeps_setPeriod | with_reducible apply keeps_ite

theorem keeps_execCandPeriodWrite {a1 a2 a3} (hW : sub 4194754 W = true) (h : Keeps W s0 s) : KeepsOut W s0 (@execCandPeriodWrite a1 a2 a3 s) := by
  unfold execCandPeriodWrite
  repeat' first
    | with_reducible assumption | exact sub_trans rfl hW | with_reducible apply keeps_writeCandPeriod
    | with_reducible apply keeps_writeAt | with_reducible apply keeps_ran | with_reducible apply keeps_State_begin | intro _

theorem keeps_bindSynce {a1 a2 a3} (hW : sub 386 W = true) (h : Keeps W s0 s) : Keeps W s0 (@bindSynce a1 a2 a3 s) := by
  unfold bindSynce
  repeat' first
    | with_reducible assumption | exact sub_trans rfl hW | with_reducible apply keeps_candFail
    | with_reducible apply keeps_whenS | with_reducible apply keeps_raise | with_reducible apply keeps_setF
    | with_reducible apply keeps_ite | intro _

theorem keeps_writeSynceBind {a1} (hW : sub 450 W = true) (h : Keeps W s0 s) : Keeps W s0 (@writeSynceBind a1 s) := by
  unfold writeSynceBind
  repeat' first
    | with_reducible assumption | exact sub_trans rfl hW | with_reducible apply keeps_bindSynce
    | with_reducible apply keeps_reselect | with_reducible apply keeps_foldl | intro _

theorem keeps_execSynceBindWrite {a1 a2} (hW : sub 4194754 W = true) (h : Keeps W s0 s) : KeepsOut W s0 (@execSynceBindWrite a1 a2 s) := by
  unfold execSynceBindWrite
  repeat' first
    | with_reducible assumption | exact sub_trans rfl hW | with_reducible apply keeps_writeSynceBind
    | with_reducible apply keeps_writeAt | with_reducible apply keeps_ran | with_reducible apply keeps_State_begin | intro _

end Sys2Proof.Machine
end

