-- ==== Sys2Proof/Laws/KeepsShared.lean ====
section
/-! SUPPORT. The timestamps, the monitors, the error words and the packet buffer: what each operation keeps (Keeps.lean). -/

namespace Sys2Proof.Machine

variable {W : Nat} {s0 s t : State}

theorem keeps_setTally {a1 a2} (hW : sub 512 W = true) (h : Keeps W s0 s) : Keeps W s0 (@setTally a1 a2 s) := by
  unfold setTally
  repeat' first
    | with_reducible assumption | with_reducible refine keeps_up_tallies (sub_bit rfl hW) ?_

theorem keeps_tallyInvalid {a1} (hW : sub 962 W = true) (h : Keeps W s0 s) : Keeps W s0 (@tallyInvalid a1 s) := by
  unfold tallyInvalid
  repeat' first
    | with_reducible assumption | exact sub_trans rfl hW | with_reducible apply keeps_setTally
    | with_reducible apply keeps_activityCheck | with_reducible apply keeps_setF

theorem keeps_tallyPost {a1 a2 a3} (hW : sub 962 W = true) (h : Keeps W s0 s) : Keeps W s0 (@tallyPost a1 a2 a3 s) := by
  unfold tallyPost
  repeat' first
    | with_reducible assumption | intro _ | lift_lets | exact sub_trans rfl hW | with_reducible apply keeps_setTally
    | with_reducible apply keeps_activityCheck | with_reducible apply keeps_setCand | with_reducible apply keeps_whenS
    | with_reducible apply keeps_raise | with_reducible apply keeps_bump | with_reducible apply keeps_setFlag
    | with_reducible apply keeps_setF | with_reducible apply keeps_foldl | with_reducible apply keeps_ite | intro _

theorem keeps_setRepl {a1 a2} (hW : sub 262144 W = true) (h : Keeps W s0 s) : Keeps W s0 (@setRepl a1 a2 s) := by
  unfold setRepl
  repeat' first
    | with_reducible assumption | with_reducible refine keeps_up_lnk (sub_bit rfl hW) ?_

theorem keeps_loadReplica {a1} (hW : sub 8650752 W = true) (h : Keeps W s0 s) : Keeps W s0 (@loadReplica a1 s) := by
  unfold loadReplica
  repeat' first
    | with_reducible assumption | exact sub_trans rfl hW | with_reducible apply keeps_setRepl
    | with_reducible refine keeps_snd (keeps_drawInt (sub_trans rfl hW) ?_)

theorem keeps_loadQuad {a1} (hW : sub 8650754 W = true) (h : Keeps W s0 s) : Keeps W s0 (@loadQuad a1 s) := by
  unfold loadQuad
  repeat' first
    | with_reducible assumption | exact sub_trans rfl hW | with_reducible apply keeps_loadReplica
    | with_reducible apply keeps_setRepl | with_reducible apply keeps_whenS
    | with_reducible refine keeps_snd (keeps_drawInt (sub_trans rfl hW) ?_) | with_reducible apply keeps_setF | intro _

theorem keeps_freeReload {a1} (hW : sub 8650752 W = true) (h : Keeps W s0 s) : Keeps W s0 (@freeReload a1 s) := by
  unfold freeReload
  repeat' first
    | with_reducible assumption | exact sub_trans rfl hW | with_reducible apply keeps_setRepl
    | with_reducible refine keeps_snd (keeps_drawInt (sub_trans rfl hW) ?_) | with_reducible apply keeps_ite

theorem keeps_setRecord {a1 a2 a3} (hW : sub 2 W = true) (h : Keeps W s0 s) : Keeps W s0 (@setRecord a1 a2 a3 s) := by
  unfold setRecord
  repeat' first
    | with_reducible assumption | with_reducible apply keeps_setF | with_reducible apply keeps_foldl | intro _

theorem keeps_formRx {a1 a2 a3} (hW : sub 2 W = true) (h : Keeps W s0 s) : KeepsP W s0 (@formRx a1 a2 a3 s) := by
  unfold formRx
  repeat' first
    | with_reducible assumption | with_reducible apply keeps_setRecord | with_reducible apply keeps_bump
    | with_reducible apply keepsP_ite | with_reducible apply keepsP_mk

theorem keeps_setCalPend {a1 a2} (hW : sub 1024 W = true) (h : Keeps W s0 s) : Keeps W s0 (@setCalPend a1 a2 s) := by
  unfold setCalPend
  repeat' first
    | with_reducible assumption | with_reducible refine keeps_up_calPends (sub_bit rfl hW) ?_

theorem keeps_formTx {a1 a2} (hW : sub 2 W = true) (h : Keeps W s0 s) : Keeps W s0 (@formTx a1 a2 s) := by
  unfold formTx
  repeat' first
    | with_reducible assumption | with_reducible apply keeps_setRecord

theorem keeps_calApply {a1 a2} (hW : sub 1538 W = true) (h : Keeps W s0 s) : Keeps W s0 (@calApply a1 a2 s) := by
  unfold calApply
  repeat' first
    | with_reducible assumption | exact sub_trans rfl hW | with_reducible apply keeps_setCalPend
    | with_reducible apply keeps_setTally | with_reducible apply keeps_setF | split
    | with_reducible refine keeps_up_tallies (sub_bit rfl hW) ?_

theorem keeps_tsuMode {a1} (hW : sub 2 W = true) (h : Keeps W s0 s) : Keeps W s0 (@tsuMode a1 s) := by
  unfold tsuMode
  repeat' first
    | with_reducible assumption | with_reducible apply keeps_setFlag | with_reducible apply keeps_setF

theorem keeps_cntAdd {a1 a2 a3} (hW : sub 258 W = true) (h : Keeps W s0 s) : Keeps W s0 (@cntAdd a1 a2 a3 s) := by
  unfold cntAdd
  try simp only []
  repeat' first
    | with_reducible assumption | exact sub_trans rfl hW | with_reducible apply keeps_raiseAt | with_reducible apply keeps_setF
    | with_reducible apply keeps_ite

theorem keeps_monEvent {a1 a2 a3 a4 a5} (hW : sub 258 W = true) (h : Keeps W s0 s) : Keeps W s0 (@monEvent a1 a2 a3 a4 a5 s) := by
  unfold monEvent
  repeat' first
    | with_reducible assumption | intro _ | lift_lets | with_reducible apply keeps_cntAdd | with_reducible apply keeps_foldl
    | with_reducible apply keeps_ite | intro _

theorem keeps_bwAdd {a1 a2 a3} (hW : sub 65536 W = true) (h : Keeps W s0 s) : Keeps W s0 (@bwAdd a1 a2 a3 s) := by
  unfold bwAdd
  repeat' first
    | with_reducible assumption | with_reducible apply keeps_ite | split
    | with_reducible refine keeps_up_mon (sub_bit rfl hW) ?_

theorem keeps_histAdd {a1 a2} (hW : sub 258 W = true) (h : Keeps W s0 s) : Keeps W s0 (@histAdd a1 a2 s) := by
  unfold histAdd
  repeat' first
    | with_reducible assumption | exact sub_trans rfl hW | with_reducible apply keeps_raiseAt | with_reducible apply keeps_bump
    | with_reducible apply keeps_setF | with_reducible apply keeps_ite

theorem keeps_histDelay {a1 a2 a3 a4} (hW : sub 258 W = true) (h : Keeps W s0 s) : Keeps W s0 (@histDelay a1 a2 a3 a4 s) := by
  unfold histDelay
  repeat' first
    | with_reducible assumption | intro _ | lift_lets | with_reducible apply keeps_histAdd | with_reducible apply keeps_foldl
    | with_reducible apply keeps_ite | intro _

theorem keeps_latchAddr {a1 a2 a3 a4 a5} (hW : sub 2 W = true) (h : Keeps W s0 s) : Keeps W s0 (@latchAddr a1 a2 a3 a4 a5 s) := by
  unfold latchAddr
  repeat' first
    | with_reducible assumption | with_reducible apply keeps_setFlag | with_reducible apply keeps_setF
    | with_reducible apply keeps_ite

theorem keeps_correctedRead {a1 a2 a3 a4} (hW : sub 2097410 W = true) (h : Keeps W s0 s) : Keeps W s0 (@correctedRead a1 a2 a3 a4 s) := by
  unfold correctedRead
  repeat' first
    | with_reducible assumption | exact sub_trans rfl hW | with_reducible apply keeps_latchAddr
    | with_reducible apply keeps_raiseAt | with_reducible apply keeps_bump | with_reducible apply keeps_setF
    | with_reducible apply keeps_ite | with_reducible refine keeps_up_sys (sub_bit rfl hW) ?_

theorem keeps_uncorrectable {a1 a2 a3 a4} (hW : sub 258 W = true) (h : Keeps W s0 s) : Keeps W s0 (@uncorrectable a1 a2 a3 a4 s) := by
  unfold uncorrectable
  repeat' first
    | with_reducible assumption | exact sub_trans rfl hW | with_reducible apply keeps_latchAddr
    | with_reducible apply keeps_raiseFault | with_reducible apply keeps_raiseAt | with_reducible apply keeps_bump
    | with_reducible apply keeps_setF | with_reducible apply keeps_ite

theorem keeps_setEcc {a1 a2 a3} (hW : sub 65536 W = true) (h : Keeps W s0 s) : Keeps W s0 (@setEcc a1 a2 a3 s) := by
  unfold setEcc
  repeat' first
    | with_reducible assumption | with_reducible refine keeps_up_mon (sub_bit rfl hW) ?_

theorem keeps_eccRead {a1 a2} (hW : sub 2097410 W = true) (h : Keeps W s0 s) : KeepsP W s0 (@eccRead a1 a2 s) := by
  unfold eccRead
  repeat' first
    | with_reducible assumption | exact sub_trans rfl hW | with_reducible apply keeps_uncorrectable
    | with_reducible apply keeps_correctedRead | split | with_reducible apply keepsP_mk

theorem keeps_fullWrite {a1 a2} (hW : sub 65794 W = true) (h : Keeps W s0 s) : Keeps W s0 (@fullWrite a1 a2 s) := by
  unfold fullWrite
  repeat' first
    | with_reducible assumption | exact sub_trans rfl hW | with_reducible apply keeps_setEcc
    | with_reducible apply keeps_raiseAt | with_reducible apply keeps_setF | with_reducible apply keeps_ite

theorem keeps_eccReadAll {a1 a2 a3} (hW : sub 2097410 W = true) (h : Keeps W s0 s) : KeepsP W s0 (@eccReadAll a1 a2 a3 s) := by
  unfold eccReadAll
  repeat' first
    | with_reducible assumption | with_reducible apply keeps_eccRead | with_reducible apply keepsP_foldl
    | with_reducible refine keeps_snd (by assumption) | split | with_reducible apply keepsP_mk
    | with_reducible refine keeps_pair (by assumption) ?_ | intro _

theorem keeps_eccRepair {a1 a2 a3} (hW : sub 65536 W = true) (h : Keeps W s0 s) : Keeps W s0 (@eccRepair a1 a2 a3 s) := by
  unfold eccRepair
  repeat' first
    | with_reducible assumption | with_reducible apply keeps_setEcc | with_reducible apply keeps_foldl | intro _

theorem keeps_fullWriteAll {a1 a2 a3} (hW : sub 65794 W = true) (h : Keeps W s0 s) : Keeps W s0 (@fullWriteAll a1 a2 a3 s) := by
  unfold fullWriteAll
  repeat' first
    | with_reducible assumption | exact sub_trans rfl hW | with_reducible apply keeps_eccRepair
    | with_reducible apply keeps_fullWrite

theorem keeps_narrowWrite {a1 a2} (hW : sub 2162946 W = true) (h : Keeps W s0 s) : KeepsP W s0 (@narrowWrite a1 a2 s) := by
  unfold narrowWrite
  repeat' first
    | with_reducible assumption | exact sub_trans rfl hW | with_reducible apply keeps_eccRead
    | with_reducible apply keeps_setEcc | split | with_reducible apply keepsP_mk
    | with_reducible refine keeps_pair (by assumption) ?_

theorem keeps_eccClear {a1} (hW : sub 65536 W = true) (h : Keeps W s0 s) : Keeps W s0 (@eccClear a1 s) := by
  unfold eccClear
  repeat' first
    | with_reducible assumption | with_reducible refine keeps_up_mon (sub_bit rfl hW) ?_

theorem keeps_injectSettle (hW : sub 2 W = true) (h : Keeps W s0 s) : Keeps W s0 (@injectSettle s) := by
  unfold injectSettle
  repeat' first
    | with_reducible assumption | exact sub_trans rfl hW | with_reducible apply keeps_whenS | with_reducible apply keeps_setF
    | intro _

theorem keeps_withhold {a1} (hW : sub 258 W = true) (h : Keeps W s0 s) : Keeps W s0 (@withhold a1 s) := by
  unfold withhold
  repeat' first
    | with_reducible assumption | exact sub_trans rfl hW | with_reducible apply keeps_raiseAt | with_reducible apply keeps_setF
    | with_reducible apply keeps_ite

theorem keeps_takeCell {k c} (e : takeCell k s = some (c, t)) (hW : sub 8192 W = true) (h : Keeps W s0 s) : Keeps W s0 t := by
  unfold takeCell at e
  simp only [] at e
  split at e
  · cases e; exact keeps_up_buf (sub_bit rfl hW) h
  · split at e
    · cases e; exact keeps_up_buf (sub_bit rfl hW) h
    · cases e

theorem keeps_setFrame {a1 a2} (hW : sub 8192 W = true) (h : Keeps W s0 s) : Keeps W s0 (@setFrame a1 a2 s) := by
  unfold setFrame
  repeat' first
    | with_reducible assumption | with_reducible refine keeps_up_buf (sub_bit rfl hW) ?_

theorem keeps_returnCell {a2} (hW : sub 8192 W = true) (h : Keeps W s0 s) : Keeps W s0 (@returnCell s a2) := by
  unfold returnCell
  repeat' first
    | with_reducible assumption | with_reducible refine keeps_up_buf (sub_bit rfl hW) ?_

theorem keeps_writeWords {a1 a2 a3} (hW : sub 65794 W = true) (h : Keeps W s0 s) : Keeps W s0 (@writeWords a1 a2 a3 s) := by
  unfold writeWords
  repeat' first
    | with_reducible assumption | with_reducible apply keeps_fullWrite | with_reducible apply keeps_foldl | split
    | with_reducible refine keeps_up_flt (sub_bit rfl hW) ?_ | intro _

theorem keeps_chainCells {f n k} (hW : sub 73986 W = true) (h : Keeps W s0 s) : KeepsP W s0 (chainCells f n k s) := by
  induction n generalizing s k with
  | zero => exact h
  | succ n ih =>
    unfold chainCells
    split
    · rename_i e
      exact ih (keeps_fullWrite (sub_trans rfl hW) (keeps_up_buf (sub_bit rfl hW) (keeps_takeCell e (sub_trans rfl hW) h)))
    · exact h

theorem keeps_storeCells {a1 a2 a3} (hW : sub 8462594 W = true) (h : Keeps W s0 s) : KeepsP W s0 (@storeCells a1 a2 a3 s) := by
  unfold storeCells
  repeat' first
    | with_reducible assumption | exact sub_trans rfl hW
    | with_reducible refine keeps_snd (keeps_chainCells (sub_trans rfl hW) ?_) | with_reducible apply keeps_writeWords
    | with_reducible apply keeps_drawInt | split | with_reducible apply keepsP_mk
    | with_reducible refine keeps_pair (by assumption) ?_

theorem keeps_freeChain {a1} (hW : sub 8192 W = true) (h : Keeps W s0 s) : Keeps W s0 (@freeChain a1 s) := by
  unfold freeChain
  repeat' first
    | with_reducible assumption | with_reducible apply keeps_returnCell | with_reducible apply keeps_foldl
    | with_reducible refine keeps_up_buf (sub_bit rfl hW) ?_ | intro _

theorem keeps_reapFrame {a1} (hW : sub 8192 W = true) (h : Keeps W s0 s) : Keeps W s0 (@reapFrame a1 s) := by
  unfold reapFrame
  repeat' first
    | with_reducible assumption | with_reducible apply keeps_freeChain | with_reducible apply keeps_setFrame
    | with_reducible apply keeps_ite | split

theorem keeps_addFrame {a1} (hW : sub 8192 W = true) (h : Keeps W s0 s) : Keeps W s0 (@addFrame a1 s) := by
  unfold addFrame
  repeat' first
    | with_reducible assumption | with_reducible apply keeps_setFrame | with_reducible refine keeps_up_buf (sub_bit rfl hW) ?_

theorem keeps_setHold {a1 a2} (hW : sub 8192 W = true) (h : Keeps W s0 s) : Keeps W s0 (@setHold a1 a2 s) := by
  unfold setHold
  repeat' first
    | with_reducible assumption | with_reducible refine keeps_up_buf (sub_bit rfl hW) ?_

theorem keeps_setEgrPort {a1 a2} (hW : sub 16384 W = true) (h : Keeps W s0 s) : Keeps W s0 (@setEgrPort a1 a2 s) := by
  unfold setEgrPort
  repeat' first
    | with_reducible assumption | with_reducible refine keeps_up_egr (sub_bit rfl hW) ?_

theorem keeps_setTag {a1 a2 a3} (hW : sub 16384 W = true) (h : Keeps W s0 s) : Keeps W s0 (@setTag a1 a2 a3 s) := by
  unfold setTag
  repeat' first
    | with_reducible assumption | with_reducible apply keeps_setEgrPort

theorem keeps_setEgrCls {a1 a2 a3} (hW : sub 16384 W = true) (h : Keeps W s0 s) : Keeps W s0 (@setEgrCls a1 a2 a3 s) := by
  unfold setEgrCls
  repeat' first
    | with_reducible assumption | with_reducible apply keeps_setEgrPort

theorem keeps_shaperTouch {a1 a2} (hW : sub 16384 W = true) (h : Keeps W s0 s) : Keeps W s0 (@shaperTouch a1 a2 s) := by
  unfold shaperTouch
  repeat' first
    | with_reducible assumption | with_reducible apply keeps_setEgrCls | with_reducible apply keeps_ite

theorem keeps_touchOut {a1} (hW : sub 16384 W = true) (h : Keeps W s0 s) : Keeps W s0 (@touchOut a1 s) := by
  unfold touchOut
  repeat' first
    | with_reducible assumption | with_reducible apply keeps_shaperTouch | with_reducible apply keeps_foldl | intro _

theorem keeps_touchFrame {a1} (hW : sub 16384 W = true) (h : Keeps W s0 s) : Keeps W s0 (@touchFrame a1 s) := by
  unfold touchFrame
  repeat' first
    | with_reducible assumption | with_reducible apply keeps_shaperTouch | with_reducible apply keeps_foldl | split | intro _

theorem keeps_settleQueue {a1 a2 a3} (hW : sub 16384 W = true) (h : Keeps W s0 s) : Keeps W s0 (@settleQueue a1 a2 a3 s) := by
  unfold settleQueue
  repeat' first
    | with_reducible assumption | with_reducible apply keeps_setEgrCls | with_reducible apply keeps_setTag
    | with_reducible apply keeps_ite

theorem keeps_sumpInc {a1 a2 a3} (hW : sub 8192 W = true) (h : Keeps W s0 s) : Keeps W s0 (@sumpInc a1 a2 a3 s) := by
  unfold sumpInc
  repeat' first
    | with_reducible assumption | with_reducible refine keeps_up_buf (sub_bit rfl hW) ?_

theorem keeps_sumpCount {a1 a2 a3} (hW : sub 8450 W = true) (h : Keeps W s0 s) : Keeps W s0 (@sumpCount a1 a2 a3 s) := by
  unfold sumpCount
  repeat' first
    | with_reducible assumption | exact sub_trans rfl hW | with_reducible apply keeps_sumpInc
    | with_reducible apply keeps_monEvent | split | with_reducible refine keeps_up_buf (sub_bit rfl hW) ?_

theorem keeps_sumpSample {a1 a2 a3} (hW : sub 8478978 W = true) (h : Keeps W s0 s) : Keeps W s0 (@sumpSample a1 a2 a3 s) := by
  unfold sumpSample
  repeat' first
    | with_reducible assumption | exact sub_trans rfl hW | with_reducible apply keeps_shaperTouch
    | with_reducible apply keeps_addFrame | with_reducible refine keeps_snd (keeps_storeCells (sub_trans rfl hW) ?_)
    | with_reducible apply keeps_ite | with_reducible refine keeps_up_buf (sub_bit rfl hW) ?_

theorem keeps_sump {a1 a2 a3 a4} (hW : sub 8478978 W = true) (h : Keeps W s0 s) : Keeps W s0 (@sump a1 a2 a3 a4 s) := by
  unfold sump
  repeat' first
    | with_reducible assumption | exact sub_trans rfl hW | with_reducible apply keeps_sumpSample
    | with_reducible apply keeps_sumpCount

theorem keeps_setCtxWord {a1 a2 a3} (hW : sub 4096 W = true) (h : Keeps W s0 s) : Keeps W s0 (@setCtxWord a1 a2 a3 s) := by
  unfold setCtxWord
  repeat' first
    | with_reducible assumption | with_reducible refine keeps_up_ing (sub_bit rfl hW) ?_

theorem keeps_setCtxF {a1 a2 a3 a4 a5} (hW : sub 4096 W = true) (h : Keeps W s0 s) : Keeps W s0 (@setCtxF a1 a2 a3 a4 a5 s) := by
  unfold setCtxF
  repeat' first
    | with_reducible assumption | with_reducible apply keeps_setCtxWord

theorem keeps_ctxAnew {a1 a2 a3} (hW : sub 69890 W = true) (h : Keeps W s0 s) : Keeps W s0 (@ctxAnew a1 a2 a3 s) := by
  unfold ctxAnew
  repeat' first
    | with_reducible assumption | exact sub_trans rfl hW | with_reducible apply keeps_setCtxWord
    | with_reducible apply keeps_fullWrite

theorem keeps_ctxNarrow {a1 a2 a3 a4} (hW : sub 2167042 W = true) (h : Keeps W s0 s) (h4 : ∀ t, Keeps W s0 t → Keeps W s0 (a4 t)) : Keeps W s0 (@ctxNarrow a1 a2 a3 a4 s) := by
  unfold ctxNarrow
  repeat' first
    | with_reducible assumption | with_reducible apply h4 | exact sub_trans rfl hW | with_reducible apply keeps_ctxAnew
    | with_reducible refine keeps_snd (keeps_narrowWrite (sub_trans rfl hW) ?_) | with_reducible apply keeps_ite

theorem keeps_ctxBump {a1 a2 a3 a4} (hW : sub 2167042 W = true) (h : Keeps W s0 s) : Keeps W s0 (@ctxBump a1 a2 a3 a4 s) := by
  unfold ctxBump
  repeat' first
    | with_reducible assumption | exact sub_trans rfl hW | with_reducible apply keeps_ctxNarrow
    | with_reducible apply keeps_setCtxF | intro _

theorem keeps_removeCopies {a1 a2} (hW : sub 8192 W = true) (h : Keeps W s0 s) : Keeps W s0 (@removeCopies a1 a2 s) := by
  unfold removeCopies
  repeat' first
    | with_reducible assumption | with_reducible apply keeps_setFrame | split

theorem keeps_dropCopy {a1 a2 a3} (hW : sub 8478978 W = true) (h : Keeps W s0 s) : Keeps W s0 (@dropCopy a1 a2 a3 s) := by
  unfold dropCopy
  repeat' first
    | with_reducible assumption | exact sub_trans rfl hW | with_reducible apply keeps_removeCopies
    | with_reducible apply keeps_sump | with_reducible apply keeps_settleQueue | with_reducible apply keeps_shaperTouch
    | with_reducible apply keeps_reapFrame | with_reducible apply keeps_ite | split

theorem keeps_forgetFrame {a1} (hW : sub 8192 W = true) (h : Keeps W s0 s) : Keeps W s0 (@forgetFrame a1 s) := by
  unfold forgetFrame
  repeat' first
    | with_reducible assumption | with_reducible apply keeps_freeChain | with_reducible apply keeps_setFrame | split

theorem keeps_dropFrame {a1 a2} (hW : sub 8478978 W = true) (h : Keeps W s0 s) : Keeps W s0 (@dropFrame a1 a2 s) := by
  unfold dropFrame
  repeat' first
    | with_reducible assumption | exact sub_trans rfl hW | with_reducible apply keeps_forgetFrame
    | with_reducible apply keeps_sump | split

theorem keeps_frameBad {a1 a2} (hW : sub 10580226 W = true) (h : Keeps W s0 s) : Keeps W s0 (@frameBad a1 a2 s) := by
  unfold frameBad
  repeat' first
    | with_reducible assumption | exact sub_trans rfl hW | with_reducible apply keeps_dropCopy
    | with_reducible apply keeps_ctxBump | with_reducible apply keeps_sumpCount | with_reducible apply keeps_touchFrame
    | with_reducible apply keeps_setFrame | with_reducible apply keeps_monEvent | with_reducible apply keeps_bump
    | with_reducible apply keeps_foldl | with_reducible apply keeps_ite | split | intro _

theorem keeps_dropAll {a1 a2} (hW : sub 8478978 W = true) (h : Keeps W s0 s) : Keeps W s0 (@dropAll a1 a2 s) := by
  unfold dropAll
  repeat' first
    | with_reducible assumption | with_reducible apply keeps_dropCopy | with_reducible apply keeps_foldl | split | intro _

theorem keeps_exhausted (hW : sub 8450 W = true) (h : Keeps W s0 s) : Keeps W s0 (@exhausted s) := by
  unfold exhausted
  repeat' first
    | with_reducible assumption | exact sub_trans rfl hW | with_reducible apply keeps_raise | with_reducible apply keeps_ite
    | with_reducible refine keeps_up_buf (sub_bit rfl hW) ?_

theorem keeps_flushOutput {a1 a2} (hW : sub 8478978 W = true) (h : Keeps W s0 s) : Keeps W s0 (@flushOutput a1 a2 s) := by
  unfold flushOutput
  repeat' first
    | with_reducible assumption | with_reducible apply keeps_dropCopy | with_reducible apply keeps_foldl | intro _

theorem keeps_holdExpire {a1} (hW : sub 8478978 W = true) (h : Keeps W s0 s) : Keeps W s0 (@holdExpire a1 s) := by
  unfold holdExpire
  repeat' first
    | with_reducible assumption | exact sub_trans rfl hW | with_reducible apply keeps_flushOutput
    | with_reducible apply keeps_setHold | with_reducible apply keeps_raise

theorem keeps_bufDown {a1 a2} (hW : sub 8478978 W = true) (h : Keeps W s0 s) : Keeps W s0 (@bufDown a1 a2 s) := by
  unfold bufDown
  repeat' first
    | with_reducible assumption | intro _ | lift_lets | exact sub_trans rfl hW | with_reducible apply keeps_holdExpire
    | with_reducible apply keeps_flushOutput | with_reducible apply keeps_dropCopy | with_reducible apply keeps_setHold
    | with_reducible apply keeps_raise | with_reducible apply keeps_foldl | with_reducible apply keeps_ite | intro _

theorem keeps_bufUp {a1} (hW : sub 8450 W = true) (h : Keeps W s0 s) : Keeps W s0 (@bufUp a1 s) := by
  unfold bufUp
  repeat' first
    | with_reducible assumption | exact sub_trans rfl hW | with_reducible apply keeps_setHold
    | with_reducible apply keeps_raise | with_reducible apply keeps_ite

end Sys2Proof.Machine
end

