-- ==== Sys2Proof/Laws/KeepsFrame.lean ====
section
/-! SUPPORT. The operations of the frame path: what each operation keeps (Keeps.lean). -/

namespace Sys2Proof.Machine

variable {W : Nat} {s0 s t : State}

theorem keeps_setTbl {a1 a2 a3} (hW : sub 4096 W = true) (h : Keeps W s0 s) : Keeps W s0 (@setTbl a1 a2 a3 s) := by
  unfold setTbl
  repeat' first
    | with_reducible assumption | split | with_reducible refine keeps_up_ing (sub_bit rfl hW) ?_

theorem keeps_setIdx {a1 a2} (hW : sub 69890 W = true) (h : Keeps W s0 s) : Keeps W s0 (@setIdx a1 a2 s) := by
  unfold setIdx
  repeat' first
    | with_reducible assumption | exact sub_trans rfl hW | with_reducible apply keeps_fullWrite
    | with_reducible refine keeps_up_ing (sub_bit rfl hW) ?_

theorem keeps_idxRemove {a1} (hW : sub 69890 W = true) (h : Keeps W s0 s) : Keeps W s0 (@idxRemove a1 s) := by
  unfold idxRemove
  repeat' first
    | with_reducible assumption | intro _ | lift_lets | with_reducible apply keeps_setIdx | with_reducible apply keeps_foldl
    | with_reducible apply keeps_ite | intro _

theorem keeps_meterWords {a1 a2} (hW : sub 2167042 W = true) (h : Keeps W s0 s) : Keeps W s0 (@meterWords a1 a2 s) := by
  unfold meterWords
  repeat' first
    | with_reducible assumption | with_reducible apply keeps_ctxNarrow | with_reducible apply keeps_foldl
    | with_reducible apply keeps_id | intro _

theorem keeps_meterRefill {a1 a2} (hW : sub 2167042 W = true) (h : Keeps W s0 s) : KeepsP W s0 (@meterRefill a1 a2 s) := by
  unfold meterRefill
  repeat' first
    | with_reducible assumption | exact sub_trans rfl hW | with_reducible apply keeps_meterWords
    | with_reducible apply keeps_setCtxF | with_reducible apply keepsP_mk

theorem keeps_meterColour {a1 a2 a3} (hW : sub 4096 W = true) (h : Keeps W s0 s) : KeepsP W s0 (@meterColour a1 a2 a3 s) := by
  unfold meterColour
  repeat' first
    | with_reducible assumption | with_reducible apply keeps_setCtxF | with_reducible apply keepsP_ite
    | with_reducible apply keepsP_mk

theorem keeps_meterBlock {a1 a2} (hW : sub 2167042 W = true) (h : Keeps W s0 s) : KeepsP W s0 (@meterBlock a1 a2 s) := by
  unfold meterBlock
  repeat' first
    | with_reducible assumption | exact sub_trans rfl hW | with_reducible apply keeps_setCtxF
    | with_reducible refine keeps_snd (keeps_narrowWrite (sub_trans rfl hW) ?_) | with_reducible apply keepsP_ite
    | with_reducible apply keepsP_mk

theorem keeps_meter {a1 a2 a3 a4} (hW : sub 2167042 W = true) (h : Keeps W s0 s) : KeepsP W s0 (@meter a1 a2 a3 a4 s) := by
  have hr := keeps_meterColour (a1 := a1) (a2 := a2 * 256) (a3 := a3) (s := (meterRefill a1 a4 s).2) (sub_trans rfl hW)
    (keeps_snd (keeps_meterRefill (sub_trans rfl hW) h))
  exact keeps_meterBlock (sub_trans rfl hW) hr

theorem keeps_setGateRt {a1 a2} (hW : sub 4096 W = true) (h : Keeps W s0 s) : Keeps W s0 (@setGateRt a1 a2 s) := by
  unfold setGateRt
  repeat' first
    | with_reducible assumption | with_reducible refine keeps_up_ing (sub_bit rfl hW) ?_

theorem keeps_gatePass {a1 a2 a3} (hW : sub 4354 W = true) (h : Keeps W s0 s) : KeepsP W s0 (@gatePass a1 a2 a3 s) := by
  unfold gatePass
  try simp only []
  repeat' first
    | with_reducible assumption | exact sub_trans rfl hW | with_reducible apply keeps_setGateRt
    | with_reducible apply keeps_setTbl | with_reducible apply keeps_raise | with_reducible apply keepsP_ite | split
    | with_reducible apply keepsP_mk

theorem keeps_setCtxWords {a1 a2} (hW : sub 69890 W = true) (h : Keeps W s0 s) : Keeps W s0 (@setCtxWords a1 a2 s) := by
  unfold setCtxWords
  repeat' first
    | with_reducible assumption | exact sub_trans rfl hW | with_reducible apply keeps_setCtxWord
    | with_reducible apply keeps_fullWriteAll | with_reducible apply keeps_foldl | intro _

theorem keeps_ctxAdd {a1 a2} (hW : sub 69890 W = true) (h : Keeps W s0 s) : KeepsP W s0 (@ctxAdd a1 a2 s) := by
  unfold ctxAdd
  repeat' first
    | with_reducible assumption | with_reducible apply keeps_setCtxWords | with_reducible apply keeps_idxRemove
    | with_reducible apply keeps_setIdx | with_reducible apply keepsP_ite | split | with_reducible apply keepsP_mk
    | with_reducible refine keeps_up_ing (sub_bit rfl hW) ?_

theorem keeps_ctxDelete {a1} (hW : sub 69890 W = true) (h : Keeps W s0 s) : Keeps W s0 (@ctxDelete a1 s) := by
  unfold ctxDelete
  repeat' first
    | with_reducible assumption | with_reducible apply keeps_idxRemove | with_reducible refine keeps_up_ing (sub_bit rfl hW) ?_

theorem keeps_ctxModify {a1 a2} (hW : sub 2167042 W = true) (h : Keeps W s0 s) : Keeps W s0 (@ctxModify a1 a2 s) := by
  unfold ctxModify
  repeat' first
    | with_reducible assumption | exact sub_trans rfl hW
    | with_reducible refine keeps_snd (keeps_meterRefill (sub_trans rfl hW) ?_) | with_reducible apply keeps_setCtxF
    | with_reducible apply keeps_setCtxWord | with_reducible apply keeps_fullWriteAll | with_reducible apply keeps_fullWrite

theorem keeps_fdbWrite {a1} (hW : sub 69890 W = true) (h : Keeps W s0 s) : KeepsP W s0 (@fdbWrite a1 s) := by
  unfold fdbWrite
  repeat' first
    | with_reducible assumption | exact sub_trans rfl hW | with_reducible apply keeps_setTbl
    | with_reducible apply keeps_fullWrite | split | with_reducible apply keepsP_mk

theorem keeps_grpWrite {a1} (hW : sub 69890 W = true) (h : Keeps W s0 s) : KeepsP W s0 (@grpWrite a1 s) := by
  unfold grpWrite
  repeat' first
    | with_reducible assumption | exact sub_trans rfl hW | with_reducible apply keeps_setTbl
    | with_reducible apply keeps_fullWrite | with_reducible apply keeps_ite | split | with_reducible apply keepsP_mk

theorem keeps_gateWrite {a1 a2} (hW : sub 4096 W = true) (h : Keeps W s0 s) : Keeps W s0 (@gateWrite a1 a2 s) := by
  unfold gateWrite
  repeat' first
    | with_reducible assumption | with_reducible apply keeps_setTbl | with_reducible apply keeps_ite

theorem keeps_tblWrite {a1 a2 a3} (hW : sub 69890 W = true) (h : Keeps W s0 s) : KeepsP W s0 (@tblWrite a1 a2 a3 s) := by
  unfold tblWrite
  try simp only []
  repeat' first
    | with_reducible assumption | exact sub_trans rfl hW | with_reducible apply keeps_gateWrite
    | with_reducible apply keeps_grpWrite | with_reducible apply keeps_fdbWrite | with_reducible apply keeps_ctxAdd
    | with_reducible apply keeps_setCtxWords | with_reducible apply keeps_idxRemove | with_reducible apply keeps_setTbl
    | with_reducible apply keeps_fullWrite | with_reducible apply keepsP_ite | split | with_reducible apply keepsP_mk

theorem keeps_tblEcc {a1 a2} (hW : sub 2097410 W = true) (h : Keeps W s0 s) : Keeps W s0 (@tblEcc a1 a2 s) := by
  unfold tblEcc
  repeat' first
    | with_reducible assumption | with_reducible refine keeps_snd (keeps_eccReadAll (sub_trans rfl hW) ?_) | split

theorem keeps_queueReq {a1} (hW : sub 4354 W = true) (h : Keeps W s0 s) : Keeps W s0 (@queueReq a1 s) := by
  unfold queueReq
  repeat' first
    | with_reducible assumption | exact sub_trans rfl hW | with_reducible apply keeps_raise | with_reducible apply keeps_ite
    | with_reducible refine keeps_up_ing (sub_bit rfl hW) ?_

theorem keeps_learnMac {a1 a2} (hW : sub 4354 W = true) (h : Keeps W s0 s) : Keeps W s0 (@learnMac a1 a2 s) := by
  unfold learnMac
  repeat' first
    | with_reducible assumption | with_reducible apply keeps_queueReq | with_reducible apply keeps_ite
    | with_reducible refine keeps_up_ing (sub_bit rfl hW) ?_

theorem keeps_sourceHit {a1 a2 a3} (hW : sub 4354 W = true) (h : Keeps W s0 s) : Keeps W s0 (@sourceHit a1 a2 a3 s) := by
  unfold sourceHit
  repeat' first
    | with_reducible assumption | exact sub_trans rfl hW | with_reducible apply keeps_learnMac
    | with_reducible apply keeps_setTbl | with_reducible apply keeps_whenS | with_reducible apply keeps_bump
    | with_reducible apply keeps_ite | split | with_reducible refine keeps_up_flt (sub_bit rfl hW) ?_ | intro _

theorem keeps_learnInsert {a1 a2} (hW : sub 69890 W = true) (h : Keeps W s0 s) : Keeps W s0 (@learnInsert a1 a2 s) := by
  unfold learnInsert
  repeat' first
    | with_reducible assumption | exact sub_trans rfl hW | with_reducible apply keeps_setTbl
    | with_reducible apply keeps_fullWrite | with_reducible apply keeps_whenS | with_reducible apply keeps_raise
    | with_reducible apply keeps_ite | split | with_reducible refine keeps_up_flt (sub_bit rfl hW) ?_ | intro _

theorem keeps_streamLearn {a1 a2} (hW : sub 69890 W = true) (h : Keeps W s0 s) : Keeps W s0 (@streamLearn a1 a2 s) := by
  unfold streamLearn
  repeat' first
    | with_reducible assumption | exact sub_trans rfl hW | with_reducible apply keeps_setCtxWords
    | with_reducible apply keeps_setIdx | with_reducible apply keeps_raise | with_reducible apply keeps_ite | split

theorem keeps_gateCommit {a1} (hW : sub 4354 W = true) (h : Keeps W s0 s) : Keeps W s0 (@gateCommit a1 s) := by
  unfold gateCommit
  repeat' first
    | with_reducible assumption | exact sub_trans rfl hW | with_reducible apply keeps_setGateRt
    | with_reducible apply keeps_raise | with_reducible apply keeps_ite

theorem keeps_gateChange {a1} (hW : sub 4096 W = true) (h : Keeps W s0 s) : Keeps W s0 (@gateChange a1 s) := by
  unfold gateChange
  repeat' first
    | with_reducible assumption | with_reducible apply keeps_setGateRt | with_reducible apply keeps_setTbl
    | with_reducible apply keeps_foldl | with_reducible apply keeps_ite | split
    | with_reducible refine keeps_up_ing (sub_bit rfl hW) ?_ | intro _

theorem keeps_setFn {a1 a2} (hW : sub 32768 W = true) (h : Keeps W s0 s) : Keeps W s0 (@setFn a1 a2 s) := by
  unfold setFn
  repeat' first
    | with_reducible assumption | with_reducible refine keeps_up_red (sub_bit rfl hW) ?_

theorem keeps_redEvent {a1 a2 a3} (hW : sub 258 W = true) (h : Keeps W s0 s) : Keeps W s0 (@redEvent a1 a2 a3 s) := by
  unfold redEvent
  repeat' first
    | with_reducible assumption | exact sub_trans rfl hW | with_reducible apply keeps_raise | with_reducible apply keeps_setF

theorem keeps_fnShift {a1 a2} (hW : sub 32770 W = true) (h : Keeps W s0 s) : Keeps W s0 (@fnShift a1 a2 s) := by
  unfold fnShift
  repeat' first
    | with_reducible assumption | exact sub_trans rfl hW | with_reducible apply keeps_setFn | with_reducible apply keeps_bump
    | with_reducible apply keeps_ite

theorem keeps_fnWritten {a1} (hW : sub 65794 W = true) (h : Keeps W s0 s) : Keeps W s0 (@fnWritten a1 s) := by
  unfold fnWritten
  repeat' first
    | with_reducible assumption | with_reducible apply keeps_fullWrite

theorem keeps_redPass {a1 a2} (hW : sub 2187522 W = true) (h : Keeps W s0 s) : Keeps W s0 (@redPass a1 a2 s) := by
  unfold redPass
  repeat' first
    | with_reducible assumption | exact sub_trans rfl hW | with_reducible apply keeps_touchFrame
    | with_reducible apply keeps_reapFrame | with_reducible apply keeps_setFrame
    | with_reducible refine keeps_snd (keeps_narrowWrite (sub_trans rfl hW) ?_) | with_reducible apply keeps_setEcc
    | with_reducible apply keeps_setF | with_reducible apply keeps_ite | split

theorem keeps_fnRelease {a1 a2} (hW : sub 2220290 W = true) (h : Keeps W s0 s) : Keeps W s0 (@fnRelease a1 a2 s) := by
  unfold fnRelease
  repeat' first
    | with_reducible assumption | exact sub_trans rfl hW | with_reducible apply keeps_redPass
    | with_reducible apply keeps_setFn | with_reducible apply keeps_bump

theorem keeps_fnPass {a1 a2} (hW : sub 2220290 W = true) (h : Keeps W s0 s) : Keeps W s0 (@fnPass a1 a2 s) := by
  unfold fnPass
  repeat' first
    | with_reducible assumption | exact sub_trans rfl hW | with_reducible apply keeps_fnRelease
    | with_reducible apply keeps_fnShift

theorem keeps_fnRun {n k} (hW : sub 2220290 W = true) (h : Keeps W s0 s) : Keeps W s0 (fnRun n k s) := by
  induction k generalizing s with
  | zero => exact h
  | succ k ih =>
    unfold fnRun
    split
    · exact ih (keeps_fnPass (sub_trans rfl hW) h)
    · exact h

theorem keeps_redDiscard {a1 a2} (hW : sub 8478978 W = true) (h : Keeps W s0 s) : Keeps W s0 (@redDiscard a1 a2 s) := by
  unfold redDiscard
  repeat' first
    | with_reducible assumption | exact sub_trans rfl hW | with_reducible apply keeps_dropAll
    | with_reducible apply keeps_touchFrame | with_reducible apply keeps_reapFrame | with_reducible apply keeps_setFrame
    | split

theorem keeps_redRogue {a1 a2} (hW : sub 8478978 W = true) (h : Keeps W s0 s) : Keeps W s0 (@redRogue a1 a2 s) := by
  unfold redRogue
  repeat' first
    | with_reducible assumption | exact sub_trans rfl hW | with_reducible apply keeps_redDiscard
    | with_reducible apply keeps_redEvent | with_reducible apply keeps_bump

theorem keeps_redDuplicate {a1 a2} (hW : sub 8511746 W = true) (h : Keeps W s0 s) : Keeps W s0 (@redDuplicate a1 a2 s) := by
  unfold redDuplicate
  repeat' first
    | with_reducible assumption | exact sub_trans rfl hW | with_reducible apply keeps_redDiscard
    | with_reducible apply keeps_setFn | with_reducible apply keeps_bump

theorem keeps_fnSkip {n k} (hW : sub 32770 W = true) (h : Keeps W s0 s) : Keeps W s0 (fnSkip n k s) := by
  induction k generalizing s with
  | zero => exact h
  | succ k ih => exact ih (keeps_fnShift (sub_trans rfl hW) h)

theorem keeps_fnFrame {a1 a2 a3} (hW : sub 10608898 W = true) (h : Keeps W s0 s) : Keeps W s0 (@fnFrame a1 a2 a3 s) := by
  unfold fnFrame
  repeat' first
    | with_reducible assumption | intro _ | lift_lets | exact sub_trans rfl hW | with_reducible apply keeps_fnSkip
    | with_reducible apply keeps_redDuplicate | with_reducible apply keeps_redRogue | with_reducible apply keeps_redDiscard
    | with_reducible apply keeps_fnRun | with_reducible apply keeps_fnPass | with_reducible apply keeps_fnRelease
    | with_reducible apply keeps_setFn | with_reducible apply keeps_setFrame | with_reducible apply keeps_bump
    | with_reducible apply keeps_ite | split | intro _

theorem keeps_fnReset {a1} (hW : sub 2220290 W = true) (h : Keeps W s0 s) : Keeps W s0 (@fnReset a1 s) := by
  unfold fnReset
  repeat' first
    | with_reducible assumption | exact sub_trans rfl hW | with_reducible apply keeps_fnRelease
    | with_reducible apply keeps_fnWritten | with_reducible apply keeps_setFn | with_reducible apply keeps_foldl | intro _

theorem keeps_fnResetWrite {a1} (hW : sub 2220290 W = true) (h : Keeps W s0 s) : Keeps W s0 (@fnResetWrite a1 s) := by
  unfold fnResetWrite
  repeat' first
    | with_reducible assumption | exact sub_trans rfl hW | with_reducible apply keeps_fnReset
    | with_reducible apply keeps_redEvent

theorem keeps_fnRead {a1} (hW : sub 2220290 W = true) (h : Keeps W s0 s) : Keeps W s0 (@fnRead a1 s) := by
  unfold fnRead
  repeat' first
    | with_reducible assumption | with_reducible apply keeps_fnResetWrite
    | with_reducible refine keeps_snd (keeps_narrowWrite (sub_trans rfl hW) ?_) | with_reducible apply keeps_ite

theorem keeps_fnTimeout {n k} (hW : sub 2220290 W = true) (h : Keeps W s0 s) : Keeps W s0 (fnTimeout n k s) := by
  induction k generalizing s with
  | zero => exact h
  | succ k ih =>
    unfold fnTimeout
    split
    · exact h
    · split
      · exact h
      · exact ih (keeps_redEvent (sub_trans rfl hW) (keeps_bump (sub_trans rfl hW) (keeps_fnRun (sub_trans rfl hW) (keeps_fnSkip (sub_trans rfl hW) h))))

theorem keeps_pathCheck {a1 a2} (hW : sub 33026 W = true) (h : Keeps W s0 s) : Keeps W s0 (@pathCheck a1 a2 s) := by
  unfold pathCheck
  repeat' first
    | with_reducible assumption | exact sub_trans rfl hW | with_reducible apply keeps_redEvent
    | with_reducible apply keeps_setFn | with_reducible apply keeps_ite

theorem keeps_pathsCheck {a1} (hW : sub 33026 W = true) (h : Keeps W s0 s) : Keeps W s0 (@pathsCheck a1 s) := by
  unfold pathsCheck
  repeat' first
    | with_reducible assumption | with_reducible apply keeps_pathCheck | with_reducible apply keeps_foldl | intro _

theorem keeps_allPaths (hW : sub 33026 W = true) (h : Keeps W s0 s) : Keeps W s0 (@allPaths s) := by
  unfold allPaths
  repeat' first
    | with_reducible assumption | with_reducible apply keeps_pathsCheck | with_reducible apply keeps_foldl | intro _

theorem keeps_redDown {a1} (hW : sub 8511746 W = true) (h : Keeps W s0 s) : Keeps W s0 (@redDown a1 s) := by
  unfold redDown
  repeat' first
    | with_reducible assumption | exact sub_trans rfl hW | with_reducible apply keeps_redDiscard
    | with_reducible apply keeps_foldl | with_reducible refine keeps_up_red (sub_bit rfl hW) ?_ | intro _

theorem keeps_setPteInst {a1 a2} (hW : sub 2048 W = true) (h : Keeps W s0 s) : Keeps W s0 (@setPteInst a1 a2 s) := by
  unfold setPteInst
  repeat' first
    | with_reducible assumption | with_reducible refine keeps_up_pte (sub_bit rfl hW) ?_

theorem keeps_pteDrop {a1} (hW : sub 2 W = true) (h : Keeps W s0 s) : Keeps W s0 (@pteDrop a1 s) := by
  unfold pteDrop
  repeat' first
    | with_reducible assumption | with_reducible apply keeps_bump

theorem keeps_settle {a1} (hW : sub 2048 W = true) (h : Keeps W s0 s) : Keeps W s0 (@settle a1 s) := by
  unfold settle
  repeat' first
    | with_reducible assumption | with_reducible apply keeps_setPteInst

theorem keeps_lengthen {i f hi k} (hW : sub 2 W = true) (h : Keeps W s0 s) : Keeps W s0 (lengthen i f hi k s) := by
  induction k generalizing s with
  | zero => exact h
  | succ k ih =>
    unfold lengthen
    split
    · exact h
    · exact ih (keeps_setF (sub_trans rfl hW) h)

theorem keeps_dropGrants {a1} (hW : sub 2050 W = true) (h : Keeps W s0 s) : Keeps W s0 (@dropGrants a1 s) := by
  unfold dropGrants
  repeat' first
    | with_reducible assumption | exact sub_trans rfl hW | with_reducible apply keeps_setF
    | with_reducible refine keeps_up_pte (sub_bit rfl hW) ?_

theorem keeps_cancelGrants {i k} (hW : sub 4196354 W = true) (h : Keeps W s0 s) : Keeps W s0 (cancelGrants i k s) := by
  induction k generalizing s with
  | zero => exact h
  | succ k ih =>
    unfold cancelGrants
    split
    · exact h
    · split
      · exact h
      · refine ih (keeps_dropGrants (sub_trans rfl hW) (keeps_foldl h fun t x ht => keeps_foldl ht fun u g hu => ?_))
        split
        · exact keeps_emit (sub_trans rfl hW) hu
        · exact hu

theorem keeps_fitLoad {a1} (hW : sub 4196610 W = true) (h : Keeps W s0 s) : Keeps W s0 (@fitLoad a1 s) := by
  unfold fitLoad
  repeat' first
    | with_reducible assumption | exact sub_trans rfl hW | with_reducible apply keeps_cancelGrants
    | with_reducible apply keeps_lengthen | with_reducible apply keeps_raise | with_reducible apply keeps_ite

theorem keeps_applyInterval {a1} (hW : sub 4196610 W = true) (h : Keeps W s0 s) : Keeps W s0 (@applyInterval a1 s) := by
  unfold applyInterval
  repeat' first
    | with_reducible assumption | exact sub_trans rfl hW | with_reducible apply keeps_fitLoad
    | with_reducible apply keeps_settle | with_reducible apply keeps_setPteInst | with_reducible apply keeps_whenS
    | with_reducible apply keeps_raise | with_reducible apply keeps_setF | split | intro _

theorem keeps_drawDelay {a1} (hW : sub 2048 W = true) (h : Keeps W s0 s) : Keeps W s0 (@drawDelay a1 s) := by
  unfold drawDelay
  repeat' first
    | with_reducible assumption | with_reducible apply keeps_setPteInst

theorem keeps_setSampleQ {a1 a2} (hW : sub 2048 W = true) (h : Keeps W s0 s) : Keeps W s0 (@setSampleQ a1 a2 s) := by
  unfold setSampleQ
  repeat' first
    | with_reducible assumption | with_reducible apply keeps_ite | with_reducible refine keeps_up_pte (sub_bit rfl hW) ?_

theorem keeps_setPteState {a1 a2} (hW : sub 4196802 W = true) (h : Keeps W s0 s) : Keeps W s0 (@setPteState a1 a2 s) := by
  unfold setPteState
  repeat' first
    | with_reducible assumption | exact sub_trans rfl hW | with_reducible apply keeps_drawDelay
    | with_reducible apply keeps_fitLoad | with_reducible apply keeps_dropGrants | with_reducible apply keeps_settle
    | with_reducible apply keeps_setPteInst | with_reducible apply keeps_activityCheck | with_reducible apply keeps_whenS
    | with_reducible apply keeps_setF | with_reducible apply keeps_ite | intro _

theorem keeps_movePteState {a1 a2} (hW : sub 4196802 W = true) (h : Keeps W s0 s) : Keeps W s0 (@movePteState a1 a2 s) := by
  unfold movePteState
  repeat' first
    | with_reducible assumption | intro _ | lift_lets | exact sub_trans rfl hW | with_reducible apply keeps_setPteState
    | with_reducible apply keeps_setSampleQ | with_reducible apply keeps_foldl | with_reducible apply keeps_ite | intro _

theorem keeps_pteForce {a1} (hW : sub 4196802 W = true) (h : Keeps W s0 s) : Keeps W s0 (@pteForce a1 s) := by
  unfold pteForce
  repeat' first
    | with_reducible assumption | exact sub_trans rfl hW | with_reducible apply keeps_setPteState
    | with_reducible apply keeps_raise | with_reducible apply keeps_setF | with_reducible apply keeps_ite

theorem keeps_forcePort {a1} (hW : sub 4196802 W = true) (h : Keeps W s0 s) : Keeps W s0 (@forcePort a1 s) := by
  unfold forcePort
  repeat' first
    | with_reducible assumption | with_reducible apply keeps_pteForce

theorem keeps_forceAll (hW : sub 4196802 W = true) (h : Keeps W s0 s) : Keeps W s0 (@forceAll s) := by
  unfold forceAll
  repeat' first
    | with_reducible assumption | with_reducible apply keeps_forcePort | with_reducible apply keeps_foldl | intro _

theorem keeps_sendPtp {a1 a2 a3} (hW : sub 4194304 W = true) (h : Keeps W s0 s) : Keeps W s0 (@sendPtp a1 a2 a3 s) := by
  unfold sendPtp
  repeat' first
    | with_reducible assumption | with_reducible apply keeps_emit

theorem keeps_filterAdd {a1 a2} (hW : sub 2050 W = true) (h : Keeps W s0 s) : Keeps W s0 (@filterAdd a1 a2 s) := by
  unfold filterAdd
  repeat' first
    | with_reducible assumption | exact sub_trans rfl hW | with_reducible apply keeps_setPteInst
    | with_reducible apply keeps_setWS | with_reducible apply keeps_ite

theorem keeps_acceptSync {a1 a2 a3 a4 a5 a6} (hW : sub 2306 W = true) (h : Keeps W s0 s) : Keeps W s0 (@acceptSync a1 a2 a3 a4 a5 a6 s) := by
  unfold acceptSync
  repeat' first
    | with_reducible assumption | exact sub_trans rfl hW | with_reducible apply keeps_setSampleQ
    | with_reducible apply keeps_pteDrop | with_reducible apply keeps_setPteInst | with_reducible apply keeps_raise
    | with_reducible apply keeps_ite

theorem keeps_servoEstimate {a1} (hW : sub 2048 W = true) (h : Keeps W s0 s) : KeepsP W s0 (@servoEstimate a1 s) := by
  unfold servoEstimate
  try simp only []
  repeat' first
    | with_reducible assumption | with_reducible apply keeps_setSampleQ | with_reducible apply keepsP_ite | split
    | with_reducible apply keepsP_mk | with_reducible refine keeps_up_pte (sub_bit rfl hW) ?_

theorem keeps_takeToken {a1} (hW : sub 2306 W = true) (h : Keeps W s0 s) : KeepsP W s0 (@takeToken a1 s) := by
  unfold takeToken
  repeat' first
    | with_reducible assumption | exact sub_trans rfl hW | with_reducible apply keeps_settle
    | with_reducible apply keeps_pteDrop | with_reducible apply keeps_setPteInst | with_reducible apply keeps_raise
    | with_reducible apply keeps_ite | with_reducible apply keepsP_ite | split | with_reducible apply keepsP_mk

theorem keeps_fwToken (hW : sub 2048 W = true) (h : Keeps W s0 s) : KeepsP W s0 (@fwToken s) := by
  unfold fwToken
  repeat' first
    | with_reducible assumption | split | with_reducible apply keepsP_mk
    | with_reducible refine keeps_up_pte (sub_bit rfl hW) ?_

theorem keeps_corrAdd {a1} (hW : sub 67842 W = true) (h : Keeps W s0 s) : Keeps W s0 (@corrAdd a1 s) := by
  unfold corrAdd
  repeat' first
    | with_reducible assumption | exact sub_trans rfl hW | with_reducible apply keeps_fullWrite | split
    | with_reducible refine keeps_up_pte (sub_bit rfl hW) ?_

theorem keeps_corrRead {a1 a2 a3 a4} (hW : sub 2099458 W = true) (h : Keeps W s0 s) : Keeps W s0 (@corrRead a1 a2 a3 a4 s) := by
  unfold corrRead
  repeat' first
    | with_reducible assumption | with_reducible refine keeps_snd (keeps_eccRead (sub_trans rfl hW) ?_)
    | with_reducible apply keeps_ite | split | with_reducible refine keeps_up_pte (sub_bit rfl hW) ?_

theorem keeps_partnerRead {a1 a2 a3} (hW : sub 2164994 W = true) (h : Keeps W s0 s) : Keeps W s0 (@partnerRead a1 a2 a3 s) := by
  unfold partnerRead
  repeat' first
    | with_reducible assumption | exact sub_trans rfl hW | with_reducible apply keeps_dropGrants
    | with_reducible refine keeps_snd (keeps_narrowWrite (sub_trans rfl hW) ?_) | with_reducible apply keeps_ite | split

theorem keeps_setRing {a1 a2} (hW : sub 131072 W = true) (h : Keeps W s0 s) : Keeps W s0 (@setRing a1 a2 s) := by
  unfold setRing
  repeat' first
    | with_reducible assumption | with_reducible refine keeps_up_hif (sub_bit rfl hW) ?_

theorem keeps_sendVector {a1} (hW : sub 4325376 W = true) (h : Keeps W s0 s) : Keeps W s0 (@sendVector a1 s) := by
  unfold sendVector
  repeat' first
    | with_reducible assumption | exact sub_trans rfl hW | with_reducible apply keeps_setRing | with_reducible apply keeps_emit
    | with_reducible apply keeps_foldl | with_reducible apply keeps_ite | split
    | with_reducible refine keeps_up_hif (sub_bit rfl hW) ?_ | intro _

theorem keeps_fireVector {a1} (hW : sub 4325376 W = true) (h : Keeps W s0 s) : Keeps W s0 (@fireVector a1 s) := by
  unfold fireVector
  repeat' first
    | with_reducible assumption | with_reducible apply keeps_sendVector | with_reducible apply keeps_ite
    | with_reducible refine keeps_up_hif (sub_bit rfl hW) ?_

theorem keeps_rearmVector {a1} (hW : sub 4325376 W = true) (h : Keeps W s0 s) : Keeps W s0 (@rearmVector a1 s) := by
  unfold rearmVector
  repeat' first
    | with_reducible assumption | with_reducible apply keeps_sendVector | with_reducible apply keeps_ite
    | with_reducible refine keeps_up_hif (sub_bit rfl hW) ?_

theorem keeps_eventVector {a1} (hW : sub 4325376 W = true) (h : Keeps W s0 s) : Keeps W s0 (@eventVector a1 s) := by
  unfold eventVector
  repeat' first
    | with_reducible assumption | with_reducible apply keeps_fireVector | with_reducible apply keeps_ite

theorem keeps_setRingState {a1 a2} (hW : sub 2 W = true) (h : Keeps W s0 s) : Keeps W s0 (@setRingState a1 a2 s) := by
  unfold setRingState
  repeat' first
    | with_reducible assumption | with_reducible apply keeps_setF

theorem keeps_dropHost {a1} (hW : sub 139264 W = true) (h : Keeps W s0 s) : Keeps W s0 (@dropHost a1 s) := by
  unfold dropHost
  repeat' first
    | with_reducible assumption | intro _ | lift_lets | exact sub_trans rfl hW | with_reducible apply keeps_setFrame
    | with_reducible apply keeps_foldl | with_reducible apply keeps_ite
    | with_reducible refine keeps_up_hif (sub_bit rfl hW) ?_ | intro _

theorem keeps_ringError {a1 a2} (hW : sub 139522 W = true) (h : Keeps W s0 s) : Keeps W s0 (@ringError a1 a2 s) := by
  unfold ringError
  repeat' first
    | with_reducible assumption | exact sub_trans rfl hW | with_reducible apply keeps_dropHost
    | with_reducible apply keeps_setRingState | with_reducible apply keeps_raise | with_reducible apply keeps_setF
    | with_reducible apply keeps_ite

theorem keeps_abandonRun {a1} (hW : sub 2097152 W = true) (h : Keeps W s0 s) : Keeps W s0 (@abandonRun a1 s) := by
  unfold abandonRun
  repeat' first
    | with_reducible assumption | with_reducible apply keeps_ite | with_reducible refine keeps_up_sys (sub_bit rfl hW) ?_

theorem keeps_dmaFail {a1 a2} (hW : sub 2236674 W = true) (h : Keeps W s0 s) : Keeps W s0 (@dmaFail a1 a2 s) := by
  unfold dmaFail
  repeat' first
    | with_reducible assumption | exact sub_trans rfl hW | with_reducible apply keeps_abandonRun
    | with_reducible apply keeps_ringError | with_reducible apply keeps_raiseFault

theorem keeps_throughRing {a1 a2} (hW : sub 2302210 W = true) (h : Keeps W s0 s) (h2 : ∀ t, Keeps W s0 t → Keeps W s0 (a2 t)) : Keeps W s0 (@throughRing a1 a2 s) := by
  unfold throughRing
  repeat' first
    | with_reducible assumption | with_reducible apply h2 | exact sub_trans rfl hW | with_reducible apply keeps_dmaFail
    | with_reducible apply keeps_fullWrite | with_reducible refine keeps_snd (keeps_eccRead (sub_trans rfl hW) ?_)
    | with_reducible apply keeps_ite

theorem keeps_ringFull {a1} (hW : sub 131072 W = true) (h : Keeps W s0 s) : Keeps W s0 (@ringFull a1 s) := by
  unfold ringFull
  repeat' first
    | with_reducible assumption | with_reducible apply keeps_setRing | with_reducible apply keeps_ite

theorem keeps_ringStopped {a1} (hW : sub 258 W = true) (h : Keeps W s0 s) : Keeps W s0 (@ringStopped a1 s) := by
  unfold ringStopped
  repeat' first
    | with_reducible assumption | exact sub_trans rfl hW | with_reducible apply keeps_setRingState
    | with_reducible apply keeps_raise | with_reducible apply keeps_ite

theorem keeps_ringCount {a1} (hW : sub 4325376 W = true) (h : Keeps W s0 s) : Keeps W s0 (@ringCount a1 s) := by
  unfold ringCount
  repeat' first
    | with_reducible assumption | exact sub_trans rfl hW | with_reducible apply keeps_fireVector
    | with_reducible apply keeps_setRing | with_reducible apply keeps_ite

theorem keeps_completeSlot {a1 a2 a3 a4 a5} (hW : sub 4325634 W = true) (h : Keeps W s0 s) : Keeps W s0 (@completeSlot a1 a2 a3 a4 a5 s) := by
  unfold completeSlot
  repeat' first
    | with_reducible assumption | exact sub_trans rfl hW | with_reducible apply keeps_ringCount
    | with_reducible apply keeps_ringStopped | with_reducible apply keeps_ringFull | with_reducible apply keeps_emit
    | with_reducible apply keeps_bump | with_reducible apply keeps_setF | with_reducible apply keeps_ite

theorem keeps_complete {a1 a2 a3 a4 a5} (hW : sub 4325634 W = true) (h : Keeps W s0 s) : Keeps W s0 (@complete a1 a2 a3 a4 a5 s) := by
  unfold complete
  repeat' first
    | with_reducible assumption | with_reducible apply keeps_completeSlot

theorem keeps_ringRecord {a1 a2 a3 a4 a5 a6} (hW : sub 6496514 W = true) (h : Keeps W s0 s) (h6 : ∀ t, Keeps W s0 t → Keeps W s0 (a6 t)) : Keeps W s0 (@ringRecord a1 a2 a3 a4 a5 a6 s) := by
  unfold ringRecord
  repeat' first
    | with_reducible assumption | with_reducible apply h6 | exact sub_trans rfl hW | with_reducible apply keeps_completeSlot
    | with_reducible apply keeps_throughRing | with_reducible apply keeps_setRing | with_reducible apply keeps_bump
    | with_reducible apply keeps_ite | intro _

theorem keeps_txComplete {a1} (hW : sub 4325634 W = true) (h : Keeps W s0 s) : Keeps W s0 (@txComplete a1 s) := by
  unfold txComplete
  repeat' first
    | with_reducible assumption | with_reducible apply keeps_completeSlot | with_reducible apply keeps_ite
    | with_reducible refine keeps_up_hif (sub_bit rfl hW) ?_

theorem keeps_txDecided {a1 a2} (hW : sub 4325634 W = true) (h : Keeps W s0 s) : Keeps W s0 (@txDecided a1 a2 s) := by
  unfold txDecided
  repeat' first
    | with_reducible assumption | with_reducible apply keeps_txComplete | split

theorem keeps_mmRestart {a1} (hW : sub 2 W = true) (h : Keeps W s0 s) : Keeps W s0 (@mmRestart a1 s) := by
  unfold mmRestart
  repeat' first
    | with_reducible assumption | with_reducible apply keeps_setF

theorem keeps_markCost {a1 a2 a3} (hW : sub 8192 W = true) (h : Keeps W s0 s) : Keeps W s0 (@markCost a1 a2 a3 s) := by
  unfold markCost
  repeat' first
    | with_reducible assumption | with_reducible apply keeps_setFrame | split

theorem keeps_formTags {a1 a2} (hW : sub 2121986 W = true) (h : Keeps W s0 s) : Keeps W s0 (@formTags a1 a2 s) := by
  unfold formTags
  repeat' first
    | with_reducible assumption | exact sub_trans rfl hW | with_reducible apply keeps_markCost
    | with_reducible apply keeps_setTag | with_reducible refine keeps_snd (keeps_eccRead (sub_trans rfl hW) ?_)
    | with_reducible apply keeps_foldl | split | with_reducible refine keeps_up_flt (sub_bit rfl hW) ?_ | intro _

theorem keeps_ecnMark {a1 a2 a3 a4} (hW : sub 8192 W = true) (h : Keeps W s0 s) : KeepsP W s0 (@ecnMark a1 a2 a3 a4 s) := by
  unfold ecnMark
  repeat' first
    | with_reducible assumption | with_reducible apply keepsP_ite | with_reducible apply keepsP_mk
    | with_reducible refine keeps_up_buf (sub_bit rfl hW) ?_

theorem keeps_admitCopy {a1 a2 a3} (hW : sub 8478978 W = true) (h : Keeps W s0 s) : Keeps W s0 (@admitCopy a1 a2 a3 s) := by
  unfold admitCopy
  repeat' first
    | with_reducible assumption | exact sub_trans rfl hW
    | with_reducible refine keeps_snd (keeps_ecnMark (sub_trans rfl hW) ?_) | with_reducible apply keeps_sump
    | with_reducible apply keeps_shaperTouch | with_reducible apply keeps_setFrame | with_reducible apply keeps_ite | split

theorem keeps_enqueueCopies {a1} (hW : sub 73986 W = true) (h : Keeps W s0 s) : Keeps W s0 (@enqueueCopies a1 s) := by
  unfold enqueueCopies
  repeat' first
    | with_reducible assumption | exact sub_trans rfl hW | with_reducible apply keeps_setFrame
    | with_reducible apply keeps_fullWrite | with_reducible apply keeps_monEvent | with_reducible apply keeps_bump
    | with_reducible apply keeps_foldl | split | with_reducible refine keeps_up_buf (sub_bit rfl hW) ?_ | intro _

theorem keeps_storeHead {a1} (hW : sub 8478978 W = true) (h : Keeps W s0 s) : Keeps W s0 (@storeHead a1 s) := by
  unfold storeHead
  repeat' first
    | with_reducible assumption | exact sub_trans rfl hW | with_reducible apply keeps_exhausted
    | with_reducible apply keeps_dropAll | with_reducible refine keeps_snd (keeps_storeCells (sub_trans rfl hW) ?_)
    | with_reducible apply keeps_setFrame | with_reducible apply keeps_ite | split

theorem keeps_refuseAll {a1} (hW : sub 8192 W = true) (h : Keeps W s0 s) : Keeps W s0 (@refuseAll a1 s) := by
  unfold refuseAll
  repeat' first
    | with_reducible assumption | with_reducible apply keeps_forgetFrame | with_reducible apply keeps_reapFrame
    | with_reducible apply keeps_setFrame | with_reducible apply keeps_ite | split

theorem keeps_bufAdmit {a1} (hW : sub 8478978 W = true) (h : Keeps W s0 s) : Keeps W s0 (@bufAdmit a1 s) := by
  unfold bufAdmit
  repeat' first
    | with_reducible assumption | exact sub_trans rfl hW | with_reducible apply keeps_refuseAll
    | with_reducible apply keeps_storeHead | with_reducible apply keeps_enqueueCopies | with_reducible apply keeps_admitCopy
    | with_reducible apply keeps_forgetFrame | with_reducible apply keeps_sump | with_reducible apply keeps_setFrame
    | with_reducible apply keeps_foldl | with_reducible apply keeps_ite | split | intro _

theorem keeps_loseHead {a1 a2} (hW : sub 12804354 W = true) (h : Keeps W s0 s) : Keeps W s0 (@loseHead a1 a2 s) := by
  unfold loseHead
  repeat' first
    | with_reducible assumption | exact sub_trans rfl hW | with_reducible apply keeps_txDecided
    | with_reducible apply keeps_dropFrame | with_reducible apply keeps_forgetFrame | with_reducible apply keeps_sump
    | with_reducible apply keeps_foldl | split | intro _

theorem keeps_admitFrame {a1} (hW : sub 12804354 W = true) (h : Keeps W s0 s) : Keeps W s0 (@admitFrame a1 s) := by
  unfold admitFrame
  repeat' first
    | with_reducible assumption | exact sub_trans rfl hW | with_reducible apply keeps_loseHead
    | with_reducible apply keeps_bufAdmit | with_reducible apply keeps_txDecided | with_reducible apply keeps_ite | split

theorem keeps_execBufAdmission {a1} (hW : sub 12804354 W = true) (h : Keeps W s0 s) : KeepsOut W s0 (@execBufAdmission a1 s) := by
  unfold execBufAdmission
  repeat' first
    | with_reducible assumption | exact sub_trans rfl hW | with_reducible apply keeps_admitFrame
    | with_reducible apply keeps_ran | with_reducible apply keeps_State_begin | with_reducible apply keeps_ite

theorem keeps_storeComplete {a1} (hW : sub 8478978 W = true) (h : Keeps W s0 s) : Keeps W s0 (@storeComplete a1 s) := by
  unfold storeComplete
  repeat' first
    | with_reducible assumption | exact sub_trans rfl hW | with_reducible apply keeps_dropAll
    | with_reducible apply keeps_touchFrame | with_reducible apply keeps_reapFrame | with_reducible apply keeps_setFrame
    | with_reducible apply keeps_ite | split

theorem keeps_execFrameStoreComplete {a1} (hW : sub 12673282 W = true) (h : Keeps W s0 s) : KeepsOut W s0 (@execFrameStoreComplete a1 s) := by
  unfold execFrameStoreComplete
  repeat' first
    | with_reducible assumption | exact sub_trans rfl hW | with_reducible apply keeps_storeComplete
    | with_reducible apply keeps_ran | with_reducible apply keeps_State_begin | with_reducible apply keeps_ite

theorem keeps_execLinkHoldExpiry {a1} (hW : sub 12673282 W = true) (h : Keeps W s0 s) : KeepsOut W s0 (@execLinkHoldExpiry a1 s) := by
  unfold execLinkHoldExpiry
  repeat' first
    | with_reducible assumption | exact sub_trans rfl hW | with_reducible apply keeps_holdExpire
    | with_reducible apply keeps_touchOut | with_reducible apply keeps_ran | with_reducible apply keeps_State_begin
    | with_reducible apply keeps_ite

theorem keeps_admCommit (hW : sub 8450 W = true) (h : Keeps W s0 s) : Keeps W s0 (@admCommit s) := by
  unfold admCommit
  repeat' first
    | with_reducible assumption | exact sub_trans rfl hW | with_reducible apply keeps_raise | with_reducible apply keeps_setF
    | with_reducible apply keeps_foldl | with_reducible apply keeps_ite
    | with_reducible refine keeps_up_buf (sub_bit rfl hW) ?_ | intro _

theorem keeps_execBufAdmissionCommit {a1 a2} (hW : sub 4202754 W = true) (h : Keeps W s0 s) : KeepsOut W s0 (@execBufAdmissionCommit a1 a2 s) := by
  unfold execBufAdmissionCommit
  repeat' first
    | with_reducible assumption | exact sub_trans rfl hW | with_reducible apply keeps_admCommit
    | with_reducible apply keeps_writeAt | with_reducible apply keeps_ran | with_reducible apply keeps_State_begin | split
    | intro _

theorem keeps_execInsertionCopyAgeLimit {a1 a2} (hW : sub 12673282 W = true) (h : Keeps W s0 s) : KeepsOut W s0 (@execInsertionCopyAgeLimit a1 a2 s) := by
  unfold execInsertionCopyAgeLimit
  repeat' first
    | with_reducible assumption | exact sub_trans rfl hW | with_reducible apply keeps_dropCopy | with_reducible apply keeps_ran
    | with_reducible apply keeps_State_begin | with_reducible apply keeps_ite | split

end Sys2Proof.Machine
end

