-- ==== Sys2Proof/Laws/KeepsTime.lean ====
section
/-! SUPPORT. The clock outputs, the Last, the PTP engine and the timestamp units: what each operation keeps (Keeps.lean). -/

namespace Sys2Proof.Machine

variable {W : Nat} {s0 s t : State}

theorem keeps_setOut {a1 a2} (hW : sub 524288 W = true) (h : Keeps W s0 s) : Keeps W s0 (@setOut a1 a2 s) := by
  unfold setOut
  repeat' first
    | with_reducible assumption | with_reducible refine keeps_up_syn (sub_bit rfl hW) ?_

theorem keeps_setMod {a1 a2} (hW : sub 524288 W = true) (h : Keeps W s0 s) : Keeps W s0 (@setMod a1 a2 s) := by
  unfold setMod
  repeat' first
    | with_reducible assumption | with_reducible refine keeps_up_syn (sub_bit rfl hW) ?_

theorem keeps_dcoCycle {a1} (hW : sub 524288 W = true) (h : Keeps W s0 s) : Keeps W s0 (@dcoCycle a1 s) := by
  unfold dcoCycle
  repeat' first
    | with_reducible assumption | with_reducible apply keeps_setMod | with_reducible apply keeps_ite

theorem keeps_reseed {a1} (hW : sub 524288 W = true) (h : Keeps W s0 s) : Keeps W s0 (@reseed a1 s) := by
  unfold reseed
  repeat' first
    | with_reducible assumption | with_reducible apply keeps_setMod

theorem keeps_setOutState {a1 a2} (hW : sub 2 W = true) (h : Keeps W s0 s) : Keeps W s0 (@setOutState a1 a2 s) := by
  unfold setOutState
  repeat' first
    | with_reducible assumption | with_reducible apply keeps_setF

theorem keeps_setAligned {a1 a2} (hW : sub 2 W = true) (h : Keeps W s0 s) : Keeps W s0 (@setAligned a1 a2 s) := by
  unfold setAligned
  repeat' first
    | with_reducible assumption | with_reducible apply keeps_setFlag

theorem keeps_showEdge {a1} (hW : sub 4194304 W = true) (h : Keeps W s0 s) : Keeps W s0 (@showEdge a1 s) := by
  unfold showEdge
  repeat' first
    | with_reducible assumption | exact sub_trans rfl hW | with_reducible apply keeps_whenS | with_reducible apply keeps_emit
    | intro _

theorem keeps_takeDelay {a1} (hW : sub 524290 W = true) (h : Keeps W s0 s) : Keeps W s0 (@takeDelay a1 s) := by
  unfold takeDelay
  repeat' first
    | with_reducible assumption | exact sub_trans rfl hW | with_reducible apply keeps_setOut | with_reducible apply keeps_setF
    | split

theorem keeps_putOut {a1 a2} (hW : sub 2 W = true) (h : Keeps W s0 s) : Keeps W s0 (@putOut a1 a2 s) := by
  unfold putOut
  repeat' first
    | with_reducible assumption | with_reducible apply keeps_putWord | with_reducible apply keeps_foldl | intro _

theorem keeps_placeClock {a1 a2 a3} (hW : sub 13107458 W = true) (h : Keeps W s0 s) : Keeps W s0 (@placeClock a1 a2 a3 s) := by
  unfold placeClock
  repeat' first
    | with_reducible assumption | exact sub_trans rfl hW | with_reducible apply keeps_showEdge
    | with_reducible apply keeps_setAligned | with_reducible apply keeps_setOut | with_reducible apply keeps_whenS
    | with_reducible refine keeps_snd (keeps_drawWithin (sub_trans rfl hW) ?_)
    | with_reducible refine keeps_snd (keeps_drawInt (sub_trans rfl hW) ?_) | with_reducible apply keeps_raise
    | with_reducible apply keeps_ite | intro _

theorem keeps_placeOut {a1 a2 a3 a4} (hW : sub 13107458 W = true) (h : Keeps W s0 s) : Keeps W s0 (@placeOut a1 a2 a3 a4 s) := by
  unfold placeOut
  repeat' first
    | with_reducible assumption | exact sub_trans rfl hW | with_reducible apply keeps_placeClock
    | with_reducible apply keeps_showEdge | with_reducible apply keeps_setAligned | with_reducible apply keeps_setOutState
    | with_reducible apply keeps_setOut | with_reducible apply keeps_ite

theorem keeps_startOut {a1 a2 a3 a4} (hW : sub 13107458 W = true) (h : Keeps W s0 s) : Keeps W s0 (@startOut a1 a2 a3 a4 s) := by
  unfold startOut
  repeat' first
    | with_reducible assumption | exact sub_trans rfl hW | with_reducible apply keeps_placeOut
    | with_reducible apply keeps_setOutState | with_reducible apply keeps_setOut | with_reducible apply keeps_ite

theorem keeps_stopOut {a1 a2} (hW : sub 524290 W = true) (h : Keeps W s0 s) : Keeps W s0 (@stopOut a1 a2 s) := by
  unfold stopOut
  repeat' first
    | with_reducible assumption | exact sub_trans rfl hW | with_reducible apply keeps_setAligned
    | with_reducible apply keeps_setOutState | with_reducible apply keeps_setOut

theorem keeps_squelch {a1} (hW : sub 524546 W = true) (h : Keeps W s0 s) : Keeps W s0 (@squelch a1 s) := by
  unfold squelch
  repeat' first
    | with_reducible assumption | exact sub_trans rfl hW | with_reducible apply keeps_stopOut
    | with_reducible apply keeps_raise

theorem keeps_realignOut {a1} (hW : sub 524546 W = true) (h : Keeps W s0 s) : Keeps W s0 (@realignOut a1 s) := by
  unfold realignOut
  repeat' first
    | with_reducible assumption | exact sub_trans rfl hW | with_reducible apply keeps_stopOut
    | with_reducible apply keeps_setOut | with_reducible apply keeps_raise | with_reducible apply keeps_foldl
    | with_reducible apply keeps_ite | intro _

theorem keeps_armOut {a1} (hW : sub 13107458 W = true) (h : Keeps W s0 s) : Keeps W s0 (@armOut a1 s) := by
  unfold armOut
  try simp only []
  repeat' first
    | with_reducible assumption | exact sub_trans rfl hW | with_reducible apply keeps_startOut
    | with_reducible apply keeps_setOutState | with_reducible apply keeps_setOut | with_reducible apply keeps_raise
    | with_reducible apply keeps_ite

theorem keeps_writeOutCtl {a1 a2} (hW : sub 13107458 W = true) (h : Keeps W s0 s) : Keeps W s0 (@writeOutCtl a1 a2 s) := by
  unfold writeOutCtl
  repeat' first
    | with_reducible assumption | exact sub_trans rfl hW | with_reducible apply keeps_armOut
    | with_reducible apply keeps_realignOut | with_reducible apply keeps_stopOut | with_reducible apply keeps_startOut
    | with_reducible apply keeps_whenS | with_reducible apply keeps_setFlag | with_reducible apply keeps_ite | intro _

theorem keeps_relock {a1} (hW : sub 524290 W = true) (h : Keeps W s0 s) : Keeps W s0 (@relock a1 s) := by
  unfold relock
  repeat' first
    | with_reducible assumption | intro _ | lift_lets | exact sub_trans rfl hW | with_reducible apply keeps_stopOut
    | with_reducible apply keeps_setF | with_reducible apply keeps_foldl | with_reducible apply keeps_ite | intro _

theorem keeps_nominalCommit {a1} (hW : sub 386 W = true) (h : Keeps W s0 s) : Keeps W s0 (@nominalCommit a1 s) := by
  unfold nominalCommit
  repeat' first
    | with_reducible assumption | exact sub_trans rfl hW | with_reducible apply keeps_setDpllState
    | with_reducible apply keeps_setDpll | with_reducible apply keeps_ite

theorem keeps_restartCheck {a1} (hW : sub 13107458 W = true) (h : Keeps W s0 s) : Keeps W s0 (@restartCheck a1 s) := by
  unfold restartCheck
  repeat' first
    | with_reducible assumption | with_reducible apply keeps_startOut | with_reducible apply keeps_ite

theorem keeps_applyOut {a1 a2} (hW : sub 13107458 W = true) (h : Keeps W s0 s) : Keeps W s0 (@applyOut a1 a2 s) := by
  unfold applyOut
  repeat' first
    | with_reducible assumption | exact sub_trans rfl hW | with_reducible apply keeps_restartCheck
    | with_reducible apply keeps_startOut | with_reducible apply keeps_putOut | with_reducible apply keeps_setAligned
    | with_reducible apply keeps_setOutState | with_reducible apply keeps_setOut | with_reducible apply keeps_ite

theorem keeps_synCommit {a1} (hW : sub 13107586 W = true) (h : Keeps W s0 s) : Keeps W s0 (@synCommit a1 s) := by
  unfold synCommit
  repeat' first
    | with_reducible assumption | intro _ | lift_lets | exact sub_trans rfl hW | with_reducible apply keeps_applyOut
    | with_reducible apply keeps_nominalCommit | with_reducible apply keeps_relock | with_reducible apply keeps_reseed
    | with_reducible apply keeps_setOut | with_reducible apply keeps_whenS | with_reducible apply keeps_raise
    | with_reducible apply keeps_setF | with_reducible apply keeps_foldl | with_reducible apply keeps_ite | intro _

theorem keeps_todPair {a1 a2} (hW : sub 386 W = true) (h : Keeps W s0 s) : Keeps W s0 (@todPair a1 a2 s) := by
  unfold todPair
  repeat' first
    | with_reducible assumption | exact sub_trans rfl hW | with_reducible apply keeps_candSample
    | with_reducible apply keeps_setCand | with_reducible apply keeps_raise | with_reducible apply keeps_bump
    | with_reducible apply keeps_setF | with_reducible apply keeps_ite

theorem keeps_convergeCycle (hW : sub 64 W = true) (h : Keeps W s0 s) : Keeps W s0 (@convergeCycle s) := by
  unfold convergeCycle
  repeat' first
    | with_reducible assumption | with_reducible apply keeps_ite | split
    | with_reducible refine keeps_up_tim (sub_bit rfl hW) rfl ?_

theorem keeps_slewStep (hW : sub 322 W = true) (h : Keeps W s0 s) : Keeps W s0 (@slewStep s) := by
  unfold slewStep
  repeat' first
    | with_reducible assumption | exact sub_trans rfl hW | with_reducible apply keeps_rateCheck
    | with_reducible apply keeps_raise | with_reducible apply keeps_ite
    | with_reducible refine keeps_up_tim (sub_bit rfl hW) rfl ?_

theorem keeps_blendCycle (hW : sub 64 W = true) (h : Keeps W s0 s) : Keeps W s0 (@blendCycle s) := by
  unfold blendCycle
  repeat' first
    | with_reducible assumption | split | with_reducible refine keeps_up_tim (sub_bit rfl hW) rfl ?_

theorem keeps_dpllCycle {a1} (hW : sub 386 W = true) (h : Keeps W s0 s) : Keeps W s0 (@dpllCycle a1 s) := by
  unfold dpllCycle
  repeat' first
    | with_reducible assumption | exact sub_trans rfl hW | with_reducible apply keeps_setDpll
    | with_reducible apply keeps_raise | with_reducible apply keeps_ite

theorem keeps_hoCycle (hW : sub 450 W = true) (h : Keeps W s0 s) : Keeps W s0 (@hoCycle s) := by
  unfold hoCycle
  repeat' first
    | with_reducible assumption | exact sub_trans rfl hW | with_reducible apply keeps_dpllEval
    | with_reducible apply keeps_rateCheck | with_reducible apply keeps_whenS | with_reducible apply keeps_foldl | intro _

theorem keeps_execLastIncrement (hW : sub 5767618 W = true) (h : Keeps W s0 s) : KeepsOut W s0 (execLastIncrement s) := by
  have ht := keeps_tdcTick (sub_trans rfl hW) (keeps_State_begin (sub_trans rfl hW) h)
  unfold execLastIncrement
  with_reducible refine keepsOut_ite ?_ (keeps_ran (sub_trans rfl hW) ht)
  have hn := keeps_noteSteady (sub_trans rfl hW) ht
  with_reducible refine keeps_ran (sub_trans rfl hW) (keeps_foldl (keeps_hoCycle (sub_trans rfl hW) (keeps_switchUpdate (sub_trans rfl hW) (keeps_rateAged (sub_trans rfl hW) ?_))) fun t k => keeps_dcoCycle (sub_trans rfl hW))
  with_reducible refine keeps_dpllCycle (sub_trans rfl hW) (keeps_dpllCycle (sub_trans rfl hW) (keeps_dpllCycle (sub_trans rfl hW) (keeps_dpllCycle (sub_trans rfl hW) (keeps_blendCycle (sub_trans rfl hW) (keeps_convergeCycle (sub_trans rfl hW) (keeps_slewStep (sub_trans rfl hW) ?_))))))
  exact keeps_mkLast hn rfl rfl ok_tick (by constructor <;> first | exact off rfl hW | exact fun _ => rfl)

theorem keeps_execStepRequest {a1 a2} (hW : sub 4194626 W = true) (h : Keeps W s0 s) : KeepsOut W s0 (@execStepRequest a1 a2 s) := by
  unfold execStepRequest
  repeat' first
    | with_reducible assumption | exact sub_trans rfl hW | with_reducible apply keeps_requestStep
    | with_reducible apply keeps_writeAt | with_reducible apply keeps_ran | with_reducible apply keeps_State_begin | intro _

theorem keeps_execLastSetRequest {a1 a2} (hW : sub 4194626 W = true) (h : Keeps W s0 s) : KeepsOut W s0 (@execLastSetRequest a1 a2 s) := by
  unfold execLastSetRequest
  repeat' first
    | with_reducible assumption | exact sub_trans rfl hW | with_reducible apply keeps_requestStep
    | with_reducible apply keeps_timeWrite | with_reducible apply keeps_ran | with_reducible apply keeps_State_begin | intro _

theorem keeps_servoCorrection {a1} (hW : sub 322 W = true) (h : Keeps W s0 s) : Keeps W s0 (@servoCorrection a1 s) := by
  unfold servoCorrection
  repeat' first
    | with_reducible assumption | with_reducible apply keeps_requestStep | with_reducible apply keeps_addSlew
    | with_reducible apply keeps_ite

theorem keeps_execServoPhaseCorrection {a1} (hW : sub 4194626 W = true) (h : Keeps W s0 s) : KeepsOut W s0 (@execServoPhaseCorrection a1 s) := by
  unfold execServoPhaseCorrection
  repeat' first
    | with_reducible assumption | exact sub_trans rfl hW | with_reducible apply keeps_servoCorrection
    | with_reducible apply keeps_ran | with_reducible apply keeps_State_begin | with_reducible apply keeps_ite

theorem keeps_execSlewRequest {a1 a2} (hW : sub 4194626 W = true) (h : Keeps W s0 s) : KeepsOut W s0 (@execSlewRequest a1 a2 s) := by
  unfold execSlewRequest
  repeat' first
    | with_reducible assumption | exact sub_trans rfl hW | with_reducible apply keeps_addSlew
    | with_reducible apply keeps_writeAt | with_reducible apply keeps_ran | with_reducible apply keeps_State_begin | intro _

theorem keeps_writeSlewCfg {a1} (hW : sub 258 W = true) (h : Keeps W s0 s) : Keeps W s0 (@writeSlewCfg a1 s) := by
  unfold writeSlewCfg
  repeat' first
    | with_reducible assumption | exact sub_trans rfl hW | with_reducible apply keeps_rateCheck
    | with_reducible apply keeps_setF

theorem keeps_execSlewCfgWrite {a1 a2} (hW : sub 4194562 W = true) (h : Keeps W s0 s) : KeepsOut W s0 (@execSlewCfgWrite a1 a2 s) := by
  unfold execSlewCfgWrite
  repeat' first
    | with_reducible assumption | exact sub_trans rfl hW | with_reducible apply keeps_writeSlewCfg
    | with_reducible apply keeps_writeAt | with_reducible apply keeps_ran | with_reducible apply keeps_State_begin | intro _

theorem keeps_execSlewDone (hW : sub 4194626 W = true) (h : Keeps W s0 s) : KeepsOut W s0 (@execSlewDone s) := by
  unfold execSlewDone
  repeat' first
    | with_reducible assumption | exact sub_trans rfl hW | with_reducible apply keeps_slewStep | with_reducible apply keeps_ran
    | with_reducible apply keeps_State_begin | with_reducible apply keeps_ite

theorem keeps_postEstimate {a1 a2 a3 a4} (hW : sub 450 W = true) (h : Keeps W s0 s) : Keeps W s0 (@postEstimate a1 a2 a3 a4 s) := by
  unfold postEstimate
  repeat' first
    | with_reducible assumption | exact sub_trans rfl hW | with_reducible apply keeps_activityCheck
    | with_reducible apply keeps_weltUpdate | with_reducible apply keeps_weltCheck | with_reducible apply keeps_setDom
    | with_reducible apply keeps_setCand | with_reducible apply keeps_whenS | with_reducible apply keeps_raise
    | with_reducible apply keeps_ite | intro _

theorem keeps_execDomainStale {a1} (hW : sub 4194754 W = true) (h : Keeps W s0 s) : KeepsOut W s0 (@execDomainStale a1 s) := by
  unfold execDomainStale
  repeat' first
    | with_reducible assumption | exact sub_trans rfl hW | with_reducible apply keeps_activityCheck
    | with_reducible apply keeps_weltCheck | with_reducible apply keeps_setDom | with_reducible apply keeps_ran
    | with_reducible apply keeps_State_begin | with_reducible apply keeps_raise | with_reducible apply keeps_ite

theorem keeps_releaseHold (hW : sub 450 W = true) (h : Keeps W s0 s) : Keeps W s0 (@releaseHold s) := by
  unfold releaseHold
  repeat' first
    | with_reducible assumption | with_reducible apply keeps_selectAll | with_reducible apply keeps_ite
    | with_reducible refine keeps_up_tim (sub_bit rfl hW) rfl ?_

theorem keeps_setWeltEna {a1} (hW : sub 322 W = true) (h : Keeps W s0 s) : Keeps W s0 (@setWeltEna a1 s) := by
  unfold setWeltEna
  repeat' first
    | with_reducible assumption | exact sub_trans rfl hW | with_reducible apply keeps_weltUninit
    | with_reducible apply keeps_weltCheck | with_reducible apply keeps_setFlag | with_reducible apply keeps_ite

theorem keeps_writeTimCtl {a1} (hW : sub 450 W = true) (h : Keeps W s0 s) : Keeps W s0 (@writeTimCtl a1 s) := by
  unfold writeTimCtl
  repeat' first
    | with_reducible assumption | exact sub_trans rfl hW | with_reducible apply keeps_setWeltEna
    | with_reducible apply keeps_releaseHold | with_reducible apply keeps_softSwitch | with_reducible apply keeps_domReqSync
    | with_reducible apply keeps_whenS | with_reducible apply keeps_raise | with_reducible apply keeps_setFlag
    | with_reducible apply keeps_setF | with_reducible apply keeps_ite
    | with_reducible refine keeps_up_tim (sub_bit rfl hW) rfl ?_ | intro _

theorem keeps_execDomainSwitchRequest {a1 a2} (hW : sub 4194754 W = true) (h : Keeps W s0 s) : KeepsOut W s0 (@execDomainSwitchRequest a1 a2 s) := by
  unfold execDomainSwitchRequest
  repeat' first
    | with_reducible assumption | exact sub_trans rfl hW | with_reducible apply keeps_writeTimCtl
    | with_reducible apply keeps_writeAt | with_reducible apply keeps_ran | with_reducible apply keeps_State_begin | intro _

theorem keeps_execSwitchArm {a1 a2} (hW : sub 4194754 W = true) (h : Keeps W s0 s) : KeepsOut W s0 (@execSwitchArm a1 a2 s) := by
  unfold execSwitchArm
  repeat' first
    | with_reducible assumption | exact sub_trans rfl hW | with_reducible apply keeps_writeTimCtl
    | with_reducible apply keeps_writeAt | with_reducible apply keeps_ran | with_reducible apply keeps_State_begin | intro _

theorem keeps_execSwitchCancel {a1 a2} (hW : sub 4194754 W = true) (h : Keeps W s0 s) : KeepsOut W s0 (@execSwitchCancel a1 a2 s) := by
  unfold execSwitchCancel
  repeat' first
    | with_reducible assumption | exact sub_trans rfl hW | with_reducible apply keeps_writeTimCtl
    | with_reducible apply keeps_writeAt | with_reducible apply keeps_ran | with_reducible apply keeps_State_begin | intro _

theorem keeps_timedSwitch (hW : sub 450 W = true) (h : Keeps W s0 s) : Keeps W s0 (@timedSwitch s) := by
  unfold timedSwitch
  repeat' first
    | with_reducible assumption | with_reducible apply keeps_softSwitch | with_reducible apply keeps_ite
    | with_reducible refine keeps_up_tim (sub_bit rfl hW) rfl ?_

theorem keeps_execSwitchTimeWrite {a1 a2} (hW : sub 4194754 W = true) (h : Keeps W s0 s) : KeepsOut W s0 (@execSwitchTimeWrite a1 a2 s) := by
  unfold execSwitchTimeWrite
  repeat' first
    | with_reducible assumption | exact sub_trans rfl hW | with_reducible apply keeps_timedSwitch
    | with_reducible apply keeps_timeWrite | with_reducible apply keeps_ran | with_reducible apply keeps_State_begin
    | with_reducible apply keeps_setT96 | intro _

theorem keeps_execTimedSwitchInstant (hW : sub 4194754 W = true) (h : Keeps W s0 s) : KeepsOut W s0 (@execTimedSwitchInstant s) := by
  unfold execTimedSwitchInstant
  repeat' first
    | with_reducible assumption | exact sub_trans rfl hW | with_reducible apply keeps_timedSwitch
    | with_reducible apply keeps_ran | with_reducible apply keeps_State_begin | with_reducible apply keeps_ite

theorem keeps_execDomainRelease {a1 a2} (hW : sub 4194754 W = true) (h : Keeps W s0 s) : KeepsOut W s0 (@execDomainRelease a1 a2 s) := by
  unfold execDomainRelease
  repeat' first
    | with_reducible assumption | exact sub_trans rfl hW | with_reducible apply keeps_writeTimCtl
    | with_reducible apply keeps_writeAt | with_reducible apply keeps_ran | with_reducible apply keeps_State_begin | intro _

theorem keeps_execWeltEnaWrite {a1 a2} (hW : sub 4194754 W = true) (h : Keeps W s0 s) : KeepsOut W s0 (@execWeltEnaWrite a1 a2 s) := by
  unfold execWeltEnaWrite
  repeat' first
    | with_reducible assumption | exact sub_trans rfl hW | with_reducible apply keeps_writeTimCtl
    | with_reducible apply keeps_writeAt | with_reducible apply keeps_ran | with_reducible apply keeps_State_begin | intro _

theorem keeps_blendEnd {a1} (hW : sub 322 W = true) (h : Keeps W s0 s) : Keeps W s0 (@blendEnd a1 s) := by
  unfold blendEnd
  repeat' first
    | with_reducible assumption | with_reducible apply keeps_requestStep | with_reducible apply keeps_ite | split
    | with_reducible refine keeps_up_tim (sub_bit rfl hW) rfl ?_

theorem keeps_execBlendEnd (hW : sub 4194626 W = true) (h : Keeps W s0 s) : KeepsOut W s0 (@execBlendEnd s) := by
  unfold execBlendEnd
  repeat' first
    | with_reducible assumption | exact sub_trans rfl hW | with_reducible apply keeps_blendEnd | with_reducible apply keeps_ran
    | with_reducible apply keeps_State_begin | with_reducible apply keeps_ite | split

theorem keeps_execConvergeDone (hW : sub 4194368 W = true) (h : Keeps W s0 s) : KeepsOut W s0 (@execConvergeDone s) := by
  unfold execConvergeDone
  repeat' first
    | with_reducible assumption | exact sub_trans rfl hW | with_reducible apply keeps_convergeCycle
    | with_reducible apply keeps_ran | with_reducible apply keeps_State_begin | with_reducible apply keeps_ite

theorem keeps_useGrant {i a p m} (e : useGrant i a p m s = some t) (hW : sub 2048 W = true) (h : Keeps W s0 s) : Keeps W s0 t := by
  unfold useGrant at e
  simp only [] at e
  split at e
  · cases e; exact keeps_mk h rfl rfl rfl (by constructor <;> first | exact off rfl hW | exact fun _ => rfl)
  · cases e

theorem keeps_writeMap {a1 a2} (hW : sub 4196802 W = true) (h : Keeps W s0 s) : Keeps W s0 (@writeMap a1 a2 s) := by
  unfold writeMap
  repeat' first
    | with_reducible assumption | exact sub_trans rfl hW | with_reducible apply keeps_forceAll
    | with_reducible apply keeps_setPteInst | with_reducible apply keeps_raise | with_reducible apply keeps_setF
    | with_reducible apply keeps_foldl | with_reducible apply keeps_ite | intro _

theorem keeps_execDomainMapWrite {a1 a2 a3} (hW : sub 4196802 W = true) (h : Keeps W s0 s) : KeepsOut W s0 (@execDomainMapWrite a1 a2 a3 s) := by
  unfold execDomainMapWrite
  repeat' first
    | with_reducible assumption | exact sub_trans rfl hW | with_reducible apply keeps_writeMap
    | with_reducible apply keeps_writeAt | with_reducible apply keeps_ran | with_reducible apply keeps_State_begin | intro _

theorem keeps_execIntervalWrite {a1 a2} (hW : sub 4196610 W = true) (h : Keeps W s0 s) : KeepsOut W s0 (@execIntervalWrite a1 a2 s) := by
  unfold execIntervalWrite
  repeat' first
    | with_reducible assumption | exact sub_trans rfl hW | with_reducible apply keeps_setPteInst
    | with_reducible apply keeps_writeAt | with_reducible apply keeps_ran | with_reducible apply keeps_State_begin | intro _

theorem keeps_writePortState {a1 a2} (hW : sub 4196802 W = true) (h : Keeps W s0 s) : Keeps W s0 (@writePortState a1 a2 s) := by
  unfold writePortState
  repeat' first
    | with_reducible assumption | exact sub_trans rfl hW | with_reducible apply keeps_movePteState
    | with_reducible apply keeps_raise | with_reducible apply keeps_ite

theorem keeps_reportL1 {a1 a2 a3} (hW : sub 2 W = true) (h : Keeps W s0 s) : Keeps W s0 (@reportL1 a1 a2 a3 s) := by
  unfold reportL1
  repeat' first
    | with_reducible assumption | with_reducible apply keeps_setF | with_reducible apply keeps_ite | split

theorem keeps_execPortStateWrite {a1 a2} (hW : sub 4196802 W = true) (h : Keeps W s0 s) : KeepsOut W s0 (@execPortStateWrite a1 a2 s) := by
  unfold execPortStateWrite
  repeat' first
    | with_reducible assumption | exact sub_trans rfl hW | with_reducible apply keeps_reportL1
    | with_reducible apply keeps_writePortState | with_reducible apply keeps_writeAt | with_reducible apply keeps_ran
    | with_reducible apply keeps_State_begin | intro _

theorem keeps_writePtePortCfg {a1 a2} (hW : sub 4196802 W = true) (h : Keeps W s0 s) : Keeps W s0 (@writePtePortCfg a1 a2 s) := by
  unfold writePtePortCfg
  repeat' first
    | with_reducible assumption | exact sub_trans rfl hW | with_reducible apply keeps_pteForce
    | with_reducible apply keeps_setPteState | with_reducible apply keeps_fitLoad | with_reducible apply keeps_settle
    | with_reducible apply keeps_setF | with_reducible apply keeps_ite

theorem keeps_execPortEnableWrite {a1 a2} (hW : sub 4196802 W = true) (h : Keeps W s0 s) : KeepsOut W s0 (@execPortEnableWrite a1 a2 s) := by
  unfold execPortEnableWrite
  repeat' first
    | with_reducible assumption | exact sub_trans rfl hW | with_reducible apply keeps_writePtePortCfg
    | with_reducible apply keeps_writeAt | with_reducible apply keeps_ran | with_reducible apply keeps_State_begin | intro _

theorem keeps_execTallyInvalidTimeout {a1} (hW : sub 4197314 W = true) (h : Keeps W s0 s) : KeepsOut W s0 (@execTallyInvalidTimeout a1 s) := by
  unfold execTallyInvalidTimeout
  repeat' first
    | with_reducible assumption | exact sub_trans rfl hW | with_reducible apply keeps_forcePort
    | with_reducible apply keeps_setTally | with_reducible apply keeps_ran | with_reducible apply keeps_State_begin
    | with_reducible apply keeps_ite

theorem keeps_queueTx {a1} (hW : sub 2306 W = true) (h : Keeps W s0 s) : Keeps W s0 (@queueTx a1 s) := by
  unfold queueTx
  repeat' first
    | with_reducible assumption | exact sub_trans rfl hW | with_reducible apply keeps_monEvent
    | with_reducible apply keeps_bump | with_reducible refine keeps_up_pte (sub_bit rfl hW) ?_

theorem keeps_pteRx {a1} (hW : sub 258 W = true) (h : Keeps W s0 s) : Keeps W s0 (@pteRx a1 s) := by
  unfold pteRx
  repeat' first
    | with_reducible assumption | exact sub_trans rfl hW | with_reducible apply keeps_monEvent
    | with_reducible apply keeps_bump

theorem keeps_sendSync {a1 a2} (hW : sub 2306 W = true) (h : Keeps W s0 s) : Keeps W s0 (@sendSync a1 a2 s) := by
  unfold sendSync
  repeat' first
    | with_reducible assumption | exact sub_trans rfl hW | with_reducible apply keeps_queueTx
    | with_reducible apply keeps_setPteInst

theorem keeps_execSyncTransmit {a1 a2} (hW : sub 6359298 W = true) (h : Keeps W s0 s) : KeepsOut W s0 (@execSyncTransmit a1 a2 s) := by
  unfold execSyncTransmit
  try simp only []
  repeat' first
    | with_reducible assumption | exact sub_trans rfl hW | with_reducible apply keeps_sendSync
    | with_reducible apply keeps_partnerRead | with_reducible apply keeps_applyInterval | with_reducible apply keeps_setPteInst
    | with_reducible apply keeps_ran | with_reducible apply keeps_State_begin
    | refine keeps_useGrant (by assumption) (sub_trans rfl hW) ?_ | with_reducible apply keeps_ite | split

theorem keeps_sendAnnounce {a1 a2} (hW : sub 4196352 W = true) (h : Keeps W s0 s) : Keeps W s0 (@sendAnnounce a1 a2 s) := by
  unfold sendAnnounce
  repeat' first
    | with_reducible assumption | exact sub_trans rfl hW | with_reducible apply keeps_sendPtp
    | with_reducible apply keeps_setPteInst

theorem keeps_setTemplate {a1 a2} (hW : sub 2048 W = true) (h : Keeps W s0 s) : Keeps W s0 (@setTemplate a1 a2 s) := by
  unfold setTemplate
  repeat' first
    | with_reducible assumption | split | with_reducible refine keeps_up_pte (sub_bit rfl hW) ?_

theorem keeps_execAnnounceTransmit {a1 a2} (hW : sub 6359298 W = true) (h : Keeps W s0 s) : KeepsOut W s0 (@execAnnounceTransmit a1 a2 s) := by
  unfold execAnnounceTransmit
  try simp only []
  repeat' first
    | with_reducible assumption | exact sub_trans rfl hW | with_reducible apply keeps_setTemplate
    | with_reducible apply keeps_sendAnnounce | with_reducible apply keeps_partnerRead
    | with_reducible apply keeps_applyInterval | with_reducible apply keeps_setPteInst | with_reducible apply keeps_ran
    | with_reducible apply keeps_State_begin | refine keeps_useGrant (by assumption) (sub_trans rfl hW) ?_
    | with_reducible apply keeps_ite | split

theorem keeps_execPdelayReqTransmit {a1} (hW : sub 4196610 W = true) (h : Keeps W s0 s) : KeepsOut W s0 (@execPdelayReqTransmit a1 s) := by
  unfold execPdelayReqTransmit
  repeat' first
    | with_reducible assumption | exact sub_trans rfl hW | with_reducible apply keeps_queueTx
    | with_reducible apply keeps_applyInterval | with_reducible apply keeps_setPteInst | with_reducible apply keeps_ran
    | with_reducible apply keeps_State_begin | with_reducible apply keeps_ite

theorem keeps_execDelayReqTransmit {a1} (hW : sub 4196610 W = true) (h : Keeps W s0 s) : KeepsOut W s0 (@execDelayReqTransmit a1 s) := by
  unfold execDelayReqTransmit
  repeat' first
    | with_reducible assumption | exact sub_trans rfl hW | with_reducible apply keeps_queueTx
    | with_reducible apply keeps_drawDelay | with_reducible apply keeps_applyInterval | with_reducible apply keeps_pteDrop
    | with_reducible apply keeps_setPteInst | with_reducible apply keeps_ran | with_reducible apply keeps_whenS
    | with_reducible apply keeps_State_begin | with_reducible apply keeps_ite | split | intro _

theorem keeps_keepTx {a1 a2} (hW : sub 2048 W = true) (h : Keeps W s0 s) : Keeps W s0 (@keepTx a1 a2 s) := by
  unfold keepTx
  repeat' first
    | with_reducible assumption | with_reducible apply keeps_setPteInst | with_reducible apply keeps_ite | split
    | with_reducible refine keeps_up_pte (sub_bit rfl hW) ?_

theorem keeps_sendInserted {a1 a2} (hW : sub 4202754 W = true) (h : Keeps W s0 s) : Keeps W s0 (@sendInserted a1 a2 s) := by
  unfold sendInserted
  repeat' first
    | with_reducible assumption | exact sub_trans rfl hW | with_reducible apply keeps_sumpCount
    | with_reducible apply keeps_emit | with_reducible apply keeps_raise | with_reducible apply keeps_bump | split

theorem keeps_execTxTimeReturn {a1 a2 a3} (hW : sub 12855554 W = true) (h : Keeps W s0 s) : KeepsOut W s0 (@execTxTimeReturn a1 a2 a3 s) := by
  unfold execTxTimeReturn
  repeat' first
    | with_reducible assumption | exact sub_trans rfl hW | with_reducible apply keeps_sendInserted
    | with_reducible apply keeps_keepTx | with_reducible apply keeps_sendPtp | with_reducible apply keeps_formTx
    | with_reducible apply keeps_freeReload | with_reducible apply keeps_ran | with_reducible apply keeps_State_begin
    | with_reducible apply keeps_bump | with_reducible apply keeps_ite | split
    | with_reducible refine keeps_up_pte (sub_bit rfl hW) ?_

theorem keeps_execFollowUpTransmit {a1} (hW : sub 4196352 W = true) (h : Keeps W s0 s) : KeepsOut W s0 (@execFollowUpTransmit a1 s) := by
  unfold execFollowUpTransmit
  repeat' first
    | with_reducible assumption | exact sub_trans rfl hW | with_reducible apply keeps_sendPtp | with_reducible apply keeps_ran
    | with_reducible apply keeps_State_begin | with_reducible apply keeps_ite | split
    | with_reducible refine keeps_up_pte (sub_bit rfl hW) ?_

theorem keeps_tForward {a1} (hW : sub 2107650 W = true) (h : Keeps W s0 s) : Keeps W s0 (@tForward a1 s) := by
  unfold tForward
  repeat' first
    | with_reducible assumption | exact sub_trans rfl hW | with_reducible apply keeps_corrRead
    | with_reducible apply keeps_pteDrop | with_reducible apply keeps_setFrame | with_reducible apply keeps_raise
    | with_reducible apply keeps_foldl | with_reducible apply keeps_ite | split | intro _

theorem keeps_execTransparentForward {a1} (hW : sub 6301954 W = true) (h : Keeps W s0 s) : KeepsOut W s0 (@execTransparentForward a1 s) := by
  unfold execTransparentForward
  repeat' first
    | with_reducible assumption | exact sub_trans rfl hW | with_reducible apply keeps_tForward | with_reducible apply keeps_ran
    | with_reducible apply keeps_State_begin | with_reducible apply keeps_ite

theorem keeps_execSyncReceive {a1} (hW : sub 4204802 W = true) (h : Keeps W s0 s) : KeepsOut W s0 (@execSyncReceive a1 s) := by
  unfold execSyncReceive
  repeat' first
    | with_reducible assumption | exact sub_trans rfl hW | with_reducible apply keeps_pteRx
    | with_reducible apply keeps_acceptSync | with_reducible apply keeps_setPteInst | with_reducible apply keeps_setFrame
    | with_reducible apply keeps_ran | with_reducible apply keeps_State_begin | with_reducible apply keeps_ite | split

theorem keeps_execFollowUpReceive {a1} (hW : sub 6301954 W = true) (h : Keeps W s0 s) : KeepsOut W s0 (@execFollowUpReceive a1 s) := by
  unfold execFollowUpReceive
  repeat' first
    | with_reducible assumption | exact sub_trans rfl hW | with_reducible apply keeps_tForward
    | with_reducible apply keeps_acceptSync | with_reducible apply keeps_setPteInst | with_reducible apply keeps_setFrame
    | with_reducible apply keeps_ran | with_reducible apply keeps_State_begin | with_reducible apply keeps_ite | split

theorem keeps_execDelayReqReceive {a1} (hW : sub 6367490 W = true) (h : Keeps W s0 s) : KeepsOut W s0 (@execDelayReqReceive a1 s) := by
  unfold execDelayReqReceive
  try simp only []
  repeat' first
    | with_reducible assumption | exact sub_trans rfl hW | with_reducible apply keeps_pteRx
    | with_reducible apply keeps_partnerRead | with_reducible refine keeps_snd (keeps_takeToken (sub_trans rfl hW) ?_)
    | with_reducible apply keeps_sendPtp | with_reducible apply keeps_setFrame | with_reducible apply keeps_ran
    | with_reducible apply keeps_State_begin | refine keeps_useGrant (by assumption) (sub_trans rfl hW) ?_
    | with_reducible apply keeps_ite | split

theorem keeps_delayExchange {a1 a2 a3 a4} (hW : sub 2306 W = true) (h : Keeps W s0 s) : Keeps W s0 (@delayExchange a1 a2 a3 a4 s) := by
  unfold delayExchange
  repeat' first
    | with_reducible assumption | exact sub_trans rfl hW | with_reducible apply keeps_filterAdd
    | with_reducible apply keeps_raise | with_reducible apply keeps_ite | split

theorem keeps_execDelayRespReceive {a1} (hW : sub 4204802 W = true) (h : Keeps W s0 s) : KeepsOut W s0 (@execDelayRespReceive a1 s) := by
  unfold execDelayRespReceive
  repeat' first
    | with_reducible assumption | exact sub_trans rfl hW | with_reducible apply keeps_delayExchange
    | with_reducible apply keeps_setPteInst | with_reducible apply keeps_setFrame | with_reducible apply keeps_ran
    | with_reducible apply keeps_State_begin | with_reducible apply keeps_ite | split
    | with_reducible refine keeps_up_flt (sub_bit rfl hW) ?_

theorem keeps_execDelayReqTimeout {a1} (hW : sub 4196354 W = true) (h : Keeps W s0 s) : KeepsOut W s0 (@execDelayReqTimeout a1 s) := by
  unfold execDelayReqTimeout
  repeat' first
    | with_reducible assumption | exact sub_trans rfl hW | with_reducible apply keeps_pteDrop
    | with_reducible apply keeps_setPteInst | with_reducible apply keeps_ran | with_reducible apply keeps_State_begin
    | with_reducible apply keeps_foldl | intro _

theorem keeps_execPdelayReqReceive {a1} (hW : sub 6367490 W = true) (h : Keeps W s0 s) : KeepsOut W s0 (@execPdelayReqReceive a1 s) := by
  unfold execPdelayReqReceive
  try simp only []
  repeat' first
    | with_reducible assumption | exact sub_trans rfl hW | with_reducible apply keeps_pteRx
    | with_reducible apply keeps_queueTx | with_reducible apply keeps_partnerRead
    | with_reducible refine keeps_snd (keeps_takeToken (sub_trans rfl hW) ?_) | with_reducible apply keeps_setFrame
    | with_reducible apply keeps_ran | with_reducible apply keeps_State_begin
    | refine keeps_useGrant (by assumption) (sub_trans rfl hW) ?_ | with_reducible apply keeps_ite | split

theorem keeps_nrrTwoStep {a1 a2 a3} (hW : sub 2050 W = true) (h : Keeps W s0 s) : Keeps W s0 (@nrrTwoStep a1 a2 a3 s) := by
  unfold nrrTwoStep
  repeat' first
    | with_reducible assumption | exact sub_trans rfl hW | with_reducible apply keeps_setPteInst
    | with_reducible apply keeps_setF | with_reducible apply keeps_ite | split
    | with_reducible refine keeps_up_pte (sub_bit rfl hW) ?_

theorem keeps_nrrTally {a1} (hW : sub 2 W = true) (h : Keeps W s0 s) : Keeps W s0 (@nrrTally a1 s) := by
  unfold nrrTally
  repeat' first
    | with_reducible assumption | with_reducible apply keeps_setF | split

theorem keeps_linkDelay {a1 a2 a3 a4} (hW : sub 2050 W = true) (h : Keeps W s0 s) : Keeps W s0 (@linkDelay a1 a2 a3 a4 s) := by
  unfold linkDelay
  repeat' first
    | with_reducible assumption | with_reducible apply keeps_filterAdd

theorem keeps_execPdelayRespReceive {a1} (hW : sub 4204802 W = true) (h : Keeps W s0 s) : KeepsOut W s0 (@execPdelayRespReceive a1 s) := by
  unfold execPdelayRespReceive
  repeat' first
    | with_reducible assumption | exact sub_trans rfl hW | with_reducible apply keeps_linkDelay
    | with_reducible apply keeps_nrrTally | with_reducible apply keeps_nrrTwoStep | with_reducible apply keeps_pteRx
    | with_reducible apply keeps_setPteInst | with_reducible apply keeps_setFrame | with_reducible apply keeps_ran
    | with_reducible apply keeps_State_begin | with_reducible apply keeps_raise | with_reducible apply keeps_ite | split

theorem keeps_execGeneralMessageReceive {a1} (hW : sub 4204546 W = true) (h : Keeps W s0 s) : KeepsOut W s0 (@execGeneralMessageReceive a1 s) := by
  unfold execGeneralMessageReceive
  repeat' first
    | with_reducible assumption | exact sub_trans rfl hW
    | with_reducible refine keeps_snd (keeps_fwToken (sub_trans rfl hW) ?_) | with_reducible apply keeps_pteDrop
    | with_reducible apply keeps_setFrame | with_reducible apply keeps_ran | with_reducible apply keeps_State_begin
    | with_reducible apply keeps_emit | with_reducible apply keeps_ite | split

theorem keeps_execFupEntryTimeout (hW : sub 4196352 W = true) (h : Keeps W s0 s) : KeepsOut W s0 (@execFupEntryTimeout s) := by
  unfold execFupEntryTimeout
  repeat' first
    | with_reducible assumption | exact sub_trans rfl hW | with_reducible apply keeps_ran
    | with_reducible apply keeps_State_begin | with_reducible refine keeps_up_pte (sub_bit rfl hW) ?_

theorem keeps_execSyncTimeout {a1} (hW : sub 4196610 W = true) (h : Keeps W s0 s) : KeepsOut W s0 (@execSyncTimeout a1 s) := by
  unfold execSyncTimeout
  repeat' first
    | with_reducible assumption | exact sub_trans rfl hW | with_reducible apply keeps_setPteInst
    | with_reducible apply keeps_ran | with_reducible apply keeps_State_begin | with_reducible apply keeps_raise
    | with_reducible apply keeps_ite

theorem keeps_execDomainEstimatePost {a1 a2} (hW : sub 4196802 W = true) (h : Keeps W s0 s) : KeepsOut W s0 (@execDomainEstimatePost a1 a2 s) := by
  unfold execDomainEstimatePost
  repeat' first
    | with_reducible assumption | exact sub_trans rfl hW | with_reducible apply keeps_postEstimate
    | with_reducible apply keeps_servoEstimate | with_reducible apply keeps_ran | with_reducible apply keeps_State_begin
    | with_reducible apply keeps_ite | split | with_reducible refine keeps_pair (by assumption) ?_

theorem keeps_denyGrant {a1 a2 a3 a4 a5} (hW : sub 4194562 W = true) (h : Keeps W s0 s) : Keeps W s0 (@denyGrant a1 a2 a3 a4 a5 s) := by
  unfold denyGrant
  repeat' first
    | with_reducible assumption | exact sub_trans rfl hW | with_reducible apply keeps_emit | with_reducible apply keeps_raise
    | with_reducible apply keeps_bump

theorem keeps_giveGrant {a1 a2 a3 a4 a5 a6} (hW : sub 4262146 W = true) (h : Keeps W s0 s) : Keeps W s0 (@giveGrant a1 a2 a3 a4 a5 a6 s) := by
  unfold giveGrant
  repeat' first
    | with_reducible assumption | exact sub_trans rfl hW | with_reducible apply keeps_settle
    | with_reducible apply keeps_fullWrite | with_reducible apply keeps_whenS | with_reducible apply keeps_emit
    | with_reducible apply keeps_setF | with_reducible apply keeps_ite | split
    | with_reducible refine keeps_up_pte (sub_bit rfl hW) ?_ | intro _

theorem keeps_unicastRequest {a1 a2 a3 a4 a5 a6} (hW : sub 6359298 W = true) (h : Keeps W s0 s) : Keeps W s0 (@unicastRequest a1 a2 a3 a4 a5 a6 s) := by
  unfold unicastRequest
  repeat' first
    | with_reducible assumption | exact sub_trans rfl hW | with_reducible apply keeps_giveGrant
    | with_reducible apply keeps_denyGrant | with_reducible apply keeps_partnerRead | with_reducible apply keeps_dropGrants
    | with_reducible apply keeps_settle | with_reducible apply keeps_whenS | with_reducible apply keeps_raise
    | with_reducible apply keeps_ite | intro _

theorem keeps_execUnicastRequest {a1 a2 a3 a4 a5 a6} (hW : sub 6359298 W = true) (h : Keeps W s0 s) : KeepsOut W s0 (@execUnicastRequest a1 a2 a3 a4 a5 a6 s) := by
  unfold execUnicastRequest
  repeat' first
    | with_reducible assumption | exact sub_trans rfl hW | with_reducible apply keeps_unicastRequest
    | with_reducible apply keeps_ran | with_reducible apply keeps_State_begin | with_reducible apply keeps_ite

theorem keeps_execUnicastCancel {a1 a2 a3 a4} (hW : sub 4196354 W = true) (h : Keeps W s0 s) : KeepsOut W s0 (@execUnicastCancel a1 a2 a3 a4 s) := by
  unfold execUnicastCancel
  repeat' first
    | with_reducible assumption | exact sub_trans rfl hW | with_reducible apply keeps_dropGrants
    | with_reducible apply keeps_settle | with_reducible apply keeps_ran | with_reducible apply keeps_State_begin
    | with_reducible apply keeps_emit | with_reducible apply keeps_ite

theorem keeps_execGrantExpiry {a1} (hW : sub 4196354 W = true) (h : Keeps W s0 s) : KeepsOut W s0 (@execGrantExpiry a1 s) := by
  unfold execGrantExpiry
  repeat' first
    | with_reducible assumption | exact sub_trans rfl hW | with_reducible apply keeps_dropGrants
    | with_reducible apply keeps_settle | with_reducible apply keeps_ran | with_reducible apply keeps_State_begin

theorem keeps_execTallyMeasurement {a1 a2 a3} (hW : sub 4197314 W = true) (h : Keeps W s0 s) : KeepsOut W s0 (@execTallyMeasurement a1 a2 a3 s) := by
  unfold execTallyMeasurement
  repeat' first
    | with_reducible assumption | exact sub_trans rfl hW | with_reducible apply keeps_nrrTally
    | with_reducible apply keeps_forcePort | with_reducible apply keeps_tallyPost | with_reducible apply keeps_ran
    | with_reducible apply keeps_State_begin | with_reducible apply keeps_ite

theorem keeps_execCdrLockAcquire {a1} (hW : sub 4194818 W = true) (h : Keeps W s0 s) : KeepsOut W s0 (@execCdrLockAcquire a1 s) := by
  unfold execCdrLockAcquire
  repeat' first
    | with_reducible assumption | exact sub_trans rfl hW | with_reducible apply keeps_setTally | with_reducible apply keeps_ran
    | with_reducible apply keeps_State_begin | with_reducible apply keeps_setF | with_reducible apply keeps_ite

theorem keeps_execCdrLockLoss {a1} (hW : sub 4195266 W = true) (h : Keeps W s0 s) : KeepsOut W s0 (@execCdrLockLoss a1 s) := by
  unfold execCdrLockLoss
  repeat' first
    | with_reducible assumption | exact sub_trans rfl hW | with_reducible apply keeps_tallyInvalid
    | with_reducible apply keeps_ran | with_reducible apply keeps_State_begin | with_reducible apply keeps_setF
    | with_reducible apply keeps_ite

theorem keeps_frameStart {a1 a2 a3 a4 a5 a6} (hW : sub 8478978 W = true) (h : Keeps W s0 s) : Keeps W s0 (@frameStart a1 a2 a3 a4 a5 a6 s) := by
  unfold frameStart
  repeat' first
    | with_reducible assumption | exact sub_trans rfl hW | with_reducible apply keeps_sump
    | with_reducible apply keeps_addFrame | with_reducible apply keeps_bwAdd | with_reducible apply keeps_monEvent
    | with_reducible refine keeps_snd (keeps_formRx (sub_trans rfl hW) ?_) | with_reducible apply keeps_ite

theorem keeps_execFrameReceive {a1 a2 a3 a4 a5 a6} (hW : sub 12673282 W = true) (h : Keeps W s0 s) : KeepsOut W s0 (@execFrameReceive a1 a2 a3 a4 a5 a6 s) := by
  unfold execFrameReceive
  repeat' first
    | with_reducible assumption | exact sub_trans rfl hW | with_reducible apply keeps_frameStart
    | with_reducible apply keeps_ran | with_reducible apply keeps_State_begin | with_reducible apply keeps_bump
    | with_reducible apply keeps_ite | split

theorem keeps_endFrame {a1 a2 a3} (hW : sub 10580226 W = true) (h : Keeps W s0 s) : Keeps W s0 (@endFrame a1 a2 a3 s) := by
  unfold endFrame
  repeat' first
    | with_reducible assumption | exact sub_trans rfl hW | with_reducible apply keeps_exhausted
    | with_reducible apply keeps_frameBad | with_reducible apply keeps_dropFrame | with_reducible apply keeps_touchFrame
    | with_reducible apply keeps_reapFrame | with_reducible refine keeps_snd (keeps_storeCells (sub_trans rfl hW) ?_)
    | with_reducible apply keeps_setFrame | with_reducible apply keeps_bwAdd | with_reducible apply keeps_monEvent
    | with_reducible apply keeps_ite | split

theorem keeps_execFrameEndReceive {a1 a2 a3} (hW : sub 14774530 W = true) (h : Keeps W s0 s) : KeepsOut W s0 (@execFrameEndReceive a1 a2 a3 s) := by
  unfold execFrameEndReceive
  repeat' first
    | with_reducible assumption | exact sub_trans rfl hW | with_reducible apply keeps_endFrame | with_reducible apply keeps_ran
    | with_reducible apply keeps_State_begin

theorem keeps_execAlignmentLock {a1 a2} (hW : sub 4195074 W = true) (h : Keeps W s0 s) : KeepsOut W s0 (@execAlignmentLock a1 a2 s) := by
  unfold execAlignmentLock
  repeat' first
    | with_reducible assumption | exact sub_trans rfl hW | with_reducible apply keeps_setTally | with_reducible apply keeps_ran
    | with_reducible apply keeps_whenS | with_reducible apply keeps_State_begin | with_reducible apply keeps_raise
    | with_reducible apply keeps_setF | with_reducible apply keeps_ite | intro _

theorem keeps_execCalConstantApply {a1} (hW : sub 4195842 W = true) (h : Keeps W s0 s) : KeepsOut W s0 (@execCalConstantApply a1 s) := by
  unfold execCalConstantApply
  repeat' first
    | with_reducible assumption | exact sub_trans rfl hW | with_reducible apply keeps_calApply | with_reducible apply keeps_ran
    | with_reducible apply keeps_State_begin | with_reducible apply keeps_ite

end Sys2Proof.Machine
end

