-- ==== Sys2Proof/Laws/KeepsLine.lean ====
section
/-! SUPPORT. The ports, the APLLs and the TDC: what each operation keeps (Keeps.lean). -/

namespace Sys2Proof.Machine

variable {W : Nat} {s0 s t : State}

theorem keeps_cutRx {a1} (hW : sub 10580226 W = true) (h : Keeps W s0 s) : Keeps W s0 (@cutRx a1 s) := by
  unfold cutRx
  repeat' first
    | with_reducible assumption | intro _ | lift_lets | with_reducible apply keeps_endFrame | with_reducible apply keeps_foldl
    | with_reducible apply keeps_ite | intro _

theorem keeps_alignLost {a1} (hW : sub 2 W = true) (h : Keeps W s0 s) : Keeps W s0 (@alignLost a1 s) := by
  unfold alignLost
  repeat' first
    | with_reducible assumption | with_reducible apply keeps_setF

theorem keeps_setPort {a1 a2 a3} (hW : sub 15071682 W = true) (h : Keeps W s0 s) : Keeps W s0 (@setPort a1 a2 a3 s) := by
  unfold setPort
  repeat' first
    | with_reducible assumption | exact sub_trans rfl hW | with_reducible apply keeps_alignLost
    | with_reducible apply keeps_cutRx | with_reducible apply keeps_mmRestart | with_reducible apply keeps_forcePort
    | with_reducible apply keeps_allPaths | with_reducible apply keeps_bufUp | with_reducible apply keeps_bufDown
    | with_reducible apply keeps_flushOutput | with_reducible apply keeps_touchOut | with_reducible apply keeps_setHold
    | with_reducible apply keeps_activityCheck | with_reducible apply keeps_whenS | with_reducible apply keeps_raise
    | with_reducible apply keeps_bump | with_reducible apply keeps_setF | with_reducible apply keeps_ite | split
    | with_reducible refine keeps_up_lnk (sub_bit rfl hW) ?_ | intro _

theorem keeps_settlePort {a1} (hW : sub 15071682 W = true) (h : Keeps W s0 s) : Keeps W s0 (@settlePort a1 s) := by
  unfold settlePort
  repeat' first
    | with_reducible assumption | with_reducible apply keeps_setPort | with_reducible apply keeps_ite | split

theorem keeps_portLost {a1 a2} (hW : sub 15071682 W = true) (h : Keeps W s0 s) : Keeps W s0 (@portLost a1 a2 s) := by
  unfold portLost
  repeat' first
    | with_reducible assumption | intro _ | lift_lets | exact sub_trans rfl hW | with_reducible apply keeps_setPort
    | with_reducible apply keeps_setF | with_reducible apply keeps_foldl | with_reducible apply keeps_ite | intro _

theorem keeps_setCross {a1 a2 a3} (hW : sub 96 W = true) (h : Keeps W s0 s) : Keeps W s0 (@setCross a1 a2 a3 s) := by
  unfold setCross
  repeat' first
    | with_reducible assumption | exact sub_trans rfl hW | with_reducible apply keeps_whenS
    | with_reducible apply keeps_copyStop | with_reducible refine keeps_up_xings (sub_bit rfl hW) ?_ | intro _

theorem keeps_copiesStop (hW : sub 64 W = true) (h : Keeps W s0 s) : Keeps W s0 (@copiesStop s) := by
  unfold copiesStop
  repeat' first
    | with_reducible assumption | with_reducible apply keeps_copyStop | with_reducible apply keeps_foldl | intro _

theorem keeps_crossDown {a1} (hW : sub 96 W = true) (h : Keeps W s0 s) : Keeps W s0 (@crossDown a1 s) := by
  unfold crossDown
  repeat' first
    | with_reducible assumption | exact sub_trans rfl hW | with_reducible apply keeps_whenS
    | with_reducible apply keeps_copyStop | with_reducible refine keeps_up_xings (sub_bit rfl hW) ?_ | intro _

theorem keeps_loseFrame {a1} (hW : sub 14905602 W = true) (h : Keeps W s0 s) : Keeps W s0 (@loseFrame a1 s) := by
  unfold loseFrame
  repeat' first
    | with_reducible assumption | exact sub_trans rfl hW | with_reducible apply keeps_endFrame
    | with_reducible apply keeps_loseHead | with_reducible apply keeps_dropAll | with_reducible apply keeps_frameBad
    | with_reducible apply keeps_ite | split

theorem keeps_loseInputs {a1} (hW : sub 14905602 W = true) (h : Keeps W s0 s) : Keeps W s0 (@loseInputs a1 s) := by
  unfold loseInputs
  repeat' first
    | with_reducible assumption | intro _ | lift_lets | with_reducible apply keeps_loseFrame | with_reducible apply keeps_foldl
    | with_reducible apply keeps_ite | intro _

theorem keeps_loseLeaving {a1} (hW : sub 8478978 W = true) (h : Keeps W s0 s) : Keeps W s0 (@loseLeaving a1 s) := by
  unfold loseLeaving
  repeat' first
    | with_reducible assumption | with_reducible apply keeps_dropCopy | with_reducible apply keeps_foldl | intro _

theorem keeps_quadLost {a1 a2} (hW : sub 15202786 W = true) (h : Keeps W s0 s) : Keeps W s0 (@quadLost a1 a2 s) := by
  unfold quadLost
  repeat' first
    | with_reducible assumption | exact sub_trans rfl hW | with_reducible apply keeps_loseLeaving
    | with_reducible apply keeps_loseInputs | with_reducible apply keeps_crossDown | with_reducible apply keeps_setPort
    | with_reducible apply keeps_foldl | split | intro _

theorem keeps_quadClkCheck {a1} (hW : sub 15202786 W = true) (h : Keeps W s0 s) : Keeps W s0 (@quadClkCheck a1 s) := by
  unfold quadClkCheck
  repeat' first
    | with_reducible assumption | intro _ | lift_lets | exact sub_trans rfl hW | with_reducible apply keeps_quadLost
    | with_reducible apply keeps_settlePort | with_reducible apply keeps_setF | with_reducible apply keeps_foldl
    | with_reducible apply keeps_ite | intro _

theorem keeps_quadClks (hW : sub 15202786 W = true) (h : Keeps W s0 s) : Keeps W s0 (@quadClks s) := by
  unfold quadClks
  repeat' first
    | with_reducible assumption | with_reducible apply keeps_quadClkCheck | with_reducible apply keeps_foldl | intro _

theorem keeps_newConstants {a1 a2} (hW : sub 1024 W = true) (h : Keeps W s0 s) : Keeps W s0 (@newConstants a1 a2 s) := by
  unfold newConstants
  repeat' first
    | with_reducible assumption | with_reducible apply keeps_setCalPend

theorem keeps_calStat {a1 a2 a3} (hW : sub 2 W = true) (h : Keeps W s0 s) : Keeps W s0 (@calStat a1 a2 a3 s) := by
  unfold calStat
  repeat' first
    | with_reducible assumption | with_reducible apply keeps_setFlag | with_reducible apply keeps_setF

theorem keeps_laneStep {a1} (hW : sub 66818 W = true) (h : Keeps W s0 s) : Keeps W s0 (@laneStep a1 s) := by
  unfold laneStep
  repeat' first
    | with_reducible assumption | exact sub_trans rfl hW | with_reducible apply keeps_calStat
    | with_reducible apply keeps_newConstants | with_reducible apply keeps_noteTemp | with_reducible apply keeps_raise
    | with_reducible apply keeps_setF | with_reducible apply keeps_ite

theorem keeps_quadStep {a1 a2} (hW : sub 262146 W = true) (h : Keeps W s0 s) : Keeps W s0 (@quadStep a1 a2 s) := by
  unfold quadStep
  repeat' first
    | with_reducible assumption | exact sub_trans rfl hW | with_reducible apply keeps_setRepl | with_reducible apply keeps_setF

theorem keeps_settleAll (hW : sub 15071682 W = true) (h : Keeps W s0 s) : Keeps W s0 (@settleAll s) := by
  unfold settleAll
  repeat' first
    | with_reducible assumption | with_reducible apply keeps_settlePort | with_reducible apply keeps_foldl | split | intro _

theorem keeps_execSynCommit {a1 a2} (hW : sub 13107586 W = true) (h : Keeps W s0 s) : KeepsOut W s0 (@execSynCommit a1 a2 s) := by
  unfold execSynCommit
  repeat' first
    | with_reducible assumption | exact sub_trans rfl hW | with_reducible apply keeps_synCommit
    | with_reducible apply keeps_writeAt | with_reducible apply keeps_ran | with_reducible apply keeps_State_begin | intro _

theorem keeps_execOutputChangeApply {a1} (hW : sub 13107458 W = true) (h : Keeps W s0 s) : KeepsOut W s0 (@execOutputChangeApply a1 s) := by
  unfold execOutputChangeApply
  repeat' first
    | with_reducible assumption | exact sub_trans rfl hW | with_reducible apply keeps_applyOut
    | with_reducible apply keeps_takeDelay | with_reducible apply keeps_ran | with_reducible apply keeps_State_begin
    | with_reducible apply keeps_ite | split | with_reducible refine keeps_up_flt (sub_bit rfl hW) ?_

theorem keeps_execOutputStart {a1 a2 a3} (hW : sub 13107458 W = true) (h : Keeps W s0 s) : KeepsOut W s0 (@execOutputStart a1 a2 a3 s) := by
  unfold execOutputStart
  repeat' first
    | with_reducible assumption | exact sub_trans rfl hW | with_reducible apply keeps_writeOutCtl
    | with_reducible apply keeps_writeAt | with_reducible apply keeps_ran | with_reducible apply keeps_State_begin | intro _

theorem keeps_execOutputStartInstant {a1} (hW : sub 13107458 W = true) (h : Keeps W s0 s) : KeepsOut W s0 (@execOutputStartInstant a1 s) := by
  unfold execOutputStartInstant
  repeat' first
    | with_reducible assumption | exact sub_trans rfl hW | with_reducible apply keeps_startOut | with_reducible apply keeps_ran
    | with_reducible apply keeps_whenS | with_reducible apply keeps_State_begin | with_reducible apply keeps_raise
    | with_reducible apply keeps_ite | split | intro _

theorem keeps_execOutputStop {a1 a2 a3} (hW : sub 13107458 W = true) (h : Keeps W s0 s) : KeepsOut W s0 (@execOutputStop a1 a2 a3 s) := by
  unfold execOutputStop
  repeat' first
    | with_reducible assumption | exact sub_trans rfl hW | with_reducible apply keeps_writeOutCtl
    | with_reducible apply keeps_writeAt | with_reducible apply keeps_ran | with_reducible apply keeps_State_begin | intro _

theorem keeps_stopComplete {a1} (hW : sub 13107458 W = true) (h : Keeps W s0 s) : Keeps W s0 (@stopComplete a1 s) := by
  unfold stopComplete
  repeat' first
    | with_reducible assumption | exact sub_trans rfl hW | with_reducible apply keeps_restartCheck
    | with_reducible apply keeps_putOut | with_reducible apply keeps_takeDelay | with_reducible apply keeps_setOut
    | with_reducible apply keeps_ite | split

theorem keeps_execOutputStopComplete {a1} (hW : sub 13107458 W = true) (h : Keeps W s0 s) : KeepsOut W s0 (@execOutputStopComplete a1 s) := by
  unfold execOutputStopComplete
  repeat' first
    | with_reducible assumption | exact sub_trans rfl hW | with_reducible apply keeps_stopComplete
    | with_reducible apply keeps_ran | with_reducible apply keeps_State_begin

theorem keeps_execOutputRealign {a1 a2 a3} (hW : sub 13107458 W = true) (h : Keeps W s0 s) : KeepsOut W s0 (@execOutputRealign a1 a2 a3 s) := by
  unfold execOutputRealign
  repeat' first
    | with_reducible assumption | exact sub_trans rfl hW | with_reducible apply keeps_writeOutCtl
    | with_reducible apply keeps_writeAt | with_reducible apply keeps_ran | with_reducible apply keeps_State_begin | intro _

theorem keeps_alignSlew {a1 a2 a3} (hW : sub 524418 W = true) (h : Keeps W s0 s) : Keeps W s0 (@alignSlew a1 a2 a3 s) := by
  unfold alignSlew
  repeat' first
    | with_reducible assumption | intro _ | lift_lets | exact sub_trans rfl hW | with_reducible apply keeps_setAligned
    | with_reducible apply keeps_setOut | with_reducible apply keeps_setDpll | with_reducible apply keeps_foldl
    | with_reducible apply keeps_ite | intro _

theorem keeps_alignDone {a1 a2} (hW : sub 524674 W = true) (h : Keeps W s0 s) : Keeps W s0 (@alignDone a1 a2 s) := by
  unfold alignDone
  repeat' first
    | with_reducible assumption | intro _ | lift_lets | exact sub_trans rfl hW | with_reducible apply keeps_alignSlew
    | with_reducible apply keeps_setAligned | with_reducible apply keeps_setOut | with_reducible apply keeps_raise
    | with_reducible apply keeps_setF | with_reducible apply keeps_foldl | with_reducible apply keeps_ite | intro _

theorem keeps_execAlignDone {a1 a2} (hW : sub 4718978 W = true) (h : Keeps W s0 s) : KeepsOut W s0 (@execAlignDone a1 a2 s) := by
  unfold execAlignDone
  repeat' first
    | with_reducible assumption | exact sub_trans rfl hW | with_reducible apply keeps_alignDone
    | with_reducible apply keeps_ran | with_reducible apply keeps_State_begin

theorem keeps_writeOutDelay {a1 a2} (hW : sub 524290 W = true) (h : Keeps W s0 s) : Keeps W s0 (@writeOutDelay a1 a2 s) := by
  unfold writeOutDelay
  repeat' first
    | with_reducible assumption | exact sub_trans rfl hW | with_reducible apply keeps_setOut
    | with_reducible apply keeps_softWord | with_reducible apply keeps_ite

theorem keeps_writeTodCfg {a1} (hW : sub 524290 W = true) (h : Keeps W s0 s) : Keeps W s0 (@writeTodCfg a1 s) := by
  unfold writeTodCfg
  repeat' first
    | with_reducible assumption | exact sub_trans rfl hW | with_reducible apply keeps_softWord | with_reducible apply keeps_ite
    | with_reducible refine keeps_up_syn (sub_bit rfl hW) ?_

theorem keeps_todSend (hW : sub 4718850 W = true) (h : Keeps W s0 s) : Keeps W s0 (@todSend s) := by
  unfold todSend
  repeat' first
    | with_reducible assumption | exact sub_trans rfl hW | with_reducible apply keeps_setOut | with_reducible apply keeps_emit
    | with_reducible apply keeps_raise | with_reducible apply keeps_ite | split
    | with_reducible refine keeps_up_syn (sub_bit rfl hW) ?_

theorem keeps_execTodOutMessage (hW : sub 4718850 W = true) (h : Keeps W s0 s) : KeepsOut W s0 (@execTodOutMessage s) := by
  unfold execTodOutMessage
  repeat' first
    | with_reducible assumption | exact sub_trans rfl hW | with_reducible apply keeps_todSend | with_reducible apply keeps_ran
    | with_reducible apply keeps_State_begin | with_reducible apply keeps_ite

theorem keeps_todIn {a1} (hW : sub 524674 W = true) (h : Keeps W s0 s) : Keeps W s0 (@todIn a1 s) := by
  unfold todIn
  repeat' first
    | with_reducible assumption | exact sub_trans rfl hW | with_reducible apply keeps_todPair
    | with_reducible apply keeps_raise | with_reducible apply keeps_bump | with_reducible apply keeps_ite | split
    | with_reducible refine keeps_up_ref (sub_bit rfl hW) ?_ | with_reducible refine keeps_up_syn (sub_bit rfl hW) ?_

theorem keeps_execTodInMessage {a1} (hW : sub 4718978 W = true) (h : Keeps W s0 s) : KeepsOut W s0 (@execTodInMessage a1 s) := by
  unfold execTodInMessage
  repeat' first
    | with_reducible assumption | exact sub_trans rfl hW | with_reducible apply keeps_todIn | with_reducible apply keeps_ran
    | with_reducible apply keeps_State_begin | with_reducible apply keeps_ite

theorem keeps_todMatch (hW : sub 524674 W = true) (h : Keeps W s0 s) : Keeps W s0 (@todMatch s) := by
  unfold todMatch
  repeat' first
    | with_reducible assumption | exact sub_trans rfl hW | with_reducible apply keeps_todPair
    | with_reducible apply keeps_foldl | split | with_reducible refine keeps_up_syn (sub_bit rfl hW) ?_ | intro _

theorem keeps_todEdgeIn {a1} (hW : sub 524674 W = true) (h : Keeps W s0 s) : Keeps W s0 (@todEdgeIn a1 s) := by
  unfold todEdgeIn
  repeat' first
    | with_reducible assumption | with_reducible apply keeps_todMatch | with_reducible refine keeps_up_syn (sub_bit rfl hW) ?_

theorem keeps_execTodUnpaired (hW : sub 4718978 W = true) (h : Keeps W s0 s) : KeepsOut W s0 (@execTodUnpaired s) := by
  unfold execTodUnpaired
  repeat' first
    | with_reducible assumption | exact sub_trans rfl hW | with_reducible apply keeps_todMatch | with_reducible apply keeps_ran
    | with_reducible apply keeps_State_begin | with_reducible apply keeps_raise | with_reducible apply keeps_bump
    | with_reducible apply keeps_ite | split | with_reducible refine keeps_up_syn (sub_bit rfl hW) ?_

theorem keeps_anchor (hW : sub 1048576 W = true) (h : Keeps W s0 s) : Keeps W s0 (@anchor s) := by
  unfold anchor
  repeat' first
    | with_reducible assumption | with_reducible refine keeps_up_tdc (sub_bit rfl hW) ?_

theorem keeps_settleCh {a1} (hW : sub 2 W = true) (h : Keeps W s0 s) : Keeps W s0 (@settleCh a1 s) := by
  unfold settleCh
  repeat' first
    | with_reducible assumption | with_reducible apply keeps_setFlag | with_reducible apply keeps_setF

theorem keeps_settleSpare (hW : sub 2 W = true) (h : Keeps W s0 s) : Keeps W s0 (@settleSpare s) := by
  unfold settleSpare
  repeat' first
    | with_reducible assumption | with_reducible apply keeps_settleCh | with_reducible apply keeps_setFlag
    | with_reducible apply keeps_setF | split

theorem keeps_settleTdc (hW : sub 2 W = true) (h : Keeps W s0 s) : Keeps W s0 (@settleTdc s) := by
  unfold settleTdc
  repeat' first
    | with_reducible assumption | with_reducible apply keeps_settleSpare | with_reducible apply keeps_settleCh
    | with_reducible apply keeps_foldl | intro _

theorem keeps_tableRead {a1} (hW : sub 3145986 W = true) (h : Keeps W s0 s) : Keeps W s0 (@tableRead a1 s) := by
  unfold tableRead
  repeat' first
    | with_reducible assumption | exact sub_trans rfl hW | with_reducible apply keeps_settleCh
    | with_reducible refine keeps_snd (keeps_eccReadAll (sub_trans rfl hW) ?_) | with_reducible apply keeps_setTdcCh
    | with_reducible apply keeps_ite | with_reducible refine keeps_up_tdc (sub_bit rfl hW) ?_

theorem keeps_tdcTau {a1 a2} (hW : sub 8388608 W = true) (h : Keeps W s0 s) : KeepsP W s0 (@tdcTau a1 a2 s) := by
  unfold tdcTau
  repeat' first
    | with_reducible assumption | with_reducible apply keeps_drawInt | with_reducible apply keepsP_ite
    | with_reducible apply keepsP_mk

theorem keeps_queueRecord {a1 a2 a3 a4 a5 a6} (hW : sub 1048834 W = true) (h : Keeps W s0 s) : Keeps W s0 (@queueRecord a1 a2 a3 a4 a5 a6 s) := by
  unfold queueRecord
  repeat' first
    | with_reducible assumption | exact sub_trans rfl hW | with_reducible apply keeps_setTdcCh
    | with_reducible apply keeps_raise | with_reducible apply keeps_bump | with_reducible apply keeps_setF
    | with_reducible apply keeps_ite

theorem keeps_edgeRecord {a1 a2 a3 a4 a5 a6 a7 a8} (hW : sub 1048834 W = true) (h : Keeps W s0 s) : Keeps W s0 (@edgeRecord a1 a2 a3 a4 a5 a6 a7 a8 s) := by
  unfold edgeRecord
  repeat' first
    | with_reducible assumption | with_reducible apply keeps_queueRecord

theorem keeps_pairRecord {a1 a2 a3} (hW : sub 1048834 W = true) (h : Keeps W s0 s) : Keeps W s0 (@pairRecord a1 a2 a3 s) := by
  unfold pairRecord
  repeat' first
    | with_reducible assumption | with_reducible apply keeps_queueRecord

theorem keeps_pairDone {a1} (hW : sub 1048578 W = true) (h : Keeps W s0 s) : Keeps W s0 (@pairDone a1 s) := by
  unfold pairDone
  repeat' first
    | with_reducible assumption | exact sub_trans rfl hW | with_reducible apply keeps_settleCh
    | with_reducible apply keeps_setTdcCh

theorem keeps_intervalTimeout {a1} (hW : sub 1048834 W = true) (h : Keeps W s0 s) : Keeps W s0 (@intervalTimeout a1 s) := by
  unfold intervalTimeout
  repeat' first
    | with_reducible assumption | exact sub_trans rfl hW | with_reducible apply keeps_pairDone
    | with_reducible apply keeps_queueRecord | with_reducible apply keeps_raise | with_reducible apply keeps_ite

theorem keeps_freshTaken {a1 a2} (hW : sub 1048576 W = true) (h : Keeps W s0 s) : Keeps W s0 (@freshTaken a1 a2 s) := by
  unfold freshTaken
  repeat' first
    | with_reducible assumption | with_reducible apply keeps_setTdcCh | with_reducible apply keeps_ite

theorem keeps_capture {a1 a2 a3 a4} (hW : sub 1048834 W = true) (h : Keeps W s0 s) : Keeps W s0 (@capture a1 a2 a3 a4 s) := by
  unfold capture
  repeat' first
    | with_reducible assumption | exact sub_trans rfl hW | with_reducible apply keeps_freshTaken
    | with_reducible apply keeps_intervalTimeout | with_reducible apply keeps_pairDone | with_reducible apply keeps_pairRecord
    | with_reducible apply keeps_setTdcCh | with_reducible apply keeps_ite | split
    | with_reducible refine keeps_up_flt (sub_bit rfl hW) ?_

theorem keeps_missed {a1} (hW : sub 258 W = true) (h : Keeps W s0 s) : Keeps W s0 (@missed a1 s) := by
  unfold missed
  repeat' first
    | with_reducible assumption | exact sub_trans rfl hW | with_reducible apply keeps_raise | with_reducible apply keeps_bump

theorem keeps_overlapEdge {a1 a2 a3} (hW : sub 1048576 W = true) (h : Keeps W s0 s) : Keeps W s0 (@overlapEdge a1 a2 a3 s) := by
  unfold overlapEdge
  repeat' first
    | with_reducible assumption | with_reducible apply keeps_ite | split
    | with_reducible refine keeps_up_tdc (sub_bit rfl hW) ?_

theorem keeps_measure {a1 a2 a3 a4} (hW : sub 9961858 W = true) (h : Keeps W s0 s) : Keeps W s0 (@measure a1 a2 a3 a4 s) := by
  unfold measure
  repeat' first
    | with_reducible assumption | intro _ | lift_lets | exact sub_trans rfl hW | with_reducible apply keeps_overlapEdge
    | with_reducible apply keeps_capture | with_reducible apply keeps_freshTaken | with_reducible apply keeps_edgeRecord
    | with_reducible refine keeps_snd (keeps_tdcTau (sub_trans rfl hW) ?_) | with_reducible apply keeps_todEdgeIn
    | with_reducible apply keeps_takeAdj | with_reducible apply keeps_setTdcCh | with_reducible apply keeps_whenS
    | with_reducible apply keeps_raise | with_reducible apply keeps_ite | intro _

theorem keeps_tdcEdge {a1 a2 a3 a4} (hW : sub 12059010 W = true) (h : Keeps W s0 s) : Keeps W s0 (@tdcEdge a1 a2 a3 a4 s) := by
  unfold tdcEdge
  repeat' first
    | with_reducible assumption | exact sub_trans rfl hW | with_reducible apply keeps_measure
    | with_reducible apply keeps_missed | with_reducible apply keeps_tableRead | with_reducible apply keeps_setTdcCh
    | with_reducible apply keeps_whenS | with_reducible apply keeps_ite | intro _

theorem keeps_prescale {a1 a2} (hW : sub 1048576 W = true) (h : Keeps W s0 s) : KeepsP W s0 (@prescale a1 a2 s) := by
  unfold prescale
  repeat' first
    | with_reducible assumption | with_reducible apply keepsP_ite | with_reducible apply keepsP_mk
    | with_reducible refine keeps_up_tdc (sub_bit rfl hW) ?_

theorem keeps_sourceEdge {a1 a2 a3} (hW : sub 12059010 W = true) (h : Keeps W s0 s) : Keeps W s0 (@sourceEdge a1 a2 a3 s) := by
  unfold sourceEdge
  repeat' first
    | with_reducible assumption | intro _ | lift_lets | exact sub_trans rfl hW | with_reducible apply keeps_tdcEdge
    | with_reducible apply keeps_setCand | with_reducible apply keeps_whenS | with_reducible apply keeps_foldl
    | with_reducible apply keeps_ite | split | with_reducible refine keeps_up_ref (sub_bit rfl hW) ?_
    | with_reducible refine keeps_up_tdc (sub_bit rfl hW) ?_ | intro _

theorem keeps_spareStart {a1} (hW : sub 1048578 W = true) (h : Keeps W s0 s) : Keeps W s0 (@spareStart a1 s) := by
  unfold spareStart
  repeat' first
    | with_reducible assumption | exact sub_trans rfl hW | with_reducible apply keeps_settleSpare
    | with_reducible apply keeps_settleCh | with_reducible apply keeps_setTdcCh | with_reducible apply keeps_ite | split
    | with_reducible refine keeps_up_tdc (sub_bit rfl hW) ?_

theorem keeps_askSpare {a1} (hW : sub 1048578 W = true) (h : Keeps W s0 s) : Keeps W s0 (@askSpare a1 s) := by
  unfold askSpare
  repeat' first
    | with_reducible assumption | exact sub_trans rfl hW | with_reducible apply keeps_spareStart
    | with_reducible apply keeps_settleCh | with_reducible apply keeps_ite
    | with_reducible refine keeps_up_tdc (sub_bit rfl hW) ?_

theorem keeps_nextWait (hW : sub 1048578 W = true) (h : Keeps W s0 s) : Keeps W s0 (@nextWait s) := by
  unfold nextWait
  repeat' first
    | with_reducible assumption | exact sub_trans rfl hW | with_reducible apply keeps_spareStart
    | with_reducible apply keeps_settleSpare | split | with_reducible refine keeps_up_tdc (sub_bit rfl hW) ?_

theorem keeps_refillAsk {a1} (hW : sub 1048578 W = true) (h : Keeps W s0 s) : Keeps W s0 (@refillAsk a1 s) := by
  unfold refillAsk
  repeat' first
    | with_reducible assumption | exact sub_trans rfl hW | with_reducible apply keeps_askSpare
    | with_reducible apply keeps_settleCh | with_reducible apply keeps_setTdcCh | with_reducible apply keeps_ite | split
    | with_reducible refine keeps_up_tdc (sub_bit rfl hW) ?_

theorem keeps_spareStep {a1 a2} (hW : sub 1048578 W = true) (h : Keeps W s0 s) : Keeps W s0 (@spareStep a1 a2 s) := by
  unfold spareStep
  repeat' first
    | with_reducible assumption | exact sub_trans rfl hW | with_reducible apply keeps_settleCh
    | with_reducible refine keeps_up_tdc (sub_bit rfl hW) ?_

theorem keeps_spareCheck {a1} (hW : sub 1048578 W = true) (h : Keeps W s0 s) : Keeps W s0 (@spareCheck a1 s) := by
  unfold spareCheck
  repeat' first
    | with_reducible assumption | exact sub_trans rfl hW | with_reducible apply keeps_spareStep
    | with_reducible apply keeps_nextWait | with_reducible apply keeps_askSpare | with_reducible apply keeps_settleCh
    | with_reducible apply keeps_ite | split | with_reducible refine keeps_up_tdc (sub_bit rfl hW) ?_

theorem keeps_refillOver {a1} (hW : sub 1048578 W = true) (h : Keeps W s0 s) : Keeps W s0 (@refillOver a1 s) := by
  unfold refillOver
  repeat' first
    | with_reducible assumption | with_reducible apply keeps_spareCheck | with_reducible apply keeps_ite | split
    | with_reducible refine keeps_up_tdc (sub_bit rfl hW) ?_

theorem keeps_commitTable {a1} (hW : sub 1114370 W = true) (h : Keeps W s0 s) : Keeps W s0 (@commitTable a1 s) := by
  unfold commitTable
  repeat' first
    | with_reducible assumption | exact sub_trans rfl hW | with_reducible apply keeps_refillOver
    | with_reducible apply keeps_settleCh | with_reducible apply keeps_fullWriteAll | with_reducible apply keeps_setTdcCh
    | with_reducible apply keeps_noteTemp | with_reducible apply keeps_ite
    | with_reducible refine keeps_up_tdc (sub_bit rfl hW) ?_

theorem keeps_refillDone {a1 a2} (hW : sub 1114370 W = true) (h : Keeps W s0 s) : Keeps W s0 (@refillDone a1 a2 s) := by
  unfold refillDone
  repeat' first
    | with_reducible assumption | intro _ | lift_lets | exact sub_trans rfl hW | with_reducible apply keeps_commitTable
    | with_reducible apply keeps_refillOver | with_reducible apply keeps_nextWait | with_reducible apply keeps_settleCh
    | with_reducible apply keeps_setTdcCh | with_reducible apply keeps_raise | with_reducible apply keeps_ite
    | with_reducible refine keeps_up_tdc (sub_bit rfl hW) ?_ | intro _

theorem keeps_borrow (hW : sub 1048834 W = true) (h : Keeps W s0 s) : Keeps W s0 (@borrow s) := by
  unfold borrow
  repeat' first
    | with_reducible assumption | exact sub_trans rfl hW | with_reducible apply keeps_settleCh
    | with_reducible apply keeps_raise | with_reducible apply keeps_ite | split
    | with_reducible refine keeps_up_tdc (sub_bit rfl hW) ?_

theorem keeps_giveBack (hW : sub 1048578 W = true) (h : Keeps W s0 s) : Keeps W s0 (@giveBack s) := by
  unfold giveBack
  repeat' first
    | with_reducible assumption | exact sub_trans rfl hW | with_reducible apply keeps_settleCh | with_reducible apply keeps_ite
    | split | with_reducible refine keeps_up_tdc (sub_bit rfl hW) ?_

theorem keeps_borrowLate (hW : sub 1048834 W = true) (h : Keeps W s0 s) : Keeps W s0 (@borrowLate s) := by
  unfold borrowLate
  repeat' first
    | with_reducible assumption | with_reducible apply keeps_borrow | with_reducible apply keeps_ite

theorem keeps_lockedWrite {a1 a2} (hW : sub 258 W = true) (h : Keeps W s0 s) : Keeps W s0 (@lockedWrite a1 a2 s) := by
  unfold lockedWrite
  repeat' first
    | with_reducible assumption | with_reducible apply keeps_raise | with_reducible apply keeps_ite

theorem keeps_writeChCfg {a1 a2} (hW : sub 1048834 W = true) (h : Keeps W s0 s) : Keeps W s0 (@writeChCfg a1 a2 s) := by
  unfold writeChCfg
  repeat' first
    | with_reducible assumption | exact sub_trans rfl hW | with_reducible apply keeps_lockedWrite
    | with_reducible apply keeps_borrowLate | with_reducible apply keeps_spareCheck | with_reducible apply keeps_settleTdc
    | with_reducible apply keeps_softWord | with_reducible apply keeps_setTdcCh | with_reducible apply keeps_ite

theorem keeps_writeTdcCfg {a1} (hW : sub 1048834 W = true) (h : Keeps W s0 s) : Keeps W s0 (@writeTdcCfg a1 s) := by
  unfold writeTdcCfg
  repeat' first
    | with_reducible assumption | exact sub_trans rfl hW | with_reducible apply keeps_borrowLate
    | with_reducible apply keeps_settleTdc | with_reducible apply keeps_softWord | with_reducible apply keeps_setTdcCh
    | with_reducible apply keeps_foldl | with_reducible apply keeps_ite | intro _

theorem keeps_writeChCfg2 {a1 a2} (hW : sub 1048834 W = true) (h : Keeps W s0 s) : Keeps W s0 (@writeChCfg2 a1 a2 s) := by
  unfold writeChCfg2
  repeat' first
    | with_reducible assumption | exact sub_trans rfl hW | with_reducible apply keeps_lockedWrite
    | with_reducible apply keeps_settleCh | with_reducible apply keeps_softWord | with_reducible apply keeps_setTdcCh
    | with_reducible apply keeps_ite

theorem keeps_writePresc {a1} (hW : sub 1049026 W = true) (h : Keeps W s0 s) : Keeps W s0 (@writePresc a1 s) := by
  unfold writePresc
  repeat' first
    | with_reducible assumption | exact sub_trans rfl hW | with_reducible apply keeps_candCfgTest
    | with_reducible apply keeps_softWord | with_reducible apply keeps_reselect | with_reducible apply keeps_candFail
    | with_reducible apply keeps_foldl | with_reducible refine keeps_up_tdc (sub_bit rfl hW) ?_ | intro _

theorem keeps_writeProbeSel {a1} (hW : sub 1048834 W = true) (h : Keeps W s0 s) : Keeps W s0 (@writeProbeSel a1 s) := by
  unfold writeProbeSel
  repeat' first
    | with_reducible assumption | exact sub_trans rfl hW | with_reducible apply keeps_borrowLate
    | with_reducible apply keeps_settleTdc | with_reducible apply keeps_softWord

theorem keeps_calChannels {a1} (hW : sub 2 W = true) (h : Keeps W s0 s) : Keeps W s0 (@calChannels a1 s) := by
  unfold calChannels
  repeat' first
    | with_reducible assumption | with_reducible apply keeps_settleTdc | with_reducible apply keeps_setF
    | with_reducible apply keeps_foldl | split | intro _

theorem keeps_takePort {a1} (hW : sub 2 W = true) (h : Keeps W s0 s) : Keeps W s0 (@takePort a1 s) := by
  unfold takePort
  repeat' first
    | with_reducible assumption | with_reducible apply keeps_setF

theorem keeps_dropLocks {a1} (hW : sub 962 W = true) (h : Keeps W s0 s) : Keeps W s0 (@dropLocks a1 s) := by
  unfold dropLocks
  repeat' first
    | with_reducible assumption | exact sub_trans rfl hW | with_reducible apply keeps_tallyInvalid
    | with_reducible apply keeps_setF

theorem keeps_commitDown {a1} (hW : sub 15071682 W = true) (h : Keeps W s0 s) : Keeps W s0 (@commitDown a1 s) := by
  unfold commitDown
  repeat' first
    | with_reducible assumption | with_reducible apply keeps_setPort | with_reducible apply keeps_ite

theorem keeps_ebStart {a1} (hW : sub 8388610 W = true) (h : Keeps W s0 s) : Keeps W s0 (@ebStart a1 s) := by
  unfold ebStart
  repeat' first
    | with_reducible assumption | exact sub_trans rfl hW | with_reducible apply keeps_drawInt | with_reducible apply keeps_setF
    | with_reducible apply keeps_foldl | split | with_reducible refine keeps_pair (by assumption) ?_ | intro _

theorem keeps_applyQuads {a1} (hW : sub 15203298 W = true) (h : Keeps W s0 s) : Keeps W s0 (@applyQuads a1 s) := by
  unfold applyQuads
  repeat' first
    | with_reducible assumption | exact sub_trans rfl hW | with_reducible apply keeps_ebStart
    | with_reducible apply keeps_commitDown | with_reducible apply keeps_dropLocks | with_reducible apply keeps_takePort
    | with_reducible apply keeps_quadClks | with_reducible apply keeps_settlePort | with_reducible apply keeps_tsuMode
    | with_reducible apply keeps_loadReplica | with_reducible apply keeps_setTally | with_reducible apply keeps_setF
    | with_reducible apply keeps_foldl | with_reducible refine keeps_up_lnk (sub_bit rfl hW) ?_ | intro _

theorem keeps_lnkCommit {a1} (hW : sub 15203298 W = true) (h : Keeps W s0 s) : Keeps W s0 (@lnkCommit a1 s) := by
  unfold lnkCommit
  repeat' first
    | with_reducible assumption | exact sub_trans rfl hW | with_reducible apply keeps_applyQuads
    | with_reducible apply keeps_whenS | with_reducible apply keeps_raise | with_reducible apply keeps_foldl
    | with_reducible apply keeps_ite | intro _

theorem keeps_execLnkCommit {a1 a2} (hW : sub 15203298 W = true) (h : Keeps W s0 s) : KeepsOut W s0 (@execLnkCommit a1 a2 s) := by
  unfold execLnkCommit
  repeat' first
    | with_reducible assumption | exact sub_trans rfl hW | with_reducible apply keeps_lnkCommit
    | with_reducible apply keeps_writeAt | with_reducible apply keeps_ran | with_reducible apply keeps_State_begin | intro _

theorem keeps_execSignalDetect {a1} (hW : sub 15071682 W = true) (h : Keeps W s0 s) : KeepsOut W s0 (@execSignalDetect a1 s) := by
  unfold execSignalDetect
  try simp only []
  repeat' first
    | with_reducible assumption | exact sub_trans rfl hW | with_reducible apply keeps_setPort | with_reducible apply keeps_ran
    | with_reducible apply keeps_State_begin | with_reducible apply keeps_setF | with_reducible apply keeps_foldl
    | with_reducible apply keeps_ite | intro _

theorem keeps_execSignalLoss {a1} (hW : sub 15071682 W = true) (h : Keeps W s0 s) : KeepsOut W s0 (@execSignalLoss a1 s) := by
  unfold execSignalLoss
  repeat' first
    | with_reducible assumption | exact sub_trans rfl hW | with_reducible apply keeps_portLost
    | with_reducible apply keeps_alignLost | with_reducible apply keeps_ran | with_reducible apply keeps_whenS
    | with_reducible apply keeps_State_begin | with_reducible apply keeps_setF | with_reducible apply keeps_ite | intro _

theorem keeps_execLinkTrainingDone {a1 a2} (hW : sub 15071682 W = true) (h : Keeps W s0 s) : KeepsOut W s0 (@execLinkTrainingDone a1 a2 s) := by
  unfold execLinkTrainingDone
  repeat' first
    | with_reducible assumption | exact sub_trans rfl hW | with_reducible apply keeps_setPort | with_reducible apply keeps_ran
    | with_reducible apply keeps_State_begin | with_reducible apply keeps_setF | with_reducible apply keeps_foldl
    | with_reducible apply keeps_ite | intro _

theorem keeps_execLtFail {a1} (hW : sub 15071682 W = true) (h : Keeps W s0 s) : KeepsOut W s0 (@execLtFail a1 s) := by
  unfold execLtFail
  repeat' first
    | with_reducible assumption | exact sub_trans rfl hW | with_reducible apply keeps_setPort | with_reducible apply keeps_ran
    | with_reducible apply keeps_State_begin | with_reducible apply keeps_raise | with_reducible apply keeps_setF
    | with_reducible apply keeps_foldl | with_reducible apply keeps_ite | intro _

theorem keeps_execLinkConditionsMet {a1} (hW : sub 15071682 W = true) (h : Keeps W s0 s) : KeepsOut W s0 (@execLinkConditionsMet a1 s) := by
  unfold execLinkConditionsMet
  repeat' first
    | with_reducible assumption | exact sub_trans rfl hW | with_reducible apply keeps_setPort | with_reducible apply keeps_ran
    | with_reducible apply keeps_State_begin | with_reducible apply keeps_setFlag | with_reducible apply keeps_setF
    | with_reducible apply keeps_foldl | with_reducible apply keeps_ite | intro _

theorem keeps_execLinkUp {a1} (hW : sub 15071682 W = true) (h : Keeps W s0 s) : KeepsOut W s0 (@execLinkUp a1 s) := by
  unfold execLinkUp
  repeat' first
    | with_reducible assumption | exact sub_trans rfl hW | with_reducible apply keeps_setPort | with_reducible apply keeps_ran
    | with_reducible apply keeps_State_begin | with_reducible apply keeps_ite

theorem keeps_execLinkDown {a1 a2} (hW : sub 15071682 W = true) (h : Keeps W s0 s) : KeepsOut W s0 (@execLinkDown a1 a2 s) := by
  unfold execLinkDown
  repeat' first
    | with_reducible assumption | exact sub_trans rfl hW | with_reducible apply keeps_portLost
    | with_reducible apply keeps_alignLost | with_reducible apply keeps_ran | with_reducible apply keeps_whenS
    | with_reducible apply keeps_State_begin | with_reducible apply keeps_setF | with_reducible apply keeps_foldl
    | with_reducible apply keeps_ite | split | intro _

theorem keeps_execSgmiiControlWord {a1 a2} (hW : sub 15071682 W = true) (h : Keeps W s0 s) : KeepsOut W s0 (@execSgmiiControlWord a1 a2 s) := by
  unfold execSgmiiControlWord
  repeat' first
    | with_reducible assumption | exact sub_trans rfl hW | with_reducible apply keeps_portLost | with_reducible apply keeps_ran
    | with_reducible apply keeps_State_begin | with_reducible apply keeps_raise | with_reducible apply keeps_ite
    | with_reducible refine keeps_up_lnk (sub_bit rfl hW) ?_

theorem keeps_writeLaneCfg {a1 a2} (hW : sub 15072194 W = true) (h : Keeps W s0 s) : Keeps W s0 (@writeLaneCfg a1 a2 s) := by
  unfold writeLaneCfg
  repeat' first
    | with_reducible assumption | intro _ | lift_lets | exact sub_trans rfl hW | with_reducible apply keeps_portLost
    | with_reducible apply keeps_settlePort | with_reducible apply keeps_forcePort | with_reducible apply keeps_tallyInvalid
    | with_reducible apply keeps_activityCheck | with_reducible apply keeps_setFlag | with_reducible apply keeps_setF
    | with_reducible apply keeps_ite | with_reducible refine keeps_up_lnk (sub_bit rfl hW) ?_ | intro _

theorem keeps_execLaneCfgWrite {a1 a2} (hW : sub 15072194 W = true) (h : Keeps W s0 s) : KeepsOut W s0 (@execLaneCfgWrite a1 a2 s) := by
  unfold execLaneCfgWrite
  repeat' first
    | with_reducible assumption | exact sub_trans rfl hW | with_reducible apply keeps_writeLaneCfg
    | with_reducible apply keeps_writeAt | with_reducible apply keeps_ran | with_reducible apply keeps_State_begin | intro _

theorem keeps_execTxDriverAwake {a1} (hW : sub 15071682 W = true) (h : Keeps W s0 s) : KeepsOut W s0 (@execTxDriverAwake a1 s) := by
  unfold execTxDriverAwake
  repeat' first
    | with_reducible assumption | exact sub_trans rfl hW | with_reducible apply keeps_settlePort
    | with_reducible apply keeps_ran | with_reducible apply keeps_State_begin | with_reducible apply keeps_setF
    | with_reducible apply keeps_ite | with_reducible refine keeps_up_lnk (sub_bit rfl hW) ?_

theorem keeps_writeTxeq {a1 a2} (hW : sub 258 W = true) (h : Keeps W s0 s) : Keeps W s0 (@writeTxeq a1 a2 s) := by
  unfold writeTxeq
  repeat' first
    | with_reducible assumption | exact sub_trans rfl hW | with_reducible apply keeps_raise | with_reducible apply keeps_setF
    | with_reducible apply keeps_ite

theorem keeps_execTxeqWrite {a1 a2} (hW : sub 4194562 W = true) (h : Keeps W s0 s) : KeepsOut W s0 (@execTxeqWrite a1 a2 s) := by
  unfold execTxeqWrite
  repeat' first
    | with_reducible assumption | exact sub_trans rfl hW | with_reducible apply keeps_writeTxeq
    | with_reducible apply keeps_writeAt | with_reducible apply keeps_ran | with_reducible apply keeps_State_begin | intro _

theorem keeps_execEbIdleAdjust {a1 a2} (hW : sub 4194306 W = true) (h : Keeps W s0 s) : KeepsOut W s0 (@execEbIdleAdjust a1 a2 s) := by
  unfold execEbIdleAdjust
  repeat' first
    | with_reducible assumption | exact sub_trans rfl hW | with_reducible apply keeps_ran
    | with_reducible apply keeps_State_begin | with_reducible apply keeps_bump | with_reducible apply keeps_setF
    | with_reducible apply keeps_ite

theorem keeps_execEbSlip {a1} (hW : sub 14774530 W = true) (h : Keeps W s0 s) : KeepsOut W s0 (@execEbSlip a1 s) := by
  unfold execEbSlip
  repeat' first
    | with_reducible assumption | intro _ | lift_lets | exact sub_trans rfl hW | with_reducible apply keeps_frameBad
    | with_reducible apply keeps_dropFrame | with_reducible apply keeps_ran | with_reducible apply keeps_State_begin
    | with_reducible apply keeps_raise | with_reducible apply keeps_setF | with_reducible apply keeps_foldl
    | with_reducible apply keeps_ite | intro _

theorem keeps_execLpiRx {a1} (hW : sub 4456706 W = true) (h : Keeps W s0 s) : KeepsOut W s0 (@execLpiRx a1 s) := by
  unfold execLpiRx
  repeat' first
    | with_reducible assumption | exact sub_trans rfl hW | with_reducible apply keeps_ran | with_reducible apply keeps_whenS
    | with_reducible apply keeps_State_begin | with_reducible apply keeps_raise | with_reducible apply keeps_bump
    | with_reducible apply keeps_ite | with_reducible refine keeps_up_lnk (sub_bit rfl hW) ?_ | intro _

theorem keeps_calibrated {a1 a2 a3} (hW : sub 15072706 W = true) (h : Keeps W s0 s) : Keeps W s0 (@calibrated a1 a2 a3 s) := by
  unfold calibrated
  repeat' first
    | with_reducible assumption | exact sub_trans rfl hW | with_reducible apply keeps_calChannels
    | with_reducible apply keeps_settleAll | with_reducible apply keeps_quadStep | with_reducible apply keeps_laneStep
    | with_reducible apply keeps_forceAll | with_reducible apply keeps_raise | with_reducible apply keeps_setFlag
    | with_reducible apply keeps_setF | with_reducible apply keeps_foldl | split
    | with_reducible refine keeps_up_lnk (sub_bit rfl hW) ?_ | intro _

theorem keeps_execQuadCalibrationDone {a1 a2 a3} (hW : sub 15072706 W = true) (h : Keeps W s0 s) : KeepsOut W s0 (@execQuadCalibrationDone a1 a2 a3 s) := by
  unfold execQuadCalibrationDone
  repeat' first
    | with_reducible assumption | exact sub_trans rfl hW | with_reducible apply keeps_settleAll
    | with_reducible apply keeps_quadStep | with_reducible apply keeps_laneStep | with_reducible apply keeps_forceAll
    | with_reducible apply keeps_ran | with_reducible apply keeps_State_begin | with_reducible apply keeps_setF
    | with_reducible apply keeps_foldl | with_reducible apply keeps_ite
    | with_reducible refine keeps_up_lnk (sub_bit rfl hW) ?_ | intro _

theorem keeps_requestRecal {a1 a2} (hW : sub 16120258 W = true) (h : Keeps W s0 s) : Keeps W s0 (@requestRecal a1 a2 s) := by
  unfold requestRecal
  repeat' first
    | with_reducible assumption | exact sub_trans rfl hW | with_reducible apply keeps_borrow
    | with_reducible apply keeps_settlePort | with_reducible apply keeps_raise | with_reducible apply keeps_setFlag
    | with_reducible apply keeps_setF | with_reducible apply keeps_foldl | with_reducible apply keeps_ite | split
    | with_reducible refine keeps_up_lnk (sub_bit rfl hW) ?_ | intro _

theorem keeps_writeRecal {a1 a2} (hW : sub 16120258 W = true) (h : Keeps W s0 s) : Keeps W s0 (@writeRecal a1 a2 s) := by
  unfold writeRecal
  repeat' first
    | with_reducible assumption | with_reducible apply keeps_requestRecal | with_reducible apply keeps_ite

theorem keeps_execRecalPartial {a1 a2} (hW : sub 16120258 W = true) (h : Keeps W s0 s) : KeepsOut W s0 (@execRecalPartial a1 a2 s) := by
  unfold execRecalPartial
  repeat' first
    | with_reducible assumption | exact sub_trans rfl hW | with_reducible apply keeps_writeRecal
    | with_reducible apply keeps_writeAt | with_reducible apply keeps_ran | with_reducible apply keeps_State_begin | intro _

theorem keeps_execRecalFull {a1 a2} (hW : sub 16120258 W = true) (h : Keeps W s0 s) : KeepsOut W s0 (@execRecalFull a1 a2 s) := by
  unfold execRecalFull
  repeat' first
    | with_reducible assumption | exact sub_trans rfl hW | with_reducible apply keeps_writeRecal
    | with_reducible apply keeps_writeAt | with_reducible apply keeps_ran | with_reducible apply keeps_State_begin | intro _

theorem keeps_planAsk {a1} (hW : sub 16120258 W = true) (h : Keeps W s0 s) : Keeps W s0 (@planAsk a1 s) := by
  unfold planAsk
  repeat' first
    | with_reducible assumption | exact sub_trans rfl hW | with_reducible apply keeps_requestRecal
    | with_reducible apply keeps_refillAsk | with_reducible apply keeps_whenS | with_reducible apply keeps_ite | split
    | intro _

theorem keeps_planNext {l} (hW : sub 16120258 W = true) (h : Keeps W s0 s) : Keeps W s0 (planNext l s) := by
  induction l generalizing s with
  | nil => exact keeps_up_mon (sub_bit rfl hW) h
  | cons k l ih =>
    have hk := keeps_planAsk (a1 := k) (sub_trans rfl hW) h
    exact keeps_ite (keeps_up_mon (sub_bit rfl hW) hk) (ih hk)

theorem keeps_planTurn (hW : sub 16120258 W = true) (h : Keeps W s0 s) : Keeps W s0 (@planTurn s) := by
  unfold planTurn
  repeat' first
    | with_reducible assumption | with_reducible apply keeps_planNext | with_reducible apply keeps_ite | split
    | with_reducible refine keeps_up_mon (sub_bit rfl hW) ?_

theorem keeps_execRecalComplete {a1} (hW : sub 16121282 W = true) (h : Keeps W s0 s) : KeepsOut W s0 (@execRecalComplete a1 s) := by
  unfold execRecalComplete
  repeat' first
    | with_reducible assumption | exact sub_trans rfl hW | with_reducible apply keeps_planTurn
    | with_reducible apply keeps_giveBack | with_reducible apply keeps_quadStep | with_reducible apply keeps_calStat
    | with_reducible apply keeps_newConstants | with_reducible apply keeps_settlePort | with_reducible apply keeps_forcePort
    | with_reducible apply keeps_ran | with_reducible apply keeps_whenS | with_reducible apply keeps_State_begin
    | with_reducible apply keeps_noteTemp | with_reducible apply keeps_raise | with_reducible apply keeps_setF
    | with_reducible apply keeps_ite | with_reducible refine keeps_up_lnk (sub_bit rfl hW) ?_ | intro _

end Sys2Proof.Machine
end

