-- ==== Sys2Proof/Laws/KeepsIsl.lean ====
section
/-! SUPPORT. The islands, the reset controller, the firmware and the faults: what each operation keeps (Keeps.lean). -/

namespace Sys2Proof.Machine

variable {W : Nat} {s0 s t : State}

theorem keeps_flushFrame {a1 a2} (hW : sub 4333826 W = true) (h : Keeps W s0 s) : Keeps W s0 (@flushFrame a1 a2 s) := by
  unfold flushFrame
  repeat' first
    | with_reducible assumption | exact sub_trans rfl hW | with_reducible apply keeps_txDecided
    | with_reducible apply keeps_forgetFrame | with_reducible apply keeps_sumpCount | with_reducible apply keeps_foldl
    | with_reducible apply keeps_ite | split | intro _

theorem keeps_flushBuf (hW : sub 4333826 W = true) (h : Keeps W s0 s) : Keeps W s0 (@flushBuf s) := by
  unfold flushBuf
  repeat' first
    | with_reducible assumption | exact sub_trans rfl hW | with_reducible apply keeps_flushFrame
    | with_reducible apply keeps_setF | with_reducible apply keeps_foldl
    | with_reducible refine keeps_up_buf (sub_bit rfl hW) ?_ | intro _

theorem keeps_egrIdle (hW : sub 24576 W = true) (h : Keeps W s0 s) : Keeps W s0 (@egrIdle s) := by
  unfold egrIdle
  repeat' first
    | with_reducible assumption | intro _ | lift_lets | exact sub_trans rfl hW | with_reducible apply keeps_setFrame
    | with_reducible apply keeps_foldl | with_reducible apply keeps_ite
    | with_reducible refine keeps_up_egr (sub_bit rfl hW) ?_ | intro _

theorem keeps_egrRestart (hW : sub 24576 W = true) (h : Keeps W s0 s) : Keeps W s0 (@egrRestart s) := by
  unfold egrRestart
  repeat' first
    | with_reducible assumption | exact sub_trans rfl hW | with_reducible apply keeps_egrIdle
    | with_reducible apply keeps_setEgrPort | with_reducible apply keeps_foldl | intro _

theorem keeps_redLost (hW : sub 10608898 W = true) (h : Keeps W s0 s) : Keeps W s0 (@redLost s) := by
  unfold redLost
  repeat' first
    | with_reducible assumption | exact sub_trans rfl hW | with_reducible apply keeps_redDown
    | with_reducible apply keeps_redDiscard | with_reducible apply keeps_redPass | with_reducible apply keeps_raise
    | with_reducible apply keeps_foldl | split | intro _

theorem keeps_tdcStop (hW : sub 1048578 W = true) (h : Keeps W s0 s) : Keeps W s0 (@tdcStop s) := by
  unfold tdcStop
  repeat' first
    | with_reducible assumption | exact sub_trans rfl hW | with_reducible apply keeps_settleTdc
    | with_reducible refine keeps_up_tdc (sub_bit rfl hW) ?_

theorem keeps_synStop (hW : sub 524290 W = true) (h : Keeps W s0 s) : Keeps W s0 (@synStop s) := by
  unfold synStop
  repeat' first
    | with_reducible assumption | with_reducible apply keeps_stopOut | with_reducible apply keeps_foldl
    | with_reducible refine keeps_up_syn (sub_bit rfl hW) ?_ | intro _

theorem keeps_mcuStop (hW : sub 2097154 W = true) (h : Keeps W s0 s) : Keeps W s0 (@mcuStop s) := by
  unfold mcuStop
  repeat' first
    | with_reducible assumption | exact sub_trans rfl hW | with_reducible apply keeps_setF
    | with_reducible refine keeps_up_sys (sub_bit rfl hW) ?_

theorem keeps_islLost {a1} (hW : sub 16775650 W = true) (h : Keeps W s0 s) : Keeps W s0 (@islLost a1 s) := by
  unfold islLost
  repeat' first
    | with_reducible assumption | intro _ | lift_lets | exact sub_trans rfl hW | with_reducible apply keeps_mcuStop
    | with_reducible apply keeps_synStop | with_reducible apply keeps_tdcStop | with_reducible apply keeps_redLost
    | with_reducible apply keeps_egrIdle | with_reducible apply keeps_quadLost | with_reducible apply keeps_loseLeaving
    | with_reducible apply keeps_loseInputs | with_reducible apply keeps_crossDown | with_reducible apply keeps_setF
    | with_reducible apply keeps_ite | intro _

theorem keeps_resetRegs {a1} (hW : sub 6 W = true) (h : Keeps W s0 s) : Keeps W s0 (@resetRegs a1 s) := by
  unfold resetRegs
  repeat' first
    | with_reducible assumption | intro _ | lift_lets
    | (with_reducible apply Same.mk <;> first | exact off rfl hW | exact fun _ => rfl)
    | with_reducible refine keeps_mkKeep ?_ rfl rfl rfl ?_ | intro _

theorem keeps_hostReset {a1} (hW : sub 196634 W = true) (h : Keeps W s0 s) : Keeps W s0 (@hostReset a1 s) := by
  unfold hostReset
  repeat' first
    | with_reducible assumption | exact sub_trans rfl hW
    | (with_reducible apply Same.mk <;> first | exact off rfl hW | exact fun _ => rfl) | with_reducible apply keeps_eccRepair
    | with_reducible apply keeps_setF | with_reducible apply keeps_foldl | with_reducible refine keeps_mk ?_ rfl rfl rfl ?_
    | intro _

theorem keeps_mcuReset {a1} (hW : sub 2162690 W = true) (h : Keeps W s0 s) : Keeps W s0 (@mcuReset a1 s) := by
  unfold mcuReset
  repeat' first
    | with_reducible assumption | exact sub_trans rfl hW | with_reducible apply keeps_mcuStop
    | with_reducible apply keeps_eccClear | with_reducible apply keeps_ite
    | with_reducible refine keeps_up_sys (sub_bit rfl hW) ?_

theorem keeps_laneReset {a1} (hW : sub 1310722 W = true) (h : Keeps W s0 s) : Keeps W s0 (@laneReset a1 s) := by
  unfold laneReset
  repeat' first
    | with_reducible assumption | exact sub_trans rfl hW | with_reducible apply keeps_giveBack
    | with_reducible apply keeps_setF | with_reducible apply keeps_foldl
    | with_reducible refine keeps_up_lnk (sub_bit rfl hW) ?_ | intro _

theorem keeps_opReset {a1 a2} (hW : sub 8388570 W = true) (h : Keeps W s0 s) : Keeps W s0 (@opReset a1 a2 s) := by
  unfold opReset
  repeat' first
    | with_reducible assumption | intro _ | lift_lets | exact sub_trans rfl hW
    | (with_reducible apply Same.mk <;> first | exact off rfl hW | exact fun _ => rfl) | with_reducible apply keeps_laneReset
    | with_reducible apply keeps_mcuReset | with_reducible apply keeps_hostReset | with_reducible apply keeps_egrRestart
    | with_reducible apply keeps_egrIdle | with_reducible apply keeps_flushBuf | with_reducible apply keeps_eccClear
    | refine keeps_mkLast ?_ rfl rfl (fun _ => ok_zero) ?_ | with_reducible apply keeps_ite | split
    | with_reducible refine keeps_up_pte (sub_bit rfl hW) ?_ | with_reducible refine keeps_up_ing (sub_bit rfl hW) ?_
    | with_reducible refine keeps_up_buf (sub_bit rfl hW) ?_ | with_reducible refine keeps_up_egr (sub_bit rfl hW) ?_
    | with_reducible refine keeps_up_red (sub_bit rfl hW) ?_ | with_reducible refine keeps_up_syn (sub_bit rfl hW) ?_
    | with_reducible refine keeps_up_tdc (sub_bit rfl hW) ?_ | with_reducible refine keeps_mk ?_ rfl rfl rfl ?_ | intro _

theorem keeps_warmRest (hW : sub 68096 W = true) (h : Keeps W s0 s) : Keeps W s0 (@warmRest s) := by
  unfold warmRest
  repeat' first
    | with_reducible assumption | exact sub_trans rfl hW
    | (with_reducible apply Same.mk <;> first | exact off rfl hW | exact fun _ => rfl) | with_reducible apply keeps_setTally
    | with_reducible apply keeps_foldl | with_reducible refine keeps_mk ?_ rfl rfl rfl ?_ | intro _

theorem keeps_tickUs {a1} (hW : sub 2097152 W = true) (h : Keeps W s0 s) : Keeps W s0 (@tickUs a1 s) := by
  unfold tickUs
  repeat' first
    | with_reducible assumption | with_reducible apply keeps_ite | with_reducible refine keeps_up_sys (sub_bit rfl hW) ?_

theorem keeps_milestone {a1} (hW : sub 2 W = true) (h : Keeps W s0 s) : Keeps W s0 (@milestone a1 s) := by
  unfold milestone
  repeat' first
    | with_reducible assumption | with_reducible apply keeps_setF | with_reducible apply keeps_ite

theorem keeps_modOpen {a1} (hW : sub 256 W = true) (h : Keeps W s0 s) : Keeps W s0 (@modOpen a1 s) := by
  unfold modOpen
  repeat' first
    | with_reducible assumption | split | with_reducible refine keeps_up_flt (sub_bit rfl hW) ?_

theorem keeps_modeSync (hW : sub 256 W = true) (h : Keeps W s0 s) : Keeps W s0 (@modeSync s) := by
  unfold modeSync
  repeat' first
    | with_reducible assumption | with_reducible apply keeps_modOpen | with_reducible apply keeps_ite

theorem keeps_aliveStop (hW : sub 258 W = true) (h : Keeps W s0 s) : Keeps W s0 (@aliveStop s) := by
  unfold aliveStop
  repeat' first
    | with_reducible assumption | with_reducible apply keeps_raise | with_reducible apply keeps_ite
    | with_reducible refine keeps_up_flt (sub_bit rfl hW) ?_

theorem keeps_aliveStart (hW : sub 4194560 W = true) (h : Keeps W s0 s) : Keeps W s0 (@aliveStart s) := by
  unfold aliveStart
  repeat' first
    | with_reducible assumption | exact sub_trans rfl hW | with_reducible apply keeps_emit | with_reducible apply keeps_ite
    | with_reducible refine keeps_up_flt (sub_bit rfl hW) ?_

theorem keeps_readyCheck (hW : sub 258 W = true) (h : Keeps W s0 s) : Keeps W s0 (@readyCheck s) := by
  unfold readyCheck
  repeat' first
    | with_reducible assumption | exact sub_trans rfl hW | with_reducible apply keeps_milestone
    | with_reducible apply keeps_setF | with_reducible apply keeps_ite | with_reducible refine keeps_up_flt (sub_bit rfl hW) ?_

theorem keeps_pinFollows {a1} (hW : sub 6291456 W = true) (h : Keeps W s0 s) : Keeps W s0 (@pinFollows a1 s) := by
  unfold pinFollows
  repeat' first
    | with_reducible assumption | exact sub_trans rfl hW | with_reducible apply keeps_emit | with_reducible apply keeps_ite
    | with_reducible refine keeps_up_sys (sub_bit rfl hW) ?_

theorem keeps_jobsSettle (hW : sub 6291714 W = true) (h : Keeps W s0 s) : Keeps W s0 (@jobsSettle s) := by
  unfold jobsSettle
  repeat' first
    | with_reducible assumption | exact sub_trans rfl hW | with_reducible apply keeps_readyCheck
    | with_reducible apply keeps_aliveStart | with_reducible apply keeps_whenS | with_reducible apply keeps_setFlag
    | with_reducible refine keeps_up_sys (sub_bit rfl hW) ?_ | intro _

theorem keeps_unwait {a1} (hW : sub 2097408 W = true) (h : Keeps W s0 s) : Keeps W s0 (@unwait a1 s) := by
  unfold unwait
  repeat' first
    | with_reducible assumption | with_reducible apply keeps_ite | with_reducible refine keeps_up_flt (sub_bit rfl hW) ?_
    | with_reducible refine keeps_up_sys (sub_bit rfl hW) ?_

theorem keeps_setIsl {a1 a2 a3} (hW : sub 2 W = true) (h : Keeps W s0 s) : Keeps W s0 (@setIsl a1 a2 a3 s) := by
  unfold setIsl
  repeat' first
    | with_reducible assumption | with_reducible apply keeps_setF

theorem keeps_fence {a1} (hW : sub 16775650 W = true) (h : Keeps W s0 s) : Keeps W s0 (@fence a1 s) := by
  unfold fence
  repeat' first
    | with_reducible assumption | exact sub_trans rfl hW | with_reducible apply keeps_setIsl
    | with_reducible apply keeps_unwait | with_reducible apply keeps_jobsSettle | with_reducible apply keeps_islLost
    | with_reducible apply keeps_whenS | with_reducible apply keeps_ite | intro _

theorem keeps_chooseSlot {a1} (hW : sub 2097154 W = true) (h : Keeps W s0 s) : Keeps W s0 (@chooseSlot a1 s) := by
  unfold chooseSlot
  repeat' first
    | with_reducible assumption | exact sub_trans rfl hW | with_reducible apply keeps_whenS | with_reducible apply keeps_setF
    | split | with_reducible refine keeps_up_sys (sub_bit rfl hW) ?_ | intro _

theorem keeps_takeDown {a1 a2} (hW : sub 16777210 W = true) (h : Keeps W s0 s) : Keeps W s0 (@takeDown a1 a2 s) := by
  unfold takeDown
  repeat' first
    | with_reducible assumption | exact sub_trans rfl hW | with_reducible apply keeps_setIsl
    | with_reducible apply keeps_opReset | with_reducible apply keeps_islLost | with_reducible apply keeps_copiesStop
    | with_reducible apply keeps_whenS | intro _

theorem keeps_restartLoads {a1} (hW : sub 2097154 W = true) (h : Keeps W s0 s) : Keeps W s0 (@restartLoads a1 s) := by
  unfold restartLoads
  repeat' first
    | with_reducible assumption | exact sub_trans rfl hW | with_reducible apply keeps_setF | split
    | with_reducible refine keeps_up_sys (sub_bit rfl hW) ?_

theorem keeps_nominalCals (hW : sub 2 W = true) (h : Keeps W s0 s) : Keeps W s0 (@nominalCals s) := by
  unfold nominalCals
  repeat' first
    | with_reducible assumption | with_reducible apply keeps_setF | with_reducible apply keeps_foldl | intro _

theorem keeps_fuseFields {a1 a2} (hW : sub 2 W = true) (h : Keeps W s0 s) : Keeps W s0 (@fuseFields a1 a2 s) := by
  unfold fuseFields
  repeat' first
    | with_reducible assumption | with_reducible apply keeps_nominalCals | with_reducible apply keeps_setFlag
    | with_reducible apply keeps_setF | with_reducible apply keeps_foldl | intro _

theorem keeps_fuseDefaults (hW : sub 2 W = true) (h : Keeps W s0 s) : Keeps W s0 (@fuseDefaults s) := by
  unfold fuseDefaults
  repeat' first
    | with_reducible assumption | with_reducible apply keeps_fuseFields

theorem keeps_clockDefaults (hW : sub 2 W = true) (h : Keeps W s0 s) : Keeps W s0 (@clockDefaults s) := by
  unfold clockDefaults
  repeat' first
    | with_reducible assumption | with_reducible apply keeps_setF

theorem keeps_levelState {a1} (hW : sub 2428454 W = true) (h : Keeps W s0 s) : Keeps W s0 (@levelState a1 s) := by
  unfold levelState
  repeat' first
    | with_reducible assumption | exact sub_trans rfl hW
    | (with_reducible apply Same.mk <;> first | exact off rfl hW | exact fun _ => rfl)
    | with_reducible apply keeps_clockDefaults | with_reducible apply keeps_fuseDefaults
    | with_reducible apply keeps_restartLoads | with_reducible apply keeps_warmRest | with_reducible apply keeps_resetRegs
    | with_reducible apply keeps_settleTdc | with_reducible apply keeps_whenS | with_reducible apply keeps_setF | split
    | with_reducible refine keeps_up_mon (sub_bit rfl hW) ?_ | with_reducible refine keeps_mk ?_ rfl rfl rfl ?_ | intro _

theorem keeps_levelStatus {a1 a2} (hW : sub 258 W = true) (h : Keeps W s0 s) : Keeps W s0 (@levelStatus a1 a2 s) := by
  unfold levelStatus
  repeat' first
    | with_reducible assumption | exact sub_trans rfl hW | with_reducible apply keeps_whenS | with_reducible apply keeps_setF
    | with_reducible apply keeps_foldl | with_reducible apply keeps_ite
    | with_reducible refine keeps_up_flt (sub_bit rfl hW) ?_ | intro _

theorem keeps_addJob {a1 a2 a3 a4} (hW : sub 2097408 W = true) (h : Keeps W s0 s) : Keeps W s0 (@addJob a1 a2 a3 a4 s) := by
  unfold addJob
  repeat' first
    | with_reducible assumption | exact sub_trans rfl hW | with_reducible apply keeps_modeSync | with_reducible apply keeps_ite
    | split | with_reducible refine keeps_up_flt (sub_bit rfl hW) ?_ | with_reducible refine keeps_up_sys (sub_bit rfl hW) ?_

theorem keeps_beginReset {a1 a2 a3 a4} (hW : sub 16777214 W = true) (h : Keeps W s0 s) : Keeps W s0 (@beginReset a1 a2 a3 a4 s) := by
  unfold beginReset
  repeat' first
    | with_reducible assumption | intro _ | lift_lets | exact sub_trans rfl hW | with_reducible apply keeps_addJob
    | with_reducible apply keeps_levelStatus | with_reducible apply keeps_levelState | with_reducible apply keeps_takeDown
    | with_reducible apply keeps_chooseSlot | with_reducible apply keeps_flushFrame | with_reducible apply keeps_whenS
    | with_reducible apply keeps_foldl | with_reducible apply keeps_ite
    | with_reducible refine keeps_up_sys (sub_bit rfl hW) ?_ | intro _

theorem keeps_strike {a1 a2} (hW : sub 16777214 W = true) (h : Keeps W s0 s) : Keeps W s0 (@strike a1 a2 s) := by
  unfold strike
  repeat' first
    | with_reducible assumption | exact sub_trans rfl hW | with_reducible apply keeps_beginReset
    | with_reducible apply keeps_setIsl | with_reducible apply keeps_pinFollows | with_reducible apply keeps_raiseFault
    | with_reducible apply keeps_raise | with_reducible apply keeps_ite | split
    | with_reducible refine keeps_up_flt (sub_bit rfl hW) ?_ | with_reducible refine keeps_up_sys (sub_bit rfl hW) ?_

theorem keeps_execCrossingUp {a1 a2} (hW : sub 12583008 W = true) (h : Keeps W s0 s) : KeepsOut W s0 (@execCrossingUp a1 a2 s) := by
  unfold execCrossingUp
  repeat' first
    | with_reducible assumption | exact sub_trans rfl hW | with_reducible apply keeps_setCross | with_reducible apply keeps_ran
    | with_reducible apply keeps_whenS | with_reducible apply keeps_State_begin | with_reducible apply keeps_copyStart
    | with_reducible apply keeps_ite | intro _

theorem keeps_execCrossingDeliver {a1 a2 a3} (hW : sub 4194336 W = true) (h : Keeps W s0 s) : KeepsOut W s0 (@execCrossingDeliver a1 a2 a3 s) := by
  unfold execCrossingDeliver
  repeat' first
    | with_reducible assumption | exact sub_trans rfl hW | with_reducible apply keeps_ran
    | with_reducible apply keeps_State_begin | with_reducible apply keeps_emit | with_reducible apply keeps_ite | split
    | with_reducible refine keeps_up_xings (sub_bit rfl hW) ?_

theorem keeps_loseWaiting {a1} (hW : sub 8478978 W = true) (h : Keeps W s0 s) : Keeps W s0 (@loseWaiting a1 s) := by
  unfold loseWaiting
  repeat' first
    | with_reducible assumption | with_reducible apply keeps_redDiscard | with_reducible apply keeps_foldl | intro _

theorem keeps_crossLost {a1 a2} (hW : sub 14905602 W = true) (h : Keeps W s0 s) : Keeps W s0 (@crossLost a1 a2 s) := by
  unfold crossLost
  repeat' first
    | with_reducible assumption | intro _ | lift_lets | exact sub_trans rfl hW | with_reducible apply keeps_loseWaiting
    | with_reducible apply keeps_egrIdle | with_reducible apply keeps_loseLeaving | with_reducible apply keeps_loseInputs
    | with_reducible apply keeps_ite | intro _

theorem keeps_crossHang {a1 a2} (hW : sub 14905698 W = true) (h : Keeps W s0 s) : Keeps W s0 (@crossHang a1 a2 s) := by
  unfold crossHang
  repeat' first
    | with_reducible assumption | exact sub_trans rfl hW | with_reducible apply keeps_crossLost
    | with_reducible apply keeps_setCross | with_reducible apply keeps_hangFault | with_reducible apply keeps_whenS | intro _

theorem keeps_execCrossingHang {a1 a2} (hW : sub 14905698 W = true) (h : Keeps W s0 s) : KeepsOut W s0 (@execCrossingHang a1 a2 s) := by
  unfold execCrossingHang
  repeat' first
    | with_reducible assumption | exact sub_trans rfl hW | with_reducible apply keeps_crossHang
    | with_reducible apply keeps_ran | with_reducible apply keeps_State_begin | with_reducible apply keeps_ite

theorem keeps_execBar0AccessTimeout {a1 a2} (hW : sub 14905698 W = true) (h : Keeps W s0 s) : KeepsOut W s0 (@execBar0AccessTimeout a1 a2 s) := by
  unfold execBar0AccessTimeout
  repeat' first
    | with_reducible assumption | exact sub_trans rfl hW | with_reducible apply keeps_crossHang
    | with_reducible apply keeps_hangFault | with_reducible apply keeps_ran | with_reducible apply keeps_State_begin
    | with_reducible apply keeps_emit | with_reducible apply keeps_ite | split

theorem keeps_clockLoss {a1} (hW : sub 16777214 W = true) (h : Keeps W s0 s) : Keeps W s0 (@clockLoss a1 s) := by
  unfold clockLoss
  repeat' first
    | with_reducible assumption | exact sub_trans rfl hW | with_reducible apply keeps_strike
    | with_reducible apply keeps_setIsl | with_reducible apply keeps_islLost | with_reducible apply keeps_quadClkCheck
    | with_reducible apply keeps_copiesStop | with_reducible apply keeps_whenS | with_reducible apply keeps_raiseFault
    | with_reducible apply keeps_ite | with_reducible refine keeps_up_sys (sub_bit rfl hW) ?_ | intro _

theorem keeps_execIslandClockLoss {a1} (hW : sub 16777214 W = true) (h : Keeps W s0 s) : KeepsOut W s0 (@execIslandClockLoss a1 s) := by
  unfold execIslandClockLoss
  repeat' first
    | with_reducible assumption | exact sub_trans rfl hW | with_reducible apply keeps_clockLoss
    | with_reducible apply keeps_ran | with_reducible apply keeps_State_begin | with_reducible apply keeps_ite

theorem keeps_lastResumes (hW : sub 322 W = true) (h : Keeps W s0 s) : Keeps W s0 (@lastResumes s) := by
  unfold lastResumes
  repeat' first
    | with_reducible assumption | exact sub_trans rfl hW | with_reducible apply keeps_raise
    | with_reducible refine keeps_up_tim (sub_bit rfl hW) rfl ?_

theorem keeps_clockReturn {a1} (hW : sub 15202786 W = true) (h : Keeps W s0 s) : Keeps W s0 (@clockReturn a1 s) := by
  unfold clockReturn
  repeat' first
    | with_reducible assumption | exact sub_trans rfl hW | with_reducible apply keeps_lastResumes
    | with_reducible apply keeps_setIsl | with_reducible apply keeps_quadClkCheck | with_reducible apply keeps_whenS
    | with_reducible apply keeps_ite | split | with_reducible refine keeps_up_sys (sub_bit rfl hW) ?_ | intro _

theorem keeps_execIslandClockReturn {a1} (hW : sub 15202786 W = true) (h : Keeps W s0 s) : KeepsOut W s0 (@execIslandClockReturn a1 s) := by
  unfold execIslandClockReturn
  repeat' first
    | with_reducible assumption | exact sub_trans rfl hW | with_reducible apply keeps_clockReturn
    | with_reducible apply keeps_ran | with_reducible apply keeps_State_begin | with_reducible apply keeps_ite

theorem keeps_locked {a1} (hW : sub 13107458 W = true) (h : Keeps W s0 s) : Keeps W s0 (@locked a1 s) := by
  unfold locked
  repeat' first
    | with_reducible assumption | exact sub_trans rfl hW | with_reducible apply keeps_startOut
    | with_reducible apply keeps_whenS | with_reducible apply keeps_raise | with_reducible apply keeps_foldl
    | with_reducible apply keeps_ite | split | intro _

theorem keeps_execApllLock {a1 a2} (hW : sub 15727074 W = true) (h : Keeps W s0 s) : KeepsOut W s0 (@execApllLock a1 a2 s) := by
  unfold execApllLock
  repeat' first
    | with_reducible assumption | exact sub_trans rfl hW | with_reducible apply keeps_locked
    | with_reducible apply keeps_milestone | with_reducible apply keeps_tickUs | with_reducible apply keeps_quadClks
    | with_reducible apply keeps_ran | with_reducible apply keeps_whenS | with_reducible apply keeps_State_begin
    | with_reducible apply keeps_setF | with_reducible apply keeps_ite | intro _

theorem keeps_execApllUnlock {a1} (hW : sub 16777214 W = true) (h : Keeps W s0 s) : KeepsOut W s0 (@execApllUnlock a1 s) := by
  unfold execApllUnlock
  repeat' first
    | with_reducible assumption | intro _ | lift_lets | exact sub_trans rfl hW | with_reducible apply keeps_clockLoss
    | with_reducible apply keeps_quadClks | with_reducible apply keeps_squelch | with_reducible apply keeps_tallyInvalid
    | with_reducible apply keeps_ran | with_reducible apply keeps_whenS | with_reducible apply keeps_State_begin
    | with_reducible apply keeps_raiseFault | with_reducible apply keeps_raise | with_reducible apply keeps_setF
    | with_reducible apply keeps_foldl | with_reducible apply keeps_ite | intro _

theorem keeps_execPowerUpCalibration {a1 a2 a3 a4} (hW : sub 15072706 W = true) (h : Keeps W s0 s) : KeepsOut W s0 (@execPowerUpCalibration a1 a2 a3 a4 s) := by
  unfold execPowerUpCalibration
  repeat' first
    | with_reducible assumption | exact sub_trans rfl hW | with_reducible apply keeps_readyCheck
    | with_reducible apply keeps_milestone | with_reducible apply keeps_tickUs | with_reducible apply keeps_calibrated
    | with_reducible apply keeps_ran | with_reducible apply keeps_whenS | with_reducible apply keeps_State_begin | intro _

theorem keeps_setSlot {a1 a2} (hW : sub 2097152 W = true) (h : Keeps W s0 s) : Keeps W s0 (@setSlot a1 a2 s) := by
  unfold setSlot
  repeat' first
    | with_reducible assumption | with_reducible refine keeps_up_sys (sub_bit rfl hW) ?_

theorem keeps_execPowerOn {p a} (hW : sub 16777215 W = true) (h : Keeps W s0 s) : KeepsOut W s0 (execPowerOn p a s) :=
  keeps_ran (sub_trans rfl hW) (keeps_ite (keeps_emit (sub_trans rfl hW) (keeps_emit (sub_trans rfl hW) (keeps_chooseSlot (sub_trans rfl hW)
    ⟨h.queue, fun _ => rfl, fun _ => ok_zero, by constructor <;> exact off rfl hW⟩))) (keeps_State_begin (sub_trans rfl hW) h))

theorem keeps_execResetNAccept {a1} (hW : sub 16777214 W = true) (h : Keeps W s0 s) : KeepsOut W s0 (@execResetNAccept a1 s) := by
  unfold execResetNAccept
  repeat' first
    | with_reducible assumption | exact sub_trans rfl hW | with_reducible apply keeps_strike
    | with_reducible apply keeps_tickUs | with_reducible apply keeps_ran | with_reducible apply keeps_State_begin
    | with_reducible apply keeps_ite

theorem keeps_execResetNGlitch {a1} (hW : sub 6291458 W = true) (h : Keeps W s0 s) : KeepsOut W s0 (@execResetNGlitch a1 s) := by
  unfold execResetNGlitch
  repeat' first
    | with_reducible assumption | exact sub_trans rfl hW | with_reducible apply keeps_tickUs | with_reducible apply keeps_ran
    | with_reducible apply keeps_State_begin | with_reducible apply keeps_bump | with_reducible apply keeps_ite

theorem keeps_writeRstReq {a1} (hW : sub 16777214 W = true) (h : Keeps W s0 s) : Keeps W s0 (@writeRstReq a1 s) := by
  unfold writeRstReq
  repeat' first
    | with_reducible assumption | exact sub_trans rfl hW | with_reducible apply keeps_strike | with_reducible apply keeps_setF
    | with_reducible apply keeps_ite

theorem keeps_execRstRequest {a1 a2} (hW : sub 16777214 W = true) (h : Keeps W s0 s) : KeepsOut W s0 (@execRstRequest a1 a2 s) := by
  unfold execRstRequest
  repeat' first
    | with_reducible assumption | exact sub_trans rfl hW | with_reducible apply keeps_writeRstReq
    | with_reducible apply keeps_writeAt | with_reducible apply keeps_ran | with_reducible apply keeps_State_begin | intro _

theorem keeps_writeSrcMap {a1} (hW : sub 258 W = true) (h : Keeps W s0 s) : Keeps W s0 (@writeSrcMap a1 s) := by
  unfold writeSrcMap
  repeat' first
    | with_reducible assumption | exact sub_trans rfl hW | with_reducible apply keeps_raise | with_reducible apply keeps_setF
    | with_reducible apply keeps_foldl | with_reducible apply keeps_ite | split | intro _

theorem keeps_execSrcMapWrite {a1 a2} (hW : sub 4194562 W = true) (h : Keeps W s0 s) : KeepsOut W s0 (@execSrcMapWrite a1 a2 s) := by
  unfold execSrcMapWrite
  repeat' first
    | with_reducible assumption | exact sub_trans rfl hW | with_reducible apply keeps_writeSrcMap
    | with_reducible apply keeps_writeAt | with_reducible apply keeps_ran | with_reducible apply keeps_State_begin | intro _

theorem keeps_execResetStretchEnd {a1 a2} (hW : sub 6291714 W = true) (h : Keeps W s0 s) : KeepsOut W s0 (@execResetStretchEnd a1 a2 s) := by
  unfold execResetStretchEnd
  repeat' first
    | with_reducible assumption | exact sub_trans rfl hW | with_reducible apply keeps_jobsSettle
    | with_reducible apply keeps_pinFollows | with_reducible apply keeps_tickUs | with_reducible apply keeps_ran
    | with_reducible apply keeps_State_begin | with_reducible refine keeps_up_sys (sub_bit rfl hW) ?_

theorem keeps_quadReload {a1} (hW : sub 8650754 W = true) (h : Keeps W s0 s) : Keeps W s0 (@quadReload a1 s) := by
  unfold quadReload
  repeat' first
    | with_reducible assumption | exact sub_trans rfl hW | with_reducible apply keeps_loadQuad
    | with_reducible apply keeps_setF | with_reducible apply keeps_ite

theorem keeps_laneReleased {a1} (hW : sub 15071682 W = true) (h : Keeps W s0 s) : Keeps W s0 (@laneReleased a1 s) := by
  unfold laneReleased
  repeat' first
    | with_reducible assumption | exact sub_trans rfl hW | with_reducible apply keeps_calChannels
    | with_reducible apply keeps_settlePort | with_reducible apply keeps_loadQuad | with_reducible apply keeps_whenS
    | with_reducible apply keeps_setF | with_reducible apply keeps_foldl | with_reducible apply keeps_ite | intro _

theorem keeps_startIsland {a1 a2} (hW : sub 16120258 W = true) (h : Keeps W s0 s) : Keeps W s0 (@startIsland a1 a2 s) := by
  unfold startIsland
  repeat' first
    | with_reducible assumption | intro _ | lift_lets | exact sub_trans rfl hW | with_reducible apply keeps_laneReleased
    | with_reducible apply keeps_quadReload | with_reducible apply keeps_lastResumes | with_reducible apply keeps_settleTdc
    | with_reducible apply keeps_anchor | with_reducible apply keeps_pinUpdate | with_reducible apply keeps_reselect
    | with_reducible apply keeps_whenS | with_reducible apply keeps_setF | with_reducible apply keeps_foldl
    | with_reducible apply keeps_ite | with_reducible refine keeps_up_sys (sub_bit rfl hW) ?_ | intro _

theorem keeps_releaseIsland {a1} (hW : sub 16120258 W = true) (h : Keeps W s0 s) : Keeps W s0 (@releaseIsland a1 s) := by
  unfold releaseIsland
  repeat' first
    | with_reducible assumption | exact sub_trans rfl hW | with_reducible apply keeps_startIsland
    | with_reducible apply keeps_setIsl | with_reducible apply keeps_unwait | with_reducible apply keeps_jobsSettle
    | with_reducible apply keeps_modeSync | with_reducible apply keeps_milestone | with_reducible apply keeps_whenS
    | with_reducible refine keeps_up_sys (sub_bit rfl hW) ?_ | intro _

theorem keeps_execIslandRelease {a1 a2} (hW : sub 16120258 W = true) (h : Keeps W s0 s) : KeepsOut W s0 (@execIslandRelease a1 a2 s) := by
  unfold execIslandRelease
  repeat' first
    | with_reducible assumption | exact sub_trans rfl hW | with_reducible apply keeps_releaseIsland
    | with_reducible apply keeps_tickUs | with_reducible apply keeps_ran | with_reducible apply keeps_State_begin
    | with_reducible apply keeps_ite

theorem keeps_forceRelease {a1} (hW : sub 6291714 W = true) (h : Keeps W s0 s) : Keeps W s0 (@forceRelease a1 s) := by
  unfold forceRelease
  repeat' first
    | with_reducible assumption | exact sub_trans rfl hW | with_reducible apply keeps_setIsl
    | with_reducible apply keeps_unwait | with_reducible apply keeps_jobsSettle | with_reducible apply keeps_modeSync
    | with_reducible apply keeps_raiseFault | with_reducible apply keeps_raise | with_reducible apply keeps_ite

theorem keeps_writeForce {a1} (hW : sub 6291714 W = true) (h : Keeps W s0 s) : Keeps W s0 (@writeForce a1 s) := by
  unfold writeForce
  repeat' first
    | with_reducible assumption | intro _ | lift_lets | with_reducible apply keeps_forceRelease
    | with_reducible apply keeps_foldl | with_reducible apply keeps_ite | intro _

theorem keeps_execForcedRelease {a1 a2} (hW : sub 6291714 W = true) (h : Keeps W s0 s) : KeepsOut W s0 (@execForcedRelease a1 a2 s) := by
  unfold execForcedRelease
  repeat' first
    | with_reducible assumption | exact sub_trans rfl hW | with_reducible apply keeps_writeForce
    | with_reducible apply keeps_writeAt | with_reducible apply keeps_ran | with_reducible apply keeps_State_begin | intro _

theorem keeps_execOscillatorCheckEnd {a1 a2 a3 a4} (hW : sub 6291714 W = true) (h : Keeps W s0 s) : KeepsOut W s0 (@execOscillatorCheckEnd a1 a2 a3 a4 s) := by
  unfold execOscillatorCheckEnd
  repeat' first
    | with_reducible assumption | exact sub_trans rfl hW | with_reducible apply keeps_aliveStart
    | with_reducible apply keeps_tickUs | with_reducible apply keeps_ran | with_reducible apply keeps_whenS
    | with_reducible apply keeps_State_begin | with_reducible apply keeps_raise | with_reducible apply keeps_setFlag
    | with_reducible apply keeps_ite | with_reducible refine keeps_up_sys (sub_bit rfl hW) ?_ | intro _

theorem keeps_loadEnded {a1} (hW : sub 2097154 W = true) (h : Keeps W s0 s) : Keeps W s0 (@loadEnded a1 s) := by
  unfold loadEnded
  repeat' first
    | with_reducible assumption | exact sub_trans rfl hW | with_reducible apply keeps_milestone
    | with_reducible apply keeps_whenS | with_reducible refine keeps_up_sys (sub_bit rfl hW) ?_ | intro _

theorem keeps_dropAbsent (hW : sub 2097408 W = true) (h : Keeps W s0 s) : Keeps W s0 (@dropAbsent s) := by
  unfold dropAbsent
  repeat' first
    | with_reducible assumption | with_reducible apply keeps_unwait | with_reducible apply keeps_foldl | intro _

theorem keeps_fuseShown (hW : sub 2 W = true) (h : Keeps W s0 s) : Keeps W s0 (@fuseShown s) := by
  unfold fuseShown
  repeat' first
    | with_reducible assumption | with_reducible apply keeps_setFlag | with_reducible apply keeps_setF

theorem keeps_fuseValid {a1} (hW : sub 2097410 W = true) (h : Keeps W s0 s) : Keeps W s0 (@fuseValid a1 s) := by
  unfold fuseValid
  repeat' first
    | with_reducible assumption | exact sub_trans rfl hW | with_reducible apply keeps_fuseShown
    | with_reducible apply keeps_dropAbsent | with_reducible apply keeps_loadEnded | with_reducible apply keeps_fuseFields
    | with_reducible apply keeps_milestone | with_reducible refine keeps_up_sys (sub_bit rfl hW) ?_

theorem keeps_setAvs {a1 a2 a3} (hW : sub 2 W = true) (h : Keeps W s0 s) : Keeps W s0 (@setAvs a1 a2 a3 s) := by
  unfold setAvs
  repeat' first
    | with_reducible assumption | with_reducible apply keeps_setF

theorem keeps_driveVid (hW : sub 6291456 W = true) (h : Keeps W s0 s) : Keeps W s0 (@driveVid s) := by
  unfold driveVid
  repeat' first
    | with_reducible assumption | exact sub_trans rfl hW | with_reducible apply keeps_emit | with_reducible apply keeps_foldl
    | with_reducible refine keeps_up_sys (sub_bit rfl hW) ?_ | intro _

theorem keeps_recordAbsent (hW : sub 258 W = true) (h : Keeps W s0 s) : Keeps W s0 (@recordAbsent s) := by
  unfold recordAbsent
  repeat' first
    | with_reducible assumption | exact sub_trans rfl hW | with_reducible apply keeps_setAvs
    | with_reducible apply keeps_putWord | with_reducible apply keeps_raise | with_reducible apply keeps_setF
    | with_reducible apply keeps_foldl | intro _

theorem keeps_recordValid {a1 a2 a3 a4} (hW : sub 3211522 W = true) (h : Keeps W s0 s) : Keeps W s0 (@recordValid a1 a2 a3 a4 s) := by
  unfold recordValid
  repeat' first
    | with_reducible assumption | intro _ | lift_lets | exact sub_trans rfl hW
    | (with_reducible apply Same.mk <;> first | exact off rfl hW | exact fun _ => rfl) | with_reducible apply keeps_setAvs
    | with_reducible apply keeps_settleTdc | with_reducible apply keeps_fullWriteAll | with_reducible apply keeps_putWord
    | with_reducible apply keeps_noteTemp | with_reducible apply keeps_foldl | with_reducible apply keeps_ite
    | with_reducible refine keeps_mk ?_ rfl rfl rfl ?_ | intro _

theorem keeps_replaceLoad {a1} (hW : sub 6291714 W = true) (h : Keeps W s0 s) : Keeps W s0 (@replaceLoad a1 s) := by
  unfold replaceLoad
  repeat' first
    | with_reducible assumption | exact sub_trans rfl hW | with_reducible apply keeps_recordAbsent
    | with_reducible apply keeps_driveVid | with_reducible apply keeps_fuseShown | with_reducible apply keeps_dropAbsent
    | with_reducible apply keeps_loadEnded | with_reducible apply keeps_clockDefaults | with_reducible apply keeps_fuseDefaults
    | with_reducible apply keeps_milestone | with_reducible apply keeps_whenS | with_reducible apply keeps_raiseFault
    | with_reducible apply keeps_setF | with_reducible apply keeps_ite | split
    | with_reducible refine keeps_up_sys (sub_bit rfl hW) ?_ | intro _

theorem keeps_loadFailed {a1} (hW : sub 6291714 W = true) (h : Keeps W s0 s) : Keeps W s0 (@loadFailed a1 s) := by
  unfold loadFailed
  repeat' first
    | with_reducible assumption | exact sub_trans rfl hW | with_reducible apply keeps_replaceLoad
    | with_reducible apply keeps_raise | with_reducible apply keeps_ite

theorem keeps_clockSection {a1} (hW : sub 2 W = true) (h : Keeps W s0 s) : Keeps W s0 (@clockSection a1 s) := by
  unfold clockSection
  repeat' first
    | with_reducible assumption | with_reducible apply keeps_setF | with_reducible apply keeps_ite

theorem keeps_loadProfile {a1} (hW : sub 14680322 W = true) (h : Keeps W s0 s) : Keeps W s0 (@loadProfile a1 s) := by
  unfold loadProfile
  repeat' first
    | with_reducible assumption | exact sub_trans rfl hW | with_reducible apply keeps_clockSection
    | with_reducible apply keeps_loadFailed | with_reducible apply keeps_loadEnded | with_reducible apply keeps_clockDefaults
    | with_reducible apply keeps_uncorrectable | with_reducible apply keeps_whenS
    | with_reducible refine keeps_snd (keeps_drawInt (sub_trans rfl hW) ?_) | with_reducible apply keeps_raise
    | with_reducible apply keeps_bump | with_reducible apply keeps_setF | with_reducible apply keeps_ite | split
    | with_reducible refine keeps_up_flt (sub_bit rfl hW) ?_ | with_reducible refine keeps_up_sys (sub_bit rfl hW) ?_ | intro _

theorem keeps_execLoadAttemptComplete {a1 a2} (hW : sub 15794434 W = true) (h : Keeps W s0 s) : KeepsOut W s0 (@execLoadAttemptComplete a1 a2 s) := by
  unfold execLoadAttemptComplete
  repeat' first
    | with_reducible assumption | exact sub_trans rfl hW | with_reducible apply keeps_loadProfile
    | with_reducible apply keeps_loadFailed | with_reducible apply keeps_recordValid | with_reducible apply keeps_driveVid
    | with_reducible apply keeps_fuseValid | with_reducible apply keeps_loadEnded | with_reducible apply keeps_milestone
    | with_reducible apply keeps_tickUs | with_reducible apply keeps_ran | with_reducible apply keeps_State_begin
    | with_reducible apply keeps_bump | with_reducible apply keeps_ite | split
    | with_reducible refine keeps_up_sys (sub_bit rfl hW) ?_

theorem keeps_abandon {a1 a2} (hW : sub 16775650 W = true) (h : Keeps W s0 s) : Keeps W s0 (@abandon a1 a2 s) := by
  unfold abandon
  repeat' first
    | with_reducible assumption | exact sub_trans rfl hW | with_reducible apply keeps_fence
    | with_reducible apply keeps_raiseFault | with_reducible apply keeps_raise | with_reducible apply keeps_setF

theorem keeps_profileEnds (hW : sub 2097410 W = true) (h : Keeps W s0 s) : Keeps W s0 (@profileEnds s) := by
  unfold profileEnds
  repeat' first
    | with_reducible assumption | exact sub_trans rfl hW | with_reducible apply keeps_readyCheck
    | with_reducible apply keeps_setF | with_reducible refine keeps_up_sys (sub_bit rfl hW) ?_

theorem keeps_execStepDeadline {a1 a2} (hW : sub 16775650 W = true) (h : Keeps W s0 s) : KeepsOut W s0 (@execStepDeadline a1 a2 s) := by
  unfold execStepDeadline
  repeat' first
    | with_reducible assumption | exact sub_trans rfl hW | with_reducible apply keeps_profileEnds
    | with_reducible apply keeps_abandon | with_reducible apply keeps_readyCheck | with_reducible apply keeps_tickUs
    | with_reducible apply keeps_calChannels | with_reducible apply keeps_ran | with_reducible apply keeps_whenS
    | with_reducible apply keeps_State_begin | with_reducible apply keeps_raise | with_reducible apply keeps_setF
    | with_reducible apply keeps_foldl | with_reducible apply keeps_ite
    | with_reducible refine keeps_up_sys (sub_bit rfl hW) ?_ | intro _

theorem keeps_execSelfTestComplete {a1 a2 a3} (hW : sub 6291714 W = true) (h : Keeps W s0 s) : KeepsOut W s0 (@execSelfTestComplete a1 a2 a3 s) := by
  unfold execSelfTestComplete
  repeat' first
    | with_reducible assumption | exact sub_trans rfl hW | with_reducible apply keeps_setIsl
    | with_reducible apply keeps_tickUs | with_reducible apply keeps_ran | with_reducible apply keeps_State_begin
    | with_reducible apply keeps_raiseFault | with_reducible apply keeps_foldl | with_reducible apply keeps_ite | split
    | with_reducible refine keeps_up_sys (sub_bit rfl hW) ?_ | intro _

theorem keeps_logBegin {a1} (hW : sub 65664 W = true) (h : Keeps W s0 s) : Keeps W s0 (@logBegin a1 s) := by
  unfold logBegin
  repeat' first
    | with_reducible assumption | (with_reducible apply Same.mk <;> first | exact off rfl hW | exact fun _ => rfl)
    | with_reducible apply keeps_ite | with_reducible refine keeps_mk ?_ rfl rfl rfl ?_

theorem keeps_logBoot (hW : sub 65666 W = true) (h : Keeps W s0 s) : Keeps W s0 (@logBoot s) := by
  unfold logBoot
  repeat' first
    | with_reducible assumption | exact sub_trans rfl hW | with_reducible apply keeps_logBegin
    | with_reducible apply keeps_setF | with_reducible refine keeps_up_mon (sub_bit rfl hW) ?_

theorem keeps_setMeas {a1 a2} (hW : sub 2 W = true) (h : Keeps W s0 s) : Keeps W s0 (@setMeas a1 a2 s) := by
  unfold setMeas
  repeat' first
    | with_reducible assumption | with_reducible apply keeps_setF | with_reducible apply keeps_foldl | intro _

theorem keeps_extend {a1 a2 a3} (hW : sub 2097154 W = true) (h : Keeps W s0 s) : Keeps W s0 (@extend a1 a2 a3 s) := by
  unfold extend
  repeat' first
    | with_reducible assumption | exact sub_trans rfl hW | with_reducible apply keeps_setMeas | with_reducible apply keeps_setF
    | with_reducible apply keeps_ite | with_reducible refine keeps_up_sys (sub_bit rfl hW) ?_

theorem keeps_stagedShown (hW : sub 2 W = true) (h : Keeps W s0 s) : Keeps W s0 (@stagedShown s) := by
  unfold stagedShown
  repeat' first
    | with_reducible assumption | with_reducible apply keeps_setFlag

theorem keeps_discardStaged {a1} (hW : sub 2097154 W = true) (h : Keeps W s0 s) : Keeps W s0 (@discardStaged a1 s) := by
  unfold discardStaged
  repeat' first
    | with_reducible assumption | exact sub_trans rfl hW | with_reducible apply keeps_stagedShown
    | with_reducible refine keeps_up_sys (sub_bit rfl hW) ?_

theorem keeps_stageRead {a1} (hW : sub 2097410 W = true) (h : Keeps W s0 s) : Keeps W s0 (@stageRead a1 s) := by
  unfold stageRead
  repeat' first
    | with_reducible assumption | exact sub_trans rfl hW | with_reducible apply keeps_discardStaged
    | with_reducible refine keeps_snd (keeps_eccReadAll (sub_trans rfl hW) ?_) | with_reducible apply keeps_ite

theorem keeps_loadCode {a1} (hW : sub 2162946 W = true) (h : Keeps W s0 s) : Keeps W s0 (@loadCode a1 s) := by
  unfold loadCode
  repeat' first
    | with_reducible assumption | exact sub_trans rfl hW | with_reducible apply keeps_fullWriteAll
    | with_reducible refine keeps_snd (keeps_eccReadAll (sub_trans rfl hW) ?_)

theorem keeps_measureImage {a1 a2 a3} (hW : sub 2097154 W = true) (h : Keeps W s0 s) : Keeps W s0 (@measureImage a1 a2 a3 s) := by
  unfold measureImage
  repeat' first
    | with_reducible assumption | exact sub_trans rfl hW | with_reducible apply keeps_extend | with_reducible apply keeps_setF

theorem keeps_takeImage {a1 a2 a3} (hW : sub 2097410 W = true) (h : Keeps W s0 s) : Keeps W s0 (@takeImage a1 a2 a3 s) := by
  unfold takeImage
  repeat' first
    | with_reducible assumption | exact sub_trans rfl hW | with_reducible apply keeps_measureImage
    | with_reducible apply keeps_stageRead | with_reducible apply keeps_whenS | with_reducible apply keeps_raise
    | with_reducible apply keeps_setF | with_reducible apply keeps_ite | split | intro _

theorem keeps_outcome (hW : sub 258 W = true) (h : Keeps W s0 s) : Keeps W s0 (@outcome s) := by
  unfold outcome
  repeat' first
    | with_reducible assumption | exact sub_trans rfl hW | with_reducible apply keeps_whenS | with_reducible apply keeps_raise
    | with_reducible apply keeps_setF | intro _

theorem keeps_bootFinish {a1} (hW : sub 2163074 W = true) (h : Keeps W s0 s) : Keeps W s0 (@bootFinish a1 s) := by
  unfold bootFinish
  repeat' first
    | with_reducible assumption | exact sub_trans rfl hW | with_reducible apply keeps_loadCode
    | with_reducible apply keeps_extend | with_reducible apply keeps_logBoot | with_reducible apply keeps_readyCheck
    | with_reducible apply keeps_whenS | with_reducible apply keeps_setFlag | with_reducible apply keeps_setF
    | with_reducible refine keeps_up_sys (sub_bit rfl hW) ?_ | intro _

theorem keeps_bootStep1 (hW : sub 2097154 W = true) (h : Keeps W s0 s) : Keeps W s0 (@bootStep1 s) := by
  unfold bootStep1
  repeat' first
    | with_reducible assumption | exact sub_trans rfl hW
    | (with_reducible apply Same.mk <;> first | exact off rfl hW | exact fun _ => rfl) | with_reducible apply keeps_stagedShown
    | with_reducible apply keeps_extend | with_reducible apply keeps_fuseShown
    | with_reducible refine keeps_mkKeep ?_ rfl rfl rfl ?_

theorem keeps_execBootRomStart {a1 a2} (hW : sub 6357378 W = true) (h : Keeps W s0 s) : KeepsOut W s0 (@execBootRomStart a1 a2 s) := by
  unfold execBootRomStart
  repeat' first
    | with_reducible assumption | exact sub_trans rfl hW | with_reducible apply keeps_bootStep1
    | with_reducible apply keeps_bootFinish | with_reducible apply keeps_outcome | with_reducible apply keeps_takeImage
    | with_reducible apply keeps_tickUs | with_reducible apply keeps_ran | with_reducible apply keeps_State_begin
    | with_reducible apply keeps_setFlag | with_reducible apply keeps_setF | with_reducible apply keeps_ite | split
    | with_reducible refine keeps_up_sys (sub_bit rfl hW) ?_

theorem keeps_execFwStepLate {a1} (hW : sub 6357378 W = true) (h : Keeps W s0 s) : KeepsOut W s0 (@execFwStepLate a1 s) := by
  unfold execFwStepLate
  repeat' first
    | with_reducible assumption | exact sub_trans rfl hW | with_reducible apply keeps_bootFinish
    | with_reducible apply keeps_outcome | with_reducible apply keeps_tickUs | with_reducible apply keeps_ran
    | with_reducible apply keeps_State_begin | with_reducible apply keeps_raise | with_reducible apply keeps_setF
    | with_reducible apply keeps_ite | split | with_reducible refine keeps_up_sys (sub_bit rfl hW) ?_

theorem keeps_servoRestart (hW : sub 2162946 W = true) (h : Keeps W s0 s) : Keeps W s0 (@servoRestart s) := by
  unfold servoRestart
  repeat' first
    | with_reducible assumption | exact sub_trans rfl hW | with_reducible apply keeps_takeImage
    | with_reducible apply keeps_loadCode | with_reducible apply keeps_raise | with_reducible apply keeps_setF
    | with_reducible apply keeps_ite

theorem keeps_writeFwtCtl {a1} (hW : sub 2162946 W = true) (h : Keeps W s0 s) : Keeps W s0 (@writeFwtCtl a1 s) := by
  unfold writeFwtCtl
  repeat' first
    | with_reducible assumption | exact sub_trans rfl hW | with_reducible apply keeps_servoRestart
    | with_reducible apply keeps_discardStaged | with_reducible apply keeps_whenS | intro _

theorem keeps_execServoRestart {a1 a2} (hW : sub 6357250 W = true) (h : Keeps W s0 s) : KeepsOut W s0 (@execServoRestart a1 a2 s) := by
  unfold execServoRestart
  repeat' first
    | with_reducible assumption | exact sub_trans rfl hW | with_reducible apply keeps_writeFwtCtl
    | with_reducible apply keeps_writeAt | with_reducible apply keeps_ran | with_reducible apply keeps_State_begin | intro _

theorem keeps_execDiscardMgmt {a1 a2} (hW : sub 6357250 W = true) (h : Keeps W s0 s) : KeepsOut W s0 (@execDiscardMgmt a1 a2 s) := by
  unfold execDiscardMgmt
  repeat' first
    | with_reducible assumption | exact sub_trans rfl hW | with_reducible apply keeps_writeFwtCtl
    | with_reducible apply keeps_writeAt | with_reducible apply keeps_ran | with_reducible apply keeps_State_begin | intro _

theorem keeps_execDiscardServo {a1 a2} (hW : sub 6357250 W = true) (h : Keeps W s0 s) : KeepsOut W s0 (@execDiscardServo a1 a2 s) := by
  unfold execDiscardServo
  repeat' first
    | with_reducible assumption | exact sub_trans rfl hW | with_reducible apply keeps_writeFwtCtl
    | with_reducible apply keeps_writeAt | with_reducible apply keeps_ran | with_reducible apply keeps_State_begin | intro _

theorem keeps_execWatchdogFeed {a1 a2 a3} (hW : sub 6291458 W = true) (h : Keeps W s0 s) : KeepsOut W s0 (@execWatchdogFeed a1 a2 a3 s) := by
  unfold execWatchdogFeed
  repeat' first
    | with_reducible assumption | exact sub_trans rfl hW | with_reducible apply keeps_tickUs | with_reducible apply keeps_ran
    | with_reducible apply keeps_State_begin | with_reducible apply keeps_setF | with_reducible apply keeps_ite | split
    | with_reducible refine keeps_up_sys (sub_bit rfl hW) ?_

theorem keeps_execMgmtWatchdogExpiry {a1} (hW : sub 16777214 W = true) (h : Keeps W s0 s) : KeepsOut W s0 (@execMgmtWatchdogExpiry a1 s) := by
  unfold execMgmtWatchdogExpiry
  repeat' first
    | with_reducible assumption | exact sub_trans rfl hW | with_reducible apply keeps_strike
    | with_reducible apply keeps_tickUs | with_reducible apply keeps_ran | with_reducible apply keeps_State_begin
    | with_reducible apply keeps_ite

theorem keeps_execServoWdog {a1} (hW : sub 6291714 W = true) (h : Keeps W s0 s) : KeepsOut W s0 (@execServoWdog a1 s) := by
  unfold execServoWdog
  repeat' first
    | with_reducible assumption | exact sub_trans rfl hW | with_reducible apply keeps_tickUs | with_reducible apply keeps_ran
    | with_reducible apply keeps_State_begin | with_reducible apply keeps_raise | with_reducible apply keeps_setF
    | with_reducible apply keeps_ite

theorem keeps_execDebugAttach (hW : sub 14680066 W = true) (h : Keeps W s0 s) : KeepsOut W s0 (@execDebugAttach s) := by
  unfold execDebugAttach
  repeat' first
    | with_reducible assumption | exact sub_trans rfl hW | with_reducible apply keeps_extend | with_reducible apply keeps_ran
    | with_reducible apply keeps_State_begin | with_reducible refine keeps_snd (keeps_drawInt (sub_trans rfl hW) ?_)
    | with_reducible apply keeps_ite

theorem keeps_execFwMeasurementPost {a1 a2} (hW : sub 6291458 W = true) (h : Keeps W s0 s) : KeepsOut W s0 (@execFwMeasurementPost a1 a2 s) := by
  unfold execFwMeasurementPost
  repeat' first
    | with_reducible assumption | exact sub_trans rfl hW | with_reducible apply keeps_extend | with_reducible apply keeps_ran
    | with_reducible apply keeps_State_begin | with_reducible apply keeps_ite

theorem keeps_execSpdmRequest {a1} (hW : sub 4194304 W = true) (h : Keeps W s0 s) : KeepsOut W s0 (@execSpdmRequest a1 s) := by
  unfold execSpdmRequest
  repeat' first
    | with_reducible assumption | exact sub_trans rfl hW | with_reducible apply keeps_ran
    | with_reducible apply keeps_State_begin | with_reducible apply keeps_emit | with_reducible apply keeps_ite | split

theorem keeps_openRecord {a1} (hW : sub 256 W = true) (h : Keeps W s0 s) : Keeps W s0 (@openRecord a1 s) := by
  unfold openRecord
  repeat' first
    | with_reducible assumption | with_reducible refine keeps_up_flt (sub_bit rfl hW) ?_

theorem keeps_mergeFault {a1} (hW : sub 256 W = true) (h : Keeps W s0 s) : Keeps W s0 (@mergeFault a1 s) := by
  unfold mergeFault
  repeat' first
    | with_reducible assumption | with_reducible apply keeps_modOpen

theorem keeps_startTimer {a1} (hW : sub 256 W = true) (h : Keeps W s0 s) : Keeps W s0 (@startTimer a1 s) := by
  unfold startTimer
  repeat' first
    | with_reducible assumption | with_reducible apply keeps_modOpen | with_reducible apply keeps_ite

theorem keeps_deviceFatal {a1} (hW : sub 16775650 W = true) (h : Keeps W s0 s) : Keeps W s0 (@deviceFatal a1 s) := by
  unfold deviceFatal
  repeat' first
    | with_reducible assumption | exact sub_trans rfl hW | with_reducible apply keeps_fence
    | with_reducible apply keeps_aliveStop | with_reducible apply keeps_setF | with_reducible apply keeps_foldl
    | with_reducible apply keeps_ite | with_reducible refine keeps_up_flt (sub_bit rfl hW) ?_ | intro _

theorem keeps_react {a1} (hW : sub 16777214 W = true) (h : Keeps W s0 s) : Keeps W s0 (@react a1 s) := by
  unfold react
  repeat' first
    | with_reducible assumption | exact sub_trans rfl hW | with_reducible apply keeps_deviceFatal
    | with_reducible apply keeps_startTimer | with_reducible apply keeps_strike | with_reducible apply keeps_fence
    | with_reducible apply keeps_whenS | with_reducible apply keeps_setF | with_reducible apply keeps_ite | split | intro _

theorem keeps_collect {a1} (hW : sub 16777214 W = true) (h : Keeps W s0 s) : Keeps W s0 (@collect a1 s) := by
  unfold collect
  repeat' first
    | with_reducible assumption | exact sub_trans rfl hW | with_reducible apply keeps_react
    | with_reducible apply keeps_mergeFault | with_reducible apply keeps_openRecord | with_reducible apply keeps_ite

theorem keeps_collectAll (hW : sub 16777214 W = true) (h : Keeps W s0 s) : Keeps W s0 (@collectAll s) := by
  unfold collectAll
  repeat' first
    | with_reducible assumption | exact sub_trans rfl hW | with_reducible apply keeps_collect
    | with_reducible apply keeps_modeSync | with_reducible apply keeps_foldl
    | with_reducible refine keeps_up_flt (sub_bit rfl hW) ?_ | intro _

theorem keeps_execFaultCollect {a1} (hW : sub 16777214 W = true) (h : Keeps W s0 s) : KeepsOut W s0 (@execFaultCollect a1 s) := by
  unfold execFaultCollect
  repeat' first
    | with_reducible assumption | exact sub_trans rfl hW | with_reducible apply keeps_collectAll
    | with_reducible apply keeps_tickUs | with_reducible apply keeps_ran | with_reducible apply keeps_State_begin

theorem keeps_closeRecord {a1} (hW : sub 256 W = true) (h : Keeps W s0 s) : Keeps W s0 (@closeRecord a1 s) := by
  unfold closeRecord
  repeat' first
    | with_reducible assumption | with_reducible apply keeps_modOpen | with_reducible refine keeps_up_flt (sub_bit rfl hW) ?_

theorem keeps_writeAck {a1} (hW : sub 258 W = true) (h : Keeps W s0 s) : Keeps W s0 (@writeAck a1 s) := by
  unfold writeAck
  repeat' first
    | with_reducible assumption | exact sub_trans rfl hW | with_reducible apply keeps_closeRecord
    | with_reducible apply keeps_raise | with_reducible apply keeps_ite | split

theorem keeps_execFaultAck {a1 a2} (hW : sub 4194562 W = true) (h : Keeps W s0 s) : KeepsOut W s0 (@execFaultAck a1 a2 s) := by
  unfold execFaultAck
  repeat' first
    | with_reducible assumption | exact sub_trans rfl hW | with_reducible apply keeps_writeAck
    | with_reducible apply keeps_writeAt | with_reducible apply keeps_ran | with_reducible apply keeps_State_begin | intro _

theorem keeps_escalate {a1} (hW : sub 16777214 W = true) (h : Keeps W s0 s) : Keeps W s0 (@escalate a1 s) := by
  unfold escalate
  repeat' first
    | with_reducible assumption | exact sub_trans rfl hW | with_reducible apply keeps_closeRecord
    | with_reducible apply keeps_strike | with_reducible apply keeps_aliveStop | with_reducible apply keeps_modeSync
    | with_reducible apply keeps_setF | with_reducible apply keeps_foldl | intro _

theorem keeps_execReactionTimerExpiry {a1} (hW : sub 16777214 W = true) (h : Keeps W s0 s) : KeepsOut W s0 (@execReactionTimerExpiry a1 s) := by
  unfold execReactionTimerExpiry
  repeat' first
    | with_reducible assumption | exact sub_trans rfl hW | with_reducible apply keeps_escalate
    | with_reducible apply keeps_tickUs | with_reducible apply keeps_ran | with_reducible apply keeps_State_begin
    | with_reducible apply keeps_ite | split

theorem keeps_writeFltCtl {a1} (hW : sub 4194562 W = true) (h : Keeps W s0 s) : Keeps W s0 (@writeFltCtl a1 s) := by
  unfold writeFltCtl
  repeat' first
    | with_reducible assumption | exact sub_trans rfl hW | with_reducible apply keeps_aliveStart
    | with_reducible apply keeps_modeSync | with_reducible apply keeps_raise | with_reducible apply keeps_setF
    | with_reducible apply keeps_ite

theorem keeps_execAliveResume {a1 a2} (hW : sub 4194562 W = true) (h : Keeps W s0 s) : KeepsOut W s0 (@execAliveResume a1 a2 s) := by
  unfold execAliveResume
  repeat' first
    | with_reducible assumption | exact sub_trans rfl hW | with_reducible apply keeps_writeFltCtl
    | with_reducible apply keeps_writeAt | with_reducible apply keeps_ran | with_reducible apply keeps_State_begin | intro _

theorem keeps_execTestModeWrite {a1 a2} (hW : sub 4194562 W = true) (h : Keeps W s0 s) : KeepsOut W s0 (@execTestModeWrite a1 a2 s) := by
  unfold execTestModeWrite
  repeat' first
    | with_reducible assumption | exact sub_trans rfl hW | with_reducible apply keeps_writeFltCtl
    | with_reducible apply keeps_writeAt | with_reducible apply keeps_ran | with_reducible apply keeps_State_begin | intro _

theorem keeps_execRecoveryEnd {a1} (hW : sub 6291712 W = true) (h : Keeps W s0 s) : KeepsOut W s0 (@execRecoveryEnd a1 s) := by
  unfold execRecoveryEnd
  repeat' first
    | with_reducible assumption | exact sub_trans rfl hW | with_reducible apply keeps_tickUs | with_reducible apply keeps_ran
    | with_reducible apply keeps_State_begin | with_reducible apply keeps_ite | split
    | with_reducible refine keeps_up_flt (sub_bit rfl hW) ?_

end Sys2Proof.Machine
end

