-- ==== Sys2Proof/Laws/KeepsHost.lean ====
section
/-! SUPPORT. The host interface, egress and redundancy: what each operation keeps (Keeps.lean). -/

namespace Sys2Proof.Machine

variable {W : Nat} {s0 s t : State}

theorem keeps_doorbell {a1 a2} (hW : sub 139522 W = true) (h : Keeps W s0 s) : Keeps W s0 (@doorbell a1 a2 s) := by
  unfold doorbell
  repeat' first
    | with_reducible assumption | exact sub_trans rfl hW | with_reducible apply keeps_ringFull
    | with_reducible apply keeps_ringError | with_reducible apply keeps_setRing | with_reducible apply keeps_ite | split

theorem keeps_writeRingCfg {a1 a2 a3} (hW : sub 131330 W = true) (h : Keeps W s0 s) : Keeps W s0 (@writeRingCfg a1 a2 a3 s) := by
  unfold writeRingCfg
  repeat' first
    | with_reducible assumption | exact sub_trans rfl hW | with_reducible apply keeps_raise | with_reducible apply keeps_ite
    | with_reducible refine keeps_up_hif (sub_bit rfl hW) ?_

theorem keeps_ringTake {a1} (hW : sub 131074 W = true) (h : Keeps W s0 s) : Keeps W s0 (@ringTake a1 s) := by
  unfold ringTake
  repeat' first
    | with_reducible assumption | exact sub_trans rfl hW | with_reducible apply keeps_softWord
    | with_reducible apply keeps_foldl | split | with_reducible refine keeps_up_hif (sub_bit rfl hW) ?_ | intro _

theorem keeps_ringStart {a1} (hW : sub 139522 W = true) (h : Keeps W s0 s) : Keeps W s0 (@ringStart a1 s) := by
  unfold ringStart
  try simp only []
  repeat' first
    | with_reducible assumption | exact sub_trans rfl hW | with_reducible apply keeps_ringTake
    | with_reducible apply keeps_ringFull | with_reducible apply keeps_ringError | with_reducible apply keeps_setRingState
    | with_reducible apply keeps_setRing | with_reducible apply keeps_setF | with_reducible apply keeps_ite

theorem keeps_ringStop {a1} (hW : sub 2 W = true) (h : Keeps W s0 s) : Keeps W s0 (@ringStop a1 s) := by
  unfold ringStop
  repeat' first
    | with_reducible assumption | with_reducible apply keeps_setRingState | with_reducible apply keeps_ite

theorem keeps_ringReset {a1} (hW : sub 131074 W = true) (h : Keeps W s0 s) : Keeps W s0 (@ringReset a1 s) := by
  unfold ringReset
  repeat' first
    | with_reducible assumption | exact sub_trans rfl hW | with_reducible apply keeps_setRingState
    | with_reducible apply keeps_setRing | with_reducible apply keeps_setF | with_reducible apply keeps_ite

theorem keeps_writeRingCtl {a1 a2} (hW : sub 139522 W = true) (h : Keeps W s0 s) : Keeps W s0 (@writeRingCtl a1 a2 s) := by
  unfold writeRingCtl
  repeat' first
    | with_reducible assumption | exact sub_trans rfl hW | with_reducible apply keeps_ringReset
    | with_reducible apply keeps_ringStop | with_reducible apply keeps_ringStart | with_reducible apply keeps_whenS | intro _

theorem keeps_execRingStart {a1 a2} (hW : sub 4333826 W = true) (h : Keeps W s0 s) : KeepsOut W s0 (@execRingStart a1 a2 s) := by
  unfold execRingStart
  repeat' first
    | with_reducible assumption | exact sub_trans rfl hW | with_reducible apply keeps_writeRingCtl
    | with_reducible apply keeps_writeAt | with_reducible apply keeps_ran | with_reducible apply keeps_State_begin | intro _

theorem keeps_execRingStop {a1 a2} (hW : sub 4333826 W = true) (h : Keeps W s0 s) : KeepsOut W s0 (@execRingStop a1 a2 s) := by
  unfold execRingStop
  repeat' first
    | with_reducible assumption | exact sub_trans rfl hW | with_reducible apply keeps_writeRingCtl
    | with_reducible apply keeps_writeAt | with_reducible apply keeps_ran | with_reducible apply keeps_State_begin | intro _

theorem keeps_execRingReset {a1 a2} (hW : sub 4333826 W = true) (h : Keeps W s0 s) : KeepsOut W s0 (@execRingReset a1 a2 s) := by
  unfold execRingReset
  repeat' first
    | with_reducible assumption | exact sub_trans rfl hW | with_reducible apply keeps_writeRingCtl
    | with_reducible apply keeps_writeAt | with_reducible apply keeps_ran | with_reducible apply keeps_State_begin | intro _

theorem keeps_execRingStopped {a1} (hW : sub 4194562 W = true) (h : Keeps W s0 s) : KeepsOut W s0 (@execRingStopped a1 s) := by
  unfold execRingStopped
  repeat' first
    | with_reducible assumption | exact sub_trans rfl hW | with_reducible apply keeps_ringStopped
    | with_reducible apply keeps_ran | with_reducible apply keeps_State_begin | with_reducible apply keeps_ite

theorem keeps_armWord {a1 a2} (hW : sub 4325376 W = true) (h : Keeps W s0 s) : Keeps W s0 (@armWord a1 a2 s) := by
  unfold armWord
  repeat' first
    | with_reducible assumption | intro _ | lift_lets | with_reducible apply keeps_rearmVector
    | with_reducible apply keeps_foldl | with_reducible apply keeps_ite | intro _

theorem keeps_aditWrite {a1 a2 a3} (hW : sub 4333826 W = true) (h : Keeps W s0 s) : Keeps W s0 (@aditWrite a1 a2 a3 s) := by
  unfold aditWrite
  repeat' first
    | with_reducible assumption | exact sub_trans rfl hW | with_reducible apply keeps_doorbell
    | with_reducible apply keeps_rearmVector | with_reducible apply keeps_raise | with_reducible apply keeps_ite | split

theorem keeps_execRingDoorbell {a1 a2 a3} (hW : sub 4333826 W = true) (h : Keeps W s0 s) : KeepsOut W s0 (@execRingDoorbell a1 a2 a3 s) := by
  unfold execRingDoorbell
  repeat' first
    | with_reducible assumption | exact sub_trans rfl hW | with_reducible apply keeps_aditWrite
    | with_reducible apply keeps_ran | with_reducible apply keeps_State_begin

theorem keeps_execVectorRearm {a1 a2 a3 a4} (hW : sub 4333826 W = true) (h : Keeps W s0 s) : KeepsOut W s0 (@execVectorRearm a1 a2 a3 a4 s) := by
  unfold execVectorRearm
  repeat' first
    | with_reducible assumption | exact sub_trans rfl hW | with_reducible apply keeps_aditWrite
    | with_reducible apply keeps_armWord | with_reducible apply keeps_writeAt | with_reducible apply keeps_ran
    | with_reducible apply keeps_State_begin | with_reducible apply keeps_ite | intro _

theorem keeps_execIrqModerationTimer {a1} (hW : sub 4325376 W = true) (h : Keeps W s0 s) : KeepsOut W s0 (@execIrqModerationTimer a1 s) := by
  unfold execIrqModerationTimer
  repeat' first
    | with_reducible assumption | exact sub_trans rfl hW | with_reducible apply keeps_fireVector
    | with_reducible apply keeps_ran | with_reducible apply keeps_State_begin | with_reducible apply keeps_ite | split

theorem keeps_execMsixUnmask {a1} (hW : sub 4325376 W = true) (h : Keeps W s0 s) : KeepsOut W s0 (@execMsixUnmask a1 s) := by
  unfold execMsixUnmask
  repeat' first
    | with_reducible assumption | exact sub_trans rfl hW | with_reducible apply keeps_ran
    | with_reducible apply keeps_State_begin | with_reducible apply keeps_emit | with_reducible apply keeps_ite
    | with_reducible refine keeps_up_hif (sub_bit rfl hW) ?_

theorem keeps_execTxFrameFetch {a1 a2} (hW : sub 6496514 W = true) (h : Keeps W s0 s) : KeepsOut W s0 (@execTxFrameFetch a1 a2 s) := by
  unfold execTxFrameFetch
  repeat' first
    | with_reducible assumption | exact sub_trans rfl hW | with_reducible apply keeps_completeSlot
    | with_reducible apply keeps_throughRing | with_reducible apply keeps_addFrame | with_reducible apply keeps_ran
    | with_reducible apply keeps_State_begin | with_reducible apply keeps_ite
    | with_reducible refine keeps_up_hif (sub_bit rfl hW) ?_ | intro _

theorem keeps_execP65FrameSend {a1} (hW : sub 4202496 W = true) (h : Keeps W s0 s) : KeepsOut W s0 (@execP65FrameSend a1 s) := by
  unfold execP65FrameSend
  repeat' first
    | with_reducible assumption | exact sub_trans rfl hW | with_reducible apply keeps_addFrame | with_reducible apply keeps_ran
    | with_reducible apply keeps_State_begin | with_reducible apply keeps_ite

theorem keeps_execRxFrameDeliver {a1 a2} (hW : sub 6496514 W = true) (h : Keeps W s0 s) : KeepsOut W s0 (@execRxFrameDeliver a1 a2 s) := by
  unfold execRxFrameDeliver
  repeat' first
    | with_reducible assumption | exact sub_trans rfl hW | with_reducible apply keeps_completeSlot
    | with_reducible apply keeps_throughRing | with_reducible apply keeps_ringError | with_reducible apply keeps_ran
    | with_reducible apply keeps_State_begin | with_reducible apply keeps_ite | split
    | with_reducible refine keeps_up_hif (sub_bit rfl hW) ?_ | intro _

theorem keeps_execRxStall {a1} (hW : sub 4325634 W = true) (h : Keeps W s0 s) : KeepsOut W s0 (@execRxStall a1 s) := by
  unfold execRxStall
  repeat' first
    | with_reducible assumption | exact sub_trans rfl hW | with_reducible apply keeps_setRing | with_reducible apply keeps_ran
    | with_reducible apply keeps_State_begin | with_reducible apply keeps_raise | with_reducible apply keeps_ite | split

theorem keeps_execEventRecordWrite (hW : sub 6496514 W = true) (h : Keeps W s0 s) : KeepsOut W s0 (@execEventRecordWrite s) := by
  unfold execEventRecordWrite
  repeat' first
    | with_reducible assumption | exact sub_trans rfl hW | with_reducible apply keeps_ringRecord
    | with_reducible apply keeps_eventVector | with_reducible apply keeps_ran | with_reducible apply keeps_whenS
    | with_reducible apply keeps_State_begin | with_reducible apply keeps_raise | with_reducible apply keeps_ite | split
    | with_reducible refine keeps_up_flt (sub_bit rfl hW) ?_ | intro _

theorem keeps_execDmaError {a1 a2} (hW : sub 6430978 W = true) (h : Keeps W s0 s) : KeepsOut W s0 (@execDmaError a1 a2 s) := by
  unfold execDmaError
  repeat' first
    | with_reducible assumption | exact sub_trans rfl hW | with_reducible apply keeps_dmaFail | with_reducible apply keeps_ran
    | with_reducible apply keeps_State_begin | with_reducible apply keeps_ite

theorem keeps_execBusMasterEnable {a1} (hW : sub 4325634 W = true) (h : Keeps W s0 s) : KeepsOut W s0 (@execBusMasterEnable a1 s) := by
  unfold execBusMasterEnable
  repeat' first
    | with_reducible assumption | exact sub_trans rfl hW | with_reducible apply keeps_txComplete
    | with_reducible apply keeps_ran | with_reducible apply keeps_State_begin | with_reducible apply keeps_setFlag
    | with_reducible apply keeps_foldl | with_reducible apply keeps_ite
    | with_reducible refine keeps_up_hif (sub_bit rfl hW) ?_ | intro _

theorem keeps_execPcieLinkUp {a1 a2} (hW : sub 4325378 W = true) (h : Keeps W s0 s) : KeepsOut W s0 (@execPcieLinkUp a1 a2 s) := by
  unfold execPcieLinkUp
  repeat' first
    | with_reducible assumption | exact sub_trans rfl hW | with_reducible apply keeps_ran
    | with_reducible apply keeps_State_begin | with_reducible apply keeps_setF | with_reducible apply keeps_ite
    | with_reducible refine keeps_up_hif (sub_bit rfl hW) ?_

theorem keeps_execPcieHot (hW : sub 16777214 W = true) (h : Keeps W s0 s) : KeepsOut W s0 (@execPcieHot s) := by
  unfold execPcieHot
  repeat' first
    | with_reducible assumption | exact sub_trans rfl hW | with_reducible apply keeps_strike | with_reducible apply keeps_ran
    | with_reducible apply keeps_State_begin | with_reducible apply keeps_ite

theorem keeps_execPcieLinkdown (hW : sub 16777214 W = true) (h : Keeps W s0 s) : KeepsOut W s0 (@execPcieLinkdown s) := by
  unfold execPcieLinkdown
  repeat' first
    | with_reducible assumption | exact sub_trans rfl hW | with_reducible apply keeps_strike | with_reducible apply keeps_ran
    | with_reducible apply keeps_State_begin | with_reducible apply keeps_setF | with_reducible apply keeps_ite
    | with_reducible refine keeps_up_hif (sub_bit rfl hW) ?_

theorem keeps_execPcieD3 (hW : sub 16777214 W = true) (h : Keeps W s0 s) : KeepsOut W s0 (@execPcieD3 s) := by
  unfold execPcieD3
  repeat' first
    | with_reducible assumption | exact sub_trans rfl hW | with_reducible apply keeps_strike | with_reducible apply keeps_ran
    | with_reducible apply keeps_State_begin | with_reducible apply keeps_ite

theorem keeps_execJtagInstruction {a1} (hW : sub 6291456 W = true) (h : Keeps W s0 s) : KeepsOut W s0 (@execJtagInstruction a1 s) := by
  unfold execJtagInstruction
  repeat' first
    | with_reducible assumption | exact sub_trans rfl hW | with_reducible apply keeps_ran
    | with_reducible apply keeps_State_begin | with_reducible apply keeps_emit | with_reducible apply keeps_ite | split
    | with_reducible refine keeps_up_sys (sub_bit rfl hW) ?_

theorem keeps_cleanSel {a1} (hW : sub 16384 W = true) (h : Keeps W s0 s) : Keeps W s0 (@cleanSel a1 s) := by
  unfold cleanSel
  repeat' first
    | with_reducible assumption | with_reducible apply keeps_setEgrPort

theorem keeps_formBand {a1} (hW : sub 16384 W = true) (h : Keeps W s0 s) : Keeps W s0 (@formBand a1 s) := by
  unfold formBand
  repeat' first
    | with_reducible assumption | with_reducible apply keeps_setEgrCls | with_reducible apply keeps_setTag
    | with_reducible apply keeps_foldl | split | intro _

theorem keeps_purgeTags {a1 a2} (hW : sub 16384 W = true) (h : Keeps W s0 s) : Keeps W s0 (@purgeTags a1 a2 s) := by
  unfold purgeTags
  repeat' first
    | with_reducible assumption | with_reducible apply keeps_setEgrPort

theorem keeps_advanceQueue {a1 a2 a3 a4 a5 a6} (hW : sub 2121986 W = true) (h : Keeps W s0 s) : Keeps W s0 (@advanceQueue a1 a2 a3 a4 a5 a6 s) := by
  unfold advanceQueue
  repeat' first
    | with_reducible assumption | exact sub_trans rfl hW | with_reducible apply keeps_purgeTags
    | with_reducible apply keeps_markCost | with_reducible apply keeps_setEgrCls | with_reducible apply keeps_setTag
    | with_reducible apply keeps_setEgrPort | with_reducible refine keeps_snd (keeps_eccRead (sub_trans rfl hW) ?_)
    | with_reducible apply keeps_ite | split

theorem keeps_setCopySt {a1 a2 a3} (hW : sub 8192 W = true) (h : Keeps W s0 s) : Keeps W s0 (@setCopySt a1 a2 a3 s) := by
  unfold setCopySt
  repeat' first
    | with_reducible assumption | with_reducible apply keeps_setFrame | split

theorem keeps_ageOut {a1 a2} (hW : sub 10576130 W = true) (h : Keeps W s0 s) : Keeps W s0 (@ageOut a1 a2 s) := by
  unfold ageOut
  repeat' first
    | with_reducible assumption | exact sub_trans rfl hW | with_reducible apply keeps_advanceQueue
    | with_reducible apply keeps_dropCopy

theorem keeps_markNoFit {a1 a2} (hW : sub 16642 W = true) (h : Keeps W s0 s) : Keeps W s0 (@markNoFit a1 a2 s) := by
  unfold markNoFit
  repeat' first
    | with_reducible assumption | exact sub_trans rfl hW | with_reducible apply keeps_setEgrPort
    | with_reducible apply keeps_monEvent | with_reducible apply keeps_raise | with_reducible apply keeps_bump
    | with_reducible apply keeps_ite

theorem keeps_takeOffer_pick {a1 a2} (hW : sub 2121986 W = true) (h : Keeps W s0 s) : Keeps W s0 (@takeOffer.pick a1 a2 s) := by
  unfold takeOffer.pick
  repeat' first
    | with_reducible assumption | exact sub_trans rfl hW | with_reducible apply keeps_setCopySt
    | with_reducible apply keeps_advanceQueue | with_reducible apply keeps_setEgrPort | split

theorem keeps_takeOffer {a1 a2} (hW : sub 2121986 W = true) (h : Keeps W s0 s) : Keeps W s0 (@takeOffer a1 a2 s) := by
  unfold takeOffer
  repeat' first
    | with_reducible assumption | intro _ | lift_lets | exact sub_trans rfl hW | with_reducible apply keeps_takeOffer_pick
    | with_reducible apply keeps_setEgrPort | with_reducible apply keeps_ite | split | intro _

theorem keeps_selectOnce {a1 a2} (hW : sub 10576130 W = true) (h : Keeps W s0 s) : KeepsP W s0 (@selectOnce a1 a2 s) := by
  unfold selectOnce
  try simp only []
  repeat' first
    | with_reducible assumption | exact sub_trans rfl hW | with_reducible apply keeps_takeOffer
    | with_reducible apply keeps_markNoFit | with_reducible apply keeps_ageOut | with_reducible apply keeps_formBand
    | with_reducible apply keeps_formTags | with_reducible apply keeps_foldl | with_reducible apply keepsP_ite | split
    | with_reducible apply keepsP_mk | intro _

theorem keeps_selectLoop {o ts k} (hW : sub 10576130 W = true) (h : Keeps W s0 s) : Keeps W s0 (selectLoop o ts k s) := by
  induction k generalizing s with
  | zero => exact h
  | succ k ih => exact keeps_ite (ih (keeps_selectOnce (sub_trans rfl hW) h)) (keeps_selectOnce (sub_trans rfl hW) h)

theorem keeps_execEgressSelection {a1 a2} (hW : sub 14770434 W = true) (h : Keeps W s0 s) : KeepsOut W s0 (@execEgressSelection a1 a2 s) := by
  unfold execEgressSelection
  repeat' first
    | with_reducible assumption | exact sub_trans rfl hW | with_reducible apply keeps_selectLoop
    | with_reducible apply keeps_cleanSel | with_reducible apply keeps_touchOut | with_reducible apply keeps_ran
    | with_reducible apply keeps_State_begin | with_reducible apply keeps_ite

theorem keeps_preempt {a1 a2} (hW : sub 16642 W = true) (h : Keeps W s0 s) : Keeps W s0 (@preempt a1 a2 s) := by
  unfold preempt
  repeat' first
    | with_reducible assumption | exact sub_trans rfl hW | with_reducible apply keeps_setEgrPort
    | with_reducible apply keeps_monEvent | with_reducible apply keeps_bump | with_reducible apply keeps_ite | split
    | with_reducible refine keeps_up_flt (sub_bit rfl hW) ?_

theorem keeps_storeCorr {a1 a2 a3} (hW : sub 67842 W = true) (h : Keeps W s0 s) : Keeps W s0 (@storeCorr a1 a2 a3 s) := by
  unfold storeCorr
  repeat' first
    | with_reducible assumption | with_reducible apply keeps_corrAdd | with_reducible apply keeps_ite | split

theorem keeps_refuseStart {a1 a2 a3} (hW : sub 8478978 W = true) (h : Keeps W s0 s) : Keeps W s0 (@refuseStart a1 a2 a3 s) := by
  unfold refuseStart
  repeat' first
    | with_reducible assumption | exact sub_trans rfl hW | with_reducible apply keeps_dropCopy
    | with_reducible apply keeps_setEgrPort

theorem keeps_beginTx {a1 a2 a3 a4 a5 a6} (hW : sub 24834 W = true) (h : Keeps W s0 s) : Keeps W s0 (@beginTx a1 a2 a3 a4 a5 a6 s) := by
  unfold beginTx
  repeat' first
    | with_reducible assumption | exact sub_trans rfl hW | with_reducible apply keeps_setCopySt
    | with_reducible apply keeps_setEgrCls | with_reducible apply keeps_setEgrPort | with_reducible apply keeps_histDelay
    | with_reducible apply keeps_monEvent | with_reducible apply keeps_bump | with_reducible apply keeps_ite

theorem keeps_readWords {a1 a2 a3} (hW : sub 2097410 W = true) (h : Keeps W s0 s) : KeepsP W s0 (@readWords a1 a2 a3 s) := by
  unfold readWords
  repeat' first
    | with_reducible assumption | with_reducible apply keeps_eccRead | with_reducible apply keepsP_foldl
    | with_reducible refine keeps_snd (by assumption) | split | with_reducible apply keepsP_mk
    | with_reducible refine keeps_pair (by assumption) ?_ | intro _

theorem keeps_readLink {a1 a2 a3} (hW : sub 2105602 W = true) (h : Keeps W s0 s) : KeepsP W s0 (@readLink a1 a2 a3 s) := by
  unfold readLink
  repeat' first
    | with_reducible assumption | exact sub_trans rfl hW | with_reducible apply keeps_withhold
    | with_reducible refine keeps_snd (keeps_eccRead (sub_trans rfl hW) ?_) | with_reducible apply keepsP_ite
    | with_reducible apply keepsP_mk | with_reducible refine keeps_up_buf (sub_bit rfl hW) ?_

theorem keeps_readCell {a1 a2 a3 a4} (hW : sub 2105602 W = true) (h : Keeps W s0 s) : KeepsP2 W s0 (@readCell a1 a2 a3 a4 s) := by
  unfold readCell
  repeat' first
    | with_reducible assumption | lift_lets | exact sub_trans rfl hW | with_reducible apply keeps_readLink
    | with_reducible apply keeps_readWords | with_reducible apply keepsP_ite | split | with_reducible apply keepsP_mk
    | with_reducible apply keepsP2_mk | with_reducible refine keeps_pair (by assumption) ?_

theorem keeps_eccStart {a1 a2 a3 a4} (hW : sub 2105602 W = true) (h : Keeps W s0 s) : KeepsP W s0 (@eccStart a1 a2 a3 a4 s) := by
  unfold eccStart
  repeat' first
    | with_reducible assumption | exact sub_trans rfl hW | with_reducible apply keeps_readCell
    | with_reducible apply keeps_eccRead | with_reducible apply keepsP_ite | split | with_reducible apply keepsP_mk
    | with_reducible refine keeps_pair (by assumption) ?_ | with_reducible refine keeps_pair2 (by assumption) ?_

theorem keeps_readRest {f n l k j} (hW : sub 2105602 W = true) (h : Keeps W s0 s) : KeepsP W s0 (readRest f n l k j s) := by
  induction k generalizing s j with
  | zero => exact h
  | succ k ih =>
    unfold readRest
    refine keepsP_ite h ?_
    split
    rename_i e
    have hr := keeps_pair2 e (keeps_readCell (sub_trans rfl hW) h)
    refine keepsP_ite ?_ hr
    split
    rename_i e
    exact keeps_pair e (ih hr)

theorem keeps_blankWords {a1 a2} (hW : sub 8388608 W = true) (h : Keeps W s0 s) : KeepsP W s0 (@blankWords a1 a2 s) := by
  unfold blankWords
  repeat' first
    | with_reducible assumption | with_reducible apply keeps_drawInt | with_reducible apply keepsP_foldl
    | with_reducible refine keeps_snd (by assumption) | split | with_reducible apply keepsP_mk
    | with_reducible refine keeps_pair (by assumption) ?_ | intro _

theorem keeps_eccLeave {a1 a2} (hW : sub 10580226 W = true) (h : Keeps W s0 s) : KeepsP W s0 (@eccLeave a1 a2 s) := by
  unfold eccLeave
  repeat' first
    | with_reducible assumption | with_reducible refine keeps_snd (keeps_blankWords (sub_trans rfl hW) ?_)
    | with_reducible refine keeps_snd (keeps_readRest (sub_trans rfl hW) ?_) | with_reducible apply keeps_frameBad
    | with_reducible apply keepsP_ite | with_reducible apply keepsP_mk

theorem keeps_startBy {a1 a2 a3 a4 a5 a6} (hW : sub 8481026 W = true) (h : Keeps W s0 s) : Keeps W s0 (@startBy a1 a2 a3 a4 a5 a6 s) := by
  unfold startBy
  repeat' first
    | with_reducible assumption | exact sub_trans rfl hW | with_reducible apply keeps_beginTx
    | with_reducible apply keeps_refuseStart | with_reducible apply keeps_storeCorr | with_reducible apply keeps_formTx
    | with_reducible apply keeps_raise | with_reducible apply keeps_bump | with_reducible apply keeps_ite | split

theorem keeps_startFresh {a1 a2 a3 a4} (hW : sub 10840322 W = true) (h : Keeps W s0 s) : Keeps W s0 (@startFresh a1 a2 a3 a4 s) := by
  unfold startFresh
  repeat' first
    | with_reducible assumption | exact sub_trans rfl hW | with_reducible apply keeps_startBy
    | with_reducible refine keeps_snd (keeps_eccStart (sub_trans rfl hW) ?_) | with_reducible apply keeps_refuseStart
    | with_reducible apply keeps_touchOut | with_reducible apply keeps_freeReload | with_reducible apply keeps_whenS
    | with_reducible apply keeps_ite | split | intro _

theorem keeps_txStart {a1 a2 a3} (hW : sub 10840322 W = true) (h : Keeps W s0 s) : Keeps W s0 (@txStart a1 a2 a3 s) := by
  unfold txStart
  repeat' first
    | with_reducible assumption | intro _ | lift_lets | exact sub_trans rfl hW | with_reducible apply keeps_startFresh
    | with_reducible apply keeps_preempt | with_reducible apply keeps_cleanSel | with_reducible apply keeps_setEgrPort
    | with_reducible apply keeps_ite | split | intro _

theorem keeps_execFrameTxStart {a1 a2 a3} (hW : sub 15034626 W = true) (h : Keeps W s0 s) : KeepsOut W s0 (@execFrameTxStart a1 a2 a3 s) := by
  unfold execFrameTxStart
  repeat' first
    | with_reducible assumption | exact sub_trans rfl hW | with_reducible apply keeps_txStart | with_reducible apply keeps_ran
    | with_reducible apply keeps_State_begin | with_reducible apply keeps_ite

theorem keeps_correctEnd {a1 a2 a3 a4 a5} (hW : sub 16384 W = true) (h : Keeps W s0 s) : Keeps W s0 (@correctEnd a1 a2 a3 a4 a5 s) := by
  unfold correctEnd
  repeat' first
    | with_reducible assumption | with_reducible apply keeps_setEgrCls | with_reducible apply keeps_setTag
    | with_reducible apply keeps_ite | split | with_reducible refine keeps_up_egr (sub_bit rfl hW) ?_

theorem keeps_txEndOf {a1 a2} (hW : sub 14905602 W = true) (h : Keeps W s0 s) : Keeps W s0 (@txEndOf a1 a2 s) := by
  unfold txEndOf
  repeat' first
    | with_reducible assumption | exact sub_trans rfl hW | with_reducible apply keeps_correctEnd
    | with_reducible refine keeps_snd (keeps_eccLeave (sub_trans rfl hW) ?_) | with_reducible apply keeps_removeCopies
    | with_reducible apply keeps_touchOut | with_reducible apply keeps_setEgrPort | with_reducible apply keeps_reapFrame
    | with_reducible apply keeps_bwAdd | with_reducible apply keeps_monEvent | with_reducible apply keeps_emit
    | with_reducible apply keeps_bump | with_reducible apply keeps_ite | split
    | with_reducible refine keeps_up_hif (sub_bit rfl hW) ?_

theorem keeps_execFrameTxEnd {a1 a2} (hW : sub 14905602 W = true) (h : Keeps W s0 s) : KeepsOut W s0 (@execFrameTxEnd a1 a2 s) := by
  unfold execFrameTxEnd
  repeat' first
    | with_reducible assumption | exact sub_trans rfl hW | with_reducible apply keeps_txEndOf
    | with_reducible apply keeps_cleanSel | with_reducible apply keeps_ran | with_reducible apply keeps_State_begin
    | with_reducible apply keeps_ite | split | with_reducible refine keeps_up_flt (sub_bit rfl hW) ?_

theorem keeps_lateEvent {a1 a2} (hW : sub 16642 W = true) (h : Keeps W s0 s) : Keeps W s0 (@lateEvent a1 a2 s) := by
  unfold lateEvent
  repeat' first
    | with_reducible assumption | exact sub_trans rfl hW | with_reducible apply keeps_setEgrPort
    | with_reducible apply keeps_raise | split | with_reducible refine keeps_up_flt (sub_bit rfl hW) ?_

theorem keeps_execGateEntryChange {a1 a2} (hW : sub 4210946 W = true) (h : Keeps W s0 s) : KeepsOut W s0 (@execGateEntryChange a1 a2 s) := by
  unfold execGateEntryChange
  repeat' first
    | with_reducible assumption | exact sub_trans rfl hW | with_reducible apply keeps_lateEvent
    | with_reducible apply keeps_preempt | with_reducible apply keeps_cleanSel | with_reducible apply keeps_touchOut
    | with_reducible apply keeps_ran | with_reducible apply keeps_State_begin | with_reducible apply keeps_ite | split
    | with_reducible refine keeps_up_flt (sub_bit rfl hW) ?_

theorem keeps_execMacHoldStart {a1} (hW : sub 4210946 W = true) (h : Keeps W s0 s) : KeepsOut W s0 (@execMacHoldStart a1 s) := by
  unfold execMacHoldStart
  repeat' first
    | with_reducible assumption | exact sub_trans rfl hW | with_reducible apply keeps_preempt
    | with_reducible apply keeps_cleanSel | with_reducible apply keeps_ran | with_reducible apply keeps_State_begin
    | with_reducible apply keeps_ite

theorem keeps_execShaperRateWrite {a1 a2 a3} (hW : sub 4210946 W = true) (h : Keeps W s0 s) : KeepsOut W s0 (@execShaperRateWrite a1 a2 a3 s) := by
  unfold execShaperRateWrite
  repeat' first
    | with_reducible assumption | exact sub_trans rfl hW | with_reducible apply keeps_shaperTouch
    | with_reducible apply keeps_writeAt | with_reducible apply keeps_ran | with_reducible apply keeps_State_begin
    | with_reducible apply keeps_setF | intro _

theorem keeps_writeBurst {a1 a2 a3} (hW : sub 16386 W = true) (h : Keeps W s0 s) : Keeps W s0 (@writeBurst a1 a2 a3 s) := by
  unfold writeBurst
  repeat' first
    | with_reducible assumption | exact sub_trans rfl hW | with_reducible apply keeps_shaperTouch
    | with_reducible apply keeps_setEgrCls | with_reducible apply keeps_setF | with_reducible apply keeps_ite

theorem keeps_writeClsCfg {a1 a2 a3} (hW : sub 16386 W = true) (h : Keeps W s0 s) : Keeps W s0 (@writeClsCfg a1 a2 a3 s) := by
  unfold writeClsCfg
  repeat' first
    | with_reducible assumption | exact sub_trans rfl hW | with_reducible apply keeps_shaperTouch
    | with_reducible apply keeps_setEgrCls | with_reducible apply keeps_setF | with_reducible apply keeps_ite

theorem keeps_execShaperCfgWrite {a1 a2 a3 a4} (hW : sub 4210946 W = true) (h : Keeps W s0 s) : KeepsOut W s0 (@execShaperCfgWrite a1 a2 a3 a4 s) := by
  unfold execShaperCfgWrite
  repeat' first
    | with_reducible assumption | exact sub_trans rfl hW | with_reducible apply keeps_writeClsCfg
    | with_reducible apply keeps_writeBurst | with_reducible apply keeps_writeAt | with_reducible apply keeps_ran
    | with_reducible apply keeps_State_begin | with_reducible apply keeps_ite | intro _

theorem keeps_frontOnly {a1 a2 a3} (hW : sub 258 W = true) (h : Keeps W s0 s) (h3 : ∀ t, Keeps W s0 t → Keeps W s0 (a3 t)) : Keeps W s0 (@frontOnly a1 a2 a3 s) := by
  unfold frontOnly
  repeat' first
    | with_reducible assumption | with_reducible apply h3 | with_reducible apply keeps_raise | with_reducible apply keeps_ite

theorem keeps_writeGateCfg {a1 a2} (hW : sub 16386 W = true) (h : Keeps W s0 s) : Keeps W s0 (@writeGateCfg a1 a2 s) := by
  unfold writeGateCfg
  repeat' first
    | with_reducible assumption | exact sub_trans rfl hW | with_reducible apply keeps_touchOut
    | with_reducible apply keeps_setF

theorem keeps_execGateEnableWrite {a1 a2} (hW : sub 4210946 W = true) (h : Keeps W s0 s) : KeepsOut W s0 (@execGateEnableWrite a1 a2 s) := by
  unfold execGateEnableWrite
  repeat' first
    | with_reducible assumption | exact sub_trans rfl hW | with_reducible apply keeps_writeGateCfg
    | with_reducible apply keeps_frontOnly | with_reducible apply keeps_writeAt | with_reducible apply keeps_ran
    | with_reducible apply keeps_State_begin | intro _

theorem keeps_startChange {a1 a2 a3 a4} (hW : sub 16386 W = true) (h : Keeps W s0 s) : Keeps W s0 (@startChange a1 a2 a3 a4 s) := by
  unfold startChange
  repeat' first
    | with_reducible assumption | exact sub_trans rfl hW | with_reducible apply keeps_setEgrPort
    | with_reducible apply keeps_setT96

theorem keeps_gateSwap {a1} (hW : sub 2113794 W = true) (h : Keeps W s0 s) : Keeps W s0 (@gateSwap a1 s) := by
  unfold gateSwap
  repeat' first
    | with_reducible assumption | exact sub_trans rfl hW | with_reducible apply keeps_setEgrPort
    | with_reducible refine keeps_snd (keeps_eccRead (sub_trans rfl hW) ?_) | with_reducible apply keeps_raise
    | with_reducible apply keeps_setPeriod | with_reducible apply keeps_setT96 | with_reducible apply keeps_setFlag
    | with_reducible apply keeps_setF | with_reducible apply keeps_foldl | with_reducible apply keeps_ite | split
    | with_reducible refine keeps_up_flt (sub_bit rfl hW) ?_ | intro _

theorem keeps_gateCommitAdmin {a1} (hW : sub 16642 W = true) (h : Keeps W s0 s) : Keeps W s0 (@gateCommitAdmin a1 s) := by
  unfold gateCommitAdmin
  repeat' first
    | with_reducible assumption | exact sub_trans rfl hW | with_reducible apply keeps_startChange
    | with_reducible apply keeps_whenS | with_reducible apply keeps_raise | with_reducible apply keeps_ite | intro _

theorem keeps_gateCancel {a1} (hW : sub 2113794 W = true) (h : Keeps W s0 s) : Keeps W s0 (@gateCancel a1 s) := by
  unfold gateCancel
  repeat' first
    | with_reducible assumption | exact sub_trans rfl hW | with_reducible apply keeps_gateSwap
    | with_reducible apply keeps_touchOut | with_reducible apply keeps_setEgrPort | with_reducible apply keeps_ite | split

theorem keeps_gateRealign {a1} (hW : sub 16642 W = true) (h : Keeps W s0 s) : Keeps W s0 (@gateRealign a1 s) := by
  unfold gateRealign
  repeat' first
    | with_reducible assumption | exact sub_trans rfl hW | with_reducible apply keeps_startChange
    | with_reducible apply keeps_raise | split | with_reducible refine keeps_up_flt (sub_bit rfl hW) ?_

theorem keeps_writeGateCtl {a1 a2} (hW : sub 2113794 W = true) (h : Keeps W s0 s) : Keeps W s0 (@writeGateCtl a1 a2 s) := by
  unfold writeGateCtl
  repeat' first
    | with_reducible assumption | exact sub_trans rfl hW | with_reducible apply keeps_gateRealign
    | with_reducible apply keeps_gateCancel | with_reducible apply keeps_gateCommitAdmin | with_reducible apply keeps_whenS
    | intro _

theorem keeps_execGateCommit {a1 a2} (hW : sub 6308098 W = true) (h : Keeps W s0 s) : KeepsOut W s0 (@execGateCommit a1 a2 s) := by
  unfold execGateCommit
  repeat' first
    | with_reducible assumption | exact sub_trans rfl hW | with_reducible apply keeps_writeGateCtl
    | with_reducible apply keeps_frontOnly | with_reducible apply keeps_writeAt | with_reducible apply keeps_ran
    | with_reducible apply keeps_State_begin | intro _

theorem keeps_execGateCancel {a1 a2} (hW : sub 6308098 W = true) (h : Keeps W s0 s) : KeepsOut W s0 (@execGateCancel a1 a2 s) := by
  unfold execGateCancel
  repeat' first
    | with_reducible assumption | exact sub_trans rfl hW | with_reducible apply keeps_writeGateCtl
    | with_reducible apply keeps_frontOnly | with_reducible apply keeps_writeAt | with_reducible apply keeps_ran
    | with_reducible apply keeps_State_begin | intro _

theorem keeps_execGateRealign {a1 a2} (hW : sub 6308098 W = true) (h : Keeps W s0 s) : KeepsOut W s0 (@execGateRealign a1 a2 s) := by
  unfold execGateRealign
  repeat' first
    | with_reducible assumption | exact sub_trans rfl hW | with_reducible apply keeps_writeGateCtl
    | with_reducible apply keeps_frontOnly | with_reducible apply keeps_writeAt | with_reducible apply keeps_ran
    | with_reducible apply keeps_State_begin | intro _

theorem keeps_execGateConfigChange {a1} (hW : sub 6308098 W = true) (h : Keeps W s0 s) : KeepsOut W s0 (@execGateConfigChange a1 s) := by
  unfold execGateConfigChange
  repeat' first
    | with_reducible assumption | exact sub_trans rfl hW | with_reducible apply keeps_gateSwap
    | with_reducible apply keeps_touchOut | with_reducible apply keeps_ran | with_reducible apply keeps_State_begin
    | with_reducible apply keeps_ite | split

theorem keeps_execMmVerifyEnd {a1 a2} (hW : sub 4194562 W = true) (h : Keeps W s0 s) : KeepsOut W s0 (@execMmVerifyEnd a1 a2 s) := by
  unfold execMmVerifyEnd
  repeat' first
    | with_reducible assumption | exact sub_trans rfl hW | with_reducible apply keeps_ran
    | with_reducible apply keeps_State_begin | with_reducible apply keeps_raise | with_reducible apply keeps_setF
    | with_reducible apply keeps_ite

theorem keeps_egrTblEcc {a1 a2 a3} (hW : sub 2097410 W = true) (h : Keeps W s0 s) : Keeps W s0 (@egrTblEcc a1 a2 a3 s) := by
  unfold egrTblEcc
  repeat' first
    | with_reducible assumption | with_reducible refine keeps_snd (keeps_eccRead (sub_trans rfl hW) ?_) | split

theorem keeps_egrTblWrite {a1 a2 a3 a4} (hW : sub 82178 W = true) (h : Keeps W s0 s) : KeepsP W s0 (@egrTblWrite a1 a2 a3 a4 s) := by
  unfold egrTblWrite
  repeat' first
    | with_reducible assumption | exact sub_trans rfl hW | with_reducible apply keeps_fullWrite
    | with_reducible apply keeps_raise | with_reducible apply keepsP_ite | split | with_reducible apply keepsP_mk
    | with_reducible refine keeps_up_egr (sub_bit rfl hW) ?_

theorem keeps_writeEgrTbl {a1 a2} (hW : sub 2179330 W = true) (h : Keeps W s0 s) : Keeps W s0 (@writeEgrTbl a1 a2 s) := by
  unfold writeEgrTbl
  repeat' first
    | with_reducible assumption | exact sub_trans rfl hW
    | with_reducible refine keeps_snd (keeps_egrTblWrite (sub_trans rfl hW) ?_) | with_reducible apply keeps_egrTblEcc
    | with_reducible apply keeps_setF | with_reducible apply keeps_foldl | with_reducible apply keeps_ite | intro _

theorem keeps_execEgrTableRead {a1 a2} (hW : sub 6373634 W = true) (h : Keeps W s0 s) : KeepsOut W s0 (@execEgrTableRead a1 a2 s) := by
  unfold execEgrTableRead
  repeat' first
    | with_reducible assumption | exact sub_trans rfl hW | with_reducible apply keeps_writeEgrTbl
    | with_reducible apply keeps_writeAt | with_reducible apply keeps_ran | with_reducible apply keeps_State_begin | intro _

theorem keeps_execEgrTableWrite {a1 a2} (hW : sub 6373634 W = true) (h : Keeps W s0 s) : KeepsOut W s0 (@execEgrTableWrite a1 a2 s) := by
  unfold execEgrTableWrite
  repeat' first
    | with_reducible assumption | exact sub_trans rfl hW | with_reducible apply keeps_writeEgrTbl
    | with_reducible apply keeps_writeAt | with_reducible apply keeps_ran | with_reducible apply keeps_State_begin | intro _

theorem keeps_pathArrival {a1 a2} (hW : sub 33026 W = true) (h : Keeps W s0 s) : Keeps W s0 (@pathArrival a1 a2 s) := by
  unfold pathArrival
  repeat' first
    | with_reducible assumption | intro _ | lift_lets | exact sub_trans rfl hW | with_reducible apply keeps_pathCheck
    | with_reducible apply keeps_setFn | with_reducible apply keeps_bump | with_reducible apply keeps_foldl
    | with_reducible apply keeps_ite | intro _

theorem keeps_redDescriptor {a1} (hW : sub 10608898 W = true) (h : Keeps W s0 s) : Keeps W s0 (@redDescriptor a1 s) := by
  unfold redDescriptor
  repeat' first
    | with_reducible assumption | exact sub_trans rfl hW | with_reducible apply keeps_pathArrival
    | with_reducible apply keeps_fnRead | with_reducible apply keeps_fnFrame | with_reducible apply keeps_redRogue
    | with_reducible apply keeps_redPass | with_reducible apply keeps_bump | with_reducible apply keeps_ite | split

theorem keeps_execFrerDescriptor {a1} (hW : sub 14803202 W = true) (h : Keeps W s0 s) : KeepsOut W s0 (@execFrerDescriptor a1 s) := by
  unfold execFrerDescriptor
  repeat' first
    | with_reducible assumption | exact sub_trans rfl hW | with_reducible apply keeps_redDescriptor
    | with_reducible apply keeps_ran | with_reducible apply keeps_State_begin | with_reducible apply keeps_ite

theorem keeps_execReseqTimeout {a1} (hW : sub 6414594 W = true) (h : Keeps W s0 s) : KeepsOut W s0 (@execReseqTimeout a1 s) := by
  unfold execReseqTimeout
  repeat' first
    | with_reducible assumption | exact sub_trans rfl hW | with_reducible apply keeps_fnTimeout
    | with_reducible apply keeps_fnRead | with_reducible apply keeps_ran | with_reducible apply keeps_whenS
    | with_reducible apply keeps_State_begin | with_reducible apply keeps_ite | intro _

theorem keeps_execTakeAny {a1} (hW : sub 6414594 W = true) (h : Keeps W s0 s) : KeepsOut W s0 (@execTakeAny a1 s) := by
  unfold execTakeAny
  repeat' first
    | with_reducible assumption | exact sub_trans rfl hW | with_reducible apply keeps_fnReset
    | with_reducible apply keeps_redEvent | with_reducible apply keeps_ran | with_reducible apply keeps_State_begin
    | with_reducible apply keeps_ite

theorem keeps_execFrerFunctionReset {a1 a2} (hW : sub 6414594 W = true) (h : Keeps W s0 s) : KeepsOut W s0 (@execFrerFunctionReset a1 a2 s) := by
  unfold execFrerFunctionReset
  repeat' first
    | with_reducible assumption | exact sub_trans rfl hW | with_reducible apply keeps_fnResetWrite
    | with_reducible apply keeps_writeAt | with_reducible apply keeps_ran | with_reducible apply keeps_whenS
    | with_reducible apply keeps_State_begin | intro _

theorem keeps_writeFnCfg {a1 a2} (hW : sub 2220290 W = true) (h : Keeps W s0 s) : Keeps W s0 (@writeFnCfg a1 a2 s) := by
  unfold writeFnCfg
  repeat' first
    | with_reducible assumption | exact sub_trans rfl hW | with_reducible apply keeps_fnReset
    | with_reducible apply keeps_setFn | with_reducible apply keeps_whenS | with_reducible apply keeps_raise
    | with_reducible apply keeps_setF | with_reducible apply keeps_ite | intro _

theorem keeps_execFrerCfgWrite {a1 a2} (hW : sub 6414594 W = true) (h : Keeps W s0 s) : KeepsOut W s0 (@execFrerCfgWrite a1 a2 s) := by
  unfold execFrerCfgWrite
  repeat' first
    | with_reducible assumption | exact sub_trans rfl hW | with_reducible apply keeps_writeFnCfg
    | with_reducible apply keeps_writeAt | with_reducible apply keeps_ran | with_reducible apply keeps_State_begin | intro _

theorem keeps_execLatentError {a1} (hW : sub 4227330 W = true) (h : Keeps W s0 s) : KeepsOut W s0 (@execLatentError a1 s) := by
  unfold execLatentError
  repeat' first
    | with_reducible assumption | exact sub_trans rfl hW | with_reducible apply keeps_redEvent
    | with_reducible apply keeps_setFn | with_reducible apply keeps_ran | with_reducible apply keeps_whenS
    | with_reducible apply keeps_State_begin | with_reducible apply keeps_ite | intro _

theorem keeps_execPathDown {a1 a2} (hW : sub 4227330 W = true) (h : Keeps W s0 s) : KeepsOut W s0 (@execPathDown a1 a2 s) := by
  unfold execPathDown
  repeat' first
    | with_reducible assumption | exact sub_trans rfl hW | with_reducible apply keeps_pathCheck
    | with_reducible apply keeps_ran | with_reducible apply keeps_State_begin | with_reducible apply keeps_ite

theorem keeps_finish {a1 a2 a3} (hW : sub 4325634 W = true) (h : Keeps W s0 s) : Keeps W s0 (@finish a1 a2 a3 s) := by
  unfold finish
  repeat' first
    | with_reducible assumption | with_reducible apply keeps_complete

theorem keeps_onRing {a1 a2} (hW : sub 6496514 W = true) (h : Keeps W s0 s) (h2 : ∀ t, Keeps W s0 t → Keeps W s0 (a2 t)) : KeepsOut W s0 (@onRing a1 a2 s) := by
  unfold onRing
  repeat' first
    | with_reducible assumption | exact sub_trans rfl hW | with_reducible apply keeps_throughRing
    | with_reducible apply keeps_ran | with_reducible apply keeps_State_begin | with_reducible apply keeps_ite

theorem keeps_onBare {a1 a2 a3} (hW : sub 6496514 W = true) (h : Keeps W s0 s) (h3 : ∀ t, Keeps W s0 t → Keeps W s0 (a3 t)) : KeepsOut W s0 (@onBare a1 a2 a3 s) := by
  unfold onBare
  repeat' first
    | with_reducible assumption | exact sub_trans rfl hW | with_reducible apply keeps_onRing
    | with_reducible apply keeps_finish | split | intro _

theorem keeps_execCmdBadOpcode {a1 a2 a3} (hW : sub 6496514 W = true) (h : Keeps W s0 s) : KeepsOut W s0 (@execCmdBadOpcode a1 a2 a3 s) := by
  unfold execCmdBadOpcode
  repeat' first
    | with_reducible assumption | exact sub_trans rfl hW | with_reducible apply keeps_onRing
    | with_reducible apply keeps_finish | split | intro _

theorem keeps_execNop {a1 a2} (hW : sub 6496514 W = true) (h : Keeps W s0 s) : KeepsOut W s0 (@execNop a1 a2 s) := by
  unfold execNop
  repeat' first
    | with_reducible assumption | exact sub_trans rfl hW | with_reducible apply keeps_onBare
    | with_reducible apply keeps_finish | intro _

theorem keeps_writeEntry {a1 a2 a3 a4} (hW : sub 86274 W = true) (h : Keeps W s0 s) : KeepsP W s0 (@writeEntry a1 a2 a3 a4 s) := by
  unfold writeEntry
  repeat' first
    | with_reducible assumption | exact sub_trans rfl hW | with_reducible apply keeps_egrTblWrite
    | with_reducible apply keeps_tblWrite | with_reducible apply keepsP_ite | split | with_reducible apply keepsP_mk
    | with_reducible refine keeps_pair (by assumption) ?_

theorem keeps_writeEntries {t port size ws i n} (hW : sub 86274 W = true) (h : Keeps W s0 s) : KeepsP2 W s0 (writeEntries t port size ws i n s) := by
  induction n generalizing s ws i with
  | zero => exact h
  | succ n ih =>
    unfold writeEntries
    split
    rename_i e
    have hw := keeps_pair e (keeps_writeEntry (sub_trans rfl hW) h)
    split
    · exact hw
    · split
      rename_i e
      exact keepsP2_mk (keeps_pair2 e (ih hw))

theorem keeps_execTblRead {a1 a2} (hW : sub 6496514 W = true) (h : Keeps W s0 s) : KeepsOut W s0 (@execTblRead a1 a2 s) := by
  unfold execTblRead
  repeat' first
    | with_reducible assumption | exact sub_trans rfl hW | with_reducible apply keeps_onRing
    | with_reducible apply keeps_finish | with_reducible apply keeps_egrTblEcc | with_reducible apply keeps_complete
    | with_reducible apply keeps_tblEcc | with_reducible apply keeps_foldl | with_reducible apply keeps_ite | split | intro _

theorem keeps_execTblWrite {a1 a2} (hW : sub 6516994 W = true) (h : Keeps W s0 s) : KeepsOut W s0 (@execTblWrite a1 a2 s) := by
  unfold execTblWrite
  repeat' first
    | with_reducible assumption | exact sub_trans rfl hW
    | with_reducible refine keeps_snd2 (keeps_writeEntries (sub_trans rfl hW) ?_) | with_reducible apply keeps_onRing
    | with_reducible apply keeps_finish | with_reducible apply keeps_complete | with_reducible apply keeps_ite | intro _

theorem keeps_execFdbFlush {a1 a2} (hW : sub 6500610 W = true) (h : Keeps W s0 s) : KeepsOut W s0 (@execFdbFlush a1 a2 s) := by
  unfold execFdbFlush
  repeat' first
    | with_reducible assumption | exact sub_trans rfl hW | with_reducible apply keeps_onBare
    | with_reducible apply keeps_finish | with_reducible apply keeps_complete | with_reducible apply keeps_setTbl
    | with_reducible apply keeps_foldl | with_reducible apply keeps_ite | split | intro _

theorem keeps_writeFn {a1 a2} (hW : sub 2220290 W = true) (h : Keeps W s0 s) : Keeps W s0 (@writeFn a1 a2 s) := by
  unfold writeFn
  repeat' first
    | with_reducible assumption | exact sub_trans rfl hW | with_reducible apply keeps_writeFnCfg
    | with_reducible apply keeps_pathsCheck | with_reducible apply keeps_softWord

theorem keeps_execStreamAdd {a1 a2} (hW : sub 6549762 W = true) (h : Keeps W s0 s) : KeepsOut W s0 (@execStreamAdd a1 a2 s) := by
  unfold execStreamAdd
  repeat' first
    | with_reducible assumption | exact sub_trans rfl hW | with_reducible apply keeps_writeFn
    | with_reducible apply keeps_onRing | with_reducible apply keeps_finish
    | with_reducible refine keeps_snd (keeps_ctxAdd (sub_trans rfl hW) ?_) | with_reducible apply keeps_whenS
    | with_reducible apply keeps_ite | intro _

theorem keeps_execStreamDelete {a1 a2} (hW : sub 6500610 W = true) (h : Keeps W s0 s) : KeepsOut W s0 (@execStreamDelete a1 a2 s) := by
  unfold execStreamDelete
  repeat' first
    | with_reducible assumption | exact sub_trans rfl hW | with_reducible apply keeps_onBare
    | with_reducible apply keeps_finish | with_reducible apply keeps_ctxDelete | with_reducible apply keeps_ite | split
    | intro _

theorem keeps_execStreamModify {a1 a2} (hW : sub 6500610 W = true) (h : Keeps W s0 s) : KeepsOut W s0 (@execStreamModify a1 a2 s) := by
  unfold execStreamModify
  repeat' first
    | with_reducible assumption | exact sub_trans rfl hW | with_reducible apply keeps_onRing
    | with_reducible apply keeps_finish | with_reducible apply keeps_ctxModify | with_reducible apply keeps_ite | split
    | intro _

theorem keeps_execStreamRead {a1 a2} (hW : sub 6496514 W = true) (h : Keeps W s0 s) : KeepsOut W s0 (@execStreamRead a1 a2 s) := by
  unfold execStreamRead
  repeat' first
    | with_reducible assumption | exact sub_trans rfl hW | with_reducible apply keeps_onRing
    | with_reducible apply keeps_finish | with_reducible apply keeps_complete | split | intro _

theorem keeps_execDpllFreq {a1 a2} (hW : sub 6496642 W = true) (h : Keeps W s0 s) : KeepsOut W s0 (@execDpllFreq a1 a2 s) := by
  unfold execDpllFreq
  repeat' first
    | with_reducible assumption | exact sub_trans rfl hW | with_reducible apply keeps_onBare
    | with_reducible apply keeps_finish | with_reducible apply keeps_olFreq | with_reducible apply keeps_ite | intro _

theorem keeps_execDpllPhase {a1 a2} (hW : sub 6496706 W = true) (h : Keeps W s0 s) : KeepsOut W s0 (@execDpllPhase a1 a2 s) := by
  unfold execDpllPhase
  repeat' first
    | with_reducible assumption | exact sub_trans rfl hW | with_reducible apply keeps_onBare
    | with_reducible apply keeps_finish | with_reducible apply keeps_olPhase | with_reducible apply keeps_ite | intro _

theorem keeps_execHostSample {a1 a2} (hW : sub 6496642 W = true) (h : Keeps W s0 s) : KeepsOut W s0 (@execHostSample a1 a2 s) := by
  unfold execHostSample
  repeat' first
    | with_reducible assumption | exact sub_trans rfl hW | with_reducible apply keeps_onBare
    | with_reducible apply keeps_finish | with_reducible apply keeps_complete | with_reducible apply keeps_candSample | split
    | intro _

theorem keeps_onMcu {a1 a2 a3} (hW : sub 6496514 W = true) (h : Keeps W s0 s) (h3 : ∀ t, Keeps W s0 t → Keeps W s0 (a3 t)) : KeepsOut W s0 (@onMcu a1 a2 a3 s) := by
  unfold onMcu
  repeat' first
    | with_reducible assumption | with_reducible apply h3 | exact sub_trans rfl hW | with_reducible apply keeps_onRing
    | with_reducible apply keeps_finish | split | intro _

theorem keeps_execProfileWrite {a1 a2} (hW : sub 6496514 W = true) (h : Keeps W s0 s) : KeepsOut W s0 (@execProfileWrite a1 a2 s) := by
  unfold execProfileWrite
  repeat' first
    | with_reducible assumption | exact sub_trans rfl hW | with_reducible apply keeps_onMcu | with_reducible apply keeps_finish
    | with_reducible apply keeps_setSlot | with_reducible apply keeps_setF | with_reducible apply keeps_ite | split | intro _

theorem keeps_execProfileRead {a1 a2} (hW : sub 6496514 W = true) (h : Keeps W s0 s) : KeepsOut W s0 (@execProfileRead a1 a2 s) := by
  unfold execProfileRead
  repeat' first
    | with_reducible assumption | exact sub_trans rfl hW | with_reducible apply keeps_onMcu | with_reducible apply keeps_finish
    | with_reducible apply keeps_complete | split | intro _

theorem keeps_execFwDownload {a1 a2} (hW : sub 6496514 W = true) (h : Keeps W s0 s) : KeepsOut W s0 (@execFwDownload a1 a2 s) := by
  unfold execFwDownload
  repeat' first
    | with_reducible assumption | intro _ | lift_lets | exact sub_trans rfl hW | with_reducible apply keeps_onMcu
    | with_reducible apply keeps_finish | with_reducible apply keeps_discardStaged | with_reducible apply keeps_stagedShown
    | with_reducible apply keeps_fullWriteAll | with_reducible refine keeps_snd (keeps_eccReadAll (sub_trans rfl hW) ?_)
    | with_reducible apply keeps_raise | with_reducible apply keeps_ite
    | with_reducible refine keeps_up_sys (sub_bit rfl hW) ?_ | intro _

theorem keeps_execAttest {a1 a2} (hW : sub 6496514 W = true) (h : Keeps W s0 s) : KeepsOut W s0 (@execAttest a1 a2 s) := by
  unfold execAttest
  repeat' first
    | with_reducible assumption | exact sub_trans rfl hW | with_reducible apply keeps_onMcu
    | with_reducible apply keeps_complete | with_reducible apply keeps_ite | intro _

theorem keeps_setFlash {a1 a2} (hW : sub 131072 W = true) (h : Keeps W s0 s) : Keeps W s0 (@setFlash a1 a2 s) := by
  unfold setFlash
  repeat' first
    | with_reducible assumption | with_reducible refine keeps_up_hif (sub_bit rfl hW) ?_

theorem keeps_flashLost {a1 a2} (hW : sub 8519680 W = true) (h : Keeps W s0 s) : Keeps W s0 (@flashLost a1 a2 s) := by
  unfold flashLost
  repeat' first
    | with_reducible assumption | exact sub_trans rfl hW | with_reducible apply keeps_setFlash
    | with_reducible apply keeps_drawInt | with_reducible apply keeps_foldl | split
    | with_reducible refine keeps_pair (by assumption) ?_ | intro _

theorem keeps_execFlashRead {a1 a2} (hW : sub 6496514 W = true) (h : Keeps W s0 s) : KeepsOut W s0 (@execFlashRead a1 a2 s) := by
  unfold execFlashRead
  repeat' first
    | with_reducible assumption | exact sub_trans rfl hW | with_reducible apply keeps_onRing
    | with_reducible apply keeps_finish | with_reducible apply keeps_complete | with_reducible apply keeps_ite | split
    | intro _

theorem keeps_execFlashProgram {a1 a2 a3} (hW : sub 14885122 W = true) (h : Keeps W s0 s) : KeepsOut W s0 (@execFlashProgram a1 a2 a3 s) := by
  unfold execFlashProgram
  repeat' first
    | with_reducible assumption | exact sub_trans rfl hW | with_reducible apply keeps_flashLost
    | with_reducible apply keeps_setFlash | with_reducible apply keeps_onRing | with_reducible apply keeps_finish
    | with_reducible apply keeps_raise | with_reducible apply keeps_foldl | with_reducible apply keeps_ite | split | intro _

theorem keeps_execFlashErase {a1 a2 a3} (hW : sub 14885122 W = true) (h : Keeps W s0 s) : KeepsOut W s0 (@execFlashErase a1 a2 a3 s) := by
  unfold execFlashErase
  repeat' first
    | with_reducible assumption | exact sub_trans rfl hW | with_reducible apply keeps_flashLost
    | with_reducible apply keeps_onBare | with_reducible apply keeps_finish | with_reducible apply keeps_raise
    | with_reducible apply keeps_ite | split | with_reducible refine keeps_up_hif (sub_bit rfl hW) ?_ | intro _

theorem keeps_execResetReq {a1 a2} (hW : sub 16777214 W = true) (h : Keeps W s0 s) : KeepsOut W s0 (@execResetReq a1 a2 s) := by
  unfold execResetReq
  repeat' first
    | with_reducible assumption | exact sub_trans rfl hW | with_reducible apply keeps_onBare
    | with_reducible apply keeps_finish | with_reducible apply keeps_strike | with_reducible apply keeps_ite | intro _

theorem keeps_timedOut {a1 a2} (hW : sub 10616834 W = true) (h : Keeps W s0 s) : Keeps W s0 (@timedOut a1 a2 s) := by
  unfold timedOut
  repeat' first
    | with_reducible assumption | exact sub_trans rfl hW | with_reducible apply keeps_flashLost
    | with_reducible apply keeps_discardStaged | with_reducible apply keeps_setSlot
    | with_reducible refine keeps_snd (keeps_drawInt (sub_trans rfl hW) ?_) | with_reducible apply keeps_ite | split
    | with_reducible refine keeps_up_sys (sub_bit rfl hW) ?_

theorem keeps_execCmdTimeout {a1 a2 a3} (hW : sub 14811394 W = true) (h : Keeps W s0 s) : KeepsOut W s0 (@execCmdTimeout a1 a2 a3 s) := by
  unfold execCmdTimeout
  repeat' first
    | with_reducible assumption | exact sub_trans rfl hW | with_reducible apply keeps_timedOut
    | with_reducible apply keeps_finish | with_reducible apply keeps_abandonRun | with_reducible apply keeps_ran
    | with_reducible apply keeps_State_begin | with_reducible apply keeps_raise | with_reducible apply keeps_ite

end Sys2Proof.Machine
end

