-- ==== Sys2Proof/Laws/KeepsEnd.lean ====
section
/-! SUPPORT. Ingress, the TDC commands, the monitors, the register space, the profile and the step: what each operation keeps (Keeps.lean). -/

namespace Sys2Proof.Machine

variable {W : Nat} {s0 s t : State}

theorem keeps_gateRead {a1 a2 a3} (hW : sub 2101506 W = true) (h : Keeps W s0 s) : KeepsP W s0 (@gateRead a1 a2 a3 s) := by
  unfold gateRead
  repeat' first
    | with_reducible assumption | exact sub_trans rfl hW | with_reducible apply keeps_gatePass
    | with_reducible refine keeps_snd (keeps_eccRead (sub_trans rfl hW) ?_) | with_reducible apply keepsP_ite | split
    | with_reducible apply keepsP_mk

theorem keeps_checkStream {a1 a2 a3 a4 a5} (hW : sub 2167042 W = true) (h : Keeps W s0 s) : KeepsP W s0 (@checkStream a1 a2 a3 a4 a5 s) := by
  unfold checkStream
  try simp only []
  repeat' first
    | with_reducible assumption | exact sub_trans rfl hW
    | with_reducible refine keeps_snd (keeps_gateRead (sub_trans rfl hW) ?_)
    | with_reducible refine keeps_snd (keeps_meter (sub_trans rfl hW) ?_) | with_reducible apply keeps_ctxBump
    | with_reducible apply keeps_setCtxF | with_reducible refine keeps_snd (keeps_narrowWrite (sub_trans rfl hW) ?_)
    | with_reducible apply keeps_whenS | with_reducible apply keeps_raise | with_reducible apply keepsP_ite | split
    | with_reducible apply keepsP_mk | intro _

theorem keeps_softPtp {a1 a2 a3} (hW : sub 2 W = true) (h : Keeps W s0 s) : KeepsP W s0 (@softPtp a1 a2 a3 s) := by
  unfold softPtp
  repeat' first
    | with_reducible assumption | with_reducible apply keeps_pteDrop | with_reducible apply keeps_foldl
    | with_reducible apply keepsP_ite | split | with_reducible apply keepsP_mk | intro _

theorem keeps_resolve {a1 a2 a3 a4} (hW : sub 10580226 W = true) (h : Keeps W s0 s) : Keeps W s0 (@resolve a1 a2 a3 a4 s) := by
  unfold resolve
  repeat' first
    | with_reducible assumption | exact sub_trans rfl hW
    | with_reducible refine keeps_snd (keeps_softPtp (sub_trans rfl hW) ?_) | with_reducible apply keeps_dropFrame
    | with_reducible apply keeps_forgetFrame | with_reducible apply keeps_ctxBump | with_reducible apply keeps_setFrame
    | with_reducible apply keeps_monEvent | with_reducible apply keeps_ite | split

theorem keeps_eccFirst {a2 a3 a4 a5 a6} (hW : sub 2097410 W = true) (h : Keeps W s0 s) : KeepsP W s0 (@eccFirst s a2 a3 a4 a5 a6) := by
  unfold eccFirst
  repeat' first
    | with_reducible assumption | with_reducible apply keeps_eccRead
    | with_reducible refine keeps_snd (keeps_eccRead (sub_trans rfl hW) ?_) | with_reducible apply keeps_foldl | split
    | with_reducible apply keepsP_mk | with_reducible refine keeps_pair (by assumption) ?_ | intro _

theorem keeps_eccFdb {a1} (hW : sub 2167042 W = true) (h : Keeps W s0 s) : Keeps W s0 (@eccFdb a1 s) := by
  unfold eccFdb
  repeat' first
    | with_reducible assumption | exact sub_trans rfl hW | with_reducible apply keeps_setTbl
    | with_reducible refine keeps_snd (keeps_eccRead (sub_trans rfl hW) ?_) | with_reducible apply keeps_setEcc
    | with_reducible apply keeps_ite | split

theorem keeps_eccFound {a2 a3} (hW : sub 2097410 W = true) (h : Keeps W s0 s) : Keeps W s0 (@eccFound s a2 a3) := by
  unfold eccFound
  repeat' first
    | with_reducible assumption | with_reducible refine keeps_snd (keeps_eccRead (sub_trans rfl hW) ?_)
    | with_reducible apply keeps_foldl | split | intro _

theorem keeps_eccStream {a1 a2} (hW : sub 2097410 W = true) (h : Keeps W s0 s) : KeepsP W s0 (@eccStream a1 a2 s) := by
  unfold eccStream
  repeat' first
    | with_reducible assumption | intro _ | lift_lets | with_reducible apply keeps_eccRead | with_reducible apply keepsP_foldl
    | with_reducible refine keeps_snd (by assumption) | split | with_reducible apply keepsP_mk
    | with_reducible refine keeps_pair (by assumption) ?_ | intro _

theorem keeps_ruleCount {a1} (hW : sub 4096 W = true) (h : Keeps W s0 s) : Keeps W s0 (@ruleCount a1 s) := by
  unfold ruleCount
  repeat' first
    | with_reducible assumption | with_reducible apply keeps_setTbl | split

theorem keeps_streamHit {a1 a2} (hW : sub 2167042 W = true) (h : Keeps W s0 s) : Keeps W s0 (@streamHit a1 a2 s) := by
  unfold streamHit
  repeat' first
    | with_reducible assumption | exact sub_trans rfl hW | with_reducible apply keeps_ctxBump
    | with_reducible apply keeps_ctxNarrow | with_reducible apply keeps_setCtxF | split | intro _

theorem keeps_learnOffer {a1 a2 a3 a4 a5 a6} (hW : sub 4354 W = true) (h : Keeps W s0 s) : Keeps W s0 (@learnOffer a1 a2 a3 a4 a5 a6 s) := by
  unfold learnOffer
  repeat' first
    | with_reducible assumption | exact sub_trans rfl hW | with_reducible apply keeps_queueReq
    | with_reducible apply keeps_bump | with_reducible apply keeps_ite | split

theorem keeps_checkHead {a1 a2 a3 a4 a5} (hW : sub 10555650 W = true) (h : Keeps W s0 s) : KeepsP W s0 (@checkHead a1 a2 a3 a4 a5 s) := by
  unfold checkHead
  repeat' first
    | with_reducible assumption | exact sub_trans rfl hW | with_reducible apply keeps_checkStream
    | with_reducible refine keeps_snd (keeps_drawInt (sub_trans rfl hW) ?_) | with_reducible apply keepsP_ite | split
    | with_reducible apply keepsP_mk

theorem keeps_generalCopy {a1 a2} (hW : sub 2050 W = true) (h : Keeps W s0 s) : KeepsP W s0 (@generalCopy a1 a2 s) := by
  unfold generalCopy
  repeat' first
    | with_reducible assumption | exact sub_trans rfl hW
    | with_reducible refine keeps_snd (keeps_fwToken (sub_trans rfl hW) ?_) | with_reducible apply keeps_pteDrop
    | with_reducible apply keepsP_ite | split | with_reducible apply keepsP_mk

theorem keeps_ptpEnds {a1 a2 a3} (hW : sub 8478978 W = true) (h : Keeps W s0 s) : Keeps W s0 (@ptpEnds a1 a2 a3 s) := by
  unfold ptpEnds
  repeat' first
    | with_reducible assumption | exact sub_trans rfl hW | with_reducible apply keeps_pteDrop
    | with_reducible apply keeps_dropFrame | with_reducible apply keeps_forgetFrame | with_reducible apply keeps_setFrame
    | split

theorem keeps_ingPass {a1 a2 a3 a4 a5 a6 a7 a8 a9 a10 a11 a12 a13 a14 a15 a16} (hW : sub 10582274 W = true) (h : Keeps W s0 s) : Keeps W s0 (@ingPass a1 a2 a3 a4 a5 a6 a7 a8 a9 a10 a11 a12 a13 a14 a15 a16 s) := by
  unfold ingPass
  repeat' first
    | with_reducible assumption | exact sub_trans rfl hW | with_reducible apply keeps_ptpEnds
    | with_reducible refine keeps_snd (keeps_generalCopy (sub_trans rfl hW) ?_) | with_reducible apply keeps_resolve
    | with_reducible apply keeps_ite

theorem keeps_ingForward {a1 a2 a3 a4 a5 a6 a7 a8 a9} (hW : sub 10582274 W = true) (h : Keeps W s0 s) : Keeps W s0 (@ingForward a1 a2 a3 a4 a5 a6 a7 a8 a9 s) := by
  unfold ingForward
  repeat' first
    | with_reducible assumption | exact sub_trans rfl hW | with_reducible apply keeps_ingPass
    | with_reducible refine keeps_snd (keeps_checkHead (sub_trans rfl hW) ?_) | with_reducible apply keeps_learnOffer
    | with_reducible apply keeps_streamHit | with_reducible apply keeps_sourceHit | with_reducible apply keeps_dropFrame
    | with_reducible apply keeps_setFrame | split | with_reducible refine keeps_up_flt (sub_bit rfl hW) ?_

theorem keeps_ingStreams {a1 a2 a3 a4 a5 a6 a7 a8} (hW : sub 10582274 W = true) (h : Keeps W s0 s) : Keeps W s0 (@ingStreams a1 a2 a3 a4 a5 a6 a7 a8 s) := by
  unfold ingStreams
  repeat' first
    | with_reducible assumption | intro _ | lift_lets | exact sub_trans rfl hW | with_reducible apply keeps_ingForward
    | with_reducible refine keeps_snd (keeps_eccStream (sub_trans rfl hW) ?_) | with_reducible apply keeps_eccFound
    | with_reducible apply keeps_eccFdb | with_reducible apply keeps_dropFrame | with_reducible apply keeps_setFrame
    | with_reducible apply keeps_ite | intro _

theorem keeps_ingStages {a1 a2 a3 a4} (hW : sub 10582274 W = true) (h : Keeps W s0 s) : Keeps W s0 (@ingStages a1 a2 a3 a4 s) := by
  unfold ingStages
  repeat' first
    | with_reducible assumption | intro _ | lift_lets | exact sub_trans rfl hW | with_reducible apply keeps_ingStreams
    | with_reducible apply keeps_ruleCount | with_reducible refine keeps_snd (keeps_eccFirst (sub_trans rfl hW) ?_)
    | with_reducible apply keeps_dropFrame | with_reducible apply keeps_setFrame | with_reducible apply keeps_ite | split
    | intro _

theorem keeps_ingDirected {a1 a2 a3 a4 a5} (hW : sub 10580226 W = true) (h : Keeps W s0 s) : Keeps W s0 (@ingDirected a1 a2 a3 a4 a5 s) := by
  unfold ingDirected
  repeat' first
    | with_reducible assumption | with_reducible apply keeps_resolve

theorem keeps_ingressHead {a1} (hW : sub 10582274 W = true) (h : Keeps W s0 s) : Keeps W s0 (@ingressHead a1 s) := by
  unfold ingressHead
  repeat' first
    | with_reducible assumption | exact sub_trans rfl hW | with_reducible apply keeps_ingDirected
    | with_reducible apply keeps_ingStages | with_reducible apply keeps_pteDrop | with_reducible apply keeps_forgetFrame
    | with_reducible apply keeps_sumpCount | with_reducible apply keeps_bump | with_reducible apply keeps_ite | split
    | with_reducible refine keeps_up_flt (sub_bit rfl hW) ?_

theorem keeps_ingressFrame {a1} (hW : sub 14907650 W = true) (h : Keeps W s0 s) : Keeps W s0 (@ingressFrame a1 s) := by
  unfold ingressFrame
  repeat' first
    | with_reducible assumption | exact sub_trans rfl hW | with_reducible apply keeps_ingressHead
    | with_reducible apply keeps_txDecided | with_reducible apply keeps_ite | split
    | with_reducible refine keeps_up_flt (sub_bit rfl hW) ?_ | with_reducible refine keeps_up_buf (sub_bit rfl hW) ?_

theorem keeps_execIngressHead {a1} (hW : sub 14907650 W = true) (h : Keeps W s0 s) : KeepsOut W s0 (@execIngressHead a1 s) := by
  unfold execIngressHead
  repeat' first
    | with_reducible assumption | exact sub_trans rfl hW | with_reducible apply keeps_ingressFrame
    | with_reducible apply keeps_ran | with_reducible apply keeps_State_begin

theorem keeps_ctxSettings {a1 a2} (hW : sub 4096 W = true) (h : Keeps W s0 s) : Keeps W s0 (@ctxSettings a1 a2 s) := by
  unfold ctxSettings
  repeat' first
    | with_reducible assumption | with_reducible apply keeps_setCtxWord

theorem keeps_checkTail {a1 a2 a3} (hW : sub 2167042 W = true) (h : Keeps W s0 s) : KeepsP W s0 (@checkTail a1 a2 a3 s) := by
  unfold checkTail
  repeat' first
    | with_reducible assumption | exact sub_trans rfl hW | with_reducible apply keeps_ctxSettings
    | with_reducible apply keeps_checkStream | split | with_reducible apply keepsP_mk
    | with_reducible refine keeps_pair (by assumption) ?_

theorem keeps_tailPass {a1} (hW : sub 10580226 W = true) (h : Keeps W s0 s) : Keeps W s0 (@tailPass a1 s) := by
  unfold tailPass
  repeat' first
    | with_reducible assumption | exact sub_trans rfl hW
    | with_reducible refine keeps_snd (keeps_checkTail (sub_trans rfl hW) ?_) | with_reducible apply keeps_dropFrame
    | with_reducible apply keeps_ctxBump | with_reducible apply keeps_touchFrame | with_reducible apply keeps_shaperTouch
    | with_reducible apply keeps_setFrame | with_reducible apply keeps_bump | with_reducible apply keeps_foldl
    | with_reducible apply keeps_ite | split | with_reducible refine keeps_up_flt (sub_bit rfl hW) ?_ | intro _

theorem keeps_execIngressTailPass {a1} (hW : sub 14774530 W = true) (h : Keeps W s0 s) : KeepsOut W s0 (@execIngressTailPass a1 s) := by
  unfold execIngressTailPass
  repeat' first
    | with_reducible assumption | exact sub_trans rfl hW | with_reducible apply keeps_tailPass | with_reducible apply keeps_ran
    | with_reducible apply keeps_State_begin | with_reducible apply keeps_ite | split

theorem keeps_takeReq {a1} (hW : sub 4096 W = true) (h : Keeps W s0 s) : KeepsP W s0 (@takeReq a1 s) := by
  unfold takeReq
  repeat' first
    | with_reducible assumption | split | with_reducible apply keepsP_mk
    | with_reducible refine keeps_up_ing (sub_bit rfl hW) ?_

theorem keeps_execLearnInsert (hW : sub 4264194 W = true) (h : Keeps W s0 s) : KeepsOut W s0 (@execLearnInsert s) := by
  unfold execLearnInsert
  repeat' first
    | with_reducible assumption | exact sub_trans rfl hW | with_reducible apply keeps_takeReq
    | with_reducible apply keeps_learnInsert | with_reducible apply keeps_ran | with_reducible apply keeps_State_begin
    | with_reducible apply keeps_ite | split | with_reducible refine keeps_pair (by assumption) ?_

theorem keeps_execStreamLearn (hW : sub 4264194 W = true) (h : Keeps W s0 s) : KeepsOut W s0 (@execStreamLearn s) := by
  unfold execStreamLearn
  repeat' first
    | with_reducible assumption | exact sub_trans rfl hW | with_reducible apply keeps_takeReq
    | with_reducible apply keeps_streamLearn | with_reducible apply keeps_ran | with_reducible apply keeps_State_begin
    | with_reducible apply keeps_ite | split | with_reducible refine keeps_pair (by assumption) ?_

theorem keeps_execAgeingSweepVisit {a1 a2} (hW : sub 6361346 W = true) (h : Keeps W s0 s) : KeepsOut W s0 (@execAgeingSweepVisit a1 a2 s) := by
  unfold execAgeingSweepVisit
  repeat' first
    | with_reducible assumption | exact sub_trans rfl hW | with_reducible apply keeps_ctxDelete
    | with_reducible refine keeps_snd (keeps_meterRefill (sub_trans rfl hW) ?_) | with_reducible apply keeps_setTbl
    | with_reducible apply keeps_ran | with_reducible apply keeps_State_begin | with_reducible apply keeps_raise
    | with_reducible apply keeps_ite

theorem keeps_execStreamDeleteClear {a1} (hW : sub 6361346 W = true) (h : Keeps W s0 s) : KeepsOut W s0 (@execStreamDeleteClear a1 s) := by
  unfold execStreamDeleteClear
  repeat' first
    | with_reducible assumption | exact sub_trans rfl hW | with_reducible apply keeps_setCtxF
    | with_reducible refine keeps_snd (keeps_narrowWrite (sub_trans rfl hW) ?_) | with_reducible apply keeps_ran
    | with_reducible apply keeps_whenS | with_reducible apply keeps_State_begin | split
    | with_reducible refine keeps_up_ing (sub_bit rfl hW) ?_ | intro _

theorem keeps_writeIngTbl {a1} (hW : sub 2167042 W = true) (h : Keeps W s0 s) : Keeps W s0 (@writeIngTbl a1 s) := by
  unfold writeIngTbl
  repeat' first
    | with_reducible assumption | exact sub_trans rfl hW | with_reducible apply keeps_tblEcc
    | with_reducible refine keeps_snd (keeps_tblWrite (sub_trans rfl hW) ?_) | with_reducible apply keeps_setF
    | with_reducible apply keeps_foldl | with_reducible apply keeps_ite | intro _

theorem keeps_execIngTableRead {a1 a2} (hW : sub 6361346 W = true) (h : Keeps W s0 s) : KeepsOut W s0 (@execIngTableRead a1 a2 s) := by
  unfold execIngTableRead
  repeat' first
    | with_reducible assumption | exact sub_trans rfl hW | with_reducible apply keeps_writeIngTbl
    | with_reducible apply keeps_writeAt | with_reducible apply keeps_ran | with_reducible apply keeps_State_begin | intro _

theorem keeps_execIngTableWrite {a1 a2} (hW : sub 6361346 W = true) (h : Keeps W s0 s) : KeepsOut W s0 (@execIngTableWrite a1 a2 s) := by
  unfold execIngTableWrite
  repeat' first
    | with_reducible assumption | exact sub_trans rfl hW | with_reducible apply keeps_writeIngTbl
    | with_reducible apply keeps_writeAt | with_reducible apply keeps_ran | with_reducible apply keeps_State_begin | intro _

theorem keeps_writeGateCommit {a1} (hW : sub 4354 W = true) (h : Keeps W s0 s) : Keeps W s0 (@writeGateCommit a1 s) := by
  unfold writeGateCommit
  repeat' first
    | with_reducible assumption | exact sub_trans rfl hW | with_reducible apply keeps_gateCommit
    | with_reducible apply keeps_setF | with_reducible apply keeps_ite

theorem keeps_execStreamGateCommit {a1 a2} (hW : sub 4198658 W = true) (h : Keeps W s0 s) : KeepsOut W s0 (@execStreamGateCommit a1 a2 s) := by
  unfold execStreamGateCommit
  repeat' first
    | with_reducible assumption | exact sub_trans rfl hW | with_reducible apply keeps_writeGateCommit
    | with_reducible apply keeps_writeAt | with_reducible apply keeps_ran | with_reducible apply keeps_State_begin | intro _

theorem keeps_execStreamGateChange {a1} (hW : sub 4198400 W = true) (h : Keeps W s0 s) : KeepsOut W s0 (@execStreamGateChange a1 s) := by
  unfold execStreamGateChange
  repeat' first
    | with_reducible assumption | exact sub_trans rfl hW | with_reducible apply keeps_gateChange
    | with_reducible apply keeps_ran | with_reducible apply keeps_State_begin | with_reducible apply keeps_ite

theorem keeps_execTdcEdgeMeasure {a1 a2 a3 a4} (hW : sub 16253314 W = true) (h : Keeps W s0 s) : KeepsOut W s0 (@execTdcEdgeMeasure a1 a2 a3 a4 s) := by
  unfold execTdcEdgeMeasure
  repeat' first
    | with_reducible assumption | exact sub_trans rfl hW | with_reducible apply keeps_sourceEdge
    | with_reducible refine keeps_snd (keeps_prescale (sub_trans rfl hW) ?_) | with_reducible apply keeps_ran
    | with_reducible apply keeps_State_begin | with_reducible apply keeps_raise | with_reducible apply keeps_ite

theorem keeps_calPair {a1 a2 a3} (hW : sub 1048834 W = true) (h : Keeps W s0 s) : Keeps W s0 (@calPair a1 a2 a3 s) := by
  unfold calPair
  repeat' first
    | with_reducible assumption | exact sub_trans rfl hW | with_reducible apply keeps_borrowLate
    | with_reducible apply keeps_spareCheck | with_reducible apply keeps_setTdcCh | with_reducible apply keeps_whenS
    | with_reducible apply keeps_raise | intro _

theorem keeps_execTdcCalPair {a1 a2 a3} (hW : sub 5243138 W = true) (h : Keeps W s0 s) : KeepsOut W s0 (@execTdcCalPair a1 a2 a3 s) := by
  unfold execTdcCalPair
  repeat' first
    | with_reducible assumption | exact sub_trans rfl hW | with_reducible apply keeps_calPair | with_reducible apply keeps_ran
    | with_reducible apply keeps_State_begin | with_reducible apply keeps_ite

theorem keeps_deliver (hW : sub 7545090 W = true) (h : Keeps W s0 s) : Keeps W s0 (@deliver s) := by
  unfold deliver
  repeat' first
    | with_reducible assumption | exact sub_trans rfl hW | with_reducible apply keeps_ringRecord
    | with_reducible apply keeps_setTdcCh | with_reducible apply keeps_emit | with_reducible apply keeps_raise
    | with_reducible apply keeps_ite | split | with_reducible refine keeps_up_flt (sub_bit rfl hW) ?_
    | with_reducible refine keeps_up_tdc (sub_bit rfl hW) ?_ | intro _

theorem keeps_execTdcResultDeliver (hW : sub 7545090 W = true) (h : Keeps W s0 s) : KeepsOut W s0 (@execTdcResultDeliver s) := by
  unfold execTdcResultDeliver
  repeat' first
    | with_reducible assumption | exact sub_trans rfl hW | with_reducible apply keeps_deliver | with_reducible apply keeps_ran
    | with_reducible apply keeps_State_begin | with_reducible apply keeps_ite

theorem keeps_execTdcAnchorRenew (hW : sub 5242880 W = true) (h : Keeps W s0 s) : KeepsOut W s0 (@execTdcAnchorRenew s) := by
  unfold execTdcAnchorRenew
  repeat' first
    | with_reducible assumption | exact sub_trans rfl hW | with_reducible apply keeps_anchor | with_reducible apply keeps_ran
    | with_reducible apply keeps_State_begin | with_reducible apply keeps_ite

theorem keeps_execIntervalArm {a1 a2 a3} (hW : sub 5243138 W = true) (h : Keeps W s0 s) : KeepsOut W s0 (@execIntervalArm a1 a2 a3 s) := by
  unfold execIntervalArm
  repeat' first
    | with_reducible assumption | exact sub_trans rfl hW | with_reducible apply keeps_writeChCfg2
    | with_reducible apply keeps_writeAt | with_reducible apply keeps_ran | with_reducible apply keeps_State_begin | intro _

theorem keeps_execIntervalTimeout {a1} (hW : sub 5243138 W = true) (h : Keeps W s0 s) : KeepsOut W s0 (@execIntervalTimeout a1 s) := by
  unfold execIntervalTimeout
  repeat' first
    | with_reducible assumption | exact sub_trans rfl hW | with_reducible apply keeps_intervalTimeout
    | with_reducible apply keeps_ran | with_reducible apply keeps_State_begin | with_reducible apply keeps_ite

theorem keeps_execTdcChCfgWrite {a1 a2 a3} (hW : sub 5243138 W = true) (h : Keeps W s0 s) : KeepsOut W s0 (@execTdcChCfgWrite a1 a2 a3 s) := by
  unfold execTdcChCfgWrite
  repeat' first
    | with_reducible assumption | exact sub_trans rfl hW | with_reducible apply keeps_writeChCfg
    | with_reducible apply keeps_writeAt | with_reducible apply keeps_ran | with_reducible apply keeps_State_begin | intro _

theorem keeps_execPrescalerWrite {a1 a2} (hW : sub 5243330 W = true) (h : Keeps W s0 s) : KeepsOut W s0 (@execPrescalerWrite a1 a2 s) := by
  unfold execPrescalerWrite
  repeat' first
    | with_reducible assumption | exact sub_trans rfl hW | with_reducible apply keeps_writePresc
    | with_reducible apply keeps_writeAt | with_reducible apply keeps_ran | with_reducible apply keeps_State_begin | intro _

theorem keeps_execTdcRefillRequest {a1 a2} (hW : sub 5243138 W = true) (h : Keeps W s0 s) : KeepsOut W s0 (@execTdcRefillRequest a1 a2 s) := by
  unfold execTdcRefillRequest
  repeat' first
    | with_reducible assumption | exact sub_trans rfl hW | with_reducible apply keeps_refillAsk
    | with_reducible apply keeps_writeAt | with_reducible apply keeps_ran | with_reducible apply keeps_State_begin
    | with_reducible apply keeps_foldl | intro _

theorem keeps_execTdcRefillComplete {a1 a2} (hW : sub 16120258 W = true) (h : Keeps W s0 s) : KeepsOut W s0 (@execTdcRefillComplete a1 a2 s) := by
  unfold execTdcRefillComplete
  repeat' first
    | with_reducible assumption | exact sub_trans rfl hW | with_reducible apply keeps_planTurn
    | with_reducible apply keeps_borrowLate | with_reducible apply keeps_refillDone | with_reducible apply keeps_ran
    | with_reducible apply keeps_State_begin | with_reducible apply keeps_ite

theorem keeps_execTdcTableCommit {a1 a2} (hW : sub 5308674 W = true) (h : Keeps W s0 s) : KeepsOut W s0 (@execTdcTableCommit a1 a2 s) := by
  unfold execTdcTableCommit
  repeat' first
    | with_reducible assumption | exact sub_trans rfl hW | with_reducible apply keeps_commitTable
    | with_reducible apply keeps_writeAt | with_reducible apply keeps_ran | with_reducible apply keeps_State_begin
    | with_reducible apply keeps_foldl | intro _

theorem keeps_execTakeoverOverlapEnd (hW : sub 5243138 W = true) (h : Keeps W s0 s) : KeepsOut W s0 (@execTakeoverOverlapEnd s) := by
  unfold execTakeoverOverlapEnd
  repeat' first
    | with_reducible assumption | exact sub_trans rfl hW | with_reducible apply keeps_spareStep
    | with_reducible apply keeps_settleSpare | with_reducible apply keeps_setTdcCh | with_reducible apply keeps_ran
    | with_reducible apply keeps_State_begin | with_reducible apply keeps_raise | with_reducible apply keeps_ite | split

theorem keeps_execTakeoverEnd (hW : sub 5243138 W = true) (h : Keeps W s0 s) : KeepsOut W s0 (@execTakeoverEnd s) := by
  unfold execTakeoverEnd
  repeat' first
    | with_reducible assumption | exact sub_trans rfl hW | with_reducible apply keeps_borrowLate
    | with_reducible apply keeps_nextWait | with_reducible apply keeps_settleCh | with_reducible apply keeps_setTdcCh
    | with_reducible apply keeps_ran | with_reducible apply keeps_State_begin | with_reducible apply keeps_raise
    | with_reducible apply keeps_ite | split | with_reducible refine keeps_up_tdc (sub_bit rfl hW) ?_

theorem keeps_readTblData {a1} (hW : sub 4194562 W = true) (h : Keeps W s0 s) : Keeps W s0 (@readTblData a1 s) := by
  unfold readTblData
  repeat' first
    | with_reducible assumption | exact sub_trans rfl hW | with_reducible apply keeps_gateEvent
    | with_reducible apply keeps_emit | with_reducible apply keeps_bump | split

theorem keeps_execTdcTableDataRead {a1} (hW : sub 4194562 W = true) (h : Keeps W s0 s) : KeepsOut W s0 (@execTdcTableDataRead a1 s) := by
  unfold execTdcTableDataRead
  repeat' first
    | with_reducible assumption | exact sub_trans rfl hW | with_reducible apply keeps_readTblData
    | with_reducible apply keeps_ran | with_reducible apply keeps_State_begin

theorem keeps_scrubbed {a1 a2} (hW : sub 2 W = true) (h : Keeps W s0 s) : Keeps W s0 (@scrubbed a1 a2 s) := by
  unfold scrubbed
  repeat' first
    | with_reducible assumption | with_reducible apply keeps_bump

theorem keeps_scrubWord {a1 a2 a3 a4 a5} (hW : sub 65794 W = true) (h : Keeps W s0 s) : Keeps W s0 (@scrubWord a1 a2 a3 a4 a5 s) := by
  unfold scrubWord
  repeat' first
    | with_reducible assumption | exact sub_trans rfl hW | with_reducible apply keeps_scrubbed
    | with_reducible apply keeps_setEcc | with_reducible apply keeps_uncorrectable | with_reducible apply keeps_ite | split

theorem keeps_scrubNext {a1} (hW : sub 2097152 W = true) (h : Keeps W s0 s) : Keeps W s0 (@scrubNext a1 s) := by
  unfold scrubNext
  repeat' first
    | with_reducible assumption | with_reducible refine keeps_up_sys (sub_bit rfl hW) ?_

theorem keeps_execScrubAccess {a1 a2 a3 a4 a5} (hW : sub 6357250 W = true) (h : Keeps W s0 s) : KeepsOut W s0 (@execScrubAccess a1 a2 a3 a4 a5 s) := by
  unfold execScrubAccess
  repeat' first
    | with_reducible assumption | exact sub_trans rfl hW | with_reducible apply keeps_scrubNext
    | with_reducible apply keeps_scrubWord | with_reducible apply keeps_tickUs | with_reducible apply keeps_ran
    | with_reducible apply keeps_State_begin | with_reducible apply keeps_ite

theorem keeps_execScrubLate {a1 a2} (hW : sub 6291714 W = true) (h : Keeps W s0 s) : KeepsOut W s0 (@execScrubLate a1 a2 s) := by
  unfold execScrubLate
  repeat' first
    | with_reducible assumption | exact sub_trans rfl hW | with_reducible apply keeps_ran
    | with_reducible apply keeps_State_begin | with_reducible apply keeps_raiseAt | with_reducible apply keeps_setF
    | with_reducible apply keeps_ite | with_reducible refine keeps_up_sys (sub_bit rfl hW) ?_

theorem keeps_readLap (hW : sub 2 W = true) (h : Keeps W s0 s) : KeepsP W s0 (@readLap s) := by
  unfold readLap
  repeat' first
    | with_reducible assumption | with_reducible apply keeps_setF | with_reducible apply keepsP_ite
    | with_reducible apply keepsP_mk

theorem keeps_execEccLapRead {a1} (hW : sub 4194562 W = true) (h : Keeps W s0 s) : KeepsOut W s0 (@execEccLapRead a1 s) := by
  unfold execEccLapRead
  repeat' first
    | with_reducible assumption | exact sub_trans rfl hW | with_reducible apply keeps_readLap
    | with_reducible apply keeps_readWith | with_reducible apply keeps_ran | with_reducible apply keeps_State_begin | intro _

theorem keeps_clearCnt {a1 a2 a3} (hW : sub 2 W = true) (h : Keeps W s0 s) : Keeps W s0 (@clearCnt a1 a2 a3 s) := by
  unfold clearCnt
  repeat' first
    | with_reducible assumption | with_reducible apply keeps_setF | with_reducible apply keeps_ite

theorem keeps_writeCntCfg {a1 a2 a3} (hW : sub 65538 W = true) (h : Keeps W s0 s) : Keeps W s0 (@writeCntCfg a1 a2 a3 s) := by
  unfold writeCntCfg
  repeat' first
    | with_reducible assumption | exact sub_trans rfl hW | with_reducible apply keeps_clearCnt
    | with_reducible apply keeps_softWord | with_reducible refine keeps_up_mon (sub_bit rfl hW) ?_

theorem keeps_execCounterCfgWrite {a1 a2 a3 a4} (hW : sub 4260098 W = true) (h : Keeps W s0 s) : KeepsOut W s0 (@execCounterCfgWrite a1 a2 a3 a4 s) := by
  unfold execCounterCfgWrite
  repeat' first
    | with_reducible assumption | exact sub_trans rfl hW | with_reducible apply keeps_writeCntCfg
    | with_reducible apply keeps_writeAt | with_reducible apply keeps_ran | with_reducible apply keeps_State_begin | intro _

theorem keeps_writeCntCtl {a1 a2} (hW : sub 2 W = true) (h : Keeps W s0 s) : Keeps W s0 (@writeCntCtl a1 a2 s) := by
  unfold writeCntCtl
  repeat' first
    | with_reducible assumption | intro _ | lift_lets | with_reducible apply keeps_clearCnt | with_reducible apply keeps_foldl
    | with_reducible apply keeps_ite | intro _

theorem keeps_execCounterClear {a1 a2} (hW : sub 4194562 W = true) (h : Keeps W s0 s) : KeepsOut W s0 (@execCounterClear a1 a2 s) := by
  unfold execCounterClear
  repeat' first
    | with_reducible assumption | exact sub_trans rfl hW | with_reducible apply keeps_writeCntCtl
    | with_reducible apply keeps_writeAt | with_reducible apply keeps_ran | with_reducible apply keeps_State_begin | intro _

theorem keeps_occCount {a1 a2} (hW : sub 82178 W = true) (h : Keeps W s0 s) : Keeps W s0 (@occCount a1 a2 s) := by
  unfold occCount
  repeat' first
    | with_reducible assumption | exact sub_trans rfl hW | with_reducible apply keeps_cntAdd | with_reducible apply keeps_ite
    | split | with_reducible refine keeps_up_mon (sub_bit rfl hW) ?_

theorem keeps_execCoreCycleCount (hW : sub 4276482 W = true) (h : Keeps W s0 s) : KeepsOut W s0 (@execCoreCycleCount s) := by
  unfold execCoreCycleCount
  repeat' first
    | with_reducible assumption | exact sub_trans rfl hW | with_reducible apply keeps_occCount | with_reducible apply keeps_ran
    | with_reducible apply keeps_whenS | with_reducible apply keeps_State_begin | with_reducible apply keeps_raiseAt
    | with_reducible apply keeps_setF | with_reducible apply keeps_foldl | with_reducible apply keeps_ite
    | with_reducible refine keeps_up_mon (sub_bit rfl hW) ?_ | intro _

theorem keeps_bwResult {a1 a2} (hW : sub 2 W = true) (h : Keeps W s0 s) : Keeps W s0 (@bwResult a1 a2 s) := by
  unfold bwResult
  repeat' first
    | with_reducible assumption | with_reducible apply keeps_setF | with_reducible apply keeps_ite

theorem keeps_bwClear {a1} (hW : sub 65536 W = true) (h : Keeps W s0 s) : Keeps W s0 (@bwClear a1 s) := by
  unfold bwClear
  repeat' first
    | with_reducible assumption | with_reducible refine keeps_up_mon (sub_bit rfl hW) ?_

theorem keeps_bwReflect {a1} (hW : sub 65538 W = true) (h : Keeps W s0 s) : Keeps W s0 (@bwReflect a1 s) := by
  unfold bwReflect
  repeat' first
    | with_reducible assumption | exact sub_trans rfl hW | with_reducible apply keeps_setF | with_reducible apply keeps_ite
    | with_reducible refine keeps_up_mon (sub_bit rfl hW) ?_

theorem keeps_execBwWindowEnd {a1} (hW : sub 4259842 W = true) (h : Keeps W s0 s) : KeepsOut W s0 (@execBwWindowEnd a1 s) := by
  unfold execBwWindowEnd
  repeat' first
    | with_reducible assumption | exact sub_trans rfl hW | with_reducible apply keeps_bwReflect
    | with_reducible apply keeps_bwClear | with_reducible apply keeps_bwResult | with_reducible apply keeps_ran
    | with_reducible apply keeps_State_begin | with_reducible apply keeps_ite | split
    | with_reducible refine keeps_up_mon (sub_bit rfl hW) ?_

theorem keeps_writeBwCfg {a1 a2} (hW : sub 65536 W = true) (h : Keeps W s0 s) : Keeps W s0 (@writeBwCfg a1 a2 s) := by
  unfold writeBwCfg
  repeat' first
    | with_reducible assumption | with_reducible apply keeps_bwClear | with_reducible apply keeps_ite
    | with_reducible refine keeps_up_mon (sub_bit rfl hW) ?_

theorem keeps_readPeak {a1 a2} (hW : sub 2 W = true) (h : Keeps W s0 s) : KeepsP W s0 (@readPeak a1 a2 s) := by
  unfold readPeak
  repeat' first
    | with_reducible assumption | with_reducible apply keeps_setF | with_reducible apply keepsP_ite
    | with_reducible apply keepsP_mk

theorem keeps_execBwPeakRead {a1 a2} (hW : sub 4194562 W = true) (h : Keeps W s0 s) : KeepsOut W s0 (@execBwPeakRead a1 a2 s) := by
  unfold execBwPeakRead
  repeat' first
    | with_reducible assumption | exact sub_trans rfl hW | with_reducible apply keeps_readPeak
    | with_reducible apply keeps_readWith | with_reducible apply keeps_ran | with_reducible apply keeps_State_begin | intro _

theorem keeps_execHistDepthSample {a1} (hW : sub 4260098 W = true) (h : Keeps W s0 s) : KeepsOut W s0 (@execHistDepthSample a1 s) := by
  unfold execHistDepthSample
  repeat' first
    | with_reducible assumption | exact sub_trans rfl hW | with_reducible apply keeps_histAdd | with_reducible apply keeps_ran
    | with_reducible apply keeps_State_begin | with_reducible apply keeps_ite | split
    | with_reducible refine keeps_up_flt (sub_bit rfl hW) ?_ | with_reducible refine keeps_up_mon (sub_bit rfl hW) ?_

theorem keeps_histClear {a1} (hW : sub 2 W = true) (h : Keeps W s0 s) : Keeps W s0 (@histClear a1 s) := by
  unfold histClear
  repeat' first
    | with_reducible assumption | with_reducible apply keeps_setF | with_reducible apply keeps_foldl | intro _

theorem keeps_writeHistCfg {a1 a2} (hW : sub 2 W = true) (h : Keeps W s0 s) : Keeps W s0 (@writeHistCfg a1 a2 s) := by
  unfold writeHistCfg
  repeat' first
    | with_reducible assumption | with_reducible apply keeps_histClear | with_reducible apply keeps_softWord

theorem keeps_execHistClear {a1 a2 a3} (hW : sub 4194562 W = true) (h : Keeps W s0 s) : KeepsOut W s0 (@execHistClear a1 a2 a3 s) := by
  unfold execHistClear
  repeat' first
    | with_reducible assumption | exact sub_trans rfl hW | with_reducible apply keeps_writeHistCfg
    | with_reducible apply keeps_writeAt | with_reducible apply keeps_ran | with_reducible apply keeps_State_begin | intro _

theorem keeps_canLimit {a1 a2 a3 a4} (hW : sub 65794 W = true) (h : Keeps W s0 s) : Keeps W s0 (@canLimit a1 a2 a3 a4 s) := by
  unfold canLimit
  repeat' first
    | with_reducible assumption | exact sub_trans rfl hW | with_reducible apply keeps_raiseAt | with_reducible apply keeps_ite
    | with_reducible refine keeps_up_mon (sub_bit rfl hW) ?_

theorem keeps_canLimits {a1 a2} (hW : sub 65794 W = true) (h : Keeps W s0 s) : Keeps W s0 (@canLimits a1 a2 s) := by
  unfold canLimits
  repeat' first
    | with_reducible assumption | with_reducible apply keeps_canLimit | split

theorem keeps_noteHot {a1 a2} (hW : sub 65536 W = true) (h : Keeps W s0 s) : Keeps W s0 (@noteHot a1 a2 s) := by
  unfold noteHot
  repeat' first
    | with_reducible assumption | with_reducible refine keeps_up_mon (sub_bit rfl hW) ?_

theorem keeps_execCanaryMeasure {a1 a2 a3 a4 a5} (hW : sub 12648706 W = true) (h : Keeps W s0 s) : KeepsOut W s0 (@execCanaryMeasure a1 a2 a3 a4 a5 s) := by
  unfold execCanaryMeasure
  repeat' first
    | with_reducible assumption | exact sub_trans rfl hW | with_reducible apply keeps_noteHot
    | with_reducible apply keeps_canLimits | with_reducible apply keeps_ran | with_reducible apply keeps_whenS
    | with_reducible apply keeps_State_begin | with_reducible refine keeps_snd (keeps_drawInt (sub_trans rfl hW) ?_)
    | with_reducible apply keeps_raiseAt | with_reducible apply keeps_setFlag | with_reducible apply keeps_setF
    | with_reducible apply keeps_ite | split | intro _

theorem keeps_driveAvs (hW : sub 6356992 W = true) (h : Keeps W s0 s) : Keeps W s0 (@driveAvs s) := by
  unfold driveAvs
  repeat' first
    | with_reducible assumption | exact sub_trans rfl hW
    | (with_reducible apply Same.mk <;> first | exact off rfl hW | exact fun _ => rfl) | with_reducible apply keeps_driveVid
    | with_reducible apply keeps_emit | with_reducible apply keeps_foldl | with_reducible apply keeps_ite
    | with_reducible refine keeps_mk ?_ rfl rfl rfl ?_ | intro _

theorem keeps_planHeld (hW : sub 258 W = true) (h : Keeps W s0 s) : Keeps W s0 (@planHeld s) := by
  unfold planHeld
  repeat' first
    | with_reducible assumption | exact sub_trans rfl hW | with_reducible apply keeps_raise | with_reducible apply keeps_setF

theorem keeps_planOutputs (hW : sub 6357250 W = true) (h : Keeps W s0 s) : Keeps W s0 (@planOutputs s) := by
  unfold planOutputs
  repeat' first
    | with_reducible assumption | intro _ | lift_lets | exact sub_trans rfl hW | with_reducible apply keeps_driveAvs
    | with_reducible apply keeps_whenS | with_reducible apply keeps_raise | with_reducible apply keeps_bump
    | with_reducible apply keeps_setF | with_reducible apply keeps_ite | with_reducible refine keeps_up_mon (sub_bit rfl hW) ?_
    | intro _

theorem keeps_planRequests (hW : sub 16120258 W = true) (h : Keeps W s0 s) : Keeps W s0 (@planRequests s) := by
  unfold planRequests
  repeat' first
    | with_reducible assumption | intro _ | lift_lets | with_reducible apply keeps_planNext | with_reducible apply keeps_ite
    | split | with_reducible refine keeps_up_mon (sub_bit rfl hW) ?_ | intro _

theorem keeps_execMarginPlan (hW : sub 16120258 W = true) (h : Keeps W s0 s) : KeepsOut W s0 (@execMarginPlan s) := by
  unfold execMarginPlan
  repeat' first
    | with_reducible assumption | exact sub_trans rfl hW | with_reducible apply keeps_planRequests
    | with_reducible apply keeps_planOutputs | with_reducible apply keeps_planHeld | with_reducible apply keeps_ran
    | with_reducible apply keeps_State_begin | with_reducible apply keeps_ite
    | with_reducible refine keeps_up_mon (sub_bit rfl hW) ?_

theorem keeps_execAvsReadbackCheck {a1 a2} (hW : sub 4260098 W = true) (h : Keeps W s0 s) : KeepsOut W s0 (@execAvsReadbackCheck a1 a2 s) := by
  unfold execAvsReadbackCheck
  repeat' first
    | with_reducible assumption | exact sub_trans rfl hW | with_reducible apply keeps_planHeld | with_reducible apply keeps_ran
    | with_reducible apply keeps_whenS | with_reducible apply keeps_State_begin | with_reducible apply keeps_emit
    | with_reducible apply keeps_raise | with_reducible apply keeps_ite
    | with_reducible refine keeps_up_mon (sub_bit rfl hW) ?_ | intro _

theorem keeps_writeAvs {a1} (hW : sub 6356994 W = true) (h : Keeps W s0 s) : Keeps W s0 (@writeAvs a1 s) := by
  unfold writeAvs
  repeat' first
    | with_reducible assumption | exact sub_trans rfl hW | with_reducible apply keeps_driveAvs
    | with_reducible apply keeps_whenS | with_reducible apply keeps_emit | with_reducible apply keeps_setF
    | with_reducible apply keeps_ite | intro _

theorem keeps_execAvsCodeWrite {a1 a2} (hW : sub 6357250 W = true) (h : Keeps W s0 s) : KeepsOut W s0 (@execAvsCodeWrite a1 a2 s) := by
  unfold execAvsCodeWrite
  repeat' first
    | with_reducible assumption | exact sub_trans rfl hW | with_reducible apply keeps_writeAvs
    | with_reducible apply keeps_writeAt | with_reducible apply keeps_ran | with_reducible apply keeps_State_begin | intro _

theorem keeps_orFree {a1} (hW : sub 8388608 W = true) (h : Keeps W s0 s) : KeepsP W s0 (@orFree a1 s) := by
  unfold orFree
  repeat' first
    | with_reducible assumption | with_reducible apply keeps_drawInt | split | with_reducible apply keepsP_mk

theorem keeps_logWords {a1 a2} (hW : sub 8388608 W = true) (h : Keeps W s0 s) : KeepsP W s0 (@logWords a1 a2 s) := by
  unfold logWords
  repeat' first
    | with_reducible assumption | intro _ | lift_lets | with_reducible apply keeps_orFree
    | with_reducible refine keeps_snd (keeps_orFree (sub_trans rfl hW) ?_) | split | with_reducible apply keepsP_mk
    | with_reducible refine keeps_pair (by assumption) ?_ | intro _

theorem keeps_writeLog {a1 a2 a3 a4} (hW : sub 8454530 W = true) (h : Keeps W s0 s) : Keeps W s0 (@writeLog a1 a2 a3 a4 s) := by
  unfold writeLog
  repeat' first
    | with_reducible assumption | exact sub_trans rfl hW
    | with_reducible refine keeps_snd (keeps_logWords (sub_trans rfl hW) ?_) | with_reducible apply keeps_logBegin
    | with_reducible apply keeps_drawInt | with_reducible apply keeps_raise | with_reducible apply keeps_setF
    | with_reducible apply keeps_foldl | with_reducible apply keeps_ite | split
    | with_reducible refine keeps_pair (by assumption) ?_ | with_reducible refine keeps_up_mon (sub_bit rfl hW) ?_ | intro _

theorem keeps_xoFit (hW : sub 386 W = true) (h : Keeps W s0 s) : Keeps W s0 (@xoFit s) := by
  unfold xoFit
  repeat' first
    | with_reducible assumption | exact sub_trans rfl hW | with_reducible apply keeps_writeXoCorr
    | with_reducible apply keeps_raise | with_reducible apply keeps_setF | with_reducible apply keeps_ite

theorem keeps_execAgeingLogShort {a1 a2 a3} (hW : sub 12648834 W = true) (h : Keeps W s0 s) : KeepsOut W s0 (@execAgeingLogShort a1 a2 a3 s) := by
  unfold execAgeingLogShort
  repeat' first
    | with_reducible assumption | exact sub_trans rfl hW | with_reducible apply keeps_xoFit
    | with_reducible apply keeps_writeLog | with_reducible apply keeps_ran | with_reducible apply keeps_State_begin
    | with_reducible apply keeps_ite

theorem keeps_execAgeingLogLong {a1 a2 a3} (hW : sub 12648834 W = true) (h : Keeps W s0 s) : KeepsOut W s0 (@execAgeingLogLong a1 a2 a3 s) := by
  unfold execAgeingLogLong
  repeat' first
    | with_reducible assumption | exact sub_trans rfl hW | with_reducible apply keeps_writeLog | with_reducible apply keeps_ran
    | with_reducible apply keeps_State_begin | with_reducible apply keeps_ite

theorem keeps_timeEff {a1 a2 a3 a4 a6} (hW : sub 258 W = true) (h : Keeps W s0 s) (h4 : ∀ x0 t, Keeps W s0 t → Keeps W s0 (a4 x0 t)) : Keeps W s0 (@timeEff a1 a2 a3 a4 s a6) := by
  unfold timeEff
  repeat' first
    | with_reducible assumption | with_reducible apply h4 | with_reducible apply keeps_raise | with_reducible apply keeps_ite

theorem keeps_effSafe {a1 a2} (hW : sub 16777214 W = true) (h : Keeps W s0 s) : Keeps W s0 (@effSafe a1 a2 s) := by
  unfold effSafe
  repeat' first
    | with_reducible assumption | exact sub_trans rfl hW | with_reducible apply keeps_writeFltCtl
    | with_reducible apply keeps_writeAck | with_reducible apply keeps_writeForce | with_reducible apply keeps_writeSrcMap
    | with_reducible apply keeps_writeRstReq | with_reducible apply keeps_softWord | split
    | with_reducible refine keeps_up_sys (sub_bit rfl hW) ?_

theorem keeps_effHost {a1 a2 a3} (hW : sub 6496514 W = true) (h : Keeps W s0 s) : Keeps W s0 (@effHost a1 a2 a3 s) := by
  unfold effHost
  repeat' first
    | with_reducible assumption | exact sub_trans rfl hW | with_reducible apply keeps_armWord
    | with_reducible apply keeps_writeRingCtl | with_reducible apply keeps_writeRingCfg
    | with_reducible apply keeps_writeFwtCtl | with_reducible apply keeps_softWord | with_reducible apply keeps_ite | split

theorem keeps_effTim {a1 a2 a3} (hW : sub 466 W = true) (h : Keeps W s0 s) : Keeps W s0 (@effTim a1 a2 a3 s) := by
  unfold effTim
  repeat' first
    | with_reducible assumption | exact sub_trans rfl hW | with_reducible apply keeps_timeEff
    | with_reducible apply keeps_timedSwitch | with_reducible apply keeps_writeTimCtl | with_reducible apply keeps_writeSlewCfg
    | with_reducible apply keeps_activityCheck | with_reducible apply keeps_softWord | with_reducible apply keeps_weltSettings
    | with_reducible apply keeps_requestStep | with_reducible apply keeps_addSlew | with_reducible apply keeps_stageWord
    | with_reducible apply keeps_setT96 | split | intro _

theorem keeps_effTsu {a1 a2 a3} (hW : sub 4197826 W = true) (h : Keeps W s0 s) : Keeps W s0 (@effTsu a1 a2 a3 s) := by
  unfold effTsu
  repeat' first
    | with_reducible assumption | exact sub_trans rfl hW | with_reducible apply keeps_forceAll
    | with_reducible apply keeps_setCalPend | with_reducible apply keeps_softWord | split

theorem keeps_effPte {a1 a2 a3 a4} (hW : sub 4196818 W = true) (h : Keeps W s0 s) : Keeps W s0 (@effPte a1 a2 a3 a4 s) := by
  unfold effPte
  repeat' first
    | with_reducible assumption | exact sub_trans rfl hW | with_reducible apply keeps_writePtePortCfg
    | with_reducible apply keeps_writePortState | with_reducible apply keeps_writeMap | with_reducible apply keeps_setPteInst
    | with_reducible apply keeps_softWord | with_reducible apply keeps_stageWord | split

theorem keeps_effRef {a1 a2 a3} (hW : sub 466 W = true) (h : Keeps W s0 s) : Keeps W s0 (@effRef a1 a2 a3 s) := by
  unfold effRef
  repeat' first
    | with_reducible assumption | exact sub_trans rfl hW | with_reducible apply keeps_writeSynceBind
    | with_reducible apply keeps_writeCandPeriod | with_reducible apply keeps_writeCandCfg
    | with_reducible apply keeps_warmUpdate | with_reducible apply keeps_writeXoCorr | with_reducible apply keeps_olPhase
    | with_reducible apply keeps_olFreq | with_reducible apply keeps_writeDpllCtl | with_reducible apply keeps_writeDpllCfg
    | with_reducible apply keeps_writeRefCommit | with_reducible apply keeps_writeCandMon
    | with_reducible apply keeps_candSample | with_reducible apply keeps_softWord | with_reducible apply keeps_bwCheckAll
    | with_reducible apply keeps_rateCheck | with_reducible apply keeps_stageWord | with_reducible apply keeps_ite | split

theorem keeps_synTwin {a1 a2} (hW : sub 2 W = true) (h : Keeps W s0 s) : Keeps W s0 (@synTwin a1 a2 s) := by
  unfold synTwin
  repeat' first
    | with_reducible assumption | with_reducible apply keeps_softWord | with_reducible apply keeps_setF
    | with_reducible apply keeps_ite

theorem keeps_effSyn {a1 a2 a3} (hW : sub 13107602 W = true) (h : Keeps W s0 s) : Keeps W s0 (@effSyn a1 a2 a3 s) := by
  unfold effSyn
  repeat' first
    | with_reducible assumption | exact sub_trans rfl hW | with_reducible apply keeps_synTwin
    | with_reducible apply keeps_timeEff | with_reducible apply keeps_writeTodCfg | with_reducible apply keeps_writeOutDelay
    | with_reducible apply keeps_synCommit | with_reducible apply keeps_writeOutCtl | with_reducible apply keeps_softWord
    | with_reducible apply keeps_stageWord | with_reducible apply keeps_setT96 | with_reducible apply keeps_ite | split
    | intro _

theorem keeps_effTdc {a1 a2} (hW : sub 1114562 W = true) (h : Keeps W s0 s) : Keeps W s0 (@effTdc a1 a2 s) := by
  unfold effTdc
  repeat' first
    | with_reducible assumption | exact sub_trans rfl hW | with_reducible apply keeps_writeProbeSel
    | with_reducible apply keeps_writePresc | with_reducible apply keeps_writeChCfg2 | with_reducible apply keeps_writeTdcCfg
    | with_reducible apply keeps_writeChCfg | with_reducible apply keeps_lockedWrite | with_reducible apply keeps_commitTable
    | with_reducible apply keeps_refillAsk | with_reducible apply keeps_softWord | with_reducible apply keeps_foldl
    | with_reducible apply keeps_ite | split | with_reducible refine keeps_up_tdc (sub_bit rfl hW) ?_ | intro _

theorem keeps_effLnk {a1 a2 a3} (hW : sub 16251874 W = true) (h : Keeps W s0 s) : Keeps W s0 (@effLnk a1 a2 a3 s) := by
  unfold effLnk
  repeat' first
    | with_reducible assumption | exact sub_trans rfl hW | with_reducible apply keeps_writeRecal
    | with_reducible apply keeps_writeTxeq | with_reducible apply keeps_writeLaneCfg | with_reducible apply keeps_lnkCommit
    | with_reducible apply keeps_softWord | with_reducible apply keeps_setF | with_reducible apply keeps_ite | split

theorem keeps_effIng {a1 a2 a3} (hW : sub 2167042 W = true) (h : Keeps W s0 s) : Keeps W s0 (@effIng a1 a2 a3 s) := by
  unfold effIng
  repeat' first
    | with_reducible assumption | exact sub_trans rfl hW | with_reducible apply keeps_writeGateCommit
    | with_reducible apply keeps_writeIngTbl | with_reducible apply keeps_softWord | split

theorem keeps_effBuf {a1 a2 a3} (hW : sub 8450 W = true) (h : Keeps W s0 s) : Keeps W s0 (@effBuf a1 a2 a3 s) := by
  unfold effBuf
  repeat' first
    | with_reducible assumption | exact sub_trans rfl hW | with_reducible apply keeps_admCommit
    | with_reducible apply keeps_softWord | with_reducible apply keeps_ite | split
    | with_reducible refine keeps_up_buf (sub_bit rfl hW) ?_

theorem keeps_effGate {a1 a2 a3 a4} (hW : sub 2113810 W = true) (h : Keeps W s0 s) : Keeps W s0 (@effGate a1 a2 a3 a4 s) := by
  unfold effGate
  repeat' first
    | with_reducible assumption | exact sub_trans rfl hW | with_reducible apply keeps_timeEff
    | with_reducible apply keeps_writeGateCtl | with_reducible apply keeps_writeGateCfg | with_reducible apply keeps_mmRestart
    | with_reducible apply keeps_softWord | with_reducible apply keeps_stageWord | with_reducible apply keeps_raise
    | with_reducible apply keeps_setT96 | with_reducible apply keeps_ite | split | intro _

theorem keeps_effEgr {a1 a2 a3 a4} (hW : sub 2179346 W = true) (h : Keeps W s0 s) : Keeps W s0 (@effEgr a1 a2 a3 a4 s) := by
  unfold effEgr
  repeat' first
    | with_reducible assumption | intro _ | lift_lets | exact sub_trans rfl hW | with_reducible apply keeps_effGate
    | with_reducible apply keeps_writeEgrTbl | with_reducible apply keeps_frontOnly | with_reducible apply keeps_writeClsCfg
    | with_reducible apply keeps_writeBurst | with_reducible apply keeps_shaperTouch | with_reducible apply keeps_softWord
    | with_reducible apply keeps_setF | with_reducible apply keeps_id | with_reducible apply keeps_ite | split | intro _

theorem keeps_orEvents (hW : sub 2 W = true) (h : Keeps W s0 s) : Keeps W s0 (@orEvents s) := by
  unfold orEvents
  repeat' first
    | with_reducible assumption | with_reducible apply keeps_setFlag | with_reducible apply keeps_foldl | intro _

theorem keeps_effRed {a1 a2 a3} (hW : sub 2220290 W = true) (h : Keeps W s0 s) : Keeps W s0 (@effRed a1 a2 a3 s) := by
  unfold effRed
  repeat' first
    | with_reducible assumption | exact sub_trans rfl hW | with_reducible apply keeps_orEvents
    | with_reducible apply keeps_writeFnCfg | with_reducible apply keeps_pathsCheck | with_reducible apply keeps_fnResetWrite
    | with_reducible apply keeps_softWord | with_reducible apply keeps_whenS | with_reducible apply keeps_foldl | split
    | intro _

theorem keeps_effMon {a1 a2 a3} (hW : sub 6356994 W = true) (h : Keeps W s0 s) : Keeps W s0 (@effMon a1 a2 a3 s) := by
  unfold effMon
  repeat' first
    | with_reducible assumption | exact sub_trans rfl hW | with_reducible apply keeps_writeAvs
    | with_reducible apply keeps_writeHistCfg | with_reducible apply keeps_writeBwCfg | with_reducible apply keeps_writeCntCtl
    | with_reducible apply keeps_writeCntCfg | with_reducible apply keeps_injectSettle | with_reducible apply keeps_softWord
    | with_reducible apply keeps_ite | split

theorem keeps_effect {a1 a2 a3 a4} (hW : sub 16777214 W = true) (h : Keeps W s0 s) : Keeps W s0 (@effect a1 a2 a3 a4 s) := by
  unfold effect
  repeat' first
    | with_reducible assumption | exact sub_trans rfl hW | with_reducible apply keeps_effMon
    | with_reducible apply keeps_effRed | with_reducible apply keeps_effEgr | with_reducible apply keeps_effBuf
    | with_reducible apply keeps_effIng | with_reducible apply keeps_effLnk | with_reducible apply keeps_effTdc
    | with_reducible apply keeps_effSyn | with_reducible apply keeps_effRef | with_reducible apply keeps_effPte
    | with_reducible apply keeps_effTsu | with_reducible apply keeps_effTim | with_reducible apply keeps_effHost
    | with_reducible apply keeps_effSafe | split

theorem keeps_selWrite {a1 a2 a3} (hW : sub 262 W = true) (h : Keeps W s0 s) : Keeps W s0 (@selWrite a1 a2 a3 s) := by
  unfold selWrite
  repeat' first
    | with_reducible assumption | exact sub_trans rfl hW | with_reducible apply keeps_raise | with_reducible apply keeps_ite
    | with_reducible refine keeps_up_sels (sub_bit rfl hW) ?_

theorem keeps_busWrite {a1 a2 a3} (hW : sub 16777214 W = true) (h : Keeps W s0 s) : Keeps W s0 (@busWrite a1 a2 a3 s) := by
  unfold busWrite
  repeat' first
    | with_reducible assumption | exact sub_trans rfl hW | with_reducible apply keeps_selWrite
    | with_reducible apply keeps_effect | with_reducible apply keeps_writeAt | with_reducible apply keeps_ite | intro _

theorem keeps_sizedWrite {a1 a2 a3 a4} (hW : sub 16777214 W = true) (h : Keeps W s0 s) : Keeps W s0 (@sizedWrite a1 a2 a3 a4 s) := by
  unfold sizedWrite
  repeat' first
    | with_reducible assumption | exact sub_trans rfl hW | with_reducible apply keeps_busWrite
    | with_reducible apply keeps_raise | with_reducible apply keeps_ite

theorem keeps_lineAdd {a1 a2} (hW : sub 8388610 W = true) (h : Keeps W s0 s) : Keeps W s0 (@lineAdd a1 a2 s) := by
  unfold lineAdd
  repeat' first
    | with_reducible assumption | exact sub_trans rfl hW
    | with_reducible refine keeps_snd (keeps_drawInt (sub_trans rfl hW) ?_) | with_reducible apply keeps_bump

theorem keeps_lineCount {a1 a2} (hW : sub 8388866 W = true) (h : Keeps W s0 s) : Keeps W s0 (@lineCount a1 a2 s) := by
  unfold lineCount
  repeat' first
    | with_reducible assumption | exact sub_trans rfl hW | with_reducible apply keeps_lineAdd
    | with_reducible apply keeps_cntAdd | with_reducible apply keeps_whenS
    | with_reducible refine keeps_snd (keeps_drawInt (sub_trans rfl hW) ?_) | with_reducible apply keeps_ite | split | intro _

theorem keeps_readWord {a1 a2 a3} (hW : sub 8405258 W = true) (h : Keeps W s0 s) : KeepsP W s0 (@readWord a1 a2 a3 s) := by
  unfold readWord
  repeat' first
    | with_reducible assumption | exact sub_trans rfl hW | with_reducible apply keeps_lineCount
    | with_reducible apply keeps_readPeak | with_reducible apply keeps_readLap | with_reducible apply keeps_bump
    | with_reducible apply keepsP_ite | split | with_reducible apply keepsP_mk
    | with_reducible refine keeps_up_caps (sub_bit rfl hW) ?_

theorem keeps_busRead {a1 a2} (hW : sub 8405258 W = true) (h : Keeps W s0 s) : KeepsP W s0 (@busRead a1 a2 s) := by
  unfold busRead
  repeat' first
    | with_reducible assumption | exact sub_trans rfl hW
    | with_reducible refine keeps_snd (keeps_readWord (sub_trans rfl hW) ?_) | with_reducible apply keeps_gateEvent
    | with_reducible apply keeps_raise | with_reducible apply keepsP_ite | split | with_reducible apply keepsP_mk

theorem keeps_execRegisterWrite {a1 a2 a3 a4} (hW : sub 16777214 W = true) (h : Keeps W s0 s) : KeepsOut W s0 (@execRegisterWrite a1 a2 a3 a4 s) := by
  unfold execRegisterWrite
  repeat' first
    | with_reducible assumption | exact sub_trans rfl hW | with_reducible apply keeps_sizedWrite
    | with_reducible apply keeps_ran | with_reducible apply keeps_State_begin

theorem keeps_execSelectWrite {a1 a2 a3} (hW : sub 16777214 W = true) (h : Keeps W s0 s) : KeepsOut W s0 (@execSelectWrite a1 a2 a3 s) := by
  unfold execSelectWrite
  repeat' first
    | with_reducible assumption | exact sub_trans rfl hW | with_reducible apply keeps_busWrite | with_reducible apply keeps_ran
    | with_reducible apply keeps_State_begin

theorem keeps_execCaptureRead {a1 a2} (hW : sub 12599562 W = true) (h : Keeps W s0 s) : KeepsOut W s0 (@execCaptureRead a1 a2 s) := by
  unfold execCaptureRead
  repeat' first
    | with_reducible assumption | exact sub_trans rfl hW
    | with_reducible refine keeps_snd (keeps_busRead (sub_trans rfl hW) ?_) | with_reducible apply keeps_ran
    | with_reducible apply keeps_State_begin | with_reducible apply keeps_emit

theorem keeps_execTimeWriteCommit {a1 a2 a3} (hW : sub 16777214 W = true) (h : Keeps W s0 s) : KeepsOut W s0 (@execTimeWriteCommit a1 a2 a3 s) := by
  unfold execTimeWriteCommit
  repeat' first
    | with_reducible assumption | exact sub_trans rfl hW | with_reducible apply keeps_busWrite | with_reducible apply keeps_ran
    | with_reducible apply keeps_State_begin

theorem keeps_execI2cWrite {a1 a2 a3 a4} (hW : sub 16777214 W = true) (h : Keeps W s0 s) : KeepsOut W s0 (@execI2cWrite a1 a2 a3 a4 s) := by
  unfold execI2cWrite
  repeat' first
    | with_reducible assumption | exact sub_trans rfl hW | with_reducible apply keeps_sizedWrite
    | with_reducible apply keeps_ran | with_reducible apply keeps_State_begin | with_reducible apply keeps_emit
    | with_reducible apply keeps_raise | with_reducible apply keeps_ite

theorem keeps_i2cWords {off n} (hW : sub 8405258 W = true) (h : Keeps W s0 s) : KeepsP W s0 (i2cWords off n s) := by
  induction n generalizing s off with
  | zero => exact h
  | succ n ih =>
    unfold i2cWords
    split
    rename_i e
    have hw := keeps_pair e (keeps_busRead (sub_trans rfl hW) h)
    split
    rename_i e
    exact keepsP_mk (keeps_pair e (ih hw))

theorem keeps_execI2cRead {a1 a2 a3} (hW : sub 12599562 W = true) (h : Keeps W s0 s) : KeepsOut W s0 (@execI2cRead a1 a2 a3 s) := by
  unfold execI2cRead
  repeat' first
    | with_reducible assumption | exact sub_trans rfl hW
    | with_reducible refine keeps_snd (keeps_i2cWords (sub_trans rfl hW) ?_) | with_reducible apply keeps_ran
    | with_reducible apply keeps_State_begin | with_reducible apply keeps_emit | with_reducible apply keeps_ite

theorem keeps_execI2cTimeout (hW : sub 4194562 W = true) (h : Keeps W s0 s) : KeepsOut W s0 (@execI2cTimeout s) := by
  unfold execI2cTimeout
  repeat' first
    | with_reducible assumption | exact sub_trans rfl hW | with_reducible apply keeps_ran
    | with_reducible apply keeps_State_begin | with_reducible apply keeps_raise | with_reducible apply keeps_ite

theorem keeps_writeRun {off l} (hW : sub 16777214 W = true) (h : Keeps W s0 s) : Keeps W s0 (writeRun off l s) := by
  induction l generalizing s off with
  | nil => exact h
  | cons v l ih => exact ih (keeps_busWrite (sub_trans rfl hW) h)

theorem keeps_writeTblRun {a1 a2 a3 a4 a5 a6} (hW : sub 86274 W = true) (h : Keeps W s0 s) : Keeps W s0 (@writeTblRun a1 a2 a3 a4 a5 a6 s) := by
  unfold writeTblRun
  repeat' first
    | with_reducible assumption | with_reducible refine keeps_snd2 (keeps_writeEntries (sub_trans rfl hW) ?_)
    | with_reducible apply keeps_ite

theorem keeps_runRecs {b a k ws} (hW : sub 16777214 W = true) (h : Keeps W s0 s) : KeepsP2 W s0 (runRecs b a k ws s) := by
  induction k generalizing s ws with
  | zero => exact h
  | succ k ih =>
    cases ws with
    | nil => exact h
    | cons w r =>
      unfold runRecs
      simp only []
      split
      · exact ih (keeps_writeRun (sub_trans rfl hW) h)
      · exact ih (keeps_writeRun (sub_trans rfl hW) h)
      · exact ih (keeps_writeTblRun (sub_trans rfl hW) h)
      · have hw := keeps_snd (keeps_busRead (a1 := .mcu) (a2 := w % 2 ^ 20 / 4 * 4) (sub_trans rfl hW) h)
        exact keepsP2_ite (ih hw) (keepsP2_mk hw)
      · refine keepsP2_ite (ih h) ?_
        split
        · exact ih h
        · exact keepsP2_ite (keepsP2_mk (keeps_snd2 (ih h))) (keepsP2_mk h)
      · exact h

theorem keeps_execProfileResetApply (hW : sub 16777214 W = true) (h : Keeps W s0 s) : KeepsOut W s0 (@execProfileResetApply s) := by
  unfold execProfileResetApply
  repeat' first
    | with_reducible assumption | exact sub_trans rfl hW
    | with_reducible refine keeps_snd2 (keeps_runRecs (sub_trans rfl hW) ?_) | with_reducible apply keeps_bootFinish
    | with_reducible apply keeps_profileEnds | with_reducible apply keeps_ran | with_reducible apply keeps_State_begin
    | with_reducible apply keeps_ite | split | with_reducible refine keeps_up_sys (sub_bit rfl hW) ?_

theorem keeps_runEnds {a1 a2 a3} (hW : sub 6422786 W = true) (h : Keeps W s0 s) : Keeps W s0 (@runEnds a1 a2 a3 s) := by
  unfold runEnds
  repeat' first
    | with_reducible assumption | exact sub_trans rfl hW | with_reducible apply keeps_complete
    | with_reducible refine keeps_up_sys (sub_bit rfl hW) ?_

theorem keeps_runGoes {a1} (hW : sub 16777214 W = true) (h : Keeps W s0 s) : Keeps W s0 (@runGoes a1 s) := by
  unfold runGoes
  repeat' first
    | with_reducible assumption | exact sub_trans rfl hW | with_reducible apply keeps_runEnds
    | with_reducible refine keeps_snd2 (keeps_runRecs (sub_trans rfl hW) ?_) | with_reducible apply keeps_ite | split
    | with_reducible refine keeps_up_sys (sub_bit rfl hW) ?_

theorem keeps_execProfileApply {a1 a2} (hW : sub 16777214 W = true) (h : Keeps W s0 s) : KeepsOut W s0 (@execProfileApply a1 a2 s) := by
  unfold execProfileApply
  repeat' first
    | with_reducible assumption | intro _ | lift_lets | exact sub_trans rfl hW | with_reducible apply keeps_runEnds
    | with_reducible refine keeps_snd2 (keeps_runRecs (sub_trans rfl hW) ?_) | with_reducible apply keeps_onMcu
    | with_reducible apply keeps_finish | with_reducible apply keeps_extend | with_reducible apply keeps_setF
    | with_reducible apply keeps_ite | split | with_reducible refine keeps_up_sys (sub_bit rfl hW) ?_ | intro _

theorem keeps_execProfileTimedApply (hW : sub 16777214 W = true) (h : Keeps W s0 s) : KeepsOut W s0 (@execProfileTimedApply s) := by
  unfold execProfileTimedApply
  repeat' first
    | with_reducible assumption | exact sub_trans rfl hW | with_reducible apply keeps_runGoes | with_reducible apply keeps_ran
    | with_reducible apply keeps_State_begin | with_reducible apply keeps_ite | split

theorem keeps_execProfileWaitTimeout (hW : sub 6488450 W = true) (h : Keeps W s0 s) : KeepsOut W s0 (@execProfileWaitTimeout s) := by
  unfold execProfileWaitTimeout
  repeat' first
    | with_reducible assumption | exact sub_trans rfl hW | with_reducible apply keeps_runEnds
    | with_reducible apply keeps_bootFinish | with_reducible apply keeps_profileEnds | with_reducible apply keeps_ran
    | with_reducible apply keeps_State_begin | with_reducible apply keeps_raise | with_reducible apply keeps_setF
    | with_reducible apply keeps_ite | split

theorem keeps_refStepped {a1} (hW : sub 128 W = true) (h : Keeps W s0 s) : Keeps W s0 (@refStepped a1 s) := by
  unfold refStepped
  repeat' first
    | with_reducible assumption | with_reducible refine keeps_up_ref (sub_bit rfl hW) ?_

theorem keeps_shiftAll {a1} (hW : sub 4192962 W = true) (h : Keeps W s0 s) : Keeps W s0 (@shiftAll a1 s) := by
  unfold shiftAll
  repeat' first
    | with_reducible assumption | exact sub_trans rfl hW
    | (with_reducible apply Same.mk <;> first | exact off rfl hW | exact fun _ => rfl) | with_reducible apply keeps_refStepped
    | with_reducible apply keeps_setAligned | with_reducible apply keeps_setFlag | with_reducible apply keeps_foldl
    | with_reducible refine keeps_mk ?_ rfl rfl rfl ?_ | intro _

theorem keeps_adoptZero (hW : sub 192 W = true) (h : Keeps W s0 s) : Keeps W s0 (@adoptZero s) := by
  unfold adoptZero
  repeat' first
    | with_reducible assumption | exact sub_trans rfl hW | with_reducible apply keeps_setDpll
    | with_reducible refine keeps_up_tim (sub_bit rfl hW) rfl ?_

theorem keeps_realignZero (hW : sub 386 W = true) (h : Keeps W s0 s) : Keeps W s0 (@realignZero s) := by
  unfold realignZero
  repeat' first
    | with_reducible assumption | exact sub_trans rfl hW | with_reducible apply keeps_setDpll
    | with_reducible apply keeps_raise | with_reducible apply keeps_ite

theorem keeps_heldAdoptStep (hW : sub 64 W = true) (h : Keeps W s0 s) : Keeps W s0 (@heldAdoptStep s) := by
  unfold heldAdoptStep
  repeat' first
    | with_reducible assumption | with_reducible apply keeps_ite | with_reducible refine keeps_up_tim (sub_bit rfl hW) rfl ?_

theorem keeps_stepLast {q a} (hW : sub 64 W = true) (h : Keeps W s0 s) : Keeps W s0 (stepLast q a s) := by
  unfold stepLast
  refine keeps_mkLast h rfl rfl (fun hl => ?_) (by constructor <;> first | exact off rfl hW | exact fun _ => rfl)
  show Last.ok _
  split
  · exact ok_ofUnits (by decide)
  · exact ok_ofUnits hl.2.2.2

theorem keeps_applyStep {a1} (hW : sub 4193218 W = true) (h : Keeps W s0 s) : Keeps W s0 (@applyStep a1 s) := by
  unfold applyStep
  repeat' first
    | with_reducible assumption | exact sub_trans rfl hW | with_reducible apply keeps_stepLast
    | with_reducible apply keeps_heldAdoptStep | with_reducible apply keeps_realignZero | with_reducible apply keeps_adoptZero
    | with_reducible apply keeps_shiftAll | with_reducible apply keeps_timedSwitch | with_reducible apply keeps_whenS
    | with_reducible apply keeps_raise | intro _

theorem keeps_execStepApply (hW : sub 8387522 W = true) (h : Keeps W s0 s) : KeepsOut W s0 (@execStepApply s) := by
  unfold execStepApply
  repeat' first
    | with_reducible assumption | exact sub_trans rfl hW | with_reducible apply keeps_applyStep
    | with_reducible apply keeps_ran | with_reducible apply keeps_State_begin | with_reducible apply keeps_ite | split

end Sys2Proof.Machine
end

