-- ==== Sys2Proof/Laws/Frames.lean ====
section
/-! SUPPORT. From what an operation keeps (Keeps.lean) to the parts a command writes (Safety.lean). -/

namespace Sys2Proof.Machine

variable {s t : State}

/-- Every field of the mask `W` is a part of `w`: bit 1 is `regs`, bit 23 `fresh`. -/
def masked (w : List Part) (W : Nat) : Bool :=
  (Part.all.zipIdx 1).all fun x => w.contains x.1 || !W.testBit x.2

theorem masked_bit {w : List Part} {W : Nat} (h : masked w W = true) (p : Part) (hp : p ∉ w) {k : Nat}
    (hk : (Part.all.zipIdx 1).contains (p, k) = true) : W.testBit k = false := by
  have := List.all_eq_true.mp h (p, k) (by simpa using hk)
  simpa [hp] using this

theorem onlyWrites_of_keeps {W : Nat} {w : List Part} (h : Keeps W s t) (hw : masked w W = true) : onlyWrites w s t := by
  refine ⟨h.queue, fun p hp => ?_⟩
  cases p
  · exact h.same.regs (masked_bit hw _ hp rfl)
  · exact h.same.sels (masked_bit hw _ hp rfl)
  · exact h.same.caps (masked_bit hw _ hp rfl)
  · exact h.same.staged (masked_bit hw _ hp rfl)
  · exact h.same.xings (masked_bit hw _ hp rfl)
  · exact h.same.tim (masked_bit hw _ hp rfl)
  · exact h.same.ref (masked_bit hw _ hp rfl)
  · exact h.same.flt (masked_bit hw _ hp rfl)
  · exact h.same.tallies (masked_bit hw _ hp rfl)
  · exact h.same.calPends (masked_bit hw _ hp rfl)
  · exact h.same.pte (masked_bit hw _ hp rfl)
  · exact h.same.ing (masked_bit hw _ hp rfl)
  · exact h.same.buf (masked_bit hw _ hp rfl)
  · exact h.same.egr (masked_bit hw _ hp rfl)
  · exact h.same.red (masked_bit hw _ hp rfl)
  · exact h.same.mon (masked_bit hw _ hp rfl)
  · exact h.same.hif (masked_bit hw _ hp rfl)
  · exact h.same.lnk (masked_bit hw _ hp rfl)
  · exact h.same.syn (masked_bit hw _ hp rfl)
  · exact h.same.tdc (masked_bit hw _ hp rfl)
  · exact h.same.sys (masked_bit hw _ hp rfl)
  · exact h.same.outs (masked_bit hw _ hp rfl)
  · exact h.same.fresh (masked_bit hw _ hp rfl)

/-- The form in which a prover takes one command's frame from its `keeps_exec…` lemma. -/
theorem onlyWrites_next {W : Nat} {w : List Part} {o : Host.Outcome State Fault Refusal} (h : KeepsOut W s o) (e : o = .next t)
    (hw : masked w W = true) : onlyWrites w s t :=
  onlyWrites_of_keeps (h.next t e) hw

end Sys2Proof.Machine
end

