-- ==== Sys2Proof/Laws/State.lean ====
section
/-! SUPPORT. The small lemmas about State: what each update of one part leaves of every other part, and what a read of a
register field gives after a write of one, so that no later proof unfolds a record update. -/

namespace Sys2Proof.Machine

variable {s : State} {f g : Fld} {i j v n : Nat}

/-! ### Register fields -/

/-- A write of a field is read back at its width. -/
@[simp] theorem getF_setF_same : getF (setF f v s i) f i = v % 2 ^ f.w := smGet_smPut_same _ _ _ _

/-- A write of a field leaves every field of another place. -/
theorem getF_setF_ne (h : g.key j ≠ f.key i) : getF (setF f v s i) g j = getF s g j := smGet_smPut_other _ _ _ _ _ _ h

/-- A read after a write, in one equation. -/
theorem getF_setF : getF (setF f v s i) g j =
    if g.key j = f.key i then smGet (keyReset (g.key j)) (smPut (keyReset (f.key i)) s.regs (f.key i) (v % 2 ^ f.w)) (g.key j)
    else getF s g j := by
  split
  · rfl
  · rename_i h; exact getF_setF_ne h

/-- An untouched register file reads the same. -/
theorem getF_congr {t : State} (h : t.regs = s.regs) : getF t f i = getF s f i := by simp only [getF, h]

theorem flag_congr {t : State} (h : t.regs = s.regs) : flag t f i = flag s f i := by simp only [flag, getF, h]

/-! ### One part updated -/

@[simp] theorem getF_with_pending {x} : getF { s with pending := x } f i = getF s f i := rfl
@[simp] theorem flag_with_pending {x} : flag { s with pending := x } f i = flag s f i := rfl
@[simp] theorem getF_with_sels {x} : getF { s with sels := x } f i = getF s f i := rfl
@[simp] theorem flag_with_sels {x} : flag { s with sels := x } f i = flag s f i := rfl
@[simp] theorem getF_with_caps {x} : getF { s with caps := x } f i = getF s f i := rfl
@[simp] theorem flag_with_caps {x} : flag { s with caps := x } f i = flag s f i := rfl
@[simp] theorem getF_with_staged {x} : getF { s with staged := x } f i = getF s f i := rfl
@[simp] theorem flag_with_staged {x} : flag { s with staged := x } f i = flag s f i := rfl
@[simp] theorem getF_with_xings {x} : getF { s with xings := x } f i = getF s f i := rfl
@[simp] theorem flag_with_xings {x} : flag { s with xings := x } f i = flag s f i := rfl
@[simp] theorem getF_with_tim {x} : getF { s with tim := x } f i = getF s f i := rfl
@[simp] theorem flag_with_tim {x} : flag { s with tim := x } f i = flag s f i := rfl
@[simp] theorem getF_with_ref {x} : getF { s with ref := x } f i = getF s f i := rfl
@[simp] theorem flag_with_ref {x} : flag { s with ref := x } f i = flag s f i := rfl
@[simp] theorem getF_with_flt {x} : getF { s with flt := x } f i = getF s f i := rfl
@[simp] theorem flag_with_flt {x} : flag { s with flt := x } f i = flag s f i := rfl
@[simp] theorem getF_with_tallies {x} : getF { s with tallies := x } f i = getF s f i := rfl
@[simp] theorem flag_with_tallies {x} : flag { s with tallies := x } f i = flag s f i := rfl
@[simp] theorem getF_with_calPends {x} : getF { s with calPends := x } f i = getF s f i := rfl
@[simp] theorem flag_with_calPends {x} : flag { s with calPends := x } f i = flag s f i := rfl
@[simp] theorem getF_with_pte {x} : getF { s with pte := x } f i = getF s f i := rfl
@[simp] theorem flag_with_pte {x} : flag { s with pte := x } f i = flag s f i := rfl
@[simp] theorem getF_with_ing {x} : getF { s with ing := x } f i = getF s f i := rfl
@[simp] theorem flag_with_ing {x} : flag { s with ing := x } f i = flag s f i := rfl
@[simp] theorem getF_with_buf {x} : getF { s with buf := x } f i = getF s f i := rfl
@[simp] theorem flag_with_buf {x} : flag { s with buf := x } f i = flag s f i := rfl
@[simp] theorem getF_with_egr {x} : getF { s with egr := x } f i = getF s f i := rfl
@[simp] theorem flag_with_egr {x} : flag { s with egr := x } f i = flag s f i := rfl
@[simp] theorem getF_with_red {x} : getF { s with red := x } f i = getF s f i := rfl
@[simp] theorem flag_with_red {x} : flag { s with red := x } f i = flag s f i := rfl
@[simp] theorem getF_with_mon {x} : getF { s with mon := x } f i = getF s f i := rfl
@[simp] theorem flag_with_mon {x} : flag { s with mon := x } f i = flag s f i := rfl
@[simp] theorem getF_with_hif {x} : getF { s with hif := x } f i = getF s f i := rfl
@[simp] theorem flag_with_hif {x} : flag { s with hif := x } f i = flag s f i := rfl
@[simp] theorem getF_with_lnk {x} : getF { s with lnk := x } f i = getF s f i := rfl
@[simp] theorem flag_with_lnk {x} : flag { s with lnk := x } f i = flag s f i := rfl
@[simp] theorem getF_with_syn {x} : getF { s with syn := x } f i = getF s f i := rfl
@[simp] theorem flag_with_syn {x} : flag { s with syn := x } f i = flag s f i := rfl
@[simp] theorem getF_with_tdc {x} : getF { s with tdc := x } f i = getF s f i := rfl
@[simp] theorem flag_with_tdc {x} : flag { s with tdc := x } f i = flag s f i := rfl
@[simp] theorem getF_with_sys {x} : getF { s with sys := x } f i = getF s f i := rfl
@[simp] theorem flag_with_sys {x} : flag { s with sys := x } f i = flag s f i := rfl
@[simp] theorem getF_with_outs {x} : getF { s with outs := x } f i = getF s f i := rfl
@[simp] theorem flag_with_outs {x} : flag { s with outs := x } f i = flag s f i := rfl
@[simp] theorem getF_with_fresh {x} : getF { s with fresh := x } f i = getF s f i := rfl
@[simp] theorem flag_with_fresh {x} : flag { s with fresh := x } f i = flag s f i := rfl

/-! ### A register written -/

@[simp] theorem setF_pending : (setF f v s i).pending = s.pending := rfl
@[simp] theorem setF_sels : (setF f v s i).sels = s.sels := rfl
@[simp] theorem setF_caps : (setF f v s i).caps = s.caps := rfl
@[simp] theorem setF_staged : (setF f v s i).staged = s.staged := rfl
@[simp] theorem setF_xings : (setF f v s i).xings = s.xings := rfl
@[simp] theorem setF_tim : (setF f v s i).tim = s.tim := rfl
@[simp] theorem setF_ref : (setF f v s i).ref = s.ref := rfl
@[simp] theorem setF_flt : (setF f v s i).flt = s.flt := rfl
@[simp] theorem setF_tallies : (setF f v s i).tallies = s.tallies := rfl
@[simp] theorem setF_calPends : (setF f v s i).calPends = s.calPends := rfl
@[simp] theorem setF_pte : (setF f v s i).pte = s.pte := rfl
@[simp] theorem setF_ing : (setF f v s i).ing = s.ing := rfl
@[simp] theorem setF_buf : (setF f v s i).buf = s.buf := rfl
@[simp] theorem setF_egr : (setF f v s i).egr = s.egr := rfl
@[simp] theorem setF_red : (setF f v s i).red = s.red := rfl
@[simp] theorem setF_mon : (setF f v s i).mon = s.mon := rfl
@[simp] theorem setF_hif : (setF f v s i).hif = s.hif := rfl
@[simp] theorem setF_lnk : (setF f v s i).lnk = s.lnk := rfl
@[simp] theorem setF_syn : (setF f v s i).syn = s.syn := rfl
@[simp] theorem setF_tdc : (setF f v s i).tdc = s.tdc := rfl
@[simp] theorem setF_sys : (setF f v s i).sys = s.sys := rfl
@[simp] theorem setF_outs : (setF f v s i).outs = s.outs := rfl
@[simp] theorem setF_fresh : (setF f v s i).fresh = s.fresh := rfl

@[simp] theorem setFlag_pending {b} : (setFlag f b s i).pending = s.pending := rfl
@[simp] theorem setFlag_sels {b} : (setFlag f b s i).sels = s.sels := rfl
@[simp] theorem setFlag_caps {b} : (setFlag f b s i).caps = s.caps := rfl
@[simp] theorem setFlag_staged {b} : (setFlag f b s i).staged = s.staged := rfl
@[simp] theorem setFlag_xings {b} : (setFlag f b s i).xings = s.xings := rfl
@[simp] theorem setFlag_tim {b} : (setFlag f b s i).tim = s.tim := rfl
@[simp] theorem setFlag_ref {b} : (setFlag f b s i).ref = s.ref := rfl
@[simp] theorem setFlag_flt {b} : (setFlag f b s i).flt = s.flt := rfl
@[simp] theorem setFlag_tallies {b} : (setFlag f b s i).tallies = s.tallies := rfl
@[simp] theorem setFlag_calPends {b} : (setFlag f b s i).calPends = s.calPends := rfl
@[simp] theorem setFlag_pte {b} : (setFlag f b s i).pte = s.pte := rfl
@[simp] theorem setFlag_ing {b} : (setFlag f b s i).ing = s.ing := rfl
@[simp] theorem setFlag_buf {b} : (setFlag f b s i).buf = s.buf := rfl
@[simp] theorem setFlag_egr {b} : (setFlag f b s i).egr = s.egr := rfl
@[simp] theorem setFlag_red {b} : (setFlag f b s i).red = s.red := rfl
@[simp] theorem setFlag_mon {b} : (setFlag f b s i).mon = s.mon := rfl
@[simp] theorem setFlag_hif {b} : (setFlag f b s i).hif = s.hif := rfl
@[simp] theorem setFlag_lnk {b} : (setFlag f b s i).lnk = s.lnk := rfl
@[simp] theorem setFlag_syn {b} : (setFlag f b s i).syn = s.syn := rfl
@[simp] theorem setFlag_tdc {b} : (setFlag f b s i).tdc = s.tdc := rfl
@[simp] theorem setFlag_sys {b} : (setFlag f b s i).sys = s.sys := rfl
@[simp] theorem setFlag_outs {b} : (setFlag f b s i).outs = s.outs := rfl
@[simp] theorem setFlag_fresh {b} : (setFlag f b s i).fresh = s.fresh := rfl

@[simp] theorem bump_pending : (bump f s i n).pending = s.pending := rfl
@[simp] theorem bump_sels : (bump f s i n).sels = s.sels := rfl
@[simp] theorem bump_caps : (bump f s i n).caps = s.caps := rfl
@[simp] theorem bump_staged : (bump f s i n).staged = s.staged := rfl
@[simp] theorem bump_xings : (bump f s i n).xings = s.xings := rfl
@[simp] theorem bump_tim : (bump f s i n).tim = s.tim := rfl
@[simp] theorem bump_ref : (bump f s i n).ref = s.ref := rfl
@[simp] theorem bump_flt : (bump f s i n).flt = s.flt := rfl
@[simp] theorem bump_tallies : (bump f s i n).tallies = s.tallies := rfl
@[simp] theorem bump_calPends : (bump f s i n).calPends = s.calPends := rfl
@[simp] theorem bump_pte : (bump f s i n).pte = s.pte := rfl
@[simp] theorem bump_ing : (bump f s i n).ing = s.ing := rfl
@[simp] theorem bump_buf : (bump f s i n).buf = s.buf := rfl
@[simp] theorem bump_egr : (bump f s i n).egr = s.egr := rfl
@[simp] theorem bump_red : (bump f s i n).red = s.red := rfl
@[simp] theorem bump_mon : (bump f s i n).mon = s.mon := rfl
@[simp] theorem bump_hif : (bump f s i n).hif = s.hif := rfl
@[simp] theorem bump_lnk : (bump f s i n).lnk = s.lnk := rfl
@[simp] theorem bump_syn : (bump f s i n).syn = s.syn := rfl
@[simp] theorem bump_tdc : (bump f s i n).tdc = s.tdc := rfl
@[simp] theorem bump_sys : (bump f s i n).sys = s.sys := rfl
@[simp] theorem bump_outs : (bump f s i n).outs = s.outs := rfl
@[simp] theorem bump_fresh : (bump f s i n).fresh = s.fresh := rfl

/-- A one-bit field written and read. -/
@[simp] theorem flag_setFlag_same {b : Bool} (h : 0 < f.w) : flag (setFlag f b s i) f i = b := by
  have e : 1 < 2 ^ f.w := Nat.one_lt_two_pow (by omega)
  cases b <;> simp [flag, setFlag, b2n, Nat.mod_eq_of_lt e]

/-- A counter goes up by `n`, modulo its width. -/
@[simp] theorem getF_bump_same : getF (bump f s i n) f i = (getF s f i + n) % 2 ^ f.w := getF_setF_same

theorem getF_bump_ne (h : g.key j ≠ f.key i) : getF (bump f s i n) g j = getF s g j := getF_setF_ne h

theorem getF_setFlag_ne {b} (h : g.key j ≠ f.key i) : getF (setFlag f b s i) g j = getF s g j := getF_setF_ne h

/-! ### The start of a meaning, outputs, free values -/

@[simp] theorem begin_pending : s.begin.pending = s.pending := rfl
@[simp] theorem begin_regs : s.begin.regs = s.regs := rfl
@[simp] theorem begin_sels : s.begin.sels = s.sels := rfl
@[simp] theorem begin_caps : s.begin.caps = s.caps := rfl
@[simp] theorem begin_staged : s.begin.staged = s.staged := rfl
@[simp] theorem begin_xings : s.begin.xings = s.xings := rfl
@[simp] theorem begin_tim : s.begin.tim = s.tim := rfl
@[simp] theorem begin_ref : s.begin.ref = s.ref := rfl
@[simp] theorem begin_flt : s.begin.flt = s.flt := rfl
@[simp] theorem begin_tallies : s.begin.tallies = s.tallies := rfl
@[simp] theorem begin_calPends : s.begin.calPends = s.calPends := rfl
@[simp] theorem begin_pte : s.begin.pte = s.pte := rfl
@[simp] theorem begin_ing : s.begin.ing = s.ing := rfl
@[simp] theorem begin_buf : s.begin.buf = s.buf := rfl
@[simp] theorem begin_egr : s.begin.egr = s.egr := rfl
@[simp] theorem begin_red : s.begin.red = s.red := rfl
@[simp] theorem begin_mon : s.begin.mon = s.mon := rfl
@[simp] theorem begin_hif : s.begin.hif = s.hif := rfl
@[simp] theorem begin_lnk : s.begin.lnk = s.lnk := rfl
@[simp] theorem begin_syn : s.begin.syn = s.syn := rfl
@[simp] theorem begin_tdc : s.begin.tdc = s.tdc := rfl
@[simp] theorem begin_sys : s.begin.sys = s.sys := rfl
@[simp] theorem begin_fresh : s.begin.fresh = s.fresh := rfl
@[simp] theorem begin_outs : s.begin.outs = [] := rfl
@[simp] theorem getF_begin : getF s.begin f i = getF s f i := rfl
@[simp] theorem flag_begin : flag s.begin f i = flag s f i := rfl

@[simp] theorem emit_pending {x} : (emit x s).pending = s.pending := rfl
@[simp] theorem emit_regs {x} : (emit x s).regs = s.regs := rfl
@[simp] theorem emit_sels {x} : (emit x s).sels = s.sels := rfl
@[simp] theorem emit_caps {x} : (emit x s).caps = s.caps := rfl
@[simp] theorem emit_staged {x} : (emit x s).staged = s.staged := rfl
@[simp] theorem emit_xings {x} : (emit x s).xings = s.xings := rfl
@[simp] theorem emit_tim {x} : (emit x s).tim = s.tim := rfl
@[simp] theorem emit_ref {x} : (emit x s).ref = s.ref := rfl
@[simp] theorem emit_flt {x} : (emit x s).flt = s.flt := rfl
@[simp] theorem emit_tallies {x} : (emit x s).tallies = s.tallies := rfl
@[simp] theorem emit_calPends {x} : (emit x s).calPends = s.calPends := rfl
@[simp] theorem emit_pte {x} : (emit x s).pte = s.pte := rfl
@[simp] theorem emit_ing {x} : (emit x s).ing = s.ing := rfl
@[simp] theorem emit_buf {x} : (emit x s).buf = s.buf := rfl
@[simp] theorem emit_egr {x} : (emit x s).egr = s.egr := rfl
@[simp] theorem emit_red {x} : (emit x s).red = s.red := rfl
@[simp] theorem emit_mon {x} : (emit x s).mon = s.mon := rfl
@[simp] theorem emit_hif {x} : (emit x s).hif = s.hif := rfl
@[simp] theorem emit_lnk {x} : (emit x s).lnk = s.lnk := rfl
@[simp] theorem emit_syn {x} : (emit x s).syn = s.syn := rfl
@[simp] theorem emit_tdc {x} : (emit x s).tdc = s.tdc := rfl
@[simp] theorem emit_sys {x} : (emit x s).sys = s.sys := rfl
@[simp] theorem emit_fresh {x} : (emit x s).fresh = s.fresh := rfl
@[simp] theorem emit_outs {x} : (emit x s).outs = s.outs ++ [x] := rfl
@[simp] theorem getF_emit {x} : getF (emit x s) f i = getF s f i := rfl

@[simp] theorem drawInt_pending : (drawInt s).2.pending = s.pending := rfl
@[simp] theorem drawInt_regs : (drawInt s).2.regs = s.regs := rfl
@[simp] theorem drawInt_sels : (drawInt s).2.sels = s.sels := rfl
@[simp] theorem drawInt_caps : (drawInt s).2.caps = s.caps := rfl
@[simp] theorem drawInt_staged : (drawInt s).2.staged = s.staged := rfl
@[simp] theorem drawInt_xings : (drawInt s).2.xings = s.xings := rfl
@[simp] theorem drawInt_tim : (drawInt s).2.tim = s.tim := rfl
@[simp] theorem drawInt_ref : (drawInt s).2.ref = s.ref := rfl
@[simp] theorem drawInt_flt : (drawInt s).2.flt = s.flt := rfl
@[simp] theorem drawInt_tallies : (drawInt s).2.tallies = s.tallies := rfl
@[simp] theorem drawInt_calPends : (drawInt s).2.calPends = s.calPends := rfl
@[simp] theorem drawInt_pte : (drawInt s).2.pte = s.pte := rfl
@[simp] theorem drawInt_ing : (drawInt s).2.ing = s.ing := rfl
@[simp] theorem drawInt_buf : (drawInt s).2.buf = s.buf := rfl
@[simp] theorem drawInt_egr : (drawInt s).2.egr = s.egr := rfl
@[simp] theorem drawInt_red : (drawInt s).2.red = s.red := rfl
@[simp] theorem drawInt_mon : (drawInt s).2.mon = s.mon := rfl
@[simp] theorem drawInt_hif : (drawInt s).2.hif = s.hif := rfl
@[simp] theorem drawInt_lnk : (drawInt s).2.lnk = s.lnk := rfl
@[simp] theorem drawInt_syn : (drawInt s).2.syn = s.syn := rfl
@[simp] theorem drawInt_tdc : (drawInt s).2.tdc = s.tdc := rfl
@[simp] theorem drawInt_sys : (drawInt s).2.sys = s.sys := rfl
@[simp] theorem drawInt_outs : (drawInt s).2.outs = s.outs := rfl
@[simp] theorem drawInt_fst : (drawInt s).1 = Config.freeInt s.fresh := rfl
@[simp] theorem drawInt_fresh : (drawInt s).2.fresh = s.fresh + 1 := rfl

@[simp] theorem whenS_true {h : State → State} : whenS true h s = h s := rfl

@[simp] theorem whenS_false {h : State → State} : whenS false h s = s := rfl

/-! ### Events (R465, R467) -/

@[simp] theorem raiseAt_pending {a b} : (raiseAt f i a b s).pending = s.pending := by unfold raiseAt; split <;> rfl
@[simp] theorem raiseAt_sels {a b} : (raiseAt f i a b s).sels = s.sels := by unfold raiseAt; split <;> rfl
@[simp] theorem raiseAt_caps {a b} : (raiseAt f i a b s).caps = s.caps := by unfold raiseAt; split <;> rfl
@[simp] theorem raiseAt_staged {a b} : (raiseAt f i a b s).staged = s.staged := by unfold raiseAt; split <;> rfl
@[simp] theorem raiseAt_xings {a b} : (raiseAt f i a b s).xings = s.xings := by unfold raiseAt; split <;> rfl
@[simp] theorem raiseAt_tim {a b} : (raiseAt f i a b s).tim = s.tim := by unfold raiseAt; split <;> rfl
@[simp] theorem raiseAt_ref {a b} : (raiseAt f i a b s).ref = s.ref := by unfold raiseAt; split <;> rfl
@[simp] theorem raiseAt_tallies {a b} : (raiseAt f i a b s).tallies = s.tallies := by unfold raiseAt; split <;> rfl
@[simp] theorem raiseAt_calPends {a b} : (raiseAt f i a b s).calPends = s.calPends := by unfold raiseAt; split <;> rfl
@[simp] theorem raiseAt_pte {a b} : (raiseAt f i a b s).pte = s.pte := by unfold raiseAt; split <;> rfl
@[simp] theorem raiseAt_ing {a b} : (raiseAt f i a b s).ing = s.ing := by unfold raiseAt; split <;> rfl
@[simp] theorem raiseAt_buf {a b} : (raiseAt f i a b s).buf = s.buf := by unfold raiseAt; split <;> rfl
@[simp] theorem raiseAt_egr {a b} : (raiseAt f i a b s).egr = s.egr := by unfold raiseAt; split <;> rfl
@[simp] theorem raiseAt_red {a b} : (raiseAt f i a b s).red = s.red := by unfold raiseAt; split <;> rfl
@[simp] theorem raiseAt_mon {a b} : (raiseAt f i a b s).mon = s.mon := by unfold raiseAt; split <;> rfl
@[simp] theorem raiseAt_hif {a b} : (raiseAt f i a b s).hif = s.hif := by unfold raiseAt; split <;> rfl
@[simp] theorem raiseAt_lnk {a b} : (raiseAt f i a b s).lnk = s.lnk := by unfold raiseAt; split <;> rfl
@[simp] theorem raiseAt_syn {a b} : (raiseAt f i a b s).syn = s.syn := by unfold raiseAt; split <;> rfl
@[simp] theorem raiseAt_tdc {a b} : (raiseAt f i a b s).tdc = s.tdc := by unfold raiseAt; split <;> rfl
@[simp] theorem raiseAt_sys {a b} : (raiseAt f i a b s).sys = s.sys := by unfold raiseAt; split <;> rfl
@[simp] theorem raiseAt_outs {a b} : (raiseAt f i a b s).outs = s.outs := by unfold raiseAt; split <;> rfl
@[simp] theorem raiseAt_fresh {a b} : (raiseAt f i a b s).fresh = s.fresh := by unfold raiseAt; split <;> rfl

@[simp] theorem raiseAt_faults {a b} : (raiseAt f i a b s).flt.faults = s.flt.faults := by unfold raiseAt; split <;> rfl

/-- An event bit already 1 stays, and nothing is queued. -/
theorem raiseAt_set {a b} (h : flag s f i = true) : raiseAt f i a b s = s := by simp [raiseAt, h]

/-- An event bit is 1 after its event. -/
theorem flag_raiseAt_same {a b} (h : 0 < f.w) : flag (raiseAt f i a b s) f i = true := by
  have e : 1 < 2 ^ f.w := Nat.one_lt_two_pow (by omega)
  unfold raiseAt
  split
  · assumption
  · show (getF (setF f 1 s i) f i == 1) = true
    simp [Nat.mod_eq_of_lt e]

/-- An event leaves every other field. -/
theorem getF_raiseAt_ne {a b} (h : g.key j ≠ f.key i) : getF (raiseAt f i a b s) g j = getF s g j := by
  unfold raiseAt
  split
  · rfl
  · exact getF_setF_ne h

/-- A transition from 0 to 1 queues one record, at the end. -/
theorem raiseAt_events {a b} (h : flag s f i = false) :
    (raiseAt f i a b s).flt.events =
      s.flt.events ++ [⟨f.src, a, b, flag (setF f 1 s i) R.FLT_SRC_CFG_LOG f.src, copyNow s islHOST⟩] := by
  simp [raiseAt, h]; rfl

@[simp] theorem raise_pending {a b} : (raise f s a b).pending = s.pending := raiseAt_pending
@[simp] theorem raise_sels {a b} : (raise f s a b).sels = s.sels := raiseAt_sels
@[simp] theorem raise_caps {a b} : (raise f s a b).caps = s.caps := raiseAt_caps
@[simp] theorem raise_staged {a b} : (raise f s a b).staged = s.staged := raiseAt_staged
@[simp] theorem raise_xings {a b} : (raise f s a b).xings = s.xings := raiseAt_xings
@[simp] theorem raise_tim {a b} : (raise f s a b).tim = s.tim := raiseAt_tim
@[simp] theorem raise_ref {a b} : (raise f s a b).ref = s.ref := raiseAt_ref
@[simp] theorem raise_tallies {a b} : (raise f s a b).tallies = s.tallies := raiseAt_tallies
@[simp] theorem raise_calPends {a b} : (raise f s a b).calPends = s.calPends := raiseAt_calPends
@[simp] theorem raise_pte {a b} : (raise f s a b).pte = s.pte := raiseAt_pte
@[simp] theorem raise_ing {a b} : (raise f s a b).ing = s.ing := raiseAt_ing
@[simp] theorem raise_buf {a b} : (raise f s a b).buf = s.buf := raiseAt_buf
@[simp] theorem raise_egr {a b} : (raise f s a b).egr = s.egr := raiseAt_egr
@[simp] theorem raise_red {a b} : (raise f s a b).red = s.red := raiseAt_red
@[simp] theorem raise_mon {a b} : (raise f s a b).mon = s.mon := raiseAt_mon
@[simp] theorem raise_hif {a b} : (raise f s a b).hif = s.hif := raiseAt_hif
@[simp] theorem raise_lnk {a b} : (raise f s a b).lnk = s.lnk := raiseAt_lnk
@[simp] theorem raise_syn {a b} : (raise f s a b).syn = s.syn := raiseAt_syn
@[simp] theorem raise_tdc {a b} : (raise f s a b).tdc = s.tdc := raiseAt_tdc
@[simp] theorem raise_sys {a b} : (raise f s a b).sys = s.sys := raiseAt_sys
@[simp] theorem raise_outs {a b} : (raise f s a b).outs = s.outs := raiseAt_outs
@[simp] theorem raise_fresh {a b} : (raise f s a b).fresh = s.fresh := raiseAt_fresh

@[simp] theorem raise_faults {a b} : (raise f s a b).flt.faults = s.flt.faults := raiseAt_faults

theorem flag_raise_same {b} (h : 0 < f.w) : flag (raise f s i b) f i = true := flag_raiseAt_same h

theorem getF_raise_ne {a b} (h : g.key j ≠ f.key a) : getF (raise f s a b) g j = getF s g j := getF_raiseAt_ne h

/-- A fault is queued for SAFE at every raise, the oldest first. -/
theorem raiseFault_faults {a b c d} : (raiseFault f a b c d s).flt.faults = s.flt.faults ++ [⟨f.src, a, b, c, d⟩] := by
  simp [raiseFault]

/-! ### A command that runs -/

@[simp] theorem ran_eq : ran s = .next s := rfl

/-- The front of the queue runs on the queue's rest. -/
theorem step_cons {c : Instr} {q : List Instr} (h : s.pending = c :: q) : step s = exec c { s with pending := q } := by
  simp [step, h]

/-! ### A register write that reaches one instance -/

theorem writeAt_single {req off i} {eff : Nat → State → State} (ht : targets s req off = [i]) (hg : gateOf s off i = .pass) :
    writeAt req off eff s = eff i s := by
  simp [writeAt, ht, hg]

theorem writeAt_blocked {req off i} {eff : Nat → State → State} (ht : targets s req off = [i]) (hg : gateOf s off i ≠ .pass) :
    writeAt req off eff s = gateEvent (gateOf s off i) off true s := by
  simp only [writeAt, ht, List.foldl]

end Sys2Proof.Machine
end

