-- ==== Sys2Proof/Machine/Drive.lean ====
section
/-!
DEFINITION. Sys2Proof/Machine/Drive.lean: what the device drives on its balls in a state (spec/20 R493, R494, R501, R504, R506; spec/17 R461).
-/
namespace Sys2Proof.Machine

/-- What a ball carries from the device. -/
inductive Drive where
  /-- Nothing: high impedance, with the pull of R493 where the ball has one. -/
  | highZ
  /-- A transmitter at electrical idle. -/
  | idle
  /-- A level held. -/
  | level (high : Bool)
  /-- An LVDS driver at work. -/
  | lvds
  /-- A signal of the unit that owns the ball. -/
  | active
  deriving DecidableEq, Repr

/-- The balls until SAFE is released (R504). -/
def beforeSafe (x : Signal) : Drive :=
  if x.dir = .input ∨ x.dir = .analog then .highZ
  else if x.name = "ALIVE" then .level false
  else if x.type = .lane ∨ x.type = .pcie then .idle
  else .highZ

/-- The transmitter of lane `n`: idle while its island is down or fenced (R461), on an absent lane (R492), while it sleeps (R247) or its
port is OFF. -/
def laneDrive (s : State) (n : Nat) : Drive :=
  if laneUp s n && !flag s R.LNK_LANE_CFG_TX_SLEEP n && portState s (portOfLane s n) ≠ 0 then .active else .idle

/-- The pair of CLKOUT `n` (R506): LVDS in CLOCK mode, else two LVCMOS drivers; a stopped output holds the inactive level, which POL
inverts, and N carries the complement. -/
def clockDrive (s : State) (n : Nat) (mate : Bool) : Drive :=
  let run := islUp s islSYN && outState s n == oRUNNING
  if !run then .level (flag s R.SYN_OUT_CFG_POL n != mate)
  else if outMode s n = 1 then .lvds
  else .active

/-- A VID ball (R501, R502): high-impedance until milestone 2 after POWER_ON; then the code's bit, or PMBus on VID0 and VID1 and low on the
others. -/
def vidDrive (s : State) (k : Nat) : Drive :=
  match s.sys.vid with
  | none => .highZ
  | some c => if flag s R.MON_AVS_MODE then (if k < 2 then .active else .level false) else .level (bitOf c k)

/-- The index of a name in a list of names. -/
def nameIdx (x : String) (l : List String) : Option Nat := (List.range l.length).find? fun k => l.getD k "" == x

/-- What signal `x` carries from the device after SAFE is released (R504, R461): by the island that owns it, and nothing where that is down
and R461 names no behaviour; GPIO are inputs until the management firmware configures them (R494), and HIGHZ of JTAG takes every driver off
(R508). -/
def ballDrive (s : State) (x : Signal) : Drive :=
  let host := islUp s islHOST
  if x.dir = .input ∨ x.dir = .analog ∨ s.sys.jtag = .highz then .highZ
  else
    match nameIdx x.name (numbered "VID" 8), nameIdx x.name (numbered "CLKOUT" 12 |>.flatMap fun n => [n ++ "P", n ++ "N"]),
        (List.range 64).find? (fun n => (laneSignals n).any fun y => y.name == x.name) with
    | some k, _, _ => vidDrive s k
    | _, some k, _ => clockDrive s (k / 2) (k % 2 == 1)
    | _, _, some n => laneDrive s n
    | none, none, none =>
      if x.type = .lane then .idle
      else if x.type = .pcie then (if host && s.hif.linkUp then .active else .idle)
      else if x.name = "RESET_N" then (if driven s then .level false else .highZ)
      else if x.name = "ALIVE" then (if s.flt.aliveRun then .active else .level false)
      else if x.name = "TOD_OUT" then (if islUp s islSYN && s.syn.todBusy > now s then .active else .level true)
      else if x.name = "TDO" then .active
      else if ["QSPI_CLK", "QSPI_CS_N", "I2C_SCL", "I2C_SDA"].contains x.name || x.ball.row == 12 then (if host then .active else .highZ)
      else if islUp s islMCU && flag s R.FWT_STATUS_MGMT_RUN then .active
      else .highZ

end Sys2Proof.Machine
end

