-- ==== Sys2Proof/Tests/Slice0.lean ====
section
/-!
SUPPORT. Sys2Proof/Tests/Slice0.lean: the checks of WellFormed, a witness of the hypotheses of every statement, and small
tests of the commands on values of the spec's own examples.
-/
namespace Sys2Proof.Tests
open Sys2Proof Sys2Proof.Machine

/-! ### Well-formedness -/

/-- A small command descriptor. -/
def wfCmd : Cmd := ⟨false, 0, 0, [], 0, 0, 0⟩
/-- A small TX descriptor. -/
def wfTx : TxDesc := ⟨0, 0, none, []⟩
/-- Ill-formed commands 1: each is refused by the check of one operand. -/
theorem test_wf_refuses1 : (
  [.registerWrite .mcu (2 ^ 20) 0 0, .registerWrite .mcu 0 (2 ^ 32) 0, .selectWrite .mcu (2 ^ 20) 0,
   .selectWrite .mcu 0 (2 ^ 32), .captureRead .mcu (2 ^ 20), .timeWriteCommit .mcu (2 ^ 20) 0,
   .timeWriteCommit .mcu 0 (2 ^ 32), .bar0AccessTimeout (2 ^ 20) ⟨.mcu, false⟩, .islandClockLoss 32, .islandClockReturn 32,
   .crossingUp 32 0, .crossingUp 0 32, .crossingDeliver 32 0 none, .crossingDeliver 0 32 none, .crossingHang 32 0,
   .crossingHang 0 32, .stepRequest .mcu (2 ^ 32), .lastSetRequest .mcu (2 ^ 32), .slewRequest .mcu (2 ^ 32),
   .slewCfgWrite .mcu (2 ^ 32), .domainSwitchRequest .mcu (2 ^ 32), .switchArm .mcu (2 ^ 32), .switchCancel .mcu (2 ^ 32),
   .switchTimeWrite .mcu (2 ^ 32), .domainRelease .mcu (2 ^ 32), .weltEnaWrite .mcu (2 ^ 32), .tallyMeasurement 64 0 0,
   .cdrLockAcquire 64, .cdrLockLoss 64, .frameReceive 64 false [] 0 0 false, .frameReceive 0 false [256] 0 0 false,
   .frameEndReceive 0 [256] false, .alignmentLock 64 0, .alignmentLock 0 (2 ^ 16), .calConstantApply ⟨64, 0⟩,
   .domainMapWrite .mcu false (2 ^ 32), .intervalWrite .mcu (2 ^ 32), .portStateWrite .mcu ⟨2 ^ 32, none⟩,
   .portEnableWrite .mcu (2 ^ 32), .tallyInvalidTimeout 64, .syncTransmit 128 none, .announceTransmit 128 ⟨none, none⟩,
   .pdelayReqTransmit 128, .delayReqTransmit 128, .txTimeReturn 64 0 0, .followUpTransmit 128, .delayReqTimeout 128,
   .syncTimeout 128, .unicastRequest 128 0 0 0 0 0, .unicastRequest 0 0 0 16 0 0] : List Instr).all (fun c => !c.wf) = true := by decide
/-- Ill-formed commands 2: each is refused by the check of one operand. -/
theorem test_wf_refuses2 : (
  [.unicastCancel 128 0 0 0, .unicastCancel 0 0 0 16, .grantExpiry 128, .candidatePhaseSample 16 0 0,
   .candidateActivityLoss 16, .freqWindowClose 16, .waitToRestoreExpiry 4, .prioTableCommit .mcu (2 ^ 32),
   .dpllModeWrite .mcu 4 0, .dpllModeWrite .mcu 0 (2 ^ 32), .dpllHoldoverRequest .mcu 4 0,
   .dpllHoldoverRequest .mcu 0 (2 ^ 32), .dpllForce .mcu 4 0, .dpllForce .mcu 0 (2 ^ 32), .dpllRealign .mcu 4 0,
   .dpllRealign .mcu 0 (2 ^ 32), .realignDone 4, .dpllLoopUpdate 4, .holdoverAvgUpdate 4, .holdoverWUpdate 4,
   .holdoverValid 4, .olFreqWrite .mcu 4 0, .olFreqWrite .mcu 0 (2 ^ 32), .olPhaseWrite .mcu 4 0,
   .olPhaseWrite .mcu 0 (2 ^ 32), .olWriteApply 4 false, .hostPhaseWrite .mcu (2 ^ 32), .xoCorrWrite .mcu (2 ^ 32),
   .candCfgWrite .mcu 16 0, .candCfgWrite .mcu 0 (2 ^ 32), .candPeriodWrite .mcu 16 0, .candPeriodWrite .mcu 0 (2 ^ 32),
   .synceBindWrite .mcu (2 ^ 32), .apllLock 5 0, .apllUnlock 5, .synCommit .mcu (2 ^ 32), .outputChangeApply 12,
   .outputStart .mcu 12 0, .outputStart .mcu 0 (2 ^ 32), .outputStartInstant 12, .outputStop .mcu 12 0,
   .outputStop .mcu 0 (2 ^ 32), .outputStopComplete 12, .outputRealign .mcu 12 0, .outputRealign .mcu 0 (2 ^ 32),
   .alignDone 12 0, .todInMessage [256], .tdcEdgeMeasure 64 false 0 [], .tdcCalPair 25 0 0, .intervalArm .mcu 25 0] : List Instr).all (fun c => !c.wf) = true := by decide
/-- Ill-formed commands 3: each is refused by the check of one operand. -/
theorem test_wf_refuses3 : (
  [.intervalArm .mcu 0 (2 ^ 32), .intervalTimeout 12, .tdcChCfgWrite .mcu 25 0, .tdcChCfgWrite .mcu 0 (2 ^ 32),
   .prescalerWrite .mcu (2 ^ 32), .tdcRefillRequest .mcu (2 ^ 32), .tdcRefillComplete 25 [], .tdcTableCommit .mcu (2 ^ 32),
   .lnkCommit .mcu (2 ^ 32), .signalDetect 64, .signalLoss 64, .linkTrainingDone 64 [], .ltFail 64,
   .linkConditionsMet ⟨64, none⟩, .linkUp 64, .linkDown 64 0, .sgmiiControlWord 64 0, .laneCfgWrite .mcu (2 ^ 32),
   .txeqWrite .mcu (2 ^ 32), .lpiRx 64, .recalPartial .mcu (2 ^ 32), .recalFull .mcu (2 ^ 32),
   .recalComplete ⟨⟨64, 0, 0, 0, 0, 0, 0, 0, 0, 0⟩, 0⟩, .streamDeleteClear 16384, .ingTableRead .mcu (2 ^ 32),
   .ingTableWrite .mcu (2 ^ 32), .streamGateCommit .mcu (2 ^ 32), .streamGateChange 256, .linkHoldExpiry 66,
   .bufAdmissionCommit .mcu (2 ^ 32), .egressSelection 66 0, .frameTxStart 66 0 0, .frameTxEnd 66 false,
   .shaperRateWrite .mcu 8 0, .shaperRateWrite .mcu 0 (2 ^ 32), .shaperCfgWrite .mcu 8 0 false,
   .shaperCfgWrite .mcu 0 (2 ^ 32) false, .gateEntryChange 66 none, .macHoldStart 66, .gateEnableWrite .mcu (2 ^ 32),
   .gateCommit .mcu (2 ^ 32), .gateCancel .mcu (2 ^ 32), .gateRealign .mcu (2 ^ 32), .gateConfigChange 66,
   .mmVerifyEnd 66 false, .egrTableRead .mcu (2 ^ 32), .egrTableWrite .mcu (2 ^ 32), .reseqTimeout 4096, .takeAny 4096,
   .frerFunctionReset .mcu (2 ^ 32)] : List Instr).all (fun c => !c.wf) = true := by decide
/-- Ill-formed commands 4: each is refused by the check of one operand. -/
theorem test_wf_refuses4 : (
  [.frerCfgWrite .mcu (2 ^ 32), .latentError 4096, .pathDown 4096 0, .pathDown 0 4, .ringDoorbell 4096 0 0,
   .ringDoorbell 0 0 (2 ^ 32), .ringStart .mcu (2 ^ 32), .ringStop .mcu (2 ^ 32), .ringStopped 32, .ringReset .mcu (2 ^ 32),
   .vectorRearm .mcu false 0 (2 ^ 32), .irqModerationTimer 32, .msixUnmask 64, .cmdBadOpcode 32 0 wfCmd,
   .cmdBadOpcode 0 0 { wfCmd with tag := 2 ^ 16 }, .nop 32 wfCmd, .nop 0 { wfCmd with tag := 2 ^ 16 }, .tblRead 32 wfCmd,
   .tblRead 0 { wfCmd with tag := 2 ^ 16 }, .tblWrite 32 wfCmd, .tblWrite 0 { wfCmd with tag := 2 ^ 16 }, .fdbFlush 32 wfCmd,
   .fdbFlush 0 { wfCmd with tag := 2 ^ 16 }, .streamAdd 32 wfCmd, .streamAdd 0 { wfCmd with tag := 2 ^ 16 },
   .streamDelete 32 wfCmd, .streamDelete 0 { wfCmd with tag := 2 ^ 16 }, .streamModify 32 wfCmd,
   .streamModify 0 { wfCmd with tag := 2 ^ 16 }, .streamRead 32 wfCmd, .streamRead 0 { wfCmd with tag := 2 ^ 16 },
   .dpllFreq 32 wfCmd, .dpllFreq 0 { wfCmd with tag := 2 ^ 16 }, .dpllPhase 32 wfCmd,
   .dpllPhase 0 { wfCmd with tag := 2 ^ 16 }, .hostSample 32 wfCmd, .hostSample 0 { wfCmd with tag := 2 ^ 16 },
   .profileApply 32 wfCmd, .profileApply 0 { wfCmd with tag := 2 ^ 16 }, .profileWrite 32 wfCmd,
   .profileWrite 0 { wfCmd with tag := 2 ^ 16 }, .profileRead 32 wfCmd, .profileRead 0 { wfCmd with tag := 2 ^ 16 },
   .fwDownload 32 wfCmd, .fwDownload 0 { wfCmd with tag := 2 ^ 16 }, .attest 32 wfCmd,
   .attest 0 { wfCmd with tag := 2 ^ 16 }, .flashRead 32 wfCmd, .flashRead 0 { wfCmd with tag := 2 ^ 16 },
   .flashProgram 32 wfCmd false] : List Instr).all (fun c => !c.wf) = true := by decide
/-- Ill-formed commands 5: each is refused by the check of one operand. -/
theorem test_wf_refuses5 : (
  [.flashProgram 0 { wfCmd with tag := 2 ^ 16 } false, .flashErase 32 wfCmd false,
   .flashErase 0 { wfCmd with tag := 2 ^ 16 } false, .resetReq 32 wfCmd, .resetReq 0 { wfCmd with tag := 2 ^ 16 },
   .cmdTimeout 32 0 wfCmd, .cmdTimeout 0 0 { wfCmd with tag := 2 ^ 16 }, .txFrameFetch 32 wfTx,
   .txFrameFetch 0 { wfTx with len := 2 ^ 14 }, .rxFrameDeliver 32 0, .rxStall 32, .dmaError 32 0, .i2cWrite 256 0 0 none,
   .i2cWrite 0 (2 ^ 20) 0 none, .i2cWrite 0 0 (2 ^ 32) none, .i2cRead 256 0 0, .i2cRead 0 (2 ^ 20) 0,
   .powerOn ⟨9, 0, 0⟩ ⟨0, false⟩, .powerOn ⟨0, 0, 0⟩ ⟨4, false⟩, .rstRequest .mcu (2 ^ 32), .srcMapWrite .mcu (2 ^ 32),
   .resetStretchEnd 32 ⟨0, false⟩, .islandRelease 32 0, .forcedRelease .mcu (2 ^ 32), .selfTestComplete 32 [] 0,
   .fwStepLate ⟨8, 0⟩, .servoRestart .mcu (2 ^ 32), .discardMgmt .mcu (2 ^ 32), .discardServo .mcu (2 ^ 32),
   .fwMeasurementPost 8 0, .fwMeasurementPost 0 (2 ^ 384), .scrubAccess 18 0 0 ⟨0, false⟩ 0,
   .scrubAccess 0 32 0 ⟨0, false⟩ 0, .scrubAccess 0 0 (2 ^ 24) ⟨0, false⟩ 0, .scrubAccess 0 0 0 ⟨3, false⟩ 0,
   .scrubLate 18 0, .faultAck .mcu (2 ^ 32), .aliveResume .mcu (2 ^ 32), .testModeWrite .mcu (2 ^ 32),
   .counterCfgWrite .mcu 8 0 false, .counterCfgWrite .mcu 0 (2 ^ 32) false, .counterClear .mcu (2 ^ 32), .bwWindowEnd 66,
   .histDepthSample 8, .histClear .mcu 8 0, .histClear .mcu 0 (2 ^ 32), .canaryMeasure 32 0 0 0 0,
   .avsCodeWrite .mcu (2 ^ 32), .qualifyTimeExpiry 16, .txDriverAwake 64] : List Instr).all (fun c => !c.wf) = true := by decide
/-- Ill-formed commands 6: each is refused by the check of one operand. -/
theorem test_wf_refuses6 : (
  [.quadCalibrationDone 16 0 [], .insertionCopyAgeLimit 0 66, .p65FrameSend [256], .nop 0 { wfCmd with len := 2 ^ 32 },
   .nop 0 { wfCmd with p0 := 2 ^ 32 }, .nop 0 { wfCmd with p1 := 2 ^ 32 }, .nop 0 { wfCmd with p2 := 2 ^ 32 },
   .nop 0 { wfCmd with data := [256] }, .txFrameFetch 0 { wfTx with tag := 2 ^ 16 },
   .txFrameFetch 0 { wfTx with octets := [256] }, .txFrameFetch 0 { wfTx with directed := some (128, 0) },
   .txFrameFetch 0 { wfTx with directed := some (0, 8) }] : List Instr).all (fun c => !c.wf) = true := by decide
/-- Well-formed commands 1: every constructor with small operands passes. -/
theorem test_wf_accepts1 : (
  [.registerWrite .mcu 0 0 0, .selectWrite .mcu 0 0, .captureRead .mcu 0, .timeWriteCommit .mcu 0 0,
   .bar0AccessTimeout 0 ⟨.mcu, false⟩, .islandClockLoss 0, .islandClockReturn 0, .crossingUp 0 0, .crossingDeliver 0 0 none,
   .crossingHang 0 0, .lastIncrement, .stepRequest .mcu 0, .lastSetRequest .mcu 0, .servoPhaseCorrection 0, .stepApply,
   .slewRequest .mcu 0, .slewCfgWrite .mcu 0, .slewDone, .domainEstimatePost false none, .domainStale false,
   .domainSwitchRequest .mcu 0, .switchArm .mcu 0, .switchCancel .mcu 0, .switchTimeWrite .mcu 0, .timedSwitchInstant,
   .domainRelease .mcu 0, .weltEnaWrite .mcu 0, .blendEnd, .convergeDone, .tallyMeasurement 0 0 0, .cdrLockAcquire 0,
   .cdrLockLoss 0, .frameReceive 0 false [] 0 0 false, .frameEndReceive 0 [] false, .alignmentLock 0 0,
   .calConstantApply ⟨0, 0⟩, .domainMapWrite .mcu false 0, .intervalWrite .mcu 0, .portStateWrite .mcu ⟨0, none⟩,
   .portEnableWrite .mcu 0, .tallyInvalidTimeout 0, .syncTransmit 0 none, .announceTransmit 0 ⟨none, none⟩,
   .pdelayReqTransmit 0, .delayReqTransmit 0, .txTimeReturn 0 0 0, .followUpTransmit 0, .syncReceive 0, .followUpReceive 0,
   .delayReqReceive 0, .delayRespReceive 0, .delayReqTimeout 0, .pdelayReqReceive 0, .pdelayRespReceive 0,
   .generalMessageReceive 0, .transparentForward 0, .fupEntryTimeout, .syncTimeout 0, .unicastRequest 0 0 0 0 0 0,
   .unicastCancel 0 0 0 0, .grantExpiry 0, .candidatePhaseSample 0 0 0, .candidateActivityLoss 0, .freqWindowClose 0,
   .waitToRestoreExpiry 0, .prioTableCommit .mcu 0] : List Instr).all Instr.wf = true := by decide
/-- Well-formed commands 2: every constructor with small operands passes. -/
theorem test_wf_accepts2 : (
  [.dpllModeWrite .mcu 0 0, .dpllHoldoverRequest .mcu 0 0, .dpllForce .mcu 0 0, .dpllRealign .mcu 0 0, .realignDone 0,
   .dpllLoopUpdate 0, .holdoverAvgUpdate 0, .holdoverWUpdate 0, .holdoverValid 0, .olFreqWrite .mcu 0 0,
   .olPhaseWrite .mcu 0 0, .olWriteApply 0 false, .hostPhaseWrite .mcu 0, .xoCorrWrite .mcu 0, .xoStabilitySample none,
   .ocxoWarmPin false, .candCfgWrite .mcu 0 0, .candPeriodWrite .mcu 0 0, .synceBindWrite .mcu 0, .apllLock 0 0,
   .apllUnlock 0, .synCommit .mcu 0, .outputChangeApply 0, .outputStart .mcu 0 0, .outputStartInstant 0,
   .outputStop .mcu 0 0, .outputStopComplete 0, .outputRealign .mcu 0 0, .alignDone 0 0, .todOutMessage, .todInMessage [],
   .todUnpaired, .tdcEdgeMeasure 0 false 0 [], .tdcCalPair 0 0 0, .tdcResultDeliver, .tdcAnchorRenew, .intervalArm .mcu 0 0,
   .intervalTimeout 0, .tdcChCfgWrite .mcu 0 0, .prescalerWrite .mcu 0, .tdcRefillRequest .mcu 0, .tdcRefillComplete 0 [],
   .tdcTableCommit .mcu 0, .takeoverOverlapEnd, .takeoverEnd, .tdcTableDataRead .mcu, .lnkCommit .mcu 0, .signalDetect 0,
   .signalLoss 0, .linkTrainingDone 0 [], .ltFail 0, .linkConditionsMet ⟨0, none⟩, .linkUp 0, .linkDown 0 0,
   .sgmiiControlWord 0 0, .laneCfgWrite .mcu 0, .txeqWrite .mcu 0, .ebIdleAdjust 0 0, .ebSlip 0, .lpiRx 0,
   .powerUpCalibration [] [] [] 0, .recalPartial .mcu 0, .recalFull .mcu 0,
   .recalComplete ⟨⟨0, 0, 0, 0, 0, 0, 0, 0, 0, 0⟩, 0⟩, .ingressHead 0, .ingressTailPass 0] : List Instr).all Instr.wf = true := by decide
/-- Well-formed commands 3: every constructor with small operands passes. -/
theorem test_wf_accepts3 : (
  [.learnInsert, .streamLearn, .ageingSweepVisit false 0, .streamDeleteClear 0, .ingTableRead .mcu 0, .ingTableWrite .mcu 0,
   .streamGateCommit .mcu 0, .streamGateChange 0, .bufAdmission 0, .frameStoreComplete 0, .linkHoldExpiry 0,
   .bufAdmissionCommit .mcu 0, .egressSelection 0 0, .frameTxStart 0 0 0, .frameTxEnd 0 false, .shaperRateWrite .mcu 0 0,
   .shaperCfgWrite .mcu 0 0 false, .gateEntryChange 0 none, .macHoldStart 0, .gateEnableWrite .mcu 0, .gateCommit .mcu 0,
   .gateCancel .mcu 0, .gateRealign .mcu 0, .gateConfigChange 0, .mmVerifyEnd 0 false, .egrTableRead .mcu 0,
   .egrTableWrite .mcu 0, .frerDescriptor 0, .reseqTimeout 0, .takeAny 0, .frerFunctionReset .mcu 0, .frerCfgWrite .mcu 0,
   .latentError 0, .pathDown 0 0, .ringDoorbell 0 0 0, .ringStart .mcu 0, .ringStop .mcu 0, .ringStopped 0,
   .ringReset .mcu 0, .vectorRearm .mcu false 0 0, .irqModerationTimer 0, .msixUnmask 0, .cmdBadOpcode 0 0 wfCmd,
   .nop 0 wfCmd, .tblRead 0 wfCmd, .tblWrite 0 wfCmd, .fdbFlush 0 wfCmd, .streamAdd 0 wfCmd, .streamDelete 0 wfCmd,
   .streamModify 0 wfCmd, .streamRead 0 wfCmd, .dpllFreq 0 wfCmd, .dpllPhase 0 wfCmd, .hostSample 0 wfCmd,
   .profileApply 0 wfCmd, .profileTimedApply, .profileWrite 0 wfCmd, .profileRead 0 wfCmd, .fwDownload 0 wfCmd,
   .attest 0 wfCmd, .flashRead 0 wfCmd, .flashProgram 0 wfCmd false, .flashErase 0 wfCmd false, .resetReq 0 wfCmd,
   .cmdTimeout 0 0 wfCmd, .txFrameFetch 0 wfTx] : List Instr).all Instr.wf = true := by decide
/-- Well-formed commands 4: every constructor with small operands passes. -/
theorem test_wf_accepts4 : (
  [.rxFrameDeliver 0 0, .rxStall 0, .eventRecordWrite, .dmaError 0 0, .busMasterEnable false, .i2cWrite 0 0 0 none,
   .i2cRead 0 0 0, .i2cTimeout, .pcieHot, .pcieLinkdown, .pcieD3, .powerOn ⟨0, 0, 0⟩ ⟨0, false⟩, .resetNAccept 0,
   .resetNGlitch 0, .rstRequest .mcu 0, .srcMapWrite .mcu 0, .resetStretchEnd 0 ⟨0, false⟩, .islandRelease 0 0,
   .forcedRelease .mcu 0, .oscillatorCheckEnd 0 0 0 0, .loadAttemptComplete (.fuse []) 0, .stepDeadline 0 0,
   .selfTestComplete 0 [] 0, .profileResetApply, .profileWaitTimeout, .bootRomStart none 0, .fwStepLate ⟨0, 0⟩,
   .servoRestart .mcu 0, .discardMgmt .mcu 0, .discardServo .mcu 0, .watchdogFeed false 0 0, .mgmtWatchdogExpiry 0,
   .servoWdog 0, .debugAttach, .fwMeasurementPost 0 0, .spdmRequest .getVersion, .scrubAccess 0 0 0 ⟨0, false⟩ 0,
   .scrubLate 0 0, .eccLapRead .mcu, .faultCollect 0, .faultAck .mcu 0, .reactionTimerExpiry 0, .aliveResume .mcu 0,
   .testModeWrite .mcu 0, .recoveryEnd 0, .counterCfgWrite .mcu 0 0 false, .counterClear .mcu 0, .bwWindowEnd 0,
   .bwPeakRead .mcu false, .histDepthSample 0, .histClear .mcu 0 0, .canaryMeasure 0 0 0 0 0, .marginPlan,
   .avsReadbackCheck ⟨true, true⟩ 0, .avsCodeWrite .mcu 0, .ageingLogShort 0 0 0, .ageingLogLong 0 0 0, .qualifyTimeExpiry 0,
   .txDriverAwake 0, .quadCalibrationDone 0 0 [], .insertionCopyAgeLimit 0 0, .coreCycleCount, .pcieLinkUp 0 0,
   .p65FrameSend [], .jtagInstruction .bypass] : List Instr).all Instr.wf = true := by decide

/-! ### Small states -/

/-- A part of every feature in full operation: every island up, both images running, and the start over. -/
def up : State :=
  let s := { State.reset with flt := { State.reset.flt with startUp := false } }
  let s := setF R.RST_ISL_RELEASED_ISLAND 0xFFFFFFFF (setF R.RST_ISL_CLKVALID_ISLAND 0xFFFFFFFF s)
  let s := setF R.GLB_CAP_VALID 1 (setF R.GLB_CAP_LANES_HI 1 (setF R.GLB_CAP_DOMAIN_B 1 s))
  let s := setF R.GLB_CAP_FRER_RESEQ 1 (setF R.GLB_CAP_OCXO 1 (setF R.GLB_CAP_CNT8 1 s))
  let s := setF R.FWT_STATUS_SERVO_RUN 1 (setF R.FWT_STATUS_MGMT_RUN 1 s)
  let l := [1, 2, 3, 4, 5, 6, 7, 8, 9, 10, 11, 12, 16, 17]
  { s with xings := l.flatMap fun a => l.map fun b => (a * 32 + b, ⟨true, []⟩)
           tim := { s.tim with copies := copyIslands.foldl (fun c i => smPut LastCopy.reset c i ⟨0, none⟩) [] } }
/-- `up` after an operation. -/
def upWith (f : State → State) : State := f up
/-- `up` with instance 0 of domain A on, in port state `st`; `p2p` its mechanism. -/
def ptpUp (st : Nat) (p2p : Bool := false) : State :=
  let s := setF R.PTE_GCFG_ENA 1 (setF R.PTE_DOMA_MAP_ENA 1 (setF R.PTE_PORT_CFG_ENA 1 up))
  setF R.PTE_PORT_STATE_STATE st (setFlag R.PTE_PORT_CFG_DELAY_MECH p2p { s with tim := { s.tim with lastValid := true } })
/-- A message of the given kind. -/
def ptpMsg0 (kind : Nat) (two : Bool := false) : PtpMsg := ⟨kind, 2, 1, 0, 0, 0, two, 0, 0, 0, 0, 0, none⟩
/-- A frame that came in whole, with a valid record. -/
def frame0 : Frame where
  port := 0
  octets := List.replicate 64 0
  ended := true
  bad := none
  rx := some ⟨0, 0, 0, true, false, false, false, 0, false, 0, 0⟩
  stepCount := 0
  headDone := true
  ing := none
  needTail := false
  ins := none
  ptp := none
  engine := none
  tfwd := false
  dom := some 0
  adds := []
  frer := .none
  genNo := none
  admitted := false
  reason := 0
  rule := none
  cause := 0
  directed := none
  host := none
  stored := false
  copies := []
/-- A state with frame 0, which instance 0 takes. -/
def taking (s : State) (m : PtpMsg) : State := setFrame 0 (some { frame0 with engine := some 0, ptp := some m }) s

/-- `up` with CMD ring 0 RUNNING, descriptors posted, Bus Master Enable on and the controller ready. -/
def running : State :=
  setF R.HIF_GSTAT_MCU_READY 1 (setF R.HIF_GSTAT_BME 1 (setRing 0 { Ring.reset with host := 4 } (setF R.HIF_RING_CFG_KIND 1
    (setF R.HIF_RING_STAT_STATE 1 up))))
/-- A descriptor without parameters or data. -/
def cmd0 : Cmd := { irq := true, tag := 7, len := 0, data := [], p0 := 0, p1 := 0, p2 := 0 }

/-- A profile image without records, for every grade and stepping, with its CRC-32. -/
def image0 : List Nat :=
  [70, 80, 90, 75, 1, 0, 64, 0, 72, 0, 0, 0, 255, 0, 255, 3, 64, 120, 125, 1, 0, 0, 0, 0, 144, 1, 0, 0] ++ List.replicate 4 0 ++
    [1, 0, 0, 0] ++ List.replicate 32 0 ++ [102, 114, 100, 229]

/-- A management image without code, for every hardware code, whose digest is that of no octets. -/
def image1 : List Nat :=
  [0x57, 0x46, 0x5A, 0x4B, 0, 1, 0, 0, 128, 0, 0, 0] ++ List.replicate 20 0 ++ digestOctets (Config.sha384 []).toNat ++ List.replicate 48 0

/-- `up` with that image staged. -/
def stagedUp : State := { up with sys := { up.sys with fuse := List.replicate 128 0, stageOk := [0], stage := [(0, image1)] } }

/-- The octets of a number, least significant first, give the number back. -/
theorem octets_value (n d : Nat) :
    ((List.range n).map fun k => d / 256 ^ k % 256).foldr (fun o a => a * 256 + o % 256) 0 = d % 256 ^ n := by
  induction n generalizing d with
  | zero => simp [Nat.mod_one]
  | succ n ih =>
    have e : (fun k => d / 256 ^ k % 256) ∘ Nat.succ = fun k => d / 256 / 256 ^ k % 256 := by
      funext k
      simp only [Function.comp, Nat.succ_eq_add_one, Nat.pow_succ, Nat.mul_comm (256 ^ k), Nat.div_div_eq_div_mul]
    rw [List.range_succ_eq_map, List.map_cons, List.map_map, e, List.foldr_cons, ih]
    simp only [Nat.pow_zero, Nat.div_one]
    rw [Nat.pow_succ, Nat.mul_comm (256 ^ n), Nat.mod_mul]
    omega

/-- Both checks of R419 on that image: its digest, and its bounds. -/
theorem image1_passes : imgCheck stagedUp false image1 = 0 := by
  have hd : leAt image1 0x20 48 = (Config.sha384 []).toNat := by
    have e : leAt image1 0x20 48 = (digestOctets (Config.sha384 []).toNat).foldr (fun o a => a * 256 + o % 256) 0 := rfl
    rw [e]
    unfold digestOctets
    rw [octets_value]
    exact Nat.mod_eq_of_lt (Config.sha384 []).isLt
  have h0 : imgHeader false image1 = true := rfl
  have h1 : (image1.drop 0x80).take (leAt image1 0x0C 4) = [] := rfl
  have h2 : imgSignature stagedUp image1 = 0 := rfl
  have h3 : leAt image1 0x18 2 ≤ getF stagedUp R.FWT_HWC_HWC ∧ getF stagedUp R.FWT_HWC_HWC ≤ leAt image1 0x1A 2 := by
    rw [show leAt image1 0x18 2 = 0 from rfl, show leAt image1 0x1A 2 = 0 from rfl, show getF stagedUp R.FWT_HWC_HWC = 0 from rfl]
    decide
  unfold imgCheck
  simp [h0, h1, h2, h3, hd]

/-- Fuse words with the CRC that the load checks. -/
theorem fuse_words_exist : ∃ ws : List Nat, ws.length = 128 ∧ ws.getD 127 0 = crc32 (wordOctets (ws.take 4 ++ (ws.drop 36).take 91)) := by
  have h : ∀ g : List Nat → Nat, ∃ ws : List Nat, ws.length = 128 ∧ ws.getD 127 0 = g (ws.take 4 ++ (ws.drop 36).take 91) := by
    intro g
    refine ⟨List.replicate 127 0 ++ [g (List.replicate 95 0)], by simp, ?_⟩
    rw [List.take_append_of_le_length (by simp), List.drop_append_of_le_length (by simp), List.take_append_of_le_length (by simp)]
    simp
  exact h fun l => crc32 (wordOctets l)

/-- Trim words with the CRC that the load checks. -/
theorem trim_words_exist : ∃ ws : List Nat, ws.length = 32 ∧ ws.getD 31 0 = crc32 (wordOctets (ws.take 31)) := by
  have h : ∀ g : List Nat → Nat, ∃ ws : List Nat, ws.length = 32 ∧ ws.getD 31 0 = g (ws.take 31) := by
    intro g
    refine ⟨List.replicate 31 0 ++ [g (List.replicate 31 0)], by simp, ?_⟩
    rw [List.take_append_of_le_length (by simp)]
    simp
  exact h fun l => crc32 (wordOctets l)


/-! ### Witnesses of the statements -/

/-- The hypotheses of EmptyQueueIdles are met. -/
theorem wit_EmptyQueueIdles :
    State.reset.pending = [] := rfl

/-- The hypotheses of EveryCommandWritesItsPartsOnly are met. -/
theorem wit_EveryCommandWritesItsPartsOnly :
    ∃ t, exec .lastIncrement State.reset = .next t := ⟨_, rfl⟩

/-- The hypotheses of EveryStepKeepsRegistersCanonicalAndLastInFormat are met. -/
theorem wit_EveryStepKeepsRegistersCanonicalAndLastInFormat :
   (regsWf State.reset) ∧
   (lastInFormat State.reset) ∧
   (∃ t, step State.reset = .next t) :=
 ⟨rfl, ⟨by decide, by decide, by decide, by decide⟩, ⟨_, rfl⟩⟩

/-- The hypotheses of MisalignedAccessesActOnNoRegister are met. -/
theorem wit_MisalignedAccessesActOnNoRegister :
   ((5 : Nat) < 0x100000 ∧ ((2 : Nat) ≠ 4 ∨ 5 % 4 ≠ 0)) ∧
   ((0x40013 : Nat) < 0x100000) :=
 ⟨by decide, by decide⟩

/-- The hypotheses of UnmappedOffsetsReadZeroAndDiscardWrites are met. -/
theorem wit_UnmappedOffsetsReadZeroAndDiscardWrites :
    (0x4000C : Nat) < 0x100000 ∧ 0x4000C % 4 = 0 ∧ isSel 0x4000C = false ∧ regRow 0x4000C = none ∧ targets State.reset .mcu
    0x4000C = [0] := by decide

/-- The hypotheses of WritesThatAreStoppedRaiseTheirEventOnly are met. -/
theorem wit_WritesThatAreStoppedRaiseTheirEventOnly :
    writeOf (.slewCfgWrite .mcu 5) = some (.mcu, 0x40048, 5) ∧ targets State.reset .mcu 0x40048 = [0] ∧ gateOf State.reset
    0x40048 0 ≠ .pass := by decide

/-- The hypotheses of OwnRowAndRegisterWriteAgree are met. -/
theorem wit_OwnRowAndRegisterWriteAgree :
    (Instr.xoCorrWrite .pcie 7).wf = true ∧ writeOf (.xoCorrWrite .pcie 7) = some (.pcie, 0x7002C, 7) := by decide

/-- The hypotheses of TimesWithTooManyNanosecondsAreRejected are met. -/
theorem wit_TimesWithTooManyNanosecondsAreRejected :
    reaches .mcu 0x40028 0 (upWith (stageWord .mcu 0x40020 1000000000)) ∧ 999999999 < stagedWord (upWith (stageWord .mcu
    0x40020 1000000000)) .mcu 0x40020 := by decide

/-- The hypotheses of RegisterAccessesTakeEffect are met. -/
theorem wit_RegisterAccessesTakeEffect :
   ((0x40048 : Nat) < 0x100000 ∧ 0x40048 % 4 = 0 ∧ isSel 0x40048 = false ∧ reaches .mcu 0x40048 0 up) ∧
   ((0x50000 : Nat) < 0x100000 ∧ 0x50000 % 4 = 0 ∧ isSel 0x50000 = true ∧ hostUp up = true) ∧
   ((0x40010 : Nat) < 0x100000 ∧ 0x40010 % 4 = 0 ∧ isSel 0x40010 = false ∧ gateOf up 0x40010 (readInst up .mcu 0x40010) =
     .pass ∧ captureOf 0x40010 = some (0x40010, 3)) ∧
   (gateOf up 0x40018 (readInst up .mcu 0x40018) = .pass ∧ captureOf 0x40018 = some (0x40010, 3)) ∧
   (gateOf up 0x40048 (readInst up .mcu 0x40048) = .pass ∧ captureOf 0x40048 = none ∧ readPlain 0x40048 = true) ∧
   (isSel 0x40010 = false ∧ gateOf up 0x40010 (readInst up .mcu 0x40010) = .pass ∧ ownerOf 0x40010 0 = islTIME) ∧
   (gateOf (upWith fun s => setCross islHOST islTIME false s) 0x40010 0 = .lost islTIME) :=
 ⟨by decide, by decide, by decide, by decide, by decide, by decide, by decide⟩

/-- The hypotheses of CrossingsCarryWordsOnlyWhileUp are met. -/
theorem wit_CrossingsCarryWordsOnlyWhileUp :
   (isCrossing up 16 (islPIPE 0) = true ∧ islUp up 16 = true ∧ islUp up (islPIPE 0) = true ∧ crossUp (setCross 16 (islPIPE
     0) false up) 16 (islPIPE 0) = false) ∧
   (smGet Xing.down up.xings (islBUF * 32 + islEGR) = ⟨true, []⟩ ∧ crossSize islBUF islEGR = some (1024, 32)) ∧
   (crossSize islTIME islEGR = some (80, 4) ∧ smGet Xing.down (upWith fun s =>
     { s with xings := smPut Xing.down s.xings (islTIME * 32 + islEGR) ⟨true, [1, 2, 3, 4]⟩ }).xings (islTIME * 32 + islEGR)
     = ⟨true, [1, 2, 3, 4]⟩) ∧
   (smGet Xing.down (upWith fun s => { s with xings := smPut Xing.down s.xings (islTIME * 32 + islEGR) ⟨true, [1]⟩ }).xings
     (islTIME * 32 + islEGR) = ⟨true, [1]⟩) ∧
   (crossUp (setCross islTIME islEGR false up) islTIME islEGR = false) ∧
   (crossUp up islBUF islEGR = true ∧ islClkValid up islBUF = true ∧ islClkValid up islEGR = true) :=
 ⟨by decide, by decide, by decide, by decide, by decide, by decide⟩

/-- The hypotheses of ClockMonitorsAndApllsDriveClockValid are met. -/
theorem wit_ClockMonitorsAndApllsDriveClockValid :
   (islPresent up islRED = true) ∧
   (islPresent up islTIME = true ∧ apllLocked (setF R.SYN_APLL_STAT_LOCK 31 up) 1 = true) ∧
   (islClkValid (setF R.SYN_APLL_STAT_LOCK 31 (setF R.RST_ISL_CLKVALID_ISLAND 1 up)) islTIME = false ∧ islReleased (setF
     R.SYN_APLL_STAT_LOCK 31 (setF R.RST_ISL_CLKVALID_ISLAND 1 up)) islTIME = true) ∧
   (apllLocked up 2 = false) ∧
   (apllLocked (setF R.SYN_APLL_STAT_LOCK 0 up) 0 = false ∧ { up with sys := { up.sys with oscOk := true } }.sys.oscOk =
     true) ∧
   (apllLocked (setF R.SYN_APLL_STAT_LOCK 31 up) 3 = true) ∧
   (apllLocked (setF R.SYN_APLL_STAT_LOCK 31 up) 1 = true) :=
 ⟨by decide, by decide, by decide, by decide, by decide, by decide, by decide⟩

/-- The hypotheses of TheLastAdvancesByOnePointSixNs are met. -/
theorem wit_TheLastAdvancesByOnePointSixNs :
   (timRuns up = true) ∧
   ((0 : Nat) < 2 ^ 48 ∧ (999999999 : Nat) < 1000000000 ∧ (4294967295 : Nat) < 2 ^ 32 ∧ (4 : Nat) < 5) ∧
   (lastInFormat State.reset) :=
 ⟨by decide, by decide, ⟨by decide, by decide, by decide, by decide⟩⟩

/-- The hypotheses of StepsAreRequestedOnceAndAppliedWhole are met. -/
theorem wit_StepsAreRequestedOnceAndAppliedWhole :
   (reaches .mcu 0x40034 0 up) ∧
   (reaches .pcie 0x40028 0 up ∧ stagedWord up .pcie 0x40020 ≤ 999999999) ∧
   ((none : Option StepReq) = up.tim.step) ∧
   (let q : StepReq := ⟨0, false, 65536, false, true, 0⟩;
    q.servo = true ∧ q.cyc = up.tim.cyc) ∧
   ((3 : Int) * unitUs % unitUs = 0 ∧ (1 : Int) + unitUs ≤ 3 * unitUs) ∧
   (timUp up = true) ∧
   ((upWith fun s => { s with tim := { s.tim with step := some ⟨0, false, 65536, false, false, 0⟩ } }).tim.step = some ⟨0,
     false, 65536, false, false, 0⟩ ∧ timRuns (upWith fun s =>
     { s with tim := { s.tim with step := some ⟨0, false, 65536, false, false, 0⟩ } }) = true ∧ (0 : Int) ≤ now (upWith fun
     s => { s with tim := { s.tim with step := some ⟨0, false, 65536, false, false, 0⟩ } })) :=
 ⟨by decide, by decide, by decide, (by dsimp only; decide), by decide, by decide, by decide⟩

/-- The hypotheses of SlewsRunAtTheSlewWord are met. -/
theorem wit_SlewsRunAtTheSlewWord :
   (reaches .mcu 0x40054 0 up) ∧
   ((addSlew 5 up).tim.slewRem ≠ 0 ∧ (addSlew 5 up).tim.slewRem + -5 * 4294967296 = 0) ∧
   (reaches .i2c 0x40048 0 up) ∧
   (let s := { up with tim := { up.tim with slewRem := 1 } };
    timRuns s = true ∧ s.tim.slewRem ≠ 0 ∧ (8 * slewWord s + s.tim.slewRes5) / 5 ≥ s.tim.slewRem.natAbs) ∧
   (timRuns (addSlew 5 up) = true ∧ (addSlew 5 up).tim.slewRem ≠ 0) :=
 ⟨by decide, by decide, by decide, (by dsimp only; decide), by decide⟩

/-- The hypotheses of DomainEstimatesFeedTheWelt are met. -/
theorem wit_DomainEstimatesFeedTheWelt :
   (timUp (setF R.FWT_STATUS_SERVO_RUN 1 up) = true ∧ servoRuns (setF R.FWT_STATUS_SERVO_RUN 1 up) = true ∧ domEnabled (setF
     R.TIM_DOMA_CFG_ENA 1 (setF R.FWT_STATUS_SERVO_RUN 1 up)) false = true) ∧
   ((dom { up with tim := { up.tim with domA := ⟨true, true, 0, 0, -1000000000 * unitMs⟩ } } false).fresh = true ∧ maxAge
     { up with tim := { up.tim with domA := ⟨true, true, 0, 0, -1000000000 * unitMs⟩ } } < domAge
     { up with tim := { up.tim with domA := ⟨true, true, 0, 0, -1000000000 * unitMs⟩ } } false) ∧
   (reaches .mcu 0x60020 0 up) ∧
   (timUp up = true ∧ servoRuns up = true) :=
 ⟨by decide, by decide, by decide, by decide⟩

/-- The hypotheses of DomainSwitchesAreRequestedArmedCancelledAndRefused are met. -/
theorem wit_DomainSwitchesAreRequestedArmedCancelledAndRefused :
   (reaches .mcu 0x40000 0 up) ∧
   (reaches .pcie 0x40000 0 up) ∧
   (reaches .i2c 0x40000 0 up) ∧
   (reaches .mcu 0x40000 0 up) ∧
   (reaches .i2c 0x40000 0 up) ∧
   (bitOf 1 1 = false ∧ bitOf 1 0 ≠ up.tim.activeB ∧ domainB up = true) ∧
   (bitOf 2 1 = true ∧ bitOf 2 0 = up.tim.activeB) ∧
   ({ up with tim := { up.tim with domHeld := true } }.tim.domHeld = true) ∧
   (weltEna (setFlag R.TIM_CTL_WELT_ENA false up) = false) ∧
   (weltEna (setFlag R.TIM_CTL_WELT_ENA true up) = true) ∧
   (bitOf 0x80 1 = false ∧ bitOf 0x80 0 = up.tim.activeB) ∧
   (switchRefused up true true = true) ∧
   (up.tim.welt.valid = false) ∧
   (reaches .mcu 0x40068 0 up ∧ stagedWord up .mcu 0x40060 ≤ 999999999) ∧
   (let s := { up with tim := { up.tim with armed := true } };
    timUp s = true ∧ s.tim.armed = true ∧ (getT96 s 0x40060 0).units ≤ now s) ∧
   (let s := { up with tim := { up.tim with blend := some ⟨-5, 5, 0, 0⟩ } };
    s.tim.blend = some ⟨-5, 5, 0, 0⟩ ∧ (-5 : Int) + 5 ≤ now s) ∧
   (getF (setF R.TIM_CTL_ADOPT 0 up) R.TIM_CTL_ADOPT = 0) ∧
   (let s := { up with tim := { up.tim with converging := true } };
    timRuns s = true ∧ s.tim.converging = true ∧ (8 * slewWord s + s.tim.convRes5) / 5 ≥ s.tim.target.natAbs) :=
 ⟨by decide, by decide, by decide, by decide, by decide, by decide, by decide, by decide, by decide, by decide, by decide,
   by decide, by decide, by decide, (by dsimp only; decide), (by dsimp only; decide), by decide, (by dsimp only; decide)⟩

/-- The hypotheses of PtpConfigurationIsWrittenAndItsLimitsExpire are met. -/
theorem wit_PtpConfigurationIsWrittenAndItsLimitsExpire :
   (reaches .mcu 0x60108 0 up) ∧
   (reaches .mcu 0x60104 0 up) ∧
   (bitsOf 0 0 4 = 0) ∧
   (bitsOf 9 0 4 ≠ 0 ∧ bitsOf 9 0 4 ≤ 9 ∧ flag (ptpUp 4) R.PTE_PORT_CFG_ENA = true ∧ getF (ptpUp 4)
     R.PTE_PORT_STATE_FORCE_REASON = 0) ∧
   (reaches .mcu 0x60100 0 up) ∧
   (let s := setTally 0 { Tally.reset with invalidSince := -1000 * unitMs } up;
    flag s R.TSU_TALLY_VALID = false ∧ (tally s 0).invalidSince + 100 * unitMs < now s) ∧
   (let s := setPteInst 0 { PteInst.reset with syncAt := -1000 * unitS } (ptpUp 9);
    isSlave s 0 = true ∧ (pteInst s 0).syncLost = false ∧ (pteInst s 0).syncAt + (max 1 (getF s R.PTE_TIMEOUT_SYNC_RCPT) :
      Nat) * logUnits (logSync s 0) ≤ now s) ∧
   (let s := setPteInst 0 { PteInst.reset with wait := [⟨3, none, 0, 0⟩] } (ptpUp 9);
    ((pteInst s 0).wait.filter fun w => decide (w.limit ≤ now s)) ≠ []) :=
 ⟨by decide, by decide, by decide, by decide, by decide, (by dsimp only; decide), (by dsimp only; decide),
   (by dsimp only; decide)⟩

/-- The hypotheses of PtpMessagesAreSentAtTheirInstants are met. -/
theorem wit_PtpMessagesAreSentAtTheirInstants :
   (let s := setPteInst 0 { PteInst.reset with lastSync := -100 * unitS } (ptpUp 6);
    pteOn s 0 = true ∧ pteState s 0 = 6 ∧ gmSilent s 0 = false ∧ flag s R.PTE_PORT_CFG_UNICAST = false ∧ schedAfter (logSync
      s 0) (instPort 0) (pteInst s 0).lastSync ≤ now s) ∧
   (let s := { ptpUp 6 with pte := { (ptpUp 6).pte with partners := [⟨0, 0, 1, 2, [⟨0, 0, 5 * unitS, 0, none⟩]⟩] } };
    pteOn s 0 = true ∧ unicastDue (partnerRead 0 1 2 s.begin) 0 1 2 0 = true ∧ (useGrant 0 1 2 0 (partnerRead 0 1 2
      s.begin)).isSome = true) ∧
   (let s := setPteInst 0 { PteInst.reset with lastAnn := -100 * unitS } (ptpUp 6);
    pteOn s 0 = true ∧ gmSilent s 0 = false ∧ schedAfter (logAnn s 0) (instPort 0) (pteInst s 0).lastAnn ≤ now s) ∧
   (let s := { ptpUp 6 with pte := { (ptpUp 6).pte with partners := [⟨0, 0, 1, 2, [⟨11, 0, 5 * unitS, 0, none⟩]⟩] } };
    unicastDue (partnerRead 0 1 2 (setTemplate 0 none s.begin)) 0 1 2 11 = true ∧ (useGrant 0 1 2 11 (partnerRead 0 1 2
      (setTemplate 0 none s.begin))).isSome = true) ∧
   (let s := setPteInst 0 { PteInst.reset with lastPd := -100 * unitS } (ptpUp 4 true);
    pdOn s 0 = true ∧ schedAfter (logPd s 0) (instPort 0) (pteInst s 0).lastPd ≤ now s) ∧
   (let s := setPteInst 0 { PteInst.reset with dueDelay := some 0 } (ptpUp 9);
    (pteInst s 0).dueDelay = some 0 ∧ (0 : Int) ≤ now s ∧ pteOn s 0 = true ∧ isSlave s 0 = true ∧ isP2P s 0 = false) ∧
   (let s := { ptpUp 6 with pte := { (ptpUp 6).pte with txq := [⟨0, ptpMsg0 0, false, none, none⟩] } };
    (s.pte.txq.find? fun x => instPort x.inst == 0) = some ⟨0, ptpMsg0 0, false, none, none⟩) ∧
   (insertion up ⟨0, ptpMsg0 2, false, none, none⟩ ⟨0, 0, 0⟩ = some (false, 0, 0)) ∧
   (insertion up ⟨0, ptpMsg0 3, false, some (0, 5), none⟩ ⟨0, 0, 0⟩ = none) ∧
   (let s := { ptpUp 6 with pte := { (ptpUp 6).pte with fups := [(0, ptpMsg0 8, none)] } };
    (s.pte.fups.find? fun x => x.1 == 0) = some (0, ptpMsg0 8, none) ∧ pteOn s 0 = true ∧ gmSilent s 0 = false ∧ pteState s
      0 = 6) :=
 ⟨(by dsimp only; decide), (by dsimp only; decide), (by dsimp only; decide), (by dsimp only; decide),
   (by dsimp only; decide), (by dsimp only; decide), (by dsimp only; decide), by decide, by decide, (by dsimp only; decide)⟩

/-- The hypotheses of PtpReceivesAreTakenByTheirInstances are met. -/
theorem wit_PtpReceivesAreTakenByTheirInstances :
   (let s := taking (ptpUp 9) (ptpMsg0 0);
    engineFrame s 0 = some ({ frame0 with engine := some 0, ptp := some (ptpMsg0 0) }, 0, ptpMsg0 0) ∧ pteOn s 0 = true ∧
      isSlave s 0 = true ∧ (usableRx frame0).isSome = true) ∧
   (let s := taking (ptpUp 9) (ptpMsg0 0 true);
    engineFrame s 0 = some ({ frame0 with engine := some 0, ptp := some (ptpMsg0 0 true) }, 0, ptpMsg0 0 true) ∧ pteOn s 0 =
      true ∧ isSlave s 0 = true) ∧
   (let s := taking (setPteInst 0 { PteInst.reset with two := some ⟨0, 0, 0, 0, false, 0⟩ } (ptpUp 9)) (ptpMsg0 8);
    engineFrame s 0 = some ({ frame0 with engine := some 0, ptp := some (ptpMsg0 8) }, 0, ptpMsg0 8) ∧ pteOn s 0 = true ∧
      isSlave s 0 = true ∧ (pteInst s 0).two = some ⟨0, 0, 0, 0, false, 0⟩) ∧
   (engineFrame up 0 = none ∧ timUp up = true) ∧
   (let s := taking (ptpUp 6) (ptpMsg0 1);
    engineFrame s 0 = some ({ frame0 with engine := some 0, ptp := some (ptpMsg0 1) }, 0, ptpMsg0 1) ∧ pteOn s 0 = true ∧
      pteState s 0 = 6 ∧ flag (partnerRead 0 (senderAddr frame0) 0 (pteRx 0 (setFrame 0 none s.begin)))
      R.PTE_PORT_CFG_UNICAST = false ∧ useGrant 0 (senderAddr frame0) 0 9 (partnerRead 0 (senderAddr frame0) 0 (pteRx 0
      (setFrame 0 none s.begin))) = none ∧ (takeToken 0 (partnerRead 0 (senderAddr frame0) 0 (pteRx 0 (setFrame 0 none
      s.begin)))).1 = true) ∧
   (let s := taking (setPteInst 0 { PteInst.reset with wait := [⟨0, some 0, 0, 5⟩] } (ptpUp 9)) { ptpMsg0 9 with req := 1 };
    (engineFrame s 0).isSome = true ∧ pteOn s 0 = true ∧ isSlave s 0 = true ∧ portIdent s 0 = 1 ∧ ((pteInst s 0).wait.find?
      fun w => w.seq == 0 && w.t3.isSome && decide (now s ≤ w.limit)) = some ⟨0, some 0, 0, 5⟩) ∧
   (let s := taking (ptpUp 4 true) (ptpMsg0 2);
    (engineFrame s 0).isSome = true ∧ pdOn s 0 = true ∧ useGrant 0 (senderAddr frame0) 0 3 (partnerRead 0 (senderAddr
      frame0) 0 (pteRx 0 (setFrame 0 none s.begin))) = none ∧ (takeToken 0 (partnerRead 0 (senderAddr frame0) 0 (pteRx 0
      (setFrame 0 none s.begin)))).1 = true) ∧
   (let s := taking (setPteInst 0 { PteInst.reset with pd := some ⟨0, some 0, 0, none⟩ } (ptpUp 4 true))
      { ptpMsg0 3 with req := 1 };
    (engineFrame s 0).isSome = true ∧ pdOn s 0 = true ∧ portIdent s 0 = 1 ∧ (pteInst s 0).pd = some ⟨0, some 0, 0, none⟩) ∧
   (let s := taking (setPteInst 0 { PteInst.reset with pd := some ⟨0, some 0, 0, none⟩ } (ptpUp 4 true))
      { ptpMsg0 3 true with req := 1 };
    (engineFrame s 0).isSome = true ∧ pdOn s 0 = true ∧ portIdent s 0 = 1) ∧
   (let s := taking (setPteInst 0 { PteInst.reset with pd := some ⟨0, some 0, 1, none⟩ } (ptpUp 4 true))
      { ptpMsg0 3 with req := 1 };
    (engineFrame s 0).isSome = true ∧ pdOn s 0 = true ∧ portIdent s 0 = 1 ∧ ((usableRx frame0).map fun r => r.epoch) ≠ some
      1) ∧
   (let s := taking (setPteInst 0 { PteInst.reset with pd := some ⟨0, some 0, 0, some (5, 1, 0)⟩ } (ptpUp 4 true))
      { ptpMsg0 10 with req := 1 };
    (engineFrame s 0).isSome = true ∧ pdOn s 0 = true ∧ portIdent s 0 = 1) ∧
   (let s := taking (ptpUp 4) (ptpMsg0 11);
    (engineFrame s 0).isSome = true ∧ flag s R.PTE_GCFG_ENA = true ∧ mapEna s (instB 0) = true ∧ 4 ≤ pteState s 0) ∧
   (timUp up = true) :=
 ⟨(by dsimp only; decide), (by dsimp only; decide), (by dsimp only; decide), by decide, (by dsimp only; decide),
   (by dsimp only; decide), (by dsimp only; decide), (by dsimp only; decide), (by dsimp only; decide),
   (by dsimp only; decide), (by dsimp only; decide), (by dsimp only; decide), by decide⟩

/-- The hypotheses of UnicastGrantsAreGivenCancelledAndExpire are met. -/
theorem wit_UnicastGrantsAreGivenCancelledAndExpire :
   (flag up R.FWT_STATUS_MGMT_RUN = true ∧ instPresent up 6 127 = true) ∧
   (flag (setF R.PTE_UNI_CFG_ENA 0 up) R.PTE_UNI_CFG_ENA = false) ∧
   (flag up R.FWT_STATUS_MGMT_RUN = true) :=
 ⟨by decide, by decide, by decide⟩

/-- The hypotheses of ReferenceCandidatesAreSampledTestedAndRejected are met. -/
theorem wit_ReferenceCandidatesAreSampledTestedAndRejected :
   (let s := setF R.TDC_CH_CFG_ENA 1 (setF R.TDC_GCFG_ENA 1 (setCross islTDC islTIME true up));
    timUp s = true ∧ candFed s 0 = true ∧ spansStep (adjFor 0 s) 0 0 = false) ∧
   (let s := setF R.REF_CAND_CFG_ENA 1 up;
    s.ref.cands.length = 16 ∧ candTakes s 0 = true) ∧
   (let s := setCand 15 { Cand.reset with lastMsg := -100000 * unitS } (setCandState 15 2 up);
    timUp s = true ∧ candState s 15 ≠ 0 ∧ activityLost s 15 = true) ∧
   (candState (setCandState 3 2 up) 3 ≠ 0) ∧
   (let s := setCand 0 { Cand.reset with winAt := -100000 * unitS } (setF R.REF_CAND_CFG_ENA 1 up);
    timUp s = true ∧ flag s R.REF_CAND_CFG_ENA 0 = true ∧ winEnd s 0 ≤ now s) ∧
   (candState (setCandState 0 1 up) 0 = 1 ∧ withinPpm 0 (getF (setCandState 0 1 up) R.REF_CAND_LIMITS_ACCEPT) = true) ∧
   (candState (setCandState 0 2 up) 0 = 2 ∧ withinPpm 1099511627776 (getF (setCandState 0 2 up) R.REF_CAND_LIMITS_ACCEPT) =
     false) ∧
   (candState (setCandState 0 3 up) 0 = 3 ∧ withinPpm 1099511627776 (max (getF (setCandState 0 3 up)
     R.REF_CAND_LIMITS_ACCEPT) (getF (setCandState 0 3 up) R.REF_CAND_LIMITS_REJECT)) = false) ∧
   (candState (setCandState 0 3 up) 0 = 3 ∧ withinPpm 0 (max (getF (setCandState 0 3 up) R.REF_CAND_LIMITS_ACCEPT) (getF
     (setCandState 0 3 up) R.REF_CAND_LIMITS_REJECT)) = true) ∧
   (let s := setCand 0 { Cand.reset with goodSince := some (-100000 * unitS) } (setCandState 0 2 up);
    (cand s 0).goodSince = some (-100000 * unitS) ∧ timUp s = true ∧ candState s 0 = 2 ∧ -100000 * unitS + (max 1 (getF s
      R.REF_CAND_MON_QUAL_S) : Nat) * unitS ≤ now s) ∧
   (reaches .mcu 0x7001C 0 up) ∧
   (reaches .mcu (0x71000 + 0x40 * 2) 0 up) ∧
   (reaches .mcu (0x71004 + 0x40 * 2 + 8) 0 up) ∧
   (reaches .mcu 0x70004 0 up) :=
 ⟨(by dsimp only; decide), (by dsimp only; decide), (by dsimp only; decide), by decide, (by dsimp only; decide), by decide,
   by decide, by decide, by decide, (by dsimp only; decide), by decide, by decide, by decide, by decide⟩

/-- The hypotheses of DpllsAreSelectedForcedRealignedAndControlled are met. -/
theorem wit_DpllsAreSelectedForcedRealignedAndControlled :
   (timUp up = true) ∧
   (reaches .mcu 0x70008 0 up) ∧
   (reaches .mcu (0x72000 + 0x100 * 3) 0 up) ∧
   (reaches .mcu (0x7200C + 0x100 * 1) 0 up) ∧
   (reaches .mcu (0x7200C + 0x100 * 2) 0 up) ∧
   (reaches .mcu (0x7200C + 0x100 * 0) 0 up) ∧
   (flag up R.REF_DPLL_STAT_SEL_VALID = false) ∧
   (let s := setF R.REF_DPLL_CTL_REALIGN_MODE 0 (setF R.REF_CAND_CFG_ALIGN 1 (setF R.REF_DPLL_STAT_SEL_VALID 1 (setF
      R.REF_DPLL_STAT_STATE 2 (setDpll 0 { Dpll.reset with b := 5 } up))));
    candTimeAlign s (getF s R.REF_DPLL_STAT_SEL_CAND) = true ∧ flag s R.REF_DPLL_STAT_SEL_VALID = true ∧ dpllState s 0 =
      stLOCKED ∧ getF s R.REF_DPLL_CTL_REALIGN_MODE ≠ 1 ∧ (dpll s 0).b ≠ 0) ∧
   (let s := setDpll 0 { Dpll.reset with realign := true } up;
    timRuns s = true ∧ (dpll s 0).realign = true ∧ (8 * slewWord s + (dpll s 0).bRes5) / 5 ≥ (dpll s 0).b.natAbs) :=
 ⟨by decide, by decide, by decide, by decide, by decide, by decide, by decide, (by dsimp only; decide),
   (by dsimp only; decide)⟩

/-- The hypotheses of DpllLoopsHoldAndFollowTheOscillator are met. -/
theorem wit_DpllLoopsHoldAndFollowTheOscillator :
   (let s := setF R.REF_DPLL_STAT_STATE 2 (setDpll 0 { Dpll.reset with firstUpd := true } up);
    timUp s = true ∧ dpllState s 0 = stLOCKED ∧ (dpll s 0).firstUpd = true) ∧
   (let s := setF R.REF_DPLL_STAT_STATE 2 (setF R.REF_XO_STAT_SRC 0 up);
    timUp s = true ∧ dpllState s 0 = stLOCKED ∧ flag s R.REF_XO_STAT_SRC = false) ∧
   (let s := setF R.REF_XO_STAT_WARM 0 (setF R.REF_DPLL_STAT_STATE 2 (setF R.REF_XO_STAT_SRC 1 up));
    timUp s = true ∧ dpllState s 0 = stLOCKED ∧ flag s R.REF_XO_STAT_SRC = true ∧ flag s R.REF_XO_STAT_WARM = false) ∧
   (let s := setF R.REF_DPLL_STAT_STATE 3 up;
    timRuns s = true ∧ dpllState s 0 = stHOLDOVER) ∧
   (let s := setDpll 0 { Dpll.reset with lockedSecs := 1000000 } up;
    timUp s = true ∧ getF s R.REF_DPLL_CFG3_HO_MIN_S ≤ (dpll s 0).lockedSecs) ∧
   (reaches .mcu (0x72060 + 0x100 * 1 + 4) 0 up) ∧
   (reaches .mcu (0x72068 + 0x100 * 1 + 4) 0 up) ∧
   (dpllState up 0 ≠ stOPEN) ∧
   (let s := setF R.REF_DPLL_STAT_STATE 4 up;
    dpllState s 0 = stOPEN ∧ (dpll s 0).freq.held = none ∧ olThisCycle s (dpll s 0).freq = false ∧ olThisCycle s (dpll s
      0).phase = false ∧ olFree s (dpll s 0).freq = true ∧ (dpll s 0).phase.held = none ∧ olFree s (dpll s 0).phase = true) ∧
   (let s := setDpll 0 { Dpll.reset with phase := ⟨none, some 0, 5⟩, freq := ⟨none, some 0, 5⟩ } (setF R.REF_DPLL_STAT_STATE
      4 up);
    dpllState s 0 = stOPEN ∧ (dpll s 0).freq.held = none ∧ (dpll s 0).phase.held = none ∧ olThisCycle s (dpll s 0).freq =
      false ∧ olThisCycle s (dpll s 0).phase = false ∧ olFree s (dpll s 0).freq = false ∧ olFree s (dpll s 0).phase = false) ∧
   (let s := setDpll 0 { Dpll.reset with phase := ⟨none, some 0, 0⟩, freq := ⟨none, some 0, 0⟩ } (setF R.REF_DPLL_STAT_STATE
      4 up);
    dpllState s 0 = stOPEN ∧ (dpll s 0).freq.held = none ∧ (dpll s 0).phase.held = none ∧ olThisCycle s (dpll s 0).freq =
      true ∧ olThisCycle s (dpll s 0).phase = true) ∧
   (let s := setDpll 0 { Dpll.reset with phase := ⟨some 3, none, 0⟩ } (setF R.REF_DPLL_STAT_STATE 4 up);
    dpllState s 0 = stOPEN ∧ (dpll s 0).phase.held = some 3) ∧
   (let s := setDpll 0 { Dpll.reset with phase := ⟨some 3, none, 0⟩, freq := ⟨some 4, none, 0⟩ } up;
    timUp s = true ∧ (dpll s 0).phase.held = some 3 ∧ olFree s (dpll s 0).phase = true ∧ (dpll s 0).freq.held = some 4 ∧
      olFree s (dpll s 0).freq = true) ∧
   (reaches .mcu 0x7002C 0 up) ∧
   (timUp up = true ∧ hasOcxo up = true) ∧
   (timUp up = true ∧ hasOcxo up = true) ∧
   (let s := setF R.REF_XO_CFG_WARM_PIN_USE 0 (setF R.REF_XO_STAT_TEST_PASS 1 (setF R.REF_XO_STAT_WARM 0 up));
    flag s R.REF_XO_STAT_WARM = false ∧ flag s R.REF_XO_STAT_TEST_PASS = true ∧ flag s R.REF_XO_CFG_WARM_PIN_USE = false) ∧
   (let s := setF R.REF_XO_CFG_WARM_PIN_USE 1 (setF R.REF_XO_STAT_PIN 0 (setF R.REF_XO_STAT_WARM 1 up));
    flag s R.REF_XO_STAT_WARM = true ∧ flag s R.REF_XO_CFG_WARM_PIN_USE = true ∧ flag s R.REF_XO_STAT_PIN = false) :=
 ⟨(by dsimp only; decide), (by dsimp only; decide), (by dsimp only; decide), (by dsimp only; decide),
   (by dsimp only; decide), by decide, by decide, by decide, (by dsimp only; decide), (by dsimp only; decide),
   (by dsimp only; decide), (by dsimp only; decide), (by dsimp only; decide), by decide, by decide, by decide,
   (by dsimp only; decide), (by dsimp only; decide)⟩

/-- The hypotheses of PeriodicInstantsAreExact are met. -/
theorem wit_PeriodicInstantsAreExact :
   (Period.ok ⟨1001, 3⟩ = true) ∧
   ((⟨1000000000, 48000⟩ : Period).ok = true) :=
 ⟨by decide, by decide⟩

/-- The hypotheses of OutputsStartStopAndRealign are met. -/
theorem wit_OutputsStartStopAndRealign :
   (reaches .mcu 0x80018 0 up) ∧
   (let s := setOut 3 { OutRt.reset with take := some [0] } (setOutState 3 oRUNNING up);
    (outRt s 3).take = some [0] ∧ outState s 3 = oRUNNING) ∧
   (let s := setOut 3 { OutRt.reset with delay := some 5 } (setOutState 3 oRUNNING up);
    (outRt s 3).take = none ∧ outState s 3 = oRUNNING) ∧
   (reaches .mcu (0x80800 + 0x40 * 11) 0 up) ∧
   (reaches .mcu (0x80800 + 0x40 * 0) 0 up) ∧
   (reaches .mcu (0x80800 + 0x40 * 5) 0 up) ∧
   (bitOf 0x40000000 29 = false ∧ bitOf 0x40000000 30 = true) ∧
   (let s := setF R.SYN_OUT_CFG_MODE 2 up 3;
    outMode s 3 ≠ 0 ∧ outState s 3 ≠ oRUNNING ∧ outState s 3 ≠ oRESTARTING ∧ bitOf 0x80000000 31 = true ∧ bitOf 0x80000000
      30 = false ∧ bitOf 0x80000000 29 = false) ∧
   (startTime up 0 < now up + 2 * unitUs) ∧
   (let s := setT96 0x80804 0x40 ⟨1, 0, 0⟩ up 0;
    now s + 2 * unitUs ≤ startTime s 0) ∧
   (let s := setOut 3 { OutRt.reset with armed := some 0 } (setOutState 3 oARMED up);
    (outRt s 3).armed = some 0 ∧ synUp s = true ∧ outState s 3 = oARMED ∧ (0 : Int) ≤ now s) ∧
   (bitOf 0x20000000 31 = false ∧ bitOf 0x20000000 30 = false ∧ bitOf 0x20000000 29 = true) ∧
   ((outRt (setOut 3 { OutRt.reset with completing := true } up) 3).completing = true) ∧
   (let s := setOutState 3 oRESTARTING (setF R.SYN_OUT_CFG_MODE 0 up 3);
    outState s 3 = oRESTARTING ∧ (outRt s 3).completing = false ∧ outMode s 3 = 0) ∧
   (outState up 3 ≠ oRESTARTING) ∧
   (let s := setOut 3 { OutRt.reset with placing := true } (setOutState 3 oRUNNING (setF R.SYN_OUT_CFG_MODE 1 up 3));
    (outRt s 3).placing = true ∧ outState s 3 = oRUNNING ∧ outMode s 3 = 1 ∧ alignWaits s (outApll s 3) = false ∧ (2 * 65536
      * (0 : Int).natAbs : Int) ≤ vcoUnits s (outApll s 3) + 131072) :=
 ⟨by decide, (by dsimp only; decide), (by dsimp only; decide), by decide, by decide, by decide, by decide,
   (by dsimp only; decide), by decide, (by dsimp only; decide), (by dsimp only; decide), by decide, by decide,
   (by dsimp only; decide), by decide, (by dsimp only; decide)⟩

/-- The hypotheses of TodMessagesAreSentPairedAndDropped are met. -/
theorem wit_TodMessagesAreSentPairedAndDropped :
   (let s := setF R.SYN_TOD_CFG_OUT_ENA 1 up;
    synUp s = true ∧ jtagHolds s = false ∧ flag s R.SYN_TOD_CFG_OUT_ENA = true) ∧
   ((todEdge (setOut 0 { OutRt.reset with eDen := 1 } (setPeriod 0x80404 0x40 ⟨1000, 1⟩ (setF R.SYN_OUT_CFG_MODE 2
     (setOutState 0 oRUNNING { up with tim := { up.tim with last := ⟨10, 0, 0, 0⟩ } }))))).isSome = true) ∧
   (let s := setF R.SYN_TOD_CFG_IN_ENA 1 up;
    synUp s = true ∧ flag s R.SYN_TOD_CFG_IN_ENA = true) ∧
   (todOk [] = false) ∧
   (todOk ([0x4B, 0x5A, 1, 20] ++ List.replicate 20 0 ++ (let c := crc16 ([1, 20] ++ List.replicate 20 0); [c / 256, c %
     256])) = true ∧ flag (setF R.SYN_TOD_CFG_IN_LABEL 1 up) R.SYN_TOD_CFG_IN_LABEL = true ∧ flag (setF
     R.SYN_TOD_CFG_IN_LABEL 0 up) R.SYN_TOD_CFG_IN_LABEL = false) ∧
   (let s := { up with syn := { up.syn with todWait := [⟨[], -1000 * unitMs⟩] } };
    (todMatch s.begin).syn.todWait = [⟨[], -1000 * unitMs⟩] ∧ -1000 * unitMs + 990 * unitMs ≤ now (todMatch s.begin)) :=
 ⟨(by dsimp only; decide), by decide, (by dsimp only; decide), by decide, (by set_option maxRecDepth 20000 in decide),
   (by dsimp only; decide)⟩

/-- The hypotheses of TdcMeasuresEdgesAndDeliversRecords are met. -/
theorem wit_TdcMeasuresEdgesAndDeliversRecords :
   (tdcUp up = true ∧ 500000000 > 400000000 * 2 ^ getF up (R.TDC_PRESC_DIV.up (2 * 7))) ∧
   (tdcUp up = true ∧ 400000000 ≤ 400000000 * 2 ^ getF up (R.TDC_PRESC_DIV.up (2 * 7)) ∧ (prescale 7 true up.begin).1 =
     true) ∧
   (let s := setF R.TDC_PRESC_DIV 1 { up with tdc := { up.tdc with presc := [(0, 1)] } };
    tdcUp s = true ∧ 10000000 ≤ 400000000 * 2 ^ getF s (R.TDC_PRESC_DIV.up (2 * 0)) ∧ (prescale 0 true s.begin).1 = false) ∧
   (tdcUp up = true ∧ 8 ≤ 0x1B) ∧
   (let s := setF R.TDC_CH_CFG_SRC 0x1B (setF R.TDC_CH_CFG_ENA 1 (setF R.TDC_GCFG_ENA 1 up));
    chActive s 0 = true ∧ chSrc s 0 = 0x1B ∧ edgeTaken s 0 true = true ∧ s.tdc.borrowed ≠ some 0 ∧ s.tdc.spare.isNone = true
      ∧ 0x1B ≠ candSrc s 14) ∧
   (tdcUp up = true ∧ 24 ≤ 24) ∧
   (tdcUp up = true ∧ crossUp up islTDC islTIME = true) ∧
   (let s := setTdcCh 0 { TdcCh.reset with queue := [[0, 0, 0, 0]] } up;
    (tdcCh s 0).queue = [[0, 0, 0, 0]] ∧ s.tdc.turn = 0 ∧ flag s R.TDC_CH_CFG_HOST = false) ∧
   (tdcUp up = true ∧ timRuns up = true) ∧
   (reaches .mcu (0x91004 + 0x40 * 6) 0 up) ∧
   (tdcUp up = true) ∧
   (let s := setTdcCh 0 { TdcCh.reset with armed := some 0, start := some ⟨0, 0, 0, true, true, 0, false, false⟩ } (setF
      R.TDC_CH_CFG2_WIN_US 1 { up with tdc := { up.tdc with k := 626 } });
    windowOver s 0 = true ∧ (tdcCh s 0).start.isSome = true) ∧
   (let s := setTdcCh 0 { TdcCh.reset with armed := some 0, stop := some ⟨0, 0, 0, true, true, 0, false, false⟩ } (setF
      R.TDC_CH_CFG2_WIN_US 1 { up with tdc := { up.tdc with k := 626 } });
    windowOver s 0 = true ∧ (tdcCh s 0).start.isNone = true ∧ (tdcCh s 0).stop.isSome = true) ∧
   (reaches .mcu (0x91000 + 0x40 * 23) 0 up) ∧
   (reaches .mcu 0x90020 0 up) ∧
   (gateOf up 0x90034 0 = .pass) :=
 ⟨by decide, by decide, (by dsimp only; decide), by decide, (by dsimp only; decide), by decide, by decide,
   (by dsimp only; decide), by decide, by decide, by decide, (by dsimp only; decide), (by dsimp only; decide), by decide,
   by decide, by decide⟩

/-- The hypotheses of TdcTablesAreRefilledCommittedAndTakenOver are met. -/
theorem wit_TdcTablesAreRefilledCommittedAndTakenOver :
   (reaches .mcu 0x9000C 0 up) ∧
   (tdcUp up = true) ∧
   (reaches .mcu 0x90010 0 up) ∧
   (let t : Takeover := ⟨2, 1, false, [5], none, none, -2 * unitS, 0⟩;
    let s := { up with tdc := { up.tdc with spare := some t } };
    s.tdc.spare = some t ∧ tdcUp s = true ∧ overlapOver s t = true) ∧
   (let t : Takeover := ⟨2, 4, false, [], none, none, -2 * unitS, 0⟩;
    let s := { up with tdc := { up.tdc with spare := some t } };
    s.tdc.spare = some t ∧ tdcUp s = true ∧ overlapOver s t = true) ∧
   (let s := setF R.TDC_CH_CFG_TAKEOVER 0 up 3;
    (tdcCh s 3).refill = 0 ∧ flag s R.TDC_CH_CFG_TAKEOVER 3 = false) ∧
   (let s := setTdcCh 3 { TdcCh.reset with refill := 1 } up;
    spareBusy s = false ∧ (tdcCh s 3).refill = 1) ∧
   (smGet [] up.tdc.pend 5 = []) :=
 ⟨by decide, by decide, by decide, (by dsimp only; decide), (by dsimp only; decide), (by dsimp only; decide),
   (by dsimp only; decide), by decide⟩

/-- The hypotheses of PortsTrainAlignDebounceAndGoDown are met. -/
theorem wit_PortsTrainAlignDebounceAndGoDown :
   (let s := setF R.LNK_PORT_STAT_STATE pDOWN (setF R.LNK_PORT_CFG_MODE 3 up);
    laneUp s 0 = true ∧ flag s R.LNK_LANE_CFG_RX_SLEEP = false ∧ isPort (setF R.LNK_LANE_STAT_SIGNAL 1 s) 0 = true ∧
      portState (setF R.LNK_LANE_STAT_SIGNAL 1 s) 0 = pDOWN) ∧
   (laneUp up 63 = true) ∧
   (let s := setF R.LNK_PORT_STAT_STATE pTRAINING up 4;
    laneUp s 4 = true ∧ portState s 4 = pTRAINING) ∧
   (let s := setF R.LNK_PORT_STAT_STATE pTRAINING { up with lnk := { up.lnk with since := [(4, -10 * unitS)] } } 4;
    laneUp s 4 = true ∧ portState s 4 = pTRAINING ∧ ltLimit s 4 ≤ now s - portSince s 4) ∧
   (let s := setF R.LNK_PORT_STAT_STATE pALIGNING up 4;
    laneUp s 4 = true ∧ portState s 4 = pALIGNING ∧ aligned s 4 = true ∧ anOk s 4 none = true) ∧
   (let s := setF R.LNK_TIMERS_UP_DEBOUNCE_US 0 (setF R.LNK_PORT_STAT_STATE pDEBOUNCE up 4) 4;
    laneUp s 4 = true ∧ portState s 4 = pDEBOUNCE ∧ debounced s 4 = true) ∧
   (let s := setF R.LNK_PORT_STAT_STATE pUP up 4;
    laneUp s 4 = true ∧ portState s 4 = pUP) ∧
   (let s := setF R.LNK_PORT_CFG_MODE 2 up 4;
    laneUp s 4 = true ∧ portMode s 4 = 2) :=
 ⟨(by dsimp only; decide), by decide, (by dsimp only; decide), (by dsimp only; decide), (by dsimp only; decide),
   (by dsimp only; decide), (by dsimp only; decide), (by dsimp only; decide)⟩

/-- The hypotheses of LanesAreConfiguredAndRecalibrated are met. -/
theorem wit_LanesAreConfiguredAndRecalibrated :
   (reaches .mcu 0xA000C 0 up) ∧
   (reaches .mcu 0xA0408 0 up) ∧
   (reaches .mcu 0xA040C 0 up) ∧
   (64 < (sx 8 (bitsOf 0xFF40FF 16 8)).natAbs + bitsOf 0xFF40FF 8 8 + (sx 8 (bitsOf 0xFF40FF 0 8)).natAbs) ∧
   ((sx 8 (bitsOf 0xFC34F8 16 8)).natAbs + bitsOf 0xFC34F8 8 8 + (sx 8 (bitsOf 0xFC34F8 0 8)).natAbs ≤ 64 ∧ flag (setF
     R.LNK_PORT_CFG_LT_ENA 0 up) R.LNK_PORT_CFG_LT_ENA (portOfLane up 0) = false) ∧
   (let s := { up with lnk := { up.lnk with waking := [(4, some 0)] } };
    laneUp s 4 = true ∧ (smGet none s.lnk.waking 4).isSome = true) ∧
   (let s := setF R.LNK_QUAD_CFG_REF 1 (setF R.LNK_PORT_CFG_MODE 3 up);
    hasEb s 0 = true) ∧
   (let s := setF R.LNK_QUAD_CFG_REF 1 (setF R.LNK_PORT_CFG_MODE 3 up);
    hasEb s 0 = true) ∧
   (let s := setF R.LNK_PORT_CFG_MODE 3 up;
    laneUp s 0 = true ∧ isPort s 0 = true) ∧
   (reaches .mcu 0xA0430 0 up) ∧
   (reaches .pcie 0xA0430 0 up) ∧
   (recalRefused (setF R.LNK_LANE_CFG_TX_SLEEP 1 up) 0 true = true ∧ recalRefused (setF R.LNK_LANE_CFG_TX_SLEEP 1 up) 0
     false = true) ∧
   (recalRefused (setF R.TSU_TALLY_LOCK 1 (setF R.LNK_PORT_CFG_MODE 3 (setF R.LNK_LANE_CFG_TX_SLEEP 0 (setF
     R.LNK_LANE_CFG_RX_SLEEP 0 (setF R.LNK_LANE_CFG_LOOP 0 up))))) 0 false = false) ∧
   (let s := { up with tdc := { up.tdc with borrowed := some 0 }, lnk := { up.lnk with full := [4] } };
    laneUp s 4 = true ∧ s.tdc.borrowed.isSome = true ∧ 4 ∈ s.lnk.full ∧ 4 ∉ s.lnk.part) ∧
   (let s := { up with tdc := { up.tdc with borrowed := some 0 }, lnk := { up.lnk with part := [4] } };
    laneUp s 4 = true ∧ s.tdc.borrowed.isSome = true ∧ 4 ∈ s.lnk.part) ∧
   (let s := { up with lnk := { up.lnk with quadCal := [3] } };
    islUp s (islLANE 3) = true ∧ 3 ∈ s.lnk.quadCal) :=
 ⟨by decide, by decide, by decide, by decide, by decide, (by dsimp only; decide), (by dsimp only; decide),
   (by dsimp only; decide), (by dsimp only; decide), by decide, by decide, by decide, by decide, (by dsimp only; decide),
   (by dsimp only; decide), (by dsimp only; decide)⟩

/-- The hypotheses of TalliesCountTheirMeasurements are met. -/
theorem wit_TalliesCountTheirMeasurements :
   (let s := setF R.LNK_PORT_CFG_MODE 3 up;
    laneUp s 0 = true ∧ (laneM s 0).isSome = true) ∧
   (laneUp up 63 = true) ∧
   (laneUp up 0 = true) ∧
   (let s := setF R.LNK_PORT_CFG_MODE 3 up;
    laneUp s 0 = true ∧ isPort s 0 = true) ∧
   (laneUp up 31 = true) ∧
   ((calPend (setCalPend 3 { CalPend.reset with calRx := some 5 } up) 3).calRx = some 5) ∧
   ((calPend up 3).calRx = none ∧ (calPend up 3).calTx = none) :=
 ⟨(by dsimp only; decide), by decide, by decide, (by dsimp only; decide), by decide, by decide, by decide⟩

/-- The hypotheses of FramesEnterAndEnd are met. -/
theorem wit_FramesEnterAndEnd :
   (let s := setF R.LNK_PORT_STAT_STATE 5 (setF R.LNK_PORT_CFG_MODE 3 up);
    laneUp s 0 = true ∧ isPort s 0 = true ∧ aligned s 0 = true ∧ jtagHolds s = false ∧ portState s 0 = 5) ∧
   (let s := setF R.LNK_PORT_STAT_STATE 8 (setF R.LNK_PORT_CFG_MODE 3 up);
    laneUp s 0 = true ∧ isPort s 0 = true ∧ aligned s 0 = true ∧ jtagHolds s = false ∧ portState s 0 = 8) ∧
   (let s := setFrame 0 (some { frame0 with ended := false, octets := List.replicate 4 0 }) up;
    (frameAt s 0).isSome = true ∧ fcsCheck (List.replicate 4 0) = 0) ∧
   (frameAt (setFrame 0 (some frame0) up) 0 = some frame0 ∧ frame0.ended = true) :=
 ⟨(by dsimp only; decide), (by dsimp only; decide), (by set_option maxRecDepth 20000 in decide), by decide⟩

/-- The hypotheses of IngressDecidesLearnsAndAges are met. -/
theorem wit_IngressDecidesLearnsAndAges :
   (frameAt (setFrame 0 (some { frame0 with headDone := false }) up) 0 = some { frame0 with headDone := false } ∧
     frame0.ended = true) ∧
   (frameAt (setFrame 0 (some { frame0 with headDone := false }) State.reset) 0 = some { frame0 with headDone := false } ∧
     islUp (setFrame 0 (some { frame0 with headDone := false }) State.reset) (islPIPE 0) = false) ∧
   (let s := setFrame 0 (some { frame0 with headDone := false }) up;
    frameAt s 0 = some { frame0 with headDone := false } ∧ islUp s (islPIPE 0) = true ∧ islUp s (pipeOf 0) = true ∧
      headCross s 0 = true ∧ (parse (frame0.octets.take 128)).ptpOff = none) ∧
   (let g : IngRes :=
      { vid := 1, tag := none, pcp := 0, tpid := 0x8100, dests := [1], tc := 0, de := false, ctx := some 5, ctxVer := [], precolour := false, known := none, ptpTc := false };
    let x := { frame0 with ing := some g, needTail := true };
    let s := setFrame 0 (some x) up;
    frameAt s 0 = some x ∧ islUp s (islPIPE 0) = true ∧ islUp s (pipeOf x.port) = true ∧ x.ing = some g ∧ g.ctx = some 5 ∧
      x.needTail = true ∧ x.ended = true) ∧
   (let s := { up with ing := { up.ing with queue := [.stream [1] 0, .mac 7 3] } };
    islUp s (islPIPE 0) = true ∧ (s.ing.queue.find? fun r => match r with | .mac _ _ => true | _ => false) = some (.mac 7
      3)) ∧
   (fdbFind up 7 = none ∧ (fdbFree up 7).isSome = true) ∧
   (fdbFind (setTbl 2 0 (fdbMake 7 false false 3 0) up) 7 = some (0, fdbMake 7 false false 3 0)) ∧
   (let s := { up with ing := { up.ing with queue := [.mac 7 3, .stream [1] 0] } };
    islUp s (islPIPE 0) = true ∧ (s.ing.queue.find? fun r => match r with | .stream _ _ => true | _ => false) = some
      (.stream [1] 0)) ∧
   (islUp up (islPIPE 0) = true) ∧
   (islUp up (islPIPE 0) = true) ∧
   (let s := { up with ing := { up.ing with dels := [(5, 0)] } };
    (s.ing.dels.find? fun d => d.1 == 5 && decide (d.2 ≤ tblNow s)) = some (5, 0)) ∧
   (2 ^ (32 - 1) ≤ (5 + 2 ^ 32 - 6 % 2 ^ 32) % 2 ^ 32 ∧ 300 < 2 ^ (32 - 1)) :=
 ⟨by decide, by decide, (by dsimp only; decide), (by dsimp only; decide), (by dsimp only; decide), by decide, by decide,
   (by dsimp only; decide), by decide, by decide, (by dsimp only; decide), by decide⟩

/-- The hypotheses of IngressTablesAndStreamGatesChange are met. -/
theorem wit_IngressTablesAndStreamGatesChange :
   (reaches .mcu 0xB0040 0 up) ∧
   (reaches .pcie 0xB0040 0 up) ∧
   (tblSize 1 ≤ 100000) ∧
   (reaches .mcu 0xB0044 0 up) ∧
   ((gateCycle (tblEntry (setTbl 6 0 [0, 0, 0, 1000, 0, 1, 0] up) 6 0)).ok = true) ∧
   ((gateCycle (tblEntry up 6 0)).ok = false) ∧
   (islUp up (islPIPE 0) = true) ∧
   (let s := setGateRt 0 { GateRt.reset with pend := some (0, [], []) } up;
    (gateRt s 0).pend = some (0, [], []) ∧ (0 : Int) ≤ tblNow s) ∧
   (let s := setGateRt 0 { GateRt.reset with pend := some (unitS, [], []) } up;
    (gateRt s 0).pend = some (unitS, [], []) ∧ tblNow s < unitS) :=
 ⟨by decide, by decide, by decide, by decide, by decide, by decide, by decide, (by dsimp only; decide),
   (by dsimp only; decide)⟩

/-- The hypotheses of TheBufferAdmitsStoresAndDiscards are met. -/
theorem wit_TheBufferAdmitsStoresAndDiscards :
   (let s := setFrame 0 (some { frame0 with ing := some ⟨1, none, 0, 0, [1], 0, false, none, [], false, none, false⟩ }) up;
    islUp s islBUF = true ∧ (frameAt s 0).isSome = true ∧ bufCross s 0 = true) ∧
   (let s := setCross (islPIPE 3) islBUF false up;
    islUp s islBUF = true ∧ bufCross s 63 = false) ∧
   (let g : IngRes := ⟨1, none, 0, 0, [1], 0, false, none, [], false, none, false⟩;
    let x := { frame0 with ing := some g };
    let s := setFrame 0 (some x) up;
    frameAt s 0 = some x ∧ x.ing = some g ∧ x.headDone = true ∧ x.admitted = false ∧ x.tfwd = false ∧ x.frer = .none) ∧
   (islUp up islBUF = true ∧ frameAt (setFrame 0 (some { frame0 with admitted := true }) up) 0 = some
     { frame0 with admitted := true }) ∧
   (frameAt (setFrame 0 (some { frame0 with admitted := true, bad := some 14 }) up) 0 = some
     { frame0 with admitted := true, bad := some 14 }) ∧
   (let s := { up with buf := { up.buf with holds := [(4, ⟨1, 0⟩)] } };
    islUp s islBUF = true ∧ (holdOf s 4).st = 1 ∧ (holdOf s 4).deadline ≤ copyNow s islBUF) ∧
   (reaches .mcu 0xC0020 0 up) ∧
   (let x :=
      { frame0 with ins := some ⟨none, true, none, 0, none, 0, false, none⟩, copies := [⟨3, 0, false, 1, false, true, 0, -2000 * unitS, .queued, 0⟩] };
    frameAt (setFrame 0 (some x) up) 0 = some x ∧ x.ins.isSome = true ∧ -2000 * unitS + 1000 * unitS ≤ copyNow up islBUF) :=
 ⟨(by dsimp only; decide), (by dsimp only; decide), (by dsimp only; decide), by decide, by decide, (by dsimp only; decide),
   by decide, (by dsimp only; decide)⟩

/-- The hypotheses of EgressSelectsStartsAndEndsFrames are met. -/
theorem wit_EgressSelectsStartsAndEndsFrames :
   (egrUp up = true ∧ portPresent up 65 = true ∧ jtagHolds up = false) ∧
   (let s := setEgrPort 0 { EgrPort.reset with sel := some ⟨0, 0, 0, 64, false, 64, false, none, false, 0, 0, false, true⟩ }
      up;
    egrUp s = true ∧ portPresent s 0 = true ∧ outCross s 0 = true ∧ txIdle s 0 = true ∧ jtagHolds s = false) ∧
   (let t : Tx := ⟨0, 0, 0, 64, false, 64, false, none, false, 0, 0, false, true⟩;
    let y : Copy := ⟨0, 0, false, 1, false, true, 0, 0, .selected, 0⟩;
    let x := { frame0 with copies := [y] };
    let s := setEgrPort 0 { EgrPort.reset with sel := some t } (setFrame 0 (some x) up);
    let v := cleanSel 0 s;
    (egrPort v 0).sel = some t ∧ (egrPort v 0).ptx = none ∧ frameAt v 0 = some x ∧ x.copies.find? (·.out == 0) = some y ∧
      x.bad = none) ∧
   (let s := setEgrPort 0 { EgrPort.reset with tx := some ⟨0, 0, 0, 64, false, 64, false, none, false, 0, 0, false, true⟩ }
      (setFrame 0 (some { frame0 with copies := [⟨0, 0, false, 1, false, true, 0, 0, .leaving, 0⟩] }) up);
    egrUp s = true ∧ (egrPort (cleanSel 0 s.begin) 0).tx.isSome = true ∧ (frameAt (cleanSel 0 s.begin) 0).isSome = true) ∧
   (let s := setFrame 0 (some { frame0 with copies := [⟨0, 0, false, 1, false, true, 0, 0, .leaving, 0⟩] }) up;
    (frameAt s 0).isSome = true) ∧
   (let s := setF R.EGR_GATE_CFG_ENA 1 up;
    egrUp s = true ∧ gateEna s 0 = true) ∧
   (let s := setEgrPort 0
      { EgrPort.reset with oper := some ⟨0, 1000000, 1, 0, [(1, 255, 500000), (2, 255, 500000)], 0⟩, hold := true } (setF
      R.EGR_MM_STAT_VERIFY_STATUS 2 (setF R.EGR_MM_CFG_ENA 1 (setF R.EGR_GATE_CFG_ENA 1 (setF R.LNK_PORT_CFG_MODE 3 up))));
    egrUp s = true ∧ holdAt s 0 (now s) = true) :=
 ⟨by decide, (by dsimp only; decide), (by dsimp only; decide), (by dsimp only; decide), (by dsimp only; decide),
   (by dsimp only; decide), (by dsimp only; decide)⟩

/-- The hypotheses of ShapersGatesAndEgressTablesAreControlled are met. -/
theorem wit_ShapersGatesAndEgressTablesAreControlled :
   (reaches .mcu (0xD0204 + 0x10 * 7) 0 up) ∧
   (reaches .mcu (0xD0200 + 0x10 * 1) 0 up ∧ reaches .mcu (0xD0208 + 0x10 * 1) 0 up) ∧
   (reaches .mcu 0xD0110 0 up) ∧
   (reaches .mcu 0xD0114 0 up) ∧
   (reaches .pcie 0xD0114 0 up) ∧
   (reaches .i2c 0xD0114 0 up) ∧
   (64 ≤ 64 ∧ 63 < 64) ∧
   (let s := setF R.EGR_GATE_LEN_ADMIN_LEN 2 (setPeriod 0xD0140 0x100000 ⟨1000000, 1⟩ up 0);
    (egrPort s 0).pend = none ∧ (getPeriod s 0xD0140 0x100000 0).ok = true ∧ getF s R.EGR_GATE_LEN_ADMIN_LEN = 2 ∧ 1000 *
      (getPeriod s 0xD0140 0x100000 0).den ≤ (getPeriod s 0xD0140 0x100000 0).num) ∧
   ((egrPort (setEgrPort 0 { EgrPort.reset with pend := some ⟨0, 0, 0, 1, 0, false, none⟩ } up) 0).pend.isSome = true) ∧
   (let p : GatePend := ⟨0, 0, 0, 1, 0, false, none⟩;
    let s := setEgrPort 0 { EgrPort.reset with pend := some p } up;
    (egrPort s 0).pend = some p ∧ islUp s islEGR = true ∧ p.tc ≤ now s) ∧
   (let s := setF R.EGR_MM_STAT_VERIFY_STATUS 1 up;
    islUp s islEGR = true ∧ getF s R.EGR_MM_STAT_VERIFY_STATUS = 1) ∧
   (reaches .mcu 0xD0010 0 up) ∧
   (reaches .pcie 0xD0010 0 up) ∧
   (flag up R.MON_ECC_INJECT_ARM = false ∧ (4095 : Nat) < 4096 ∧ (4294967295 : Nat) < 2 ^ 32) :=
 ⟨by decide, by decide, by decide, by decide, by decide, by decide, by decide, (by dsimp only; decide), by decide,
   (by dsimp only; decide), (by dsimp only; decide), by decide, by decide, by decide⟩

/-- The hypotheses of RedundancyEliminationFollowsTheSequenceNumbers are met. -/
theorem wit_RedundancyEliminationFollowsTheSequenceNumbers :
   (let s := setFrame 0 (some { frame0 with admitted := true, frer := .waiting }) up;
    redUp s = true ∧ islUp s islBUF = true ∧ descCross 0 s = true) ∧
   (let s := setFrame 0 (some { frame0 with admitted := true, frer := .waiting }) (setF R.RED_GCFG_ENA 0 up);
    (frameAt s 0).isSome = true ∧ flag s R.RED_GCFG_ENA = false) ∧
   (let x :=
      { frame0 with ing := some ⟨1, none, 0, 0, [1], 0, false, none, [0, 0, 0, 0, 0, 0, 0, 0, 0, 0, 0, 0, 2 ^ 63], false, none, false⟩, copies := [⟨3, 0, false, 1, false, true, 0, 0, .queued, 0⟩] };
    x.copies.isEmpty = false ∧ cSeqGen (ctx12 x) = true ∧ frameAt (setFrame 0 (some x) up) 0 = some x) ∧
   (let s := setF R.RED_FN_CFG_MODE 1 (setFn 0 { Fn.reset with takeAny := false } up);
    (fn s 0).takeAny = false ∧ getF s R.RED_FN_CFG_MODE 0 = 1 ∧ (fn s 0).n < 65536) ∧
   (let s := setFn 0 { Fn.reset with takeAny := false, n := 5 } up;
    (fn s 0).takeAny = false ∧ (fn s 0).n = 5 ∧ ((4 : Nat) - 5 : Int) % 65536 = 65535 - (0 : Nat)) ∧
   (let s := setFn 0 { Fn.reset with takeAny := false, n := 5, hist := 1 } up;
    0 < history s 0 ∧ bitOf (fn s 0).hist 0 = true) ∧
   (let s := setF R.RED_FN_CFG_MODE 2 (setFn 0 { Fn.reset with takeAny := false, n := 65535 } (setFrame 0 (some frame0)
      up));
    (fn s 0).takeAny = false ∧ getF s R.RED_FN_CFG_MODE 0 = 2 ∧ (fn s 0).held = [] ∧ frameAt s 0 = some frame0 ∧ 0 = ((fn s
      0).n + 1) % 65536) :=
 ⟨(by dsimp only; decide), (by dsimp only; decide), (by dsimp only; decide), (by dsimp only; decide),
   (by dsimp only; decide), (by dsimp only; decide), (by dsimp only; decide)⟩

/-- The hypotheses of RecoveryFunctionsTimeOutResetAndWatchTheirPaths are met. -/
theorem wit_RecoveryFunctionsTimeOutResetAndWatchTheirPaths :
   (redUp up = true) ∧
   (aMin (fn (setFn 0 { Fn.reset with held := [(3, 0, 0)] } up) 0) = some 0) ∧
   (let s := setFn 0 { Fn.reset with takeAny := false, lastAct := -100 * unitMs } (setF R.RED_FN_CFG_ENA 1 up);
    redUp s = true ∧ flag s R.RED_FN_CFG_ENA 0 = true ∧ (fn s 0).takeAny = false ∧ fnIdle s 0 = true) ∧
   (reaches .mcu 0xE0114 0 up) ∧
   (reaches .mcu 0xE0100 0 up) ∧
   (bitsOf (2 ^ 30) 29 2 = 2 ∧ hasReseq (setF R.GLB_CAP_FRER_RESEQ 0 up) = false) ∧
   (hasReseq up = true) ∧
   (let s := setFn 0 { Fn.reset with period := -2000 * unitMs } (setF R.RED_FN_CFG_LATENT_ENA 1 up);
    redUp s = true ∧ flag s R.RED_FN_CFG_LATENT_ENA 0 = true ∧ latentEnd s 0 ≤ copyNow s islRED) ∧
   (redUp up = true ∧ 3 < 4) ∧
   (let s := setFn 0 { Fn.reset with up := [true, false, false, false] } up;
    (fn s 0).up.length = 4 ∧ (fn s 0).up.getD 0 false = true ∧ pathIsUp s 0 0 = false) :=
 ⟨by decide, by decide, (by dsimp only; decide), by decide, by decide, by decide, by decide, (by dsimp only; decide),
   by decide, (by dsimp only; decide)⟩

/-- The hypotheses of RingsFollowTheirStatesAndDoorbells are met. -/
theorem wit_RingsFollowTheirStatesAndDoorbells :
   (hostUp up = true ∧ 384 % 128 = 0 ∧ 388 % 128 = 4 ∧ 392 % 128 = 8 ∧ 8 < 396 % 128) ∧
   (ringState (setF R.HIF_RING_STAT_STATE 1 up) 0 = 1 ∧ (16 + 65536 - devIndex up 0) % 65536 ≤ ringSize up 0 ∧ ¬ (17 + 65536
     - devIndex up 0) % 65536 ≤ ringSize up 0) ∧
   (ringState up 0 = 0 ∧ ringState (setF R.HIF_RING_STAT_STATE 4 up) 0 = 4) ∧
   (reaches .pcie 0x30114 0 up) ∧
   (reaches .mcu 0x30114 0 up) ∧
   (reaches .i2c 0x30114 0 up) ∧
   (ringState up 0 = 0 ∧ kindWorks (ringKind (ringTake 0 up) 0) = false ∧ kindWorks (ringKind (ringTake 0 (writeRingCfg
     0x30100 (5 * 2 ^ 29) 0 up)) 0) = true ∧ (ring up 0).host ≤ ringSize up 0) ∧
   (ringState (setF R.HIF_RING_STAT_STATE 1 up) 0 = 1 ∧ ringState (setF R.HIF_RING_STAT_STATE 3 up) 0 = 3) ∧
   (let s := setF R.HIF_RING_STAT_STATE 2 up;
    hostUp s = true ∧ ringRuns s 0 = false ∧ txInFlight s 0 = false ∧ s.hif.txDone = [] ∧ ringState s 0 = 2) ∧
   (let s := setF R.HIF_GSTAT_BME 1 (setRing 0 { Ring.reset with host := 4 } (setF R.HIF_RING_CFG_KIND 1 (setF
      R.HIF_RING_STAT_STATE 1 up)));
    dmaOk s = true ∧ ringState s 0 = 1) ∧
   (hostUp up = true) :=
 ⟨by decide, by decide, by decide, by decide, by decide, by decide, by decide, by decide, (by dsimp only; decide),
   (by dsimp only; decide), by decide⟩

/-- The hypotheses of VectorsSendRearmAndModerate are met. -/
theorem wit_VectorsSendRearmAndModerate :
   (hostUp up = true) ∧
   (reaches .mcu 0x30020 0 up ∧ reaches .mcu 0x30024 0 up) ∧
   (3 ∉ up.hif.disarmed ∧ 3 ∉ up.hif.unmasked) ∧
   (let s := setRing 0 { Ring.reset with since := some (-10 * unitUs) } (setF R.HIF_RING_IRQ_TIME_US 10 up);
    (ring s 0).since = some (-10 * unitUs) ∧ hostUp s = true ∧ getF s R.HIF_RING_IRQ_TIME_US 0 = 10 ∧ -10 * unitUs + ((10 :
      Nat) : Int) * unitUs ≤ copyNow s islHOST) ∧
   (hostUp up = true ∧ 63 ∉ up.hif.unmasked ∧ 63 ∈ { up.hif with masked := [63] }.masked) ∧
   (let s := { up with flt := { up.flt with events := [⟨0x140, 0, 0, false, 0⟩] } };
    hostUp s = true) :=
 ⟨by decide, by decide, by decide, (by dsimp only; decide), by decide, (by dsimp only; decide)⟩

/-- The hypotheses of CommandsCompleteInTheirSlotWithTheirEffect are met. -/
theorem wit_CommandsCompleteInTheirSlotWithTheirEffect :
   (slotReady running 0 1 = true) ∧
   (let s := setF R.MON_ECC_INJECT_ARM 1 (setF R.MON_ECC_INJECT_BITS 2 (setF R.MON_ECC_INJECT_MEM 16 running));
    cmdReady s 0 = true ∧ (slotIn 0 s.begin).1 = false) ∧
   (cmdReady running 0 = true ∧ (slotIn 0 running.begin).1 = true ∧ cmd0.len = 0) ∧
   (cmdReady running 0 = true ∧ (slotIn 0 running.begin).1 = true ∧ 0x40 ∉ opcodes) ∧
   (let v := (slotIn 0 running.begin).2;
    let c := { cmd0 with p2 := 1, len := 128 };
    cmdReady running 0 = true ∧ (slotIn 0 running.begin).1 = true ∧ tblGate v (c.p0 % 256) (c.p0 / 256 % 256) c.p2 = csOK ∧
      c.len = c.p2 * entrySize (c.p0 % 256)) ∧
   (let v := (slotIn 0 running.begin).2;
    let c := { cmd0 with p0 := 0x4112, p2 := 256, len := 4096 };
    tblGate v (c.p0 % 256) (c.p0 / 256 % 256) c.p2 = csOK ∧ c.len = c.p2 * entrySize (c.p0 % 256)) ∧
   (let v := (slotIn 0 running.begin).2;
    let c := { cmd0 with p2 := 1, len := 128 };
    entriesPresent v (c.p0 % 256) (entrySize (c.p0 % 256) / 4) (leWords (bufOf c)) c.p2 = true) ∧
   (tblGate running 0 0 0 ≠ csOK) ∧
   (let v := (slotIn 0 running.begin).2;
    hostReaches v (islPIPE 0) = true ∧ bitOf 128 7 = true ∧ portPresent v 65 = true) ∧
   (let s := setF R.REF_DPLL_STAT_STATE stOPEN running;
    let v := (slotIn 0 s.begin).2;
    cmdReady s 0 = true ∧ (slotIn 0 s.begin).1 = true ∧ hostReaches v islTIME = true ∧ dpllState v 0 = stOPEN) ∧
   (dpllState running 0 ≠ stOPEN) ∧
   (let v := (slotIn 0 running.begin).2;
    hostReaches v islTIME = true) ∧
   (slotReady running 0 1 = true ∧ 0x48 ∈ opcodes ∧ running.sys.run = none) ∧
   (({ cmd0 with len := 1 } : Cmd).len ≠ 0) ∧
   (let s := setDpllState 0 stOPEN running;
    let v := (slotIn 0 s.begin).2;
    cmdReady s 0 = true ∧ (slotIn 0 s.begin).1 = true ∧ cmd0.len = 0 ∧ hostReaches v islTIME = true ∧ dpllState v (cmd0.p0 %
      4) = stOPEN) ∧
   (cmdReady running 0 = true ∧ (slotIn 0 running.begin).1 = true ∧ cmd0.len = 0) :=
 ⟨by decide, (by dsimp only; decide), by decide, by decide, (by dsimp only; decide), (by dsimp only; decide),
   (by dsimp only; decide), by decide, (by dsimp only; decide), (by dsimp only; decide), by decide, (by dsimp only; decide),
   by decide, by decide, (by dsimp only; decide), by decide⟩

/-- The hypotheses of StreamCommandsAddDeleteModifyAndReadContexts are met. -/
theorem wit_StreamCommandsAddDeleteModifyAndReadContexts :
   (let v := (slotIn 0 running.begin).2;
    let c := { cmd0 with len := 128, data := [0, 0, 0, 0, 0, 0, 0, 0x90] ++ List.replicate 120 0 };
    hostReaches v (islPIPE 0) = true ∧ bitOf ((join32 ((leWords (bufOf c)).take 32)).getD 0 0) 63 = true ∧ bitsOf ((join32
      ((leWords (bufOf c)).take 32)).getD 0 0) 60 3 = 1 ∧ ctxValid v 0 = false ∧ (ctxAdd 0 (join32 ((leWords (bufOf c)).take
      32)) v).1 = stDone) ∧
   (let v := (slotIn 0 running.begin).2;
    let c := { cmd0 with p1 := 2 ^ 31, len := 144, data := [0, 0, 0, 0, 0, 0, 0, 0x90] ++ List.replicate 136 0 };
    hostReaches v (islPIPE 0) = true ∧ hostReaches v islRED = true ∧ bitOf ((join32 ((leWords (bufOf c)).take 32)).getD 0 0)
      63 = true ∧ bitsOf ((join32 ((leWords (bufOf c)).take 32)).getD 0 0) 60 3 = 1 ∧ pathsAbsent v (((leWords (bufOf
      c)).drop 32).getD 2 0) = false ∧ (ctxAdd 0 (join32 ((leWords (bufOf c)).take 32)) v).1 = stDone) ∧
   (bitOf ((join32 ((leWords (bufOf { cmd0 with len := 128 })).take 32)).getD 0 0) 63 = false) ∧
   (let s := setCtxF 0 0 63 1 1 running;
    let v := (slotIn 0 s.begin).2;
    hostReaches v (islPIPE 0) = true ∧ cmdReady s 0 = true ∧ (slotIn 0 s.begin).1 = true ∧ ctxLives v 0 = true) ∧
   (ctxLives running 5 = false) ∧
   (let v := (slotIn 0 running.begin).2;
    hostReaches v (islPIPE 0) = true) ∧
   (let s := setCtxF 0 0 63 1 1 running;
    let c := { cmd0 with len := 56 };
    let v := (slotIn 0 s.begin).2;
    cmdReady s 0 = true ∧ (slotIn 0 s.begin).1 = true ∧ hostReaches v (islPIPE 0) = true ∧ c.len = 56 ∧ ctxLives v (c.p0 %
      16384) = true) :=
 ⟨(by dsimp only; decide), (by dsimp only; decide), by decide, (by dsimp only; decide), by decide, (by dsimp only; decide),
   (by dsimp only; decide)⟩

/-- The hypotheses of ControllerCommandsKeepProfilesImagesAndReports are met. -/
theorem wit_ControllerCommandsKeepProfilesImagesAndReports :
   (let s := setF R.HIF_GSTAT_MCU_READY 0 running;
    let v := (slotIn 0 s.begin).2;
    cmdReady s 0 = true ∧ (slotIn 0 s.begin).1 = true ∧ flag v R.HIF_GSTAT_MCU_READY = false) ∧
   (let v := (slotIn 0 running.begin).2;
    hostReaches v islMCU = true ∧ flag v R.HIF_GSTAT_MCU_READY = true ∧ profCheck v .write image0 = 0) ∧
   (profCheck running .write [1] ≠ 0) ∧
   (let s := setSlot 0 { Slot.empty with state := slVALID, len := 1, octets := [9] } running;
    let v := (slotIn 0 s.begin).2;
    hostReaches v islMCU = true ∧ flag v R.HIF_GSTAT_MCU_READY = true ∧ slotImage v 0 = some [9] ∧ slotImage v 1 = none) ∧
   (({ Slot.empty with state := slVALID } : Slot).state = slVALID) ∧
   (let v := (slotIn 0 running.begin).2;
    let c := { cmd0 with len := 4, data := [1, 2, 3, 4] };
    cmdReady running 0 = true ∧ (slotIn 0 running.begin).1 = true ∧ hostReaches v islMCU = true ∧ flag v
      R.HIF_GSTAT_MCU_READY = true ∧ (bufOf c).length ≤ imgSize false) ∧
   ((4 : Nat) ≠ (smGet [] running.sys.stage (stageKey false)).length) ∧
   (let v := (slotIn 0 running.begin).2;
    hostReaches v islMCU = true ∧ flag v R.GLB_CAP_FUSE_SAFE = false) :=
 ⟨(by dsimp only; decide), (by set_option maxRecDepth 20000 in dsimp only; decide), by decide, (by dsimp only; decide),
   by decide, (by dsimp only; decide), by decide, (by dsimp only; decide)⟩

/-- The hypotheses of FlashCommandsReadProgramAndErase are met. -/
theorem wit_FlashCommandsReadProgramAndErase :
   (let s := setF R.HIF_QSPI_CFG_PRESENT 1 (setF R.HIF_QSPI_CFG_SIZE_LOG2 24 running);
    let v := (slotIn 0 s.begin).2;
    cmdReady s 0 = true ∧ (slotIn 0 s.begin).1 = true ∧ flashGate v false 0 256 = csOK ∧ flashGate v true 0 4096 = csOK ∧
      flashGate v false (2 ^ 24 - 255) 256 = csBAD_PARAM) ∧
   ((1044480 : Nat) % 4096 = 0 ∧ (1048576 : Nat) % 4096 = 0 ∧ flashGate (setF R.HIF_QSPI_CFG_PRESENT 1 (setF
     R.HIF_QSPI_CFG_SIZE_LOG2 24 running)) true 1044480 1048576 = csOK) ∧
   (4096 ≤ 4096 ∧ 4096 < 4096 + 4096) ∧
   (flag running R.HIF_QSPI_CFG_PRESENT = false) ∧
   (let s := setF R.FWT_STATUS_MGMT_SRC 2 (setF R.HIF_QSPI_CFG_PRESENT 1 (setF R.HIF_QSPI_CFG_SIZE_LOG2 24 running));
    flashHeld s (copyAddr false 0) 1 = true ∧ copyAddr false 0 + 1 ≤ flashSize s) ∧
   (let s := setF R.HIF_QSPI_CFG_PRESENT 1 running;
    let v := (slotIn 0 s.begin).2;
    cmdReady s 0 = true ∧ (slotIn 0 s.begin).1 = true ∧ cmd0.len ≤ 65536 ∧ flashGate v true cmd0.p1 cmd0.len = csOK) :=
 ⟨(by dsimp only; decide), by decide, by decide, by decide, (by dsimp only; decide), (by dsimp only; decide)⟩

/-- The hypotheses of HostAndControllerFramesEnterAndLeave are met. -/
theorem wit_HostAndControllerFramesEnterAndLeave :
   (let s := setF R.HIF_RING_CFG_KIND 2 running;
    let v := (slotIn 0 s.begin).2;
    txNext s = some 0 ∧ jtagHolds s = false ∧ (slotIn 0 s.begin).1 = true ∧ txStatus v ⟨1, 60, none, List.replicate 60 0⟩ =
      0 ∧ txStatus v ⟨1, 60, some (64, 0), []⟩ = 3 ∧ txStatus v ⟨1, 16380, none, []⟩ = 4) ∧
   (frontPresent up 0 = true ∧ frontPresent State.reset 63 = false) ∧
   (let s := setF R.MON_ECC_INJECT_ARM 1 (setF R.MON_ECC_INJECT_MEM 16 (setF R.MON_ECC_INJECT_BITS 2 (setF
      R.HIF_RING_CFG_KIND 2 running)));
    txNext s = some 0 ∧ jtagHolds s = false ∧ (slotIn 0 s.begin).1 = false) ∧
   (let s := setF R.HIF_RING_CFG_KIND 3 { running with hif := { running.hif with rxq := [⟨0, frame0⟩] } };
    s.hif.rxq.find? (fun w => rxRing s w.tc == 0) = some ⟨0, frame0⟩ ∧ slotReady s 0 3 = true ∧ bufLenOk 16384 = true ∧
      bufLenOk 63 = false ∧ (slotIn 0 s.begin).1 = true) ∧
   (let s := setRing 0 { Ring.reset with fullSince := some (-4000 * unitMs) } (setF R.HIF_RING_CFG_KIND 3 (setF
      R.HIF_RING_STAT_STATE 1 up));
    (ring s 0).fullSince = some (-4000 * unitMs) ∧ ringKind s 0 = 3 ∧ ringState s 0 = 1 ∧ -4000 * unitMs + ((zeroAs 1 (getF
      s R.HIF_RING_TMO_TMO_MS 0) : Nat) : Int) * unitMs ≤ copyNow s islHOST) ∧
   (islUp up islMCU = true ∧ flag up R.FWT_STATUS_MGMT_RUN = true ∧ jtagHolds up = false) :=
 ⟨(by dsimp only; decide), by decide, (by dsimp only; decide), (by dsimp only; decide), (by dsimp only; decide), by decide⟩

/-- The hypotheses of PcieI2cAndJtagActOnTheirInterfaces are met. -/
theorem wit_PcieI2cAndJtagActOnTheirInterfaces :
   (({ up with hif := { up.hif with linkUp := true } } : State).hif.linkUp = true) ∧
   (hostUp up = true ∧ 4 ∈ [1, 2, 4]) ∧
   (let s := setF R.HIF_I2C_CFG_ENA 1 up;
    i2cOn s = true ∧ flag s R.HIF_I2C_CFG_PEC_ENA = false ∧ flag (setF R.HIF_I2C_CFG_PEC_ENA 1 s) R.HIF_I2C_CFG_PEC_ENA =
      true) ∧
   (let s := setF R.HIF_I2C_CFG_ENA 1 up;
    i2cOn s = true ∧ 0xFFFFF < 0x100000) ∧
   (let s := setF R.HIF_I2C_CFG_ENA 1 up;
    i2cOn s = true) ∧
   (i2cOn (setF R.HIF_I2C_CFG_ENA 1 up) = true) ∧
   (i2cOn (setF R.HIF_I2C_CFG_ENA 0 up) = false) :=
 ⟨by decide, by decide, (by dsimp only; decide), (by dsimp only; decide), (by dsimp only; decide), by decide, by decide⟩

/-- The hypotheses of ProfilesAreAppliedRecordByRecord are met. -/
theorem wit_ProfilesAreAppliedRecordByRecord :
   ((0 : Nat) / 2 ^ 28 = 0 ∧ (0x10010024 : Nat) / 2 ^ 28 = 1 ∧ (0x50000000 : Nat) / 2 ^ 28 = 5 ∧ (0x30000012 : Nat) / 2 ^ 28
     = 3) ∧
   (let s := setSlot 0 { Slot.empty with state := slVALID, len := 72, octets := image0 } running;
    let v := (slotIn 0 s.begin).2;
    cmdReady s 0 = true ∧ (slotIn 0 s.begin).1 = true ∧ hostReaches v islMCU = true ∧ flag v R.HIF_GSTAT_MCU_READY = true ∧
      flag v R.FWT_STATUS_LIMP = false ∧ v.sys.run = none ∧ slotImage v 0 = some image0 ∧ profCheck v .run image0 = 0 ∧
      bitOf cmd0.p0 8 = false ∧ (runInstant { cmd0 with len := 12 }).ns = 0) ∧
   (let s := setF R.FWT_STATUS_LIMP 1 running;
    let v := (slotIn 0 s.begin).2;
    let w := (slotIn 0 running.begin).2;
    flag v R.FWT_STATUS_LIMP = true ∧ hostReaches v islMCU = true ∧ flag v R.HIF_GSTAT_MCU_READY = true ∧ slotImage w 1 =
      none ∧ w.sys.run = none) ∧
   (let s := { up with sys := { up.sys with run := some ⟨1, 0, false, [0x50000000, 0], some 0, false, 0, 0⟩ } };
    s.sys.run = some ⟨1, 0, false, [0x50000000, 0], some 0, false, 0, 0⟩ ∧ islUp s islMCU = true) ∧
   ((0x50000000 : Nat) / 2 ^ 28 = 5 ∧ (0 : Int) ≤ copyNow up islMCU) ∧
   (let s := setF R.RST_ISL_FENCED_ISLAND 0 { up with sys := { up.sys with boot := 1 } };
    profTurn s = true) ∧
   (let h : List Nat := List.replicate 32 0 ++ [4, 0, 0, 0] ++ List.replicate 28 0;
    let s :=
      { up with sys := { up.sys with boot := 1, profWait := true, profWaitAt := -4294967296001, prof := h ++ [0, 0, 0, 64] ++ List.replicate 8 0 ++ [1, 0, 0, 0] } };
    profTurn s = true ∧ s.sys.profWait = true ∧ waitOver (shadowRest s) s.sys.profWaitAt s = true) ∧
   (let s :=
      { up with sys := { up.sys with boot := 2, run := some ⟨1, 0, false, [0x40000000, 0, 1, 0], none, false, 0, 0⟩ } };
    profTurn s = false ∧ s.sys.run.isSome = true ∧ islUp s islMCU = true ∧ waitOver [0x40000000, 0, 1, 0] 0 s = true) :=
 ⟨by decide, (by set_option maxRecDepth 20000 in dsimp only; decide), (by dsimp only; decide), (by dsimp only; decide),
   by decide, (by dsimp only; decide), (by dsimp only; decide), (by dsimp only; decide)⟩

/-- The hypotheses of ResetSourcesStrikeAndAreMapped are met. -/
theorem wit_ResetSourcesStrikeAndAreMapped :
   (supplyStrikes (railOf 0) 0 2000 = true ∧ supplyStrikes (railOf 0) 0 1999 = false) ∧
   (pinIgnored (tickUs 5 { up with sys := { up.sys with jobs := [] } }) = false ∧ pinIgnored (tickUs 5 up) = true) ∧
   (reaches .pcie 0x10024 0 up) ∧
   (reaches .mcu 0x1000C 0 up) ∧
   (flag (setF R.RST_SRC_MAP_MAP_LOCK 1 up) R.RST_SRC_MAP_MAP_LOCK = true ∧ flag (setF R.RST_SRC_MAP_MAP_LOCK 0 up)
     R.RST_SRC_MAP_MAP_LOCK = false ∧ bitOf (2 ^ 31) 31 = true) ∧
   (let s := { up with sys := { up.sys with jobs := [] } };
    s.sys.jobs = [] ∧ srcLevel s 1 < 3 ∧ srcLevel s 4 < 3) ∧
   (let s := setF (R.RST_SRC_MAP_LEVEL.up 12) 3 { up with sys := { up.sys with jobs := [] } };
    srcLevel s 4 = 3 ∧ unitTarget 4 0 = 0 ∧ unitTarget 4 5 = 5 ∧ islPresent s 5 = true) ∧
   (driven { up with sys := { up.sys with jobs := [] } } = false ∧ driven State.reset = true) :=
 ⟨by decide, by decide, by decide, by decide, by decide, (by dsimp only; decide), (by dsimp only; decide), by decide⟩

/-- The hypotheses of LoadsSelfTestsAndReleasesBringIslandsUp are met. -/
theorem wit_LoadsSelfTestsAndReleasesBringIslandsUp :
   (let s := setF R.RST_ISL_CLKVALID_ISLAND 0xFFFFFFFF
      { State.reset with sys := { Sys.reset with loads := [], tested := [5], jobs := [⟨0, 0, 0, 0, allIslands, true, true⟩] } };
    canRelease (tickUs 9 s) 5 = true) ∧
   (let s := setF R.RST_ISL_CLKVALID_ISLAND 0xFFFFFFFF
      { State.reset with sys := { Sys.reset with loads := [], tested := [5], jobs := [⟨0, 0, 0, 0, allIslands, true, true⟩] } };
    canRelease s 5 = true) ∧
   (reaches .pcie 0x10020 0 up) ∧
   (fuseLock up 0 = true ∧ islPresent State.reset 4 = true ∧ islReleased State.reset 4 = false) ∧
   (State.reset.sys.oscDone = false) ∧
   (0 ∈ State.reset.sys.loads ∧ ([0] : List Nat).length ≠ 128) ∧
   (∃ ws : List Nat, ws.length = 128 ∧ ws.getD 127 0 = crc32 (wordOctets (ws.take 4 ++ (ws.drop 36).take 91))) ∧
   (let s := { State.reset with sys := { Sys.reset with loads := [1, 2, 3] } };
    1 ∈ s.sys.loads ∧ 0 ∉ s.sys.loads) ∧
   (let s := { State.reset with sys := { Sys.reset with loads := [2, 3] } };
    2 ∈ s.sys.loads ∧ 0 ∉ s.sys.loads) ∧
   (let s := { State.reset with sys := { Sys.reset with loads := [3] } };
    let t := setSlot 0 { Slot.empty with state := slVALID, len := 72, octets := image0 } s;
    3 ∈ s.sys.loads ∧ 0 ∉ s.sys.loads ∧ slotImage s 0 = none ∧ slotImage t 0 = some image0) ∧
   (getF State.reset (attFld 0) < 3 ∧ 3 ≤ getF (setF (attFld 0) 3 State.reset) (attFld 0)) ∧
   (State.reset.flt.startUp = true ∧ State.reset.sys.level = 0 ∧ State.reset.sys.began + stepDeadline 7 ≤ 70000 ∧
     up.flt.startUp = false ∧ flag up R.TSU_GSTAT_CAL_DONE = false ∧ up.sys.calLate = false ∧ up.sys.profDone = false) ∧
   (let s := setF R.RST_ISL_CLKVALID_ISLAND 0xFFFFFFFF State.reset;
    s.sys.jobs.any (fun j => j.wait.contains 6) = true ∧ islClkValid s 6 = true ∧ 3 ∈ memsOf 6) ∧
   (∃ ws : List Nat, ws.length = 32 ∧ ws.getD 31 0 = crc32 (wordOctets (ws.take 31))) :=
 ⟨(by dsimp only; decide), (by dsimp only; decide), by decide, by decide, by decide, by decide, fuse_words_exist,
   (by dsimp only; decide), (by dsimp only; decide), (by set_option maxRecDepth 20000 in dsimp only; decide), by decide,
   by decide, (by dsimp only; decide), trim_words_exist⟩

/-- The hypotheses of FirmwareIsChosenMeasuredAndStarted are met. -/
theorem wit_FirmwareIsChosenMeasuredAndStarted :
   (islUp (tickUs 5 up) islMCU = true ∧ up.sys.boot = 0 ∧ up.sys.profDone = false) ∧
   (let s := { up with sys := { up.sys with late := [0] } };
    0 ∈ s.sys.late) ∧
   (({ up with sys := { up.sys with profDone := true } } : State).sys.profDone = true) ∧
   (let s := { up with sys := { up.sys with boot := 1 } };
    islUp up islMCU = true ∧ up.sys.boot = 0 ∧ s.sys.boot = 1 ∧ fwStepDue 3 120000 up = true ∧ fwStepDue 4 160000 up = true
      ∧ fwStepDue 7 250000 s = true) ∧
   (reaches .mcu 0x3800C 0 up) ∧
   (reaches .pcie 0x3800C 0 up) ∧
   (reaches .i2c 0x3800C 0 up) ∧
   (flag up R.FWT_STATUS_MGMT_RUN = true ∧ flag State.reset R.FWT_STATUS_MGMT_RUN = false) ∧
   (∃ k l, (k, l) ∈ candidates stagedUp false ∧ imgCheck stagedUp false l = 0) :=
 ⟨by decide, (by dsimp only; decide), by decide, (by dsimp only; decide), by decide, by decide, by decide, by decide,
   ⟨1, image1, List.mem_cons_self, image1_passes⟩⟩

/-- The hypotheses of WatchdogsMeasurementsAndSpdmAnswer are met. -/
theorem wit_WatchdogsMeasurementsAndSpdmAnswer :
   (flag up R.FWT_STATUS_MGMT_RUN = true ∧ islUp up islMCU = true ∧ flag up (wdArmed false) = false ∧ flag (setF
     R.FWT_WDOG_SERVO_ARMED 1 up) (wdArmed true) = true) ∧
   (wdDue (setF R.FWT_WDOG_MGMT_ARMED 1 up) false 0 = true ∧ wdDue (setF R.FWT_WDOG_SERVO_ARMED 1 up) true 0 = true ∧ flag
     up R.FWT_STATUS_SERVO_RUN = true ∧ wdDue up false 0 = false) ∧
   (up.sys.measLog.length < 64) ∧
   (let s := { up with sys := { up.sys with fuse := List.replicate 128 0 } };
    islUp s islMCU = true ∧ fuseLock s 1 = false) ∧
   (islUp up islMCU = true ∧ flag up R.FWT_STATUS_MGMT_RUN = true) ∧
   (islUp up islHOST = true ∧ islUp up islMCU = true ∧ flag up R.FWT_STATUS_MGMT_RUN = true ∧ (islUp State.reset islMCU =
     false)) :=
 ⟨by decide, by decide, by decide, (by dsimp only; decide), by decide, by decide⟩

/-- The hypotheses of FaultsAreRecordedAcknowledgedAndEscalated are met. -/
theorem wit_FaultsAreRecordedAcknowledgedAndEscalated :
   (heard State.reset ⟨5, 6, 0, 0, 6⟩ = false) ∧
   (heard up ⟨5, 6, 0, 0, islSAFE⟩ = true ∧ heard State.reset ⟨5, 6, 0, 0, 6⟩ = false ∧ up.flt.openSlot = none ∧
     up.flt.recs.length = 16) ∧
   (let s := openRecord ⟨6, 6, 0, 0, 6⟩ up;
    s.flt.openSlot.isSome = true ∧ (openRec s).isSome = true) ∧
   (reaches .mcu 0x20008 0 up) ∧
   (openRec up = none ∧ (openRec (openRecord ⟨6, 6, 0, 0, 6⟩ up)).isSome = true ∧ bitOf (2 ^ 31) 31 = true) ∧
   (let s := modOpen (fun r => { r with deadline := some 5 }) (openRecord ⟨6, 6, 0, 0, 6⟩ up);
    (openRec s).isSome = true ∧ svcMode s = 0) ∧
   ((openRec (openRecord ⟨6, 6, 0, 0, 6⟩ up)).isSome = true) ∧
   (reaches .mcu 0x20004 0 up) ∧
   (reaches .pcie 0x20004 0 up) ∧
   (bitOf (2 ^ 31 + 2 ^ 30) 31 = true ∧ up.flt.startUp = false ∧ up.flt.recovery = false ∧ up.flt.fatal = false) ∧
   (({ up.flt with recoveryFrom := some 5, recovery := true } : Flt).recoveryFrom = some 5) :=
 ⟨by decide, by decide, (by dsimp only; decide), by decide, by decide, (by dsimp only; decide), by decide, by decide,
   by decide, by decide, by decide⟩

/-- The hypotheses of ScrubbersAndEccCountTheirFindings are met. -/
theorem wit_ScrubbersAndEccCountTheirFindings :
   (let s := setF R.MON_ECC_CFG_SCRUB_ENA 1 up;
    flag s R.MON_ECC_CFG_SCRUB_ENA = true ∧ islUp s (memIsland 3) = true ∧ islUp s (memIsland 0) = true ∧ islUp s (memIsland
      16) = true ∧ smGet 0 s.sys.scrub 3 = 0 ∧ wordUsed s 3 0 0 = false ∧ wordUsed s 16 0 0 = true) ∧
   (memBanks 0 * memWords 0 = 2097152) ∧
   ((1 : Nat) ≤ 16 ∧ 16 ≤ 16) ∧
   (let s := setF R.MON_ECC_CFG_LAP_LIMIT_S 60 { up with sys := { up.sys with scrub := [(32, 1)] } };
    smGet 0 s.sys.scrub (0 + 32) = 1 ∧ getF s R.MON_ECC_CFG_LAP_LIMIT_S * 1000 < 60001 ∧ islUp s (memIsland 0) = true) ∧
   (gateOf up 0xF0814 0 = .pass) ∧
   (getF up R.MON_ECC_IDX_MEM ≤ 18 ∧ 18 < getF (setF R.MON_ECC_IDX_MEM 19 up) R.MON_ECC_IDX_MEM) :=
 ⟨(by dsimp only; decide), by decide, by decide, (by dsimp only; decide), by decide, by decide⟩

/-- The hypotheses of CountersBandwidthAndHistogramsMeasure are met. -/
theorem wit_CountersBandwidthAndHistogramsMeasure :
   (reaches .mcu (0xF0110 + 8 * 7 + 4) 0 up) ∧
   (reaches .mcu 0xF0108 0 up) ∧
   (7 < cntCount up) ∧
   (let s := setF R.MON_GCFG_CNT_ENA 1 up;
    islUp s islBUF = true ∧ s.mon.cyc + 1 < 2 ^ 48 ∧ flag s R.MON_GCFG_CNT_ENA = true ∧ flag (setF R.MON_GCFG_CNT_ENA 0 s)
      R.MON_GCFG_CNT_ENA = false) ∧
   (let s := setF R.MON_GCFG_CNT_ENA 1 up;
    islUp s islBUF = true ∧ portPresent s 65 = true ∧ flag s R.MON_GCFG_CNT_ENA = true ∧ bwBoundary s 65 = true) ∧
   (gateOf up 0xF01A0 (readInst up .mcu 0xF01A0) = .pass ∧ gateOf up 0xF0198 (readInst up .i2c 0xF0198) = .pass) ∧
   (let s := setF R.MON_HIST_CFG_KIND 2 (setF R.MON_GCFG_CNT_ENA 1 up) 7;
    islUp s islBUF = true ∧ histDue s 7 = true ∧ getF s R.MON_HIST_CFG_KIND 7 = 2 ∧ getF s R.MON_HIST_CFG_KIND 0 = 0) ∧
   (let s := setF R.MON_GCFG_CNT_ENA 1 (setF R.MON_HIST_CFG_ENA 1 up);
    flag s R.MON_GCFG_CNT_ENA = true ∧ flag s R.MON_HIST_CFG_ENA 0 = true ∧ flag s R.MON_HIST_CFG_HOLD 0 = false) ∧
   (reaches .mcu (0xF0400 + 0x80 * 7) 0 up) ∧
   ((15 : Nat) < 16) ∧
   ((0xF014C : Nat) = 0xF0114 + 8 * 7 ∧ (7 : Nat) < 8) :=
 ⟨by decide, by decide, by decide, (by dsimp only; decide), (by dsimp only; decide), by decide, (by dsimp only; decide),
   (by dsimp only; decide), by decide, by decide, by decide⟩

/-- The hypotheses of CanariesMarginPlanAndAgeingLogAct are met. -/
theorem wit_CanariesMarginPlanAndAgeingLogAct :
   (let s := setF R.SYN_APLL_STAT_LOCK 1 (setF R.MON_CAN_CFG_ENA 1 { up with sys := { up.sys with recOk := true } });
    flag s R.MON_CAN_CFG_ENA = true ∧ apllLocked s 0 = true ∧ s.sys.recOk = true ∧ (canReading 1 0 0 0 0).2 = false) ∧
   (let s := setF R.MON_PLAN_CFG_AUTO 1 { up with mon := { up.mon with planAt := -10000000000 * unitS } };
    plans s = true ∧ planTime s = true ∧ canVal s 0 2 = none) ∧
   (getF up R.MON_AVS_CODE_MIN ≤ getF up R.MON_AVS_CODE_MAX) ∧
   (let s := setF R.MON_AVS_CODE 60 (setF R.MON_AVS_MODE 1
      { up with mon := { up.mon with avsAt := some (-10000000 * unitNs) } });
    flag s R.MON_AVS_MODE = true ∧ islUp s islMCU = true ∧ s.mon.avsAt = some (-10000000 * unitNs) ∧ -10000000 * unitNs +
      10000000 * unitNs ≤ copyNow s islMCU ∧ getF s R.MON_AVS_CODE = 60 ∧ plans (setF R.MON_PLAN_CFG_AUTO 0 s) = false ∧
      plans (setF R.MON_PLAN_CFG_AUTO 1 s) = true ∧ ((755000 : Nat) - (600000 + 2500 * (60 : Nat)) : Int).natAbs ≤ 5000) ∧
   (reaches .mcu 0xF0910 0 up) ∧
   (flag (setF R.MON_PLAN_CFG_AUTO 1 up) R.MON_PLAN_CFG_AUTO = true ∧ flag (setF R.MON_PLAN_CFG_AUTO 0 up)
     R.MON_PLAN_CFG_AUTO = false) ∧
   (let s := { up with mon := { up.mon with logAt := -86400 * unitS } };
    islUp s islMCU = true ∧ flag s R.FWT_STATUS_MGMT_RUN = true ∧ logTime s = true ∧ longHours
      { s with mon := { s.mon with log := [] } } + 2160 ≤ 2160) :=
 ⟨(by dsimp only; decide), (by dsimp only; decide), by decide, (by dsimp only; decide), by decide, by decide,
   (by set_option maxRecDepth 20000 in dsimp only; decide)⟩

/-- The hypotheses of DcoModulatorsKeepTheExactMeanRatio are met. -/
theorem wit_DcoModulatorsKeepTheExactMeanRatio :
   (let s := setF R.SYN_XIN_FREQ_FREQ_HZ 25000000 (setF R.SYN_APLL0_CFG_N0_XIN 400 State.reset);
    0 < dcoRatioDiv s 1) ∧
   ((0 : Int) ≤ 4 ∧ (4 : Int) < 5) ∧
   (DcoMod.reset.a1 < 281474976710656 ∧ DcoMod.reset.c2 ≤ 1 ∧ DcoMod.reset.c3 ≤ 1 ∧ DcoMod.reset.d3 ≤ 1) ∧
   (let s := setMod 0 { DcoMod.reset with phase := 468750000 * 281474976710656 } up;
    timRuns s = true ∧ 625000000 * 281474976710656 ≤ (dcoMod s 0).phase + 156250000 * 281474976710656) ∧
   (timRuns up = true ∧ (dcoMod up 0).phase + 156250000 * 281474976710656 < 625000000 * 281474976710656) :=
 ⟨(by dsimp only; decide), by decide, by decide, (by dsimp only; decide), by decide⟩

/-! ### Small tests: one command or one computation each, on the values of the spec's own examples -/

/-- The state after one command. -/
def after (c : Instr) (s : State) : State := match exec c s with | .next t => t | _ => s

/-- `s` with its Last at the given seconds and nanoseconds. -/
def atLast (sec ns : Nat) (s : State) : State := { s with tim := { s.tim with last := ⟨sec, ns, 0, 0⟩, lastValid := true } }

/-- The example of R53: 1,000 ppb is the slew word 281,474,977, and +2 us waits whole. -/
theorem test_slew_word : slewWord up = 281474977 := by decide
theorem test_slew_request : (after (.slewRequest .mcu 0) (stageWord .mcu 0x40050 (2000 * 65536) up)).tim.slewRem = 2000 * 2 ^ 48 := by
  decide

/-- R42: one cycle adds 1 ns and 2,576,980,377 * 2^-32 ns, and 3 to the residue. -/
theorem test_last_increment : (after .lastIncrement up).tim.last = ⟨0, 1, 2576980377, 3⟩ := by set_option maxRecDepth 4000 in decide

/-- The example of R56: -250 ns is seconds -1, nanoseconds 999,999,750, fraction 0. -/
theorem test_offset_format : T96.ofOffset (-250 * 65536) = ⟨2 ^ 48 - 1, 999999750, 0⟩ := by decide

/-- The switch example of R66: the target moves by 312.5 ns and the target rate by 2 ppb. -/
theorem test_domain_switch :
    let w : Welt := { up.tim.welt with valid := true, init := true, off := 20480000, rate := 2199 }
    let t := (applySwitch true { up with tim := { up.tim with welt := w } }).tim
    t.target = 3125 * 2 ^ 48 / 10 ∧ t.targetRate = 2199 ∧ t.activeB = true := by dsimp only; decide

/-- The word clock example of R71: edge 48,000 falls exactly on the next second. -/
theorem test_word_clock : (Period.instant ⟨62500, 3⟩ 0 48000).at32 = 1000000000 * 2 ^ 32 ∧ (Period.instant ⟨62500, 3⟩ 0 1).acc = 1 := by
  decide

/-- The 59.94 Hz example of R71: frame 102,638,102,578 is the first after 1712345678 s. -/
theorem test_frame_pulse : Period.firstIndex ⟨50050000, 3⟩ 0 (1712345678000000000 * 2 ^ 32) = 102638102578 := by decide
theorem test_frame_instant : (T96.ofUnits (Period.instant ⟨50050000, 3⟩ 0 102638102578).at32).ns = 9633333 := by decide

/-- Lane 12 of the time stamp example of R85: 25GBASE-R with a tally locked at the count 1,234, one cycle
after Last cycle k. -/
def laneTwelve : State :=
  setTally 12 { Tally.reset with cur := some ⟨1234, 0, 0, true, true⟩ }
    (setF R.LNK_PORT_CFG_MODE 4 (setF R.TSU_CAL_RX_DELAY 120000 (setF R.TSU_PKG_PKG_RX 7340
      { up with tim := { up.tim with last := ⟨1712345678, 123457, 2576980377, 3⟩ } } 12) 12) 12)

theorem test_receive_stamp :
    T96.ofUnits (rxTime laneTwelve 12 57 0 false).t = ⟨1712345678, 123457, 15199⟩ := by decide

/-- The exchange example of R129: t2 - t1 and both corrections of the Sync, then t4 - t3: the path is 500 ns each way. -/
def portSeven : State :=
  let s := setF R.PTE_GCFG_ENA 1 (setF R.PTE_DOMA_MAP_ENA 1 (setF R.PTE_PORT_CFG_ENA 1 (setF R.PTE_PORT_STATE_STATE 9 up 7) 7))
  let r : RxRec := ⟨1712345678, 202734, 32768, true, false, false, false, 0, false, 7, 7⟩
  let w : DReq := ⟨5, some (1712345678000210000 * 65536), 0, 10 ^ 40⟩
  let sync : PtpMsg := { ptpMsg0 0 with ts := 1712345678000200000 * 65536, cf := 80904192 }
  let s := setPteInst 7 { PteInst.reset with wait := [w] } (atLast 1712345678 300000 s)
  after (.syncReceive 0) (setFrame 0 (some { frame0 with rx := some r, engine := some 7, ptp := some sync, port := 7 }) s)

theorem test_delay_exchange :
    let m : PtpMsg := { ptpMsg0 9 with ts := 1712345678000210300 * 65536 + 16384, cf := 52445184, seq := 5, req := portIdent portSeven 7 }
    let s := setFrame 0 (some { frame0 with engine := some 7, ptp := some m, port := 7 }) portSeven
    getWS (after (.delayRespReceive 0) s) R.PTE_MPD_MPD_LO R.PTE_MPD_MPD_HI 7 = 500 * 65536 := by dsimp only; decide

/-- The load example of R138: LOG_PDELAY goes to 5 and LOG_SYNC to -6, and 1,024.5 units are committed. -/
theorem test_interval_limit :
    let s := setF R.PTE_PORT_STATE_STATE 6 (setFlag R.PTE_PORT_CFG_DELAY_MECH true (setF R.PTE_GCFG_ENA 1 (setF R.PTE_DOMA_MAP_ENA 1
      (setF R.PTE_PORT_CFG_ENA 1 (setF R.PTE_DOMA_MAP_PROFILE 0 up)))))
    let t := applyInterval 0 (setPteInst 0 { PteInst.reset with pend := some 0x00F900F9 } s)
    committed t 0 = 10245 * 1024 / 10 ∧ getS t R.PTE_INTERVAL_LOG_PDELAY = 5 ∧ getS t R.PTE_INTERVAL_LOG_SYNC = -6 := by
  dsimp only; decide

/-- The loop gain example of R159: at 1 Hz a phase error of 1 ns gives 1,768,559 units of 2^-48. -/
theorem test_loop_gain : kpQ 8 = 452751216 ∧ kpQ 8 * 65536 / 2 ^ 24 = 1768559 := by decide

/-- The conversion example of R179: DCO1 at 148.5 / 1.001 MHz from 25 MHz and N0 = 400. -/
theorem test_dco_word :
    (dcoWord (setF R.SYN_XIN_FREQ_FREQ_HZ 25000000 (setF R.SYN_APLL0_CFG_N0_XIN 400 (setF R.SYN_DCO_NOM_NUM_LO (148500000000 % 2 ^ 32)
      (setF R.SYN_DCO_NOM_NUM_HI (148500000000 / 2 ^ 32) (setF R.SYN_DCO_NOM_DEN 1001 up 1) 1) 1))) 1).1 =
      67 * 2 ^ 48 + 114674990511748 := by decide

/-- The sequence marker example of R192: every fifth frame is 2,000 ns wide, the others 1,000 ns. -/
theorem test_sequence_marker :
    let s := setF R.SYN_OUT_CFG_MODE 3 (setF R.SYN_OUT_SEQ_SEQ_LEN 5 (setF R.SYN_OUT_WIDTH_WIDTH 1000 (setF R.SYN_OUT_SEQW_SEQW 2000 up)))
    edgeWidth s 0 8005 = 2000 ∧ edgeWidth s 0 8006 = 1000 ∧ edgeWidth s 0 8009 = 1000 := by dsimp only; decide

/-- The calibration example of R252: lane 9 of 25GBASE-R. -/
theorem test_calibration :
    calFull ⟨9, 23916 * 2 ^ 32 / 10000, 412250 * 2 ^ 32 / 1000000, 2612500 * 2 ^ 32 / 1000000, 0, 18400 * 2 ^ 32 / 1000000, 23593, 0, 0, 0⟩ =
      (83008, 114016) := by decide

/-- The meter example of R278: the first frame of 1,500 octets, 4,000 ns after t0, is green and leaves 252,160 units. -/
def meterCtx : State :=
  setCtxF 7 9 32 32 256000 (setCtxF 7 10 32 32 2304000 (setCtxF 7 7 32 32 2970000 (setCtxF 7 8 40 24 16000 (setCtxF 7 7 0 32 100000
    (setCtxF 7 8 16 24 9000 (setCtxF 7 6 20 1 1 up))))))

theorem test_meter_green :
    (meter 7 1500 false 4000 meterCtx).1 = 0 ∧ ctxF (meter 7 1500 false 4000 meterCtx).2 7 9 32 32 = 252160 := by decide

/-- The gate example of R327 and R328: with 1,000 ns left an express frame of 1,500 octets does not start on a 10GBASE-R port, and a
preemptible one does. -/
def gatePort : State :=
  let s := setF R.LNK_PORT_CFG_MODE 3 (setF R.LNK_PORT_STAT_STATE 5 up 4) 4
  let s := setF R.EGR_GATE_CFG_ENA 1 (setF R.EGR_MM_CFG_ENA 1 (setF R.EGR_MM_CFG_VERIFY_DIS 1 (setF (clsF R.EGR_CLS_CFG_PREEMPTIBLE 2) 1 s 4) 4) 4) 4
  let x : EgrPort := { egrPort s 4 with oper := some { base := 0, num := 125000, den := 1, ext := 0, entries := [(1, 0x80, 20000), (2, 0x7F, 105000)], since := 0 } }
  atLast 10 124000 (setEgrPort 4 x s)

theorem test_gate_fit :
    fits gatePort 4 3 false (now gatePort) (some 1500) = false ∧ fits gatePort 4 2 true (now gatePort) (some 1500) = true := by decide
theorem test_gate_hold : holdAt gatePort 4 (now gatePort) = false ∧ holdAt gatePort 4 (now gatePort + unitUs) = true := by decide

/-- The shaper example of R319: the debt of 3,520 octets is repaid at 500,000 kbit/s in 56,320 ns. -/
def shaped : State :=
  let s := setF R.EGR_PORT_CFG_OVH 20 (setF R.LNK_PORT_CFG_MODE 6 (setF R.LNK_PORT_STAT_STATE 5 up 3) 3) 3
  setF (clsF R.EGR_CLS_CFG_SHAPER 2) 1 (setF (clsF R.EGR_CLS_RATE_RATE 2) 500000 (setF (clsF R.EGR_CLS_BURST_BURST 2) 3000 s 3) 3) 3

theorem test_shaper :
    let s := setEgrCls 3 2 ⟨0, -901120, 0, 20000, none⟩ shaped
    (egrCls (shaperTouch 3 2 (atLast 0 76319 s)) 3 2).level = -16 ∧ (egrCls (shaperTouch 3 2 (atLast 0 76320 s)) 3 2).level = 0 := by
  dsimp only; decide

/-- The measurement example of R208: 500,001 ns and 190 units of 2^-10 ns. -/
def channelEleven : State :=
  let s := setF R.TDC_CH_CFG_SRC 0x13 (setF R.TDC_CH_CFG_ENA 1 (setF R.TDC_GCFG_ENA 1 (atLast 1712345678 500004 up)) 11) 11
  after (.tdcCalPair 11 1352 2706) (anchor { setF R.TDC_CH_DELAY_DELAY 27001 s 11 with tdc := { s.tdc with k := 1000 } })

theorem test_tdc_record :
    (tdcCh (after (.tdcEdgeMeasure 0x13 true 1000 [(11, 2031)]) channelEleven) 11).queue.map (fun w => w.take 3) =
      [[500001, 1712345678, 190 * 65536]] := by decide

/-- The select example of R383: the selection of PCIe reads back with VALID, and that of I2C is another. -/
theorem test_selections_are_separate :
    let s := after (.selectWrite .pcie 0x50000 12) (after (.selectWrite .i2c 0x50000 40) up)
    (busRead .pcie 0x50000 s).1 = 0x4000000C ∧ (busRead .i2c 0x50000 s).1 = 0x40000028 := by dsimp only; decide

/-- The histogram example of R478: with a base of 500 ns a delay of 3,700 ns falls in bin 3. -/
theorem test_histogram_bin : histBin 500 3700 = 3 := by decide

/-- The fault example of R467: the hang of a crossing opens record 12 with source 6, island 12 and instance 5, and a timer of 50 ms. -/
theorem test_fault_record :
    let s : State := setCross islHOST islRED true { up with flt := { up.flt with seq := 11, newest := 2 } }
    ((after (.faultCollect 1) (after (.crossingHang 5 12) s)).flt.recs.getD 3 none).map
      (fun r => (r.seq, r.src, r.isl, r.inst, r.react, r.deadline)) = some (12, 6, 12, 5, 50, some 50001) := by dsimp only; decide

end Sys2Proof.Tests
end

/-! Proofs about the register access path (one write, one read, the commands that write one register, captures and selects:
spec/00 R5 to R16, R28, R29, R382) and about the rings of HOST (spec/13 R357 to R362, R373). -/

namespace Sys2Proof.Machine

/-! ### Accesses to BAR0: the path, one write, one read -/

section

variable {s : State} {req : Requester} {off i val : Nat}

/-! The outputs of the step before (`State.begin`) have no part in the path of an access. -/

theorem gateOf_begin : gateOf s.begin off i = gateOf s off i := rfl

theorem readInst_begin : readInst s.begin req off = readInst s req off := rfl

/-- `reaches` at the start of a meaning. -/
theorem reaches_begin (h : reaches req off i s) : reaches req off i s.begin := h

theorem writeAt_of_reaches {eff : Nat → State → State} (h : reaches req off i s) : writeAt req off eff s = eff i s :=
  writeAt_single h.1 h.2

/-- Two effects that agree wherever the write goes make the same write. -/
theorem writeAt_congr {f g : Nat → State → State} (h : ∀ j ∈ targets s req off, ∀ t, f j t = g j t) :
    writeAt req off f s = writeAt req off g s :=
  List.foldl_rel (r := Eq) rfl fun j hj t u e => by
    subst e
    cases gateOf t off j <;> simp only [h j hj]

/-- A write of a register outside the windows goes to the one register, number 0. -/
theorem targets_of_not_perInstance (h : perInstance off = false) : targets s req off = [0] := by
  simp [targets, h]

/-- A 96-bit write at a register outside the windows, as the effect of its word +0x8 has it. -/
theorem timeWrite_eq_timeEff {hi : Nat} {f : T96 → State → State} (h : perInstance (off + 8) = false) :
    timeWrite req off hi (fun t _ s => f t s) s = writeAt req (off + 8) (fun _ s => timeEff req (off + 8) hi f s) s := by
  refine writeAt_congr fun j hj t => ?_
  rw [targets_of_not_perInstance h, List.mem_singleton] at hj
  subst hj
  rfl

/-- A 96-bit time with too many nanoseconds raises TIME_FORMAT and does nothing else (R16). -/
theorem timeEff_of_ns_gt {base : Nat} {f : T96 → State → State} (h : 999999999 < stagedWord s req base i)
    (hb : off - 8 = base := by omega) :
    timeEff req off val f s.begin i = raise R.FLT_GEN_EVENT_TIME_FORMAT s.begin 0 off := by
  subst hb
  exact if_pos h

/-! #### Writes -/

theorem busWrite_of_not_isSel (h : isSel off = false) :
    busWrite req off val s = writeAt req off (effect req off (val % 2 ^ 32)) s := by simp [busWrite, h]

theorem align_eq (ho : off < 0x100000) (ha : off % 4 = 0) : off % 0x100000 / 4 * 4 = off := by omega

/-- REGISTER_WRITE of an aligned word is a write of the bus. -/
theorem exec_registerWrite_word (ho : off < 0x100000) (ha : off % 4 = 0) :
    exec (.registerWrite req off val 4) s = .next (busWrite req off val s.begin) := by
  show ran (sizedWrite req (off % 0x100000) val 4 s.begin) = _
  rw [Nat.mod_eq_of_lt ho]
  simp [sizedWrite, ha]

theorem exec_selectWrite_word (ho : off < 0x100000) (ha : off % 4 = 0) :
    exec (.selectWrite req off val) s = .next (busWrite req off val s.begin) := by
  show ran (busWrite req (off % 0x100000 / 4 * 4) val s.begin) = _
  rw [align_eq ho ha, ran_eq]

theorem exec_timeWriteCommit_word (ho : off < 0x100000) (ha : off % 4 = 0) :
    exec (.timeWriteCommit req off val) s = .next (busWrite req off val s.begin) := by
  show ran (busWrite req (off % 0x100000 / 4 * 4) val s.begin) = _
  rw [align_eq ho ha, ran_eq]

/-- TIME_WRITE_COMMIT of a word that reaches its register has the register's effect. -/
theorem exec_timeWriteCommit_of_reaches (ho : off < 0x100000) (ha : off % 4 = 0) (hs : isSel off = false)
    (h : reaches req off i s) : exec (.timeWriteCommit req off val) s = .next (effect req off (val % 2 ^ 32) i s.begin) := by
  rw [exec_timeWriteCommit_word ho ha, busWrite_of_not_isSel hs, writeAt_of_reaches (reaches_begin h)]

/-! #### Reads -/

theorem busRead_of_pass (hs : isSel off = false) (hg : gateOf s off (readInst s req off) = .pass) :
    busRead req off s =
      ((readWord req off (readInst s req off) s).1 % 2 ^ 32, (readWord req off (readInst s req off) s).2) := by
  simp only [busRead, hs, hg, Bool.false_eq_true, if_false]

theorem busRead_unmapped (hs : isSel off = false) (hr : regRow off = none) : busRead req off s = (0, s) := by
  have hg : gateOf s off (readInst s req off) = .unmapped := by simp [gateOf, hr]
  simp only [busRead, hs, hg, Bool.false_eq_true, if_false, gateEvent]

theorem busRead_select (hs : isSel off = true) (hu : hostUp s = true) : busRead req off s = (selRead s req off, s) := by
  simp only [busRead, hs, hu, if_true]

/-- A read shows the octets of the enclosing word from its own offset on (R7). -/
theorem exec_captureRead (ho : off < 0x100000) :
    exec (.captureRead req off) s = .next (emit (.readData req off ((busRead req (off / 4 * 4) s.begin).1 / 256 ^ (off % 4)))
      (busRead req (off / 4 * 4) s.begin).2) := by
  show execCaptureRead req off s = _
  simp only [execCaptureRead, Nat.mod_eq_of_lt ho, ran_eq]

theorem exec_captureRead_word (ho : off < 0x100000) (ha : off % 4 = 0) :
    exec (.captureRead req off) s = .next (emit (.readData req off (busRead req off s.begin).1) (busRead req off s.begin).2) := by
  rw [exec_captureRead ho, Nat.div_mul_cancel (Nat.dvd_of_mod_eq_zero ha), ha, Nat.pow_zero, Nat.div_one]

end

/-! ### The front of the queue -/

/-- Settles O1: the step's own equation on a queue with a front. -/
theorem stepRunsTheFrontCommand : Obligations.StepRunsTheFrontCommand := by
  unfold Obligations.StepRunsTheFrontCommand
  exact fun _ _ _ => step_cons rfl

/-- Settles O7: a write of another size stops before the bus, and a read is one of the enclosing word. -/
theorem misalignedAccessesActOnNoRegister : Obligations.MisalignedAccessesActOnNoRegister := by
  unfold Obligations.MisalignedAccessesActOnNoRegister
  refine ⟨fun req off val size s ho hm => ?_, fun req off s ho => ?_⟩
  · show ran (sizedWrite req (off % 0x100000) val size s.begin) = _
    rw [Nat.mod_eq_of_lt ho, sizedWrite, if_pos hm, ran_eq]
  · have hw : off / 4 * 4 < 0x100000 := by omega
    exact ⟨_, _, exec_captureRead_word hw (Nat.mul_mod_left _ _), exec_captureRead ho⟩

/-- Settles O8: an offset without a row has the gate `unmapped` wherever the access goes. -/
theorem unmappedOffsetsReadZeroAndDiscardWrites : Obligations.UnmappedOffsetsReadZeroAndDiscardWrites := by
  unfold Obligations.UnmappedOffsetsReadZeroAndDiscardWrites
  intro req off s ho ha hs hr
  refine ⟨?_, fun val i ht => ?_⟩
  · rw [exec_captureRead_word ho ha, busRead_unmapped hs hr]
  · have hg : gateOf s.begin off i = .unmapped := by simp [gateOf, hr]
    rw [exec_registerWrite_word ho ha, busWrite_of_not_isSel hs, writeAt_blocked (s := s.begin) ht (by simp [hg]), hg]
    rfl

/-! ### The commands that write one register -/

section

variable {req : Requester} {off val : Nat}

/-- Every command of `writeOf` is a write access to its offset, whatever its operands. -/
theorem exec_eq_writeAt_of_writeOf {c : Instr} (s : State) (h : writeOf c = some (req, off, val)) :
    ∃ eff, exec c s = .next (writeAt req off eff s.begin) := by
  cases c <;> cases h <;> exact ⟨_, rfl⟩

/-- The command `c` on `s` is the write of the word `val` at `off`: an aligned register of BAR0, no select register, with the
register's own effect. -/
structure WritesWord (c : Instr) (s : State) (req : Requester) (off val : Nat) : Prop where
  lt : off < 0x100000
  aligned : off % 4 = 0
  notSel : isSel off = false
  word : val < 2 ^ 32
  run : exec c s = .next (writeAt req off (effect req off val) s.begin)

/-- Such a command answers what REGISTER_WRITE of the word answers. -/
theorem WritesWord.eq_registerWrite {c : Instr} {s : State} (h : WritesWord c s req off val) :
    exec c s = exec (.registerWrite req off val 4) s := by
  rw [h.run, exec_registerWrite_word h.lt h.aligned, busWrite_of_not_isSel h.notSel, Nat.mod_eq_of_lt h.word]

end

/-- Settles O9: a write access that the gate of its one target stops raises that gate's event. -/
theorem writesThatAreStoppedRaiseTheirEventOnly : Obligations.WritesThatAreStoppedRaiseTheirEventOnly := by
  unfold Obligations.WritesThatAreStoppedRaiseTheirEventOnly
  intro c req off val i s hw ht hg
  obtain ⟨eff, he⟩ := exec_eq_writeAt_of_writeOf s hw
  rw [he, writeAt_blocked (s := s.begin) ht hg, gateOf_begin]

/-! ### A row of its own and the plain write -/

section

variable {s : State} {req : Requester} {off val i n : Nat}

/-! #### The replicated registers that have a row of their own -/

theorem effRef_cand_cfg (h : off = 0x71000 + 0x40 * n) (hn : n < 16) : effRef req off val s = writeCandCfg n val s := by
  have hm : off % 0x40 = 0x00 := by omega
  have hd : (off - 0x71000) / 0x40 = n := by omega
  unfold effRef
  split
  case h_9 => rw [if_neg (by omega), if_pos (by omega)]; simp only [hm, hd]
  all_goals omega

theorem effRef_cand_period (h : off = 0x71004 + 0x40 * n + 8) (hn : n < 16) :
    effRef req off val s = writeCandPeriod n
      ⟨stagedWord s req (off - 8) + stagedWord s req (off - 4) % 65536 * 2 ^ 32, val % 16777216⟩ s := by
  have hm : off % 0x40 = 0x0C := by omega
  have hd : (off - 0x71000) / 0x40 = n := by omega
  unfold effRef
  split
  case h_9 => rw [if_neg (by omega), if_pos (by omega)]; simp only [hm, hd]
  all_goals omega

theorem effRef_dpll_cfg (h : off = 0x72000 + 0x100 * n) (hn : n < 4) : effRef req off val s = writeDpllCfg n val s := by
  have hm : off % 0x100 = 0x00 := by omega
  have hd : (off - 0x72000) / 0x100 = n := by omega
  unfold effRef
  split
  case h_9 => rw [if_neg (by omega), if_neg (by omega)]; simp only [hm, hd]
  all_goals omega

theorem effRef_dpll_ctl (h : off = 0x7200C + 0x100 * n) (hn : n < 4) : effRef req off val s = writeDpllCtl n val s := by
  have hm : off % 0x100 = 0x0C := by omega
  have hd : (off - 0x72000) / 0x100 = n := by omega
  unfold effRef
  split
  case h_9 => rw [if_neg (by omega), if_neg (by omega)]; simp only [hm, hd]
  all_goals omega

theorem effRef_ol_freq (h : off = 0x72060 + 0x100 * n + 4) (hn : n < 4) :
    effRef req off val s = olFreq n (sx 48 (stagedWord s req (off - 4) + val * 2 ^ 32)) s := by
  have hm : off % 0x100 = 0x64 := by omega
  have hd : (off - 0x72000) / 0x100 = n := by omega
  unfold effRef
  split
  case h_9 => rw [if_neg (by omega), if_neg (by omega)]; simp only [hm, hd]
  all_goals omega

theorem effRef_ol_phase (h : off = 0x72068 + 0x100 * n + 4) (hn : n < 4) :
    effRef req off val s = olPhase n (stagedS64 s req (off - 4) val) s := by
  have hm : off % 0x100 = 0x6C := by omega
  have hd : (off - 0x72000) / 0x100 = n := by omega
  unfold effRef
  split
  case h_9 => rw [if_neg (by omega), if_neg (by omega)]; simp only [hm, hd]
  all_goals omega

theorem effSyn_out_ctl (h : off = 0x80800 + 0x40 * n) (hn : n < 12) : effSyn req off val s = writeOutCtl n val s := by
  have hm : off % 0x40 = 0x00 := by omega
  have hd : (off - 0x80800) / 0x40 = n := by omega
  unfold effSyn
  rw [if_neg (by omega), if_neg (by omega), if_pos (by omega)]
  simp only [hm, hd]

theorem effSyn_out_epoch (h : off = 0x8080C + 0x40 * n) (hn : n < 12) :
    effSyn req off val s = timeEff req off val (fun t s => setT96 (off - 8) 0 t s) s := by
  have hm : off % 0x40 = 0x0C := by omega
  unfold effSyn
  rw [if_neg (by omega), if_neg (by omega), if_pos (by omega)]
  simp only [hm]

theorem effTdc_ch_cfg (h : off = 0x91000 + 0x40 * n) (hn : n < 25) : effTdc off val s = writeChCfg n val s := by
  have hm : off % 0x40 = 0x00 := by omega
  have hd : (off - 0x91000) / 0x40 = n := by omega
  unfold effTdc
  split
  case h_6 => rw [if_neg (by omega)]; simp only [hm, hd]
  all_goals omega

theorem effTdc_ch_cfg2 (h : off = 0x91004 + 0x40 * n) (hn : n < 25) : effTdc off val s = writeChCfg2 n val s := by
  have hm : off % 0x40 = 0x04 := by omega
  have hd : (off - 0x91000) / 0x40 = n := by omega
  unfold effTdc
  split
  case h_6 => rw [if_neg (by omega)]; simp only [hm, hd]
  all_goals omega

theorem effEgr_cls_rate (h : off = 0xD0204 + 0x10 * n) (hn : n < 8) :
    effEgr req off val i s = setF (clsF R.EGR_CLS_RATE_RATE n) val (shaperTouch i n s) i := by
  have hm : off % 0x10 = 0x4 := by omega
  have hd : (off - 0xD0200) / 0x10 = n := by omega
  have hg : ¬ gateWord off = true := by simp [gateWord]; omega
  unfold effEgr
  rw [if_neg (by omega), if_neg hg, if_pos (by omega)]
  simp only [hm, hd]

theorem effMon_cnt_cfg (h : 0xF0110 ≤ off ∧ off < 0xF0150) : effMon off val i s = writeCntCfg off i val s := by
  unfold effMon
  split
  case h_5 => rw [if_pos h]
  all_goals omega

theorem effMon_hist_cfg (h : off = 0xF0400 + 0x80 * n) (hn : n < 8) : effMon off val i s = writeHistCfg n val s := by
  have hd : (off - 0xF0400) / 0x80 = n := by omega
  unfold effMon
  split
  case h_5 => rw [if_neg (by omega), if_pos (by omega), hd]
  all_goals omega

/-! #### The block of an offset chooses the effect -/

theorem effect_of_ref {t : State} (h : effRef req off val s = t) (hb : blockOf off = 7 := by unfold blockOf; omega) :
    effect req off val i s = t := by simp only [effect, hb, h]
theorem effect_of_syn {t : State} (h : effSyn req off val s = t) (hb : blockOf off = 8 := by unfold blockOf; omega) :
    effect req off val i s = t := by simp only [effect, hb, h]
theorem effect_of_tdc {t : State} (h : effTdc off val s = t) (hb : blockOf off = 9 := by unfold blockOf; omega) :
    effect req off val i s = t := by simp only [effect, hb, h]
theorem effect_of_egr {t : State} (h : effEgr req off val i s = t) (hb : blockOf off = 0xD := by unfold blockOf; omega) :
    effect req off val i s = t := by simp only [effect, hb, h]
theorem effect_of_mon {t : State} (h : effMon off val i s = t) (hb : blockOf off = 0xF := by unfold blockOf; omega) :
    effect req off val i s = t := by simp only [effect, hb, h]

theorem isSel_eq_false (h : off % 0x10000 ≠ 0) : isSel off = false := by simp [isSel, h]

/-- A write access whose effect is that of its register is the write of its word. -/
theorem WritesWord.of_effect {c : Instr} {eff : Nat → State → State} (hv : val < 2 ^ 32)
    (run : exec c s = .next (writeAt req off eff s.begin)) (he : ∀ j t, effect req off val j t = eff j t)
    (ho : off < 0x100000 := by omega) (ha : off % 4 = 0 := by omega) (hs : off % 0x10000 ≠ 0 := by omega) :
    WritesWord c s req off val :=
  ⟨ho, ha, isSel_eq_false hs, hv, run.trans (by rw [writeAt_congr fun j _ t => he j t])⟩

/-! #### The two 96-bit rows -/

theorem exec_lastSetRequest {hi : Nat} :
    exec (.lastSetRequest req hi) s = .next (writeAt req 0x40028 (effect req 0x40028 hi) s.begin) := by
  show ran (timeWrite req 0x40020 hi (fun t _ s => requestStep true false false t.units s) s.begin) = _
  rw [timeWrite_eq_timeEff rfl]
  rfl

theorem exec_switchTimeWrite {hi : Nat} :
    exec (.switchTimeWrite req hi) s = .next (writeAt req 0x40068 (effect req 0x40068 hi) s.begin) := by
  show ran (timeWrite req 0x40060 hi (fun t _ s => timedSwitch (setT96 0x40060 0 t s)) s.begin) = _
  rw [timeWrite_eq_timeEff (f := fun t s => timedSwitch (setT96 0x40060 0 t s)) rfl]
  rfl

/-- Every well-formed command of `writeOf` is the write of its word, PORT_STATE_WRITE where it reports no L1Sync state: by
command, those of a replicated register by its index, the others at their one offset. -/
theorem writesWord_of_writeOf {c : Instr} (hwf : c.wf = true) (h : writeOf c = some (req, off, val))
    (hl : ∀ q w, c = .portStateWrite q w → w.l1 = none) : WritesWord c s req off val := by
  cases c <;> cases h <;> simp only [Instr.wf, Bool.and_eq_true, decide_eq_true_eq] at hwf
  case lastSetRequest.refl => exact ⟨by decide, by decide, rfl, hwf, exec_lastSetRequest⟩
  case switchTimeWrite.refl => exact ⟨by decide, by decide, rfl, hwf, exec_switchTimeWrite⟩
  case portStateWrite.refl w =>
    have hw : w.l1 = none := hl _ w rfl
    exact .of_effect hwf rfl fun j t => by rw [hw]; rfl
  case intervalWrite.refl => exact .of_effect hwf rfl fun _ _ => by rw [Nat.mod_eq_of_lt hwf]; rfl
  case domainMapWrite.refl domB => cases domB <;> exact ⟨by decide, by decide, rfl, hwf, rfl⟩
  case dpllModeWrite.refl => exact .of_effect hwf.2 rfl fun _ _ => effect_of_ref (effRef_dpll_cfg rfl hwf.1)
  case dpllHoldoverRequest.refl | dpllForce.refl | dpllRealign.refl =>
    exact .of_effect hwf.2 rfl fun _ _ => effect_of_ref (effRef_dpll_ctl rfl hwf.1)
  case olFreqWrite.refl => exact .of_effect hwf.2 rfl fun _ _ => effect_of_ref (effRef_ol_freq rfl hwf.1)
  case olPhaseWrite.refl => exact .of_effect hwf.2 rfl fun _ _ => effect_of_ref (effRef_ol_phase rfl hwf.1)
  case candCfgWrite.refl => exact .of_effect hwf.2 rfl fun _ _ => effect_of_ref (effRef_cand_cfg rfl hwf.1)
  case candPeriodWrite.refl => exact .of_effect hwf.2 rfl fun _ _ => effect_of_ref (effRef_cand_period rfl hwf.1)
  case outputStart.refl | outputStop.refl | outputRealign.refl =>
    exact .of_effect hwf.2 rfl fun _ _ => effect_of_syn (effSyn_out_ctl rfl hwf.1)
  case intervalArm.refl => exact .of_effect hwf.2 rfl fun _ _ => effect_of_tdc (effTdc_ch_cfg2 rfl hwf.1)
  case tdcChCfgWrite.refl => exact .of_effect hwf.2 rfl fun _ _ => effect_of_tdc (effTdc_ch_cfg rfl hwf.1)
  case shaperRateWrite.refl => exact .of_effect hwf.2 rfl fun _ _ => effect_of_egr (effEgr_cls_rate rfl hwf.1)
  case counterCfgWrite.refl k thr =>
    have hb : b2n thr ≤ 1 := by cases thr <;> decide
    exact .of_effect hwf.2 rfl fun _ _ => effect_of_mon (effMon_cnt_cfg (by omega))
  case histClear.refl u =>
    exact .of_effect hwf.2 rfl fun _ _ => effect_of_mon (effMon_hist_cfg rfl (Nat.mod_lt _ (by decide)))
  all_goals exact ⟨by decide, by decide, rfl, hwf, rfl⟩

end

/-- Settles O10: a row's own write is the plain write of its word; with a report the L1Sync state is held first. -/
theorem ownRowAndRegisterWriteAgree : Obligations.OwnRowAndRegisterWriteAgree := by
  unfold Obligations.OwnRowAndRegisterWriteAgree
  refine ⟨fun c req off val s hwf hw hl => (writesWord_of_writeOf hwf hw hl).eq_registerWrite, fun req w i s h => ?_⟩
  show ran (writeAt req 0x60104 (fun i s => writePortState w.val i (reportL1 req w.l1 i s)) s.begin) = _
  rw [writeAt_of_reaches (reaches_begin h), ran_eq]

/-! ### Times with too many nanoseconds (R16) -/

section

variable {s : State} {req : Requester} {val i n : Nat}

theorem effect_lastSet :
    effect req 0x40028 val i s = timeEff req 0x40028 val (fun t s => requestStep true false false t.units s) s := rfl

theorem effect_switchTime :
    effect req 0x40068 val i s = timeEff req 0x40068 val (fun t s => timedSwitch (setT96 0x40060 0 t s)) s := rfl

/-- The base time of a front port without a pending change takes the effect of a 96-bit time (R320, R324). -/
theorem effect_gateBase (ho : i < 64) (hp : (egrPort s i).pend = none) :
    effect req 0xD0128 val i s = timeEff req 0xD0128 val (fun t s => setT96 0xD0120 0x100000 t s i) s i := by
  show frontOnly i 0xD0128 (effGate req 0xD0128 val i) s = _
  rw [frontOnly, if_neg (Nat.not_le.mpr ho)]
  show ite ((egrPort s i).pend.isSome = true) _ _ = _
  rw [hp]
  exact if_neg (by decide)

theorem effect_outEpoch (hn : n < 12) :
    effect req (0x8080C + 0x40 * n) val i s =
      timeEff req (0x8080C + 0x40 * n) val (fun t s => setT96 (0x8080C + 0x40 * n - 8) 0 t s) s :=
  effect_of_syn (effSyn_out_epoch rfl hn)

end

/-- Settles O11: at each of the four kinds of register the word +0x8 has the effect of a 96-bit time. -/
theorem timesWithTooManyNanosecondsAreRejected : Obligations.TimesWithTooManyNanosecondsAreRejected := by
  unfold Obligations.TimesWithTooManyNanosecondsAreRejected
  intro req hi s hhi
  refine ⟨fun h hns => ⟨?_, ?_⟩, fun h hns => ⟨?_, ?_⟩, fun n hn h hns => ?_, fun o ho h hp hns => ?_⟩
  · rw [exec_timeWriteCommit_of_reaches (by decide) (by decide) rfl h, effect_lastSet]
    exact congrArg Host.Outcome.next (timeEff_of_ns_gt hns)
  · rw [exec_lastSetRequest, writeAt_of_reaches (reaches_begin h), effect_lastSet]
    exact congrArg Host.Outcome.next (timeEff_of_ns_gt hns)
  · rw [exec_timeWriteCommit_of_reaches (by decide) (by decide) rfl h, effect_switchTime]
    exact congrArg Host.Outcome.next (timeEff_of_ns_gt hns)
  · rw [exec_switchTimeWrite, writeAt_of_reaches (reaches_begin h), effect_switchTime]
    exact congrArg Host.Outcome.next (timeEff_of_ns_gt hns)
  · rw [exec_timeWriteCommit_of_reaches (by omega) (by omega) (isSel_eq_false (by omega)) h, effect_outEpoch hn]
    exact congrArg Host.Outcome.next (timeEff_of_ns_gt hns)
  · rw [exec_timeWriteCommit_of_reaches (by decide) (by decide) rfl h, effect_gateBase (s := s.begin) ho hp]
    exact congrArg Host.Outcome.next (timeEff_of_ns_gt hns)

/-! ### What a read shows does not depend on the outputs of the step before -/

section

variable {s : State} {off i o c : Nat}

theorem readFields_begin : readFields s.begin off i = readFields s off i := rfl
theorem viewSafe_begin : viewSafe s.begin off = viewSafe s off := rfl
theorem viewHost_begin : viewHost s.begin off i = viewHost s off i := rfl
theorem viewTim_begin : viewTim s.begin off = viewTim s off := rfl
theorem viewTsu_begin : viewTsu s.begin off i = viewTsu s off i := rfl
theorem viewPte_begin : viewPte s.begin off i = viewPte s off i := rfl
theorem viewRef_begin : viewRef s.begin off = viewRef s off := rfl
theorem viewSyn_begin : viewSyn s.begin off = viewSyn s off := rfl
theorem viewTdc_begin : viewTdc s.begin off = viewTdc s off := rfl
theorem viewLnk_begin : viewLnk s.begin off i = viewLnk s off i := rfl
theorem viewIng_begin : viewIng s.begin off = viewIng s off := rfl
theorem viewBuf_begin : viewBuf s.begin off i = viewBuf s off i := rfl
theorem viewRed_begin : viewRed s.begin off i = viewRed s off i := rfl
theorem viewMon_begin : viewMon s.begin off = viewMon s off := rfl

theorem levelRead_begin : levelRead s.begin o c = levelRead s o c := rfl

theorem shaperTouch_begin : shaperTouch o c s.begin = (shaperTouch o c s).begin := by
  unfold shaperTouch
  simp only [apply_ite State.begin]
  rfl

/-- The level of a class is brought up to the present Last before it is shown, with or without the outputs. -/
theorem viewEgr_begin : viewEgr s.begin off i = viewEgr s off i := by
  unfold viewEgr
  rw [shaperTouch_begin, levelRead_begin]
  rfl

theorem viewOf_begin : viewOf s.begin off i = viewOf s off i := by
  unfold viewOf
  simp only [viewSafe_begin, viewHost_begin, viewTim_begin, viewTsu_begin, viewPte_begin, viewRef_begin, viewSyn_begin,
    viewTdc_begin, viewLnk_begin, viewIng_begin, viewBuf_begin, viewEgr_begin, viewRed_begin, viewMon_begin]

theorem viewWord_begin : viewWord s.begin off i = viewWord s off i := by
  simp only [viewWord, viewOf_begin, readFields_begin]

end

/-! ### Captures (R15), selects (R382) and what a timed-out access leaves (R29) -/

section

variable {s : State} {req : Requester} {off i n base val : Nat}

/-- The programmable counters are captured. -/
theorem not_counter_of_uncaptured (h : captureOf off = none) : ¬ (0xF0150 ≤ off ∧ off < 0xF0190) := by
  intro hc
  have := List.findSome?_eq_none_iff.mp h (0xF0150, 2, 8, 8) (by decide)
  simp at this
  omega

/-- A later word of a captured register reads what the requester's capture kept. -/
theorem readWord_later (h : captureOf off = some (base, n)) (hb : off ≠ base) :
    readWord req off i s = (smGet 0 s.caps (instKey req off i), s) := by
  unfold readWord
  split
  case h_5 => simp only [h, if_neg hb]
  all_goals exact absurd h.symm (Option.some_ne_none _)

/-- The captures after a read of word +0x0 of a register of `n` words. -/
def captured (req : Requester) (off i n : Nat) (s : State) : SMap Nat :=
  (List.range n).foldl (fun c k => smPut 0 c (instKey req (off + 4 * k) i) (viewWord s (off + 4 * k) i % 2 ^ 32)) s.caps

/-- Word +0x0 of a captured register below the monitors keeps every word of it. -/
theorem readWord_first (h : captureOf off = some (off, n)) (hm : off < 0xF0000) :
    readWord req off i s = (viewWord s off i, { s with caps := captured req off i n s }) := by
  unfold readWord
  split
  case h_5 => simp only [h, if_true, if_pos hm]; rfl
  all_goals exact absurd h.symm (Option.some_ne_none _)

theorem instKey_word_inj {a b : Nat} (h : instKey req (off + 4 * a) i = instKey req (off + 4 * b) i) : a = b := by
  simp only [instKey, reqKey] at h
  omega

/-- Every word of the register is kept. -/
theorem smGet_captured {k : Nat} (h : k < n) :
    smGet 0 (captured req off i n s) (instKey req (off + 4 * k) i) = viewWord s (off + 4 * k) i % 2 ^ 32 := by
  unfold captured
  induction n with
  | zero => omega
  | succ n ih =>
    rw [List.range_succ, List.foldl_append, List.foldl_cons, List.foldl_nil]
    by_cases hk : k = n
    · rw [hk, smGet_smPut_same]
    · rw [smGet_smPut_other _ _ _ _ _ _ fun e => hk (instKey_word_inj e), ih (by omega)]

/-- No counter of line data moves at the read of a plain word that no register captures. -/
theorem lineCount_plain (h : captureOf off = none) (hp : readPlain off = true) : lineCount off i s = s := by
  have hc := not_counter_of_uncaptured h
  unfold lineCount
  split
  case h_4 => exact if_neg fun hx => hc ⟨hx.1, hx.2.1⟩
  all_goals exact absurd hp (by decide)

theorem readWord_plain (h : captureOf off = none) (hp : readPlain off = true) : readWord req off i s = (viewWord s off i, s) := by
  have hl := lineCount_plain (i := i) (s := s) h hp
  unfold readWord
  split
  case h_5 => simp only [h, hl]
  all_goals exact absurd hp (by decide)

/-- A read that passes the gate outputs the word read. -/
theorem exec_captureRead_of_pass (ho : off < 0x100000) (ha : off % 4 = 0) (hs : isSel off = false)
    (hg : gateOf s off (readInst s req off) = .pass) :
    exec (.captureRead req off) s =
      .next (emit (.readData req off ((readWord req off (readInst s req off) s.begin).1 % 2 ^ 32))
        (readWord req off (readInst s req off) s.begin).2) := by
  rw [exec_captureRead_word ho ha, busRead_of_pass (s := s.begin) hs hg, readInst_begin]

/-! #### Select registers -/

theorem off_of_isSel (h : isSel off = true) : off = blockOf off * 0x10000 := by
  simp only [isSel, Bool.and_eq_true, beq_iff_eq] at h
  unfold blockOf
  omega

theorem blockOf_mul (b : Nat) : blockOf (b * 0x10000) = b := Nat.mul_div_cancel _ (by decide)

theorem selWord_block (q : Requester) (b : Nat) : selWord s q (b * 0x10000) = smGet 0 s.sels (reqKey q (b * 0x10000)) := by
  rw [selWord, blockOf_mul]

/-- A select register belongs to one requester and one block. -/
theorem reqKey_block_inj {q : Requester} {b : Nat} (ho : off < 0x100000) (hs : isSel off = true) (hb : b < 16)
    (h : reqKey q (b * 0x10000) = reqKey req off) : (q, b) = (req, blockOf off) := by
  have he := off_of_isSel hs
  simp only [reqKey] at h
  have hq : reqIdx q = reqIdx req := by omega
  have hr : q = req := by revert hq; cases q <;> cases req <;> decide
  rw [hr, Prod.mk.injEq]
  exact ⟨rfl, by omega⟩

theorem busWrite_select (hs : isSel off = true) (hu : hostUp s = true) :
    busWrite req off val s =
      { s with sels := smPut 0 s.sels (reqKey req off) (bitsOf (val % 2 ^ 32) 31 1 * 2 ^ 31 + val % 2 ^ 32 % 65536) } := by
  simp only [busWrite, hs, if_true, selWrite, hu]

/-! #### An access that timed out -/

/-- The crossing to the island that does not answer is hung. -/
theorem exec_bar0AccessTimeout_of_pass {acc : Access} (hs : isSel off = false)
    (hh : ownerOf off (readInst s acc.req off) ≠ islHOST) (hf : ownerOf off (readInst s acc.req off) ≠ islSAFE)
    (hg : gateOf s off (readInst s acc.req off) = .pass) :
    exec (.bar0AccessTimeout off acc) s =
      .next (zeroAnswer off acc (crossHang islHOST (ownerOf off (readInst s acc.req off)) s.begin)) := by
  show execBar0AccessTimeout off acc s = _
  simp only [execBar0AccessTimeout, readInst_begin, gateOf_begin, hs, hg, beq_eq_false_iff_ne.mpr hh, beq_eq_false_iff_ne.mpr hf,
    Bool.or_false, Bool.false_eq_true, if_false, ran_eq, zeroAnswer]

/-- Where the crossing or the clock is lost already, only the fault is added. -/
theorem exec_bar0AccessTimeout_of_lost {acc : Access} {isl : Nat} (hs : isSel off = false)
    (hh : ownerOf off (readInst s acc.req off) ≠ islHOST) (hf : ownerOf off (readInst s acc.req off) ≠ islSAFE)
    (hg : gateOf s off (readInst s acc.req off) = .lost isl) :
    exec (.bar0AccessTimeout off acc) s =
      .next (zeroAnswer off acc (hangFault islHOST (ownerOf off (readInst s acc.req off)) s.begin)) := by
  show execBar0AccessTimeout off acc s = _
  simp only [execBar0AccessTimeout, readInst_begin, gateOf_begin, hs, hg, beq_eq_false_iff_ne.mpr hh, beq_eq_false_iff_ne.mpr hf,
    Bool.or_false, Bool.false_eq_true, if_false, ran_eq, zeroAnswer]

end

/-- A table of selects written and nothing else but the outputs. -/
theorem onlyWrites_sels {s : State} {x : SMap Nat} : onlyWrites [.sels, .outs] s { s.begin with sels := x } :=
  onlyWrites_of_keeps (W := 2 ^ 2 + 2 ^ 22) (keeps_up_sels rfl (keeps_State_begin rfl keeps_refl)) rfl

/-- A table of captures written and nothing else but the outputs. -/
theorem onlyWrites_caps {s : State} {x : SMap Nat} {o : Output} :
    onlyWrites [.caps, .outs] s (emit o { s.begin with caps := x }) :=
  onlyWrites_of_keeps (W := 2 ^ 3 + 2 ^ 22) (keeps_emit rfl (keeps_up_caps rfl (keeps_State_begin rfl keeps_refl))) rfl

/-- Settles O12: each access by its kind. -/
theorem registerAccessesTakeEffect : Obligations.RegisterAccessesTakeEffect := by
  unfold Obligations.RegisterAccessesTakeEffect
  refine ⟨fun req off val s ho ha hs => ?_, fun req off val s ho ha hs hu => ?_, fun req off s ho ha hs hg => ?_,
    fun req off s ho ha hs hu => ?_, fun off acc s hs => ?_⟩
  · intro t
    have hw : busWrite req off val s.begin = t := busWrite_of_not_isSel hs
    refine ⟨?_, ?_, ?_, fun i h => writeAt_of_reaches (reaches_begin h)⟩
    · rw [exec_registerWrite_word ho ha, hw]
    · rw [exec_selectWrite_word ho ha, hw]
    · rw [exec_timeWriteCommit_word ho ha, hw]
  · have hw := busWrite_select (req := req) (val := val) (s := s.begin) hs hu
    refine ⟨_, ?_, exec_registerWrite_word ho ha, exec_timeWriteCommit_word ho ha, ?_, ?_, ?_, fun q b hne hb => ?_⟩
    · exact exec_selectWrite_word ho ha
    · rw [hw]; exact onlyWrites_sels
    · rw [hw]; rfl
    · rw [hw, selWord, ← off_of_isSel hs]; exact smGet_smPut_same _ _ _ _
    · rw [hw, selWord_block, selWord_block]
      exact smGet_smPut_other _ _ _ _ _ _ fun e => hne (reqKey_block_inj ho hs hb e)
  · intro i r
    have hr := exec_captureRead_of_pass ho ha hs hg
    refine ⟨hr, fun hc hp => ?_, fun n hc hm => ?_, fun base n hc hb => ?_⟩
    · rw [hr, readWord_plain hc hp, viewWord_begin]
    · refine ⟨_, hr, ?_, ?_, fun k hk => ?_⟩
      · rw [readWord_first hc hm]; exact onlyWrites_caps
      · rw [readWord_first hc hm, viewWord_begin]; rfl
      · rw [readWord_first hc hm]
        exact (smGet_captured hk).trans (by rw [viewWord_begin])
    · rw [hr, readWord_later hc hb]; rfl
  · rw [exec_captureRead_word ho ha, busRead_select (s := s.begin) hs hu]; rfl
  · intro i isl hh hf
    exact ⟨exec_bar0AccessTimeout_of_pass hs hh hf, exec_bar0AccessTimeout_of_lost hs hh hf⟩

/-! ### Rings (R357 to R362, R373) -/

section

variable {s : State} {req : Requester} {f g : Fld} {r q i j v x k : Nat}

/-- Two places of one register window are two keys. -/
theorem Fld.key_ne (h : f.st = g.st ∧ f.off * 32 + f.lo ≠ g.off * 32 + g.lo) : f.key i ≠ g.key i := by
  simp only [Fld.key, h.1, Nat.add_mul]
  omega

/-- A write of a field leaves the other fields of its register window. -/
theorem getF_setF_place (h : g.st = f.st ∧ g.off * 32 + g.lo ≠ f.off * 32 + f.lo) :
    getF (setF f v s i) g i = getF s g i := getF_setF_ne (Fld.key_ne h)

/-- An event leaves the other fields of its register window. -/
theorem getF_raise_place {d : Nat} (h : g.st = f.st ∧ g.off * 32 + g.lo ≠ f.off * 32 + f.lo) :
    getF (raise f s i d) g i = getF s g i := getF_raise_ne (Fld.key_ne h)

/-! #### What the ring operations leave of one another -/

theorem ring_setRing_same {y : Ring} : ring (setRing r y s) r = y := smGet_smPut_same _ _ _ _

theorem ring_setF : ring (setF f v s i) r = ring s r := rfl

theorem ringState_setRing {y : Ring} : ringState (setRing r y s) q = ringState s q := rfl

theorem devIndex_setRing {y : Ring} : devIndex (setRing r y s) q = devIndex s q := rfl

theorem ringState_setRingState : ringState (setRingState r v s) r = v % 8 := getF_setF_same

theorem devIndex_setRingState : devIndex (setRingState r v s) r = devIndex s r := getF_setF_place (by decide)

/-- The full and stalled marks are no registers. -/
theorem ringFull_regs : (ringFull r s).regs = s.regs :=
  (keeps_ringFull (W := 131072) rfl keeps_refl).same.regs rfl

theorem ringState_ringFull : ringState (ringFull r s) q = ringState s q := getF_congr ringFull_regs

theorem devIndex_ringFull : devIndex (ringFull r s) q = devIndex s q := getF_congr ringFull_regs

/-- A ring that enters ERROR with cause DOORBELL. -/
theorem ringError_doorbell_eq : ringError r 1 s = raise R.HIF_RING_EVENT_DOORBELL_INVALID
    (setF R.HIF_RING_STAT_ERR_CAUSE 1 (setRingState r 4 (dropHost r s)) r) r := by
  simp only [ringError, if_true]

theorem ringState_ringError_doorbell : ringState (ringError r 1 s) r = 4 := by
  rw [ringError_doorbell_eq]
  exact (getF_raise_place (by decide)).trans ((getF_setF_place (by decide)).trans ringState_setRingState)

theorem errCause_ringError_doorbell : getF (ringError r 1 s) R.HIF_RING_STAT_ERR_CAUSE r = 1 := by
  rw [ringError_doorbell_eq]
  exact (getF_raise_place (by decide)).trans getF_setF_same

theorem event_ringError_doorbell : getF (ringError r 1 s) R.HIF_RING_EVENT_DOORBELL_INVALID r = 1 := by
  rw [ringError_doorbell_eq]
  exact beq_iff_eq.mp (flag_raise_same (by decide))

/-! #### The words that wait for START -/

/-- A software write of one word leaves the fields of another word. -/
theorem getF_softWord_ne (h : ∀ y ∈ rowFields x, g.key j ≠ (rowFld x y).key i) : getF (softWord x v s i) g j = getF s g j := by
  unfold softWord
  refine List.foldlRecOn (motive := fun t => getF t g j = getF s g j) _ _ rfl fun t ht y hy => ?_
  have hn := h y hy
  dsimp only
  cases y.acc
  case rw | rws | w1c => exact (getF_setF_ne hn).trans ht
  case ro | wo => exact ht

theorem softWord_hif : (softWord x v s i).hif = s.hif := (keeps_softWord (W := 2) rfl keeps_refl).same.hif rfl

/-- The words that wait for START are in the ring's window, and their fields in 32 bits. -/
theorem cfgWord_window : ∀ k < 5, winStride (0x30100 + 4 * k) = 0x100000 ∧ ∀ y ∈ rowFields (0x30100 + 4 * k), y.lo < 32 := by
  decide

/-- The words of HIF_RING_CFG, _BASE and _WB are others than that of HIF_RING_STAT. -/
theorem ringState_softWord_cfg (hk : k < 5) : ringState (softWord (0x30100 + 4 * k) v s r) r = ringState s r := by
  obtain ⟨hst, hlo⟩ := cfgWord_window k hk
  refine getF_softWord_ne fun y hy => Fld.key_ne ⟨hst.symm, ?_⟩
  have hy32 := hlo y hy
  simp only [rowFld, R.HIF_RING_STAT_STATE]
  omega

/-- What waits for START comes into force without a change of state, and no index moves. -/
theorem ringTake_keeps : ringState (ringTake r s) r = ringState s r ∧ (ringTake r s).hif.rings = s.hif.rings := by
  unfold ringTake
  refine List.foldlRecOn (motive := fun t => ringState t r = ringState s r ∧ t.hif.rings = s.hif.rings) _ _ ⟨rfl, rfl⟩
    fun t ht k hk => ?_
  dsimp only
  cases smGet none t.hif.cfgs (32 * r + k)
  case none => exact ht
  case some w => exact ⟨(ringState_softWord_cfg (List.mem_range.mp hk)).trans ht.1, (congrArg Hif.rings softWord_hif).trans ht.2⟩

theorem ring_ringTake : ring (ringTake r s) q = ring s q := by simp only [ring, ringTake_keeps.2]

/-! #### START, STOP and RESET -/

theorem ringState_ringStop (h : ringState s r = 1) : ringState (ringStop r s) r = 2 := by
  rw [ringStop, if_pos h, ringState_setRingState]

theorem ringReset_off (h : ringState s r = 3 ∨ ringState s r = 4) :
    ringState (ringReset r s) r = 0 ∧ devIndex (ringReset r s) r = 0 ∧ (ring (ringReset r s) r).host = 0 := by
  rw [ringReset, if_pos h, ringState_setRing, devIndex_setRing, ring_setRing_same]
  exact ⟨(getF_setF_place (by decide)).trans ((getF_setF_place (by decide)).trans ringState_setRingState),
    (getF_setF_place (by decide)).trans getF_setF_same, rfl⟩

/-- START of a kind that does not work leaves the ring OFF. -/
theorem ringStart_idle (h : ringState s r = 0 ∨ ringState s r = 3) (hk : kindWorks (ringKind (ringTake r s) r) = false) :
    ringState (ringStart r s) r = 0 := by
  simp only [ringStart, if_pos h, hk, Bool.not_false, if_true, ringState_setRingState]

/-- START of a working kind from OFF, with a held index that passes the tests of R361 at D = 0. -/
theorem ringStart_running (h : ringState s r = 0) (hk : kindWorks (ringKind (ringTake r s) r) = true)
    (hsize : (ring s r).host ≤ ringSize (ringTake r s) r) (hlt : (ring s r).host < 65536)
    (hprev : ((ring s r).host + 65536 - (ring s r).prev) % 65536 ≤ ringSize (ringTake r s) r) :
    ringState (ringStart r s) r = 1 ∧ devIndex (ringStart r s) r = 0 := by
  have hd : devIndex (setF R.HIF_RING_STAT_DEV_INDEX 0 (ringTake r s) r) r = 0 := getF_setF_same
  have hz : ringSize (setF R.HIF_RING_STAT_DEV_INDEX 0 (ringTake r s) r) r = ringSize (ringTake r s) r :=
    congrArg (fun l => 2 ^ min 12 (max 4 l)) (getF_setF_place (by decide))
  have hr : ring (setF R.HIF_RING_STAT_DEV_INDEX 0 (ringTake r s) r) r = ring s r := ring_setF.trans ring_ringTake
  have hok : doorbellOk (setF R.HIF_RING_STAT_DEV_INDEX 0 (ringTake r s) r) r (ring s r).host = true := by
    simp only [doorbellOk, hd, hz, hr, Bool.and_eq_true, decide_eq_true_eq]
    omega
  have hst : ringState (ringTake r s) r = 0 := ringTake_keeps.1.trans h
  simp only [ringStart, h, true_or, if_true, hk, Bool.not_true, Bool.false_eq_true, if_false, hst, hr, hok]
  exact ⟨by rw [ringState_ringFull, ringState_setRing, ringState_setRingState],
    by rw [devIndex_ringFull, devIndex_setRing, devIndex_setRingState, hd]⟩

theorem ringStart_other (h : ringState s r = 1 ∨ ringState s r = 2 ∨ ringState s r = 4) : ringStart r s = s := by
  rw [ringStart, if_neg (by omega)]

/-! #### Doorbells (R361) -/

theorem doorbell_error {h : Nat} (hs : ringState s r = 4) : doorbell r h s = s := by simp only [doorbell, hs]

theorem doorbell_held {h : Nat} (hs : ringState s r = 0 ∨ ringState s r = 3) :
    doorbell r h s = setRing r { ring s r with host := h } s := by
  rcases hs with hs | hs <;> simp only [doorbell, hs]

theorem doorbell_working {h : Nat} (hs : ringState s r = 1 ∨ ringState s r = 2) :
    doorbell r h s =
      if doorbellOk s r h then ringFull r (setRing r { ring s r with host := h, prev := h } s) else ringError r 1 s := by
  rcases hs with hs | hs <;> simp only [doorbell, hs]

theorem doorbellOk_iff {h : Nat} : doorbellOk s r h = true ↔
    (h + 65536 - devIndex s r) % 65536 ≤ ringSize s r ∧ (h + 65536 - (ring s r).prev) % 65536 ≤ ringSize s r := by
  simp only [doorbellOk, Bool.and_eq_true, decide_eq_true_eq]

/-! #### The adit (R357, R360) -/

theorem aditWrite_invalid {addr size val : Nat} (hu : hostUp s = true) (h : size ≠ 4 ∨ addr % 4 ≠ 0 ∨ 8 < addr % 128) :
    aditWrite addr size val s = raise R.HIF_EVENT_ADIT_INVALID s (addr / 128 % 32) := by
  simp only [aditWrite, hu, Bool.not_true, Bool.false_eq_true, if_false]
  split
  · rfl
  · have h8 : 8 < addr % 128 := by omega
    split
    case h_4 => rfl
    all_goals omega

theorem aditWrite_doorbell {addr val : Nat} (hu : hostUp s = true) (h : addr % 128 = 0) :
    aditWrite addr 4 val s = doorbell (addr / 128 % 32) (val % 65536) s := by
  simp only [aditWrite, hu, Bool.not_true, Bool.false_eq_true, if_false, h]
  exact if_neg (by omega)

theorem aditWrite_rearm {addr val : Nat} (hu : hostUp s = true) (h : addr % 128 = 4) :
    aditWrite addr 4 val s = rearmVector (getF s R.HIF_RING_CFG_VECTOR (addr / 128 % 32)) s := by
  simp only [aditWrite, hu, Bool.not_true, Bool.false_eq_true, if_false, h]
  exact if_neg (by omega)

theorem aditWrite_reserved {addr val : Nat} (hu : hostUp s = true) (h : addr % 128 = 8) : aditWrite addr 4 val s = s := by
  simp only [aditWrite, hu, Bool.not_true, Bool.false_eq_true, if_false, h]
  exact if_neg (by omega)

/-! #### HIF_RING_CTL and the words that wait -/

theorem writeRingCtl_bits : writeRingCtl (2 ^ 31) r s = ringStart r s ∧ writeRingCtl (2 ^ 30) r s = ringStop r s ∧
    writeRingCtl (2 ^ 29) r s = ringReset r s := by
  refine ⟨?_, ?_, ?_⟩ <;> simp [writeRingCtl, bitOf]

theorem writeRingCfg_regs {val : Nat} (h : ringState s r = 0 ∨ ringState s r = 3) : (writeRingCfg x val r s).regs = s.regs := by
  rw [writeRingCfg, if_pos h]

theorem writeRingCfg_busy {val : Nat} (h0 : ringState s r ≠ 0) (h3 : ringState s r ≠ 3) :
    writeRingCfg x val r s = raise R.HIF_EVENT_RING_CFG_BUSY s r := by
  rw [writeRingCfg, if_neg (by omega)]

/-! #### The end of a stop, a DMA error, Bus Master Enable -/

theorem exec_ringStopped (hu : hostUp s = true) (hr : r < 32) (hrun : ringRuns s r = false) (htx : txInFlight s r = false)
    (hd : ∀ d ∈ s.hif.txDone, d.1 ≠ r) (hs : ringState s r = 2) :
    exec (.ringStopped r) s = .next (raise R.HIF_RING_EVENT_STOPPED (setRingState r 3 s.begin) r) := by
  have hany : s.hif.txDone.any (·.1 == r) = false := by simpa using hd
  have hok : (hostUp s.begin && r < 32 && !ringRuns s.begin r && !txInFlight s.begin r &&
      !s.begin.hif.txDone.any (·.1 == r)) = true := by
    show (hostUp s && r < 32 && !ringRuns s r && !txInFlight s r && !s.hif.txDone.any (·.1 == r)) = true
    simp [hu, hr, hrun, htx, hany]
  show ran (if _ then ringStopped r s.begin else s.begin) = _
  have hst : ringState s.begin r = 2 := hs
  rw [if_pos hok, ringStopped, if_pos hst, ran_eq]

theorem exec_dmaError {st : Nat} (hr : r < 32) (hd : dmaOk s = true) (hs : ringState s r = 1 ∨ ringState s r = 2) :
    exec (.dmaError r st) s =
      .next (raiseFault (faultBit 8) islHOST r st islHOST (ringError r 2 (abandonRun r s.begin))) := by
  have hok : (r < 32 && dmaOk s.begin && (ringState s.begin r == 1 || ringState s.begin r == 2)) = true := by
    show (r < 32 && dmaOk s && (ringState s r == 1 || ringState s r == 2)) = true
    simp [hr, hd, hs]
  show ran (if _ then dmaFail r st s.begin else s.begin) = _
  rw [if_pos hok, ran_eq, dmaFail]

theorem exec_busMasterEnable_off (hu : hostUp s = true) :
    exec (.busMasterEnable false) s = .next (setF R.HIF_GSTAT_BME 0 s.begin) := by
  show ran (if hostUp s = true then _ else _) = _
  rw [if_pos hu]
  rfl

theorem exec_busMasterEnable_on (hu : hostUp s = true) :
    exec (.busMasterEnable true) s = .next (s.hif.txDone.foldl (fun s d => txComplete d s)
      { setF R.HIF_GSTAT_BME 1 s.begin with hif := { (setF R.HIF_GSTAT_BME 1 s.begin).hif with txDone := [] } }) := by
  show ran (if hostUp s = true then _ else _) = _
  rw [if_pos hu]
  rfl

end

/-- Settles O43: the adit by its words, doorbells and HIF_RING_CTL by the ring's state. -/
theorem ringsFollowTheirStatesAndDoorbells : Obligations.RingsFollowTheirStatesAndDoorbells := by
  unfold Obligations.RingsFollowTheirStatesAndDoorbells
  refine ⟨fun addr size val s hu => ⟨fun h => congrArg Host.Outcome.next (aditWrite_invalid (s := s.begin) hu h), ?_, ?_, ?_⟩,
    fun r h s => ⟨doorbell_error, doorbell_held, fun hs h1 h2 => ?_, fun hs hn => ?_⟩,
    fun req val r s h => congrArg Host.Outcome.next (writeAt_of_reaches (reaches_begin h)),
    fun req val r s h => congrArg Host.Outcome.next (writeAt_of_reaches (reaches_begin h)),
    fun req val r s h => congrArg Host.Outcome.next (writeAt_of_reaches (reaches_begin h)),
    fun r s => ⟨writeRingCtl_bits, ringState_ringStop, ringReset_off, ringStart_idle, ringStart_running, ringStart_other,
      fun off val => ⟨writeRingCfg_regs, writeRingCfg_busy⟩⟩,
    fun r s => exec_ringStopped, fun r st s => exec_dmaError,
    fun s hu => ⟨exec_busMasterEnable_off hu, exec_busMasterEnable_on hu⟩⟩
  · rintro rfl h
    exact congrArg Host.Outcome.next (aditWrite_doorbell (s := s.begin) hu h)
  · rintro rfl h
    exact congrArg Host.Outcome.next (aditWrite_rearm (s := s.begin) hu h)
  · rintro rfl h
    exact congrArg Host.Outcome.next (aditWrite_reserved (s := s.begin) hu h)
  · rw [doorbell_working hs, if_pos (doorbellOk_iff.mpr ⟨h1, h2⟩)]
  · have he : doorbell r h s = ringError r 1 s := by rw [doorbell_working hs, if_neg (mt doorbellOk_iff.mp hn)]
    rw [he]
    exact ⟨rfl, ringState_ringError_doorbell, errCause_ringError_doorbell, event_ringError_doorbell⟩

end Sys2Proof.Machine

/-! Proofs about every command at once (what it may write, that it answers) and about the crossings and the clocks of the
islands, the shared buffer, the egress outputs, and the frames of the host and of the controller (spec/00, 01, 10, 11, 13). -/

namespace Sys2Proof.Machine

/-! ### Every command: its frame, and that it answers -/

section

variable {a m : Nat} {w : List Part} {p : Part} {s t : State} {o : Host.Outcome State Fault Refusal}

/-- The parts of `w`, added one by one to the mask `m`, make up every field of mask `a`. Unlike `masked` it goes through `w`
once and not once for every part. -/
def covers (a : Nat) : List Part → Nat → Bool
  | [], m => sub a m
  | p :: w, m => covers a w (m ||| 2 ^ (p.ctorIdx + 1))

/-- The parts are numbered from 1, as the fields of `State`; bit 0 of a mask is the queue's. -/
theorem Part.eq_of_mem_zipIdx : ∀ x ∈ Part.all.zipIdx 1, x.2 = x.1.ctorIdx + 1 := by decide

theorem Part.ctorIdx_injective : Function.Injective Part.ctorIdx := Function.LeftInverse.injective Part.ofNat_ctorIdx

theorem testBit_of_covers (h : covers a w m = true) (hp : p ∉ w) (hm : m.testBit (p.ctorIdx + 1) = false) :
    a.testBit (p.ctorIdx + 1) = false := by
  induction w generalizing m with
  | nil => exact Bool.eq_false_iff.mpr fun ha => by simp [sub_bit ha h] at hm
  | cons q w ih =>
    have hq : q.ctorIdx ≠ p.ctorIdx := fun e => hp (by simp [Part.ctorIdx_injective e])
    exact ih h (fun hw => hp (List.mem_cons_of_mem q hw)) (by simp [hm, hq])

theorem masked_of_covers (h : covers a w 1 = true) : masked w a = true := by
  refine List.all_eq_true.mpr fun x hx => ?_
  by_cases hp : x.1 ∈ w
  · simp [hp]
  · have hq : Nat.testBit 1 (x.1.ctorIdx + 1) = false := by simp [Nat.testBit_succ]
    simp [Part.eq_of_mem_zipIdx x hx, testBit_of_covers h hp hq]

theorem sub_refl (a : Nat) : sub a a = true := by simp [sub]

/-- A meaning that keeps all but the fields of mask `a` writes the parts of `w` only, where these cover the mask. -/
theorem onlyWrites_of_covers (h : ∀ {W : Nat}, sub a W = true → Keeps W s s → KeepsOut W s o) (hw : covers a w 1 = true)
    (e : o = .next t) : onlyWrites w s t :=
  onlyWrites_next (h (sub_refl a) keeps_refl) e (masked_of_covers hw)

end

/-- Settles O4: the parts of each command cover the mask of its meaning (Laws/Keeps.lean). -/
theorem everyCommandWritesItsPartsOnly : Obligations.EveryCommandWritesItsPartsOnly := by
  unfold Obligations.EveryCommandWritesItsPartsOnly
  intro c s t
  cases c with
  | registerWrite => exact onlyWrites_of_covers keeps_execRegisterWrite rfl
  | selectWrite => exact onlyWrites_of_covers keeps_execSelectWrite rfl
  | captureRead => exact onlyWrites_of_covers keeps_execCaptureRead rfl
  | timeWriteCommit => exact onlyWrites_of_covers keeps_execTimeWriteCommit rfl
  | bar0AccessTimeout => exact onlyWrites_of_covers keeps_execBar0AccessTimeout rfl
  | islandClockLoss => exact onlyWrites_of_covers keeps_execIslandClockLoss rfl
  | islandClockReturn => exact onlyWrites_of_covers keeps_execIslandClockReturn rfl
  | crossingUp => exact onlyWrites_of_covers keeps_execCrossingUp rfl
  | crossingDeliver => exact onlyWrites_of_covers keeps_execCrossingDeliver rfl
  | crossingHang => exact onlyWrites_of_covers keeps_execCrossingHang rfl
  | lastIncrement => exact onlyWrites_of_covers keeps_execLastIncrement rfl
  | stepRequest => exact onlyWrites_of_covers keeps_execStepRequest rfl
  | lastSetRequest => exact onlyWrites_of_covers keeps_execLastSetRequest rfl
  | servoPhaseCorrection => exact onlyWrites_of_covers keeps_execServoPhaseCorrection rfl
  | stepApply => exact onlyWrites_of_covers keeps_execStepApply rfl
  | slewRequest => exact onlyWrites_of_covers keeps_execSlewRequest rfl
  | slewCfgWrite => exact onlyWrites_of_covers keeps_execSlewCfgWrite rfl
  | slewDone => exact onlyWrites_of_covers keeps_execSlewDone rfl
  | domainEstimatePost => exact onlyWrites_of_covers keeps_execDomainEstimatePost rfl
  | domainStale => exact onlyWrites_of_covers keeps_execDomainStale rfl
  | domainSwitchRequest => exact onlyWrites_of_covers keeps_execDomainSwitchRequest rfl
  | switchArm => exact onlyWrites_of_covers keeps_execSwitchArm rfl
  | switchCancel => exact onlyWrites_of_covers keeps_execSwitchCancel rfl
  | switchTimeWrite => exact onlyWrites_of_covers keeps_execSwitchTimeWrite rfl
  | timedSwitchInstant => exact onlyWrites_of_covers keeps_execTimedSwitchInstant rfl
  | domainRelease => exact onlyWrites_of_covers keeps_execDomainRelease rfl
  | weltEnaWrite => exact onlyWrites_of_covers keeps_execWeltEnaWrite rfl
  | blendEnd => exact onlyWrites_of_covers keeps_execBlendEnd rfl
  | convergeDone => exact onlyWrites_of_covers keeps_execConvergeDone rfl
  | tallyMeasurement => exact onlyWrites_of_covers keeps_execTallyMeasurement rfl
  | cdrLockAcquire => exact onlyWrites_of_covers keeps_execCdrLockAcquire rfl
  | cdrLockLoss => exact onlyWrites_of_covers keeps_execCdrLockLoss rfl
  | frameReceive => exact onlyWrites_of_covers keeps_execFrameReceive rfl
  | frameEndReceive => exact onlyWrites_of_covers keeps_execFrameEndReceive rfl
  | alignmentLock => exact onlyWrites_of_covers keeps_execAlignmentLock rfl
  | calConstantApply => exact onlyWrites_of_covers keeps_execCalConstantApply rfl
  | domainMapWrite => exact onlyWrites_of_covers keeps_execDomainMapWrite rfl
  | intervalWrite => exact onlyWrites_of_covers keeps_execIntervalWrite rfl
  | portStateWrite => exact onlyWrites_of_covers keeps_execPortStateWrite rfl
  | portEnableWrite => exact onlyWrites_of_covers keeps_execPortEnableWrite rfl
  | tallyInvalidTimeout => exact onlyWrites_of_covers keeps_execTallyInvalidTimeout rfl
  | syncTransmit => exact onlyWrites_of_covers keeps_execSyncTransmit rfl
  | announceTransmit => exact onlyWrites_of_covers keeps_execAnnounceTransmit rfl
  | pdelayReqTransmit => exact onlyWrites_of_covers keeps_execPdelayReqTransmit rfl
  | delayReqTransmit => exact onlyWrites_of_covers keeps_execDelayReqTransmit rfl
  | txTimeReturn => exact onlyWrites_of_covers keeps_execTxTimeReturn rfl
  | followUpTransmit => exact onlyWrites_of_covers keeps_execFollowUpTransmit rfl
  | syncReceive => exact onlyWrites_of_covers keeps_execSyncReceive rfl
  | followUpReceive => exact onlyWrites_of_covers keeps_execFollowUpReceive rfl
  | delayReqReceive => exact onlyWrites_of_covers keeps_execDelayReqReceive rfl
  | delayRespReceive => exact onlyWrites_of_covers keeps_execDelayRespReceive rfl
  | delayReqTimeout => exact onlyWrites_of_covers keeps_execDelayReqTimeout rfl
  | pdelayReqReceive => exact onlyWrites_of_covers keeps_execPdelayReqReceive rfl
  | pdelayRespReceive => exact onlyWrites_of_covers keeps_execPdelayRespReceive rfl
  | generalMessageReceive => exact onlyWrites_of_covers keeps_execGeneralMessageReceive rfl
  | transparentForward => exact onlyWrites_of_covers keeps_execTransparentForward rfl
  | fupEntryTimeout => exact onlyWrites_of_covers keeps_execFupEntryTimeout rfl
  | syncTimeout => exact onlyWrites_of_covers keeps_execSyncTimeout rfl
  | unicastRequest => exact onlyWrites_of_covers keeps_execUnicastRequest rfl
  | unicastCancel => exact onlyWrites_of_covers keeps_execUnicastCancel rfl
  | grantExpiry => exact onlyWrites_of_covers keeps_execGrantExpiry rfl
  | candidatePhaseSample => exact onlyWrites_of_covers keeps_execCandidatePhaseSample rfl
  | candidateActivityLoss => exact onlyWrites_of_covers keeps_execCandidateActivityLoss rfl
  | freqWindowClose => exact onlyWrites_of_covers keeps_execFreqWindowClose rfl
  | waitToRestoreExpiry => exact onlyWrites_of_covers keeps_execWaitToRestoreExpiry rfl
  | prioTableCommit => exact onlyWrites_of_covers keeps_execPrioTableCommit rfl
  | dpllModeWrite => exact onlyWrites_of_covers keeps_execDpllModeWrite rfl
  | dpllHoldoverRequest => exact onlyWrites_of_covers keeps_execDpllHoldoverRequest rfl
  | dpllForce => exact onlyWrites_of_covers keeps_execDpllForce rfl
  | dpllRealign => exact onlyWrites_of_covers keeps_execDpllRealign rfl
  | realignDone => exact onlyWrites_of_covers keeps_execRealignDone rfl
  | dpllLoopUpdate => exact onlyWrites_of_covers keeps_execDpllLoopUpdate rfl
  | holdoverAvgUpdate => exact onlyWrites_of_covers keeps_execHoldoverAvgUpdate rfl
  | holdoverWUpdate => exact onlyWrites_of_covers keeps_execHoldoverWUpdate rfl
  | holdoverValid => exact onlyWrites_of_covers keeps_execHoldoverValid rfl
  | olFreqWrite => exact onlyWrites_of_covers keeps_execOlFreqWrite rfl
  | olPhaseWrite => exact onlyWrites_of_covers keeps_execOlPhaseWrite rfl
  | olWriteApply => exact onlyWrites_of_covers keeps_execOlWriteApply rfl
  | hostPhaseWrite => exact onlyWrites_of_covers keeps_execHostPhaseWrite rfl
  | xoCorrWrite => exact onlyWrites_of_covers keeps_execXoCorrWrite rfl
  | xoStabilitySample => exact onlyWrites_of_covers keeps_execXoStabilitySample rfl
  | ocxoWarmPin => exact onlyWrites_of_covers keeps_execOcxoWarmPin rfl
  | candCfgWrite => exact onlyWrites_of_covers keeps_execCandCfgWrite rfl
  | candPeriodWrite => exact onlyWrites_of_covers keeps_execCandPeriodWrite rfl
  | synceBindWrite => exact onlyWrites_of_covers keeps_execSynceBindWrite rfl
  | apllLock => exact onlyWrites_of_covers keeps_execApllLock rfl
  | apllUnlock => exact onlyWrites_of_covers keeps_execApllUnlock rfl
  | synCommit => exact onlyWrites_of_covers keeps_execSynCommit rfl
  | outputChangeApply => exact onlyWrites_of_covers keeps_execOutputChangeApply rfl
  | outputStart => exact onlyWrites_of_covers keeps_execOutputStart rfl
  | outputStartInstant => exact onlyWrites_of_covers keeps_execOutputStartInstant rfl
  | outputStop => exact onlyWrites_of_covers keeps_execOutputStop rfl
  | outputStopComplete => exact onlyWrites_of_covers keeps_execOutputStopComplete rfl
  | outputRealign => exact onlyWrites_of_covers keeps_execOutputRealign rfl
  | alignDone => exact onlyWrites_of_covers keeps_execAlignDone rfl
  | todOutMessage => exact onlyWrites_of_covers keeps_execTodOutMessage rfl
  | todInMessage => exact onlyWrites_of_covers keeps_execTodInMessage rfl
  | todUnpaired => exact onlyWrites_of_covers keeps_execTodUnpaired rfl
  | tdcEdgeMeasure => exact onlyWrites_of_covers keeps_execTdcEdgeMeasure rfl
  | tdcCalPair => exact onlyWrites_of_covers keeps_execTdcCalPair rfl
  | tdcResultDeliver => exact onlyWrites_of_covers keeps_execTdcResultDeliver rfl
  | tdcAnchorRenew => exact onlyWrites_of_covers keeps_execTdcAnchorRenew rfl
  | intervalArm => exact onlyWrites_of_covers keeps_execIntervalArm rfl
  | intervalTimeout => exact onlyWrites_of_covers keeps_execIntervalTimeout rfl
  | tdcChCfgWrite => exact onlyWrites_of_covers keeps_execTdcChCfgWrite rfl
  | prescalerWrite => exact onlyWrites_of_covers keeps_execPrescalerWrite rfl
  | tdcRefillRequest => exact onlyWrites_of_covers keeps_execTdcRefillRequest rfl
  | tdcRefillComplete => exact onlyWrites_of_covers keeps_execTdcRefillComplete rfl
  | tdcTableCommit => exact onlyWrites_of_covers keeps_execTdcTableCommit rfl
  | takeoverOverlapEnd => exact onlyWrites_of_covers keeps_execTakeoverOverlapEnd rfl
  | takeoverEnd => exact onlyWrites_of_covers keeps_execTakeoverEnd rfl
  | tdcTableDataRead => exact onlyWrites_of_covers keeps_execTdcTableDataRead rfl
  | lnkCommit => exact onlyWrites_of_covers keeps_execLnkCommit rfl
  | signalDetect => exact onlyWrites_of_covers keeps_execSignalDetect rfl
  | signalLoss => exact onlyWrites_of_covers keeps_execSignalLoss rfl
  | linkTrainingDone => exact onlyWrites_of_covers keeps_execLinkTrainingDone rfl
  | ltFail => exact onlyWrites_of_covers keeps_execLtFail rfl
  | linkConditionsMet => exact onlyWrites_of_covers keeps_execLinkConditionsMet rfl
  | linkUp => exact onlyWrites_of_covers keeps_execLinkUp rfl
  | linkDown => exact onlyWrites_of_covers keeps_execLinkDown rfl
  | sgmiiControlWord => exact onlyWrites_of_covers keeps_execSgmiiControlWord rfl
  | laneCfgWrite => exact onlyWrites_of_covers keeps_execLaneCfgWrite rfl
  | txeqWrite => exact onlyWrites_of_covers keeps_execTxeqWrite rfl
  | ebIdleAdjust => exact onlyWrites_of_covers keeps_execEbIdleAdjust rfl
  | ebSlip => exact onlyWrites_of_covers keeps_execEbSlip rfl
  | lpiRx => exact onlyWrites_of_covers keeps_execLpiRx rfl
  | powerUpCalibration => exact onlyWrites_of_covers keeps_execPowerUpCalibration rfl
  | recalPartial => exact onlyWrites_of_covers keeps_execRecalPartial rfl
  | recalFull => exact onlyWrites_of_covers keeps_execRecalFull rfl
  | recalComplete => exact onlyWrites_of_covers keeps_execRecalComplete rfl
  | ingressHead => exact onlyWrites_of_covers keeps_execIngressHead rfl
  | ingressTailPass => exact onlyWrites_of_covers keeps_execIngressTailPass rfl
  | learnInsert => exact onlyWrites_of_covers keeps_execLearnInsert rfl
  | streamLearn => exact onlyWrites_of_covers keeps_execStreamLearn rfl
  | ageingSweepVisit => exact onlyWrites_of_covers keeps_execAgeingSweepVisit rfl
  | streamDeleteClear => exact onlyWrites_of_covers keeps_execStreamDeleteClear rfl
  | ingTableRead => exact onlyWrites_of_covers keeps_execIngTableRead rfl
  | ingTableWrite => exact onlyWrites_of_covers keeps_execIngTableWrite rfl
  | streamGateCommit => exact onlyWrites_of_covers keeps_execStreamGateCommit rfl
  | streamGateChange => exact onlyWrites_of_covers keeps_execStreamGateChange rfl
  | bufAdmission => exact onlyWrites_of_covers keeps_execBufAdmission rfl
  | frameStoreComplete => exact onlyWrites_of_covers keeps_execFrameStoreComplete rfl
  | linkHoldExpiry => exact onlyWrites_of_covers keeps_execLinkHoldExpiry rfl
  | bufAdmissionCommit => exact onlyWrites_of_covers keeps_execBufAdmissionCommit rfl
  | egressSelection => exact onlyWrites_of_covers keeps_execEgressSelection rfl
  | frameTxStart => exact onlyWrites_of_covers keeps_execFrameTxStart rfl
  | frameTxEnd => exact onlyWrites_of_covers keeps_execFrameTxEnd rfl
  | shaperRateWrite => exact onlyWrites_of_covers keeps_execShaperRateWrite rfl
  | shaperCfgWrite => exact onlyWrites_of_covers keeps_execShaperCfgWrite rfl
  | gateEntryChange o late => exact onlyWrites_of_covers (keeps_execGateEntryChange (a1 := o) (a2 := late)) rfl
  | macHoldStart => exact onlyWrites_of_covers keeps_execMacHoldStart rfl
  | gateEnableWrite => exact onlyWrites_of_covers keeps_execGateEnableWrite rfl
  | gateCommit => exact onlyWrites_of_covers keeps_execGateCommit rfl
  | gateCancel => exact onlyWrites_of_covers keeps_execGateCancel rfl
  | gateRealign => exact onlyWrites_of_covers keeps_execGateRealign rfl
  | gateConfigChange => exact onlyWrites_of_covers keeps_execGateConfigChange rfl
  | mmVerifyEnd => exact onlyWrites_of_covers keeps_execMmVerifyEnd rfl
  | egrTableRead => exact onlyWrites_of_covers keeps_execEgrTableRead rfl
  | egrTableWrite => exact onlyWrites_of_covers keeps_execEgrTableWrite rfl
  | frerDescriptor => exact onlyWrites_of_covers keeps_execFrerDescriptor rfl
  | reseqTimeout => exact onlyWrites_of_covers keeps_execReseqTimeout rfl
  | takeAny => exact onlyWrites_of_covers keeps_execTakeAny rfl
  | frerFunctionReset => exact onlyWrites_of_covers keeps_execFrerFunctionReset rfl
  | frerCfgWrite => exact onlyWrites_of_covers keeps_execFrerCfgWrite rfl
  | latentError => exact onlyWrites_of_covers keeps_execLatentError rfl
  | pathDown => exact onlyWrites_of_covers keeps_execPathDown rfl
  | ringDoorbell => exact onlyWrites_of_covers keeps_execRingDoorbell rfl
  | ringStart => exact onlyWrites_of_covers keeps_execRingStart rfl
  | ringStop => exact onlyWrites_of_covers keeps_execRingStop rfl
  | ringStopped => exact onlyWrites_of_covers keeps_execRingStopped rfl
  | ringReset => exact onlyWrites_of_covers keeps_execRingReset rfl
  | vectorRearm => exact onlyWrites_of_covers keeps_execVectorRearm rfl
  | irqModerationTimer => exact onlyWrites_of_covers keeps_execIrqModerationTimer rfl
  | msixUnmask => exact onlyWrites_of_covers keeps_execMsixUnmask rfl
  | cmdBadOpcode => exact onlyWrites_of_covers keeps_execCmdBadOpcode rfl
  | nop => exact onlyWrites_of_covers keeps_execNop rfl
  | tblRead => exact onlyWrites_of_covers keeps_execTblRead rfl
  | tblWrite => exact onlyWrites_of_covers keeps_execTblWrite rfl
  | fdbFlush => exact onlyWrites_of_covers keeps_execFdbFlush rfl
  | streamAdd => exact onlyWrites_of_covers keeps_execStreamAdd rfl
  | streamDelete => exact onlyWrites_of_covers keeps_execStreamDelete rfl
  | streamModify => exact onlyWrites_of_covers keeps_execStreamModify rfl
  | streamRead => exact onlyWrites_of_covers keeps_execStreamRead rfl
  | dpllFreq => exact onlyWrites_of_covers keeps_execDpllFreq rfl
  | dpllPhase => exact onlyWrites_of_covers keeps_execDpllPhase rfl
  | hostSample => exact onlyWrites_of_covers keeps_execHostSample rfl
  | profileApply => exact onlyWrites_of_covers keeps_execProfileApply rfl
  | profileTimedApply => exact onlyWrites_of_covers keeps_execProfileTimedApply rfl
  | profileWrite => exact onlyWrites_of_covers keeps_execProfileWrite rfl
  | profileRead => exact onlyWrites_of_covers keeps_execProfileRead rfl
  | fwDownload => exact onlyWrites_of_covers keeps_execFwDownload rfl
  | attest => exact onlyWrites_of_covers keeps_execAttest rfl
  | flashRead => exact onlyWrites_of_covers keeps_execFlashRead rfl
  | flashProgram => exact onlyWrites_of_covers keeps_execFlashProgram rfl
  | flashErase => exact onlyWrites_of_covers keeps_execFlashErase rfl
  | resetReq => exact onlyWrites_of_covers keeps_execResetReq rfl
  | cmdTimeout => exact onlyWrites_of_covers keeps_execCmdTimeout rfl
  | txFrameFetch => exact onlyWrites_of_covers keeps_execTxFrameFetch rfl
  | rxFrameDeliver => exact onlyWrites_of_covers keeps_execRxFrameDeliver rfl
  | rxStall => exact onlyWrites_of_covers keeps_execRxStall rfl
  | eventRecordWrite => exact onlyWrites_of_covers keeps_execEventRecordWrite rfl
  | dmaError => exact onlyWrites_of_covers keeps_execDmaError rfl
  | busMasterEnable => exact onlyWrites_of_covers keeps_execBusMasterEnable rfl
  | i2cWrite => exact onlyWrites_of_covers keeps_execI2cWrite rfl
  | i2cRead => exact onlyWrites_of_covers keeps_execI2cRead rfl
  | i2cTimeout => exact onlyWrites_of_covers keeps_execI2cTimeout rfl
  | pcieHot => exact onlyWrites_of_covers keeps_execPcieHot rfl
  | pcieLinkdown => exact onlyWrites_of_covers keeps_execPcieLinkdown rfl
  | pcieD3 => exact onlyWrites_of_covers keeps_execPcieD3 rfl
  | powerOn => exact onlyWrites_of_covers keeps_execPowerOn rfl
  | resetNAccept => exact onlyWrites_of_covers keeps_execResetNAccept rfl
  | resetNGlitch => exact onlyWrites_of_covers keeps_execResetNGlitch rfl
  | rstRequest => exact onlyWrites_of_covers keeps_execRstRequest rfl
  | srcMapWrite => exact onlyWrites_of_covers keeps_execSrcMapWrite rfl
  | resetStretchEnd => exact onlyWrites_of_covers keeps_execResetStretchEnd rfl
  | islandRelease => exact onlyWrites_of_covers keeps_execIslandRelease rfl
  | forcedRelease => exact onlyWrites_of_covers keeps_execForcedRelease rfl
  | oscillatorCheckEnd => exact onlyWrites_of_covers keeps_execOscillatorCheckEnd rfl
  | loadAttemptComplete => exact onlyWrites_of_covers keeps_execLoadAttemptComplete rfl
  | stepDeadline => exact onlyWrites_of_covers keeps_execStepDeadline rfl
  | selfTestComplete => exact onlyWrites_of_covers keeps_execSelfTestComplete rfl
  | profileResetApply => exact onlyWrites_of_covers keeps_execProfileResetApply rfl
  | profileWaitTimeout => exact onlyWrites_of_covers keeps_execProfileWaitTimeout rfl
  | bootRomStart => exact onlyWrites_of_covers keeps_execBootRomStart rfl
  | fwStepLate => exact onlyWrites_of_covers keeps_execFwStepLate rfl
  | servoRestart => exact onlyWrites_of_covers keeps_execServoRestart rfl
  | discardMgmt => exact onlyWrites_of_covers keeps_execDiscardMgmt rfl
  | discardServo => exact onlyWrites_of_covers keeps_execDiscardServo rfl
  | watchdogFeed => exact onlyWrites_of_covers keeps_execWatchdogFeed rfl
  | mgmtWatchdogExpiry => exact onlyWrites_of_covers keeps_execMgmtWatchdogExpiry rfl
  | servoWdog => exact onlyWrites_of_covers keeps_execServoWdog rfl
  | debugAttach => exact onlyWrites_of_covers keeps_execDebugAttach rfl
  | fwMeasurementPost => exact onlyWrites_of_covers keeps_execFwMeasurementPost rfl
  | spdmRequest => exact onlyWrites_of_covers keeps_execSpdmRequest rfl
  | scrubAccess => exact onlyWrites_of_covers keeps_execScrubAccess rfl
  | scrubLate => exact onlyWrites_of_covers keeps_execScrubLate rfl
  | eccLapRead => exact onlyWrites_of_covers keeps_execEccLapRead rfl
  | faultCollect => exact onlyWrites_of_covers keeps_execFaultCollect rfl
  | faultAck => exact onlyWrites_of_covers keeps_execFaultAck rfl
  | reactionTimerExpiry => exact onlyWrites_of_covers keeps_execReactionTimerExpiry rfl
  | aliveResume => exact onlyWrites_of_covers keeps_execAliveResume rfl
  | testModeWrite => exact onlyWrites_of_covers keeps_execTestModeWrite rfl
  | recoveryEnd => exact onlyWrites_of_covers keeps_execRecoveryEnd rfl
  | counterCfgWrite => exact onlyWrites_of_covers keeps_execCounterCfgWrite rfl
  | counterClear => exact onlyWrites_of_covers keeps_execCounterClear rfl
  | bwWindowEnd => exact onlyWrites_of_covers keeps_execBwWindowEnd rfl
  | bwPeakRead => exact onlyWrites_of_covers keeps_execBwPeakRead rfl
  | histDepthSample => exact onlyWrites_of_covers keeps_execHistDepthSample rfl
  | histClear => exact onlyWrites_of_covers keeps_execHistClear rfl
  | canaryMeasure => exact onlyWrites_of_covers keeps_execCanaryMeasure rfl
  | marginPlan => exact onlyWrites_of_covers keeps_execMarginPlan rfl
  | avsReadbackCheck => exact onlyWrites_of_covers keeps_execAvsReadbackCheck rfl
  | avsCodeWrite => exact onlyWrites_of_covers keeps_execAvsCodeWrite rfl
  | ageingLogShort => exact onlyWrites_of_covers keeps_execAgeingLogShort rfl
  | ageingLogLong => exact onlyWrites_of_covers keeps_execAgeingLogLong rfl
  | qualifyTimeExpiry => exact onlyWrites_of_covers keeps_execQualifyTimeExpiry rfl
  | txDriverAwake => exact onlyWrites_of_covers keeps_execTxDriverAwake rfl
  | quadCalibrationDone => exact onlyWrites_of_covers keeps_execQuadCalibrationDone rfl
  | insertionCopyAgeLimit => exact onlyWrites_of_covers keeps_execInsertionCopyAgeLimit rfl
  | coreCycleCount => exact onlyWrites_of_covers keeps_execCoreCycleCount rfl
  | pcieLinkUp => exact onlyWrites_of_covers keeps_execPcieLinkUp rfl
  | p65FrameSend => exact onlyWrites_of_covers keeps_execP65FrameSend rfl
  | jtagInstruction => exact onlyWrites_of_covers keeps_execJtagInstruction rfl

/-- The one meaning with an end of its own for each case: TIME runs or it does not. -/
theorem execLastIncrement_answers (s : State) : ∃ t, execLastIncrement s = .next t := by
  rw [execLastIncrement]
  by_cases h : timRuns (tdcTick s.begin) = true
  · exact ⟨_, if_pos h⟩
  · exact ⟨_, if_neg h⟩

/-- Settles O3: every other meaning is `ran` of one state. -/
theorem everyCommandAnswersANextState : Obligations.EveryCommandAnswersANextState := by
  unfold Obligations.EveryCommandAnswersANextState
  intro c s
  cases c
  case lastIncrement => exact execLastIncrement_answers s
  all_goals exact ⟨_, rfl⟩

/-! ### A command by its guard -/

/-- A meaning whose guard holds. -/
theorem ran_ite_pos {c : Prop} [Decidable c] {a b : State} (h : c) : ran (if c then a else b) = .next a := by
  rw [if_pos h, ran_eq]

/-- A meaning whose guard fails. -/
theorem ran_ite_neg {c : Prop} [Decidable c] {a b : State} (h : ¬ c) : ran (if c then a else b) = .next b := by
  rw [if_neg h, ran_eq]

/-! ### Crossings (R22, R24, R26) -/

section

variable {s : State} {src dst a b v : Nat} {l : List Nat}

theorem copyStart_xings : (copyStart dst s).xings = s.xings := rfl

theorem raiseFault_xings {f : Fld} {isl i d r : Nat} : (raiseFault f isl i d r s).xings = s.xings := raiseAt_xings

theorem setCross_up : setCross a b true s = { s with xings := smPut Xing.down s.xings (a * 32 + b) ⟨true, []⟩ } := by
  simp [setCross]

theorem setCross_xings {up : Bool} : (setCross a b up s).xings = smPut Xing.down s.xings (a * 32 + b) ⟨up, []⟩ := by
  unfold setCross whenS
  split <;> rfl

/-- A crossing on its way up holds no words, whatever it does to the copy of the Last. -/
theorem whenS_copyStart_setCross_xings {c : Bool} :
    (whenS c (copyStart dst) (setCross a b true s)).xings = smPut Xing.down s.xings (a * 32 + b) ⟨true, []⟩ := by
  cases c
  · exact setCross_xings
  · exact copyStart_xings.trans setCross_xings

theorem exec_crossingUp (hx : isCrossing s src dst = true) (ha : islUp s src = true) (hb : islUp s dst = true)
    (hd : crossUp s src dst = false) :
    exec (.crossingUp src dst) s = .next (whenS (src == islTIME) (copyStart dst) (setCross src dst true s.begin)) := by
  have hc : (isCrossing s src dst && islUp s src && islUp s dst && !crossUp s src dst) = true := by simp [hx, ha, hb, hd]
  exact ran_ite_pos hc

/-- Bringing a crossing up that carries no copy of the Last changes the crossings alone. -/
theorem onlyWrites_setCross_up : onlyWrites [.xings, .outs] s (setCross a b true s.begin) := by
  rw [setCross_up]
  exact onlyWrites_of_keeps (W := 4194336) (keeps_up_xings rfl (keeps_State_begin rfl keeps_refl)) rfl

theorem exec_crossingDeliver_down {word : Option Nat} (h : crossUp s src dst = false) :
    exec (.crossingDeliver src dst word) s = .next s.begin := by
  have h' : (smGet Xing.down s.xings (src * 32 + dst)).up = false := h
  show execCrossingDeliver src dst word s = _
  simp [execCrossingDeliver, h']

/-- The fault of a hang stands last in SAFE's queue and names both islands. -/
theorem crossHang_faults : (crossHang a b s).flt.faults.getLast? = some ⟨(faultBit 6).src, b, a, 0, a⟩ := by
  rw [crossHang, hangFault, raiseFault_faults, List.getLast?_concat]

theorem crossUp_crossHang : crossUp (crossHang a b s) a b = false := by
  rw [crossUp, crossHang, hangFault, raiseFault_xings, setCross_xings, smGet_smPut_same]

theorem exec_crossingHang (h : crossUp s src dst = true) (ha : islClkValid s src = true) (hb : islClkValid s dst = true) :
    exec (.crossingHang src dst) s = .next (crossHang src dst s.begin) := by
  have hc : (crossUp s src dst && islClkValid s src && islClkValid s dst) = true := by simp [h, ha, hb]
  exact ran_ite_pos hc

section

variable {bits depth : Nat}

theorem exec_crossingDeliver_word {w : Nat} (h : smGet Xing.down s.xings (src * 32 + dst) = ⟨true, l⟩)
    (hs : crossSize src dst = some (bits, depth)) :
    exec (.crossingDeliver src dst (some w)) s = .next (if l.length < depth then
      { s.begin with xings := smPut Xing.down s.xings (src * 32 + dst) ⟨true, l ++ [w % 2 ^ bits]⟩ } else s.begin) := by
  show execCrossingDeliver src dst (some w) s = _
  simp [execCrossingDeliver, h, hs]

theorem exec_crossingDeliver_none (h : smGet Xing.down s.xings (src * 32 + dst) = ⟨true, v :: l⟩)
    (hs : crossSize src dst = some (bits, depth)) :
    exec (.crossingDeliver src dst none) s = .next (emit (.crossed src dst v)
      { s.begin with xings := smPut Xing.down s.xings (src * 32 + dst) ⟨true, l⟩ }) := by
  show execCrossingDeliver src dst none s = _
  simp [execCrossingDeliver, h, hs]

end

end

/-- Settles O13: each command by the state of its crossing. -/
theorem crossingsCarryWordsOnlyWhileUp : Obligations.CrossingsCarryWordsOnlyWhileUp := by
  unfold Obligations.CrossingsCarryWordsOnlyWhileUp
  refine ⟨fun src dst s hsrc hdst hx ha hb hd => ?_, fun src dst w l bits depth s h hs hl => ?_,
    fun src dst w l bits depth s h hs hl => ?_, fun src dst v l bits depth s => exec_crossingDeliver_none,
    fun src dst word s => exec_crossingDeliver_down,
    fun src dst s h ha hb => ⟨_, exec_crossingHang h ha hb, rfl, crossUp_crossHang, crossHang_faults⟩⟩
  · have he := exec_crossingUp hx ha hb hd
    refine ⟨_, he, rfl, ?_, everyCommandWritesItsPartsOnly _ _ _ he, fun hn => ?_, fun a b ha hb hab => ?_⟩
    · rw [whenS_copyStart_setCross_xings, smGet_smPut_same]
    · rw [beq_false_of_ne hn, whenS_false]
      exact onlyWrites_setCross_up
    · have hk : a * 32 + b ≠ src * 32 + dst := fun e => hab (by rw [Prod.mk.injEq]; omega)
      rw [whenS_copyStart_setCross_xings, smGet_smPut_other _ _ _ _ _ _ hk, begin_xings]
  · rw [exec_crossingDeliver_word h hs, if_pos hl]
  · rw [exec_crossingDeliver_word h hs, if_neg (by omega)]

/-! ### Island clocks and the locks of the APLLs (R19, R44, R178, R187) -/

section

variable {s : State} {isl j us v b w : Nat}

theorem bitOf_eq_testBit : bitOf v b = v.testBit b := by
  rw [Nat.testBit_eq_decide_div_mod_eq]
  rfl

/-- A bit set in a field that has it reads 1. -/
theorem bitOf_putBit_true (hb : b < w) : bitOf (putBit v b true % 2 ^ w) b = true := by
  rw [bitOf_eq_testBit, Nat.testBit_mod_two_pow, decide_eq_true hb, Bool.true_and]
  simp only [putBit, bitOf_eq_testBit, if_true]
  split
  case isTrue h => rw [Nat.sub_add_cancel (Nat.ge_two_pow_of_testBit h), h]
  case isFalse h => rw [Nat.add_comm, Nat.testBit_two_pow_add_eq, Bool.eq_false_iff.mpr h, Bool.not_false]

theorem tickUs_regs : (tickUs us s).regs = s.regs := by
  unfold tickUs
  split <;> rfl

theorem tickUs_oscOk : (tickUs us s).sys.oscOk = s.sys.oscOk := by
  unfold tickUs
  split <;> rfl

theorem apllLocked_congr {t : State} (h : t.regs = s.regs) : apllLocked t j = apllLocked s j :=
  congrArg (bitOf · j) (getF_congr h)

theorem exec_islandClockLoss (h0 : isl ≠ 0) (hp : islPresent s isl = true) :
    exec (.islandClockLoss isl) s = .next (clockLoss isl s.begin) :=
  ran_ite_pos ⟨h0, hp⟩

theorem exec_islandClockReturn (h0 : isl ≠ 0) (hp : islPresent s isl = true)
    (hl : isl = islTIME ∨ isl = islTDC → apllLocked s 1 = true) :
    exec (.islandClockReturn isl) s = .next (clockReturn isl s.begin) := by
  have hc : (isl ≠ 0 && islPresent s isl && (!(isl == islTIME || isl == islTDC) || apllLocked s 1)) = true := by
    by_cases h : isl = islTIME ∨ isl = islTDC
    · simp [h0, hp, hl h]
    · simp [h0, hp, not_or.mp h]
  exact ran_ite_pos hc

/-- The clock of TIME comes back while TIME is released: the Last resumes. -/
theorem clockReturn_time (hv : islClkValid s islTIME = false) (hr : islReleased s islTIME = true) :
    clockReturn islTIME s = lastResumes (setIsl R.RST_ISL_CLKVALID_ISLAND islTIME true s) := by
  have hr' : islReleased (setIsl R.RST_ISL_CLKVALID_ISLAND islTIME true s) islTIME = true :=
    (congrArg (bitOf · islTIME) (getF_setF_ne (by decide))).trans hr
  rw [clockReturn, if_neg (by decide), if_neg (by simp [hv])]
  show whenS (true && islReleased (setIsl R.RST_ISL_CLKVALID_ISLAND islTIME true s) islTIME) lastResumes _ = _
  rw [hr', Bool.and_self, whenS_true]

theorem islClkValid_lastResumes_setIsl :
    islClkValid (lastResumes (setIsl R.RST_ISL_CLKVALID_ISLAND islTIME true s)) islTIME = true := by
  rw [islClkValid, lastResumes, getF_raise_ne (by decide), getF_with_tim, setIsl, getF_setF_same]
  exact bitOf_putBit_true (by decide)

theorem exec_apllLock (hj : j < 5) (hl : apllLocked s j = false) (ho : j = 0 → s.sys.oscOk = true) :
    ∃ u, exec (.apllLock j us) s = .next (if synUp u then locked j u else u) ∧
      u = whenS (j == 2) (setF R.TSU_GSTAT_OFFSET_LOCK 1) (whenS (j == 1) quadClks (whenS (j == 0) (milestone 3)
        (setF R.SYN_APLL_STAT_LOCK (putBit (getF s R.SYN_APLL_STAT_LOCK) j true) (tickUs us s.begin)))) := by
  have hr : (tickUs us s.begin).regs = s.regs := tickUs_regs
  have hc : ¬ (5 ≤ j ∨ apllLocked (tickUs us s.begin) j ∨ (j = 0 ∧ !(tickUs us s.begin).sys.oscOk)) := by
    rw [apllLocked_congr hr, hl, tickUs_oscOk]
    rintro (h | h | ⟨h, hosc⟩)
    · omega
    · cases h
    · simp [ho h] at hosc
  refine ⟨_, ?_, rfl⟩
  rw [← getF_congr hr]
  exact ran_ite_neg hc

/-- The event or the fault of an APLL that has lost its lock (R187). -/
def unlockEvent (j : Nat) (s : State) : State :=
  if j = 0 then raiseFault (R.SYN_EVENT_APLL_UNLOCK.up j) islSYN 0 0 islSYN s
  else if j = 1 then raiseFault (R.SYN_EVENT_APLL_UNLOCK.up j) islTIME 0 0 islSYN s
  else raise (R.SYN_EVENT_APLL_UNLOCK.up j) s

theorem unlockEvent_of_lt (hj : j < 3) : unlockEvent j s =
    if j = 0 then raiseFault R.SYN_EVENT_APLL_UNLOCK islSYN 0 0 islSYN s
    else if j = 1 then raiseFault (R.SYN_EVENT_APLL_UNLOCK.up 1) islTIME 0 0 islSYN s
    else raise (R.SYN_EVENT_APLL_UNLOCK.up 2) s := by
  match j, hj with
  | 0, _ => rfl
  | 1, _ => rfl
  | 2, _ => rfl

/-- What every loss of lock does before the clock of TIME goes with APLL1. -/
def unlocked (j : Nat) (s : State) : State :=
  whenS (j == 2) (fun s => (List.range 64).foldl (fun s n => if frontPresent s n then tallyInvalid n s else s)
      (setF R.TSU_GSTAT_OFFSET_LOCK 0 s))
    (outIds.foldl (fun s n => if squelched s j n then squelch n s else s)
      (unlockEvent j (setF R.SYN_APLL_STAT_LOCK (putBit (getF s R.SYN_APLL_STAT_LOCK) j false) s)))

theorem exec_apllUnlock (hj : j < 5) (hl : apllLocked s j = true) :
    exec (.apllUnlock j) s = .next (if j = 1 then clockLoss islTIME (quadClks (unlocked j s.begin)) else unlocked j s.begin) := by
  have hl' : apllLocked s.begin j = true := hl
  have hc : ¬ (5 ≤ j ∨ !apllLocked s.begin j) := by simp [hl', hj]
  show ran (if _ then _ else if j = 1 then clockLoss islTIME (quadClks (unlocked j s.begin)) else unlocked j s.begin) = _
  exact ran_ite_neg hc

end

/-- Settles O14: each command by its guard; the event of APLL2 is that of every APLL above APLL1. -/
theorem clockMonitorsAndApllsDriveClockValid : Obligations.ClockMonitorsAndApllsDriveClockValid := by
  unfold Obligations.ClockMonitorsAndApllsDriveClockValid
  refine ⟨fun isl s => exec_islandClockLoss, fun isl s => exec_islandClockReturn, fun s hp hl hv hr => ?_,
    fun j us s => exec_apllLock, fun j s hj hl => ?_, fun j s hj hl => ?_⟩
  · have he := exec_islandClockReturn (by decide) hp fun _ => hl
    rw [clockReturn_time (s := s.begin) hv hr] at he
    exact ⟨_, he, raise_tim, flag_raise_same (by decide), islClkValid_lastResumes_setIsl⟩
  · rw [exec_apllUnlock (by omega) hl]
    rcases hj with rfl | rfl <;> rfl
  · refine ⟨unlocked j s.begin, exec_apllUnlock (by omega) hl, ?_⟩
    rw [unlocked, unlockEvent_of_lt hj, getF_begin]

/-! ### The shared buffer (R25, R99, R290, R291, R297, R298, R303) -/

section

variable {s : State} {f o c l : Nat} {de : Bool} {x : Frame}

theorem admitFrame_of_head (hx : frameAt s f = some x) (hh : x.headDone = true) (ha : x.admitted = false) (ht : x.tfwd = false)
    (hi : x.ing.isSome = true) :
    admitFrame f s =
      if bufCross s x.port then txDecided x (admitted (bufAdmit f s) f) (bufAdmit f s) else loseHead f x s := by
  simp [admitFrame, hx, hh, ha, ht, hi]

theorem exec_bufAdmission (hu : islUp s islBUF = true) : exec (.bufAdmission f) s = .next (admitFrame f s.begin) :=
  ran_ite_pos hu

/-- The cells that the head of a frame is tested with: the frame's where its length is known, else the estimate (R290). -/
def headCells (g : IngRes) (s : State) : Nat := match g.known with | some n => cellsOf n | none => estCells s

/-- A frame without a function of RED: each destination is tested with the frame's cells (R290). -/
theorem bufAdmit_of_noFrer {g : IngRes} (hx : frameAt s f = some x) (hi : x.ing = some g) (hh : x.headDone = true)
    (ha : x.admitted = false) (ht : x.tfwd = false) (hf : x.frer = .none)
    (hl : l = headCells g s) :
    ∃ u, u = g.dests.foldl (fun s o => admitCopy f o l s) s ∧
      bufAdmit f s = if admitted u f then storeHead f (enqueueCopies f u) else refuseAll f u := by
  have hw : (FrerSt.none == FrerSt.waiting) = false := rfl
  refine ⟨_, rfl, ?_⟩
  subst hl
  simp [bufAdmit, hx, hi, hh, ha, ht, hf, hw] <;> rfl

/-- The two tests of R290, the first on the aggregate, the second on the pool. -/
theorem admitTest_eq : admitTest s o c de l =
    if minCells s o c + alphaF s o c de < aggregate s o c + l then some 0x11
    else if getF s (R.BUF_POOL_MAX_MAX.on (4 * getF s (clsF R.BUF_CLS_ADM_POOL c) o)) ≠ 0 ∧
        getF s (R.BUF_POOL_MAX_MAX.on (4 * getF s (clsF R.BUF_CLS_ADM_POOL c) o)) <
          poolUsed s (getF s (clsF R.BUF_CLS_ADM_POOL c) o) + l then some 0x12
    else none := rfl

theorem admitTest_none_iff : admitTest s o c de l = none ↔ aggregate s o c + l ≤ minCells s o c + alphaF s o c de ∧
    (getF s (R.BUF_POOL_MAX_MAX.on (4 * getF s (clsF R.BUF_CLS_ADM_POOL c) o)) = 0 ∨
      poolUsed s (getF s (clsF R.BUF_CLS_ADM_POOL c) o) + l ≤
        getF s (R.BUF_POOL_MAX_MAX.on (4 * getF s (clsF R.BUF_CLS_ADM_POOL c) o))) := by
  rw [admitTest_eq]
  split
  case isTrue h => exact ⟨fun e => (nomatch e), fun k => absurd k.1 (Nat.not_le.mpr h)⟩
  case isFalse h =>
    split
    case isTrue k => exact ⟨fun e => (nomatch e), fun ⟨_, hp⟩ => by omega⟩
    case isFalse k => exact ⟨fun _ => ⟨by omega, by omega⟩, fun _ => rfl⟩

theorem admitTest_share_iff :
    admitTest s o c de l = some 0x11 ↔ minCells s o c + alphaF s o c de < aggregate s o c + l := by
  rw [admitTest_eq]
  split
  case isTrue h => simp [h]
  case isFalse h => split <;> simp [h]

theorem exec_frameStoreComplete (hu : islUp s islBUF = true) :
    exec (.frameStoreComplete f) s = .next (storeComplete f s.begin) :=
  ran_ite_pos hu

theorem storeComplete_good (hx : frameAt s f = some x) (he : x.ended = true) (ha : x.admitted = true) (ht : x.needTail = false)
    (hb : x.bad = none) : storeComplete f s = setFrame f (some { x with stored := true }) (touchFrame f s) := by
  simp [storeComplete, hx, he, ha, ht, hb]

theorem storeComplete_bad {r : Nat} (hx : frameAt s f = some x) (he : x.ended = true) (ha : x.admitted = true)
    (ht : x.needTail = false) (hb : x.bad = some r) : storeComplete f s = reapFrame f (dropAll r f s) := by
  simp [storeComplete, hx, he, ha, ht, hb]

theorem exec_linkHoldExpiry (hu : islUp s islBUF = true) (hh : (holdOf s o).st = 1) (hd : (holdOf s o).deadline ≤ copyNow s islBUF) :
    exec (.linkHoldExpiry o) s = .next (touchOut o (holdExpire o (touchOut o s.begin))) := by
  have hc : (islUp s islBUF && (holdOf s o).st == 1 && decide ((holdOf s o).deadline ≤ copyNow s islBUF)) = true := by
    simp [hu, hh, hd]
  exact ran_ite_pos hc

theorem exec_insertionCopyAgeLimit {y : Copy} (hx : frameAt s f = some x) (hi : x.ins.isSome = true) (hy : y ∈ x.copies)
    (ho : y.out = o) (hl : y.st ≠ .leaving) (ha : y.enq + 1000 * unitS ≤ copyNow s islBUF) :
    exec (.insertionCopyAgeLimit f o) s = .next (dropCopy 0x17 f o s.begin) := by
  have hc : (x.ins.isSome && x.copies.any fun y => y.out == o && y.st ≠ .leaving &&
      decide (copyNow s.begin islBUF ≥ y.enq + 1000 * unitS)) = true := by
    rw [hi, Bool.true_and, List.any_eq_true]
    have ha' : y.enq + 1000 * unitS ≤ copyNow s.begin islBUF := ha
    exact ⟨y, hy, by simpa [ho, hl] using ha'⟩
  have hx' : frameAt s.begin f = some x := hx
  show execInsertionCopyAgeLimit f o s = _
  simp only [execInsertionCopyAgeLimit, hx', if_pos hc, ran_eq]

end

/-- Settles O38: each command by its guard, the tests by their two bounds. -/
theorem theBufferAdmitsStoresAndDiscards : Obligations.TheBufferAdmitsStoresAndDiscards := by
  unfold Obligations.TheBufferAdmitsStoresAndDiscards
  refine ⟨fun f x s hu hx hh ha ht hi => ?_, fun f l x g s => bufAdmit_of_noFrer, fun o c de l s => ⟨admitTest_none_iff, admitTest_share_iff⟩,
    fun f x s hu hx he ha ht => ?_, fun o s => exec_linkHoldExpiry,
    fun req val s h => congrArg Host.Outcome.next (writeAt_of_reaches (reaches_begin h)),
    fun f o x y s => exec_insertionCopyAgeLimit⟩
  · rw [exec_bufAdmission hu, admitFrame_of_head (s := s.begin) hx hh ha ht hi]
    exact ⟨fun hc => congrArg Host.Outcome.next (if_pos hc), fun hc => congrArg Host.Outcome.next (if_neg (Bool.eq_false_iff.mp hc))⟩
  · rw [exec_frameStoreComplete hu]
    exact ⟨fun hb => congrArg Host.Outcome.next (storeComplete_good (s := s.begin) hx he ha ht hb),
      fun r hb => congrArg Host.Outcome.next (storeComplete_bad (s := s.begin) hx he ha ht hb)⟩

/-! ### Egress (R35, R308, R309, R315, R320, R332, R333) -/

section

variable {s v : State} {o back : Nat} {u : Int} {t : Tx} {x : Frame} {y : Copy}

theorem exec_egressSelection {ts : Int} (hu : egrUp s = true) (hp : portPresent s o = true) (hj : jtagHolds s = false) :
    exec (.egressSelection o ts) s = .next (if (egrPort (cleanSel o (touchOut o s.begin)) o).sel.isSome
      then cleanSel o (touchOut o s.begin)
      else selectLoop o ts ((cleanSel o (touchOut o s.begin)).buf.frames.length + 1) (cleanSel o (touchOut o s.begin))) := by
  have hc : (egrUp s && portPresent s o && !jtagHolds s) = true := by simp [hu, hp, hj]
  exact ran_ite_pos hc

theorem exec_frameTxStart (hu : egrUp s = true) (hp : portPresent s o = true) (hx : outCross s o = true) (hi : txIdle s o = true)
    (hj : jtagHolds s = false) : exec (.frameTxStart o back u) s = .next (txStart o back u s.begin) := by
  have hc : (egrUp s && portPresent s o && outCross s o && txIdle s o && !jtagHolds s) = true := by simp [hu, hp, hx, hi, hj]
  exact ran_ite_pos hc

/-- With no preempted frame on the output the selected one starts afresh. -/
theorem txStart_fresh (hs : (egrPort (cleanSel o s) o).sel = some t) (hp : (egrPort (cleanSel o s) o).ptx = none) :
    txStart o back u s = startFresh o back u t (cleanSel o s) := by
  simp only [txStart, hs, hp]

/-- A good frame is read at its start; what could be read decides between its insertion and a refusal. -/
theorem startFresh_good (hx : frameAt v t.frame = some x) (hy : x.copies.find? (·.out == o) = some y) (hb : x.bad = none) :
    ∃ k, k = eccStart o t.frame x y (touchOut o (whenS (o < 64) (freeReload (quadOf o)) v)) ∧
      (k.1 = true → startFresh o back u t v =
        startBy o (txTime k.2 o back u) t x y (insFate k.2 o x (txTime k.2 o back u)) k.2) ∧
      (k.1 = false → startFresh o back u t v = refuseStart o 0x14 t k.2) := by
  refine ⟨_, rfl, fun hk => ?_, fun hk => ?_⟩ <;> simp only [startFresh, hx, hy, hb, hk] <;> rfl

theorem exec_frameTxEnd {pre : Bool} (hu : egrUp s = true)
    (ht : (if pre then (egrPort (cleanSel o s.begin) o).ptx else (egrPort (cleanSel o s.begin) o).tx) = some t)
    (hp : t.paused = false) (hx : frameAt (cleanSel o s.begin) t.frame = some x) (he : x.ended = true) :
    exec (.frameTxEnd o pre) s = .next (txEndOf o t (cleanSel o s.begin)) := by
  have hu' : egrUp s.begin = true := hu
  show execFrameTxEnd o pre s = _
  simp [execFrameTxEnd, hu', ht, hp, hx, he]

/-- Before an entry boundary acts, the event of one that came late applies (R35). -/
def lateSeen (o : Nat) (late : Option Int) (s : State) : State := late.elim s fun t => lateEvent o t (touchOut o s)

/-- At an entry boundary the preemptible frame in progress is preempted where its class is closed (R320). -/
def entryChanged (o : Nat) (s : State) : State :=
  (egrPort s o).ptx.elim s fun t => if gateOpen s o t.tc (now s) then s else preempt o (now s) s

theorem entryChanged_none (h : (egrPort s o).ptx = none) : entryChanged o s = s := by
  rw [entryChanged, h, Option.elim_none]

theorem entryChanged_some (h : (egrPort s o).ptx = some t) :
    entryChanged o s = if gateOpen s o t.tc (now s) then s else preempt o (now s) s := by
  rw [entryChanged, h, Option.elim_some]

theorem exec_gateEntryChange {late : Option Int} (hu : egrUp s = true) (hg : gateEna s o = true) :
    exec (.gateEntryChange o late) s = .next (entryChanged o (cleanSel o (touchOut o (lateSeen o late s.begin)))) := by
  have hc : (egrUp s.begin && gateEna s.begin o) = true := by
    show (egrUp s && gateEna s o) = true
    rw [hu, hg, Bool.and_self]
  show execGateEntryChange o late s = _
  unfold execGateEntryChange
  cases late with
  | none =>
    simp only [hc, if_true, ran_eq, lateSeen, Option.elim_none]
    obtain h | ⟨p, h⟩ := Option.eq_none_or_eq_some (egrPort (cleanSel o (touchOut o s.begin)) o).ptx
    · simp only [h, entryChanged_none h]
    · simp only [h, entryChanged_some h]
  | some a =>
    simp only [hc, if_true, ran_eq, lateSeen, Option.elim_some]
    obtain h | ⟨p, h⟩ := Option.eq_none_or_eq_some (egrPort (cleanSel o (touchOut o (lateEvent o a (touchOut o s.begin)))) o).ptx
    · simp only [h, entryChanged_none h]
    · simp only [h, entryChanged_some h]

theorem exec_macHoldStart (hu : egrUp s = true) (hh : holdAt s o (now s) = true) :
    exec (.macHoldStart o) s = .next (preempt o (now s) (cleanSel o s.begin)) := by
  have hc : (egrUp s && holdAt s o (now s)) = true := by simp [hu, hh]
  exact ran_ite_pos hc

theorem beginTx_sets {tt : Option Int} {ins : Option (Int × Int)} : ∃ v r,
    r = { t with charged := t.left, tTx := tt, insert := ins.isSome, ts := (ins.getD (0, 0)).1, add := (ins.getD (0, 0)).2
                 counted := (frameLen x).isSome } ∧
    beginTx o t x y tt ins s = setEgrPort o { egrPort v o with
      sel := none, tx := if t.pre then (egrPort v o).tx else some r, ptx := if t.pre then some r else (egrPort v o).ptx } v :=
  ⟨_, _, rfl, rfl⟩

end

section

variable {s v w : State} {o f : Nat} {t : Tx} {x : Frame} {y : Copy} {p : Copy → Bool}

/-- The output of a frame that has ended on it: nothing of its kind is in progress. -/
def freedPort (o : Nat) (t : Tx) (w : State) : EgrPort :=
  { egrPort w o with tx := if t.pre then (egrPort w o).tx else none, ptx := if t.pre then none else (egrPort w o).ptx
                     freeAt := now w }

/-- The tables after the last octet of a copy: it is gone, and the output is free. -/
def copyGone (o : Nat) (t : Tx) (w : State) : State :=
  reapFrame t.frame (removeCopies t.frame (·.out == o) (setEgrPort o (freedPort o t w) w))

/-- Taking a copy out of the tables writes BUF alone. -/
theorem keeps_copyRemoved : Keeps 8192 w (reapFrame f (removeCopies f p w)) :=
  keeps_reapFrame rfl (keeps_removeCopies rfl keeps_refl)

theorem copyGone_outs : (copyGone o t w).outs = w.outs := keeps_copyRemoved.same.outs rfl

theorem egrPort_copyGone : egrPort (copyGone o t w) o = freedPort o t w := by
  have he : (copyGone o t w).egr = (setEgrPort o (freedPort o t w) w).egr := keeps_copyRemoved.same.egr rfl
  rw [egrPort, he]
  exact smGet_smPut_same _ _ _ _

theorem bwAdd_outs {tx : Bool} {n : Nat} : (bwAdd tx o n w).outs = w.outs :=
  (keeps_bwAdd (W := 65536) rfl keeps_refl).same.outs rfl

/-- A frame that leaves on a front port is among the outputs. -/
theorem mem_outs_sent {a b : State} {n : Nat} {octets q : List Nat} {err : Bool} (ho : o < 64) :
    Output.frame o octets [] err ∈ (if o < 64 then
      bwAdd true o n (if o = 64 then a else emit (.frame o octets (if o = 65 then q else []) err) w) else b).outs := by
  have h64 : o ≠ 64 := by omega
  have h65 : o ≠ 65 := by omega
  rw [if_pos ho, bwAdd_outs, if_neg h64, if_neg h65, emit_outs]
  exact List.mem_append_right _ (List.mem_singleton.mpr rfl)

/-- At a front port the edited octets of the frame that leaves (R333) are put out before the copy goes. -/
theorem txEndOf_front (ho : o < 64) (hx : frameAt s t.frame = some x) (hy : x.copies.find? (·.out == o) = some y) :
    ∃ w, txEndOf o t s = copyGone o t w ∧ ∃ z v err, (z, v) = eccLeave t.frame x (touchOut o s) ∧
      .frame o (edited v z o y t.insert t.ts t.add).2 [] err ∈ w.outs := by
  unfold txEndOf
  simp only [hx, hy]
  generalize he : eccLeave t.frame x (touchOut o s) = e
  obtain ⟨z, v⟩ := e
  exact ⟨_, rfl, z, v, _, rfl, mem_outs_sent ho⟩

end

/-- Settles O39: each command by its guard; what a start and an end leave is read off the output's record. -/
theorem egressSelectsStartsAndEndsFrames : Obligations.EgressSelectsStartsAndEndsFrames := by
  unfold Obligations.EgressSelectsStartsAndEndsFrames
  refine ⟨fun o ts s hu hp hj => ⟨_, rfl, exec_egressSelection hu hp hj⟩, fun o back u s => exec_frameTxStart,
    fun o back u t x y s v hv hs hp hx hy hb => ?_, fun o t x y tt ins s => beginTx_sets,
    fun o pre t x s => exec_frameTxEnd, fun o t x y s ho hx hy => ?_, fun o late s hu hg => ?_, fun o s => exec_macHoldStart⟩
  · subst hv
    rw [txStart_fresh hs hp]
    exact startFresh_good hx hy hb
  · obtain ⟨w, he, z, v, err, hz, hm⟩ := txEndOf_front ho hx hy
    rw [he, copyGone_outs, egrPort_copyGone]
    exact ⟨⟨z, v, err, hz, hm⟩, fun hp => by simp [freedPort, hp], fun hp => by simp [freedPort, hp]⟩
  · refine ⟨cleanSel o (touchOut o (lateSeen o late s.begin)), ?_, ?_⟩
    · cases late with
      | none => rw [lateSeen, Option.elim_none]
      | some t => rw [lateSeen, Option.elim_some]
    rw [exec_gateEntryChange hu hg]
    obtain h | ⟨p, h⟩ := Option.eq_none_or_eq_some (egrPort (cleanSel o (touchOut o (lateSeen o late s.begin))) o).ptx
    · simp only [h, entryChanged_none h]
    · simp only [h, entryChanged_some h]

/-! ### The frames of the host and of the controller (R30, R365, R366, R372, R378) -/

section

variable {s u v : State} {r n : Nat} {d : TxDesc} {w : RxWait} {l : List Nat} {f : State → State}

theorem throughRing_read (h : slotIn r s = (true, v)) : throughRing r f s = f v := by
  have h' : eccRead 16 (ringWord s r) (fullWrite 16 (ringWord s r) s) = (true, v) := h
  simp [throughRing, h']

theorem throughRing_unread (h : slotIn r s = (false, v)) : throughRing r f s = dmaFail r 0 v := by
  have h' : eccRead 16 (ringWord s r) (fullWrite 16 (ringWord s r) s) = (false, v) := h
  simp [throughRing, h']

/-- What becomes of descriptor `d` of TX ring `r` in its turn, once it has passed the ring's buffer. -/
def txFetched (r : Nat) (d : TxDesc) (u : State) : State :=
  if txStatus u d ≠ 0 then completeSlot r [0, 0, 0] (txStatus u d * 65536 + d.tag % 65536) [] true u
  else addFrame
    { newFrame u 64 (sentFrame (d.octets.take d.len)) none with
      ended := true, host := some (r, d.tag % 65536, true), directed := d.directed.map fun x => (x.1, x.2 % 8) } u

/-- The turn passes to the ring after `r` (R378). -/
def turnPassed (r : Nat) (s : State) : State := { s with hif := { s.hif with txTurn := (r + 1) % 32 } }

theorem exec_txFrameFetch (ht : txNext s = some r) (hj : jtagHolds s = false) :
    exec (.txFrameFetch r d) s = .next (throughRing r (fun s => txFetched r d (turnPassed r s)) s.begin) := by
  have hc : (txNext s == some r && !jtagHolds s) = true := by simp [ht, hj]
  exact ran_ite_pos hc

theorem txStatus_bad_length (h : d.len = 0 ∨ 16379 < d.len) : txStatus s d = 4 := if_pos h

/-- A descriptor of a valid length has the status of its port (R365). -/
theorem txStatus_of_length (h1 : 1 ≤ d.len) (h2 : d.len ≤ 16379) : (d.directed = none → txStatus s d = 0) ∧
    ∀ p k, d.directed = some (p, k) →
      txStatus s d = if 64 ≤ p then 3 else if frontPresent s p then 0 else 1 := by
  have hn : ¬ (d.len = 0 ∨ d.len > 16379) := by omega
  exact ⟨fun hd => by simp only [txStatus, if_neg hn, hd], fun p k hd => by simp only [txStatus, if_neg hn, hd]⟩

theorem rxRing_begin {c : Nat} : rxRing s.begin c = rxRing s c := rfl

theorem slotReady_begin {k : Nat} : slotReady s.begin r k = slotReady s r k := rfl

theorem ring_begin : ring s.begin r = ring s r := rfl

/-- The oldest frame that waits for a ring with a free slot goes to its buffer, if the buffer has a length that R366 allows. -/
theorem exec_rxFrameDeliver (hw : s.hif.rxq.find? (fun w => rxRing s w.tc == r) = some w) (hr : slotReady s r 3 = true) :
    exec (.rxFrameDeliver r n) s = .next (if !bufLenOk n then ringError r 3 s.begin
      else throughRing r (fun t => completeSlot r (rxSlot w n).1 0 (rxSlot w n).2 true
        { t with hif := { t.hif with rxq := t.hif.rxq.eraseP fun w => rxRing s w.tc == r } }) s.begin) := by
  show execRxFrameDeliver r n s = _
  simp only [execRxFrameDeliver, begin_hif, rxRing_begin, slotReady_begin, hw]
  exact ran_ite_neg (by simp [hr])

theorem rxSlot_octets : (rxSlot w n).2 = (w.frame.octets.take (w.frame.octets.length - 4)).take n := rfl

theorem exec_rxStall {t : Int} (ht : (ring s r).fullSince = some t) (hu : hostUp s = true) (hk : ringKind s r = 3)
    (hs : ringState s r = 1) (hn : (ring s r).stalled = false)
    (hd : t + ((zeroAs 1 (getF s R.HIF_RING_TMO_TMO_MS r) : Nat) : Int) * unitMs ≤ copyNow s islHOST) :
    exec (.rxStall r) s =
      .next (raise R.HIF_RING_EVENT_RX_STALL (setRing r { ring s r with stalled := true } s.begin) r) := by
  have hc : (hostUp s && ringKind s r == 3 && ringState s r == 1 && !(ring s r).stalled &&
      decide (t + ((zeroAs 1 (getF s R.HIF_RING_TMO_TMO_MS r) : Nat) : Int) * unitMs ≤ copyNow s islHOST)) = true := by
    simp [hu, hk, hs, hn, hd]
  show execRxStall r s = _
  simp only [execRxStall, ring_begin, ht]
  exact ran_ite_pos hc

theorem exec_p65FrameSend (hu : islUp s islMCU = true) (hr : flag s R.FWT_STATUS_MGMT_RUN = true) (hl : l ≠ [])
    (hn : l.length ≤ 16379) (hj : jtagHolds s = false) :
    exec (.p65FrameSend l) s = .next (addFrame { newFrame s.begin 65 (sentFrame l) none with ended := true } s.begin) := by
  have hc : (islUp s islMCU && flag s R.FWT_STATUS_MGMT_RUN && !l.isEmpty && l.length ≤ 16379 && !jtagHolds s) = true := by
    simp [hu, hr, hl, hn, hj]
  exact ran_ite_pos hc

/-- A frame is padded to 60 octets and has its FCS of 4. -/
theorem sentFrame_length : (sentFrame l).length = max 60 l.length + 4 := by
  simp [sentFrame, fcsOf]
  omega

end

/-- Settles O49: the guards of the fetch and of the delivery, with the ring's buffer word read or not. -/
theorem hostAndControllerFramesEnterAndLeave : Obligations.HostAndControllerFramesEnterAndLeave := by
  unfold Obligations.HostAndControllerFramesEnterAndLeave
  refine ⟨fun r d s v u ht hj hv hu => ?_, fun d s => ⟨txStatus_bad_length, fun h1 h2 => ?_⟩, fun r d s v ht hj hv => ?_,
    fun r n w s hw hr => ?_, fun w n => ⟨rxSlot_octets, List.length_append⟩, fun r t s => exec_rxStall, fun l s => exec_p65FrameSend,
    fun l => ?_⟩
  · rw [exec_txFrameFetch ht hj, throughRing_read hv]
    have hu' : turnPassed r v = u := hu.symm
    rw [hu']
    exact ⟨fun h => congrArg Host.Outcome.next (if_neg (not_not_intro h)), fun h => congrArg Host.Outcome.next (if_pos h)⟩
  · obtain ⟨hnone, hsome⟩ := txStatus_of_length (s := s) h1 h2
    refine ⟨hnone, fun p k hd => ⟨fun hp => ?_, fun hp hf => ?_, fun hp hf => ?_⟩⟩ <;> rw [hsome p k hd]
    · rw [if_pos hp]
    · rw [if_neg (by omega), hf]
      rfl
    · rw [if_neg (by omega), if_pos hf]
  · rw [exec_txFrameFetch ht hj, throughRing_unread hv]
  · rw [exec_rxFrameDeliver hw hr]
    refine ⟨fun hb => ?_, fun v hb hv => ?_, fun v hb hv => ?_⟩
    · rw [if_pos (by rw [hb, Bool.not_false])]
    · rw [if_neg (by simp [hb]), throughRing_read hv]
    · rw [if_neg (by simp [hb]), throughRing_unread hv]
  · rw [sentFrame_length]
    omega

end Sys2Proof.Machine

/-! Proofs about the tallies and the frames of a port (spec/03 R76 to R104, spec/08 R245, R249) and about the messages of the
protocol engine (spec/04 R116 to R141). -/

namespace Sys2Proof.Machine

/-! ### The tally of a lane (R78, R80, R81, R89, R90, R104, R127) -/

section

variable {s t : State} {n phi p d : Nat} {u u0 : Int} {x : Tally}

/-- The change of a measured phase, wrapped to -1,024 to 1,023 (R78). -/
def phaseChange (s : State) (n phi : Nat) : Int := (((phi % 2048 : Nat) : Int) - getF s R.TSU_TALLY_PHI n + 1024) % 2048 - 1024

/-- The next measurement of the lane is valid: the second one with clock recovery, the offset lock and the receiver awake (R81). -/
def nextValid (s : State) (n : Nat) : Bool :=
  flag s R.LNK_LANE_STAT_CDR_LOCK n && flag s R.TSU_GSTAT_OFFSET_LOCK && !flag s R.LNK_LANE_CFG_RX_SLEEP n
    && decide (1 ≤ (tally s n).posted)

/-- The count of good measurements in a row once phase `phi` is measured, at most 4 (R80). -/
def nextGood (s : State) (n phi : Nat) : Nat :=
  if nextValid s n = true ∧ (phaseChange s n phi).natAbs ≤ getF s R.TSU_GCFG_TALLY_SLIP then min 4 ((tally s n).good + 1) else 0

theorem satN_eq_min {hi a : Nat} : satN hi a = min hi a := by
  unfold satN
  split <;> omega

theorem tally_setTally_same : tally (setTally n x s) n = x := smGet_smPut_same _ _ _ _

/-- What writes registers, the time scale's reports, the candidates and the events leaves the tallies (R147). -/
theorem tally_of_keeps (h : Keeps 450 (setTally n x s) t) : tally t n = x := by
  rw [tally, h.same.tallies rfl]
  exact tally_setTally_same

/-- With two measurements counted where the clocks are good, the count says that one came before. -/
theorem counted_two_iff {c : Bool} {k : Nat} :
    (c && decide ((if c = true then satN 2 (k + 1) else 0) ≥ 2)) = (c && decide (1 ≤ k)) := by
  cases c
  · rfl
  · simp only [Bool.true_and, if_true, satN_eq_min, decide_eq_decide]
    omega

/-- What a measurement leaves in the lane's tally. -/
theorem tally_tallyPost :
    (tally (tallyPost n phi u0 s) n).cur = some ⟨phi % 2048, phaseChange s n phi, u0,
      nextValid s n && decide (4 ≤ nextGood s n phi), nextValid s n⟩ ∧
    (tally (tallyPost n phi u0 s) n).prev = (tally s n).cur ∧ (tally (tallyPost n phi u0 s) n).good = nextGood s n phi := by
  have h : tally (tallyPost n phi u0 s) n = _ := tally_of_keeps (keeps_activityCheck rfl
    (keeps_whenS rfl (keeps_foldl
      (keeps_setFlag rfl (keeps_setFlag rfl (keeps_setF rfl (keeps_setF rfl (keeps_bump rfl keeps_refl)))))
      fun _ _ hk => keeps_ite (keeps_setCand rfl hk) hk) fun _ => keeps_raise rfl))
  rw [h]
  simp only [counted_two_iff]
  simp only [nextGood, nextValid, phaseChange, ge_iff_le, satN_eq_min, Bool.and_eq_true, decide_eq_true_eq, and_self]

/-- What follows a measurement, the rate ratio's y (R127) and the forcing of the port (R120), leaves the tallies. -/
theorem exec_tallyMeasurement (hl : laneUp s n = true) (hm : (laneM s n).isSome = true) :
    ∃ t, exec (.tallyMeasurement n phi u0) s = .next t ∧ t.tallies = (tallyPost n phi u0 s.begin).tallies := by
  have hc : (laneUp s n && (laneM s n).isSome) = true := by rw [hl, hm, Bool.and_self]
  exact ⟨_, ran_ite_pos hc, (keeps_forcePort (W := 4196802) rfl (keeps_ite (keeps_nrrTally rfl (keeps_ite (keeps_nrrTally rfl
    keeps_refl) keeps_refl)) (keeps_ite (keeps_nrrTally rfl keeps_refl) keeps_refl))).same.tallies rfl⟩

theorem exec_cdrLockAcquire (hl : laneUp s n = true) : exec (.cdrLockAcquire n) s =
    .next (setTally n { tally s n with posted := 0 } (setF R.LNK_LANE_STAT_CDR_LOCK 1 s.begin n)) :=
  ran_ite_pos hl

theorem exec_cdrLockLoss (hl : laneUp s n = true) :
    exec (.cdrLockLoss n) s = .next (tallyInvalid n (setF R.LNK_LANE_STAT_CDR_LOCK 0 s.begin n)) :=
  ran_ite_pos hl

theorem tally_tallyInvalid : tally (tallyInvalid n s) n = { tally s n with
    cur := none, prev := none, good := 0, posted := 0, sum := 0, n := 0, y := none, calOld := none
    invalidSince := if flag s R.TSU_TALLY_VALID n then now s else (tally s n).invalidSince } :=
  tally_of_keeps (keeps_activityCheck rfl (keeps_setF rfl (keeps_setF rfl keeps_refl)))

theorem exec_alignmentLock (hl : laneUp s p = true) (hp : isPort s p = true) :
    ∃ v, v = (if modeLanes (portMode s p) ≤ 1 then 0 else d) ∧
      exec (.alignmentLock p d) s = .next (setTally p { tally s p with dSeen := true }
        (setF R.TSU_DESKEW_VALID 1 (setF R.TSU_DESKEW_D v
          (whenS ((tally s p).dSeen && getF s R.TSU_DESKEW_D p ≠ v % 2 ^ R.TSU_DESKEW_D.w)
            (fun s => raise R.TSU_EVENT_DESKEW_CHANGED s p) s.begin) p) p)) := by
  have hc : (laneUp s p && isPort s p) = true := by rw [hl, hp, Bool.and_self]
  exact ⟨_, rfl, ran_ite_pos hc⟩

theorem exec_calConstantApply {edge : LaneEdge} (hl : laneUp s edge.lane = true) :
    exec (.calConstantApply edge) s = .next (calApply edge.lane edge.ui s.begin) :=
  ran_ite_pos hl

/-- A waiting constant comes into force; without one the field stays (R104). -/
def putConst (n : Nat) (f : Fld) (v : Option Nat) (s : State) : State := match v with | some v => setF f v s n | none => s

/-- The edge is noted at which waiting receive constants come into force, with the delay before it (R104). -/
def noteRxEdge (n : Nat) (u : Int) (s : State) : State :=
  if (calPend s n).calRx.isSome ∨ (calPend s n).asymRx.isSome then
    setTally n { tally s n with calU := u, calOld := some (laneDelay s n false) } s else s

theorem calApply_eq : calApply n u s = setCalPend n CalPend.reset (putConst n R.TSU_CAL_RX_DELAY (calPend s n).calRx
    (putConst n R.TSU_CAL_TX_DELAY (calPend s n).calTx (putConst n R.TSU_ASYM_RX_LATENCY (calPend s n).asymRx
      (putConst n R.TSU_ASYM_TX_LATENCY (calPend s n).asymTx (noteRxEdge n u s))))) := rfl

theorem getF_putConst_same {f : Fld} {o : Option Nat} :
    getF (putConst n f o s) f n = o.elim (getF s f n) fun v => v % 2 ^ f.w := by
  cases o
  · rfl
  · exact getF_setF_same

theorem getF_putConst_place {f g : Fld} {o : Option Nat} (h : g.st = f.st ∧ g.off * 32 + g.lo ≠ f.off * 32 + f.lo) :
    getF (putConst n f o s) g n = getF s g n := by
  cases o
  · rfl
  · exact getF_setF_place h

theorem putConst_tallies {f : Fld} {o : Option Nat} : (putConst n f o s).tallies = s.tallies := by
  cases o <;> rfl

theorem getF_noteRxEdge {f : Fld} : getF (noteRxEdge n u s) f n = getF s f n := by
  unfold noteRxEdge
  split <;> rfl

theorem tally_noteRxEdge (h : (calPend s n).calRx ≠ none) :
    tally (noteRxEdge n u s) n = { tally s n with calU := u, calOld := some (laneDelay s n false) } := by
  rw [noteRxEdge, if_pos (.inl (Option.isSome_iff_ne_none.mpr h)), tally_setTally_same]

/-- The constants of the edge before wait no more. -/
theorem calPend_calApply : calPend (calApply n u s) n = CalPend.reset := by
  rw [calApply_eq, calPend, setCalPend, smGet_smPut_same]

theorem getF_calApply_rx : getF (calApply n u s) R.TSU_CAL_RX_DELAY n =
    (calPend s n).calRx.elim (getF s R.TSU_CAL_RX_DELAY n) fun v => v % 2 ^ R.TSU_CAL_RX_DELAY.w := by
  rw [calApply_eq, setCalPend, getF_with_calPends, getF_putConst_same, getF_putConst_place (by decide),
    getF_putConst_place (by decide), getF_putConst_place (by decide), getF_noteRxEdge]

theorem getF_calApply_tx : getF (calApply n u s) R.TSU_CAL_TX_DELAY n =
    (calPend s n).calTx.elim (getF s R.TSU_CAL_TX_DELAY n) fun v => v % 2 ^ R.TSU_CAL_TX_DELAY.w := by
  rw [calApply_eq, setCalPend, getF_with_calPends, getF_putConst_place (by decide), getF_putConst_same,
    getF_putConst_place (by decide), getF_putConst_place (by decide), getF_noteRxEdge]

theorem tally_calApply : tally (calApply n u s) n = tally (noteRxEdge n u s) n := by
  rw [calApply_eq]
  show smGet _ (putConst _ _ _ _).tallies n = _
  rw [putConst_tallies, putConst_tallies, putConst_tallies, putConst_tallies, tally]

end

/-- Settles O34: a command by its guard, a measurement and an edge by what they leave of the lane's records. -/
theorem talliesCountTheirMeasurements : Obligations.TalliesCountTheirMeasurements := by
  unfold Obligations.TalliesCountTheirMeasurements
  refine ⟨fun n phi u0 s hl hm => ?_, fun n s => exec_cdrLockAcquire, fun n s => exec_cdrLockLoss, fun n s => tally_tallyInvalid,
    fun p d s => exec_alignmentLock, fun edge s => exec_calConstantApply, fun n u s => ⟨calPend_calApply, fun v hv => ?_,
    fun hv => ?_, fun v hv => ?_, fun hv => ?_, fun hv => ?_⟩⟩
  · obtain ⟨t, he, ht⟩ := exec_tallyMeasurement (phi := phi) (u0 := u0) hl hm
    refine ⟨t, _, _, _, he, rfl, rfl, rfl, ?_⟩
    have hn : tally t n = tally (tallyPost n phi u0 s.begin) n := congrArg (smGet Tally.reset · n) ht
    rw [hn]
    exact tally_tallyPost (s := s.begin)
  · rw [getF_calApply_rx, hv, Option.elim_some]
  · rw [getF_calApply_rx, hv, Option.elim_none]
  · rw [getF_calApply_tx, hv, Option.elim_some]
  · rw [getF_calApply_tx, hv, Option.elim_none]
  · rw [tally_calApply, tally_noteRxEdge hv]
    exact ⟨rfl, rfl⟩

/-! ### The start and the end of a received frame (R76, R245, R249, R286, R301) -/

section

variable {s : State} {p age f : Nat} {pre early e : Bool} {o rest : List Nat} {u : Int} {x : Frame}

/-- In UP and RX_ONLY a frame enters (R245). -/
theorem exec_frameReceive_enters (hl : laneUp s p = true) (hp : isPort s p = true) (ha : aligned s p = true)
    (hj : jtagHolds s = false) (h : portState s p = 5 ∨ portState s p = 7) :
    exec (.frameReceive p pre o u age early) s = .next (frameStart p pre o u age early s.begin) := by
  have hc : (laneUp s p && isPort s p && aligned s p && !jtagHolds s) = true := by simp [hl, hp, ha, hj]
  have hs : getF s R.LNK_PORT_STAT_STATE p = 5 ∨ getF s R.LNK_PORT_STAT_STATE p = 7 := h
  refine (ran_ite_pos hc).trans ?_
  rcases hs with hs | hs <;> simp only [getF_begin, hs]

/-- In LOOP a frame is only counted (R249). -/
theorem exec_frameReceive_loop (hl : laneUp s p = true) (hp : isPort s p = true) (ha : aligned s p = true)
    (hj : jtagHolds s = false) (h : portState s p = 8) :
    exec (.frameReceive p pre o u age early) s = .next (bump R.LNK_CNT_LOOP_RX_COUNT s.begin p) := by
  have hc : (laneUp s p && isPort s p && aligned s p && !jtagHolds s) = true := by simp [hl, hp, ha, hj]
  refine (ran_ite_pos hc).trans ?_
  simp only [getF_begin, show getF s R.LNK_PORT_STAT_STATE p = 8 from h]

theorem exec_frameEndReceive : exec (.frameEndReceive f rest e) s = .next (endFrame f rest e s.begin) := rfl

/-- The levels of the classes of a frame without copies have nothing to follow. -/
theorem touchFrame_of_no_copies (hx : frameAt s f = some x) (hc : x.copies = []) : touchFrame f s = s := by
  simp only [touchFrame, hx, hc, List.foldl_nil]

theorem endFrame_of_ended (hx : frameAt s f = some x) (he : x.ended = true) : endFrame f rest e s = s := by
  simp only [endFrame, hx, he, if_true]

/-- A frame without copies ends whole: its octets count on its port, and nothing strikes it. -/
theorem endFrame_good (hx : frameAt s f = some x) (he : x.ended = false) (hp : x.port < 64) (hc : x.copies = [])
    (ha : x.admitted = false) (hn : (x.octets ++ rest).length ≤ 16383) (hg : fcsCheck (x.octets ++ rest) = 0) :
    endFrame f rest false s = reapFrame f (bwAdd false x.port (x.octets ++ rest).length (monEvent 2 x.port none 0
      (x.octets ++ rest).length (setFrame f (some { x with octets := x.octets ++ rest, ended := true }) s))) := by
  have hw : (x.octets ++ rest).take maxFrame = x.octets ++ rest := List.take_of_length_le hn
  have hm : ¬ maxFrame < x.octets.length + rest.length := by rwa [← List.length_append, Nat.not_lt]
  simp [endFrame, hx, he, hp, hc, ha, hw, hm, hg, touchFrame_of_no_copies hx hc, chargeCopies]

end

/-- Settles O35: the port's state decides on a start, and a good end passes every test of the MAC. -/
theorem framesEnterAndEnd : Obligations.FramesEnterAndEnd := by
  unfold Obligations.FramesEnterAndEnd
  exact ⟨fun p age pre early o u s hl hp ha hj => ⟨exec_frameReceive_enters hl hp ha hj, exec_frameReceive_loop hl hp ha hj⟩,
    fun f rest e s => exec_frameEndReceive, fun f rest x s => endFrame_good, fun f rest x s => endFrame_of_ended⟩

/-! ### Messages of the protocol engine that go out (R76, R93, R99, R116, R117, R121, R122, R125, R133) -/

section

variable {s t v w : State} {i a p port back : Nat} {uIns d : Int} {tmpl : Option (List Nat)} {dest : Option Nat}

/-- A MASTER that is on sends Sync, Follow_Up and Announce, but not before the Last is valid where its domain has the
grandmaster here (R116, R121). -/
theorem speaks_of_master (ho : pteOn s i = true) (hm : pteState s i = 6) (hg : gmSilent s i = false) :
    (pteOn s i && pteState s i == 6 && !gmSilent s i) = true := by
  simp [ho, hm, hg]

theorem exec_syncTransmit_multicast (ho : pteOn s i = true) (hm : pteState s i = 6) (hg : gmSilent s i = false)
    (hu : flag s R.PTE_PORT_CFG_UNICAST i = false)
    (hs : schedAfter (logSync s i) (instPort i) (pteInst s i).lastSync ≤ now s) :
    exec (.syncTransmit i none) s =
      .next (sendSync i none (applyInterval i (setPteInst i { pteInst s i with lastSync := now s } s.begin))) := by
  have hd : (!flag s R.PTE_PORT_CFG_UNICAST i &&
      decide (schedAfter (logSync s i) (instPort i) (pteInst s i).lastSync ≤ now s)) = true := by
    simp [hu, hs]
  exact (ran_ite_pos (speaks_of_master ho hm hg)).trans (congrArg Host.Outcome.next (if_pos hd))

theorem exec_syncTransmit_unicast (ho : pteOn s i = true) (hm : pteState s i = 6) (hg : gmSilent s i = false)
    (hd : unicastDue (partnerRead i a p s.begin) i a p 0 = true) (ht : useGrant i a p 0 (partnerRead i a p s.begin) = some t) :
    exec (.syncTransmit i (some (a, p))) s = .next (sendSync i (some a) t) := by
  refine (ran_ite_pos (speaks_of_master ho hm hg)).trans (congrArg Host.Outcome.next ((if_pos hd).trans ?_))
  simp only [ht]

/-- The firmware's template is all that changes before an Announce. -/
theorem setTemplate_eq : ∃ l, setTemplate i tmpl s = { s with pte := { s.pte with templates := l } } := by
  cases tmpl
  · exact ⟨_, rfl⟩
  · exact ⟨_, rfl⟩

/-- A new template leaves what decides whether a MASTER may speak. -/
theorem speaks_of_master_setTemplate (ho : pteOn s i = true) (hm : pteState s i = 6) (hg : gmSilent s i = false) :
    (pteOn (setTemplate i tmpl s.begin) i && pteState (setTemplate i tmpl s.begin) i == 6
      && !gmSilent (setTemplate i tmpl s.begin) i) = true := by
  obtain ⟨l, hl⟩ := setTemplate_eq (s := s.begin) (i := i) (tmpl := tmpl)
  rw [hl]
  exact speaks_of_master ho hm hg

theorem now_setTemplate : now (setTemplate i tmpl s.begin) = now s := by
  obtain ⟨l, hl⟩ := setTemplate_eq (s := s.begin) (i := i) (tmpl := tmpl)
  rw [hl]
  rfl

theorem exec_announceTransmit_multicast (ho : pteOn s i = true) (hm : pteState s i = 6) (hg : gmSilent s i = false)
    (hs : schedAfter (logAnn s i) (instPort i) (pteInst s i).lastAnn ≤ now s) :
    exec (.announceTransmit i ⟨none, tmpl⟩) s = .next (sendAnnounce i none (applyInterval i
      (setPteInst i { pteInst (setTemplate i tmpl s.begin) i with lastAnn := now s } (setTemplate i tmpl s.begin)))) := by
  rw [← now_setTemplate (i := i) (tmpl := tmpl)]
  refine (ran_ite_pos (speaks_of_master_setTemplate ho hm hg)).trans (congrArg Host.Outcome.next (if_pos ?_))
  obtain ⟨l, hl⟩ := setTemplate_eq (s := s.begin) (i := i) (tmpl := tmpl)
  rw [hl]
  exact decide_eq_true hs

theorem exec_announceTransmit_unicast (ho : pteOn s i = true) (hm : pteState s i = 6) (hg : gmSilent s i = false)
    (hd : unicastDue (partnerRead i a p (setTemplate i tmpl s.begin)) i a p 11 = true)
    (ht : useGrant i a p 11 (partnerRead i a p (setTemplate i tmpl s.begin)) = some t) :
    exec (.announceTransmit i ⟨some (a, p), tmpl⟩) s = .next (sendAnnounce i (some a) t) := by
  refine (ran_ite_pos (speaks_of_master_setTemplate ho hm hg)).trans (congrArg Host.Outcome.next ((if_pos hd).trans ?_))
  simp only [ht]

theorem exec_pdelayReqTransmit (ho : pdOn s i = true) (hs : schedAfter (logPd s i) (instPort i) (pteInst s i).lastPd ≤ now s) :
    ∃ u, u = applyInterval i (setPteInst i { pteInst s i with lastPd := now s } s.begin) ∧
      exec (.pdelayReqTransmit i) s = .next (queueTx ⟨i, ptpMsg u i 2 (pteInst u i).seqPd, false, none, none⟩
        (setPteInst i { pteInst u i with seqPd := ((pteInst u i).seqPd + 1) % 65536
                                         pd := some ⟨(pteInst u i).seqPd, none, 0, none⟩ } u)) := by
  have hc : (pdOn s i && decide (schedAfter (logPd s i) (instPort i) (pteInst s i).lastPd ≤ now s)) = true := by simp [ho, hs]
  exact ⟨_, rfl, ran_ite_pos hc⟩

/-- A ninth Delay_Req drops the oldest that waits (R125). -/
theorem exec_delayReqTransmit (ht : (pteInst s i).dueDelay = some d) (hd : d ≤ now s) (ho : pteOn s i = true)
    (hs : isSlave s i = true) (hp : isP2P s i = false) :
    ∃ u v x, u = drawDelay i (applyInterval i s.begin) ∧ x = pteInst u i ∧
      v = (if x.wait.length ≥ 8 then pteDrop i u else u) ∧
      exec (.delayReqTransmit i) s = .next (queueTx ⟨i, ptpMsg v i 1 x.seqDelay, false, none, none⟩
        (setPteInst i { x with wait := (if x.wait.length ≥ 8 then x.wait.drop 1 else x.wait)
                                 ++ [⟨x.seqDelay, none, 0, now v + min (4 * logUnits (logDelay v i)) unitS⟩]
                               seqDelay := (x.seqDelay + 1) % 65536 } v)) := by
  have hc : (pteOn s.begin i && isSlave s.begin i && !isP2P s.begin i && decide (d ≤ now s.begin)) = true := by
    show (pteOn s i && isSlave s i && !isP2P s i && decide (d ≤ now s)) = true
    simp [hd, ho, hs, hp]
  have ht' : (pteInst s.begin i).dueDelay = some d := ht
  refine ⟨_, _, _, rfl, rfl, rfl, ?_⟩
  show execDelayReqTransmit i s = _
  simp only [execDelayReqTransmit, ht', hc, if_true, ran_eq]
  by_cases h : (pteInst (drawDelay i (applyInterval i s.begin)) i).wait.length ≥ 8
  · simp only [h, decide_true, if_true, whenS_true]
    rfl
  · simp only [h, decide_false, if_false, Bool.false_eq_true, whenS_false]
    rfl

/-- The oldest message `x` of a port is taken from the queue (R93). -/
def txTaken (port : Nat) (x : PtpTx) (s : State) : State :=
  freeReload (quadOf port) { s.begin with pte := { s.pte with txq := s.pte.txq.erase x } }

/-- Its time is formed and kept (R93, R117). -/
def txTimed (port back : Nat) (uIns : Int) (x : PtpTx) (s : State) : State :=
  keepTx x (txTime (txTaken port x s) port back uIns) (formTx port (txTime (txTaken port x s) port back uIns) (txTaken port x s))

section

variable {x : PtpTx} {tx : TxTime} {r : Bool × Int × Int}

theorem exec_txTimeReturn (hx : (s.pte.txq.find? fun x => instPort x.inst == port) = some x) :
    exec (.txTimeReturn port back uIns) s = .next (if !txTsOn (txTaken port x s) port then
        sendPtp x.inst x.msg x.dest (bump R.TSU_CNT_NOINS_COUNT (txTaken port x s) port)
      else if flag (txTimed port back uIns x s) R.TSU_CTL_ONESTEP_ENA port then
        sendInserted x (txTime (txTaken port x s) port back uIns) (txTimed port back uIns x s)
      else sendPtp x.inst x.msg x.dest (bump R.TSU_CNT_NOINS_COUNT (txTimed port back uIns x s) port)) := by
  have hx' : (s.begin.pte.txq.find? fun x => instPort x.inst == port) = some x := hx
  show execTxTimeReturn port back uIns s = _
  simp only [execTxTimeReturn, hx']
  rfl

/-- Without transmit times the message goes out as it is (R76). -/
theorem exec_txTimeReturn_untimed (hx : (s.pte.txq.find? fun x => instPort x.inst == port) = some x)
    (ho : txTsOn (txTaken port x s) port = false) : exec (.txTimeReturn port back uIns) s =
      .next (sendPtp x.inst x.msg x.dest (bump R.TSU_CNT_NOINS_COUNT (txTaken port x s) port)) := by
  rw [exec_txTimeReturn hx, if_pos (by rw [ho, Bool.not_false])]

theorem exec_txTimeReturn_timed (hx : (s.pte.txq.find? fun x => instPort x.inst == port) = some x)
    (ho : txTsOn (txTaken port x s) port = true) : exec (.txTimeReturn port back uIns) s =
      .next (if flag (txTimed port back uIns x s) R.TSU_CTL_ONESTEP_ENA port then
        sendInserted x (txTime (txTaken port x s) port back uIns) (txTimed port back uIns x s)
      else sendPtp x.inst x.msg x.dest (bump R.TSU_CNT_NOINS_COUNT (txTimed port back uIns x s) port)) := by
  rw [exec_txTimeReturn hx, if_neg (by simp [ho])]

theorem sendInserted_some (h : insertion s x tx = some r) :
    ∃ l, sendInserted x tx s = emit (.ptp x.inst (inserted x.msg r) l) (bump R.TSU_CNT_INS_COUNT s (instPort x.inst)) := by
  simp only [sendInserted, h]
  exact ⟨_, rfl⟩

theorem sendInserted_none (h : insertion s x tx = none) : ∃ u,
    sendInserted x tx s = raise R.TSU_EVENT_RESIDENCE_SPAN_STEP (bump R.TSU_CNT_NOINS_COUNT u (instPort x.inst)) (instPort x.inst) ∧
    u = sumpCount 0x19 (instPort x.inst) (some (instPort x.inst, getF s R.PTE_GCFG_PTP_TC)) s := by
  simp only [sendInserted, h]
  exact ⟨_, rfl, rfl⟩

end

theorem exec_followUpTransmit {m : PtpMsg} (hx : (s.pte.fups.find? fun x => x.1 == i) = some (i, m, dest))
    (hs : (pteOn s i = true ∧ m.kind = 8 ∧ gmSilent s i = false ∧ pteState s i = 6) ∨ (pdOn s i = true ∧ m.kind = 10)) :
    exec (.followUpTransmit i) s =
      .next (sendPtp i m dest { s.begin with pte := { s.pte with fups := s.pte.fups.erase (i, m, dest) } }) := by
  have hc : ((pteOn s i && m.kind == 8 && !gmSilent s i && pteState s i == 6) || (pdOn s i && m.kind == 10)) = true := by
    rcases hs with ⟨ho, hk, hg, hm⟩ | ⟨ho, hk⟩
    · simp [ho, hk, hg, hm]
    · simp [ho, hk]
  have hx' : (s.begin.pte.fups.find? fun x => x.1 == i) = some (i, m, dest) := hx
  show execFollowUpTransmit i s = _
  simp only [execFollowUpTransmit, hx']
  exact ran_ite_pos hc

end

/-- Settles O21: each command by its guard, its grant or its queue. -/
theorem ptpMessagesAreSentAtTheirInstants : Obligations.PtpMessagesAreSentAtTheirInstants := by
  unfold Obligations.PtpMessagesAreSentAtTheirInstants
  exact ⟨fun i s => exec_syncTransmit_multicast, fun i a p s t => exec_syncTransmit_unicast,
    fun i tmpl s => exec_announceTransmit_multicast, fun i a p tmpl s t => exec_announceTransmit_unicast,
    fun i s => exec_pdelayReqTransmit, fun i d s => exec_delayReqTransmit,
    fun port back uIns x s hx => ⟨exec_txTimeReturn_untimed hx,
    fun ho hf => (exec_txTimeReturn_timed hx ho).trans (congrArg Host.Outcome.next (if_pos hf)),
    fun ho hf => (exec_txTimeReturn_timed hx ho).trans (congrArg Host.Outcome.next (if_neg (Bool.eq_false_iff.mp hf)))⟩,
    fun x tx s => ⟨fun v => sendInserted_some, sendInserted_none⟩, fun i m dest s => exec_followUpTransmit⟩

/-! ### Messages of the protocol engine that come in (R81, R116, R123 to R126, R129, R133, R137, R141) -/

section

variable {s u v : State} {f i : Nat} {x : Frame} {m : PtpMsg} {r : RxRec} {w : SyncWait} {q : PdReq} {t1 t2 t4 c : Int}

/-! A frame that the engine takes leaves the tables; that has no part in what decides about its message. -/

theorem engineFrame_begin : engineFrame s.begin f = engineFrame s f := rfl
theorem pteOn_taken : pteOn (setFrame f none s.begin) i = pteOn s i := rfl
theorem pdOn_taken : pdOn (setFrame f none s.begin) i = pdOn s i := rfl
theorem isSlave_taken : isSlave (setFrame f none s.begin) i = isSlave s i := rfl
theorem pteState_taken : pteState (setFrame f none s.begin) i = pteState s i := rfl
theorem pteInst_taken : pteInst (setFrame f none s.begin) i = pteInst s i := rfl
theorem portIdent_taken : portIdent (setFrame f none s.begin) i = portIdent s i := rfl

/-- The engine takes frames with TIME up only. -/
theorem timUp_of_engineFrame (h : engineFrame s f = some (x, i, m)) : timUp s = true := by
  unfold engineFrame at h
  split at h
  · split at h
    · split at h
      · rename_i hc
        simp only [Bool.and_eq_true] at hc
        exact hc.2
      · cases h
    · cases h
  · cases h

/-- A one-step Sync of a slave is accepted with its rate, where it carries one (R129, R134). -/
theorem exec_syncReceive_oneStep (he : engineFrame s f = some (x, i, m)) (hk : m.kind = 0) (ho : pteOn s i = true)
    (hs : isSlave s i = true) (hr : usableRx x = some r) (h2 : m.twoStep = false)
    (hu : u = m.rate.elim (pteRx i (setFrame f none s.begin)) fun v =>
      setPteInst i { pteInst (pteRx i (setFrame f none s.begin)) i with rho := v } (pteRx i (setFrame f none s.begin))) :
    exec (.syncReceive f) s = .next (acceptSync i m.ts r.t16 m.cf r.lastInvalid r.epoch u) := by
  subst hu
  show execSyncReceive f s = _
  simp only [execSyncReceive, engineFrame_begin, he, hk, pteOn_taken, isSlave_taken, ho, hs, hr, h2]
  cases m.rate <;> rfl

/-- A two-step Sync waits for its Follow_Up (R129). -/
theorem exec_syncReceive_twoStep (he : engineFrame s f = some (x, i, m)) (hk : m.kind = 0) (ho : pteOn s i = true)
    (hs : isSlave s i = true) (hr : usableRx x = some r) (h2 : m.twoStep = true) (hu : u = pteRx i (setFrame f none s.begin)) :
    exec (.syncReceive f) s =
      .next (setPteInst i { pteInst u i with two := some ⟨m.seq, m.src, r.t16, m.cf, r.lastInvalid, r.epoch⟩ } u) := by
  subst hu
  show execSyncReceive f s = _
  simp only [execSyncReceive, engineFrame_begin, he, hk, pteOn_taken, isSlave_taken, ho, hs, hr, h2]
  rfl

/-- The Follow_Up of the Sync that waits completes it (R116). -/
theorem exec_followUpReceive_matched (he : engineFrame s f = some (x, i, m)) (hk : m.kind = 8) (ho : pteOn s i = true)
    (hs : isSlave s i = true) (hw : (pteInst s i).two = some w) (hq : w.seq = m.seq) (hp : w.src = m.src)
    (hu : u = m.rate.elim (setFrame f none s.begin) fun v =>
      setPteInst i { pteInst s i with rho := v } (setFrame f none s.begin)) :
    exec (.followUpReceive f) s = .next (acceptSync i m.ts w.t2 (w.cs + m.cf) w.lastInvalid w.epoch u) := by
  subst hu
  show execFollowUpReceive f s = _
  simp only [execFollowUpReceive, engineFrame_begin, he, hk, pteOn_taken, isSlave_taken, pteInst_taken, ho, hs, hw, hq, hp]
  cases m.rate <;> rfl

theorem exec_followUpReceive_other (he : engineFrame s f = none) (ht : timUp s = true) :
    exec (.followUpReceive f) s = .next (tForward f s.begin) := by
  have ht' : timUp s.begin = true := ht
  show execFollowUpReceive f s = _
  simp only [execFollowUpReceive, engineFrame_begin, he, ht', if_true, ran_eq]

theorem exec_delayReqReceive_answer (he : engineFrame s f = some (x, i, m)) (hk : m.kind = 1) (ho : pteOn s i = true)
    (hm : pteState s i = 6) (hr : usableRx x = some r)
    (hu : u = partnerRead i (senderAddr x) m.src (pteRx i (setFrame f none s.begin)))
    (hg : useGrant i (senderAddr x) m.src 9 u = some v ∨
      (useGrant i (senderAddr x) m.src 9 u = none ∧ takeToken i u = (true, v) ∧
        (flag u R.PTE_PORT_CFG_UNICAST i = false ∨
          (u.pte.partners.any fun p =>
            p.inst == i && p.addr == senderAddr x && p.pid == m.src && p.grants.any (·.mtype == 9)) = true))) :
    exec (.delayReqReceive f) s = .next (sendPtp i { ptpMsg v i 9 m.seq with
        ts := wholeNs (r.t16 + domOff v (instB i) r.t16)
        cf := cfAdd m.cf (-(fracNs (r.t16 + domOff v (instB i) r.t16)))
        req := m.src } (if flag v R.PTE_PORT_CFG_UNICAST i then some (senderAddr x) else none) v) := by
  subst hu
  show execDelayReqReceive f s = _
  simp only [execDelayReqReceive, engineFrame_begin, he, hk, pteOn_taken, pteState_taken, ho, hm, hr]
  rcases hg with hg | ⟨hg, ht, hf | hf⟩
  · simp only [hg]
    rfl
  · simp only [hg, ht, hf]
    rfl
  · simp only [hg, ht, hf, Bool.not_true, Bool.and_false]
    rfl

theorem exec_delayRespReceive_closes {w : DReq} (he : engineFrame s f = some (x, i, m)) (hk : m.kind = 9) (ho : pteOn s i = true)
    (hs : isSlave s i = true) (hp : m.req = portIdent s i)
    (hw : ((pteInst s i).wait.find? fun w => w.seq == m.seq && w.t3.isSome && decide (now s ≤ w.limit)) = some w) :
    exec (.delayRespReceive f) s = .next (delayExchange i w m.ts m.cf
      (setPteInst i { pteInst s i with wait := (pteInst s i).wait.erase w } (setFrame f none s.begin))) := by
  have hc : (!(pteOn s i && isSlave s i && m.req == portIdent s i)) = false := by simp [ho, hs, hp]
  have hw' : ((pteInst (setFrame f none s.begin) i).wait.find? fun w =>
    w.seq == m.seq && w.t3.isSome && decide (now (setFrame f none s.begin) ≤ w.limit)) = some w := hw
  show execDelayRespReceive f s = _
  simp only [execDelayRespReceive, engineFrame_begin, he, hk, pteOn_taken, isSlave_taken, portIdent_taken, hc, hw']
  rfl

theorem exec_pdelayReqReceive_answer {a : PtpMsg} (he : engineFrame s f = some (x, i, m)) (hk : m.kind = 2) (ho : pdOn s i = true)
    (hr : usableRx x = some r) (hu : u = partnerRead i (senderAddr x) m.src (pteRx i (setFrame f none s.begin)))
    (hg : useGrant i (senderAddr x) m.src 3 u = some v ∨
      (useGrant i (senderAddr x) m.src 3 u = none ∧ takeToken i u = (true, v)))
    (ha : a = (if flag v R.PTE_PORT_CFG_PDELAY_2STEP i then
          { ptpMsg v i 3 m.seq with req := m.src, twoStep := true, ts := wholeNs (r.t16 + domOff v (instB i) r.t16),
                                    cf := -(fracNs (r.t16 + domOff v (instB i) r.t16)) }
        else { ptpMsg v i 3 m.seq with req := m.src, twoStep := false, cf := m.cf })) :
    exec (.pdelayReqReceive f) s =
      .next (queueTx ⟨i, a, flag v R.PTE_PORT_CFG_PDELAY_2STEP i, some (r.t16, x.stepCount), none⟩ v) := by
  subst hu ha
  show execPdelayReqReceive f s = _
  simp only [execPdelayReqReceive, engineFrame_begin, he, hk, pdOn_taken, ho, hr]
  rcases hg with hg | ⟨hg, ht⟩
  · simp only [hg]
    cases flag v R.PTE_PORT_CFG_PDELAY_2STEP i <;> rfl
  · simp only [hg, ht]
    cases flag v R.PTE_PORT_CFG_PDELAY_2STEP i <;> rfl

/-- A Pdelay_Resp for this port, with its times, decides by the steps between them and by its form (R126). -/
theorem exec_pdelayRespReceive_response (he : engineFrame s f = some (x, i, m)) (hk : m.kind = 3) (ho : pdOn s i = true)
    (hp : m.req = portIdent s i) (hq : (pteInst s i).pd = some q) (ht : q.t1 = some t1) (hr : usableRx x = some r)
    (hs : q.seq = m.seq) (hu : u = pteRx i (setFrame f none s.begin)) :
    exec (.pdelayRespReceive f) s = .next (if r.epoch ≠ q.epoch then
        raise R.PTE_PORT_EVENT_EXCHANGE_SPAN_STEP (setPteInst i { pteInst u i with pd := none } u) i
      else if m.twoStep then setPteInst i { pteInst u i with pd := some { q with resp := some (r.t16, m.ts, m.cf) } } u
      else linkDelay i t1 r.t16 m.cf (nrrTally i (setPteInst i { pteInst u i with pd := none } u))) := by
  subst hu
  have hc : (!(pdOn s i && m.req == portIdent s i)) = false := by simp [ho, hp]
  show execPdelayRespReceive f s = _
  simp only [execPdelayRespReceive, engineFrame_begin, he, hk, pdOn_taken, portIdent_taken, pteInst_taken, hc, hq, hr, ht, hs,
    ne_eq, not_true_eq_false, if_false]
  rfl

/-- The Follow_Up of a two-step response closes the exchange (R126, R127). -/
theorem exec_pdelayRespReceive_followUp (he : engineFrame s f = some (x, i, m)) (hk : m.kind = 10) (ho : pdOn s i = true)
    (hp : m.req = portIdent s i) (hq : (pteInst s i).pd = some q) (ht : q.t1 = some t1) (hr : q.resp = some (t4, t2, c))
    (hs : q.seq = m.seq) (hu : u = setPteInst i { pteInst s i with pd := none } (setFrame f none s.begin)) :
    exec (.pdelayRespReceive f) s = .next (linkDelay i t1 t4 (m.ts - t2)
      (if flag s R.PTE_PORT_CFG_NRR_SRC i then nrrTally i u else nrrTwoStep i m.ts t4 u)) := by
  subst hu
  have hc : (!(pdOn s i && m.req == portIdent s i)) = false := by simp [ho, hp]
  show execPdelayRespReceive f s = _
  simp only [execPdelayRespReceive, engineFrame_begin, he, hk, pdOn_taken, portIdent_taken, pteInst_taken, hc, hq, hr, ht, hs,
    ne_eq, not_true_eq_false, if_false]
  rfl

theorem zeroAs_one {k : Nat} : zeroAs 1 k = max 1 k := by
  unfold zeroAs
  split <;> omega

/-- The bucket of the management firmware: what is left to fill decides (R141). -/
theorem fwToken_eq {left : Int}
    (hl : left = max 0 (s.pte.fwSpent - (max 1 (getF s R.PTE_FW_RATE_RATE) : Nat) * (now s - s.pte.fwAt))) :
    fwToken s = if left + unitS ≤ (max 1 (getF s R.PTE_FW_RATE_BURST) : Nat) * unitS then
        (true, { s with pte := { s.pte with fwAt := now s, fwSpent := left + unitS } })
      else (false, { s with pte := { s.pte with fwAt := now s, fwSpent := left } }) := by
  have hm (a : Int) : (if a < 0 then 0 else a) = max 0 a := by omega
  by_cases h : left + unitS ≤ (max 1 (getF s R.PTE_FW_RATE_BURST) : Nat) * unitS
  · simp only [fwToken, zeroAs_one, hm, ← hl, if_pos h, decide_eq_true h, if_true]
  · simp only [fwToken, zeroAs_one, hm, ← hl, if_neg h, decide_eq_false h, Bool.false_eq_true, if_false]

theorem exec_generalMessageReceive {left : Int} (he : engineFrame s f = some (x, i, m)) (hk : 11 ≤ m.kind)
    (hf : flag s R.PTE_GCFG_ENA = true) (hm : mapEna s (instB i) = true)
    (ht : transparent s (instB i) = true ∨ 4 ≤ pteState s i)
    (hl : left = max 0 (s.pte.fwSpent - (max 1 (getF s R.PTE_FW_RATE_RATE) : Nat) * (now s - s.pte.fwAt))) :
    exec (.generalMessageReceive f) s = .next (if left + unitS ≤ (max 1 (getF s R.PTE_FW_RATE_BURST) : Nat) * unitS then
      emit (.frame 65 x.octets (p65Record x) false)
        { setFrame f none s.begin with pte := { s.pte with fwAt := now s, fwSpent := left + unitS } }
    else pteDrop i { setFrame f none s.begin with pte := { s.pte with fwAt := now s, fwSpent := left } }) := by
  have hk' : ¬ m.kind < 11 := Nat.not_lt.mpr hk
  have hon : (!(timUp (setFrame f none s.begin) && flag (setFrame f none s.begin) R.PTE_GCFG_ENA
      && mapEna (setFrame f none s.begin) (instB i))) = false := by
    show (!(timUp s && flag s R.PTE_GCFG_ENA && mapEna s (instB i))) = false
    simp [timUp_of_engineFrame he, hf, hm]
  have hst : (!transparent (setFrame f none s.begin) (instB i) && decide (pteState (setFrame f none s.begin) i < 4)) = false := by
    show (!transparent s (instB i) && decide (pteState s i < 4)) = false
    rcases ht with ht | ht
    · simp [ht]
    · simp [Nat.not_lt.mpr ht]
  have hb := fwToken_eq (s := setFrame f none s.begin) hl
  show execGeneralMessageReceive f s = _
  simp only [execGeneralMessageReceive, engineFrame_begin, he, hk', hon, hst, hb, if_false, Bool.false_eq_true]
  by_cases h : left + unitS ≤ (max 1 (getF s R.PTE_FW_RATE_BURST) : Nat) * unitS
  · have h' : left + unitS ≤ (max 1 (getF (setFrame f none s.begin) R.PTE_FW_RATE_BURST) : Nat) * unitS := h
    simp only [if_pos h, if_pos h']
    rfl
  · have h' : ¬ left + unitS ≤ (max 1 (getF (setFrame f none s.begin) R.PTE_FW_RATE_BURST) : Nat) * unitS := h
    simp only [if_neg h, if_neg h']
    rfl

theorem exec_transparentForward (ht : timUp s = true) : exec (.transparentForward f) s = .next (tForward f s.begin) :=
  ran_ite_pos ht

end

/-- Settles O22: each command on a frame that the engine takes, by what decides about its message. -/
theorem ptpReceivesAreTakenByTheirInstances : Obligations.PtpReceivesAreTakenByTheirInstances := by
  unfold Obligations.PtpReceivesAreTakenByTheirInstances
  refine ⟨fun f i x m r s he hk ho hs hr h2 u hu => exec_syncReceive_oneStep he hk ho hs hr h2 ?_,
    fun f i x m r s he hk ho hs hr h2 u => exec_syncReceive_twoStep he hk ho hs hr h2,
    fun f i x m w s he hk ho hs hw hq hp u hu => exec_followUpReceive_matched he hk ho hs hw hq hp ?_,
    fun f s => exec_followUpReceive_other, fun f i x m r u v s => exec_delayReqReceive_answer,
    fun f i x m w s => exec_delayRespReceive_closes, fun f i x m r u v a s => exec_pdelayReqReceive_answer,
    fun f i x m r q t1 s he hk ho hp hq ht hr hs hn h2 u hu => ?_, fun f i x m r q t1 s he hk ho hp hq ht hr hs hn h2 u hu => ?_,
    fun f i x m r q t1 s he hk ho hp hq ht hr hs hn u hu => ?_,
    fun f i x m q t4 t2 c t1 s he hk ho hp hq ht hr hs u => exec_pdelayRespReceive_followUp he hk ho hp hq ht hr hs,
    fun f i x m left s => exec_generalMessageReceive, fun f s => exec_transparentForward⟩
  · rw [hu]
    cases m.rate <;> rfl
  · rw [hu]
    cases m.rate <;> rfl
  · rw [exec_pdelayRespReceive_response he hk ho hp hq ht hr hs hu, if_neg (not_not_intro hn), if_neg (Bool.eq_false_iff.mp h2)]
  · rw [exec_pdelayRespReceive_response he hk ho hp hq ht hr hs hu, if_neg (not_not_intro hn), if_pos h2]
  · rw [exec_pdelayRespReceive_response he hk ho hp hq ht hr hs hu, if_pos hn]

end Sys2Proof.Machine

/-! Proofs about the configuration, the timeouts and the unicast grants of the protocol engine (spec/04 R110, R118 to R125, R131,
R136, R138 to R140). -/

namespace Sys2Proof.Machine

/-! ### Writes of an instance and the limits of the engine (R110, R118 to R120, R124, R125, R131, R138) -/

section

variable {s : State} {req : Requester} {w : PortStateSet} {val i p : Nat}

theorem exec_intervalWrite (h : reaches req 0x60108 i s) :
    exec (.intervalWrite req val) s = .next (setPteInst i { pteInst s i with pend := some (val % 2 ^ 32) } s.begin) :=
  congrArg ran (writeAt_of_reaches (reaches_begin h))

theorem exec_portStateWrite (h : reaches req 0x60104 i s) :
    exec (.portStateWrite req w) s = .next (writePortState w.val i (reportL1 req w.l1 i s.begin)) :=
  congrArg ran (writeAt_of_reaches (reaches_begin h))

theorem exec_portEnableWrite (h : reaches req 0x60100 i s) :
    exec (.portEnableWrite req val) s = .next (writePtePortCfg val i s.begin) :=
  congrArg ran (writeAt_of_reaches (reaches_begin h))

/-- A code outside 1 to 9, a disabled instance or a forced one: nothing moves (R118, R120). -/
theorem writePortState_ignored (h : bitsOf val 0 4 = 0 ∨ 9 < bitsOf val 0 4 ∨ flag s R.PTE_PORT_CFG_ENA i = false ∨
    getF s R.PTE_PORT_STATE_FORCE_REASON i ≠ 0) : writePortState val i s = raise R.PTE_PORT_EVENT_STATE_WRITE_IGNORED s i :=
  if_pos (by rwa [Bool.not_eq_true'])

theorem writePortState_moves (h0 : bitsOf val 0 4 ≠ 0) (h9 : bitsOf val 0 4 ≤ 9) (he : flag s R.PTE_PORT_CFG_ENA i = true)
    (hf : getF s R.PTE_PORT_STATE_FORCE_REASON i = 0) : writePortState val i s = movePteState i (bitsOf val 0 4) s :=
  if_neg (by simp [h0, h9, he, hf])

theorem exec_tallyInvalidTimeout (hv : flag s R.TSU_TALLY_VALID p = false)
    (ht : (tally s p).invalidSince + 100 * unitMs < now s) :
    exec (.tallyInvalidTimeout p) s = .next (forcePort p (setTally p { tally s p with bad := true } s.begin)) := by
  have hc : (!flag s R.TSU_TALLY_VALID p && decide (now s > (tally s p).invalidSince + 100 * unitMs)) = true := by
    rw [hv, decide_eq_true ht]
    rfl
  exact ran_ite_pos hc

theorem exec_syncTimeout (hs : isSlave s i = true) (hl : (pteInst s i).syncLost = false)
    (ht : (pteInst s i).syncAt + (max 1 (getF s R.PTE_TIMEOUT_SYNC_RCPT i) : Nat) * logUnits (logSync s i) ≤ now s) :
    exec (.syncTimeout i) s =
      .next (raise R.PTE_PORT_EVENT_SYNC_TIMEOUT (setPteInst i { pteInst s i with syncLost := true } s.begin) i) := by
  rw [← zeroAs_one] at ht
  have hc : (isSlave s i && !(pteInst s i).syncLost && decide (now s ≥ (pteInst s i).syncAt +
      (zeroAs 1 (getF s R.PTE_TIMEOUT_SYNC_RCPT i) : Int) * logUnits (logSync s i))) = true := by
    rw [hs, hl, decide_eq_true ht]
    rfl
  exact ran_ite_pos hc

/-- Each message dropped counts, modulo the counter's width. -/
theorem getF_foldl_pteDrop {α : Type} {l : List α} (hl : l ≠ []) :
    getF (l.foldl (fun t _ => pteDrop i t) s) R.PTE_CNT_DROP_COUNT i =
      (getF s R.PTE_CNT_DROP_COUNT i + l.length) % 2 ^ R.PTE_CNT_DROP_COUNT.w := by
  induction l generalizing s with
  | nil => exact absurd rfl hl
  | cons a l ih =>
    have h1 : getF (pteDrop i s) R.PTE_CNT_DROP_COUNT i = (getF s R.PTE_CNT_DROP_COUNT i + 1) % 2 ^ R.PTE_CNT_DROP_COUNT.w :=
      getF_bump_same
    by_cases hn : l = []
    · rw [hn]
      exact h1
    · rw [List.foldl_cons, ih hn, h1, Nat.mod_add_mod, List.length_cons, Nat.add_assoc, Nat.add_comm 1]

end

/-- Settles O20: a write by its gate, a state code by the test of R118, a limit by its instant, the drops by induction. -/
theorem ptpConfigurationIsWrittenAndItsLimitsExpire : Obligations.PtpConfigurationIsWrittenAndItsLimitsExpire := by
  unfold Obligations.PtpConfigurationIsWrittenAndItsLimitsExpire
  exact ⟨fun req val i s => exec_intervalWrite, fun req w i s => exec_portStateWrite,
    fun val i s => ⟨writePortState_ignored, writePortState_moves⟩, fun req val i s => exec_portEnableWrite,
    fun p s => exec_tallyInvalidTimeout, fun i s => exec_syncTimeout, fun i s => ⟨rfl, getF_foldl_pteDrop⟩, fun s => rfl⟩

/-! ### Unicast grants (R136, R139, R140) -/

section

variable {s : State} {i addr pid m dur w bank word : Nat} {log : Int} {ue scrub : Bool} {g : Grant} {ps : List Partner}
  {q : Partner → Grant → Bool}

theorem exec_unicastRequest (hr : flag s R.FWT_STATUS_MGMT_RUN = true) (hi : i < 128) (hp : instPresent s 6 i = true) :
    exec (.unicastRequest i addr pid m log dur) s = .next (unicastRequest i addr pid m log dur s.begin) := by
  have hc : (flag s R.FWT_STATUS_MGMT_RUN && decide (i < 128) && instPresent s 6 i) = true := by
    rw [hr, decide_eq_true hi, hp]
    rfl
  exact ran_ite_pos hc

theorem exec_unicastCancel (hr : flag s R.FWT_STATUS_MGMT_RUN = true) :
    exec (.unicastCancel i addr pid m) s = .next (emit (.cancel i addr pid m true)
      (dropGrants (fun p g => p.inst == i && p.addr == addr && p.pid == pid && g.mtype == m) (settle i s.begin))) :=
  ran_ite_pos hr

/-! #### The entries that stay (R140) -/

theorem dropGrants_partners_length_le : (dropGrants q s).pte.partners.length ≤ s.pte.partners.length :=
  Nat.le_trans (List.length_filter_le _ _) (Nat.le_of_eq (List.length_map _))

theorem grants_ne_nil_of_mem_dropGrants : ∀ p ∈ (dropGrants q s).pte.partners, p.grants ≠ [] := by
  intro p hp
  have hf : (!p.grants.isEmpty) = true := (List.mem_filter.mp hp).2
  simpa using hf

theorem getF_partners_dropGrants : getF (dropGrants q s) R.PTE_GSTAT_PARTNERS =
    (dropGrants q s).pte.partners.length % 2 ^ R.PTE_GSTAT_PARTNERS.w := getF_setF_same

/-! #### A grant that is given (R139) -/

/-- The entry is that of the partner at `addr` with the port identity `pid`, for instance `i`. -/
def Partner.isOf (i addr pid : Nat) (p : Partner) : Bool := p.inst == i && p.addr == addr && p.pid == pid

/-- The partner table with `g` in its partner's entry, in the place of an earlier grant of its type (R139). -/
def putGrant (i addr pid : Nat) (g : Grant) (ps : List Partner) : List Partner :=
  if ps.any (Partner.isOf i addr pid) then
    ps.map fun p => if p.isOf i addr pid then { p with grants := p.grants.filter (·.mtype != g.mtype) ++ [g] } else p
  else ps ++ [⟨freePlace (ps.map (·.slot)), i, addr, pid, [g]⟩]

theorem exists_mem_putGrant : ∃ p ∈ putGrant i addr pid g ps, p.isOf i addr pid = true ∧ g ∈ p.grants := by
  unfold putGrant
  split
  case isTrue h =>
    obtain ⟨p, hp, hk⟩ := List.any_eq_true.mp h
    refine ⟨_, List.mem_map_of_mem hp, ?_⟩
    rw [if_pos hk]
    exact ⟨hk, List.mem_append_right _ (List.mem_singleton_self g)⟩
  case isFalse h =>
    refine ⟨_, List.mem_append_right _ (List.mem_singleton_self _), ?_, List.mem_singleton_self g⟩
    simp [Partner.isOf]

theorem ite_setF_pte {c : Prop} [Decidable c] {f : Fld} {v : Nat} : (if c then setF f v s i else s).pte = s.pte := by
  split <;> rfl

/-- A grant that is given is entered and answered, with the limited duration. -/
theorem giveGrant_enters : ∃ t, giveGrant i addr pid m log dur s = emit (.grant i addr pid m log (min dur (maxDuration s))) t ∧
    t.pte.partners = putGrant i addr pid
      ⟨m, log, now s + min dur (maxDuration s) * unitS, s.pte.grantNo, none⟩ s.pte.partners :=
  ⟨_, rfl, congrArg (·.partners) ite_setF_pte⟩

/-- A given grant stands in the table with its interval and its expiry. -/
theorem giveGrant_stands : ∃ t, giveGrant i addr pid m log dur s = emit (.grant i addr pid m log (min dur (maxDuration s))) t ∧
    t.pte.partners.any (fun p => p.inst == i && p.addr == addr && p.pid == pid &&
      p.grants.any fun g => g.mtype == m && g.log == log && g.expiry == now s + min dur (maxDuration s) * unitS) = true := by
  obtain ⟨t, ht, hps⟩ := giveGrant_enters (s := s) (i := i) (addr := addr) (pid := pid) (m := m) (log := log) (dur := dur)
  obtain ⟨p, hp, hk, hg⟩ := exists_mem_putGrant (i := i) (addr := addr) (pid := pid)
    (g := ⟨m, log, now s + min dur (maxDuration s) * unitS, s.pte.grantNo, none⟩) (ps := s.pte.partners)
  have ha : (p.grants.any fun g => g.mtype == m && g.log == log && g.expiry == now s + min dur (maxDuration s) * unitS) = true :=
    List.any_eq_true.mpr ⟨_, hg, by simp⟩
  exact ⟨t, ht, List.any_eq_true.mpr ⟨p, hps ▸ hp, Bool.and_eq_true_iff.mpr ⟨hk, ha⟩⟩⟩

/-! #### A request that is denied (R139) -/

/-- Only Sync, Delay_Resp, Pdelay_Resp and Announce are ever granted. -/
theorem grantRange_eq_none_iff : grantRange s i m = none ↔ m ≠ 0 ∧ m ≠ 9 ∧ m ≠ 3 ∧ m ≠ 11 := by
  unfold grantRange
  dsimp only
  by_cases h0 : m = 0
  · rw [if_pos h0]
    exact ⟨nofun, fun h => absurd h0 h.1⟩
  · rw [if_neg h0]
    by_cases h93 : m = 9 ∨ m = 3
    · rw [if_pos h93]
      exact ⟨nofun, fun ⟨_, h9, h3, _⟩ => absurd h93 (not_or.mpr ⟨h9, h3⟩)⟩
    · obtain ⟨h9, h3⟩ := not_or.mp h93
      rw [if_neg h93]
      by_cases h11 : m = 11
      · rw [if_pos h11]
        exact ⟨nofun, fun ⟨_, _, _, h⟩ => absurd h11 h⟩
      · rw [if_neg h11]
        exact ⟨fun _ => ⟨h0, h9, h3, h11⟩, fun _ => rfl⟩

/-! Reading a partner's entry touches the memory's reports and the count of partners, and no configuration. -/

theorem getF_uniEna_latchAddr : getF (latchAddr 14 ue scrub bank word s) R.PTE_UNI_CFG_ENA = getF s R.PTE_UNI_CFG_ENA := by
  unfold latchAddr
  split
  · rfl
  · rw [getF_setF_ne (by decide), getF_setF_ne (by decide), getF_setF_ne (by decide), getF_setFlag_ne (by decide),
      getF_setFlag_ne (by decide)]

theorem getF_uniEna_correctedRead :
    getF (correctedRead 14 bank word scrub s) R.PTE_UNI_CFG_ENA = getF s R.PTE_UNI_CFG_ENA := by
  unfold correctedRead
  dsimp only
  split
  · rw [getF_setF_ne (by decide), getF_bump_ne (by decide), getF_uniEna_latchAddr]
  · rw [getF_raiseAt_ne (by decide), getF_with_sys, getF_setF_ne (by decide), getF_bump_ne (by decide), getF_uniEna_latchAddr]

theorem getF_raiseFault_ne {f h : Fld} {isl inst d r k : Nat} (hk : h.key k ≠ f.key 0) :
    getF (raiseFault f isl inst d r s) h k = getF s h k := getF_raiseAt_ne hk

theorem getF_uniEna_uncorrectable :
    getF (uncorrectable 14 bank word scrub s) R.PTE_UNI_CFG_ENA = getF s R.PTE_UNI_CFG_ENA := by
  unfold uncorrectable
  dsimp only
  rw [if_neg (by decide), if_pos (by decide), getF_raiseFault_ne (by decide), getF_setF_ne (by decide), getF_bump_ne (by decide),
    getF_uniEna_latchAddr]

theorem getF_uniEna_narrowWrite : getF (narrowWrite 14 w s).2 R.PTE_UNI_CFG_ENA = getF s R.PTE_UNI_CFG_ENA := by
  have hr : getF (eccRead 14 w s).2 R.PTE_UNI_CFG_ENA = getF s R.PTE_UNI_CFG_ENA := by
    unfold eccRead
    split
    · rfl
    · exact getF_uniEna_correctedRead
    · exact getF_uniEna_uncorrectable
  refine Eq.trans ?_ hr
  unfold narrowWrite
  dsimp only
  split <;> rfl

theorem getF_uniEna_dropGrants : getF (dropGrants q s) R.PTE_UNI_CFG_ENA = getF s R.PTE_UNI_CFG_ENA :=
  getF_setF_ne (by decide)

theorem getF_uniEna_partnerRead : getF (partnerRead i addr pid s) R.PTE_UNI_CFG_ENA = getF s R.PTE_UNI_CFG_ENA := by
  unfold partnerRead
  split
  · dsimp only
    split
    · exact getF_uniEna_narrowWrite
    · exact getF_uniEna_dropGrants.trans getF_uniEna_narrowWrite
  · rfl

theorem flag_uniEna_readAndDropped :
    flag (dropGrants q (settle i (partnerRead i addr pid s))) R.PTE_UNI_CFG_ENA = flag s R.PTE_UNI_CFG_ENA :=
  congrArg (· == 1) (getF_uniEna_dropGrants.trans getF_uniEna_partnerRead)

/-- ENA 0, no duration or a type never granted: the first test of R139 denies, whatever the load and the table. -/
theorem unicastRequest_denied (h : flag s R.PTE_UNI_CFG_ENA = false ∨ dur = 0 ∨ grantRange s i m = none) :
    unicastRequest i addr pid m log dur s = denyGrant i addr pid m log
      (dropGrants (fun _ g => decide (g.expiry < now s)) (settle i (partnerRead i addr pid s))) := by
  refine if_pos ?_
  rcases h with h | h | h
  · refine .inl ?_
    rw [flag_uniEna_readAndDropped, h]
    rfl
  · exact .inr (.inl h)
  · refine .inr (.inr ?_)
    rw [grantRange_eq_none_iff.mpr (grantRange_eq_none_iff.mp h)]
    rfl

end

/-- Settles O23: a request by its guards, a grant that is given by its entry, the ends of grants by the entries that stay. -/
theorem unicastGrantsAreGivenCancelledAndExpire : Obligations.UnicastGrantsAreGivenCancelledAndExpire := by
  unfold Obligations.UnicastGrantsAreGivenCancelledAndExpire
  exact ⟨fun i addr pid m log dur s => exec_unicastRequest, fun i addr pid m log dur s => unicastRequest_denied,
    fun i addr pid m log dur s => giveGrant_stands, fun i addr pid m s => exec_unicastCancel, fun i s => rfl,
    fun q s => ⟨dropGrants_partners_length_le, grants_ne_nil_of_mem_dropGrants, getF_partners_dropGrants⟩⟩

end Sys2Proof.Machine

/-! Proofs about the DPLLs and the local oscillator (spec/05 R152 to R173, R514) and about the commands of the rings (spec/13 R359,
R363, R364, R369 to R376). -/

namespace Sys2Proof.Machine

/-! ### DPLLs: selection, controls and re-alignment (R152 to R156, R162, R167, R514) -/

section

variable {s : State} {req : Requester} {d i off : Nat}

/-- A command that is one write access has the effect of its register, where it reaches it. -/
theorem ran_writeAt_of_reaches {eff : Nat → State → State} (h : reaches req off i s) :
    ran (writeAt req off eff s.begin) = .next (eff i s.begin) :=
  congrArg Host.Outcome.next (writeAt_of_reaches (reaches_begin h))

theorem exec_waitToRestoreExpiry (ht : timUp s = true) :
    exec (.waitToRestoreExpiry d) s = .next (bwCheck d (rateCheck (dpllEval d s.begin))) :=
  ran_ite_pos ht

/-! #### Re-alignment (R167) -/

theorem dpllRealign_ignored (h : candTimeAlign s (getF s R.REF_DPLL_STAT_SEL_CAND d) = false ∨
    flag s R.REF_DPLL_STAT_SEL_VALID d = false ∨ (dpllState s d ≠ stACQUIRING ∧ dpllState s d ≠ stLOCKED)) :
    dpllRealign d s = raise R.REF_DPLL_EVENT_REALIGN_IGNORED s d := by
  refine if_pos ?_
  rcases h with h | h | ⟨ha, hl⟩
  · simp [h]
  · simp [h]
  · simp [ha, hl]

/-- A re-alignment that is not ignored, by slew, of a b that is not 0. -/
theorem dpllRealign_slews (ha : candTimeAlign s (getF s R.REF_DPLL_STAT_SEL_CAND d) = true)
    (hv : flag s R.REF_DPLL_STAT_SEL_VALID d = true) (hs : dpllState s d = stACQUIRING ∨ dpllState s d = stLOCKED)
    (hm : getF s R.REF_DPLL_CTL_REALIGN_MODE d ≠ 1) (hb : (dpll s d).b ≠ 0) :
    dpllRealign d s = setDpll d { dpll s d with realign := true, bRes5 := 0 } s := by
  have hg : ¬ (!(candTimeAlign s (getF s R.REF_DPLL_STAT_SEL_CAND d) && flag s R.REF_DPLL_STAT_SEL_VALID d) ||
      !(dpllState s d == stACQUIRING || dpllState s d == stLOCKED)) = true := by
    rcases hs with hs | hs <;> simp [ha, hv, hs]
  exact (if_neg hg).trans ((if_neg hm).trans (if_neg hb))

/-- A slew whose cycle gains all that remains ends in it (R53). -/
theorem slewCycle_ends {w rem : Int} {r5 : Nat} (h : (8 * w + r5) / 5 ≥ rem.natAbs) :
    slewCycle w rem r5 = (0, ((8 * w + r5) % 5).toNat, true) :=
  if_pos h

theorem exec_realignDone (ht : timRuns s = true) (hr : (dpll s d).realign = true)
    (h : (8 * slewWord s + (dpll s d).bRes5) / 5 ≥ (dpll s d).b.natAbs) :
    exec (.realignDone d) s = .next (raise R.REF_DPLL_EVENT_REALIGN_DONE (setDpll d { dpll s d with
      b := 0, bRes5 := ((8 * slewWord s + (dpll s d).bRes5) % 5).toNat, realign := false } s.begin) d) := by
  have hz : slewCycle (slewWord s.begin) (dpll s.begin d).b (dpll s.begin d).bRes5 = _ := slewCycle_ends h
  have hc : (timRuns s && (dpll s d).realign && true) = true := by simp [ht, hr]
  show execRealignDone d s = _
  simp only [execRealignDone, hz]
  exact ran_ite_pos hc

end

/-- Settles O25: the register writes by their access, a re-alignment by its tests, its end by the gain of its last cycle. -/
theorem dpllsAreSelectedForcedRealignedAndControlled : Obligations.DpllsAreSelectedForcedRealignedAndControlled := by
  unfold Obligations.DpllsAreSelectedForcedRealignedAndControlled
  exact ⟨fun d s => exec_waitToRestoreExpiry, fun req val s h => ran_writeAt_of_reaches h,
    fun req d val s h => ran_writeAt_of_reaches h, fun req d val s h => ran_writeAt_of_reaches h,
    fun req d val s h => ran_writeAt_of_reaches h, fun req d val s h => ran_writeAt_of_reaches h,
    fun d s => ⟨dpllRealign_ignored, dpllRealign_slews⟩, fun d s => exec_realignDone⟩

/-! ### DPLLs: the loop, holdover and open-loop writes (R159, R168 to R170) -/

section

variable {s : State} {d : Nat} {v : Int}

theorem exec_dpllLoopUpdate (ht : timUp s = true) (hs : dpllState s d = stACQUIRING ∨ dpllState s d = stLOCKED)
    (hu : (dpll s d).firstUpd = true ∨ (dpll s d).lastUpd + 125 * unitUs ≤ now s) :
    exec (.dpllLoopUpdate d) s = .next (loopUpdate d s.begin) := by
  have hc : (timUp s && (dpllState s d == stACQUIRING || dpllState s d == stLOCKED) &&
      ((dpll s d).firstUpd || now s ≥ (dpll s d).lastUpd + 125 * unitUs)) = true := by simp [ht, hs, hu]
  exact ran_ite_pos hc

/-- A second of a DPLL that is LOCKED (R168): on a cold OCXO it is counted, and the average stays. -/
theorem exec_holdoverAvgUpdate_cold (ht : timUp s = true) (hl : dpllState s d = stLOCKED) (hx : flag s R.REF_XO_STAT_SRC = true)
    (hw : flag s R.REF_XO_STAT_WARM = false) :
    exec (.holdoverAvgUpdate d) s = .next (setDpll d { dpll s d with lockedSecs := (dpll s d).lockedSecs + 1 } s.begin) := by
  have hc : (timUp s && dpllState s d = stLOCKED) = true := by simp [ht, hl]
  have hcold : (flag s R.REF_XO_STAT_SRC && !flag s R.REF_XO_STAT_WARM) = true := by simp [hx, hw]
  exact (ran_ite_pos hc).trans (congrArg _ (if_pos hcold))

theorem exec_holdoverAvgUpdate_averages (ht : timUp s = true) (hl : dpllState s d = stLOCKED)
    (h : flag s R.REF_XO_STAT_SRC = false ∨ flag s R.REF_XO_STAT_WARM = true) {avg : Int}
    (ha : avg = (dpll s d).avg + ((dpll s d).w - (dpll s d).avg) / (2 ^ min 12 (getF s R.REF_DPLL_CFG2_HO_TAU d) : Nat)) :
    exec (.holdoverAvgUpdate d) s = .next (setDpll d { dpll s d with
      lockedSecs := (dpll s d).lockedSecs + 1, avg := avg, avgHist := ((now s, avg) :: (dpll s d).avgHist).take 16 } s.begin) := by
  have hc : (timUp s && dpllState s d = stLOCKED) = true := by simp [ht, hl]
  have hwarm : ¬ (flag s R.REF_XO_STAT_SRC && !flag s R.REF_XO_STAT_WARM) = true := by
    rcases h with h | h <;> simp [h]
  rw [← satN_eq_min] at ha
  subst ha
  exact (ran_ite_pos hc).trans (congrArg _ (if_neg hwarm))

theorem exec_holdoverWUpdate (ht : timRuns s = true) (hs : dpllState s d = stHOLDOVER) :
    exec (.holdoverWUpdate d) s = .next (rateCheck (setDpll d { dpll s d with
      w := (dpll s d).hoVal - (getS s R.REF_XO_AGE_AGE * ((now s - (dpll s d).hoSince) / unitS)) / 4096 } s.begin)) := by
  have hc : (timRuns s && dpllState s d = stHOLDOVER) = true := by simp [ht, hs]
  exact ran_ite_pos hc

theorem exec_holdoverValid (ht : timUp s = true) (hm : getF s R.REF_DPLL_CFG3_HO_MIN_S d ≤ (dpll s d).lockedSecs) :
    exec (.holdoverValid d) s = .next (setF R.REF_DPLL_STAT_HO_VALID 1 s.begin d) := by
  have hc : (timUp s && (dpll s d).lockedSecs ≥ getF s R.REF_DPLL_CFG3_HO_MIN_S d) = true := by simp [ht, hm]
  exact ran_ite_pos hc

/-! #### Open-loop writes (R170): nothing outside OPEN; in OPEN by the held write, else by the write applied before -/

theorem olFreq_not_open (h : dpllState s d ≠ stOPEN) : olFreq d v s = s := if_pos h

theorem olPhase_not_open (h : dpllState s d ≠ stOPEN) : olPhase d v s = s := if_pos h

theorem olFreq_of_held {h : Int} (ho : dpllState s d = stOPEN) (hh : (dpll s d).freq.held = some h) :
    olFreq d v s = raise R.REF_DPLL_EVENT_OL_COALESCED
      (setDpll d { dpll s d with freq := { (dpll s d).freq with held := some v } } s) d := by
  simp only [olFreq, ho, hh, ne_eq, not_true_eq_false, if_false, Option.isSome_some, if_true]

theorem olPhase_of_held {h : Int} (ho : dpllState s d = stOPEN) (hh : (dpll s d).phase.held = some h) :
    olPhase d v s = raise R.REF_DPLL_EVENT_OL_COALESCED
      (setDpll d { dpll s d with phase := { (dpll s d).phase with held := some (h + v) } } s) d := by
  simp only [olPhase, ho, hh, ne_eq, not_true_eq_false, if_false]

theorem olFreq_of_none_held (ho : dpllState s d = stOPEN) (hh : (dpll s d).freq.held = none) :
    olFreq d v s =
      if olThisCycle s (dpll s d).freq then raise R.REF_DPLL_EVENT_OL_COALESCED (olApplyFreq d v s) d
      else if olFree s (dpll s d).freq then olApplyFreq d v s
      else setDpll d { dpll s d with freq := { (dpll s d).freq with held := some v } } s := by
  simp only [olFreq, ho, hh, ne_eq, not_true_eq_false, if_false, Option.isSome_none, Bool.false_eq_true]

theorem olPhase_of_none_held (ho : dpllState s d = stOPEN) (hh : (dpll s d).phase.held = none) :
    olPhase d v s =
      if olThisCycle s (dpll s d).phase then raise R.REF_DPLL_EVENT_OL_COALESCED (olApplyPhase d v s) d
      else if olFree s (dpll s d).phase then olApplyPhase d v s
      else setDpll d { dpll s d with phase := { (dpll s d).phase with held := some v } } s := by
  simp only [olPhase, ho, hh, ne_eq, not_true_eq_false, if_false]

theorem exec_olWriteApply_phase (ht : timUp s = true) (hh : (dpll s d).phase.held = some v)
    (hf : olFree s (dpll s d).phase = true) : exec (.olWriteApply d true) s = .next (olApplyPhase d v s.begin) := by
  have hh' : (dpll s.begin d).phase.held = some v := hh
  have hf' : olFree s.begin (dpll s.begin d).phase = true := hf
  show execOlWriteApply d true s = _
  simp only [execOlWriteApply, hh', hf', if_true]
  exact ran_ite_pos ht

theorem exec_olWriteApply_freq (ht : timUp s = true) (hh : (dpll s d).freq.held = some v)
    (hf : olFree s (dpll s d).freq = true) : exec (.olWriteApply d false) s = .next (olApplyFreq d v s.begin) := by
  have hh' : (dpll s.begin d).freq.held = some v := hh
  have hf' : olFree s.begin (dpll s.begin d).freq = true := hf
  show execOlWriteApply d false s = _
  simp only [execOlWriteApply, hh', hf', if_true, Bool.false_eq_true, if_false]
  exact ran_ite_pos ht

/-! #### The local oscillator (R173) -/

theorem exec_xoStabilitySample {xin : Option Int} (ht : timUp s = true) (ho : hasOcxo s = true) :
    exec (.xoStabilitySample xin) s = .next (stabilitySample xin s.begin) := by
  have hc : (timUp s && hasOcxo s) = true := by simp [ht, ho]
  exact ran_ite_pos hc

theorem exec_ocxoWarmPin {level : Bool} (ht : timUp s = true) (ho : hasOcxo s = true) :
    exec (.ocxoWarmPin level) s =
      .next (warmUpdate (setFlag R.REF_XO_STAT_PIN level { s.begin with sys := { s.sys with warmPin := level } })) := by
  have hc : (timUp s && hasOcxo s) = true := by simp [ht, ho]
  exact ran_ite_pos hc

theorem warmUpdate_warms (hw : flag s R.REF_XO_STAT_WARM = false) (ht : flag s R.REF_XO_STAT_TEST_PASS = true)
    (hp : flag s R.REF_XO_CFG_WARM_PIN_USE = true → flag s R.REF_XO_STAT_PIN = true) :
    warmUpdate s = raise R.REF_EVENT_OCXO_WARM (setF R.REF_XO_STAT_WARM 1 s) := by
  have hg : (!flag s R.REF_XO_CFG_WARM_PIN_USE || flag s R.REF_XO_STAT_PIN) = true := by
    cases h : flag s R.REF_XO_CFG_WARM_PIN_USE <;> simp [hp, h]
  simp only [warmUpdate, hw, ht, hg, Bool.false_or, Bool.and_self, Bool.not_false, if_true]
  rfl

theorem warmUpdate_cools (hw : flag s R.REF_XO_STAT_WARM = true) (hu : flag s R.REF_XO_CFG_WARM_PIN_USE = true)
    (hp : flag s R.REF_XO_STAT_PIN = false) :
    warmUpdate s = raise R.REF_EVENT_OCXO_COLD (setF R.REF_XO_STAT_WARM 0 s) := by
  simp only [warmUpdate, hw, hu, hp, Bool.true_or, Bool.not_true, Bool.or_self, Bool.and_false, Bool.false_eq_true, if_false,
    Bool.not_false, Bool.and_self, if_true]
  rfl

end

/-- Settles O26: each command by its guard, an open-loop write by the held one and the one applied before. -/
theorem dpllLoopsHoldAndFollowTheOscillator : Obligations.DpllLoopsHoldAndFollowTheOscillator := by
  unfold Obligations.DpllLoopsHoldAndFollowTheOscillator
  refine ⟨fun d s => exec_dpllLoopUpdate,
    fun d s ht hl => ⟨exec_holdoverAvgUpdate_cold ht hl, fun h avg => exec_holdoverAvgUpdate_averages ht hl h⟩,
    fun d s => exec_holdoverWUpdate, fun d s => exec_holdoverValid, fun req d hi s h => ran_writeAt_of_reaches h,
    fun req d hi s h => ran_writeAt_of_reaches h,
    fun d v s => ⟨fun h => ⟨olFreq_not_open h, olPhase_not_open h⟩, fun ho hh hc hf => ?_, fun ho hh hc hf => ?_,
      fun ho ⟨hfh, hph⟩ ⟨hfc, hpc⟩ ⟨hff, hpf⟩ => ⟨?_, ?_⟩, fun ho ⟨hh, hc⟩ => ?_, fun ho ⟨hh, hc⟩ => ?_,
      fun ho h => olFreq_of_held ho, fun ho h => olPhase_of_held ho⟩,
    fun d v s ht => ⟨exec_olWriteApply_phase ht, exec_olWriteApply_freq ht⟩, fun req hi s h => ran_writeAt_of_reaches h,
    fun xin s => exec_xoStabilitySample, fun level s => exec_ocxoWarmPin, fun s => ⟨warmUpdate_warms, warmUpdate_cools⟩⟩
  · rw [olFreq_of_none_held ho hh, hc, hf, if_neg Bool.false_ne_true, if_pos rfl]
  · rw [olPhase_of_none_held ho hh, hc, hf, if_neg Bool.false_ne_true, if_pos rfl]
  · rw [olFreq_of_none_held ho hfh, hfc, hff, if_neg Bool.false_ne_true, if_neg Bool.false_ne_true]
  · rw [olPhase_of_none_held ho hph, hpc, hpf, if_neg Bool.false_ne_true, if_neg Bool.false_ne_true]
  · rw [olFreq_of_none_held ho hh, hc, if_pos rfl]
  · rw [olPhase_of_none_held ho hh, hc, if_pos rfl]

/-! ### A slot completed (R359, R363, R368) -/

section

variable {s a b : State} {r v low : Nat} {words data : List Nat} {irq : Bool} {o : Output}

/-! #### What the steps of a completion leave of the registers and of the outputs so far -/

theorem outs_prefix_ite {p : Prop} [Decidable p] (ha : s.outs <+: a.outs) (hb : s.outs <+: b.outs) :
    s.outs <+: (if p then a else b).outs := by
  split <;> assumption

theorem outs_prefix_of_eq (h : a.outs = s.outs) : s.outs <+: a.outs := ⟨[], (List.append_nil _).trans h.symm⟩

theorem foldl_setRing_outs {l : List Nat} {g : Nat → State → Ring} :
    (l.foldl (fun s r => setRing r (g r s) s) s).outs = s.outs :=
  List.foldlRecOn (motive := fun u : State => u.outs = s.outs) _ _ rfl fun _ h _ _ => h

theorem sendVector_outs : s.outs <+: (sendVector v s).outs := by
  unfold sendVector
  refine outs_prefix_ite ?_ ?_
  · rw [emit_outs, foldl_setRing_outs (g := fun r s => { ring s r with cnt := 0, since := none })]
    exact List.prefix_append _ _
  · exact outs_prefix_of_eq (foldl_setRing_outs (g := fun r s => { ring s r with cnt := 0, since := none }))

theorem fireVector_outs : s.outs <+: (fireVector v s).outs :=
  outs_prefix_ite (outs_prefix_ite List.prefix_rfl List.prefix_rfl) sendVector_outs

theorem ringCount_outs : s.outs <+: (ringCount r s).outs :=
  outs_prefix_ite (fireVector_outs (s := setRing r _ s)) List.prefix_rfl

theorem ringCount_regs : (ringCount r s).regs = s.regs :=
  (keeps_ringCount (W := 4325376) rfl keeps_refl).same.regs rfl

theorem ringFull_outs : (ringFull r s).outs = s.outs := (keeps_ringFull (W := 131072) rfl keeps_refl).same.outs rfl

theorem ringStopped_outs : (ringStopped r s).outs = s.outs := (keeps_ringStopped (W := 258) rfl keeps_refl).same.outs rfl

/-- The end of a stop writes the ring's state and its event alone. -/
theorem getF_ringStopped {g : Fld} (hst : g.st = 0x100000)
    (hs : g.off * 32 + g.lo ≠ R.HIF_RING_STAT_STATE.off * 32 + R.HIF_RING_STAT_STATE.lo)
    (he : g.off * 32 + g.lo ≠ R.HIF_RING_EVENT_STOPPED.off * 32 + R.HIF_RING_EVENT_STOPPED.lo) :
    getF (ringStopped r s) g r = getF s g r := by
  unfold ringStopped
  split
  · exact (getF_raise_place ⟨hst, he⟩).trans (getF_setF_place ⟨hst, hs⟩)
  · rfl

/-! #### The slot, then the state of the ring, the write-back and the interrupt -/

/-- The slot of the device index, with its words, PHASE and the data (R359). -/
def slotOut (r : Nat) (words : List Nat) (low : Nat) (data : List Nat) (s : State) : Output :=
  .slot r (devIndex s r % ringSize s r) (words ++ [(1 - devIndex s r / ringSize s r % 2) * 2 ^ 31 + low]) data

/-- Ring `r` has put out `o` as its slot, and its device index and its slot counter have moved. -/
def slotMoved (r : Nat) (o : Output) (s : State) : State :=
  bump R.HIF_RING_CNT_COUNT (setF R.HIF_RING_STAT_DEV_INDEX (devIndex s r + 1) (emit o s) r) r

/-- The write-back of a ring that has one (R359). -/
def wroteBack (r : Nat) (s : State) : State :=
  if flag s R.HIF_RING_CFG_WB_ENA r then emit (.writeBack r (devIndex s r + ringState s r * 2 ^ 16)) s else s

/-- A completion counts toward the interrupt of its ring where it asks for one (R380). -/
def countedIf (irq : Bool) (r : Nat) (s : State) : State := if irq then ringCount r s else s

theorem completeSlot_eq : completeSlot r words low data irq s =
    countedIf irq r (wroteBack r (ringFull r (ringStopped r (slotMoved r (slotOut r words low data s) s)))) := rfl

theorem wroteBack_regs : (wroteBack r s).regs = s.regs := by
  unfold wroteBack
  split <;> rfl

theorem wroteBack_outs : s.outs <+: (wroteBack r s).outs :=
  outs_prefix_ite (List.prefix_append _ _) List.prefix_rfl

theorem countedIf_regs : (countedIf irq r s).regs = s.regs := by
  unfold countedIf
  split
  · exact ringCount_regs
  · rfl

theorem countedIf_outs : s.outs <+: (countedIf irq r s).outs := outs_prefix_ite ringCount_outs List.prefix_rfl

/-- What stands in the register window of a ring after a completion, apart from the ring's state and the event of a stop. -/
theorem getF_completeSlot {g : Fld} (hst : g.st = 0x100000)
    (hs : g.off * 32 + g.lo ≠ R.HIF_RING_STAT_STATE.off * 32 + R.HIF_RING_STAT_STATE.lo)
    (he : g.off * 32 + g.lo ≠ R.HIF_RING_EVENT_STOPPED.off * 32 + R.HIF_RING_EVENT_STOPPED.lo) :
    getF (completeSlot r words low data irq s) g r = getF (slotMoved r (slotOut r words low data s) s) g r := by
  rw [completeSlot_eq, getF_congr countedIf_regs, getF_congr wroteBack_regs, getF_congr ringFull_regs,
    getF_ringStopped hst hs he]

theorem devIndex_slotMoved : devIndex (slotMoved r o s) r = (devIndex s r + 1) % 65536 :=
  (getF_bump_ne (Fld.key_ne (by decide))).trans getF_setF_same

theorem count_slotMoved :
    getF (slotMoved r o s) R.HIF_RING_CNT_COUNT r = (getF s R.HIF_RING_CNT_COUNT r + 1) % 2 ^ 32 := by
  rw [slotMoved, getF_bump_same, getF_setF_place (by decide), getF_emit]
  rfl

theorem devIndex_completeSlot : devIndex (completeSlot r words low data irq s) r = (devIndex s r + 1) % 65536 :=
  (getF_completeSlot rfl (by decide) (by decide)).trans devIndex_slotMoved

theorem count_completeSlot : getF (completeSlot r words low data irq s) R.HIF_RING_CNT_COUNT r =
    (getF s R.HIF_RING_CNT_COUNT r + 1) % 2 ^ 32 :=
  (getF_completeSlot rfl (by decide) (by decide)).trans count_slotMoved

theorem slotOut_mem_completeSlot : slotOut r words low data s ∈ (completeSlot r words low data irq s).outs := by
  rw [completeSlot_eq]
  refine (wroteBack_outs.trans countedIf_outs).mem ?_
  rw [ringFull_outs, ringStopped_outs]
  exact List.mem_append_right _ (List.mem_singleton.mpr rfl)

end

/-! ### Commands of a ring (R364, R369, R371, R374, R376) -/

section

variable {s v : State} {r op : Nat} {c : Cmd} {f : State → State}

/-- A ring that takes a command runs it on what its buffer word leaves (R438). -/
theorem onRing_ready (hr : cmdReady s r = true) : onRing r f s = .next (throughRing r f s.begin) := ran_ite_pos hr

theorem onRing_read (hr : cmdReady s r = true) (hv : slotIn r s.begin = (true, v)) : onRing r f s = .next (f v) := by
  rw [onRing_ready hr, throughRing_read hv]

theorem onRing_unread (hr : cmdReady s r = true) (hv : slotIn r s.begin = (false, v)) : onRing r f s = .next (dmaFail r 0 v) := by
  rw [onRing_ready hr, throughRing_unread hv]

theorem onBare_read (hr : cmdReady s r = true) (hv : slotIn r s.begin = (true, v)) (hl : c.len = 0) :
    onBare r c f s = .next (f v) := by
  rw [onBare, onRing_read hr hv, if_neg (not_not_intro hl)]

/-- A command without a data buffer that is given one (entry 61). -/
theorem onBare_buffer (hr : cmdReady s r = true) (hv : slotIn r s.begin = (true, v)) (hl : c.len ≠ 0) :
    onBare r c f s = .next (finish r c csBAD_LENGTH v) := by
  rw [onBare, onRing_read hr hv, if_pos hl]

section

variable (hr : cmdReady s r = true) (hv : slotIn r s.begin = (true, v))
include hr hv

theorem exec_cmdBadOpcode (ho : op ∉ opcodes) : exec (.cmdBadOpcode r op c) s = .next (finish r c csBAD_OPCODE v) := by
  have hn : ¬ opcodes.contains op = true := by simpa using ho
  exact (onRing_read hr hv).trans (congrArg _ (if_neg hn))

/-! #### Tables (R374, R516) -/

theorem exec_tblRead_gated (hg : tblGate v (c.p0 % 256) (c.p0 / 256 % 256) c.p2 ≠ csOK) :
    exec (.tblRead r c) s = .next (finish r c (tblGate v (c.p0 % 256) (c.p0 / 256 % 256) c.p2) v) :=
  (onRing_read hr hv).trans (congrArg _ (if_pos hg))

theorem exec_tblWrite_gated (hg : tblGate v (c.p0 % 256) (c.p0 / 256 % 256) c.p2 ≠ csOK) :
    exec (.tblWrite r c) s = .next (finish r c (tblGate v (c.p0 % 256) (c.p0 / 256 % 256) c.p2) v) :=
  (onRing_read hr hv).trans (congrArg _ (if_pos hg))

section

variable (hg : tblGate v (c.p0 % 256) (c.p0 / 256 % 256) c.p2 = csOK) (hl : c.len = c.p2 * entrySize (c.p0 % 256))
include hg hl

theorem exec_tblRead : ∃ st n l, readEntries v (c.p0 % 256) (c.p0 / 256 % 256) c.p1 c.p2 = (st, n, l) ∧
    exec (.tblRead r c) s = .next (complete r c st [n] l ((List.range n).foldl (fun s k =>
      if c.p0 % 256 ≤ 9 then tblEcc (c.p0 % 256) (c.p1 + k) s
      else egrTblEcc (c.p0 % 256 - 0x10) (c.p0 / 256 % 256) (c.p1 + k) s) v)) :=
  ⟨_, _, _, rfl, (onRing_read hr hv).trans
    (congrArg _ ((if_neg (not_not_intro hg)).trans (if_neg (not_not_intro hl))))⟩

theorem exec_tblWrite_absent
    (hp : entriesPresent v (c.p0 % 256) (entrySize (c.p0 % 256) / 4) (leWords (bufOf c)) c.p2 = false) :
    exec (.tblWrite r c) s = .next (finish r c csUNSUPPORTED v) :=
  (onRing_read hr hv).trans (congrArg _
    ((if_neg (not_not_intro hg)).trans ((if_neg (not_not_intro hl)).trans (if_pos (by rw [hp]; rfl)))))

theorem exec_tblWrite (hp : entriesPresent v (c.p0 % 256) (entrySize (c.p0 % 256) / 4) (leWords (bufOf c)) c.p2 = true) :
    ∃ st n u, writeEntries (c.p0 % 256) (c.p0 / 256 % 256) (entrySize (c.p0 % 256) / 4) (leWords (bufOf c)) c.p1 c.p2 v =
        (st, n, u) ∧ exec (.tblWrite r c) s = .next (complete r c st [n] [] u) :=
  ⟨_, _, _, rfl, (onRing_read hr hv).trans (congrArg _
    ((if_neg (not_not_intro hg)).trans ((if_neg (not_not_intro hl)).trans (if_neg (by rw [hp]; decide)))))⟩

end

theorem exec_fdbFlush (hl : c.len = 0) (hp : hostReaches v (islPIPE 0) = true)
    (h : bitOf c.p0 7 = true ∨ (c.p0 % 128 ≤ 65 ∧ portPresent v (c.p0 % 128) = true)) :
    exec (.fdbFlush r c) s = .next (complete r c csOK [((tblList v 2).filter fun e => flushed c.p0 e.2).length] []
      (((tblList v 2).filter fun e => flushed c.p0 e.2).foldl (fun s e => setTbl 2 e.1 [] s) v)) := by
  have h65 : ¬ (!bitOf c.p0 7 && decide (c.p0 % 128 > 65)) = true := by
    rcases h with h | ⟨h, _⟩ <;> simp [h]
  have hab : ¬ (!bitOf c.p0 7 && !portPresent v (c.p0 % 128)) = true := by
    rcases h with h | ⟨_, h⟩ <;> simp [h]
  exact (onBare_read hr hv hl).trans (congrArg _
    ((if_neg (by rw [hp]; decide)).trans ((if_neg h65).trans (if_neg hab))))

/-! #### DPLLs and the host's samples (R146, R376) -/

theorem exec_dpllFreq (hl : c.len = 0) (ht : hostReaches v islTIME = true) (ho : dpllState v (c.p0 % 4) = stOPEN) :
    exec (.dpllFreq r c) s =
      .next (finish r c csOK (olFreq (c.p0 % 4) (sx 48 (c.p1 % 2 ^ 32 + c.p2 % 65536 * 2 ^ 32)) v)) :=
  (onBare_read hr hv hl).trans (congrArg _ (if_pos (by simp [ht, ho])))

theorem exec_dpllPhase (hl : c.len = 0) (ht : hostReaches v islTIME = true) (ho : dpllState v (c.p0 % 4) = stOPEN) :
    exec (.dpllPhase r c) s =
      .next (finish r c csOK (olPhase (c.p0 % 4) (sx 64 (c.p1 % 2 ^ 32 + c.p2 % 2 ^ 32 * 2 ^ 32)) v)) :=
  (onBare_read hr hv hl).trans (congrArg _ (if_pos (by simp [ht, ho])))

/-- Open-loop commands where TIME is not reached (entry 50) or their DPLL is not in OPEN. -/
theorem exec_dpllCommands_badState (hl : c.len = 0) (h : hostReaches v islTIME = false ∨ dpllState v (c.p0 % 4) ≠ stOPEN) :
    exec (.dpllFreq r c) s = .next (finish r c csBAD_STATE v) ∧ exec (.dpllPhase r c) s = .next (finish r c csBAD_STATE v) := by
  have hn : ¬ (hostReaches v islTIME && dpllState v (c.p0 % 4) == stOPEN) = true := by
    rcases h with h | h <;> simp [h]
  exact ⟨(onBare_read hr hv hl).trans (congrArg _ (if_neg hn)), (onBare_read hr hv hl).trans (congrArg _ (if_neg hn))⟩

theorem exec_hostSample (hl : c.len = 0) (ht : hostReaches v islTIME = true) :
    exec (.hostSample r c) s = .next (complete r c csOK [(T96.ofUnits (copyNow v islHOST)).ns] []
      (candSample 15 0 (sx 64 (c.p1 % 2 ^ 32 + c.p2 % 2 ^ 32 * 2 ^ 32)) v)) :=
  (onBare_read hr hv hl).trans (congrArg _ (if_pos ht))

end

/-! #### Timeouts (R371) -/

/-- The command times out of a ring for which no run-time application waits. -/
theorem exec_cmdTimeout_idle (hs : slotReady s r 1 = true) (ho : op ∈ opcodes)
    (hx : s.sys.run = none ∨ ∃ x, s.sys.run = some x ∧ x.ring ≠ r) :
    exec (.cmdTimeout r op c) s =
      .next (finish r c csTIMEOUT (raise R.HIF_RING_EVENT_CMD_TIMEOUT (timedOut op c s.begin) r)) := by
  have hc : (slotReady s r 1 && opcodes.contains op && true) = true := by simp [hs, ho]
  show execCmdTimeout r op c s = _
  rcases hx with hx | ⟨x, hx, hr⟩
  · simp only [execCmdTimeout, begin_sys, hx, ringRuns, Bool.false_eq_true, if_false]
    exact ran_ite_pos hc
  · have hn : (x.ring == r) = false := beq_false_of_ne hr
    simp only [execCmdTimeout, begin_sys, hx, ringRuns, hn, hr, ne_eq, not_false_eq_true, decide_true, Bool.true_or,
      Bool.false_eq_true, if_false]
    exact ran_ite_pos hc

/-- The run-time application of a ring times out from its limit on, and its applied records stay (entry 25). -/
theorem exec_cmdTimeout_run {x : ProfRun} (hs : slotReady s r 1 = true) (ho : op ∈ opcodes) (hx : s.sys.run = some x)
    (hr : x.ring = r) (ht : x.since + (zeroAs 1 (getF s R.HIF_RING_TMO_TMO_MS r) : Int) * unitMs ≤ copyNow s islHOST) :
    exec (.cmdTimeout r op c) s = .next (finish r { c with tag := x.tag, irq := x.irq } csTIMEOUT
      (raise R.HIF_RING_EVENT_CMD_TIMEOUT (abandonRun r s.begin) r)) := by
  have hc : (slotReady s r 1 && opcodes.contains op && (x.ring ≠ r ||
      decide (x.since + (zeroAs 1 (getF s R.HIF_RING_TMO_TMO_MS r) : Int) * unitMs ≤ copyNow s islHOST))) = true := by
    simp [hs, ho, ht]
  have he : (x.ring == r) = true := beq_iff_eq.mpr hr
  show execCmdTimeout r op c s = _
  simp only [execCmdTimeout, begin_sys, hx, ringRuns, he, if_pos hr, if_true]
  exact ran_ite_pos hc

end

/-- Settles O45: a completion by its steps, a command by its ring, its buffer word and its own tests. -/
theorem commandsCompleteInTheirSlotWithTheirEffect : Obligations.CommandsCompleteInTheirSlotWithTheirEffect := by
  unfold Obligations.CommandsCompleteInTheirSlotWithTheirEffect
  exact ⟨fun r st c res data s _ => ⟨slotOut_mem_completeSlot, devIndex_completeSlot, count_completeSlot⟩,
    fun r c s v => onRing_unread, fun r c s v => onBare_read, fun r op c s v => exec_cmdBadOpcode,
    fun r c s v => exec_tblRead,
    fun r c s v hr hv hg hl => ⟨exec_tblWrite_absent hr hv hg hl, exec_tblWrite hr hv hg hl⟩,
    fun r c s v hr hv hg => ⟨exec_tblRead_gated hr hv hg, exec_tblWrite_gated hr hv hg⟩,
    fun r c s v => exec_fdbFlush, fun r c s v => exec_dpllFreq, fun r c s v => exec_dpllPhase,
    fun r c s v => exec_dpllCommands_badState, fun r c s v => exec_hostSample, fun r c s v => onBare_read,
    fun r op c s hs ho => ⟨exec_cmdTimeout_idle hs ho, fun x => exec_cmdTimeout_run hs ho⟩,
    fun r c s v hr hv hl => ⟨onBare_buffer hr hv hl, onBare_buffer hr hv hl, onBare_buffer hr hv hl⟩⟩

end Sys2Proof.Machine

/-! Proofs about the synthesis chain and the outputs (spec/06): the DCOs and their modulators (R179 to R182, R511), the start, the
stop and the re-alignment of an output (R184 to R193), and the ToD messages (R195 to R197). -/

namespace Sys2Proof.Machine

/-! ### The DCOs and their modulators (R179 to R182, R511) -/

section

variable {s : State} {j k : Nat} {x : DcoMod}

@[simp] theorem dcoMod_setMod_same : dcoMod (setMod k x s) k = x := smGet_smPut_same _ _ _ _

theorem dcoMod_setMod_ne (h : j ≠ k) : dcoMod (setMod k x s) j = dcoMod s j := smGet_smPut_other _ _ _ _ _ _ h

/-! #### A cycle of the Last clock at one DCO -/

/-- A cycle of the Last clock writes the modulator's record of its DCO and nothing else. -/
theorem dcoCycle_eq_setMod : ∃ x, dcoCycle k s = setMod k x s := by
  unfold dcoCycle
  dsimp only
  split
  · split <;> exact ⟨_, rfl⟩
  · exact ⟨_, rfl⟩

theorem dcoMod_dcoCycle_ne (h : j ≠ k) : dcoMod (dcoCycle k s) j = dcoMod s j := by
  obtain ⟨x, hx⟩ := dcoCycle_eq_setMod (s := s) (k := k)
  rw [hx, dcoMod_setMod_ne h]

/-- The word of R179 rests on the registers, the rate word and the DPLLs, none of which a DCO's cycle writes. -/
@[simp] theorem dcoWord_dcoCycle : dcoWord (dcoCycle k s) j = dcoWord s j := by
  obtain ⟨x, hx⟩ := dcoCycle_eq_setMod (s := s) (k := k)
  rw [hx]
  rfl

@[simp] theorem dcoRatioDiv_dcoCycle : dcoRatioDiv (dcoCycle k s) j = dcoRatioDiv s j := by
  obtain ⟨x, hx⟩ := dcoCycle_eq_setMod (s := s) (k := k)
  rw [hx]
  rfl

@[simp] theorem getF_dcoCycle {f : Fld} {i : Nat} : getF (dcoCycle k s) f i = getF s f i := by
  obtain ⟨x, hx⟩ := dcoCycle_eq_setMod (s := s) (k := k)
  rw [hx]
  rfl

@[simp] theorem flag_dcoCycle {f : Fld} {i : Nat} : flag (dcoCycle k s) f i = flag s f i := by simp [flag]

/-- DCO0 has the nominal of 156.25 MHz and no control value: a quarter of the turn in each cycle of the Last clock. -/
theorem dco0_advance (s : State) :
    dcoNum s 0 * (281474976710656 + dcoCtl s 0).toNat = 156250000 * 281474976710656 := rfl

theorem dco0_turn (s : State) : dcoDen s 0 * 625000000 * 281474976710656 = 625000000 * 281474976710656 := by
  rw [dcoDen, if_pos rfl, Nat.one_mul]

theorem dcoMod_dcoCycle_zero_waits {p : Nat} (hp : p = (dcoMod s 0).phase + 156250000 * 281474976710656)
    (h : p < 625000000 * 281474976710656) : dcoMod (dcoCycle 0 s) 0 = { dcoMod s 0 with phase := p } := by
  subst hp
  simp only [dcoCycle, dco0_advance, dco0_turn, if_neg (Nat.not_le.mpr h), dcoMod_setMod_same]

theorem dcoMod_dcoCycle_zero_turns {p : Nat} (hp : p = (dcoMod s 0).phase + 156250000 * 281474976710656)
    (h : 625000000 * 281474976710656 ≤ p) (hd : 0 < dcoRatioDiv s 0) :
    dcoMod (dcoCycle 0 s) 0 = modCycle (dcoWord s 0).1 (dcoWord s 0).2 (dcoRatioDiv s 0) (flag s R.SYN_DCO_CFG_DITHER 0)
      (getF s R.SYN_DCO_CFG_SEED 0)
      { dcoMod s 0 with phase := (p - 625000000 * 281474976710656) % (625000000 * 281474976710656) } := by
  subst hp
  simp only [dcoCycle, dco0_advance, dco0_turn, if_pos h, if_pos hd, dcoMod_setMod_same]

/-! #### A cycle of the Last -/

theorem timRuns_tdcTick_begin : timRuns (tdcTick s.begin) = timRuns s := by
  unfold tdcTick
  split <;> rfl

theorem tdcTick_begin_syn : (tdcTick s.begin).syn = s.syn := by
  unfold tdcTick
  split <;> rfl

/-- None of the loops of TIME that run ahead of the DCOs in a cycle of the Last writes a record of SYN. -/
theorem lastCycle_syn (was : Bool) (u : State) : (hoCycle (switchUpdate (rateAged was
    (dpllCycle 3 (dpllCycle 2 (dpllCycle 1 (dpllCycle 0 (blendCycle (convergeCycle (slewStep u)))))))))).syn = u.syn := by
  have hloops := keeps_blendCycle (W := 450) rfl (keeps_convergeCycle rfl (keeps_slewStep rfl (keeps_refl (s := u))))
  have hdplls := keeps_dpllCycle (a1 := 3) rfl (keeps_dpllCycle (a1 := 2) rfl (keeps_dpllCycle (a1 := 1) rfl
    (keeps_dpllCycle (a1 := 0) rfl hloops)))
  exact (keeps_hoCycle rfl (keeps_switchUpdate rfl (keeps_rateAged (a1 := was) rfl hdplls))).same.syn rfl

/-- While TIME runs the DCOs come last in a cycle of the Last, and nothing before them writes their records. -/
theorem exec_lastIncrement_dcos (h : timRuns s = true) :
    ∃ v, v.syn = s.syn ∧ exec .lastIncrement s = .next ((List.range 4).foldl (fun s k => dcoCycle k s) v) := by
  show ∃ v : State, v.syn = s.syn ∧ execLastIncrement s = _
  rw [execLastIncrement]
  refine ⟨_, ?_, if_pos (timRuns_tdcTick_begin.trans h)⟩
  exact (lastCycle_syn _ _).trans tdcTick_begin_syn

theorem foldl_range_four (f : State → Nat → State) : (List.range 4).foldl f s = f (f (f (f s 0) 1) 2) 3 := rfl

/-- The cycles of the other DCOs leave DCO0's modulator. -/
theorem dcoMod_zero_after_others : dcoMod (dcoCycle 3 (dcoCycle 2 (dcoCycle 1 s))) 0 = dcoMod s 0 := by
  rw [dcoMod_dcoCycle_ne (by decide), dcoMod_dcoCycle_ne (by decide), dcoMod_dcoCycle_ne (by decide)]

end

/-! #### What stage 1 takes (R180, R181) -/

section

variable {d rem div dith : Int} {dither : Bool} {seed : Nat} {m : DcoMod}

/-- The carry of the remainder accumulator and what stays in it are together what has come in. -/
theorem modIn_spec (h0 : 0 ≤ rem) (h1 : rem < div) : ∃ x r, modIn d rem div dith m = (x, r) ∧ (r : Int) < div ∧
    (x - dith - d % 281474976710656) * div + r = (m.racc : Int) % div + rem := by
  have hp : 0 < div := by omega
  have hlo : 0 ≤ (m.racc : Int) % div := Int.emod_nonneg _ (Int.ne_of_gt hp)
  have hhi : (m.racc : Int) % div < div := Int.emod_lt_of_pos _ hp
  refine ⟨_, _, rfl, ?_, ?_⟩
  · split <;> omega
  · rw [Int.toNat_of_nonneg (by split <;> omega)]
    split
    · have hx : d % 281474976710656 + 1 + dith - dith - d % 281474976710656 = 1 := by omega
      rw [hx]
      omega
    · have hx : d % 281474976710656 + 0 + dith - dith - d % 281474976710656 = 0 := by omega
      rw [hx]
      omega

/-- Without dither stage 1 takes the fraction of d and at most one unit more. -/
theorem modIn_undithered_bounds : 0 ≤ (modIn d rem div 0 m).1 ∧ (modIn d rem div 0 m).1 ≤ 281474976710656 := by
  unfold modIn
  dsimp only
  split <;> omega

/-! #### The stages and the modulus (R180, R182) -/

theorem modCycle_lfsr : (modCycle d rem div dither seed m).lfsr = some (lfsrStep (m.lfsr.getD (lfsrSeed seed))) := rfl

theorem modCycle_bit : (modCycle d rem div dither seed m).bit = lfsrStep (m.lfsr.getD (lfsrSeed seed)) % 2 := rfl

theorem modCycle_accumulators : (modCycle d rem div dither seed m).a1 < 281474976710656 ∧
    (modCycle d rem div dither seed m).a2 < 281474976710656 ∧ (modCycle d rem div dither seed m).a3 < 281474976710656 := by
  refine ⟨?_, Nat.mod_lt _ (by decide), Nat.mod_lt _ (by decide)⟩
  simp only [modCycle]
  omega

theorem modCycle_stage2 : (modCycle d rem div dither seed m).c2 * 281474976710656 + (modCycle d rem div dither seed m).a2 =
    m.a2 + (modCycle d rem div dither seed m).a1 := Nat.div_add_mod' _ _

theorem modCycle_stage3 : (modCycle d rem div dither seed m).c3 * 281474976710656 + (modCycle d rem div dither seed m).a3 =
    m.a3 + (modCycle d rem div dither seed m).a2 := Nat.div_add_mod' _ _

/-- The modulus is the integer part of d, the carry of stage 1, and the differences of the carries of stages 2 and 3. -/
theorem modCycle_modulus :
    ((modCycle d rem div dither seed m).modulus - d / 281474976710656 - ((modCycle d rem div dither seed m).c2 - m.c2)
      - ((modCycle d rem div dither seed m).c3 - 2 * m.c3 + m.d3)) * 281474976710656 + (modCycle d rem div dither seed m).a1 =
    m.a1 + (modIn d rem div (if dither then ((modCycle d rem div dither seed m).bit : Int) - m.bit else 0) m).1 := by
  simp only [modCycle]
  omega

/-- A stage whose accumulator and whose input are below 2^48 carries at most 1. -/
theorem carry_le_one {c a b i : Nat} (h : c * 281474976710656 + b = a + i) (ha : a < 281474976710656)
    (hi : i < 281474976710656) : c ≤ 1 := by omega

theorem modCycle_undithered_bounds (h1 : m.a1 < 281474976710656) (h2 : m.a2 < 281474976710656) (h3 : m.a3 < 281474976710656)
    (hc2 : m.c2 ≤ 1) (hc3 : m.c3 ≤ 1) (hd3 : m.d3 ≤ 1) :
    (modCycle d rem div false seed m).c2 ≤ 1 ∧ (modCycle d rem div false seed m).c3 ≤ 1 ∧
      (modCycle d rem div false seed m).d3 ≤ 1 ∧ d / 281474976710656 - 3 ≤ (modCycle d rem div false seed m).modulus ∧
      (modCycle d rem div false seed m).modulus ≤ d / 281474976710656 + 4 := by
  obtain ⟨ha1, ha2, -⟩ := modCycle_accumulators (d := d) (rem := rem) (div := div) (dither := false) (seed := seed) (m := m)
  have hn2 := carry_le_one modCycle_stage2 h2 ha1
  have hn3 := carry_le_one modCycle_stage3 h3 ha2
  have hin := modIn_undithered_bounds (d := d) (rem := rem) (div := div) (m := m)
  have hm := modCycle_modulus (d := d) (rem := rem) (div := div) (dither := false) (seed := seed) (m := m)
  simp only [Bool.false_eq_true, if_false] at hm
  refine ⟨hn2, hn3, hc3, ?_, ?_⟩ <;> omega

end

/-- Settles O60: the word by the division of R179, the stages by their sums, DCO0 by its quarter turn in each cycle of
the Last. -/
theorem dcoModulatorsKeepTheExactMeanRatio : Obligations.DcoModulatorsKeepTheExactMeanRatio := by
  unfold Obligations.DcoModulatorsKeepTheExactMeanRatio
  refine ⟨fun s k hd => ⟨Int.ediv_mul_add_emod _ _, Int.emod_nonneg _ (Int.ne_of_gt hd), Int.emod_lt_of_pos _ hd⟩,
    fun d rem div dith m => modIn_spec, ?_, ?_, fun s ht => ?_⟩
  · rintro d rem div dither seed m _ rfl
    obtain ⟨h1, h2, h3⟩ :=
      modCycle_accumulators (d := d) (rem := rem) (div := div) (dither := dither) (seed := seed) (m := m)
    exact ⟨modCycle_lfsr, modCycle_bit, h1, h2, h3, rfl, modCycle_stage2, modCycle_stage3, rfl, modCycle_modulus⟩
  · rintro d rem div seed m _ rfl
    exact modCycle_undithered_bounds
  · obtain ⟨v, hs, he⟩ := exec_lastIncrement_dcos ht
    have hm : dcoMod v 0 = dcoMod s 0 := congrArg (fun y : Syn => smGet DcoMod.reset y.mods 0) hs
    rw [foldl_range_four] at he
    refine ⟨_, _, he, rfl, ?_, ?_⟩
    · intro hp
      rw [dcoMod_zero_after_others, dcoMod_dcoCycle_zero_waits (by rw [hm]) hp, hm]
    · intro hp hd
      simp only [dcoWord_dcoCycle, dcoRatioDiv_dcoCycle, getF_dcoCycle, flag_dcoCycle] at hd ⊢
      rw [dcoMod_zero_after_others, dcoMod_dcoCycle_zero_turns (by rw [hm]) hp hd, hm]

/-! ### Outputs: start, stop, committed values and re-alignment (R184 to R193) -/

section

variable {s : State} {req : Requester} {n m val : Nat} {x : OutRt} {f : Fld} {b : Bool}

/-! #### The record and the registers of an output -/

@[simp] theorem outRt_setOut_same : outRt (setOut n x s) n = x := smGet_smPut_same _ _ _ _

theorem outRt_setOut_ne (h : m ≠ n) : outRt (setOut n x s) m = outRt s m := smGet_smPut_other _ _ _ _ _ _ h

/-- The record of an output is a part of SYN. -/
theorem outRt_congr {t : State} (h : t.syn = s.syn) : outRt t n = outRt s n := by simp only [outRt, h]

@[simp] theorem outRt_setF {v i : Nat} : outRt (setF f v s i) n = outRt s n := rfl

@[simp] theorem outRt_setAligned : outRt (setAligned m b s) n = outRt s n := rfl

@[simp] theorem outRt_raise {i d : Nat} : outRt (raise f s i d) n = outRt s n := outRt_congr raise_syn

/-- A delay that waited leaves the committed values that wait. -/
theorem outRt_take_takeDelay : (outRt (takeDelay n s) n).take = (outRt s n).take := by
  unfold takeDelay
  split <;> simp

/-- START_AT is a bit of another place than the MODE of any output. -/
theorem outMode_setStartAt : outMode (setFlag R.SYN_OUT_CTL_START_AT b s n) m = outMode s m :=
  getF_setFlag_ne (by simp only [Fld.key, R.SYN_OUT_CFG_MODE, R.SYN_OUT_CTL_START_AT]; omega)

/-- START_AT is a bit of another place than the STATE of any output. -/
theorem outState_setStartAt : outState (setFlag R.SYN_OUT_CTL_START_AT b s n) m = outState s m :=
  getF_setFlag_ne (by simp only [Fld.key, R.SYN_OUT_STAT_STATE, R.SYN_OUT_CTL_START_AT]; omega)

/-! #### The commands that write a register -/

theorem exec_synCommit (h : reaches req 0x80018 0 s) : exec (.synCommit req val) s = .next (synCommit val s.begin) :=
  congrArg Host.Outcome.next (writeAt_of_reaches (reaches_begin h))

/-- OUTPUT_START, OUTPUT_STOP and OUTPUT_REALIGN are one write of SYN_OUT_CTL. -/
theorem exec_outputCtl (h : reaches req (0x80800 + 0x40 * n) 0 s) :
    ran (writeAt req (0x80800 + 0x40 * n) (fun _ s => writeOutCtl n val s) s.begin) = .next (writeOutCtl n val s.begin) :=
  congrArg Host.Outcome.next (writeAt_of_reaches (reaches_begin h))

/-! #### SYN_OUT_CTL by its bits (R186, R190) -/

theorem writeOutCtl_stop (h29 : bitOf val 29 = false) (h30 : bitOf val 30 = true) :
    writeOutCtl n val s = stopOut n oOFF (setFlag R.SYN_OUT_CTL_START_AT (bitOf val 28) s n) := by
  simp [writeOutCtl, h29, h30]

theorem writeOutCtl_start (h31 : bitOf val 31 = true) (h30 : bitOf val 30 = false) (h29 : bitOf val 29 = false)
    (hm : outMode s n ≠ 0) (hr : outState s n ≠ oRUNNING) (hs : outState s n ≠ oRESTARTING) :
    writeOutCtl n val s = (if bitOf val 28 then armOut n else fun t => startOut n (now t) none false t)
      (setFlag R.SYN_OUT_CTL_START_AT (bitOf val 28) s n) := by
  have hmode : decide (outMode s n ≠ 0) = true := decide_eq_true hm
  have hoff : ¬ (outState s n = oRUNNING ∨ outState s n = oRESTARTING) := not_or.mpr ⟨hr, hs⟩
  simp only [writeOutCtl, h31, h30, h29, whenS_false, outMode_setStartAt, outState_setStartAt, hmode, Bool.not_false,
    Bool.and_self, if_true, if_neg hoff]
  split <;> rfl

theorem writeOutCtl_realign (h31 : bitOf val 31 = false) (h30 : bitOf val 30 = false) (h29 : bitOf val 29 = true) :
    writeOutCtl n val s = realignOut n (setFlag R.SYN_OUT_CTL_START_AT (bitOf val 28) s n) := by
  simp [writeOutCtl, h31, h30, h29]

/-! #### An armed start (R190) -/

theorem armOut_late (h : startTime s n < now s + 2 * unitUs) :
    armOut n s = startOut n (now s) (some (startTime s n)) true (raise R.SYN_OUT_EVENT_START_LATE s n) := by
  simp only [armOut, if_pos h]

theorem armOut_ahead (h : now s + 2 * unitUs ≤ startTime s n) :
    armOut n s = setOutState n oARMED (setOut n { outRt s n with armed := some (startTime s n) } s) := by
  simp only [armOut, if_neg (Int.not_lt.mpr h)]

theorem exec_outputStartInstant {o : Int} (ha : (outRt s n).armed = some o) (hu : synUp s = true)
    (hs : outState s n = oARMED) (ho : o ≤ now s) :
    exec (.outputStartInstant n) s = .next (startOut n (now s) (some o) (decide (o + unitUs ≤ now s))
      (whenS (decide (o + unitUs ≤ now s)) (fun s => raise R.SYN_OUT_EVENT_START_LATE s n) s.begin)) := by
  have hc : (synUp s && outState s n == oARMED && decide (o ≤ now s)) = true := by simp [hu, hs, ho]
  have ha' : (outRt s.begin n).armed = some o := ha
  show execOutputStartInstant n s = _
  simp only [execOutputStartInstant, ha']
  exact ran_ite_pos hc

/-! #### The boundaries at which values are taken (R12, R185, R189) -/

/-- OUTPUT_CHANGE_APPLY of a running output, values committed or not. -/
theorem exec_outputChangeApply (hr : outState s n = oRUNNING) : exec (.outputChangeApply n) s =
    .next (match (outRt s n).take with
      | some ws => applyOut n ws (takeDelay n s.begin)
      | none => takeDelay n s.begin) := by
  have ht : (outRt (takeDelay n s.begin) n).take = (outRt s n).take := outRt_take_takeDelay
  show execOutputChangeApply n s = _
  simp only [execOutputChangeApply, ht]
  exact ran_ite_pos hr

theorem exec_outputChangeApply_values {ws : List Nat} (hr : outState s n = oRUNNING) (ht : (outRt s n).take = some ws) :
    exec (.outputChangeApply n) s = .next (applyOut n ws (takeDelay n s.begin)) := by
  rw [exec_outputChangeApply hr, ht]

theorem exec_outputChangeApply_delay (hr : outState s n = oRUNNING) (ht : (outRt s n).take = none) :
    exec (.outputChangeApply n) s = .next (takeDelay n s.begin) := by
  rw [exec_outputChangeApply hr, ht]

theorem exec_outputStopComplete (h : (outRt s n).completing = true) : ∃ u,
    u = (match (outRt s n).take with | some ws => putOut n ws | none => id)
      (takeDelay n (setOut n { outRt s n with completing := false, want := false, take := none } s.begin)) ∧
    exec (.outputStopComplete n) s = .next (restartCheck n u) := by
  refine ⟨_, rfl, (ran_ite_pos h).trans ?_⟩
  show Host.Outcome.next (restartCheck n (match (outRt s n).take with | some ws => _ | none => _)) = _
  cases (outRt s n).take <;> rfl

theorem restartCheck_starts (hs : outState s n = oRESTARTING) (hc : (outRt s n).completing = false)
    (hl : outMode s n = 0 ∨ apllLocked s (outApll s n) = true) :
    restartCheck n s = startOut n (now s) (outRt s n).armed (outRt s n).armed.isSome s :=
  if_pos ⟨hs, by simp [hc], hl⟩

theorem restartCheck_stays (hs : outState s n ≠ oRESTARTING) : restartCheck n s = s := if_neg fun h => hs h.1

end

/-! #### The end of an alignment (R193) -/

section

variable {s : State} {n m r : Nat} {eps : Int}

/-- Output `n` is placed and has said so, and the residual kept for it is `r`. -/
structure Aligned (n r : Nat) (s : State) : Prop where
  done : getF s R.SYN_OUT_EVENT_ALIGN_DONE n = 1
  placed : (outRt s n).placing = false
  resid : getF s R.SYN_OUT_RESID_EPS n = r

/-- What alignDone does at each output that it places. -/
def placeOne (m : Nat) (s : State) : State :=
  raise R.SYN_OUT_EVENT_ALIGN_DONE (setAligned m true (setOut m { outRt s m with placing := false } s)) m

/-- What it does at each CLOCK output of the group: the output keeps the residual. -/
def placeClockOne (eps : Int) (s : State) (m : Nat) : State := setF R.SYN_OUT_RESID_EPS (toU 32 eps) (placeOne m s) m

theorem alignDone_edges (hp : (outRt s n).placing = true) (hr : outState s n = oRUNNING) (hm : outMode s n ≠ 1) :
    alignDone n eps s = placeOne n s := by
  simp [alignDone, hp, hr, hm, placeOne]

theorem alignDone_clock (hp : (outRt s n).placing = true) (hr : outState s n = oRUNNING) (hm : outMode s n = 1)
    (hw : alignWaits s (outApll s n) = false) (he : (2 * 65536 * eps.natAbs : Int) ≤ vcoUnits s (outApll s n) + 131072) :
    ∃ u, u = (alignGroup s n).foldl (placeClockOne eps) s ∧ alignDone n eps s =
      if outApll s n = 1 then u else alignSlew (outApll s n) (apllDco u (outApll s n)) eps u := by
  have hg : (!((outRt s n).placing && outState s n == oRUNNING)) = false := by simp [hp, hr]
  have hn : (alignWaits s (outApll s n) ||
      decide (vcoUnits s (outApll s n) + 131072 < 2 * 65536 * eps.natAbs)) = false := by
    rw [hw, Bool.false_or, decide_eq_false_iff_not]
    omega
  refine ⟨_, rfl, ?_⟩
  simp only [alignDone, hg, hm, hn, ne_eq, not_true_eq_false, Bool.false_eq_true, if_false]
  rfl

theorem toU_lt {w : Nat} {x : Int} : toU w x < 2 ^ w := by
  have hp : (0 : Int) < ((2 ^ w : Nat) : Int) := Int.natCast_pos.mpr (Nat.two_pow_pos w)
  have hl := Int.emod_lt_of_pos x hp
  have hn := Int.emod_nonneg x (Int.ne_of_gt hp)
  unfold toU
  omega

theorem getF_alignDone_placeOne_same : getF (placeOne n s) R.SYN_OUT_EVENT_ALIGN_DONE n = 1 :=
  beq_iff_eq.mp (flag_raise_same (by decide))

theorem placing_placeOne_same : (outRt (placeOne n s) n).placing = false := by simp [placeOne]

theorem aligned_placeClockOne_same : Aligned n (toU 32 eps) (placeClockOne eps s n) where
  done := (getF_setF_ne (by simp only [Fld.key, R.SYN_OUT_EVENT_ALIGN_DONE, R.SYN_OUT_RESID_EPS]; omega)).trans
    getF_alignDone_placeOne_same
  placed := placing_placeOne_same
  resid := getF_setF_same.trans (Nat.mod_eq_of_lt toU_lt)

theorem aligned_setOut {x : OutRt} (h : Aligned n r s) (hx : x.placing = (outRt s m).placing) : Aligned n r (setOut m x s) where
  done := h.done
  placed := by
    by_cases hm : n = m
    · subst hm; rw [outRt_setOut_same, hx, h.placed]
    · rw [outRt_setOut_ne hm, h.placed]
  resid := h.resid

theorem aligned_setAligned {b : Bool} (h : Aligned n r s) : Aligned n r (setAligned m b s) where
  done := (getF_setFlag_ne (by simp only [Fld.key, R.SYN_OUT_EVENT_ALIGN_DONE, R.SYN_OUT_STAT_ALIGNED]; omega)).trans h.done
  placed := h.placed
  resid := (getF_setFlag_ne (by simp only [Fld.key, R.SYN_OUT_RESID_EPS, R.SYN_OUT_STAT_ALIGNED]; omega)).trans h.resid

theorem aligned_raise_ne (hm : n ≠ m) (h : Aligned n r s) : Aligned n r (raise R.SYN_OUT_EVENT_ALIGN_DONE s m) where
  done := (getF_raise_ne (by simp only [Fld.key, R.SYN_OUT_EVENT_ALIGN_DONE]; omega)).trans h.done
  placed := outRt_raise.symm ▸ h.placed
  resid := (getF_raise_ne (by simp only [Fld.key, R.SYN_OUT_EVENT_ALIGN_DONE, R.SYN_OUT_RESID_EPS]; omega)).trans h.resid

theorem aligned_setResid_ne {v : Nat} (hm : n ≠ m) (h : Aligned n r s) : Aligned n r (setF R.SYN_OUT_RESID_EPS v s m) where
  done := (getF_setF_ne (by simp only [Fld.key, R.SYN_OUT_EVENT_ALIGN_DONE, R.SYN_OUT_RESID_EPS]; omega)).trans h.done
  placed := h.placed
  resid := (getF_setF_ne (by simp only [Fld.key, R.SYN_OUT_RESID_EPS]; omega)).trans h.resid

/-- A CLOCK output that is placed after it, itself or another of the group, leaves an output aligned. -/
theorem aligned_placeClockOne (h : Aligned n (toU 32 eps) s) : Aligned n (toU 32 eps) (placeClockOne eps s m) := by
  by_cases hm : n = m
  · subst hm; exact aligned_placeClockOne_same
  · have hs : Aligned n (toU 32 eps) (setAligned m true (setOut m { outRt s m with placing := false } s)) :=
      aligned_setAligned ⟨h.done, by rw [outRt_setOut_ne hm, h.placed], h.resid⟩
    exact aligned_setResid_ne hm (aligned_raise_ne hm hs)

theorem aligned_alignSlew {j k : Nat} (h : Aligned n r s) : Aligned n r (alignSlew j k eps s) := by
  refine List.foldlRecOn (motive := Aligned n r) _ _ ⟨h.done, h.placed, h.resid⟩ fun t ht m _ => ?_
  dsimp only
  split
  · split
    · exact aligned_setOut ht rfl
    · exact aligned_setAligned (aligned_setOut ht rfl)
  · exact ht

/-- The group that the alignment of a running CLOCK output places has the output in it. -/
theorem mem_alignGroup (hn : n < 12) (hp : (outRt s n).placing = true) (hr : outState s n = oRUNNING) (hm : outMode s n = 1) :
    n ∈ alignGroup s n := by
  unfold alignGroup
  dsimp only
  split
  · exact List.mem_singleton_self n
  · simp [outIds, fedClock, hn, hp, hr, hm]

theorem aligned_foldl_placeClockOne {l : List Nat} (h : n ∈ l) : Aligned n (toU 32 eps) (l.foldl (placeClockOne eps) s) := by
  obtain ⟨a, b, rfl⟩ := List.append_of_mem h
  rw [List.foldl_append, List.foldl_cons]
  exact List.foldlRecOn (motive := Aligned n (toU 32 eps)) _ _ aligned_placeClockOne_same
    fun _ ht _ _ => aligned_placeClockOne ht

theorem aligned_alignDone_clock (hn : n < 12) (hp : (outRt s n).placing = true) (hr : outState s n = oRUNNING)
    (hm : outMode s n = 1) (hw : alignWaits s (outApll s n) = false)
    (he : (2 * 65536 * eps.natAbs : Int) ≤ vcoUnits s (outApll s n) + 131072) :
    Aligned n (toU 32 eps) (alignDone n eps s) := by
  obtain ⟨u, rfl, hd⟩ := alignDone_clock hp hr hm hw he
  have hu := aligned_foldl_placeClockOne (s := s) (eps := eps) (mem_alignGroup hn hp hr hm)
  rw [hd]
  split
  · exact hu
  · exact aligned_alignSlew hu

/-- ALIGN_DONE of a running output that is being placed: at once in PULSE and FRAME modes, with the group in CLOCK mode. -/
theorem exec_alignDone (hn : n < 12) (hp : (outRt s n).placing = true) (hr : outState s n = oRUNNING)
    (hc : outMode s n = 1 → alignWaits s (outApll s n) = false ∧
      (2 * 65536 * eps.natAbs : Int) ≤ vcoUnits s (outApll s n) + 131072) :
    ∃ t, exec (.alignDone n eps) s = .next t ∧ t = alignDone n eps s.begin ∧ flag t R.SYN_OUT_EVENT_ALIGN_DONE n = true ∧
      (outRt t n).placing = false ∧ (outMode s n = 1 → getF t R.SYN_OUT_RESID_EPS n = toU 32 eps) := by
  refine ⟨_, rfl, rfl, ?_⟩
  by_cases hm : outMode s n = 1
  · obtain ⟨hw, he⟩ := hc hm
    obtain ⟨hd, hpl, hres⟩ := aligned_alignDone_clock (s := s.begin) hn hp hr hm hw he
    exact ⟨beq_iff_eq.mpr hd, hpl, fun _ => hres⟩
  · rw [alignDone_edges (s := s.begin) hp hr hm]
    exact ⟨beq_iff_eq.mpr getF_alignDone_placeOne_same, placing_placeOne_same, fun h => absurd h hm⟩

end

/-- Settles O28: a register write by its access, SYN_OUT_CTL by its bits, a boundary by what waits for it, an alignment by the
outputs that it places. -/
theorem outputsStartStopAndRealign : Obligations.OutputsStartStopAndRealign := by
  unfold Obligations.OutputsStartStopAndRealign
  exact ⟨fun req val s => exec_synCommit,
    fun n s hr => ⟨fun ws => exec_outputChangeApply_values hr, exec_outputChangeApply_delay hr⟩,
    fun req n val s => exec_outputCtl, fun req n val s => exec_outputCtl, fun req n val s => exec_outputCtl,
    fun n val s _ => writeOutCtl_stop, fun n val s _ => writeOutCtl_start, fun n s => ⟨armOut_late, armOut_ahead⟩,
    fun n o s => exec_outputStartInstant, fun n val s => writeOutCtl_realign, fun n s => exec_outputStopComplete,
    fun n s => ⟨restartCheck_starts, restartCheck_stays⟩, fun n eps s => exec_alignDone⟩

/-! ### ToD messages (R195 to R197) -/

section

variable {s : State} {octets : List Nat}

/-! #### Messages that go out (R196) -/

theorem exec_todOutMessage (hu : synUp s = true) (hj : jtagHolds s = false) (he : flag s R.SYN_TOD_CFG_OUT_ENA = true) :
    exec .todOutMessage s = .next (todSend s.begin) :=
  ran_ite_pos (c := (synUp s && !jtagHolds s && flag s R.SYN_TOD_CFG_OUT_ENA) = true) (by simp [hu, hj, he])

/-- An edge that is due: it counts as labelled, then it is skipped or its message starts. -/
theorem todSend_of_edge {k t : Int} (h : todEdge s = some (k, t)) :
    let u := setOut (todOut s) { outRt s (todOut s) with sent := some k } s
    (todSkips u t = true → todSend s = raise R.SYN_TOD_EVENT_TOD_OUT_SKIPPED u) ∧
    (todSkips u t = false → todSend s = emit (.tod (todMessage u t)) { u with syn := { u.syn with
      todSeq := (s.syn.todSeq + 1) % 256
      todStart := t + todDelay u, todBusy := t + todDelay u + todLength (getF s R.SYN_TOD_CFG_OUT_BAUD) } }) := by
  refine ⟨fun hs => ?_, fun hs => ?_⟩
  · simp only [todSend, h, hs, if_true]
  · simp only [todSend, h, hs, Bool.false_eq_true, if_false]
    rfl

/-! #### Messages that come in (R197) -/

theorem exec_todInMessage (hu : synUp s = true) (he : flag s R.SYN_TOD_CFG_IN_ENA = true) :
    exec (.todInMessage octets) s = .next (todIn octets s.begin) :=
  ran_ite_pos (c := (synUp s && flag s R.SYN_TOD_CFG_IN_ENA) = true) (by simp [hu, he])

theorem todIn_malformed (h : todOk octets = false) :
    todIn octets s = raise R.SYN_TOD_EVENT_TOD_BAD (bump R.SYN_TOD_CNT_IN_ERR s) := by
  simp only [todIn, h, Bool.not_false, if_true]

theorem todIn_waits (h : todOk octets = true) (hl : flag s R.SYN_TOD_CFG_IN_LABEL = true) :
    todIn octets s = { s with syn := { s.syn with todWait := s.syn.todWait ++ [⟨octets, now s⟩] } } := by
  simp only [todIn, h, hl, Bool.not_true, Bool.false_eq_true, if_false, if_true]

theorem todIn_behind (h : todOk octets = true) (hl : flag s R.SYN_TOD_CFG_IN_LABEL = false) (start : Int)
    (hs : start = now s - todLength (getF s R.SYN_TOD_CFG_IN_BAUD)) :
    todIn octets s = (match edgeIn s (start - 990 * unitMs) (start - unitMs) true with
      | some t => todPair octets t s
      | none => raise R.SYN_TOD_EVENT_TOD_UNPAIRED (bump R.SYN_TOD_CNT_IN_ERR s)) := by
  subst hs
  exact (if_neg (by simp [h])).trans (if_neg (by simp [hl]))

/-! #### The end of a window (R197) -/

theorem exec_todUnpaired {w : TodWait} {rest : List TodWait} (h : (todMatch s.begin).syn.todWait = w :: rest) :
    let m := todMatch s.begin
    (w.stop + 990 * unitMs ≤ now m → exec .todUnpaired s =
      .next (raise R.SYN_TOD_EVENT_TOD_UNPAIRED (bump R.SYN_TOD_CNT_IN_ERR { m with syn := { m.syn with todWait := rest } }))) ∧
    (now m < w.stop + 990 * unitMs → exec .todUnpaired s = .next m) := by
  refine ⟨fun ht => ?_, fun ht => ?_⟩
  · show execTodUnpaired s = _
    simp only [execTodUnpaired, h]
    exact ran_ite_pos (decide_eq_true ht)
  · show execTodUnpaired s = _
    simp only [execTodUnpaired, h]
    exact ran_ite_neg (by simpa using ht)

end

/-- Settles O29: a command by its guard, an edge by whether it is skipped, a message by its label bit, a window by its end. -/
theorem todMessagesAreSentPairedAndDropped : Obligations.TodMessagesAreSentPairedAndDropped := by
  unfold Obligations.TodMessagesAreSentPairedAndDropped
  exact ⟨fun s => exec_todOutMessage, fun k t s => todSend_of_edge, fun octets s => exec_todInMessage,
    fun octets s => ⟨todIn_malformed, todIn_waits, todIn_behind⟩, fun w rest s => exec_todUnpaired⟩

end Sys2Proof.Machine

/-! Proofs about the TDC (spec/07): its edges, calibration pairs, records and INTERVAL pairs (R202 to R217), its tables and their
refill, and the takeover by the spare channel (R217 to R222). -/

namespace Sys2Proof.Machine

/-! ### The record of a channel -/

section

variable {s : State} {n m : Nat} {x : TdcCh}

theorem tdcCh_setTdcCh_ne (h : m ≠ n) : tdcCh (setTdcCh n x s) m = tdcCh s m := smGet_smPut_other _ _ _ _ _ _ h

end

/-! ### Edges and calibration pairs (R202 to R205, R207) -/

section

variable {s : State} {src hz l n c c1 c2 : Nat} {rising : Bool} {taps : List (Nat × Nat)}

/-- With TDC up, TDC_EDGE_MEASURE goes by its source: a REFIN passes the test of its frequency and its prescaler first. -/
theorem exec_tdcEdgeMeasure (hu : tdcUp s = true) :
    exec (.tdcEdgeMeasure src rising hz taps) s = .next (if src < 8 then
      if hz > 400000000 * 2 ^ getF s (R.TDC_PRESC_DIV.up (2 * src)) then
        raise R.TDC_EVENT_PRESC_OVERRANGE s.begin (((List.range 24).find? fun n => chActive s n && chSrc s n == src).getD src)
      else if (prescale src rising s.begin).1 then sourceEdge src rising taps (prescale src rising s.begin).2
      else (prescale src rising s.begin).2
    else sourceEdge src rising taps s.begin) :=
  ran_ite_neg (c := (!tdcUp s) = true) (by simp [hu])

theorem exec_tdcEdgeMeasure_overrange (hu : tdcUp s = true) (h8 : src < 8)
    (hf : hz > 400000000 * 2 ^ getF s (R.TDC_PRESC_DIV.up (2 * src))) :
    exec (.tdcEdgeMeasure src rising hz taps) s = .next (raise R.TDC_EVENT_PRESC_OVERRANGE s.begin
      (((List.range 24).find? fun n => chActive s n && chSrc s n == src).getD src)) := by
  rw [exec_tdcEdgeMeasure hu, if_pos h8, if_pos hf]

theorem exec_tdcEdgeMeasure_passed (hu : tdcUp s = true) (h8 : src < 8)
    (hf : hz ≤ 400000000 * 2 ^ getF s (R.TDC_PRESC_DIV.up (2 * src))) (hp : (prescale src rising s.begin).1 = true) :
    exec (.tdcEdgeMeasure src rising hz taps) s = .next (sourceEdge src rising taps (prescale src rising s.begin).2) := by
  rw [exec_tdcEdgeMeasure hu, if_pos h8, if_neg (Nat.not_lt.mpr hf), if_pos hp]

theorem exec_tdcEdgeMeasure_heldBack (hu : tdcUp s = true) (h8 : src < 8)
    (hf : hz ≤ 400000000 * 2 ^ getF s (R.TDC_PRESC_DIV.up (2 * src))) (hp : (prescale src rising s.begin).1 = false) :
    exec (.tdcEdgeMeasure src rising hz taps) s = .next (prescale src rising s.begin).2 := by
  rw [exec_tdcEdgeMeasure hu, if_pos h8, if_neg (Nat.not_lt.mpr hf), if_neg (by simp [hp])]

theorem exec_tdcEdgeMeasure_unprescaled (hu : tdcUp s = true) (h8 : 8 ≤ src) :
    exec (.tdcEdgeMeasure src rising hz taps) s = .next (sourceEdge src rising taps s.begin) := by
  rw [exec_tdcEdgeMeasure hu, if_neg (Nat.not_lt.mpr h8)]

/-- A channel measures for itself, and CHS for the channel it serves. -/
theorem measuresFor_eq_some (h : (n < 24 ∧ l = n) ∨ (n = 24 ∧ s.tdc.spare.map (·.ch) = some l)) :
    measuresFor s n = some l := by
  rcases h with ⟨hn, rfl⟩ | ⟨rfl, hs⟩
  · rw [measuresFor, if_neg (show l ≠ CHS from Nat.ne_of_lt hn), if_pos hn]
  · rw [measuresFor, if_pos (show 24 = CHS from rfl), hs]

theorem takesEdge_of_active (ha : chActive s l = true) (hs : chSrc s l = src) (he : edgeTaken s l rising = true)
    (hb : s.tdc.borrowed ≠ some l) : takesEdge s src rising l = true := by
  simp [takesEdge, ha, hs, he, hb]

/-- An edge of a source that is no candidate's input, with CHS free: the one tap measures if its channel takes the edge. -/
theorem sourceEdge_single (hm : measuresFor s n = some l) (ht : takesEdge s src rising l = true) (h8 : 8 ≤ src)
    (hc : src ≠ candSrc s 14) (hs : s.tdc.spare = none) : sourceEdge src rising [(n, c)] s = tdcEdge l n c rising s := by
  have hr : (timUp s && decide (src < 8)) = false := by simp [h8]
  have ht14 : (timUp s && src == candSrc s 14) = false := by simp [hc]
  simp only [sourceEdge, hr, ht14, whenS_false, hs, List.foldl_cons, List.foldl_nil, hm, ht, if_true]

theorem exec_tdcCalPair (hu : tdcUp s = true) (hn : n ≤ 24) : exec (.tdcCalPair n c1 c2) s = .next (calPair n c1 c2 s.begin) :=
  ran_ite_pos (c := (tdcUp s && decide (n ≤ 24)) = true) (by simp [hu, hn])

theorem pairGood_iff : pairGood c1 c2 = true ↔ c2 ≤ 3071 ∧ 1000 ≤ (c2 : Int) - c1 ∧ (c2 : Int) - c1 ≤ 1700 := by
  simp only [pairGood, Bool.and_eq_true, decide_eq_true_eq]
  omega

end

/-! ### Records, the anchor and the table window (R209, R215 to R217) -/

section

variable {s : State} {n : Nat} {req : Requester}

theorem exec_tdcResultDeliver (hu : tdcUp s = true) (hx : crossUp s islTDC islTIME = true ∨ crossUp s islTDC islMCU = true) :
    exec .tdcResultDeliver s = .next (deliver s.begin) :=
  ran_ite_pos (c := (tdcUp s && (crossUp s islTDC islTIME || crossUp s islTDC islMCU)) = true) (by simpa [hu] using hx)

/-- The round robin starts at the channel in turn. -/
theorem find?_roundRobin_turn {p : Nat → Bool} (hn : n < 24) (hp : p n = true) :
    (((List.range 24).map fun j => (n + j) % 24).find? p) = some n := by
  rw [List.range_succ_eq_map, List.map_cons, Nat.add_zero, Nat.mod_eq_of_lt hn, List.find?_cons_of_pos hp]

/-- The channel in turn delivers its oldest record, and nothing goes to the host for a channel that does not send it there. -/
theorem deliver_turn {r : List Nat} {q : List (List Nat)} (hn : n < 24) (hq : (tdcCh s n).queue = r :: q) (ht : s.tdc.turn = n)
    (hh : flag s R.TDC_CH_CFG_HOST n = false ∨ bitsOf (r.getD 3 0) 18 2 ≠ 0) :
    deliver s = emit (.tdc r (crossUp s islTDC islTIME) (crossUp s islTDC islMCU))
      (setTdcCh n { tdcCh s n with queue := q } { s with tdc := { s.tdc with turn := (n + 1) % 24 } }) := by
  have hf : ((List.range 24).map fun j => (s.tdc.turn + j) % 24).find? (fun m => !(tdcCh s m).queue.isEmpty) = some n := by
    rw [ht]
    exact find?_roundRobin_turn hn (by simp [hq])
  have hnone : ¬ (flag s R.TDC_CH_CFG_HOST n && bitsOf (r.getD 3 0) 18 2 == 0 && hostUp s) = true := by
    rcases hh with h | h
    · simp [h]
    · rw [beq_eq_false_iff_ne.mpr h, Bool.and_false, Bool.false_and]
      exact Bool.false_ne_true
  simp only [deliver, hf, hq, List.headD_cons, List.tail_cons]
  exact if_neg hnone

theorem exec_tdcAnchorRenew (hu : tdcUp s = true) (hr : timRuns s = true) : exec .tdcAnchorRenew s =
    .next ({ s.begin with tdc := { s.tdc with anchorK := s.tdc.k, anchorL := now s, anchorR := s.tim.last.res } }) :=
  ran_ite_pos (c := (tdcUp s && timRuns s) = true) (by simp [hu, hr])

theorem exec_tdcTableDataRead (h : gateOf s 0x90034 0 = .pass) : exec (.tdcTableDataRead req) s =
    .next (bump R.TDC_TBL_ADDR_BIN (emit (.readData req 0x90034 (tblData s)) s.begin)) := by
  have hb : gateOf s.begin 0x90034 0 = .pass := h
  show ran (readTblData req s.begin) = _
  simp only [readTblData, hb]
  rfl

end

/-! ### INTERVAL pairs (R213) -/

section

variable {s : State} {n : Nat} {c : Capture}

theorem exec_intervalTimeout (hu : tdcUp s = true) : exec (.intervalTimeout n) s = .next (intervalTimeout n s.begin) :=
  ran_ite_pos (c := tdcUp s = true) hu

theorem windowOver_iff : windowOver s n = true ↔ ∃ a, (tdcCh s n).armed = some a ∧ getF s R.TDC_CH_CFG2_WIN_US n ≠ 0 ∧
    a + getF s R.TDC_CH_CFG2_WIN_US n * 625 < s.tdc.k ∧ (tdcCh s n).start.isSome ≠ (tdcCh s n).stop.isSome := by
  unfold windowOver
  cases ha : (tdcCh s n).armed with
  | none => simp [ha]
  | some a => simp [ha, and_assoc]

/-- The start edge gives the timeout record its instant and its direction. -/
theorem intervalTimeout_start (hw : windowOver s n = true) (hs : (tdcCh s n).start = some c) :
    intervalTimeout n s = pairDone n (raise R.TDC_CH_EVENT_TIMEOUT (queueRecord n 0 0 (ns10 c.byLast)
      (2 ^ 26 + b2n c.spare * 2 ^ 23 + 2 ^ 18 + b2n c.rising * 2 ^ 17) c.fresh s) n) := by
  simp only [intervalTimeout, hw, if_true, hs, Option.orElse_some, Option.any_some]

/-- Without a start edge the record has instant 0 and no direction. -/
theorem intervalTimeout_stop (hw : windowOver s n = true) (hs : (tdcCh s n).start = none) (ht : (tdcCh s n).stop = some c) :
    intervalTimeout n s = pairDone n (raise R.TDC_CH_EVENT_TIMEOUT
      (queueRecord n 0 0 0 (2 ^ 26 + b2n c.spare * 2 ^ 23 + 2 ^ 18) c.fresh s) n) := by
  have hf : b2n false * 2 ^ 17 = 0 := rfl
  simp only [intervalTimeout, hw, if_true, hs, ht, Option.orElse_none, Option.any_some, hf, Nat.add_zero]

end

/-- Settles O30: an edge by its source, a delivery by the channel in turn, a timeout by the edge that was captured, a register
write by its access. -/
theorem tdcMeasuresEdgesAndDeliversRecords : Obligations.TdcMeasuresEdgesAndDeliversRecords := by
  unfold Obligations.TdcMeasuresEdgesAndDeliversRecords
  exact ⟨fun src hz rising taps s => exec_tdcEdgeMeasure_overrange, fun src hz rising taps s => exec_tdcEdgeMeasure_passed,
    fun src hz rising taps s => exec_tdcEdgeMeasure_heldBack, fun src hz rising taps s => exec_tdcEdgeMeasure_unprescaled,
    fun src l n c rising s hl ha hs he hb h8 hsp hc =>
      sourceEdge_single (measuresFor_eq_some hl) (takesEdge_of_active ha hs he hb) h8 hc hsp,
    fun n c1 c2 s => exec_tdcCalPair, fun c1 c2 => pairGood_iff, fun s => exec_tdcResultDeliver, fun n r q s => deliver_turn,
    fun s => exec_tdcAnchorRenew, fun req n val s => ran_writeAt_of_reaches, fun n s => exec_intervalTimeout,
    fun n c s => intervalTimeout_start, fun n c s => intervalTimeout_stop, fun n s => windowOver_iff,
    fun req n val s => ran_writeAt_of_reaches, fun req val s => ran_writeAt_of_reaches, fun req s => exec_tdcTableDataRead⟩

/-! ### Tables, refills and the spare channel (R217 to R222) -/

section

variable {s : State} {t : Takeover} {n : Nat} {h : List Nat}

theorem exec_tdcRefillComplete (hu : tdcUp s = true) :
    exec (.tdcRefillComplete n h) s = .next (planTurn (borrowLate (refillDone n h s.begin))) :=
  ran_ite_pos (c := tdcUp s = true) hu

theorem commitTable_without_pending (hp : smGet [] s.tdc.pend n = []) : commitTable n s = s := by
  simp only [commitTable, hp, List.isEmpty_nil, if_true]

/-! #### A refill that is asked for (R218) -/

/-- Where CHS is to serve the channel and does not yet, or only returns, the channel asks for it. -/
theorem refillAsk_asks (hn : n ≤ 24) (h0 : (tdcCh s n).refill = 0) (hc : n = 24 ∨ flag s R.TDC_CH_CFG_TAKEOVER n = true)
    (hs : ∀ t, s.tdc.spare = some t → t.ch ≠ n ∨ t.step = 4) :
    refillAsk n s = askSpare n (setTdcCh n { tdcCh s n with refill := 1 } s) := by
  have hidle : ¬ ((tdcCh s n).refill ≠ 0 ∨ n > 24) := by omega
  have hchs : n = CHS ∨ flag s R.TDC_CH_CFG_TAKEOVER n = true := hc
  simp only [refillAsk, if_neg hidle, if_pos hchs]
  cases he : s.tdc.spare with
  | none => rfl
  | some t =>
    have hserve : ¬ (t.ch = n ∧ t.step ≤ 3) := by
      have := hs t he
      omega
    exact if_neg hserve

/-- Where CHS serves the channel already, the refill begins. -/
theorem refillAsk_served (hn : n ≤ 24) (h0 : (tdcCh s n).refill = 0) (hc : n = 24 ∨ flag s R.TDC_CH_CFG_TAKEOVER n = true)
    (t : Takeover) (hs : s.tdc.spare = some t) (ht : t.ch = n) (h3 : t.step ≤ 3) :
    refillAsk n s = settleCh n (setTdcCh n { tdcCh s n with refill := 2 }
      { s with tdc := { s.tdc with spare := some { t with refill := true } } }) := by
  have hidle : ¬ ((tdcCh s n).refill ≠ 0 ∨ n > 24) := by omega
  have hchs : n = CHS ∨ flag s R.TDC_CH_CFG_TAKEOVER n = true := hc
  simp only [refillAsk, if_neg hidle, if_pos hchs, hs, if_pos (And.intro ht h3)]

/-- Another channel is refilled at once. -/
theorem refillAsk_interrupts (hn : n ≤ 24) (h0 : (tdcCh s n).refill = 0)
    (hc : n ≠ 24 ∧ flag s R.TDC_CH_CFG_TAKEOVER n = false) :
    refillAsk n s = settleCh n (setTdcCh n { tdcCh s n with refill := 2 } s) := by
  have hidle : ¬ ((tdcCh s n).refill ≠ 0 ∨ n > 24) := by omega
  have hown : ¬ (n = CHS ∨ flag s R.TDC_CH_CFG_TAKEOVER n = true) := by simpa [CHS] using hc
  simp only [refillAsk, if_neg hidle, if_neg hown]

/-- A channel that asks for a refill while CHS is free gets it, in step 1 and with the divider as it stands (R221). -/
theorem askSpare_free (hn : n < 24) (hf : spareBusy s = false) (hr : (tdcCh s n).refill = 1) :
    askSpare n s = settleSpare (settleCh n
      (let u := setTdcCh 24 { tdcCh s 24 with edges := (tdcCh s n).edges } (setTdcCh n { tdcCh s n with refill := 2 } s)
       { u with tdc := { u.tdc with spare := some ⟨n, 1, true, [], none, none, now s, 0⟩ } })) := by
  have hne : CHS ≠ n := Nat.ne_of_gt hn
  simp only [askSpare, hf, Bool.false_eq_true, if_false, spareStart, hr, if_true, if_neg hne.symm, tdcCh_setTdcCh_ne hne]
  rfl

/-! #### The overlaps of a takeover (R221, R222) -/

theorem overlapOver_iff : overlapOver s t = true ↔ t.diffs.length ≥ overlap s ∨ now s ≥ t.since + unitS := by
  simp [overlapOver]

theorem exec_takeoverOverlapEnd (hs : s.tdc.spare = some t) (hu : tdcUp s = true) (h1 : t.step = 1)
    (ho : overlapOver s t = true) :
    exec .takeoverOverlapEnd s = .next (raise R.TDC_EVENT_TAKEOVER (settleSpare (settleCh t.ch
      (let u := setTdcCh t.ch { tdcCh s t.ch with calChanged := true } s.begin
       { u with tdc := { u.tdc with
          spare := some { t with step := 3, delta := mean10 t.diffs, diffs := [], tN := none, tS := none, since := now s } } })))
      t.ch) := by
  have hb : s.begin.tdc.spare = some t := hs
  have hg : (tdcUp s && t.step == 1 && overlapOver s t) = true := by simp [hu, h1, ho]
  show execTakeoverOverlapEnd s = _
  simp only [execTakeoverOverlapEnd, hb]
  exact ran_ite_pos hg

theorem exec_takeoverEnd (hs : s.tdc.spare = some t) (hu : tdcUp s = true) (h4 : t.step = 4) (ho : overlapOver s t = true) :
    exec .takeoverEnd s = .next (borrowLate (nextWait (raise R.TDC_EVENT_TAKEOVER_END (settleCh t.ch
      (setTdcCh t.ch { tdcCh s t.ch with calChanged := true } { s.begin with tdc := { s.tdc with spare := none } })) t.ch))) := by
  have hb : s.begin.tdc.spare = some t := hs
  have hg : (tdcUp s && t.step == 4 && overlapOver s t) = true := by simp [hu, h4, ho]
  show execTakeoverEnd s = _
  simp only [execTakeoverEnd, hb]
  exact ran_ite_pos hg

end

/-- Settles O31: a request by whether CHS is to serve the channel and does, a takeover by its step, a register write by its
access. -/
theorem tdcTablesAreRefilledCommittedAndTakenOver : Obligations.TdcTablesAreRefilledCommittedAndTakenOver := by
  unfold Obligations.TdcTablesAreRefilledCommittedAndTakenOver
  exact ⟨fun req val s => ran_writeAt_of_reaches, fun n h s => exec_tdcRefillComplete, fun req val s => ran_writeAt_of_reaches,
    fun t s => exec_takeoverOverlapEnd, fun t s => exec_takeoverEnd, fun t s => overlapOver_iff,
    fun n s hn h0 => ⟨refillAsk_asks hn h0, refillAsk_served hn h0, refillAsk_interrupts hn h0⟩,
    fun n s => askSpare_free, fun n s => commitTable_without_pending⟩

end Sys2Proof.Machine

/-! Proofs about lanes and ports (spec/08): the states of a port (R243 to R246), and the configuration, elastic buffer, low power
and calibrations of its lanes (R231 to R256). -/

namespace Sys2Proof.Machine

/-! ### The states of a port (R243 to R246) -/

section

variable {s u : State} {n p cause mbps : Nat} {an : Option Bool}

/-! #### Signal (R245) -/

/-- Port `p` starts with the signal of its last lane: it is DOWN, and every lane has one. -/
def StartsWithSignal (s : State) (p : Nat) : Prop :=
  isPort s p = true ∧ portState s p = pDOWN ∧ ∀ m ∈ portLanes s p, flag s R.LNK_LANE_STAT_SIGNAL m = true

theorem startsWithSignal_iff : StartsWithSignal s p ↔
    (isPort s p && portState s p == pDOWN && (portLanes s p).all fun m => flag s R.LNK_LANE_STAT_SIGNAL m) = true := by
  simp [StartsWithSignal, and_assoc]

/-- What the guard of SIGNAL_DETECT leaves: the test of the port, on the state with SIGNAL set. -/
theorem exec_signalDetect (hl : laneUp s n = true) (hr : flag s R.LNK_LANE_CFG_RX_SLEEP n = false)
    (hu : u = setF R.LNK_LANE_STAT_SIGNAL 1 s.begin n) (hp : p = portOfLane u n) :
    exec (.signalDetect n) s = .next
      (if (isPort u p && portState u p == pDOWN && (portLanes u p).all fun m => flag u R.LNK_LANE_STAT_SIGNAL m) = true then
        if flag u R.LNK_PORT_CFG_LT_ENA p = true then
          setPort p pTRAINING none ((portLanes u p).foldl (fun s m => setF R.LNK_LANE_STAT_LT_STATE 1 s m) u)
        else setPort p pALIGNING none u
      else u) := by
  subst hu hp
  exact ran_ite_pos (c := (laneUp s n && !flag s R.LNK_LANE_CFG_RX_SLEEP n) = true) (by simp [hl, hr])

theorem exec_signalDetect_starts (hl : laneUp s n = true) (hr : flag s R.LNK_LANE_CFG_RX_SLEEP n = false)
    (hu : u = setF R.LNK_LANE_STAT_SIGNAL 1 s.begin n) (hp : p = portOfLane u n) (h : StartsWithSignal u p) :
    exec (.signalDetect n) s = .next (if flag u R.LNK_PORT_CFG_LT_ENA p = true then
        setPort p pTRAINING none ((portLanes u p).foldl (fun s m => setF R.LNK_LANE_STAT_LT_STATE 1 s m) u)
      else setPort p pALIGNING none u) := by
  rw [exec_signalDetect hl hr hu hp, if_pos (startsWithSignal_iff.mp h)]

theorem exec_signalDetect_stays (hl : laneUp s n = true) (hr : flag s R.LNK_LANE_CFG_RX_SLEEP n = false)
    (hu : u = setF R.LNK_LANE_STAT_SIGNAL 1 s.begin n) (hp : p = portOfLane u n) (h : ¬ StartsWithSignal u p) :
    exec (.signalDetect n) s = .next u := by
  rw [exec_signalDetect hl hr hu hp, if_neg (mt startsWithSignal_iff.mpr h)]

/-- A Boolean test of an effect, as a proposition. -/
theorem whenS_eq_ite {b : Bool} {f : State → State} {c : Prop} [Decidable c] (h : b = true ↔ c) :
    whenS b f s = if c then f s else s := by
  by_cases hc : c
  · rw [h.mpr hc, whenS_true, if_pos hc]
  · rw [Bool.eq_false_iff.mpr (mt h.mp hc), whenS_false, if_neg hc]

/-- Fields of two places of one register window have different keys, at whatever index. -/
theorem Fld.key_ne_of_mod {f g : Fld} {i j : Nat}
    (h : f.st = g.st ∧ (f.off * 32 + f.lo) % (f.st * 32) ≠ (g.off * 32 + g.lo) % (g.st * 32)) : f.key i ≠ g.key j := by
  intro he
  refine h.2 ?_
  have hmod : ∀ (e : Fld) (k : Nat), e.key k % (e.st * 32) = (e.off * 32 + e.lo) % (e.st * 32) := fun e k => by
    rw [Fld.key, Nat.add_mul, Nat.mul_assoc, Nat.add_right_comm, Nat.add_mul_mod_self_right]
  rw [← hmod f i, ← hmod g j, he, h.1]

/-- The signal of a lane does not touch the mode of any port. -/
theorem portMode_setSignal {v : Nat} : portMode (setF R.LNK_LANE_STAT_SIGNAL v s n) p = portMode s p :=
  getF_setF_ne (Fld.key_ne_of_mod (by decide))

theorem exec_signalLoss (hl : laneUp s n = true) (hu : u = setF R.LNK_LANE_STAT_SIGNAL 0 s.begin n) (hp : p = portOfLane s n) :
    exec (.signalLoss n) s = .next (portLost p 1 (if 1 < modeLanes (portMode u p) then alignLost p u else u)) := by
  subst hu hp
  rw [portMode_setSignal, ← whenS_eq_ite (f := alignLost _) decide_eq_true_iff]
  exact ran_ite_pos (c := laneUp s n = true) hl

/-! #### Training (R244) -/

theorem exec_linkTrainingDone {eqs : List Nat} (hl : laneUp s p = true) (hs : portState s p = pTRAINING) :
    exec (.linkTrainingDone p eqs) s = .next (setPort p pALIGNING none
      (((portLanes s p).zip (eqs ++ List.replicate 8 0x00FC34F8)).foldl (fun s x =>
        setF R.LNK_LANE_STAT_LT_STATE 2 (setF R.LNK_TXEQ_PRE (bitsOf x.2 16 8)
          (setF R.LNK_TXEQ_MAIN (bitsOf x.2 8 8) (setF R.LNK_TXEQ_POST (bitsOf x.2 0 8) s x.1) x.1) x.1) x.1) s.begin)) :=
  ran_ite_pos (c := (laneUp s p && portState s p == pTRAINING) = true) (by simp [hl, hs])

theorem exec_ltFail (hl : laneUp s p = true) (hs : portState s p = pTRAINING) (ht : ltLimit s p ≤ now s - portSince s p) :
    exec (.ltFail p) s = .next (raise R.LNK_PORT_EVENT_LT_FAIL (setPort p pDOWN none
      ((portLanes s p).foldl (fun s n => setF R.LNK_LANE_STAT_LT_STATE 3 s n) s.begin)) p) :=
  ran_ite_pos (c := (laneUp s p && portState s p == pTRAINING && decide (now s - portSince s p ≥ ltLimit s p)) = true)
    (by simp [hl, hs, ht])

/-! #### Alignment, debounce, link up (R245, R246) -/

theorem anOk_iff : anOk s p an = true ↔ (portMode s p = 1 ∧ (flag s R.LNK_PORT_CFG_AN_ENA p = false ∨ an = some true)) ∨
    (portMode s p ≠ 1 ∧ p ∉ s.lnk.badAn) := by
  by_cases h : portMode s p = 1 <;> simp [anOk, h]

theorem aligned_iff : aligned s p = true ↔ modeLanes (portMode s p) ≤ 1 ∨ flag s R.TSU_DESKEW_VALID p = true := by
  simp [aligned]

theorem exec_linkConditionsMet {link : LinkReady} (hl : laneUp s link.port = true) (hs : portState s link.port = pALIGNING)
    (ha : aligned s link.port = true) (hn : anOk s link.port link.an = true)
    (hu : u = setPort link.port pDEBOUNCE none ((portLanes s link.port).foldl
      (fun v n => setF R.LNK_LANE_STAT_BLOCK_LOCK 1 (setFlag R.LNK_LANE_STAT_AM_LOCK
        (modeLanes (portMode s link.port) > 1 || portFec s link.port ≥ 2) (setF R.LNK_LANE_STAT_HI_BER 0 v n) n) n) s.begin)) :
    exec (.linkConditionsMet link) s =
      .next (if getF u R.LNK_TIMERS_UP_DEBOUNCE_US link.port = 0 then setPort link.port pUP none u else u) := by
  subst hu
  exact ran_ite_pos (c := (laneUp s link.port && portState s link.port == pALIGNING && aligned s link.port &&
    anOk s link.port link.an) = true) (by simp [hl, hs, ha, hn])

theorem exec_linkUp (hl : laneUp s p = true) (hs : portState s p = pDEBOUNCE) (hd : debounced s p = true) :
    exec (.linkUp p) s = .next (setPort p pUP none s.begin) :=
  ran_ite_pos (c := (laneUp s p && portState s p == pDEBOUNCE && debounced s p) = true) (by simp [hl, hs, hd])

/-! #### Link down (R246) -/

/-- The condition that LINK_DOWN of `cause` reports lost, cleared on every lane of port `p`. -/
def conditionLost (p cause : Nat) (s : State) : State :=
  match cause with
  | 1 => (portLanes s p).foldl (fun s n => setF R.LNK_LANE_STAT_SIGNAL 0 s n) s
  | 2 => (portLanes s p).foldl (fun s n => setF R.LNK_LANE_STAT_BLOCK_LOCK 0 s n) s
  | 3 => (portLanes s p).foldl (fun s n => setF R.LNK_LANE_STAT_AM_LOCK 0 s n) s
  | 4 => (portLanes s p).foldl (fun s n => setF R.LNK_LANE_STAT_HI_BER 1 s n) s
  | _ => s

theorem exec_linkDown (hl : laneUp s p = true) (hs : portState s p = pDEBOUNCE ∨ portState s p = pUP ∨ portState s p = pRX_ONLY)
    (hu : u = conditionLost p cause s.begin) :
    exec (.linkDown p cause) s = .next (portLost p cause
      (if 1 ≤ cause ∧ cause ≤ 3 ∧ 1 < modeLanes (portMode u p) then alignLost p u else u)) := by
  subst hu
  rw [← whenS_eq_ite (f := alignLost p) (b := 1 ≤ cause && decide (cause ≤ 3) &&
    decide (modeLanes (portMode (conditionLost p cause s.begin) p) > 1)) (by simp [and_assoc])]
  exact ran_ite_pos (c := (laneUp s p && (portState s p == pDEBOUNCE || portState s p == pUP || portState s p == pRX_ONLY)) = true)
    (by simpa [hl, or_assoc] using hs)

/-! #### The speed of an SGMII partner (R243) -/

/-- What the guard of SGMII_CONTROL_WORD leaves: the mark of the negotiation, then the test of the speed. -/
theorem exec_sgmiiControlWord (hl : laneUp s p = true) (hm : portMode s p = 2) :
    exec (.sgmiiControlWord p mbps) s = .next (if mbps ≠ 1000 then
        portLost p 7 (raise R.LNK_PORT_EVENT_AN_FAIL
          { s.begin with lnk := { s.lnk with badAn := setIn p (mbps ≠ 1000) s.lnk.badAn } } p)
      else { s.begin with lnk := { s.lnk with badAn := setIn p (mbps ≠ 1000) s.lnk.badAn } }) :=
  ran_ite_pos (c := (laneUp s p && portMode s p == 2) = true) (by simp [hl, hm])

theorem exec_sgmiiControlWord_good (hl : laneUp s p = true) (hm : portMode s p = 2) (h : mbps = 1000) :
    exec (.sgmiiControlWord p mbps) s = .next { s.begin with lnk := { s.lnk with badAn := setIn p false s.lnk.badAn } } := by
  rw [exec_sgmiiControlWord hl hm, if_neg (not_not_intro h), decide_eq_false (not_not_intro h)]

theorem exec_sgmiiControlWord_bad (hl : laneUp s p = true) (hm : portMode s p = 2) (h : mbps ≠ 1000) :
    exec (.sgmiiControlWord p mbps) s = .next (portLost p 7 (raise R.LNK_PORT_EVENT_AN_FAIL
      { s.begin with lnk := { s.lnk with badAn := setIn p true s.lnk.badAn } } p)) := by
  rw [exec_sgmiiControlWord hl hm, if_pos h, decide_eq_true h]

end

/-- Settles O32: a command of a port by the state that its guard asks for, a lost condition by its cause, an SGMII word by its
speed. -/
theorem portsTrainAlignDebounceAndGoDown : Obligations.PortsTrainAlignDebounceAndGoDown := by
  unfold Obligations.PortsTrainAlignDebounceAndGoDown
  exact ⟨fun n s hl hr => ⟨_, _, rfl, rfl, exec_signalDetect_starts hl hr rfl rfl, exec_signalDetect_stays hl hr rfl rfl⟩,
    fun n s hl => ⟨_, _, rfl, rfl, exec_signalLoss hl rfl rfl⟩, fun p eqs s => exec_linkTrainingDone, fun p s => exec_ltFail,
    fun link s hl hs ha hn => ⟨_, rfl, exec_linkConditionsMet hl hs ha hn rfl⟩, fun p an s => ⟨anOk_iff, aligned_iff⟩,
    fun p s => exec_linkUp, fun p cause s hl hs => ⟨_, rfl, exec_linkDown hl hs rfl⟩,
    fun p mbps s hl hm => ⟨exec_sgmiiControlWord_good hl hm, exec_sgmiiControlWord_bad hl hm⟩⟩

/-! ### Lanes and quads (R231 to R256) -/

section

variable {s u : State} {n p val fill k : Nat}

/-! #### Equaliser and transmit driver (R244, R247) -/

theorem writeTxeq_beyond
    (h : 64 < (sx 8 (bitsOf val 16 8)).natAbs + bitsOf val 8 8 + (sx 8 (bitsOf val 0 8)).natAbs) :
    writeTxeq n val s = raise R.LNK_PORT_EVENT_TXEQ_INVALID s n := if_pos h

theorem writeTxeq_within
    (h : (sx 8 (bitsOf val 16 8)).natAbs + bitsOf val 8 8 + (sx 8 (bitsOf val 0 8)).natAbs ≤ 64)
    (ht : flag s R.LNK_PORT_CFG_LT_ENA (portOfLane s n) = false) :
    writeTxeq n val s = setF R.LNK_TXEQ_PRE (bitsOf val 16 8) (setF R.LNK_TXEQ_MAIN (bitsOf val 8 8)
      (setF R.LNK_TXEQ_POST (bitsOf val 0 8) s n) n) n := by
  rw [writeTxeq, if_neg (Nat.not_lt.mpr h), if_neg (by simp [ht])]

theorem exec_txDriverAwake (hl : laneUp s n = true) (hw : (smGet none s.lnk.waking n).isSome = true)
    (hu : u = setF R.LNK_LANE_STAT_TX_AWAKE 1
      { s.begin with lnk := { s.lnk with waking := smPut none s.lnk.waking n none } } n) :
    exec (.txDriverAwake n) s = .next (settlePort (portOfLane u n) u) := by
  subst hu
  exact ran_ite_pos (c := (laneUp s n && (smGet none s.lnk.waking n).isSome) = true) (by simp [hl, hw])

/-! #### Elastic buffer and low power (R235, R236, R241) -/

theorem hasEb_iff : hasEb s n = true ↔
    laneUp s n = true ∧ isPort s (portOfLane s n) = true ∧ quadFree s (quadOf n) = true := by
  simp [hasEb, and_assoc]

theorem exec_ebIdleAdjust (h : hasEb s n = true) (hu : u = setF R.LNK_LANE_STAT_EB_FILL fill s.begin n) :
    exec (.ebIdleAdjust n fill) s = .next (if fill < 24 then bump R.LNK_CNT_EB_INS_COUNT u (portOfLane s n)
      else if 40 < fill then bump R.LNK_CNT_EB_DEL_COUNT u (portOfLane s n) else u) := by
  subst hu
  exact ran_ite_pos (c := hasEb s n = true) h

theorem exec_ebSlip (h : hasEb s n = true)
    (hu : u = (frames s).foldl (fun v x => if x.2.port = portOfLane s n ∧ !x.2.ended then
      if x.2.engine.isSome then dropFrame 0x0F x.1 v else frameBad 0x0F x.1 v else v) s.begin) :
    exec (.ebSlip n) s = .next
      (raise R.LNK_PORT_EVENT_EB_SLIP (setF R.LNK_LANE_STAT_EB_FILL 32 u n) (portOfLane s n)) := by
  subst hu
  exact ran_ite_pos (c := hasEb s n = true) h

theorem exec_lpiRx (hl : laneUp s p = true) (hp : isPort s p = true) :
    exec (.lpiRx p) s = .next (whenS (!s.lnk.lpi.contains p) (fun s => raise R.LNK_PORT_EVENT_LPI_RX s p)
      (bump R.LNK_CNT_LPI_COUNT { s.begin with lnk := { s.lnk with lpi := setIn p true s.lnk.lpi } } p)) :=
  ran_ite_pos (c := (laneUp s p && isPort s p) = true) (by simp [hl, hp])

/-! #### Requests of a recalibration (R255, R256) -/

theorem writeRecal_full : writeRecal n 2 s = requestRecal n true s := rfl

theorem writeRecal_partial : writeRecal n 1 s = requestRecal n false s := rfl

theorem requestRecal_refused {full : Bool} (h : recalRefused s n full = true) :
    requestRecal n full s = raise R.LNK_PORT_EVENT_RECAL_REFUSED s n := if_pos h

/-- A PARTIAL recalibration that is accepted takes its lane alone. -/
theorem requestRecal_partial (h : recalRefused s n false = false)
    (hu : u = setFlag R.LNK_CAL_STAT_LAST_KIND true (setF R.LNK_CAL_STAT_RESULT 3 s n) n) :
    requestRecal n false s = borrow { u with lnk := { u.lnk with part := setIn n true u.lnk.part } } := by
  subst hu
  exact if_neg (by simp [h])

theorem requestRecal_partial_runs (h : recalRefused s n false = false) : ∃ u, requestRecal n false s = borrow u ∧
    u.lnk.part = setIn n true s.lnk.part ∧ getF u R.LNK_CAL_STAT_RESULT n = 3 := by
  obtain ⟨v, hv⟩ : ∃ v, v = setFlag R.LNK_CAL_STAT_LAST_KIND true (setF R.LNK_CAL_STAT_RESULT 3 s n) n := ⟨_, rfl⟩
  have hlnk : v.lnk = s.lnk := by rw [hv, setFlag_lnk, setF_lnk]
  have hres : getF v R.LNK_CAL_STAT_RESULT n = 3 := by
    rw [hv, setFlag, getF_setF_place (by decide), getF_setF_same]
    rfl
  exact ⟨_, requestRecal_partial h hv, by rw [hlnk], hres⟩

/-! #### The end of a recalibration (R255) -/

/-- What follows the results of a recalibration of lane `n`: its port settles, the channel goes back, the plan goes on. -/
def recalOver (n : Nat) (v : State) : State :=
  planTurn (giveBack (forcePort (portOfLane v n) (settlePort (portOfLane v n) v)))

variable {fin : RecalEnd} {a : Int}

/-- The results of a recalibration that ends: PARTIAL or not, with the analog sum `a`. -/
theorem exec_recalComplete {part : Bool} (hl : laneUp s fin.cal.lane = true) (hb : s.tdc.borrowed.isSome = true)
    (hr : fin.cal.lane ∈ s.lnk.part ∨ fin.cal.lane ∈ s.lnk.full) (hp : s.lnk.part.contains fin.cal.lane = part)
    (ha : a = if part = true then getS s R.LNK_CAL_LOOP_A fin.cal.lane * 65536 else calA fin.cal)
    (hu : u = calStat fin.cal (calPass fin.cal a) part (whenS (!part) (quadStep (quadOf fin.cal.lane) fin.load)
      { s.begin with lnk := { s.lnk with
          part := setIn fin.cal.lane false s.lnk.part, full := setIn fin.cal.lane false s.lnk.full } })) :
    exec (.recalComplete fin) s = .next (recalOver fin.cal.lane (if calPass fin.cal a = true then
        let v := noteTemp fin.cal.lane (canSite fin.cal.lane)
          (newConstants fin.cal.lane (if part = true then calPartial fin.cal a else calFull fin.cal) u)
        raise R.TSU_EVENT_CAL_UPDATED (if part = true then v else setF R.LNK_CAL_LOOP_A (toU 32 (to16 a))
          (setF R.TSU_STATUS_CAL_VALID 1 v fin.cal.lane) fin.cal.lane) fin.cal.lane
      else raise R.LNK_PORT_EVENT_CAL_FAIL u fin.cal.lane)) := by
  subst hu ha hp
  exact ran_ite_pos (c := (laneUp s fin.cal.lane && s.tdc.borrowed.isSome &&
    (s.lnk.part.contains fin.cal.lane || s.lnk.full.contains fin.cal.lane)) = true) (by simpa [hl, hb] using hr)

section

variable (hl : laneUp s fin.cal.lane = true) (hb : s.tdc.borrowed.isSome = true)

section

variable (hf : fin.cal.lane ∈ s.lnk.full) (hp : fin.cal.lane ∉ s.lnk.part)
  (hu : u = calStat fin.cal (calPass fin.cal (calA fin.cal)) false (quadStep (quadOf fin.cal.lane) fin.load
    { s.begin with lnk := { s.lnk with
        part := setIn fin.cal.lane false s.lnk.part, full := setIn fin.cal.lane false s.lnk.full } }))

include hl hb hf hp hu

theorem exec_recalComplete_full_fails (h : calPass fin.cal (calA fin.cal) = false) :
    exec (.recalComplete fin) s = .next (recalOver fin.cal.lane (raise R.LNK_PORT_EVENT_CAL_FAIL u fin.cal.lane)) := by
  rw [exec_recalComplete hl hb (.inr hf) (part := false) (a := calA fin.cal) (by simpa using hp) rfl hu, if_neg (by simp [h])]

theorem exec_recalComplete_full_passes (h : calPass fin.cal (calA fin.cal) = true) :
    exec (.recalComplete fin) s = .next (recalOver fin.cal.lane (raise R.TSU_EVENT_CAL_UPDATED
      (setF R.LNK_CAL_LOOP_A (toU 32 (to16 (calA fin.cal))) (setF R.TSU_STATUS_CAL_VALID 1
        (noteTemp fin.cal.lane (canSite fin.cal.lane) (newConstants fin.cal.lane (calFull fin.cal) u)) fin.cal.lane) fin.cal.lane)
      fin.cal.lane)) := by
  rw [exec_recalComplete hl hb (.inr hf) (part := false) (a := calA fin.cal) (by simpa using hp) rfl hu, if_pos h]
  rfl

end

section

variable (hp : fin.cal.lane ∈ s.lnk.part) (ha : a = getS s R.LNK_CAL_LOOP_A fin.cal.lane * 65536)
  (hu : u = calStat fin.cal (calPass fin.cal a) true { s.begin with lnk := { s.lnk with
    part := setIn fin.cal.lane false s.lnk.part, full := setIn fin.cal.lane false s.lnk.full } })

include hl hb hp ha hu

theorem exec_recalComplete_partial_fails (h : calPass fin.cal a = false) :
    exec (.recalComplete fin) s = .next (recalOver fin.cal.lane (raise R.LNK_PORT_EVENT_CAL_FAIL u fin.cal.lane)) := by
  rw [exec_recalComplete hl hb (.inl hp) (part := true) (by simpa using hp) ha hu, if_neg (by simp [h])]

theorem exec_recalComplete_partial_passes (h : calPass fin.cal a = true) :
    exec (.recalComplete fin) s = .next (recalOver fin.cal.lane (raise R.TSU_EVENT_CAL_UPDATED
      (noteTemp fin.cal.lane (canSite fin.cal.lane) (newConstants fin.cal.lane (calPartial fin.cal a) u)) fin.cal.lane)) := by
  rw [exec_recalComplete hl hb (.inl hp) (part := true) (by simpa using hp) ha hu, if_pos h]
  rfl

end

end

/-! #### The calibration of a quad (R238) -/

theorem exec_quadCalibrationDone {load : Int} {lanes : List LaneCal} (hi : islUp s (islLANE k) = true) (hk : k ∈ s.lnk.quadCal)
    (hu : u = (lanes.filter fun c => quadOf c.lane = k).foldl (fun s c => laneStep c s) (quadStep k load s.begin)) :
    exec (.quadCalibrationDone k load lanes) s = .next (forceAll (settleAll (setF R.LNK_GSTAT_CAL_FAILED_LANES (failedLanes u)
      { u with lnk := { u.lnk with quadCal := setIn k false u.lnk.quadCal } }))) := by
  subst hu
  exact ran_ite_pos (c := (islUp s (islLANE k) && s.lnk.quadCal.contains k) = true) (by simp [hi, hk])

end

/-- Settles O33: a register write by its access, a request by whether it is refused, a recalibration that ends by its kind and by
whether its measurements pass. -/
theorem lanesAreConfiguredAndRecalibrated : Obligations.LanesAreConfiguredAndRecalibrated := by
  unfold Obligations.LanesAreConfiguredAndRecalibrated
  exact ⟨fun req val s => ran_writeAt_of_reaches, fun req val n s => ran_writeAt_of_reaches,
    fun req val n s => ran_writeAt_of_reaches, fun n val s => ⟨writeTxeq_beyond, writeTxeq_within⟩,
    fun n s hl hw => ⟨_, rfl, exec_txDriverAwake hl hw rfl⟩, fun n fill s h => ⟨_, rfl, exec_ebIdleAdjust h rfl⟩,
    fun n s h => ⟨_, exec_ebSlip h rfl, rfl⟩, fun n s => hasEb_iff, fun p s => exec_lpiRx,
    fun req val n s => ran_writeAt_of_reaches, fun req val n s => ran_writeAt_of_reaches,
    fun n s => ⟨fun h => writeRecal_full.trans (requestRecal_refused h),
      fun h => writeRecal_partial.trans (requestRecal_refused h), requestRecal_partial_runs⟩,
    fun fin s hl hb hf hp => ⟨_, rfl, fun h => ⟨_, rfl, exec_recalComplete_full_fails hl hb hf hp rfl h⟩,
      fun h => ⟨_, rfl, exec_recalComplete_full_passes hl hb hf hp rfl h⟩⟩,
    fun fin a s hl hb hp ha => ⟨_, rfl, fun h => ⟨_, rfl, exec_recalComplete_partial_fails hl hb hp ha rfl h⟩,
      fun h => ⟨_, rfl, exec_recalComplete_partial_passes hl hb hp ha rfl h⟩⟩,
    fun k load lanes s hi hk => ⟨_, rfl, exec_quadCalibrationDone hi hk rfl⟩, fun quads lanes outs us s => ⟨_, rfl, rfl⟩⟩

end Sys2Proof.Machine

/-! Proofs about ingress and streams (spec/09): the head and the tail of a frame (R258, R259), learning and ageing (R266, R267,
R273, R274), and the commands for streams (spec/13 R375, spec/09 R272, R273). -/

namespace Sys2Proof.Machine

/-! ### The head and the tail of a frame (R258, R259) -/

/-- A refusal that is guarded by the negation of what holds. -/
theorem not_bnot_of_true {b : Bool} (h : b = true) : ¬ (!b) = true := by simp [h]

section

variable {s : State} {f c : Nat} {x : Frame} {g : IngRes}

/-! The outputs of the step before (`State.begin`) have no part in the frames and the islands. -/

@[simp] theorem frameAt_begin : frameAt s.begin f = frameAt s f := rfl
@[simp] theorem islUp_begin {n : Nat} : islUp s.begin n = islUp s n := rfl

section

variable (hx : frameAt s f = some x) (hh : x.headDone = false) (he : x.ended = true ∨ 128 ≤ x.octets.length)
include hh he

/-- The head is there and has not passed yet. -/
theorem head_waits : ¬ (x.headDone || !(x.ended || decide (128 ≤ x.octets.length))) = true := by
  rcases he with he | he <;> simp [hh, he]

include hx

theorem exec_ingressHead {u : State} (hu : u = ingressHead f { s.begin with buf := { s.buf with lastDrop := 0 } }) :
    exec (.ingressHead f) s = .next (match frameAt u f with | some _ => u | none => txDecided x false u) := by
  subst hu
  show ran (ingressFrame f s.begin) = _
  simp only [ingressFrame, frameAt_begin, hx, if_neg (head_waits hh he)] <;> rfl

theorem ingressHead_lost (hd : islUp s (islPIPE 0) = false ∨ islUp s (pipeOf x.port) = false ∨ headCross s x.port = false) :
    ingressHead f s = sumpCount 0x10 x.port none (forgetFrame f s) := by
  have hd' : (!islUp s (islPIPE 0) || !islUp s (pipeOf x.port) || !headCross s x.port) = true := by
    rcases hd with hd | hd | hd <;> simp [hd]
  simp only [ingressHead, hx, if_neg (head_waits hh he), if_pos hd']

/-- A head that reaches the pipeline with no message of PTP and no directed port passes the stages. -/
theorem ingressHead_stages (h0 : islUp s (islPIPE 0) = true) (hp : islUp s (pipeOf x.port) = true)
    (hc : headCross s x.port = true) (hd : x.directed = none) (hm : (parse (x.octets.take 128)).ptpOff = none) :
    ingressHead f s = ingStages f { x with ptp := none, dom := none, headDone := true, tfwd := false }
      (parse (x.octets.take 128)) none (bump R.ING_CNT_HEADS_COUNT s x.port) := by
  have hd' : ¬ (!islUp s (islPIPE 0) || !islUp s (pipeOf x.port) || !headCross s x.port) = true := by simp [h0, hp, hc]
  simp only [ingressHead, hx, if_neg (head_waits hh he), if_neg hd', hm, Option.bind_none, Option.map_none, hd]
  rfl

end

/-- Bringing the shaper levels up to date writes no register. -/
@[simp] theorem getF_touchFrame {fl : Fld} {i : Nat} : getF (touchFrame f s) fl i = getF s fl i :=
  getF_congr ((keeps_touchFrame (W := 16384) rfl keeps_refl).same.regs rfl)

/-- The class of a frame after its tail pass: PTP's, the meter's, the gate's or the one it has (R258). -/
def tailTc (g : IngRes) (ipv : Nat) (ytc : Option Nat) (s : State) : Nat :=
  if g.ptpTc then getF s R.PTE_GCFG_PTP_TC else ytc.getD (if ipv = 15 then g.tc else ipv % 8)

section

variable (hx : frameAt s f = some x) (h0 : islUp s (islPIPE 0) = true) (hp : islUp s (pipeOf x.port) = true)
include hx h0 hp

theorem exec_ingressTailPass : exec (.ingressTailPass f) s = .next (tailPass f s.begin) := by
  show execIngressTailPass f s = _
  simp only [execIngressTailPass, frameAt_begin, hx, islUp_begin, h0, hp, Bool.and_self, if_true, ran_eq]

variable {y : Frame} {t : State} {chk : Checked} (hg : x.ing = some g) (hc : g.ctx = some c) (ht : x.needTail = true)
  (he : x.ended = true) (hy : y = { x with needTail := false })
include hg hc ht he hy

theorem exec_ingressTailPass_drop {r : Nat}
    (hk : checkTail y g c (bump R.ING_CNT_TAIL_PASS_COUNT s.begin x.port) = (.drop r, t)) :
    exec (.ingressTailPass f) s = .next (dropFrame r f (setFrame f (some y) t)) := by
  subst hy
  simp only [hg, he] at hk
  rw [exec_ingressTailPass hx h0 hp]
  simp [tailPass, hx, hg, hc, ht, he, hk]

theorem exec_ingressTailPass_pass {ipv : Nat} {de : Bool} {ytc : Option Nat} {tc : Nat}
    (hk : checkTail y g c (bump R.ING_CNT_TAIL_PASS_COUNT s.begin x.port) = (.pass ipv de ytc, t))
    (htc : tc = tailTc g ipv ytc (touchFrame f t)) :
    exec (.ingressTailPass f) s = .next (ctxBump c 13 0 32 (setFrame f
      (some { y with ing := some { g with tc := tc, de := de }, copies := y.copies.map fun q => { q with tc := tc, de := de } })
      (y.copies.foldl (fun s q => shaperTouch q.out tc s) (touchFrame f t)))) := by
  subst hy htc
  simp only [hg, he] at hk
  rw [exec_ingressTailPass hx h0 hp]
  simp [tailPass, hx, hg, hc, ht, he, hk, tailTc]

end

end

/-! ### Learning and ageing (R266, R267, R273, R274) -/

section

variable {s : State} {k key p port i c t : Nat} {ks : List Nat}

theorem takeReq_found {q : LearnReq → Bool} {r : LearnReq} (h : s.ing.queue.find? q = some r) :
    takeReq q s = (some r, { s with ing := { s.ing with queue := s.ing.queue.erase r } }) := by
  simp only [takeReq, h]

/-- What LEARN_INSERT makes of what it took off the queue. -/
def macTaken : Option LearnReq × State → State
  | (some (.mac k p), s) => learnInsert k p s
  | (_, s) => s

theorem exec_learnInsert (hu : islUp s (islPIPE 0) = true)
    (hq : (s.ing.queue.find? fun r => match r with | .mac _ _ => true | _ => false) = some (.mac k p)) :
    exec .learnInsert s =
      .next (learnInsert k p { s.begin with ing := { s.ing with queue := s.ing.queue.erase (.mac k p) } }) := by
  have hu' : islUp s.begin (islPIPE 0) = true := hu
  exact (ran_ite_pos hu').trans (congrArg (fun q => Host.Outcome.next (macTaken q)) (takeReq_found (s := s.begin) hq))

/-- What STREAM_LEARN makes of what it took off the queue. -/
def streamTaken : Option LearnReq × State → State
  | (some (.stream k t), s) => streamLearn k t s
  | (_, s) => s

theorem exec_streamLearn (hu : islUp s (islPIPE 0) = true)
    (hq : (s.ing.queue.find? fun r => match r with | .stream _ _ => true | _ => false) = some (.stream ks t)) :
    exec .streamLearn s =
      .next (streamLearn ks t { s.begin with ing := { s.ing with queue := s.ing.queue.erase (.stream ks t) } }) := by
  have hu' : islUp s.begin (islPIPE 0) = true := hu
  exact (ran_ite_pos hu').trans (congrArg (fun q => Host.Outcome.next (streamTaken q)) (takeReq_found (s := s.begin) hq))

/-! #### An address that is learned (R266) -/

theorem learnInsert_known {e : List Nat} (h : fdbFind s key = some (i, e)) :
    learnInsert key port s =
      if fdbStatic e then s else fullWrite 3 i (setTbl 2 i (fdbMake key false false port (nowSec s)) s) := by
  simp only [learnInsert, h]

theorem learnInsert_within (hn : fdbFind s key = none) (hf : fdbFree s key = some i)
    (h : getF s R.ING_PORT_LEARN_LIMIT port = 0 ∨ learnedOn s port < getF s R.ING_PORT_LEARN_LIMIT port) :
    learnInsert key port s = fullWrite 3 i (setTbl 2 i (fdbMake key false false port (nowSec s)) s) := by
  have hl : (decide (getF s R.ING_PORT_LEARN_LIMIT port ≠ 0) &&
      decide (learnedOn s port ≥ getF s R.ING_PORT_LEARN_LIMIT port)) = false := by
    rcases h with h | h
    · simp [h]
    · simp [Nat.not_le.mpr h]
  simp only [learnInsert, hn, hl, whenS_false, hf, Bool.false_eq_true, if_false]

/-- An event leaves the forwarding database. -/
theorem fdbFree_raise {f : Fld} {a b : Nat} : fdbFree (raise f s a b) key = fdbFree s key := by
  simp only [fdbFree, tblEntry, raise_ing]

theorem learnInsert_full (hn : fdbFind s key = none) (hf : fdbFree s key = some i)
    (h0 : getF s R.ING_PORT_LEARN_LIMIT port ≠ 0) (hl : getF s R.ING_PORT_LEARN_LIMIT port ≤ learnedOn s port) :
    learnInsert key port s = raise R.ING_EVENT_FDB_LIMIT s 0 port := by
  have hl : (decide (getF s R.ING_PORT_LEARN_LIMIT port ≠ 0) &&
      decide (learnedOn s port ≥ getF s R.ING_PORT_LEARN_LIMIT port)) = true := by simp [h0, hl]
  simp only [learnInsert, hn, hl, whenS_true, fdbFree_raise, hf, if_true]

/-! #### The sweep (R267, R274) -/

@[simp] theorem tblEntry_begin : tblEntry s.begin t i = tblEntry s t i := rfl
@[simp] theorem nowSec_begin : nowSec s.begin = nowSec s := rfl
@[simp] theorem ctxF_begin {w lo n : Nat} : ctxF s.begin c w lo n = ctxF s c w lo n := rfl
@[simp] theorem ctxValid_begin : ctxValid s.begin c = ctxValid s c := rfl

theorem exec_ageingSweepVisit_entry (hu : islUp s (islPIPE 0) = true) :
    exec (.ageingSweepVisit false i) s = .next (
      if bitOf (tw (tblEntry s 2 i) 2) 31 = true ∧ fdbStatic (tblEntry s 2 i) = false ∧ getF s R.ING_GCFG_AGE_S ≠ 0 ∧
          getF s R.ING_GCFG_AGE_S ≤ hitAge 32 (tw (tblEntry s 2 i) 3) (nowSec s) (getF s R.ING_GCFG_AGE_S)
      then setTbl 2 i [] s.begin else s.begin) := by
  have hd : ¬ (!islUp s.begin (islPIPE 0)) = true := not_bnot_of_true hu
  refine (ran_ite_neg hd).trans (congrArg Host.Outcome.next ((if_neg Bool.false_ne_true).trans
    (ite_congr (propext ?_) (fun _ => rfl) fun _ => rfl)))
  simp only [Bool.and_eq_true, Bool.not_eq_true', decide_eq_true_eq, and_assoc]
  simp

/-- The refill of the meter of context `i` at its visit, as the sweep tests for it (R274). -/
def visitRefill (i : Nat) (s : State) : State :=
  if ctxValid s i && ctxF s i 6 21 1 == 1 then (meterRefill i (tblNow s / unitNs) s).2 else s

theorem visitRefill_eq : visitRefill i s =
    if ctxValid s i = true ∧ ctxF s i 6 21 1 = 1 then (meterRefill i (tblNow s / unitNs) s).2 else s :=
  ite_congr (by simp) (fun _ => rfl) fun _ => rfl

theorem exec_ageingSweepVisit_context {u : State} (hu : islUp s (islPIPE 0) = true)
    (ht : u = if ctxValid s i = true ∧ ctxF s i 6 63 1 = 1 ∧ getF s R.ING_LEARN_CFG_AGE_S ≠ 0 ∧
        getF s R.ING_LEARN_CFG_AGE_S ≤ hitAge 16 (ctxF s i 15 0 16) (nowSec s) (getF s R.ING_LEARN_CFG_AGE_S) ∧
        ∀ d ∈ s.ing.dels, d.1 ≠ i
      then raise R.ING_EVENT_STREAM_AGED (ctxDelete i s.begin) 0 i else s.begin) :
    exec (.ageingSweepVisit true i) s = .next (
      if ctxValid u i = true ∧ ctxF u i 6 21 1 = 1 then (meterRefill i (tblNow u / unitNs) u).2 else u) := by
  have hd : ¬ (!islUp s.begin (islPIPE 0)) = true := not_bnot_of_true hu
  subst ht
  rw [← visitRefill_eq]
  refine (ran_ite_neg hd).trans ((congrArg Host.Outcome.next (if_pos rfl)).trans
    (congrArg (fun v => Host.Outcome.next (visitRefill i v)) (ite_congr (propext ?_) (fun _ => rfl) fun _ => rfl)))
  simp only [Bool.and_eq_true, decide_eq_true_eq, and_assoc, beq_iff_eq]
  simp

/-- A hit that lies ahead of the second is taken as one of now (entry 163). -/
theorem hitAge_ahead {w hit sec age d : Nat} (hd : d = (sec + 2 ^ w - hit % 2 ^ w) % 2 ^ w)
    (h : 2 ^ (w - 1) ≤ d ∧ age < 2 ^ (w - 1)) : hitAge w hit sec age = 0 := by
  subst hd
  exact if_pos (by simpa using h)

theorem hitAge_past {w hit sec age d : Nat} (hd : d = (sec + 2 ^ w - hit % 2 ^ w) % 2 ^ w)
    (h : ¬ (2 ^ (w - 1) ≤ d ∧ age < 2 ^ (w - 1))) : hitAge w hit sec age = d := by
  subst hd
  exact if_neg (by simpa using h)

/-! #### The end of a deletion (R273) -/

theorem exec_streamDeleteClear {d : Nat × Int} {r : Bool × State}
    (hd : (s.ing.dels.find? fun d => d.1 == c && decide (d.2 ≤ tblNow s)) = some d)
    (hr : r = narrowWrite 9 (16 * c) { s.begin with ing := { s.ing with dels := s.ing.dels.erase d } }) :
    exec (.streamDeleteClear c) s = .next (if r.1 then setCtxF c 0 63 1 0 r.2 else r.2) := by
  have hd' : (s.begin.ing.dels.find? fun d => d.1 == c && decide (d.2 ≤ tblNow s.begin)) = some d := hd
  subst hr
  show execStreamDeleteClear c s = _
  simp only [execStreamDeleteClear, hd', whenS, ran_eq]
  rfl

end

/-- Settles O36: each command by its guard and what it finds, a learned address by the entry, the limit and the free place, an
age by the side of the second on which the hit lies. The loss under CROSSING where the pipeline is down is entry 130, a hit
ahead of the second entry 163. -/
theorem ingressDecidesLearnsAndAges : Obligations.IngressDecidesLearnsAndAges := by
  unfold Obligations.IngressDecidesLearnsAndAges
  exact ⟨fun f x s hx hh he => ⟨_, rfl, exec_ingressHead hx hh he rfl⟩, fun f x s => ingressHead_lost,
    fun f x s => ingressHead_stages,
    fun f c x g s hx h0 hp hg hc ht he => ⟨_, _, rfl, rfl,
      fun r hk => exec_ingressTailPass_drop hx h0 hp hg hc ht he rfl (Prod.ext hk rfl),
      fun ipv de ytc hk => ⟨_, rfl, exec_ingressTailPass_pass hx h0 hp hg hc ht he rfl (Prod.ext hk rfl) rfl⟩⟩,
    fun k p s => exec_learnInsert, fun key port i s hn hf => ⟨learnInsert_within hn hf, learnInsert_full hn hf⟩,
    fun key port i e s => learnInsert_known, fun k t s => exec_streamLearn, fun i s => exec_ageingSweepVisit_entry,
    fun i s hu => ⟨_, rfl, exec_ageingSweepVisit_context hu rfl⟩,
    fun w hit sec age d hd => ⟨hitAge_ahead hd, hitAge_past hd⟩,
    fun c d s hd => ⟨_, rfl, exec_streamDeleteClear hd rfl⟩⟩

/-! ### Commands for streams (R272, R273, R375) -/

/-! #### STREAM_ADD (R375) -/

/-- The context words of STREAM_ADD: the first 128 octets of its buffer. -/
def addCtx (c : Cmd) : List Nat := join32 ((leWords (bufOf c)).take 32)

/-- The words for the function of RED: the 16 octets behind the context. -/
def addFn (c : Cmd) : List Nat := (leWords (bufOf c)).drop 32

/-- The context words have VALID and a METHOD that is used. -/
def ctxUsable (ws : List Nat) : Prop :=
  bitOf (ws.getD 0 0) 63 = true ∧ 1 ≤ bitsOf (ws.getD 0 0) 60 3 ∧ bitsOf (ws.getD 0 0) 60 3 ≤ 4

theorem ctxUsable_iff {ws : List Nat} : ctxUsable ws ↔ (!bitOf (ws.getD 0 0) 63 ||
    decide (bitsOf (ws.getD 0 0) 60 3 = 0) || decide (bitsOf (ws.getD 0 0) 60 3 > 4)) = false := by
  unfold ctxUsable
  generalize ws.getD 0 0 = w
  simp [Nat.one_le_iff_ne_zero, and_assoc]

/-- PIPE0 is reached, and RED too where the command has a function of RED. -/
theorem streamAdd_reaches {v : State} {c : Cmd} {fn : Bool} (hp : hostReaches v (islPIPE 0) = true) (hf : bitOf c.p1 31 = fn)
    (hd : fn = true → hostReaches v islRED = true) :
    ¬ (!hostReaches v (islPIPE 0) || (bitOf c.p1 31 && !hostReaches v islRED)) = true := by
  simpa [hp, hf] using hd

section

variable {s v : State} {r : Nat} {c : Cmd} (hr : cmdReady s r = true) (hv : slotIn r s.begin = (true, v))
  (hp : hostReaches v (islPIPE 0) = true)
include hr hv hp

section

variable {fn : Bool} (hf : bitOf c.p1 31 = fn) (hd : fn = true → hostReaches v islRED = true)
  (hl : c.len = if fn = true then 144 else 128)
include hf hd hl

theorem exec_streamAdd_unusable (h : ¬ ctxUsable (addCtx c)) :
    exec (.streamAdd r c) s = .next (finish r c csBAD_PARAM v) := by
  have hb := streamAdd_reaches hp hf hd
  have hl' : ¬ c.len ≠ (if bitOf c.p1 31 = true then 144 else 128) := not_not_intro (hf ▸ hl)
  have hu := eq_true_of_ne_false (mt ctxUsable_iff.mpr h)
  exact (onRing_read hr hv).trans (congrArg _ ((if_neg hb).trans ((if_neg hl').trans (if_pos hu))))

/-- A usable context that is not there yet is added, with its function of RED where the command has one. -/
theorem exec_streamAdd {u : State} (h : ctxUsable (addCtx c))
    (hn : fn = true → (bitsOf ((addFn c).getD 0 0) 29 2 ≠ 2 ∨ hasReseq v = true) ∧ pathsAbsent v ((addFn c).getD 2 0) = false)
    (hx : ctxValid v (c.p0 % 16384) = false) (ha : ctxAdd (c.p0 % 16384) (addCtx c) v = (stDone, u)) :
    exec (.streamAdd r c) s =
      .next (finish r c csOK (whenS fn (writeFn (bitsOf ((addCtx c).getD 12 0) 48 12) (addFn c)) u)) := by
  have hb := streamAdd_reaches hp hf hd
  have hl' : ¬ c.len ≠ (if bitOf c.p1 31 = true then 144 else 128) := not_not_intro (hf ▸ hl)
  have hu := Bool.eq_false_iff.mp (ctxUsable_iff.mp h)
  have hw : ¬ (bitOf c.p1 31 && ((bitsOf ((addFn c).getD 0 0) 29 2 == 2 && !hasReseq v) ||
      pathsAbsent v ((addFn c).getD 2 0))) = true := by
    rw [hf, Bool.and_eq_true]
    rintro ⟨hfn, hbad⟩
    obtain ⟨hseq, hpath⟩ := hn hfn
    rcases hseq with hseq | hseq <;> simp [-List.getD_eq_getElem?_getD, hseq, hpath] at hbad
  have hx' : ¬ ctxValid v (c.p0 % 16384) = true := by simp [hx]
  subst hf
  refine (onRing_read hr hv).trans (congrArg _ ((if_neg hb).trans ((if_neg hl').trans ((if_neg hu).trans
    ((if_neg hw).trans ((if_neg hx').trans ?_))))))
  have hs : ¬ (ctxAdd (c.p0 % 16384) (addCtx c) v).1 ≠ stDone := by simp [ha]
  refine (if_neg hs).trans ?_
  show finish r c csOK (whenS _ _ (ctxAdd (c.p0 % 16384) (addCtx c) v).2) = _
  rw [ha]
  rfl

end

/-! #### STREAM_DELETE, STREAM_MODIFY and STREAM_READ (R272, R273) -/

theorem exec_streamDelete (hl : c.len = 0) (hx : ctxLives v (c.p0 % 16384) = true) :
    exec (.streamDelete r c) s = .next (finish r c csOK (ctxDelete (c.p0 % 16384) v)) :=
  (onBare_read hr hv hl).trans (congrArg _ ((if_neg (not_bnot_of_true hp)).trans (if_pos hx)))

theorem exec_streamModify (hl : c.len = 56) (hx : ctxLives v (c.p0 % 16384) = true) :
    exec (.streamModify r c) s = .next (finish r c csOK (ctxModify (c.p0 % 16384) (join32 (leWords (bufOf c))) v)) :=
  (onRing_read hr hv).trans (congrArg _
    ((if_neg (not_bnot_of_true hp)).trans ((if_neg (not_not_intro hl)).trans (if_pos hx))))

theorem exec_streamDelete_notFound (hx : ctxLives v (c.p0 % 16384) = false) (hl : c.len = 0) :
    exec (.streamDelete r c) s = .next (finish r c csNOT_FOUND v) :=
  (onBare_read hr hv hl).trans (congrArg _ ((if_neg (not_bnot_of_true hp)).trans (if_neg (Bool.eq_false_iff.mp hx))))

theorem exec_streamModify_notFound (hx : ctxLives v (c.p0 % 16384) = false) (hl : c.len = 56) :
    exec (.streamModify r c) s = .next (finish r c csNOT_FOUND v) :=
  (onRing_read hr hv).trans (congrArg _
    ((if_neg (not_bnot_of_true hp)).trans ((if_neg (not_not_intro hl)).trans (if_neg (Bool.eq_false_iff.mp hx)))))

/-- The words of a context are delivered whether it is valid or not (entry 52). -/
theorem exec_streamRead (hl : c.len = 128) : exec (.streamRead r c) s =
    .next (complete r c csOK [] (wordOctets (split64 (ctxWords v (c.p0 % 16384)))) v) :=
  (onRing_read hr hv).trans (congrArg _ ((if_neg (not_bnot_of_true hp)).trans (if_neg (not_not_intro hl))))

end

/-- A context whose deletion has begun lives no more (R273). -/
theorem ctxLives_ctxDelete {x : Nat} {s : State} : ctxLives (ctxDelete x s) x = false := by
  simp [ctxLives, ctxDelete]

/-- Settles O46: STREAM_ADD by the tests of its words, the other commands by whether their context lives. That STREAM_READ
answers OK for a context that is not valid is entry 52. -/
theorem streamCommandsAddDeleteModifyAndReadContexts : Obligations.StreamCommandsAddDeleteModifyAndReadContexts := by
  unfold Obligations.StreamCommandsAddDeleteModifyAndReadContexts
  refine ⟨fun r c s v u hr hv hp hf hl hval hlo hhi hx ha => ?_,
    fun r c s v u hr hv hp hd hf hl hval hlo hhi hseq hpath hx ha => ?_,
    fun r c s v hr hv hp hf hl h => ?_,
    fun r c s v hr hv hl hp => exec_streamDelete hr hv hp hl, fun r c s v hr hv hp => exec_streamModify hr hv hp,
    fun r c s v hr hv hp hx => ⟨exec_streamDelete_notFound hr hv hp hx, exec_streamModify_notFound hr hv hp hx⟩,
    fun r c s v hr hv hp => exec_streamRead hr hv hp, fun x s => ctxLives_ctxDelete⟩
  · have h := exec_streamAdd hr hv hp hf (fun h => nomatch h) hl ⟨hval, hlo, hhi⟩ (fun h => nomatch h) hx ha
    rwa [whenS_false] at h
  · have h := exec_streamAdd hr hv hp hf (fun _ => hd) hl ⟨hval, hlo, hhi⟩ (fun _ => ⟨hseq, hpath⟩) hx ha
    rwa [whenS_true] at h
  · refine exec_streamAdd_unusable hr hv hp hf (fun h => nomatch h) hl ?_
    rintro ⟨hval, hlo, hhi⟩
    rcases h with h | h | h
    · exact Bool.eq_false_iff.mp h hval
    · exact Nat.ne_of_gt hlo h
    · exact Nat.not_le.mpr h hhi

end Sys2Proof.Machine

/-! Proofs about egress control (spec/11): the shapers (R319), the gate lists and their change (R320 to R325), verification (R330)
and the egress tables (R313, R334). -/

namespace Sys2Proof.Machine

/-! ### Gate lists (R320 to R325) -/

section

variable {s : State} {o off : Nat} {p : GatePend} {f : State → State}

/-- P64 and P65 have no gate registers: a write there meets no register (R8). -/
theorem frontOnly_internal (h : 64 ≤ o) : frontOnly o off f s = raise R.FLT_GEN_EVENT_REG_ACCESS_UNMAPPED s 0 off := if_pos h

theorem frontOnly_front (h : o < 64) : frontOnly o off f s = f s := if_neg (Nat.not_le.mpr h)

/-! #### COMMIT (R322, R324) -/

theorem gateCommitAdmin_busy (h : (egrPort s o).pend.isSome = true) :
    gateCommitAdmin o s = raise R.EGR_PORT_EVENT_GCL_BUSY s o := if_pos h

/-- The admin list keeps the conditions of R322 on its period and on its length. -/
structure AdminValid (s : State) (o : Nat) : Prop where
  period : (getPeriod s 0xD0140 0x100000 o).ok = true
  nonempty : 1 ≤ getF s R.EGR_GATE_LEN_ADMIN_LEN o
  fits : getF s R.EGR_GATE_LEN_ADMIN_LEN o ≤ 256
  atLeastMicrosecond : 1000 * (getPeriod s 0xD0140 0x100000 o).den ≤ (getPeriod s 0xD0140 0x100000 o).num

/-- A commit of a valid list with none pending starts a change at the time of R322. -/
theorem gateCommitAdmin_valid (hp : (egrPort s o).pend = none) (hv : AdminValid s o) :
    gateCommitAdmin o s =
      startChange o (changeTime s (getT96 s 0xD0120 0x100000 o).units (getPeriod s 0xD0140 0x100000 o))
        (getPeriod s 0xD0140 0x100000 o).den false s := by
  obtain ⟨hok, hlo, hhi, hcyc⟩ := hv
  have hfree : ¬ (egrPort s o).pend.isSome = true := by simp [hp]
  refine (if_neg hfree).trans (if_neg ?_)
  rintro (h0 | hbig | hbad | hshort)
  · omega
  · omega
  · simp [hok] at hbad
  · omega

/-! #### CANCEL and the change itself (R323, R324) -/

theorem gateCancel_idle (h : (egrPort s o).pend = none) : gateCancel o s = s := by simp only [gateCancel, h]

theorem gateCancel_pending (h : (egrPort s o).pend = some p) : gateCancel o s =
    if p.tc ≤ now s then gateSwap o (touchOut o s) else setEgrPort o { egrPort s o with pend := none } s := by
  simp only [gateCancel, h]

theorem exec_gateConfigChange (hp : (egrPort s o).pend = some p) (hu : islUp s islEGR = true) (ht : p.tc ≤ now s) :
    exec (.gateConfigChange o) s = .next (gateSwap o (touchOut o s.begin)) := by
  have hp' : (egrPort s.begin o).pend = some p := hp
  have hc : (islUp s.begin islEGR && decide (p.tc ≤ now s.begin)) = true := by
    rw [Bool.and_eq_true]
    exact ⟨hu, decide_eq_true ht⟩
  show execGateConfigChange o s = _
  simp only [execGateConfigChange, hp']
  exact ran_ite_pos hc

end

/-! ### Verification of the MAC merge sublayer (R330) -/

section

variable {s : State} {o : Nat}

theorem exec_mmVerifyEnd (ok : Bool) (hu : islUp s islEGR = true) (hv : getF s R.EGR_MM_STAT_VERIFY_STATUS o = 1) :
    exec (.mmVerifyEnd o ok) s = ran (if ok then setF R.EGR_MM_STAT_VERIFY_STATUS 2 s.begin o
      else raise R.EGR_PORT_EVENT_MM_VERIFY_FAIL (setF R.EGR_MM_STAT_VERIFY_STATUS 3 s.begin o) o) := by
  have hc : (islUp s islEGR && getF s R.EGR_MM_STAT_VERIFY_STATUS o == 1) = true := by simp [hu, hv]
  exact ran_ite_pos hc

/-- A verification under way that succeeds takes its outcome. -/
theorem exec_mmVerifyEnd_ok (hu : islUp s islEGR = true) (hv : getF s R.EGR_MM_STAT_VERIFY_STATUS o = 1) :
    exec (.mmVerifyEnd o true) s = .next (setF R.EGR_MM_STAT_VERIFY_STATUS 2 s.begin o) :=
  (exec_mmVerifyEnd true hu hv).trans (ran_ite_pos rfl)

/-- One that fails takes its outcome and raises its event. -/
theorem exec_mmVerifyEnd_failed (hu : islUp s islEGR = true) (hv : getF s R.EGR_MM_STAT_VERIFY_STATUS o = 1) :
    exec (.mmVerifyEnd o false) s =
      .next (raise R.EGR_PORT_EVENT_MM_VERIFY_FAIL (setF R.EGR_MM_STAT_VERIFY_STATUS 3 s.begin o) o) :=
  (exec_mmVerifyEnd false hu hv).trans (ran_ite_neg Bool.false_ne_true)

end

/-! ### Egress tables (R313, R334, R440) -/

section

variable {s : State} {m w o i v : Nat} {ws : List Nat}

theorem eccDead_setEcc_zero : eccDead (setEcc m w 0 s) m w = false :=
  beq_eq_false_iff_ne.mpr ((smGet_smPut_same 0 s.mon.ecc (m + 32 * w) 0).trans_ne (by decide))

/-- With no injection armed (R448) a full write leaves the word without an error. -/
theorem fullWrite_disarmed (h : flag s R.MON_ECC_INJECT_ARM = false) : fullWrite m w s = setEcc m w 0 s := by
  have h' : flag (setEcc m w 0 s) R.MON_ECC_INJECT_ARM = false := h
  simp [fullWrite, h']

/-- The oper list is read only: STATUS 0x2, and nothing changes. -/
theorem egrTblWrite_oper : egrTblWrite 2 o i ws s = (2, s) := rfl

/-- The state after the untagged set of VID `i` is written whole. -/
def untaggedPut (i v : Nat) (s : State) : State :=
  setEcc 12 i 0 { s with egr := { s.egr with untagged := smPut 0 s.egr.untagged i v } }

/-- The untagged set in the words of an access: P0 to P31, P32 to P63, P64 and P65 (EGR_TBL_DATA of spec/11). -/
def untaggedSet (ws : List Nat) : Nat :=
  ws.getD 0 0 % 2 ^ 32 + ws.getD 1 0 % 2 ^ 32 * 2 ^ 32 + ws.getD 2 0 % 2 ^ 32 % 4 * 2 ^ 64

theorem untaggedSet_word (hv : v < 2 ^ 32) : untaggedSet [v, 0, 0, 0] = v := by
  show v % 2 ^ 32 + 0 % 2 ^ 32 * 2 ^ 32 + 0 % 2 ^ 32 % 4 * 2 ^ 64 = v
  omega

theorem egrTblWrite_untagged (hi : i < 4096) (ha : flag s R.MON_ECC_INJECT_ARM = false) :
    egrTblWrite 0 o i ws s = (0, untaggedPut i (untaggedSet ws) s) := by
  have hbound : ¬ i ≥ 4096 := Nat.not_le.mpr hi
  simp only [egrTblWrite, if_neg hbound]
  rw [fullWrite_disarmed (flag_with_egr.trans ha), untaggedPut, untaggedSet]

/-- A word below 2³² that stands in the VLAN table is what DATA0 reads. -/
theorem egrTblRead_untaggedPut (hi : i < 4096) (hv : v < 2 ^ 32) :
    egrTblRead (untaggedPut i v s) 0 o i = (0, [v, 0, 0, 0]) := by
  have hget : smGet 0 (untaggedPut i v s).egr.untagged i = v := smGet_smPut_same _ _ _ _
  have hdead : eccDead (untaggedPut i v s) 12 i = false := eccDead_setEcc_zero
  have hwords : egrTblWords (untaggedPut i v s) 0 o i = (0, [v, 0, 0, 0]) := by
    have hlow : v % 2 ^ 32 = v := Nat.mod_eq_of_lt hv
    have hmid : v / 2 ^ 32 = 0 := Nat.div_eq_of_lt hv
    have htop : v / 2 ^ 64 = 0 := Nat.div_eq_of_lt (by omega)
    refine (if_neg (Nat.not_le.mpr hi)).trans ?_
    rw [hget, hlow, hmid, htop, Nat.zero_mod, Nat.zero_mod]
  simp [egrTblRead, hwords, egrTblMem, hdead]

end

/-- Settles O40: the register writes by where they reach, CANCEL, COMMIT and the change by what is pending, the tables by the
word that a full write leaves. -/
theorem shapersGatesAndEgressTablesAreControlled : Obligations.ShapersGatesAndEgressTablesAreControlled := by
  unfold Obligations.ShapersGatesAndEgressTablesAreControlled
  refine ⟨fun req c val o s => ran_writeAt_of_reaches,
    fun req c val o s => ⟨ran_writeAt_of_reaches, ran_writeAt_of_reaches⟩,
    fun req val o s => ran_writeAt_of_reaches, fun req val o s => ran_writeAt_of_reaches,
    fun req val o s => ran_writeAt_of_reaches, fun req val o s => ran_writeAt_of_reaches,
    fun o off val s => ⟨frontOnly_internal, frontOnly_front⟩,
    fun o s => ⟨gateCommitAdmin_busy, fun hp hok hlo hhi hcyc => gateCommitAdmin_valid hp ⟨hok, hlo, hhi, hcyc⟩,
      gateCancel_idle, fun p => gateCancel_pending⟩,
    fun o p s => exec_gateConfigChange, fun o s hu hv => ⟨exec_mmVerifyEnd_ok hu hv, exec_mmVerifyEnd_failed hu hv⟩,
    fun req val s => ran_writeAt_of_reaches, fun req val s => ran_writeAt_of_reaches,
    fun t o i v ws s hi hv ha => ⟨?_, egrTblWrite_oper⟩⟩
  rw [egrTblWrite_untagged hi ha, untaggedSet_word hv]
  exact egrTblRead_untaggedPut hi hv

end Sys2Proof.Machine

/-! Proofs about the empty queue, and about redundant paths (spec/12): the decision about a frame by its sequence number (R336 to
R341), and what a recovery function does on its own (R342 to R348). -/

namespace Sys2Proof.Machine

/-- Settles O2: the step's own case of an empty queue. -/
theorem emptyQueueIdles : Obligations.EmptyQueueIdles := by
  unfold Obligations.EmptyQueueIdles
  intro s h
  rw [step, h]

/-! ### Which register fields an operation writes -/

/-- The two fields lie at different places of BAR0, whatever their instances: registers without a window have one instance, those
of a window have one in each mebibyte. -/
def Fld.apart (g f : Fld) : Bool :=
  g.st % 0x100000 == 0 && f.st % 0x100000 == 0 && (g.off * 32 + g.lo) % 0x2000000 != (f.off * 32 + f.lo) % 0x2000000

/-- `t` has the register fields of `s`, the instances of the fields of `l` excepted. -/
def WritesFields (l : List Fld) (s t : State) : Prop :=
  ∀ (g : Fld) (j : Nat), l.all g.apart = true → getF t g j = getF s g j

section

variable {l m : List Fld} {s t u : State} {f g : Fld} {i j v n : Nat}

theorem Fld.key_mod (h : f.st % 0x100000 = 0) : f.key i % 0x2000000 = (f.off * 32 + f.lo) % 0x2000000 := by
  obtain ⟨k, hk⟩ := Nat.dvd_of_mod_eq_zero h
  rw [Fld.key, hk, Nat.mul_left_comm, Nat.add_mul, Nat.mul_right_comm, Nat.add_right_comm]
  exact Nat.add_mul_mod_self_left _ 0x2000000 _

theorem Fld.key_ne_of_apart (h : g.apart f = true) : g.key j ≠ f.key i := by
  simp only [Fld.apart, Bool.and_eq_true, beq_iff_eq, bne_iff_ne] at h
  obtain ⟨⟨hg, hf⟩, hne⟩ := h
  exact fun he => hne (by rw [← Fld.key_mod (i := j) hg, ← Fld.key_mod (i := i) hf, he])

theorem getF_setF_apart (h : g.apart f = true) : getF (setF f v s i) g j = getF s g j := getF_setF_ne (Fld.key_ne_of_apart h)

theorem getF_raiseAt_apart {a b : Nat} (h : g.apart f = true) : getF (raiseAt f i a b s) g j = getF s g j :=
  getF_raiseAt_ne (Fld.key_ne_of_apart h)

theorem getF_raise_apart {a b : Nat} (h : g.apart f = true) : getF (raise f s a b) g j = getF s g j := getF_raiseAt_apart h

theorem WritesFields.getF_eq (h : WritesFields l s t) (hg : l.all g.apart = true) : getF t g j = getF s g j := h g j hg

theorem WritesFields.flag_eq (h : WritesFields l s t) (hg : l.all g.apart = true) : flag t g j = flag s g j :=
  congrArg (· == 1) (h g j hg)

theorem WritesFields.refl : WritesFields l s s := fun _ _ _ => rfl

theorem WritesFields.trans (h : WritesFields l s t) (k : WritesFields l t u) : WritesFields l s u :=
  fun g j hg => (k g j hg).trans (h g j hg)

theorem WritesFields.mono (h : WritesFields m s t) (hs : m ⊆ l) : WritesFields l s t :=
  fun g j hg => h g j (List.all_eq_true.mpr fun f hf => List.all_eq_true.mp hg f (hs hf))

/-- What is no register does not count. -/
theorem WritesFields.of_regs (h : WritesFields l s t) (e : u.regs = t.regs) : WritesFields l s u :=
  fun g j hg => (getF_congr e).trans (h g j hg)

theorem WritesFields.setF (h : WritesFields l s t) (hf : f ∈ l) : WritesFields l s (setF f v t i) :=
  fun g j hg => (getF_setF_apart (List.all_eq_true.mp hg f hf)).trans (h g j hg)

theorem WritesFields.setFlag {b : Bool} (h : WritesFields l s t) (hf : f ∈ l) : WritesFields l s (setFlag f b t i) := h.setF hf

theorem WritesFields.bump (h : WritesFields l s t) (hf : f ∈ l) : WritesFields l s (bump f t i n) := h.setF hf

theorem WritesFields.raiseAt {a b : Nat} (h : WritesFields l s t) (hf : f ∈ l) : WritesFields l s (raiseAt f i a b t) :=
  fun g j hg => (getF_raiseAt_apart (List.all_eq_true.mp hg f hf)).trans (h g j hg)

theorem WritesFields.raise {a b : Nat} (h : WritesFields l s t) (hf : f ∈ l) : WritesFields l s (raise f t a b) := h.raiseAt hf

theorem WritesFields.raiseFault {a b c d : Nat} (h : WritesFields l s t) (hf : f ∈ l) :
    WritesFields l s (raiseFault f a b c d t) := (h.raiseAt hf).of_regs rfl

theorem WritesFields.ite {c : Prop} [Decidable c] (h : WritesFields l s t) (k : WritesFields l s u) :
    WritesFields l s (if c then t else u) := by split <;> assumption

theorem WritesFields.foldl {α : Type} {xs : List α} {e : State → α → State} (h : WritesFields l s t)
    (he : ∀ u x, WritesFields l s u → WritesFields l s (e u x)) : WritesFields l s (xs.foldl e t) :=
  List.foldlRecOn xs e h fun u hu x _ => he u x hu

end

/-! #### What the reads and writes of protected memories write (R440, R441, R448) -/

/-- The registers that report the errors of the memories, and the fault bits of uncorrectable ones. -/
def eccFields : List Fld :=
  [eccF R.MON_ECC_ADDR_UE, eccF R.MON_ECC_ADDR_SCRUB, eccF R.MON_ECC_ADDR_VALID, eccF R.MON_ECC_ADDR_BANK,
    eccF R.MON_ECC_ADDR_WORD, eccF R.MON_ECC_CE_COUNT, eccF R.MON_ECC_UE_COUNT, R.MON_ECC_CE_MAP_MEM, R.MON_ECC_UE_MAP_MEM,
    R.MON_ECC_EVENT_MEM_CE, R.MON_ECC_INJECT_ARM, R.MON_ECC_EVENT_INJECT_DONE, faultBit 9, faultBit 7, faultBit 4]

section

variable {s t : State} {m bank w a n : Nat} {ue scrub : Bool}

theorem writesFields_latchAddr (h : WritesFields eccFields s t) : WritesFields eccFields s (latchAddr m ue scrub bank w t) :=
  h.ite (((((h.setFlag (by decide)).setFlag (by decide)).setF (by decide)).setF (by decide)).setF (by decide))

theorem writesFields_correctedRead (h : WritesFields eccFields s t) :
    WritesFields eccFields s (correctedRead m bank w scrub t) := by
  have hmap (v : Nat) : WritesFields eccFields s
      (setF R.MON_ECC_CE_MAP_MEM v (bump (eccF R.MON_ECC_CE_COUNT) (latchAddr m false scrub bank w t) m)) :=
    ((writesFields_latchAddr h).bump (by decide)).setF (by decide)
  unfold correctedRead
  dsimp only
  split
  · exact hmap _
  · refine WritesFields.raiseAt ?_ (by decide)
    exact (hmap _).of_regs rfl

theorem writesFields_uncorrectable (h : WritesFields eccFields s t) :
    WritesFields eccFields s (uncorrectable m bank w scrub t) := by
  have hmap (v : Nat) : WritesFields eccFields s
      (setF R.MON_ECC_UE_MAP_MEM v (bump (eccF R.MON_ECC_UE_COUNT) (latchAddr m true scrub bank w t) m)) :=
    ((writesFields_latchAddr h).bump (by decide)).setF (by decide)
  unfold uncorrectable
  dsimp only
  split_ifs
  · exact (hmap _).raiseAt (by decide)
  · exact (hmap _).raiseFault (by decide)
  · exact (hmap _).raiseFault (by decide)
  · exact hmap _

theorem writesFields_eccRead (h : WritesFields eccFields s t) : WritesFields eccFields s (eccRead m w t).2 := by
  unfold eccRead
  split
  · exact h
  · exact writesFields_correctedRead h
  · exact writesFields_uncorrectable h

theorem writesFields_narrowWrite (h : WritesFields eccFields s t) : WritesFields eccFields s (narrowWrite m w t).2 := by
  unfold narrowWrite
  dsimp only
  split
  · exact (writesFields_eccRead h).of_regs rfl
  · exact writesFields_eccRead h

theorem writesFields_fullWrite (h : WritesFields eccFields s t) : WritesFields eccFields s (fullWrite m w t) := by
  have hset (v : Nat) : WritesFields eccFields s (setEcc m w v t) := h.of_regs rfl
  unfold fullWrite
  dsimp only
  split
  · refine (WritesFields.setF ?_ (by decide)).raiseAt (by decide)
    exact (hset 0).of_regs rfl
  · exact hset 0

end

/-! ### The decision about a frame (R336 to R341) -/

section

variable {s : State} {x y : Frame} {n f q j g : Nat}

theorem exec_frerDescriptor (hr : redUp s = true) (hb : islUp s islBUF = true) (hc : descCross f s = true) :
    exec (.frerDescriptor f) s = .next (redDescriptor f s.begin) := by
  have hok : (redUp s.begin && islUp s.begin islBUF && descCross f s.begin) = true := by
    show (redUp s && islUp s islBUF && descCross f s) = true
    simp [hr, hb, hc]
  exact ran_ite_pos hok

/-- A frame that waits for RED passes without a number while RED is off (R336). -/
theorem redDescriptor_off (hx : frameAt s f = some x) (ha : x.admitted = true) (hw : x.frer = .waiting)
    (he : flag s R.RED_GCFG_ENA = false) : redDescriptor f s = redPass f false s := by
  simp [redDescriptor, hx, ha, hw, he]

/-- A frame that has an R-TAG where its context would generate one is rogue (R337). -/
theorem redDescriptor_tagged (hx : frameAt s f = some x) (ha : x.admitted = true) (hw : x.frer = .waiting)
    (he : flag s R.RED_GCFG_ENA = true) (hr : cSeqRec (ctx12 x) = false) (hg : cSeqGen (ctx12 x) = true)
    (hp : cRtagPop (ctx12 x) = false) (ht : (parse (x.octets.take 128)).rtag.isSome = true) :
    redDescriptor f s = redRogue (cGenFn (ctx12 x)) f s := by
  simp [redDescriptor, hx, ha, hw, he, hr, hg, hp, ht]

/-! #### The number that a released frame takes (R338) -/

/-- A frame that still has copies stays where it is. -/
theorem reapFrame_of_copies (hx : frameAt s f = some x) (hc : x.copies ≠ []) : reapFrame f s = s := by
  simp [reapFrame, hx, hc]

theorem frameAt_setFrame_same {o : Option Frame} : frameAt (setFrame f o s) f = o := smGet_smPut_same _ _ _ _

/-- The state in which a released frame takes its number: its shaper levels are up to date, and the word of its generation
function is read to be written. -/
def genRead (f g : Nat) (s : State) : State := setEcc 13 g 0 (narrowWrite 13 g (touchFrame f s)).2

theorem getF_genRead {fl : Fld} {i : Nat} (h : eccFields.all fl.apart = true) : getF (genRead f g s) fl i = getF s fl i := by
  have hw : WritesFields eccFields (touchFrame f s) (genRead f g s) := (writesFields_narrowWrite .refl).of_regs rfl
  exact (hw.getF_eq h).trans getF_touchFrame

theorem redPass_numbered (hx : frameAt s f = some x) (hc : x.copies ≠ []) (hg : cSeqGen (ctx12 x) = true) :
    ∃ v, v = getF s R.RED_GEN_SEQ_NEXT (cGenFn (ctx12 x)) ∧
      redPass f true s = setFrame f (some { x with frer := .passed, genNo := some v })
        (setF R.RED_GEN_SEQ_NEXT (v + 1) (genRead f (cGenFn (ctx12 x)) s) (cGenFn (ctx12 x))) := by
  refine ⟨_, rfl, ?_⟩
  rw [← getF_genRead (f := f) (g := cGenFn (ctx12 x)) (by decide)]
  simp only [redPass, hx, hg, Bool.and_true, if_true]
  exact reapFrame_of_copies frameAt_setFrame_same hc

/-! #### MATCH (R341) -/

theorem fnFrame_match (ht : (fn s n).takeAny = false) (hm : getF s R.RED_FN_CFG_MODE n = 1) :
    fnFrame n f q s = if ((q : Int) - (fn s n).n + 32768) % 65536 - 32768 = -1 then redDuplicate n f s
      else fnPass n f (setFn n { fn s n with n := q } s) := by
  simp only [fnFrame, ht, hm, Bool.false_eq_true, if_false, if_true]

/-! #### Numbers in the past (R341) -/

/-- Outside MATCH a number `j + 1` before the next one is looked up in the history. -/
theorem fnFrame_past (ht : (fn s n).takeAny = false) (hm : getF s R.RED_FN_CFG_MODE n ≠ 1)
    (hj : ((q : Int) - (fn s n).n + 32768) % 65536 - 32768 = -(j : Int) - 1) :
    (history s n ≤ j → fnFrame n f q s = redRogue n f s) ∧
    (j < history s n → bitOf (fn s n).hist j = true → fnFrame n f q s = redDuplicate n f s) := by
  have hneg : -(j : Int) - 1 < 0 := by omega
  have hback : (-(-(j : Int) - 1) - 1).toNat = j := by omega
  simp only [fnFrame, ht, Bool.false_eq_true, if_false, hm, hj, if_pos hneg, hback]
  exact ⟨fun hh => if_pos hh, fun hh hb => by rw [if_neg (Nat.not_le.mpr hh), if_pos hb]⟩

/-! #### RESEQ (R341) -/

/-- The next number passes, and the held frames behind it run. -/
theorem fnFrame_reseq_next (ht : (fn s n).takeAny = false) (hm : getF s R.RED_FN_CFG_MODE n = 2) (hq : q = (fn s n).n) :
    fnFrame n f q s = fnRun n 32 (fnPass n f s) := by
  have hd : ((q : Int) - (fn s n).n + 32768) % 65536 - 32768 = 0 := by omega
  simp [fnFrame, ht, hm, hd]

/-- One of the 31 numbers after the next one that is not held is held. -/
theorem fnFrame_reseq_held {d : Nat} (ht : (fn s n).takeAny = false) (hm : getF s R.RED_FN_CFG_MODE n = 2)
    (hd : ((q : Int) - (fn s n).n + 32768) % 65536 - 32768 = d) (hd0 : d ≠ 0) (hd31 : d < 32)
    (hh : ∀ e ∈ (fn s n).held, e.1 ≠ d) (hy : frameAt s f = some y) :
    fnFrame n f q s = bump R.RED_FN_CNT_HELD_COUNT (setFrame f (some { y with frer := .held })
      (setFn n { fn s n with
        held := (fn s n).held ++ [(d, f, copyNow s islRED)], lastAct := copyNow s islRED } s)) n := by
  have hpos : ¬ (d : Int) < 0 := by omega
  have hle : (d : Int) ≤ 31 := by omega
  have hnone : ((fn s n).held.any fun e => e.1 == d) = false := by simpa using hh
  simp [fnFrame, ht, hm, hd, hpos, hd0, hle, hnone, hy]

theorem fn_setFn_same {z : Fn} : fn (setFn n z s) n = z := smGet_smPut_same _ _ _ _

end

/-- Settles O41: a descriptor by its frame's tags, a number by the mode and its distance from the next one. -/
theorem redundancyEliminationFollowsTheSequenceNumbers : Obligations.RedundancyEliminationFollowsTheSequenceNumbers := by
  unfold Obligations.RedundancyEliminationFollowsTheSequenceNumbers
  refine ⟨fun f s => exec_frerDescriptor, fun f x s hx ha hw => ⟨redDescriptor_off hx ha hw, redDescriptor_tagged hx ha hw⟩,
    fun f x s hx hc hg => ?_, fun n f q s ht hm => ⟨fun hq hn => ?_, fun hq hn hne => ?_⟩,
    fun n f q j s ht hm hn hq hj hd => fnFrame_past ht hm (by omega),
    fun n f q s ht hm hn hq => ⟨fnFrame_reseq_next ht hm, fun d y hd hd0 he hh hy => ?_⟩⟩
  · obtain ⟨v, rfl, he⟩ := redPass_numbered hx hc hg
    rw [he]
    exact ⟨frameAt_setFrame_same, getF_setF_same⟩
  · rw [fnFrame_match ht hm, if_pos (by omega)]
  · rw [fnFrame_match ht hm, if_neg (by omega)]
  · rw [fnFrame_reseq_held ht hm (d := d) (by omega) hd0 hd hh hy]
    refine ⟨?_, frameAt_setFrame_same⟩
    have hfn : fn (bump R.RED_FN_CNT_HELD_COUNT (setFrame f (some { y with frer := .held }) (setFn n { fn s n with
        held := (fn s n).held ++ [(d, f, copyNow s islRED)], lastAct := copyNow s islRED } s)) n) n =
        { fn s n with held := (fn s n).held ++ [(d, f, copyNow s islRED)], lastAct := copyNow s islRED } := fn_setFn_same
    rw [hfn]
    exact List.mem_append_right _ (List.mem_singleton_self _)

/-! ### A refused MODE (R348) -/

/-- A state without a resequencer whose register file holds 7 in RED_FN_CFG.MODE of function 0, more than its two bits. No write
stores such a value, but the statement speaks of every state. -/
def wideMode : State := { State.reset with regs := [(R.RED_FN_CFG_MODE.key 0, 7)] }

/-- A write of RED_FN_CFG that asks for MODE 0b10 stores the old mode again, at its width. -/
theorem writeFnCfg_wideMode : getF (writeFnCfg 0 (2 ^ 30) wideMode) R.RED_FN_CFG_MODE 0 = 3 := by decide

/-- Refutes O42: where MODE 0b10 is refused, MODE of function 0 reads 7 before the write and 3 after it in the state
`wideMode`; the clause holds only where the field holds a value of its width. -/
theorem not_recoveryFunctionsTimeOutResetAndWatchTheirPaths :
    ¬ Obligations.RecoveryFunctionsTimeOutResetAndWatchTheirPaths := by
  unfold Obligations.RecoveryFunctionsTimeOutResetAndWatchTheirPaths
  rintro ⟨-, -, -, -, -, -, hcfg, -⟩
  obtain ⟨-, -, hrefused⟩ := hcfg 0 (2 ^ 30) wideMode
  have hmode := (hrefused (by decide) (by decide)).1
  rw [writeFnCfg_wideMode] at hmode
  exact absurd hmode (by decide)

end Sys2Proof.Machine

/-! Proofs about the vectors and the event records of HOST (spec/13 R359, R360, R367, R380, R381, R465). -/

namespace Sys2Proof.Machine

/-! ### Vectors (R380, R381) -/

section

variable {s : State} {v r a val : Nat} {req : Requester}

theorem exec_vectorRearm_adit (hu : hostUp s = true) :
    exec (.vectorRearm req true a val) s = .next (rearmVector (getF s R.HIF_RING_CFG_VECTOR (a % 32)) s.begin) := by
  have haddr : (128 * (a % 32) + 4) % 128 = 4 := by omega
  have hring : (128 * (a % 32) + 4) / 128 % 32 = a % 32 := by omega
  have h := aditWrite_rearm (s := s.begin) (val := val) hu haddr
  rw [hring] at h
  exact congrArg Host.Outcome.next h

/-! #### A message, or the pending bit behind the mask -/

/-- A vector that sends sets its pending bit behind its mask, is disarmed, and moves no other vector state; then the moderation
counts of its rings start again. -/
theorem sendVector_vectors : v ∈ (sendVector v s).hif.disarmed ∧
    (v ∉ s.hif.unmasked → v ∈ (sendVector v s).hif.masked) ∧ (v ∈ s.hif.unmasked → .msi v ∈ (sendVector v s).outs) := by
  have hfold (l : List Nat) (u : State) :
      (l.foldl (fun s r => setRing r { ring s r with cnt := 0, since := none } s) u).hif.disarmed = u.hif.disarmed ∧
      (l.foldl (fun s r => setRing r { ring s r with cnt := 0, since := none } s) u).hif.masked = u.hif.masked :=
    List.foldlRecOn (motive := fun t : State => t.hif.disarmed = u.hif.disarmed ∧ t.hif.masked = u.hif.masked) _ _
      ⟨rfl, rfl⟩ fun _ h _ _ => h
  have hdis : v ∈ (if s.hif.disarmed.contains v then s.hif.disarmed else s.hif.disarmed ++ [v]) := by
    split
    · rename_i h
      exact List.contains_iff_mem.mp h
    · exact List.mem_append_right _ (List.mem_singleton_self v)
  unfold sendVector
  by_cases ho : v ∈ s.hif.unmasked
  · have hopen : s.hif.unmasked.contains v = true := List.contains_iff_mem.mpr ho
    simp only [hopen, if_true, emit_hif, hfold]
    exact ⟨hdis, fun h => absurd ho h, fun _ => List.mem_append_right _ (List.mem_singleton_self _)⟩
  · have hshut : s.hif.unmasked.contains v = false := by simpa using ho
    simp only [hshut, Bool.false_eq_true, if_false, hfold, Bool.false_or]
    refine ⟨hdis, fun _ => ?_, fun h => absurd h ho⟩
    split
    · rename_i h
      exact List.contains_iff_mem.mp h
    · exact List.mem_append_right _ (List.mem_singleton_self v)

theorem fireVector_armed (h : v ∉ s.hif.disarmed) : fireVector v s = sendVector v s := if_neg (by simpa using h)

/-- A trigger of a disarmed vector is kept. -/
theorem fireVector_disarmed (h : v ∈ s.hif.disarmed) : v ∈ (fireVector v s).hif.trig ∧ (fireVector v s).outs = s.outs := by
  have hd : s.hif.disarmed.contains v = true := List.contains_iff_mem.mpr h
  simp only [fireVector, hd, if_true]
  split
  · rename_i ht
    exact ⟨List.contains_iff_mem.mp ht, rfl⟩
  · exact ⟨List.mem_append_right _ (List.mem_singleton_self v), rfl⟩

/-- A vector that was triggered while disarmed sends when it is re-armed. -/
theorem rearmVector_triggered (h : v ∈ s.hif.trig) : rearmVector v s =
    sendVector v { s with hif := { s.hif with disarmed := s.hif.disarmed.filter (· ≠ v) } } := by
  have ht : s.hif.trig.contains v = true := List.contains_iff_mem.mpr h
  simp only [rearmVector, ht, Bool.true_or, if_true]

/-! #### Moderation and the mask -/

theorem exec_irqModerationTimer {t : Int} (ht : (ring s r).since = some t) (hu : hostUp s = true)
    (hus : getF s R.HIF_RING_IRQ_TIME_US r ≠ 0)
    (hd : t + (getF s R.HIF_RING_IRQ_TIME_US r : Int) * unitUs ≤ copyNow s islHOST) :
    exec (.irqModerationTimer r) s = .next (fireVector (getF s R.HIF_RING_CFG_VECTOR r) s.begin) := by
  have hc : (hostUp s && getF s R.HIF_RING_IRQ_TIME_US r ≠ 0 &&
      decide (t + (getF s R.HIF_RING_IRQ_TIME_US r : Int) * unitUs ≤ copyNow s islHOST)) = true := by
    simp [hu, hus, hd]
  show execIrqModerationTimer r s = _
  simp only [execIrqModerationTimer, ring_begin, ht]
  exact ran_ite_pos hc

/-- The vector `v` unmasked: its pending bit is taken away. -/
def unmasked (v : Nat) (s : State) : State :=
  { s with hif := { s.hif with unmasked := s.hif.unmasked ++ [v], masked := s.hif.masked.filter (· ≠ v) } }

theorem exec_msixUnmask (hu : hostUp s = true) (hv : v < 64) (hm : v ∉ s.hif.unmasked) : exec (.msixUnmask v) s =
    .next (if v ∈ s.hif.masked then emit (.msi v) (unmasked v s.begin) else unmasked v s.begin) := by
  have hc : (hostUp s && v < 64 && !s.hif.unmasked.contains v) = true := by simp [hu, hv, hm]
  refine (ran_ite_pos hc).trans ?_
  simp only [List.contains_iff_mem]
  rfl

end

/-! ### Event records (R367, R465) -/

section

variable {s u : State} {e : EventRec} {l : List EventRec} {r src : Nat}

/-- The oldest transition is taken off the queue. -/
def eventTaken (l : List EventRec) (s : State) : State := { s with flt := { s.flt with events := l } }

/-- The record of event `e` in state `s`, where its source logs. -/
def eventLogged (e : EventRec) (s : State) : State :=
  whenS e.log (ringRecord (flag s R.HIF_GCFG_EVT_RING_ENA) (getF s R.HIF_GCFG_EVT_RING) 4 (eventWords s e) (fun _ => 0)
    fun t => raise R.HIF_EVENT_EVT_RING_OVF t (getF t R.HIF_GCFG_EVT_RING)) s

theorem exec_eventRecordWrite (he : s.flt.events = e :: l) : exec .eventRecordWrite s =
    .next (if hostUp s then eventVector e.src (eventLogged e (eventTaken l s.begin)) else eventTaken l s.begin) := by
  show execEventRecordWrite s = _
  simp only [execEventRecordWrite, begin_flt, he]
  cases hu : hostUp s with
  | false => exact ran_ite_pos (by show (!hostUp s) = true; rw [hu]; rfl)
  | true => exact ran_ite_neg (by show ¬ (!hostUp s) = true; rw [hu]; decide)

theorem eventVector_outs : s.outs <+: (eventVector src s).outs := outs_prefix_ite fireVector_outs List.prefix_rfl

theorem eccOf_setEcc_same {m w v : Nat} : eccOf (setEcc m w v s) m w = v := smGet_smPut_same _ _ _ _

/-- A word just written with no injection armed is read without an error. -/
theorem slotIn_disarmed (ha : flag s R.MON_ECC_INJECT_ARM = false) : slotIn r s = (true, setEcc 16 (ringWord s r) 0 s) := by
  have hw : fullWrite 16 (ringWord s r) s = setEcc 16 (ringWord s r) 0 s := fullWrite_disarmed ha
  show eccRead 16 (ringWord s r) (fullWrite 16 (ringWord s r) s) = _
  rw [hw, eccRead, eccOf_setEcc_same]
  rfl

/-- The record of a logging source goes to the EVENT ring that takes it. -/
theorem eventLogged_slot (hl : e.log = true) (hs : slotReady s (getF s R.HIF_GCFG_EVT_RING) 4 = true)
    (hr : ringState s (getF s R.HIF_GCFG_EVT_RING) = 1) (hena : flag s R.HIF_GCFG_EVT_RING_ENA = true)
    (ha : flag s R.MON_ECC_INJECT_ARM = false) :
    ∃ o, .slot (getF s R.HIF_GCFG_EVT_RING) (devIndex s (getF s R.HIF_GCFG_EVT_RING) % ringSize s (getF s R.HIF_GCFG_EVT_RING))
      (eventWords s e o ++ [(1 - devIndex s (getF s R.HIF_GCFG_EVT_RING) / ringSize s (getF s R.HIF_GCFG_EVT_RING) % 2) * 2 ^ 31])
      [] ∈ (eventLogged e s).outs := by
  have hc : (slotReady s (getF s R.HIF_GCFG_EVT_RING) 4 && ringState s (getF s R.HIF_GCFG_EVT_RING) == 1) = true := by
    simp [hs, hr]
  refine ⟨(ring s (getF s R.HIF_GCFG_EVT_RING)).ovf, ?_⟩
  rw [eventLogged, hl, whenS_true, ringRecord, hena, if_neg (by decide), if_pos hc, throughRing_read (slotIn_disarmed ha),
    ← Nat.add_zero (_ * 2 ^ 31)]
  exact slotOut_mem_completeSlot

end

/-- Settles O44: a trigger by whether its vector is armed and unmasked, an event record by HOST and its source. That the record is
lost with HOST down is the model's choice (entry 49). -/
theorem vectorsSendRearmAndModerate : Obligations.VectorsSendRearmAndModerate := by
  unfold Obligations.VectorsSendRearmAndModerate
  refine ⟨fun req a val s => exec_vectorRearm_adit, fun req a val s => ran_writeAt_of_reaches,
    fun v s => ⟨?_, ?_, fireVector_disarmed, ?_⟩,
    fun r t s => exec_irqModerationTimer, fun v s hu hv hm => ⟨fun hp => ?_, fun hp => ?_⟩,
      fun e l s he => ⟨fun hu => ?_, fun hu hl => ?_, fun hu hl => ?_⟩⟩
  · intro ha hm
    rw [fireVector_armed ha]
    exact ⟨rfl, sendVector_vectors.2.2 hm, sendVector_vectors.1⟩
  · intro ha hm
    rw [fireVector_armed ha]
    exact ⟨sendVector_vectors.2.1 hm, sendVector_vectors.1⟩
  · intro ht hm
    rw [rearmVector_triggered ht]
    exact ⟨sendVector_vectors.2.2 hm, sendVector_vectors.1⟩
  · refine ⟨_, exec_msixUnmask hu hv hm, ?_⟩
    rw [if_pos hp]
    exact ⟨List.mem_append_right _ (List.mem_singleton_self _), List.mem_append_right _ (List.mem_singleton_self v),
      by simp [unmasked]⟩
  · rw [exec_msixUnmask hu hv hm, if_neg hp]
    rfl
  · rw [exec_eventRecordWrite he, hu]
    rfl
  · rw [exec_eventRecordWrite he, hu, eventLogged, hl]
    rfl
  · refine ⟨_, exec_eventRecordWrite he, fun hs hr hena ha => ?_⟩
    rw [hu, if_pos rfl]
    obtain ⟨o, ho⟩ := eventLogged_slot (s := eventTaken l s.begin) hl hs hr hena ha
    exact ⟨o, eventVector_outs.mem ho⟩

end Sys2Proof.Machine

/-! Proofs about the commands of a ring for the controller (spec/13 R371, R377, spec/14 R410, R411, R413, spec/15 R422, R436) and
for the flash (spec/13 R364, R374, R386, spec/15 R424). -/

namespace Sys2Proof.Machine

/-! ### Commands for the controller (R377) -/

section

variable {s v : State} {r : Nat} {c : Cmd} {f : State → State}

section

variable (hr : cmdReady s r = true) (hv : slotIn r s.begin = (true, v))
include hr hv

/-- The controller is not reached, or is not ready (R377). -/
theorem onMcu_notReady (h : hostReaches v islMCU = false ∨ flag v R.HIF_GSTAT_MCU_READY = false) :
    onMcu r c f s = .next (finish r c csNOT_READY v) := by
  have hn : ¬ (hostReaches v islMCU && flag v R.HIF_GSTAT_MCU_READY) = true := by
    rcases h with h | h <;> simp [h]
  rw [onMcu, onRing_read hr hv, if_neg hn]

variable (hm : hostReaches v islMCU = true) (hy : flag v R.HIF_GSTAT_MCU_READY = true)
include hm hy

theorem onMcu_ready : onMcu r c f s = .next (f v) := by
  have hc : (hostReaches v islMCU && flag v R.HIF_GSTAT_MCU_READY) = true := by rw [hm, hy]; rfl
  rw [onMcu, onRing_read hr hv, if_pos hc]

/-! #### Profiles (R410, R411, R413) -/

/-- The octets of slot `n` after `l` is written to its start. -/
def slotOver (s : State) (n : Nat) (l : List Nat) : List Nat := l ++ (slotAt s n).octets.drop l.length

/-- An image whose first failing check is `why`, or 0, as PROFILE_WRITE leaves its slot and its status. -/
theorem exec_profileWrite (h1 : 1 ≤ c.len) (h2 : c.len ≤ 32768) : exec (.profileWrite r c) s = .next
    (if profCheck v .write (bufOf c) = 0 then
      finish r c csOK (setSlot (c.p0 % 4)
        { state := slVALID, len := leAt (bufOf c) 8 4, crc := leAt (bufOf c) (leAt (bufOf c) 8 4 - 4) 4,
          writes := ((slotAt v (c.p0 % 4)).writes + 1) % 2 ^ 32, octets := slotOver v (c.p0 % 4) (bufOf c) } v)
    else
      finish r c csBAD_PARAM (setSlot (c.p0 % 4)
        { slotAt v (c.p0 % 4) with state := slINVALID, octets := slotOver v (c.p0 % 4) (bufOf c) }
        (setF R.RST_PROF_STAT_FAIL_CAUSE (profCheck v .write (bufOf c)) v))) :=
  (onMcu_ready hr hv hm hy).trans (congrArg _ (if_neg (by omega)))

theorem exec_profileRead_valid {l : List Nat} (hl : c.len = 32768) (hi : slotImage v (c.p0 % 4) = some l) :
    exec (.profileRead r c) s = .next (complete r c csOK [l.length] l v) := by
  refine (onMcu_ready hr hv hm hy).trans (congrArg _ ((if_neg (not_not_intro hl)).trans ?_))
  rw [hi]

theorem exec_profileRead_notFound (hl : c.len = 32768) (hi : slotImage v (c.p0 % 4) = none) :
    exec (.profileRead r c) s = .next (finish r c csNOT_FOUND v) := by
  refine (onMcu_ready hr hv hm hy).trans (congrArg _ ((if_neg (not_not_intro hl)).trans ?_))
  rw [hi]

/-! #### Images (R422) -/

/-- The image type that a FW_DOWNLOAD names. -/
def dlServo (c : Cmd) : Bool := bitOf c.p0 0

/-- What the staging memory holds of that type before the part comes. -/
def dlBefore (c : Cmd) (s : State) : List Nat := smGet [] s.sys.stage (stageKey (dlServo c))

/-- What the staging memory holds once the part is kept. -/
def dlKept (c : Cmd) (s : State) : List Nat := (if c.p1 = 0 then [] else dlBefore c s) ++ bufOf c

/-- The state in which a part is kept: its words are written, and what was staged is discarded. -/
def dlState (c : Cmd) (s : State) : State :=
  let w := fullWriteAll 16 (stageBase (dlServo c) + c.p1 / 8) ((c.len + 7) / 8) s
  discardStaged (stageKey (dlServo c))
    { w with sys := { w.sys with stage := smPut [] w.sys.stage (stageKey (dlServo c)) (dlKept c s) } }

/-- The cause of the staged image `l` of which the words were read, or 0 (R419, R422). -/
def dlCause (servo ok : Bool) (l : List Nat) (s : State) : Nat :=
  if leAt l 8 4 ≠ l.length then 2 else if !ok then 3 else imgCheck s servo l

/-- The image of the last part is staged or rejected. -/
def dlChecked (r : Nat) (c : Cmd) (l : List Nat) (ok : Bool) (x : State) : State :=
  if dlCause (dlServo c) ok l x = 0 then
    finish r c csOK (raise R.FWT_EVENT_STAGE_DONE
      (stagedShown { x with sys := { x.sys with stageOk := x.sys.stageOk ++ [stageKey (dlServo c)] } }))
  else
    finish r c (if dlCause (dlServo c) ok l x = 4 ∨ dlCause (dlServo c) ok l x = 5 then csDENIED else csBAD_PARAM)
      (raise R.FWT_EVENT_STAGE_REJECTED x)

section

variable (hl : c.len ≤ 65536) (hp : c.p1 = 0 ∨ c.p1 = (dlBefore c v).length) (hs : (dlKept c v).length ≤ imgSize (dlServo c))
include hl hp hs

theorem exec_fwDownload_kept (hb : bitOf c.p0 31 = false) :
    exec (.fwDownload r c) s = .next (finish r c csOK (dlState c v)) := by
  have hpart : ¬ (c.p1 ≠ 0 ∧ c.p1 ≠ (dlBefore c v).length) := by tauto
  exact (onMcu_ready hr hv hm hy).trans (congrArg _ ((if_neg (Nat.not_lt.mpr hl)).trans ((if_neg hpart).trans
    ((if_neg (Nat.not_lt.mpr hs)).trans (if_pos (by rw [hb]; rfl))))))

theorem exec_fwDownload_last {ok : Bool} {x : State} (hb : bitOf c.p0 31 = true)
    (hx : eccReadAll 16 (stageBase (dlServo c)) (((dlKept c v).length + 7) / 8) (dlState c v) = (ok, x)) :
    exec (.fwDownload r c) s = .next (dlChecked r c (dlKept c v) ok x) := by
  have hpart : ¬ (c.p1 ≠ 0 ∧ c.p1 ≠ (dlBefore c v).length) := by tauto
  have hlast : dlChecked r c (dlKept c v) ok x =
      let y := eccReadAll 16 (stageBase (dlServo c)) (((dlKept c v).length + 7) / 8) (dlState c v)
      dlChecked r c (dlKept c v) y.1 y.2 := by rw [hx]
  rw [hlast]
  exact (onMcu_ready hr hv hm hy).trans (congrArg _ ((if_neg (Nat.not_lt.mpr hl)).trans ((if_neg hpart).trans
    ((if_neg (Nat.not_lt.mpr hs)).trans (if_neg (by rw [hb]; decide))))))

end

theorem exec_fwDownload_gap (hl : c.len ≤ 65536) (h0 : c.p1 ≠ 0) (h1 : c.p1 ≠ (dlBefore c v).length) :
    exec (.fwDownload r c) s = .next (finish r c csBAD_PARAM v) :=
  (onMcu_ready hr hv hm hy).trans (congrArg _ ((if_neg (Nat.not_lt.mpr hl)).trans (if_pos ⟨h0, h1⟩)))

end

theorem dlCause_eq_zero_iff {servo ok : Bool} {l : List Nat} :
    dlCause servo ok l s = 0 ↔ ok = true ∧ leAt l 8 4 = l.length ∧ imgCheck s servo l = 0 := by
  unfold dlCause
  split_ifs with hn ho
  · simp [hn]
  · simp_all
  · simp_all

theorem dlChecked_staged {ok : Bool} {l : List Nat} (h : ok = true ∧ leAt l 8 4 = l.length ∧ imgCheck s (dlServo c) l = 0) :
    dlChecked r c l ok s = finish r c csOK (raise R.FWT_EVENT_STAGE_DONE
      (stagedShown { s with sys := { s.sys with stageOk := s.sys.stageOk ++ [stageKey (dlServo c)] } })) :=
  if_pos (dlCause_eq_zero_iff.mpr h)

theorem dlChecked_rejected {ok : Bool} {l : List Nat} (h : ¬ (ok = true ∧ leAt l 8 4 = l.length ∧ imgCheck s (dlServo c) l = 0)) :
    ∃ st, dlChecked r c l ok s = finish r c st (raise R.FWT_EVENT_STAGE_REJECTED s) ∧
      (leAt l 8 4 ≠ l.length → st = csBAD_PARAM) := by
  refine ⟨_, if_neg (mt dlCause_eq_zero_iff.mp h), fun hn => ?_⟩
  have hcause : dlCause (dlServo c) ok l s = 2 := if_pos hn
  rw [hcause, if_neg (by decide)]

/-! #### The report (R436) -/

/-- The nonce of an ATTEST command. -/
def nonceOf (c : Cmd) : List Nat := (List.range 32).map fun k => (bufOf c).getD k 0

/-- The report of an ATTEST command, its LEN field being `len`. -/
def reportOf (v : State) (c : Cmd) (len : Nat) : List Nat := reportBody v (nonceOf c) (bitOf c.p0 0) (bitOf c.p0 1) len

/-- The length of the report, with its signature where the device has an identity. -/
def reportLen (v : State) (c : Cmd) : Nat := (reportOf v c 0).length + if flag v R.GLB_CAP_FUSE_SAFE then 0 else 96

section

variable (hr : cmdReady s r = true) (hv : slotIn r s.begin = (true, v)) (hm : hostReaches v islMCU = true)
  (hy : flag v R.HIF_GSTAT_MCU_READY = true)
include hr hv hm hy

theorem exec_attest : exec (.attest r c) s = .next
    (if c.len < reportLen v c then complete r c csBAD_LENGTH [reportLen v c] [] v
    else complete r c (if flag v R.GLB_CAP_FUSE_SAFE then csDENIED else csOK) [reportLen v c]
      (reportOf v c (reportLen v c) ++ if flag v R.GLB_CAP_FUSE_SAFE then []
        else Config.ecdsaSign (wordOctets ((v.sys.fuse.drop 50).take 12)) (reportOf v c (reportLen v c))) v) :=
  onMcu_ready hr hv hm hy

theorem exec_attest_short (hl : c.len < reportLen v c) :
    exec (.attest r c) s = .next (complete r c csBAD_LENGTH [reportLen v c] [] v) := by
  rw [exec_attest hr hv hm hy, if_pos hl]

/-- Under safe defaults the report goes out without a signature. -/
theorem exec_attest_unsigned (hl : reportLen v c ≤ c.len) (hs : flag v R.GLB_CAP_FUSE_SAFE = true) :
    exec (.attest r c) s = .next (complete r c csDENIED [reportLen v c] (reportOf v c (reportLen v c)) v) := by
  rw [exec_attest hr hv hm hy, if_neg (Nat.not_lt.mpr hl), hs, if_pos rfl, if_pos rfl, List.append_nil]

theorem exec_attest_signed (hl : reportLen v c ≤ c.len) (hs : flag v R.GLB_CAP_FUSE_SAFE = false) :
    exec (.attest r c) s = .next (complete r c csOK [reportLen v c] (reportOf v c (reportLen v c) ++
      Config.ecdsaSign (wordOctets ((v.sys.fuse.drop 50).take 12)) (reportOf v c (reportLen v c))) v) := by
  rw [exec_attest hr hv hm hy, if_neg (Nat.not_lt.mpr hl), hs, if_neg (by decide), if_neg (by decide)]

end

end

/-- Settles O47: each command by whether the controller is ready, its buffer and what its slot or its staging memory holds. That
every part kept discards what was staged is the model's choice (entry 55). -/
theorem controllerCommandsKeepProfilesImagesAndReports : Obligations.ControllerCommandsKeepProfilesImagesAndReports := by
  unfold Obligations.ControllerCommandsKeepProfilesImagesAndReports
  refine ⟨fun r c s v hr hv h => ⟨onMcu_notReady hr hv h, onMcu_notReady hr hv h, onMcu_notReady hr hv h, onMcu_notReady hr hv h,
      onMcu_notReady hr hv h⟩, fun r c s v hr hv hm hy h1 h2 h0 => ?_, fun r c s v hr hv hm hy h1 h2 h0 => ?_,
    fun r c l s v hr hv hm hy hl => ⟨exec_profileRead_valid hr hv hm hy hl, exec_profileRead_notFound hr hv hm hy hl⟩,
    fun n x y s hy => ?_, fun r c l s v w hr hv hm hy hl hp he hs hw => ?_,
      fun r c s v hr hv hm hy => exec_fwDownload_gap hr hv hm hy,
    fun r c s v hr hv hm hy => ⟨reportLen v c, reportOf v c (reportLen v c), rfl, rfl, exec_attest_short hr hv hm hy,
      exec_attest_unsigned hr hv hm hy, exec_attest_signed hr hv hm hy⟩⟩
  · rw [exec_profileWrite hr hv hm hy h1 h2, if_pos h0]
    rfl
  · rw [exec_profileWrite hr hv hm hy h1 h2, if_neg h0]
    rfl
  · have hslot : slotAt (setSlot n y s) n = y := smGet_smPut_same _ _ _ _
    rw [slotImage, hslot, if_pos hy]
  · subst he hw
    rcases hx : eccReadAll 16 (stageBase (dlServo c)) (((dlKept c v).length + 7) / 8) (dlState c v) with ⟨ok, x⟩
    refine ⟨_, rfl, exec_fwDownload_kept hr hv hm hy hl hp hs, fun hb => ⟨ok, x, hx, fun hok => ?_, fun hbad => ?_⟩⟩
    · rw [exec_fwDownload_last hr hv hm hy hl hp hs hb hx, dlChecked_staged (l := dlKept c v) hok]
      rfl
    · obtain ⟨st, hst, hlen⟩ := dlChecked_rejected (r := r) (l := dlKept c v) hbad
      exact ⟨st, by rw [exec_fwDownload_last hr hv hm hy hl hp hs hb hx, ← hst], hlen⟩

/-! ### Commands for the flash (R364, R386, R424) -/

section

variable {s v : State} {r a n k : Nat} {w : Bool} {c : Cmd}

theorem smGet_smKeep_dropped {α : Type} {d : α} {p : Nat → Bool} {m : SMap α} (h : p k = false) : smGet d (smKeep p m) k = d := by
  induction m with
  | nil => rfl
  | cons e m ih =>
    obtain ⟨j, u⟩ := e
    by_cases hj : p j = true
    · have hne : k ≠ j := fun he => by simp [he, hj] at h
      simpa [smKeep, List.filter_cons, hj, smGet, hne] using ih
    · simpa [smKeep, List.filter_cons, hj] using ih

/-- An octet of an erased range reads 0xFF. -/
theorem flashOctet_erased (h1 : a ≤ k) (h2 : k < a + n) :
    flashOctet { s with hif := { s.hif with flash := smKeep (fun b => !(a ≤ b && b < a + n)) s.hif.flash } } k = 0xFF :=
  smGet_smKeep_dropped (d := 0xFF) (m := s.hif.flash) (p := fun b => !(a ≤ b && b < a + n)) (by simp [h1, h2])

/-! #### The gate -/

theorem flashGate_absent (h : flag s R.HIF_QSPI_CFG_PRESENT = false) : flashGate s w a n = csBAD_STATE :=
  if_pos (by rw [h]; rfl)

theorem flashGate_present (h : flag s R.HIF_QSPI_CFG_PRESENT = true) : flashGate s w a n =
    if a + n > flashSize s then csBAD_PARAM else if w && flashHeld s a n then csDENIED else csOK :=
  if_neg (by rw [h]; decide)

/-! #### The three commands -/

section

variable (hr : cmdReady s r = true) (hv : slotIn r s.begin = (true, v))
include hr hv

theorem exec_flashRead (hl : c.len ≤ 65536) (hg : flashGate v false c.p1 c.len = csOK) :
    exec (.flashRead r c) s = .next (complete r c csOK [] (flashRead v c.p1 c.len) v) :=
  (onRing_read hr hv).trans (congrArg _ ((if_neg (Nat.not_lt.mpr hl)).trans (if_neg (not_not_intro hg))))

/-- What FLASH_PROGRAM leaves of the flash: each octet is ANDed in. -/
def programmed (c : Cmd) (v : State) : State :=
  (List.range c.len).foldl (fun s k =>
    setFlash (c.p1 + k) (Nat.land (flashOctet s (c.p1 + k)) ((bufOf c).getD k 0)) s) v

theorem exec_flashProgram {err : Bool} (hl : c.len ≤ 65536) (hg : flashGate v true c.p1 c.len = csOK) :
    exec (.flashProgram r c err) s = .next (if err then
      finish r c csBAD_STATE (raise R.HIF_EVENT_QSPI_ERROR (flashLost c.p1 c.len v)) else finish r c csOK (programmed c v)) :=
  (onRing_read hr hv).trans (congrArg _ ((if_neg (Nat.not_lt.mpr hl)).trans (if_neg (not_not_intro hg))))

/-- FLASH_ERASE of a range that consists of whole sectors. -/
theorem exec_flashErase {err : Bool} (hl : c.len = 0) (h1 : c.p1 % 4096 = 0) (h2 : c.p2 % 4096 = 0) (hs : c.p2 ≤ 1048576)
    (hg : flashGate v true c.p1 c.p2 = csOK) : exec (.flashErase r c err) s = .next (if err then
      finish r c csBAD_STATE (raise R.HIF_EVENT_QSPI_ERROR (flashLost c.p1 c.p2 v)) else finish r c csOK
      { v with hif := { v.hif with flash := smKeep (fun a => !(c.p1 ≤ a && a < c.p1 + c.p2)) v.hif.flash } }) := by
  have hrange : ¬ (c.p1 % 4096 ≠ 0 ∨ c.p2 % 4096 ≠ 0 ∨ c.p2 > 1048576) := by omega
  exact (onBare_read hr hv hl).trans (congrArg _ ((if_neg hrange).trans (if_neg (not_not_intro hg))))

end

end

/-- Settles O48: each command by its length, its gate and whether the flash reports an error; the gate by its tests. -/
theorem flashCommandsReadProgramAndErase : Obligations.FlashCommandsReadProgramAndErase := by
  unfold Obligations.FlashCommandsReadProgramAndErase
  refine ⟨fun r c s v => exec_flashRead, fun r c s v hr hv hl hg => ⟨exec_flashProgram hr hv hl hg,
    exec_flashProgram hr hv hl hg⟩,
    fun r c s v hr hv hl h1 h2 hs hg => ⟨exec_flashErase hr hv hl h1 h2 hs hg, exec_flashErase hr hv hl h1 h2 hs hg⟩,
    fun a n k s => flashOctet_erased, fun a n w s => ⟨flashGate_absent, fun hp hn => ?_, fun hp hn hh => ?_, fun hp hn hh => ?_⟩⟩
  · rw [flashGate_present hp, if_pos hn]
  · rw [flashGate_present hp, if_neg (Nat.not_lt.mpr hn), if_pos (by rw [hh]; rfl)]
  · rw [flashGate_present hp, if_neg (Nat.not_lt.mpr hn), if_neg (by rcases hh with hh | hh <;> simp [hh])]

end Sys2Proof.Machine

/-! Proofs about the PCIe link, the I2C target and the JTAG port (spec/13 R355, R384, R385, spec/14 R390, spec/20 R508). -/

namespace Sys2Proof.Machine

/-! ### PCIe (R355, R390) -/

section

variable {s : State} {speed width : Nat}

theorem exec_pcieHot (h : s.hif.linkUp = true) : exec .pcieHot s = .next (strike 5 islHOST s.begin) :=
  ran_ite_pos (c := s.begin.hif.linkUp = true) h

theorem exec_pcieD3 (h : s.hif.linkUp = true) : exec .pcieD3 s = .next (strike 7 islHOST s.begin) :=
  ran_ite_pos (c := s.begin.hif.linkUp = true) h

theorem exec_pcieLinkdown (h : s.hif.linkUp = true) : exec .pcieLinkdown s = .next
    (strike 6 islHOST (setF R.HIF_GSTAT_LINK_SPEED 0 (setF R.HIF_GSTAT_LINK_WIDTH 0
      (setF R.HIF_GSTAT_BME 0 { s.begin with hif := { s.hif with linkUp := false } })))) :=
  ran_ite_pos (c := s.begin.hif.linkUp = true) h

theorem exec_pcieLinkUp (hu : hostUp s = true) (h1 : 1 ≤ speed) (h4 : speed ≤ 4) (hw : width ∈ [1, 2, 4]) :
    exec (.pcieLinkUp speed width) s = .next (setF R.HIF_GSTAT_LINK_SPEED speed (setF R.HIF_GSTAT_LINK_WIDTH width
      { s.begin with hif := { s.hif with linkUp := true } })) := by
  have hc : (hostUp s.begin && 1 ≤ speed && speed ≤ 4 && [1, 2, 4].contains width) = true := by
    have hu' : hostUp s.begin = true := hu
    have hw' : [1, 2, 4].contains width = true := List.contains_iff_mem.mpr hw
    rw [hu', hw']
    simp [h1, h4]
  exact ran_ite_pos hc

end

/-! ### I2C (R384, R385) -/

section

variable {s t : State} {cmd off val n : Nat} {p : Option Nat}

/-- The four octets of a word, least significant first. -/
def word4 (v : Nat) : List Nat := [v % 256, v / 256 % 256, v / 65536 % 256, v / 16777216 % 256]

/-- The PEC octet of an I2C write of `val` at `off`. -/
def writePec (s : State) (off val : Nat) : Nat := pec (i2cHead s 1 off ++ word4 val)

theorem exec_i2cWrite (hi : i2cOn s = true) (ho : off < 0x100000) : exec (.i2cWrite 1 off val p) s = .next
    (if flag s R.HIF_I2C_CFG_PEC_ENA && p ≠ some (writePec s off val) then
      raise R.HIF_EVENT_I2C_PEC (emit (.i2c true []) s.begin)
    else sizedWrite .i2c off val 4 (emit (.i2c true []) s.begin)) := by
  have hn : ¬ (!i2cOn s || 1 ≠ 1 || off ≥ 0x100000) = true := by simp [hi, ho]
  exact ran_ite_neg hn

theorem exec_i2cRead (hi : i2cOn s = true) (ho : off < 0x100000) {l : List Nat}
    (hw : i2cWords off (min 16 (max 1 n)) s.begin = (l, t)) : exec (.i2cRead 2 off n) s = .next
      (emit (.i2c true (l ++ (if flag s R.HIF_I2C_CFG_PEC_ENA then
        [pec (i2cHead s 2 off ++ [getF s R.HIF_I2C_CFG_ADDR * 2 + 1] ++ l)] else []))) t) := by
  have hn : ¬ (!i2cOn s.begin || 2 ≠ 2 || off ≥ 0x100000) = true := by
    show ¬ (!i2cOn s || 2 ≠ 2 || off ≥ 0x100000) = true
    simp [hi, ho]
  show execI2cRead 2 off n s = _
  simp only [execI2cRead, if_neg hn, hw]
  rfl

/-- What neither command answers: the target is off, the command octet is another, or the offset lies beyond BAR0. -/
theorem exec_i2c_unacknowledged :
    (i2cOn s = false ∨ cmd ≠ 1 ∨ 0x100000 ≤ off → exec (.i2cWrite cmd off val p) s = .next (emit (.i2c false []) s.begin)) ∧
    (i2cOn s = false ∨ cmd ≠ 2 ∨ 0x100000 ≤ off → exec (.i2cRead cmd off n) s = .next (emit (.i2c false []) s.begin)) := by
  have hc {k : Nat} (h : i2cOn s = false ∨ cmd ≠ k ∨ 0x100000 ≤ off) :
      (!i2cOn s || cmd ≠ k || off ≥ 0x100000) = true := by
    rcases h with h | h | h <;> simp [h]
  exact ⟨fun h => ran_ite_pos (hc h), fun h => ran_ite_pos (hc h)⟩

/-- Each word read gives its four octets. -/
theorem i2cWords_length : (i2cWords off n s).1.length = 4 * n := by
  induction n generalizing off s with
  | zero => rfl
  | succ n ih =>
    show (word4 _ ++ (i2cWords (off + 4) n _).1).length = _
    rw [List.length_append, ih]
    simp only [word4, List.length_cons, List.length_nil]
    omega

/-- The first octets are those of the word at the offset. -/
theorem i2cWords_first {u : State} {v : Nat} (ho : off < 0x100000) (hn : 1 ≤ n) (hb : busRead .i2c (off / 4 * 4) s = (v, u)) :
    ∃ l t, i2cWords off n s = (v % 256 :: v / 256 % 256 :: v / 65536 % 256 :: v / 16777216 % 256 :: l, t) := by
  obtain ⟨m, rfl⟩ := Nat.exists_eq_add_of_le' hn
  rw [i2cWords, Nat.mod_eq_of_lt ho, hb]
  exact ⟨_, _, rfl⟩

theorem exec_i2cTimeout (hi : i2cOn s = true) : exec .i2cTimeout s = .next (raise R.HIF_EVENT_I2C_TIMEOUT s.begin) :=
  ran_ite_pos (c := i2cOn s.begin = true) hi

end

/-! ### JTAG (R508) -/

section

variable {s : State}

/-- The instruction that an instruction acts as: a debug one as BYPASS under JTAG_LOCK. -/
def actsAs (s : State) (i : Jtag) : Jtag :=
  match i with
  | .debug c => if fuseLock s 1 then .bypass else .debug c
  | j => j

/-- The state with `i` in force. -/
def withJtag (i : Jtag) (s : State) : State := { s with sys := { s.sys with jtag := i } }

theorem exec_jtagInstruction {i : Jtag} : exec (.jtagInstruction i) s = .next
    (if actsAs s i = .idcode then emit (.idcode (idcode s))
      (withJtag (actsAs s i) s.begin) else withJtag (actsAs s i) s.begin) := by
  cases i <;> rfl

/-- No other instruction acts as IDCODE. -/
theorem actsAs_eq_idcode_iff {i : Jtag} : actsAs s i = .idcode ↔ i = .idcode := by
  cases i with
  | debug c =>
    unfold actsAs
    cases fuseLock s 1 <;> simp
  | _ => rfl

end

/-- Settles O50: PCIe events by the link, I2C transactions by the target, their offset and their PEC octet, a JTAG instruction by
what it acts as. BME cleared with the link (entry 62) and the count of a read clamped to 1 to 16 (entry 45) are the model's
readings. -/
theorem pcieI2cAndJtagActOnTheirInterfaces : Obligations.PcieI2cAndJtagActOnTheirInterfaces := by
  unfold Obligations.PcieI2cAndJtagActOnTheirInterfaces
  refine ⟨fun s h => ⟨exec_pcieHot h, exec_pcieD3 h, exec_pcieLinkdown h⟩, fun speed width s => exec_pcieLinkUp,
    fun off val p s hi ho => ⟨fun hp => ?_, fun hp hok => ?_, fun hp hbad => ?_⟩,
    fun off n s hi ho => ⟨_, _, rfl, i2cWords_length, exec_i2cRead hi ho rfl⟩,
    fun off n s hi ho h1 h16 u v => i2cWords_first ho h1, fun s => exec_i2cTimeout,
      fun cmd off val n p s => exec_i2c_unacknowledged,
    fun i s => ⟨_, exec_jtagInstruction, ?_, fun hi => ?_, fun hi => ?_⟩⟩
  · rw [exec_i2cWrite hi ho, if_neg (by simp [hp])]
  · have hw : p = some (writePec s off val) := hok
    rw [exec_i2cWrite hi ho, if_neg (by simp [hw])]
  · have hw : p ≠ some (writePec s off val) := hbad
    rw [exec_i2cWrite hi ho, hp, if_pos (by simp [hw])]
  · split <;> exact (by cases i <;> rfl)
  · rw [if_pos (actsAs_eq_idcode_iff.mpr hi)]
    rfl
  · rw [if_neg (mt actsAs_eq_idcode_iff.mp hi)]
    rfl

end Sys2Proof.Machine

/-! Proofs about power-up, resets and profiles (spec/14): the sources of the resets (R389 to R396). -/

namespace Sys2Proof.Machine

/-! ### Power-up (R390, R394, R498) -/

section

variable {s : State} {p : Straps}

/-- A cold start takes the slot from the straps. -/
theorem chooseSlot_cold (h : s.sys.profCfg = none) : chooseSlot true s =
    setF R.RST_STATUS_PROFILE_SLOT (s.sys.straps % 4) (setF R.RST_STATUS_PROFILE_NONE 0
      (setF R.RST_STATUS_PROFSEL s.sys.straps (setF R.RST_PROF_CFG_SRC 0 s))) := by
  have hsrc : flag (setF R.RST_STATUS_PROFSEL s.sys.straps (setF R.RST_PROF_CFG_SRC 0 s)) R.RST_PROF_CFG_SRC = false := by
    rw [flag, getF_setF_apart (by decide), getF_setF_same]
    rfl
  simp only [chooseSlot, h, whenS, if_true]
  change setF _ (if flag (setF R.RST_STATUS_PROFSEL s.sys.straps (setF R.RST_PROF_CFG_SRC 0 s)) R.RST_PROF_CFG_SRC =
    true then _ else _) _ = _
  rw [if_neg (by simp [hsrc])]
  rfl

/-- What power-up starts from: the reset state, the MRAM, the flash, the OCXO_WARM level and the commands that wait kept. -/
def poweredUp (p : Straps) (s : State) : State :=
  { State.reset with
    pending := s.pending, fresh := s.fresh, hif := { State.reset.hif with flash := s.hif.flash }
    mon := { State.reset.mon with log := s.mon.log }
    sys := { State.reset.sys with straps := p.profsel % 4 + 4 * b2n p.addr, warmPin := s.sys.warmPin, slots := s.sys.slots } }

theorem exec_powerOn {d : SupplyDip} : exec (.powerOn d p) s = .next
    (if supplyStrikes (railOf d.rail) d.uv d.ns then
      emit (.pin "RESET_N" false) (emit (.pin "ALIVE" false) (chooseSlot true (poweredUp p s))) else s.begin) := rfl

theorem getF_poweredUp {f : Fld} {i : Nat} : getF (poweredUp p s) f i = getF State.reset f i := rfl

end

/-! ### The source map (R391) -/

section

variable {s : State} {val k j : Nat} {l : List Nat}

/-- Source `k` takes its level and DRIVE from `val`; those of source 0 are fixed. -/
def mapSource (val : Nat) (s : State) (k : Nat) : State :=
  if k = 0 then s
  else setF (R.RST_SRC_MAP_LEVEL.up (3 * k)) (bitsOf val (3 * k) 2)
    (setF (R.RST_SRC_MAP_DRIVE.up (3 * k)) (bitsOf val (3 * k + 2) 1) s)

theorem writeSrcMap_unlocked (h : flag s R.RST_SRC_MAP_MAP_LOCK = false) :
    writeSrcMap val s = (List.range 9).foldl (mapSource val) s := if_neg (by simp [h])

theorem srcLevel_mapSource (hk : k ≠ 0) :
    srcLevel (mapSource val s j) k = if j = k then bitsOf val (3 * k) 2 else srcLevel s k := by
  unfold mapSource srcLevel
  rw [if_neg hk, if_neg hk]
  split_ifs with h0 hj hj
  · exact absurd (hj ▸ h0) hk
  · rfl
  · rw [hj, getF_setF_same]
    exact Nat.mod_mod _ _
  · rw [getF_setF_ne (by simp only [Fld.key, Fld.up, R.RST_SRC_MAP_LEVEL]; omega),
      getF_setF_ne (by simp only [Fld.key, Fld.up, R.RST_SRC_MAP_LEVEL, R.RST_SRC_MAP_DRIVE]; omega)]

theorem srcDrive_mapSource (hk : k ≠ 0) :
    srcDrive (mapSource val s j) k = if j = k then bitOf val (3 * k + 2) else srcDrive s k := by
  unfold mapSource srcDrive
  simp only [beq_eq_false_iff_ne.mpr hk, Bool.false_or]
  split_ifs with h0 hj hj
  · exact absurd (hj ▸ h0) hk
  · rfl
  · rw [hj, flag, getF_setF_ne (by simp only [Fld.key, Fld.up, R.RST_SRC_MAP_LEVEL, R.RST_SRC_MAP_DRIVE]; omega), getF_setF_same]
    exact congrArg (· == 1) (Nat.mod_mod _ _)
  · rw [flag, getF_setF_ne (by simp only [Fld.key, Fld.up, R.RST_SRC_MAP_LEVEL, R.RST_SRC_MAP_DRIVE]; omega),
      getF_setF_ne (by simp only [Fld.key, Fld.up, R.RST_SRC_MAP_DRIVE]; omega)]
    rfl

/-- Of the sources written in turn, each keeps what it was given. -/
theorem source_foldl_mapSource (hk : k ≠ 0) (hl : k ∈ l) :
    srcLevel (l.foldl (mapSource val) s) k = bitsOf val (3 * k) 2 ∧
      srcDrive (l.foldl (mapSource val) s) k = bitOf val (3 * k + 2) := by
  induction l using List.reverseRecOn with
  | nil => simp at hl
  | append_singleton l j ih =>
    rw [List.foldl_append, List.foldl_cons, List.foldl_nil, srcLevel_mapSource hk, srcDrive_mapSource hk]
    split_ifs with hj
    · exact ⟨rfl, rfl⟩
    · exact ih ((List.mem_append.mp hl).resolve_right (by simpa using fun h => hj h.symm))

end

/-! ### Strikes (R390 to R392) -/

section

variable {s : State} {src isl lvl i : Nat} {was : Bool} {lost : List Nat}

theorem pinFollows_regs : (pinFollows was s).regs = s.regs := by
  unfold pinFollows
  split_ifs <;> rfl

theorem modeSync_regs : (modeSync s).regs = s.regs := (keeps_modeSync (W := 256) rfl keeps_refl).same.regs rfl

theorem addJob_regs {held : List Nat} : (addJob src lvl isl held s).regs = s.regs :=
  (keeps_addJob (W := 2097408) rfl keeps_refl).same.regs rfl

theorem pinFollows_eq : pinFollows (driven s) s = s := by
  unfold pinFollows
  cases driven s <;> rfl

/-- What `levelStatus` writes after the fields that name the reset. -/
def levelFields : List Fld :=
  [R.RST_STATUS_SAFE_DEFAULTS, R.RST_LOAD_STAT_FAILED, R.RST_STATUS_READY, R.RST_STATUS_PROFILE_APPLIED]

/-- A reset that begins names its source and level. -/
def resetNamed (src lvl : Nat) (s : State) : State :=
  setF R.RST_STATUS_LAST_LEVEL lvl (setF R.RST_STATUS_LAST_SRC src (setF R.RST_STATUS_SEQ_BUSY 1 s))

theorem WritesFields.whenS {l : List Fld} {t : State} {b : Bool} {e : State → State} (h : WritesFields l s t)
    (he : ∀ u, WritesFields l s u → WritesFields l s (e u)) : WritesFields l s (whenS b e t) := by
  unfold Machine.whenS
  split
  · exact he t h
  · exact h

/-- No milestone is reached as a reset begins. -/
def milestonesOpen (s : State) : State := (List.range 8).foldl (fun s m => setF R.RST_MILESTONE_T_US 4294967295 s m) s

/-- The milestones lie outside RST_STATUS. -/
theorem getF_milestonesOpen {f : Fld} (ho : f.off = 0x10000) (hst : f.st = 0) (hlo : f.lo < 32) :
    getF (milestonesOpen s) f = getF s f := by
  refine List.foldlRecOn (motive := fun t => getF t f = getF s f) _ _ rfl fun t ht m _ => ?_
  refine (getF_setF_ne ?_).trans ht
  simp only [Fld.key, ho, hst, R.RST_MILESTONE_T_US]
  omega

theorem writesFields_levelStatus : WritesFields levelFields (milestonesOpen (resetNamed src lvl s)) (levelStatus src lvl s) := by
  have hset (b : Bool) (f : Fld) (v : Nat) (t : State) (hf : f ∈ levelFields)
      (h : WritesFields levelFields (milestonesOpen (resetNamed src lvl s)) t) :
      WritesFields levelFields (milestonesOpen (resetNamed src lvl s)) (whenS b (setF f v) t) := h.whenS fun u hu => hu.setF hf
  refine hset _ _ _ _ (by decide) (.ite (WritesFields.setF ?_ (by decide)) ?_)
  · exact (hset _ _ _ _ (by decide) (hset _ _ _ _ (by decide) .refl)).of_regs rfl
  · exact hset _ _ _ _ (by decide) (hset _ _ _ _ (by decide) .refl)

/-- The fields that name the reset stand once it has begun. -/
theorem getF_beginReset {f : Fld} (ho : f.off = 0x10000) (hst : f.st = 0) (hlo : f.lo < 32)
    (hf : levelFields.all f.apart = true) : ∃ t,
      getF (beginReset src lvl isl lost s) f = getF (resetNamed src lvl t) f :=
  ⟨_, (getF_congr addJob_regs).trans ((writesFields_levelStatus.getF_eq hf).trans (getF_milestonesOpen ho hst hlo))⟩

/-- SEQ_BUSY is 1 and the reset named by its source and level. -/
theorem status_beginReset (hs : src < 16) (hl : lvl < 4) :
    getF (beginReset src lvl isl lost s) R.RST_STATUS_LAST_SRC = src ∧
    getF (beginReset src lvl isl lost s) R.RST_STATUS_LAST_LEVEL = lvl ∧
    getF (beginReset src lvl isl lost s) R.RST_STATUS_SEQ_BUSY = 1 := by
  refine ⟨?_, ?_, ?_⟩
  · obtain ⟨t, ht⟩ := getF_beginReset (src := src) (lvl := lvl) (isl := isl) (lost := lost) (s := s)
      (f := R.RST_STATUS_LAST_SRC) rfl rfl (by decide) (by decide)
    rw [ht, resetNamed, getF_setF_apart (by decide), getF_setF_same]
    exact Nat.mod_eq_of_lt hs
  · obtain ⟨t, ht⟩ := getF_beginReset (src := src) (lvl := lvl) (isl := isl) (lost := lost) (s := s)
      (f := R.RST_STATUS_LAST_LEVEL) rfl rfl (by decide) (by decide)
    rw [ht, resetNamed, getF_setF_same]
    exact Nat.mod_eq_of_lt hl
  · obtain ⟨t, ht⟩ := getF_beginReset (src := src) (lvl := lvl) (isl := isl) (lost := lost) (s := s)
      (f := R.RST_STATUS_SEQ_BUSY) rfl rfl (by decide) (by decide)
    rw [ht, resetNamed, getF_setF_apart (by decide), getF_setF_apart (by decide), getF_setF_same]
    rfl

/-- A reset of a level other than UNIT takes READY away. -/
theorem ready_levelStatus (hl : lvl ≤ 2) : getF (levelStatus src lvl s) R.RST_STATUS_READY = 0 := by
  simp only [levelStatus, if_pos hl, whenS]
  split
  · rw [getF_setF_apart (by decide), getF_setF_same]
    rfl
  · rw [getF_setF_same]
    rfl

theorem ready_beginReset (hl : lvl ≤ 2) : getF (beginReset src lvl isl lost s) R.RST_STATUS_READY = 0 :=
  (getF_congr addJob_regs).trans (ready_levelStatus hl)

/-! #### A strike while no reset is in progress -/

/-- A source that strikes shows in RST_CAUSE. -/
def caused (src : Nat) (s : State) : State := setIsl R.RST_CAUSE_SRC src true s

theorem srcLevel_caused {k : Nat} : srcLevel (caused src s) k = srcLevel s k := by
  unfold srcLevel
  split
  · rfl
  · refine getF_setF_ne ?_
    simp only [Fld.key, Fld.up, R.RST_SRC_MAP_LEVEL, R.RST_CAUSE_SRC]
    omega

theorem islPresent_caused : islPresent (caused src s) i = islPresent s i := by
  have hv : flag (caused src s) R.GLB_CAP_VALID = flag s R.GLB_CAP_VALID := congrArg (· == 1) (getF_setF_apart (by decide))
  have hl : lanesHi (caused src s) = lanesHi s := congrArg (· == 1) (getF_setF_apart (by decide))
  simp only [islPresent, hv, hl]

/-- Without a target a UNIT level resets nothing (R390). -/
theorem strike_noTarget (hl : srcLevel s src = 3) (ht : unitTarget src i = 0 ∨ islPresent s (unitTarget src i) = false) :
    strike src i s = raise R.RST_EVENT_RESET_NO_TARGET (caused src s) := by
  refine if_pos ⟨srcLevel_caused.trans hl, ?_⟩
  change unitTarget src i = 0 ∨ (!islPresent (caused src s) (unitTarget src i)) = true
  rw [islPresent_caused]
  simpa using ht

/-- With no reset in progress, sources but 3 and 8 begin theirs. -/
theorem strike_begins (hj : s.sys.jobs = []) (h3 : src ≠ 3) (h8 : src ≠ 8)
    (ht : ¬ (srcLevel s src = 3 ∧ (unitTarget src i = 0 ∨ islPresent s (unitTarget src i) = false))) :
    strike src i s = pinFollows false (if srcLevel s src = 3 then beginReset src 3 (unitTarget src i) [] (caused src s)
      else beginReset src (srcLevel s src) 0 [] (caused src s)) := by
  rw [← srcLevel_caused (src := src), ← islPresent_caused (src := src)] at ht
  rw [← srcLevel_caused (src := src)]
  replace hj : (caused src s).sys.jobs = [] := hj
  unfold strike
  rw [show setIsl R.RST_CAUSE_SRC src true s = caused src s from rfl]
  generalize caused src s = c at ht hj ⊢
  have hd : driven c = false := by rw [driven, hj]; rfl
  have hc : { c with sys := { c.sys with jobs := [] } } = c := by rw [← hj]
  have hn : ¬ (srcLevel c src = 3 ∧ (unitTarget src i = 0 ∨ (!islPresent c (unitTarget src i)) = true)) := by simpa using ht
  dsimp only
  rw [if_neg hn]
  simp only [hj, h3, h8, hd, List.any_nil, List.filter_nil, List.flatMap_nil, Bool.and_false, Bool.or_self, Bool.false_eq_true,
    decide_false, Bool.false_and, or_self, if_false]
  exact congrArg _ (ite_congr rfl (fun _ => rfl) fun _ => congrArg _ hc)

/-- A level below UNIT needs no target. -/
theorem strike_level (hj : s.sys.jobs = []) (h3 : src ≠ 3) (h8 : src ≠ 8) (hl : srcLevel s src < 3) :
    strike src i s = pinFollows false (beginReset src (srcLevel s src) 0 [] (caused src s)) := by
  rw [strike_begins hj h3 h8 (fun h => absurd h.1 hl.ne), if_neg hl.ne]

end

/-! ### The pin RESET_N (R393 to R395) -/

section

variable {s : State} {us isl : Nat}

theorem tickUs_begin : tickUs us s.begin = (tickUs us s).begin := by
  unfold tickUs
  change (if s.sys.us < us then _ else _) = _
  split <;> rfl

theorem pinIgnored_tickUs_begin : pinIgnored (tickUs us s.begin) = pinIgnored (tickUs us s) := by
  rw [tickUs_begin]
  rfl

theorem tickUs_jobs : (tickUs us s).sys.jobs = s.sys.jobs := by
  unfold tickUs
  split <;> rfl

theorem driven_tickUs : driven (tickUs us s) = driven s := by
  rw [driven, driven, tickUs_jobs]

/-- RESET_N and its glitches count unless the pin is ignored. -/
theorem exec_resetN : exec (.resetNAccept us) s =
    .next (if pinIgnored (tickUs us s) then tickUs us s.begin else strike 1 0 (tickUs us s.begin)) ∧
    exec (.resetNGlitch us) s = .next (if pinIgnored (tickUs us s) then tickUs us s.begin
      else bump R.RST_CNT_GLITCH_COUNT (tickUs us s.begin)) := by
  rw [← pinIgnored_tickUs_begin]
  exact ⟨rfl, rfl⟩

/-- Whether the stretch of reset `j` ends now. -/
def stretchEnds (isl : Nat) (pin : StretchEnd) (j : RstJob) : Bool :=
  (if j.level = 3 then j.isl == isl else isl == 0) && decide (j.start + 20000 ≤ pin.us) && (pin.high || j.src ≠ 1)

theorem stretchEnds_iff {pin : StretchEnd} {j : RstJob} : stretchEnds isl pin j = true ↔
    (if j.level = 3 then j.isl = isl else isl = 0) ∧ j.start + 20000 ≤ pin.us ∧ (pin.high = true ∨ j.src ≠ 1) := by
  unfold stretchEnds
  split_ifs <;> simp [and_assoc]

theorem exec_resetStretchEnd {pin : StretchEnd} :
    exec (.resetStretchEnd isl pin) s = .next (jobsSettle (pinFollows (driven s.begin)
    { tickUs pin.us s.begin with sys := { (tickUs pin.us s.begin).sys with
        jobs := s.begin.sys.jobs.map fun j => if stretchEnds isl pin j then { j with stretched := true } else j } })) := by
  rw [← driven_tickUs (s := s.begin) (us := pin.us), ← tickUs_jobs (s := s.begin) (us := pin.us)]
  rfl

end

/-- Settles O52: POWER_ON by what it starts from, the source map and the strikes by the lemmas above, the pin by its cases. -/
theorem resetSourcesStrikeAndAreMapped : Obligations.ResetSourcesStrikeAndAreMapped := by
  unfold Obligations.ResetSourcesStrikeAndAreMapped
  refine ⟨fun d p s => ⟨fun h => ?_, fun h => exec_powerOn.trans (by rw [h]; rfl)⟩, fun r uv ns => ?_,
    fun us s => ⟨fun h => ?_, fun h => ?_⟩,
    fun req val s hr => ran_writeAt_of_reaches hr, fun req val s hr => ran_writeAt_of_reaches hr,
    fun val s => ⟨fun h => if_pos h, fun h => if_neg (by simp [h]), fun h => if_pos h, fun k h h1 h8 => ?_⟩,
    fun src i s hj h9 h3 h8 => ⟨strike_noTarget, fun hl ht hp => ?_, fun hl => ?_⟩, fun isl pin s u hu ends he => ?_,
      fun was s => ⟨?_, ?_, ?_⟩⟩
  · rw [exec_powerOn, if_pos h, chooseSlot_cold rfl]
    refine ⟨_, rfl, rfl, rfl, rfl, rfl, rfl, rfl, ?_, ?_, ?_, ?_, ?_⟩
    · change getF (setF R.RST_STATUS_PROFILE_SLOT _ _) _ = _
      rw [getF_setF_same]
      change (p.profsel % 4 + 4 * b2n p.addr) % 4 % 4 = p.profsel % 4
      omega
    · change getF (setF R.RST_STATUS_PROFILE_SLOT _ _) _ = _
      rw [getF_setF_apart (by decide), getF_setF_apart (by decide), getF_setF_apart (by decide), getF_setF_apart (by decide),
        getF_poweredUp]
      decide
    · change getF (setF R.RST_STATUS_PROFILE_SLOT _ _) _ = _
      rw [getF_setF_apart (by decide), getF_setF_apart (by decide), getF_setF_apart (by decide), getF_setF_apart (by decide),
        getF_poweredUp]
      decide
    · simp [emit]
    · simp [emit]
  · simp [supplyStrikes]
  · simpa [h] using exec_resetN (us := us) (s := s)
  · simpa [h] using exec_resetN (us := us) (s := s)
  · rw [writeSrcMap_unlocked h]
    exact source_foldl_mapSource (by omega) (List.mem_range.mpr (by omega))
  · rw [strike_begins hj h3 h8 (by simp [ht, hp]), if_pos hl]
    rfl
  · obtain ⟨hsrc, hlvl, hbusy⟩ := status_beginReset (isl := 0) (lost := []) (s := caused src s) (by omega : src < 16)
      (by omega : srcLevel s src < 4)
    rw [strike_level hj h3 h8 hl]
    refine ⟨rfl, ?_⟩
    rw [getF_congr pinFollows_regs, getF_congr pinFollows_regs, getF_congr pinFollows_regs, getF_congr pinFollows_regs]
    exact ⟨hsrc, hlvl, hbusy, ready_beginReset (by omega)⟩
  · have hends : ends = fun j => if stretchEnds isl pin j then { j with stretched := true } else j :=
      funext fun j => (he j).trans (if_congr stretchEnds_iff.symm rfl rfl)
    rw [exec_resetStretchEnd, hu, hends, tickUs_jobs]
    rfl
  · rintro rfl hd
    simp [pinFollows, hd]
  · rintro rfl hd
    simp [pinFollows, hd]
  · rintro rfl
    exact pinFollows_eq

end Sys2Proof.Machine

/-! Proofs about the start (spec/14): what an attempt to load a profile consumes (R404, R413). -/

namespace Sys2Proof.Machine

/-! ### A profile attempt draws no free value (R404) -/

/-- A state in which the profile load is under way, and slot 0, the one of the straps, is VALID with an image of no octets. -/
def emptyImage : State :=
  { State.reset with sys := { State.reset.sys with loads := [3], slots := [(0, { Slot.empty with state := slVALID })] } }

/-- The slot reads as an image that fails the first check. -/
theorem slotImage_emptyImage : slotImage emptyImage (getF emptyImage R.RST_STATUS_PROFILE_SLOT) = some [] := by decide

theorem profCheck_nil {s : State} : profCheck s .reset [] = 2 := rfl

/-- How many free values are drawn before the outcome of a step. -/
def freshAfter : Host.Outcome State Fault Refusal → Nat
  | .next s => s.fresh
  | _ => 0

theorem loadProfile_emptyImage_fresh : freshAfter (exec (.loadAttemptComplete (.profile true) 0) emptyImage) = 0 := by decide

/-- Refutes O53: an attempt whose slot can be read leaves the count of free values as it is (in `emptyImage` at 0), while the
clause of LOAD_ATTEMPT_COMPLETE on profiles has it go up by 1 for every image. -/
theorem not_loadsSelfTestsAndReleasesBringIslandsUp : ¬ Obligations.LoadsSelfTestsAndReleasesBringIslandsUp := by
  unfold Obligations.LoadsSelfTestsAndReleasesBringIslandsUp
  rintro ⟨-, -, -, -, -, -, -, -, -, hprofile, -⟩
  obtain ⟨-, hsome⟩ := hprofile true 0 emptyImage _ _ (by decide) (by decide) rfl rfl
  have hfailed := (hsome [] slotImage_emptyImage rfl).2 (by rw [profCheck_nil]; decide)
  have hfresh := congrArg freshAfter hfailed
  rw [loadProfile_emptyImage_fresh] at hfresh
  exact absurd hfresh (by decide)

end Sys2Proof.Machine

/-! Proofs about the firmware images and measurements (spec/15): the registers that the boot ROM writes. -/

namespace Sys2Proof.Machine

/-! ### The measurement registers (R433, R434) -/

section

variable {l : List Fld} {s t : State} {m n j k d v kind : Nat}

/-- Word `j` of measurement register `m`, by its own place. -/
def measWord (m j : Nat) : Fld := ⟨0x38100 + 0x40 * m + 4 * j, 0, 32, 0⟩

theorem setF_measFld : setF (measFld m) v s j = setF (measWord m j) v s := by
  have hk : (measFld m).key j = (measWord m j).key 0 := by
    simp only [Fld.key, measFld, measWord]
    omega
  simp only [setF, hk]
  rfl

/-- What a measurement writes. -/
def measFields (m : Nat) : List Fld := measCnt m :: (List.range 12).map (measWord m)

theorem writesFields_setMeas (hl : measFields m ⊆ l) (h : WritesFields l s t) : WritesFields l s (setMeas m d t) := by
  refine List.foldlRecOn (motive := WritesFields l s) _ _ h fun u hu j hj => ?_
  rw [setF_measFld]
  exact hu.setF (hl (List.mem_cons_of_mem _ (List.mem_map_of_mem hj)))

theorem writesFields_extend (hl : measFields m ⊆ l) (h : WritesFields l s t) : WritesFields l s (extend m kind d t) := by
  have hcnt : WritesFields l s (setF (measCnt m)
      (satN 255 (getF (setMeas m (Config.sha384 (digestOctets (getMeas t m) ++ digestOctets d)).toNat t) (measCnt m) + 1))
      (setMeas m (Config.sha384 (digestOctets (getMeas t m) ++ digestOctets d)).toNat t)) :=
    (writesFields_setMeas hl h).setF (hl (List.mem_cons_self ..))
  unfold extend
  dsimp only
  split
  · exact hcnt.of_regs rfl
  · exact hcnt.of_regs rfl

end

/-! ### Images (R418 to R429) -/

section

variable {l : List Fld} {s t : State} {servo late : Bool} {sif : Option Nat} {m a n k : Nat}

theorem writesFields_eccReadAll (hl : eccFields ⊆ l) (h : WritesFields l s t) : WritesFields l s (eccReadAll m a n t).2 := by
  refine List.foldlRecOn (motive := fun x : Bool × State => WritesFields l s x.2) _ _ h fun x hx w _ => ?_
  exact hx.trans ((writesFields_eccRead .refl).mono hl)

theorem writesFields_fullWriteAll (hl : eccFields ⊆ l) (h : WritesFields l s t) : WritesFields l s (fullWriteAll m a n t) := by
  have hr : WritesFields l s (eccRepair m a n t) :=
    h.foldl (e := fun s w => setEcc m w 0 s) fun u x hu => hu.of_regs rfl
  exact hr.trans ((writesFields_fullWrite .refl).mono hl)

/-- What the choice, the measurement and the start of the images write, in FWT_STATUS their source, signer and cause. -/
def imageFields : List Fld := eccFields ++ (measFields 2 ++ measFields 3) ++
  [R.FWT_STATUS_STAGED_MGMT, R.FWT_STATUS_STAGED_SERVO, R.FWT_STATUS_MGMT_SRC, R.FWT_STATUS_SERVO_SRC, R.FWT_STATUS_MGMT_SIG,
    R.FWT_STATUS_SERVO_SIG, R.FWT_MGMT_VER_VERSION, R.FWT_SERVO_VER_VERSION, R.FWT_SIF_MGMT, R.FWT_SIF_SERVO,
      R.FWT_EVENT_FW_COPY_FALLBACK]

theorem eccFields_subset : eccFields ⊆ imageFields := List.subset_append_of_subset_left _ (List.subset_append_left ..)

theorem writesFields_stageRead (h : WritesFields imageFields s t) : WritesFields imageFields s (stageRead servo t) := by
  have hr := writesFields_eccReadAll (m := 16) (a := stageBase servo) (n := stageWords servo) eccFields_subset h
  unfold stageRead
  split
  · dsimp only
    split
    · exact hr
    · unfold discardStaged stagedShown
      refine WritesFields.setFlag (WritesFields.setFlag ?_ (by decide)) (by decide)
      exact hr.of_regs rfl
  · exact h

theorem writesFields_measureImage {c : Nat × List Nat} (h : WritesFields imageFields s t) :
    WritesFields imageFields s (measureImage servo k c t) := by
  unfold measureImage
  dsimp only
  have hm : measFields (if servo then 3 else 2) ⊆ imageFields := by
    cases servo <;> decide
  have hf : ∀ f ∈ [sigFld servo, srcFld servo, verFld servo, sifFld servo], f ∈ imageFields := by
    cases servo <;> decide
  have he := writesFields_extend (kind := k) (d := (Config.sha384 (c.2.take (0x80 + leAt c.2 0x0C 4))).toNat) hm h
  exact (((he.setF (hf _ (by simp))).setF (hf _ (by simp))).setF (hf _ (by simp))).setF (hf _ (by simp))

/-! #### The boot's part of the system state -/

theorem correctedRead_profDone {bank w : Nat} {scrub : Bool} :
    (correctedRead m bank w scrub s).sys.profDone = s.sys.profDone := by
  have hl : (latchAddr m false scrub bank w s).sys.profDone = s.sys.profDone :=
    congrArg Sys.profDone ((keeps_latchAddr (W := 2) rfl keeps_refl).same.sys rfl)
  unfold correctedRead
  dsimp only
  split
  · exact hl
  · rw [raiseAt_sys]
    exact hl

theorem uncorrectable_sys {bank w : Nat} {scrub : Bool} : (uncorrectable m bank w scrub s).sys = s.sys :=
  (keeps_uncorrectable (W := 258) rfl keeps_refl).same.sys rfl

theorem eccRead_profDone {w : Nat} : (eccRead m w s).2.sys.profDone = s.sys.profDone := by
  unfold eccRead
  split
  · rfl
  · exact correctedRead_profDone
  · exact congrArg Sys.profDone uncorrectable_sys

theorem eccReadAll_profDone : (eccReadAll m a n s).2.sys.profDone = s.sys.profDone := by
  refine List.foldlRecOn (motive := fun x : Bool × State => x.2.sys.profDone = s.sys.profDone) _ _ rfl fun x hx w _ => ?_
  exact eccRead_profDone.trans hx

theorem stageRead_profDone : (stageRead servo s).sys.profDone = s.sys.profDone := by
  have hr := eccReadAll_profDone (m := 16) (a := stageBase servo) (n := stageWords servo) (s := s)
  unfold stageRead
  split
  · dsimp only
    split
    · exact hr
    · exact hr
  · rfl

/-- A measurement touches the log of the measurements only. -/
theorem extend_sys {d : Nat} : ∃ ml tr, (extend m k d s).sys = { s.sys with measLog := ml, logTrunc := tr } := by
  have hm : (setMeas m (Config.sha384 (digestOctets (getMeas s m) ++ digestOctets d)).toNat s).sys = s.sys :=
    List.foldlRecOn (motive := fun t : State => t.sys = s.sys) _ _ rfl fun t ht j _ => ht
  unfold extend
  dsimp only
  split
  · simp only [setF_sys, hm]
    exact ⟨_, _, rfl⟩
  · simp only [setF_sys, hm]
    exact ⟨_, _, rfl⟩

theorem extend_profDone {d : Nat} : (extend m k d s).sys.profDone = s.sys.profDone := by
  obtain ⟨ml, tr, h⟩ := extend_sys (m := m) (k := k) (d := d) (s := s)
  rw [h]

theorem extend_late {d : Nat} : (extend m k d s).sys.late = s.sys.late := by
  obtain ⟨ml, tr, h⟩ := extend_sys (m := m) (k := k) (d := d) (s := s)
  rw [h]

theorem measureImage_profDone {c : Nat × List Nat} : (measureImage servo k c s).sys.profDone = s.sys.profDone := extend_profDone

/-! #### Choice (R423) -/

theorem imgCheck_le {l : List Nat} : imgCheck s servo l ≤ 6 := by
  have hsig : imgSignature s l ≤ 6 := by
    unfold imgSignature
    dsimp only
    split_ifs <;> omega
  unfold imgCheck
  dsimp only
  split_ifs
  all_goals omega

theorem choose_le : (choose s servo).1 ≤ 6 := by
  unfold choose
  dsimp only
  split
  · exact Nat.zero_le _
  · split
    · exact le_rfl
    · dsimp only
      split
      · exact imgCheck_le
      · omega

/-- A candidate that passes its checks is found. -/
theorem choose_of_mem {c : Nat × List Nat} (hc : c ∈ candidates s servo) (hk : imgCheck s servo c.2 = 0) :
    (choose s servo).1 = 0 ∧ ∃ c, (choose s servo).2 = some c ∧ c ∈ candidates s servo ∧ imgCheck s servo c.2 = 0 := by
  obtain ⟨x, hx⟩ : ∃ x, (candidates s servo).find? (fun c => imgCheck s servo c.2 == 0) = some x :=
    Option.isSome_iff_exists.mp (List.find?_isSome.mpr ⟨c, hc, by simp [hk]⟩)
  have he : choose s servo = (0, some x) := by simp only [choose, hx]
  rw [he]
  exact ⟨rfl, x, rfl, List.mem_of_find?_eq_some hx, by simpa using List.find?_some hx⟩

/-! #### Steps 3 to 5 (R425, R426, R429) -/

/-- The state in which the candidates of a type are read: its source and signer taken back, its staged image read. -/
def choiceState (servo : Bool) (s : State) : State := stageRead servo (setF (srcFld servo) 0 (setF (sigFld servo) 0 s))

theorem srcFld_mem : srcFld servo ∈ imageFields := by
  cases servo <;> decide

theorem sigFld_mem : sigFld servo ∈ imageFields := by
  cases servo <;> decide

/-- An image ends with its cause, 9 where it is late; nothing of the boot but its own fields has changed. -/
theorem takeImage_eq : ∃ c u, takeImage servo late sif s = setF (causeFld servo) c u ∧ WritesFields imageFields s u ∧
    u.sys.profDone = s.sys.profDone ∧ (late = true → c = 9) ∧
    (late = false → servo = false → c = (choose (choiceState servo s) servo).1) := by
  have hset : WritesFields imageFields s (setF (srcFld servo) 0 (setF (sigFld servo) 0 s)) :=
    (WritesFields.refl.setF sigFld_mem).setF srcFld_mem
  cases late with
  | true => exact ⟨9, _, rfl, hset, rfl, fun _ => rfl, fun h => absurd h (by decide)⟩
  | false =>
    have hr : WritesFields imageFields s (choiceState servo s) := writesFields_stageRead hset
    have hp : (choiceState servo s).sys.profDone = s.sys.profDone := stageRead_profDone
    have hnoted (b b' : Bool) : WritesFields imageFields s (whenS b (fun s => setF (sigFld servo) 3 s)
        (whenS b' (fun s => raise R.FWT_EVENT_FW_COPY_FALLBACK s) (choiceState servo s))) :=
      (hr.whenS fun u hu => hu.raise (by decide)).whenS fun u hu => hu.setF sigFld_mem
    have hnotedp (b b' : Bool) : (whenS b (fun s => setF (sigFld servo) 3 s)
        (whenS b' (fun s => raise R.FWT_EVENT_FW_COPY_FALLBACK s) (choiceState servo s))).sys.profDone = s.sys.profDone := by
      cases b <;> cases b' <;> simp [whenS, hp]
    rcases hch : choose (choiceState servo s) servo with ⟨cause, img⟩
    simp only [takeImage, choiceState] at hch ⊢
    simp only [hch, Bool.false_eq_true, if_false]
    refine ⟨_, _, rfl, ?_, ?_, by simp, fun _ h => by simp [h]⟩
    · cases img with
      | none => exact hnoted _ _
      | some c => exact writesFields_measureImage (hnoted _ _)
    · cases img with
      | none => exact hnotedp _ _
      | some c => exact measureImage_profDone.trans (hnotedp _ _)

/-- A late image has cause 9. -/
theorem cause_takeImage_late : getF (takeImage servo true sif s) (causeFld servo) = 9 := by
  obtain ⟨c, u, he, -, -, hc, -⟩ := takeImage_eq (servo := servo) (late := true) (sif := sif) (s := s)
  rw [he, hc rfl, getF_setF_same]
  cases servo <;> rfl

/-- The management image that is not late has the cause of its choice. -/
theorem cause_takeImage_mgmt : getF (takeImage false false sif s) (causeFld false) = (choose (choiceState false s) false).1 := by
  obtain ⟨c, u, he, -, -, -, hc⟩ := takeImage_eq (servo := false) (late := false) (sif := sif) (s := s)
  rw [he, hc rfl rfl, getF_setF_same]
  exact Nat.mod_eq_of_lt (lt_of_le_of_lt choose_le (by decide))

theorem getF_takeImage {f : Fld} {i : Nat} (hf : imageFields.all f.apart = true) (hc : f.apart (causeFld servo) = true) :
    getF (takeImage servo late sif s) f i = getF s f i := by
  obtain ⟨c, u, he, hw, -⟩ := takeImage_eq (servo := servo) (late := late) (sif := sif) (s := s)
  rw [he, getF_setF_apart hc, hw.getF_eq hf]

theorem takeImage_profDone : (takeImage servo late sif s).sys.profDone = s.sys.profDone := by
  obtain ⟨c, u, he, -, hp, -⟩ := takeImage_eq (servo := servo) (late := late) (sif := sif) (s := s)
  rw [he]
  exact hp

/-- What the outcome of the images writes. -/
def outcomeFields : List Fld := [R.FWT_STATUS_SERVO_CAUSE, R.FWT_EVENT_FW_LIMP, R.FWT_EVENT_SERVO_NOT_STARTED]

theorem writesFields_outcome : WritesFields outcomeFields s (outcome s) := by
  unfold outcome
  refine WritesFields.whenS (WritesFields.refl.whenS fun u hu => ?_) fun u hu => hu.raise (by decide)
  exact WritesFields.raise (hu.setF (by decide)) (by decide)

theorem outcome_profDone : (outcome s).sys.profDone = s.sys.profDone :=
  congrArg Sys.profDone ((keeps_outcome (W := 258) rfl keeps_refl).same.sys rfl)

/-- Without the management image the servo cause says so (R429). -/
theorem servoCause_outcome (h : getF s R.FWT_STATUS_MGMT_CAUSE ≠ 0) : getF (outcome s) R.FWT_STATUS_SERVO_CAUSE = 8 := by
  have h8 : getF (raise R.FWT_EVENT_FW_LIMP (setF R.FWT_STATUS_SERVO_CAUSE 8 s)) R.FWT_STATUS_SERVO_CAUSE = 8 := by
    rw [getF_raise_apart (by decide), getF_setF_same]
    rfl
  simp only [outcome, decide_eq_true h, whenS_true]
  unfold whenS
  split
  · exact (getF_raise_apart (by decide)).trans h8
  · exact h8

end

/-! #### Steps 6 and 7 (R425) -/

section

variable {s t : State} {l : List Nat} {us n val : Nat} {late : Bool}

/-- SAFE's count never goes back; nothing else changes. -/
theorem tickUs_eq : tickUs us s = { s with sys := { s.sys with us := max s.sys.us us } } := by
  unfold tickUs
  split_ifs with h
  · rw [max_eq_right h.le]
  · rw [max_eq_left (not_lt.mp h)]

/-- The instant of milestone 7, by its own place. -/
def readyInstant : Fld := ⟨0x1005C, 0, 32, 0⟩

/-- What READY writes: itself and its milestone. -/
def readyFields : List Fld := [R.RST_STATUS_READY, readyInstant]

theorem writesFields_readyCheck (h : WritesFields readyFields s t) : WritesFields readyFields s (readyCheck t) := by
  have hset {v : Nat} {u : State} (hu : WritesFields readyFields s u) :
      WritesFields readyFields s (setF R.RST_MILESTONE_T_US v u 7) := hu.setF (f := readyInstant) (i := 0) (by decide)
  have hready : WritesFields readyFields s (setF R.RST_STATUS_READY 1 { t with flt := { t.flt with startUp := false } }) :=
    WritesFields.setF (h.of_regs rfl) (by decide)
  unfold readyCheck milestone
  exact ((hset hready).ite hready).ite h

theorem readyCheck_sys : (readyCheck s).sys = s.sys := (keeps_readyCheck (W := 258) rfl keeps_refl).same.sys rfl

/-- The boot ROM says that it is done. -/
def bootEnded (s : State) : State :=
  let s := setF R.HIF_GSTAT_MCU_READY 1 (setF R.FWT_STATUS_BOOT_DONE 1 s)
  { s with sys := { s.sys with boot := 2 } }

theorem getF_bootEnded {f : Fld} {j : Nat} :
    getF (bootEnded s) f j = getF (setF R.HIF_GSTAT_MCU_READY 1 (setF R.FWT_STATUS_BOOT_DONE 1 s)) f j := rfl

theorem bootFinish_ended : ∃ u, bootFinish l s = readyCheck (bootEnded u) := by
  unfold bootFinish bootEnded
  exact ⟨_, rfl⟩

/-- The boot is over: BOOT_DONE and MCU_READY are 1. -/
theorem bootFinish_done : (bootFinish l s).sys.boot = 2 ∧ getF (bootFinish l s) R.FWT_STATUS_BOOT_DONE = 1 ∧
    getF (bootFinish l s) R.HIF_GSTAT_MCU_READY = 1 := by
  obtain ⟨u, hu⟩ := bootFinish_ended (l := l) (s := s)
  have hdone : getF (bootEnded u) R.FWT_STATUS_BOOT_DONE = 1 := by
    rw [getF_bootEnded, getF_setF_apart (by decide), getF_setF_same]
    rfl
  have hready : getF (bootEnded u) R.HIF_GSTAT_MCU_READY = 1 := by
    rw [getF_bootEnded, getF_setF_same]
    rfl
  rw [hu, readyCheck_sys, (writesFields_readyCheck .refl).getF_eq (by decide),
    (writesFields_readyCheck .refl).getF_eq (by decide)]
  exact ⟨rfl, hdone, hready⟩

/-- Limp mode: neither image runs. -/
def limps (l : List Nat) (s : State) : State :=
  setFlag R.FWT_STATUS_MGMT_RUN false (setFlag R.FWT_STATUS_LIMP true (setFlag R.FWT_STATUS_SERVO_RUN false
    (extend 4 4 (Config.sha384 l).toNat s)))

theorem getF_extend {f : Fld} {m k d j : Nat} (hf : (measFields m).all f.apart = true) : getF (extend m k d s) f j = getF s f j :=
  (writesFields_extend (List.Subset.refl _) .refl).getF_eq hf

theorem bootFinish_limps (hm : getF s R.FWT_STATUS_MGMT_CAUSE ≠ 0) (hs : getF s R.FWT_STATUS_SERVO_CAUSE ≠ 0) :
    bootFinish l s = readyCheck (bootEnded (limps l s)) := by
  have hms : (getF (extend 4 4 (Config.sha384 l).toNat s) R.FWT_STATUS_SERVO_CAUSE == 0) = false := by
    rw [getF_extend (by decide)]
    exact beq_false_of_ne hs
  have hmm : (getF (setFlag R.FWT_STATUS_SERVO_RUN false
      (extend 4 4 (Config.sha384 l).toNat s)) R.FWT_STATUS_MGMT_CAUSE == 0) = false := by
    rw [setFlag, getF_setF_apart (by decide), getF_extend (by decide)]
    exact beq_false_of_ne hm
  simp only [bootFinish, hms, hmm, whenS_false, limps, bootEnded, Bool.not_false]

theorem getF_readyCheck_bootEnded {f : Fld} {j : Nat}
    (hf : (R.HIF_GSTAT_MCU_READY :: R.FWT_STATUS_BOOT_DONE :: readyFields).all f.apart = true) :
    getF (readyCheck (bootEnded s)) f j = getF s f j := by
  simp only [List.all_cons, Bool.and_eq_true] at hf
  obtain ⟨hr, hb, hf⟩ := hf
  rw [(writesFields_readyCheck .refl).getF_eq hf, getF_bootEnded, getF_setF_apart hr, getF_setF_apart hb]

/-! #### BOOT_ROM_START (R425) -/

/-- What the SFDP of the flash says. -/
def flashFound (flash : Option (Bool × Nat × Nat)) (s : State) : State :=
  match flash with
  | some (a4, m, z) => setF R.HIF_QSPI_CFG_PRESENT 1
    (setFlag R.HIF_QSPI_CFG_ADDR4 a4 (setF R.HIF_QSPI_CFG_READ_MODE m (setF R.HIF_QSPI_CFG_SIZE_LOG2 z s)))
  | none => setF R.HIF_QSPI_CFG_PRESENT 0 s

/-- The state in which the boot ROM looks for the management image. -/
def bootBegun (flash : Option (Bool × Nat × Nat)) (us : Nat) (s : State) : State :=
  flashFound flash (bootStep1 (tickUs us s.begin))

/-- The state in which the boot ROM has settled both images: steps 1 to 5. -/
def bootChosen (flash : Option (Bool × Nat × Nat)) (us : Nat) (s : State) : State :=
  let b := takeImage false ((bootBegun flash us s).sys.late.contains 0) none (bootBegun flash us s)
  let sif := if getF b R.FWT_STATUS_MGMT_CAUSE = 0 then some (getF b R.FWT_SIF_MGMT) else none
  outcome (takeImage true (b.sys.late.contains 1) sif b)

/-- The boot waits for the application of the profile. -/
def bootWaits (flash : Option (Bool × Nat × Nat)) (us : Nat) (s : State) : State :=
  { bootChosen flash us s with sys := { (bootChosen flash us s).sys with boot := 1 } }

theorem getF_bootWaits {flash : Option (Bool × Nat × Nat)} {f : Fld} {j : Nat} :
    getF (bootWaits flash us s) f j = getF (bootChosen flash us s) f j := getF_with_sys

theorem exec_bootRomStart {flash : Option (Bool × Nat × Nat)} (hu : islUp (tickUs us s) islMCU = true) (hb : s.sys.boot = 0) :
    exec (.bootRomStart flash us) s = .next (if (bootChosen flash us s).sys.profDone then bootFinish [] (bootWaits flash us s)
      else bootWaits flash us s) := by
  have hc : (islUp (tickUs us s.begin) islMCU && (tickUs us s.begin).sys.boot == 0) = true := by
    rw [tickUs_begin, islUp_begin, hu, tickUs_eq]
    simpa using hb
  change execBootRomStart flash us s = _
  unfold execBootRomStart bootWaits bootChosen bootBegun flashFound
  dsimp only
  rw [if_pos hc]
  rfl

theorem flashFound_sys {flash : Option (Bool × Nat × Nat)} : (flashFound flash s).sys = s.sys := by
  cases flash <;> rfl

/-- Whether the profile is done and which image is late does not change as the boot begins. -/
theorem bootBegun_kept {flash : Option (Bool × Nat × Nat)} : (bootBegun flash us s).sys.profDone = s.sys.profDone ∧
    (bootBegun flash us s).sys.late = s.sys.late := by
  rw [bootBegun, flashFound_sys, tickUs_eq]
  unfold bootStep1
  dsimp only
  rw [extend_profDone, extend_profDone, extend_late, extend_late]
  exact ⟨rfl, rfl⟩

theorem bootChosen_profDone {flash : Option (Bool × Nat × Nat)} : (bootChosen flash us s).sys.profDone = s.sys.profDone :=
  outcome_profDone.trans (takeImage_profDone.trans (takeImage_profDone.trans bootBegun_kept.1))

/-- PRESENT says whether there is a flash. -/
theorem present_bootChosen {flash : Option (Bool × Nat × Nat)} :
    getF (bootChosen flash us s) R.HIF_QSPI_CFG_PRESENT = b2n flash.isSome := by
  have hf : getF (bootBegun flash us s) R.HIF_QSPI_CFG_PRESENT = b2n flash.isSome := by
    cases flash <;> exact getF_setF_same
  rw [bootChosen, writesFields_outcome.getF_eq (by decide), getF_takeImage (by decide) (by decide),
    getF_takeImage (by decide) (by decide), hf]

/-- A late management image: cause 9, and 8 of the servo image. -/
theorem causes_bootChosen_late {flash : Option (Bool × Nat × Nat)} (h : 0 ∈ s.sys.late) :
    getF (bootChosen flash us s) R.FWT_STATUS_MGMT_CAUSE = 9 ∧ getF (bootChosen flash us s) R.FWT_STATUS_SERVO_CAUSE = 8 := by
  have h9 {late : Bool} {sif : Option Nat} : getF (takeImage true late sif (takeImage false true none (bootBegun flash us s)))
      R.FWT_STATUS_MGMT_CAUSE = 9 :=
    (getF_takeImage (by decide) (by decide)).trans (cause_takeImage_late (servo := false))
  unfold bootChosen
  rw [bootBegun_kept.2, List.contains_iff_mem.mpr h]
  exact ⟨(writesFields_outcome.getF_eq (by decide)).trans h9, servoCause_outcome (by rw [h9]; decide)⟩

/-! #### FW_STEP_LATE (R426) -/

/-- Image `n` has missed its instant. -/
def noteLate (n : Nat) (s : State) : State :=
  raise R.RST_EVENT_STEP_LATE { s with sys := { s.sys with late := if s.sys.late.contains n then
    s.sys.late else s.sys.late ++ [n] } } islMCU

/-- The state in which step 7 has missed its instant. -/
def bootLate (s : State) : State := outcome (setF R.FWT_STATUS_MGMT_CAUSE 9 (setF R.FWT_STATUS_MGMT_SRC 0 (noteLate 0 s)))

theorem exec_fwStepLate {k : Nat} {u : State} (hm : islUp s islMCU = true) (hu : u = tickUs us s.begin)
    (hd : fwStepDue k us u = true) :
    exec (.fwStepLate ⟨k, us⟩) s = .next (if k = 3 ∧ u.sys.boot = 0 then noteLate 0 u
      else if k = 4 ∧ u.sys.boot = 0 then noteLate 1 u
      else if k = 7 ∧ u.sys.boot = 1 then bootFinish (if flag u R.RST_STATUS_PROFILE_APPLIED then u.sys.prof else []) (bootLate u)
      else u) := by
  have hn : ¬ (!islUp u islMCU || !fwStepDue k us u) = true := by
    have hup : islUp u islMCU = true := by
      rw [hu, tickUs_eq]
      exact hm
    simp [hup, hd]
  rw [hu] at hn ⊢
  exact ran_ite_neg hn

theorem causes_bootLate : getF (bootLate s) R.FWT_STATUS_MGMT_CAUSE = 9 ∧ getF (bootLate s) R.FWT_STATUS_SERVO_CAUSE = 8 := by
  have h9 : getF (setF R.FWT_STATUS_MGMT_CAUSE 9 (setF R.FWT_STATUS_MGMT_SRC 0 (noteLate 0 s))) R.FWT_STATUS_MGMT_CAUSE = 9 :=
    getF_setF_same
  exact ⟨(writesFields_outcome.getF_eq (by decide)).trans h9, servoCause_outcome (by rw [h9]; decide)⟩

/-- A late step 7 ends the boot in limp mode. -/
theorem bootFinish_bootLate : (bootFinish l (bootLate s)).sys.boot = 2 ∧
    getF (bootFinish l (bootLate s)) R.FWT_STATUS_MGMT_CAUSE = 9 ∧
    getF (bootFinish l (bootLate s)) R.FWT_STATUS_LIMP = 1 ∧ getF (bootFinish l (bootLate s)) R.FWT_STATUS_MGMT_RUN = 0 ∧
    getF (bootFinish l (bootLate s)) R.FWT_STATUS_SERVO_RUN = 0 := by
  obtain ⟨hm, hs⟩ := causes_bootLate (s := s)
  refine ⟨bootFinish_done.1, ?_⟩
  rw [bootFinish_limps (by rw [hm]; decide) (by rw [hs]; decide)]
  refine ⟨?_, ?_, ?_, ?_⟩
  · rw [getF_readyCheck_bootEnded (by decide), limps, setFlag, getF_setF_apart (by decide), setFlag, getF_setF_apart (by decide),
      setFlag, getF_setF_apart (by decide), getF_extend (by decide), hm]
  · rw [getF_readyCheck_bootEnded (by decide), limps, setFlag, getF_setF_apart (by decide), setFlag, getF_setF_same]
    rfl
  · rw [getF_readyCheck_bootEnded (by decide), limps, setFlag, getF_setF_same]
    rfl
  · rw [getF_readyCheck_bootEnded (by decide), limps, setFlag, getF_setF_apart (by decide), setFlag, getF_setF_apart (by decide),
      setFlag, getF_setF_same]
    rfl

/-! #### FWT_CTL (R422, R431) -/

/-- The servo image is chosen anew, its controller stopped. -/
def servoTaken (s : State) : State :=
  takeImage true false (some (getF s R.FWT_SIF_MGMT)) (setF R.FWT_STATUS_SERVO_RUN 0 s)

theorem servoRun_servoTaken : getF (servoTaken s) R.FWT_STATUS_SERVO_RUN = 0 := by
  rw [servoTaken, getF_takeImage (by decide) (by decide), getF_setF_same]
  rfl

theorem servoRestart_running (h : flag s R.FWT_STATUS_MGMT_RUN = true) : servoRestart s =
    if getF (servoTaken s) R.FWT_STATUS_SERVO_CAUSE = 0 then loadCode true (setF R.FWT_STATUS_SERVO_RUN 1 (servoTaken s))
    else raise R.FWT_EVENT_SERVO_NOT_STARTED (servoTaken s) := if_pos h

theorem writesFields_loadCode {servo : Bool} : WritesFields eccFields s (loadCode servo s) :=
  writesFields_eccReadAll (List.Subset.refl _) (writesFields_fullWriteAll (List.Subset.refl _) .refl)

/-- The servo image runs exactly if its cause is 0. -/
theorem servoRun_servoRestart (h : flag s R.FWT_STATUS_MGMT_RUN = true) :
    flag (servoRestart s) R.FWT_STATUS_SERVO_RUN = true ↔ getF (servoRestart s) R.FWT_STATUS_SERVO_CAUSE = 0 := by
  rw [servoRestart_running h]
  split
  · next hc =>
    rw [writesFields_loadCode.flag_eq (by decide), writesFields_loadCode.getF_eq (by decide), getF_setF_apart (by decide),
      hc, flag,
      getF_setF_same]
    decide
  · next hc =>
    rw [flag, getF_raise_apart (by decide), getF_raise_apart (by decide), servoRun_servoTaken]
    simpa using hc

end

/-- Settles O54: the boot by the states it passes, FW_STEP_LATE by its step, FWT_CTL by its bits. That a step is due at once
outside COLD or with the profile done is entry 173's choice. -/
theorem firmwareIsChosenMeasuredAndStarted : Obligations.FirmwareIsChosenMeasuredAndStarted := by
  unfold Obligations.FirmwareIsChosenMeasuredAndStarted
  refine ⟨fun fl us s hu hb => ⟨_, exec_bootRomStart hu hb, fun hp => ?_, fun hp => ?_⟩,
    fun servo late sif s => ⟨fun h => ?_, fun h hs => ?_⟩,
    fun servo s k l hc hk => choose_of_mem hc hk, fun k us s u hm hu hd => ⟨fun n hn hb => ?_, fun hk hb => ?_⟩, fun k us s => ?_,
    fun req val s hr => ran_writeAt_of_reaches hr, fun req val s hr => ran_writeAt_of_reaches hr,
      fun req val s hr => ran_writeAt_of_reaches hr,
    fun s => ⟨⟨rfl, rfl, rfl⟩, fun n => ?_, ?_, ?_, fun h => ?_, servoRun_servoRestart⟩⟩
  · rw [bootChosen_profDone, hp, if_neg (by decide), getF_bootWaits, getF_bootWaits, getF_bootWaits]
    exact ⟨rfl, present_bootChosen, fun hl => causes_bootChosen_late hl⟩
  · rw [bootChosen_profDone, hp, if_pos rfl]
    exact bootFinish_done
  · rw [h]
    exact cause_takeImage_late
  · rw [h, hs]
    exact cause_takeImage_mgmt
  · rw [exec_fwStepLate hm hu hd]
    have hb' : u.sys.boot = 0 := by
      rw [hu, tickUs_eq]
      exact hb
    have hl : u.sys.late = s.sys.late := by rw [hu, tickUs_eq]; rfl
    rw [← hl]
    rcases hn with ⟨rfl, rfl⟩ | ⟨rfl, rfl⟩
    · exact congrArg _ (if_pos ⟨rfl, hb'⟩)
    · exact congrArg _ ((if_neg (by omega)).trans (if_pos ⟨rfl, hb'⟩))
  · rw [exec_fwStepLate hm hu hd]
    have hb' : u.sys.boot = 1 := by
      rw [hu, tickUs_eq]
      exact hb
    rw [if_neg (by omega), if_neg (by omega), if_pos ⟨hk, hb'⟩]
    exact ⟨_, rfl, bootFinish_bootLate⟩
  · simp [fwStepDue, or_assoc]
  · simp [discardStaged, stagedShown]
  · exact (flag_setFlag_same (by decide)).trans (by simp)
  · refine (congrArg (· == 1) (getF_setF_apart (by decide))).trans ((flag_setFlag_same (by decide)).trans (by simp))
  · exact if_neg (by simp [h])

/-! ### What a measurement register reads (R433, R434) -/

section

variable {s : State} {m n j k d v kind : Nat} {l : List Nat}

/-- The words of `d` sum to it, up to the width they cover. -/
theorem foldl_words (d k : Nat) :
    (List.range k).foldl (fun a j => a + d / 2 ^ (32 * j) % 2 ^ 32 * 2 ^ (32 * j)) 0 = d % 2 ^ (32 * k) := by
  induction k with
  | zero => exact (Nat.mod_one d).symm
  | succ k ih =>
    rw [List.range_succ, List.foldl_append, ih, List.foldl_cons, List.foldl_nil, Nat.mul_succ, Nat.pow_add, Nat.mod_mul,
      Nat.mul_comm (2 ^ (32 * k))]

theorem word_setMeas_same (hj : j < 12) : getF (setMeas m d s) (measFld m) j = d / 2 ^ (32 * j) % 2 ^ 32 := by
  have hl (l : List Nat) (h : j ∈ l) : getF (l.foldl (fun s j => setF (measFld m) (d / 2 ^ (32 * j)) s j) s) (measFld m) j =
      d / 2 ^ (32 * j) % 2 ^ 32 := by
    induction l using List.reverseRecOn with
    | nil => simp at h
    | append_singleton l k ih =>
      rw [List.foldl_append, List.foldl_cons, List.foldl_nil]
      by_cases hk : j = k
      · rw [hk, getF_setF_same]
        rfl
      · rw [getF_setF_ne (by simp only [Fld.key, measFld]; omega)]
        exact ih ((List.mem_append.mp h).resolve_right (by simpa using hk))
  exact hl _ (List.mem_range.mpr hj)

theorem getF_setMeas_ne {f : Fld} (hk : ∀ j < 12, f.key k ≠ (measFld m).key j) : getF (setMeas m d s) f k = getF s f k :=
  List.foldlRecOn (motive := fun t => getF t f k = getF s f k) _ _ rfl fun _ ht j hj =>
    (getF_setF_ne (hk j (List.mem_range.mp hj))).trans ht

theorem getMeas_congr {t : State} (h : ∀ j < 12, getF t (measFld n) j = getF s (measFld n) j) : getMeas t n = getMeas s n :=
  List.foldl_ext _ _ 0 fun a j hj => by rw [h j (List.mem_range.mp hj)]

theorem getMeas_setMeas_same : getMeas (setMeas m d s) m = d % 2 ^ 384 := by
  rw [show 384 = 32 * 12 from rfl, ← foldl_words]
  exact List.foldl_ext _ _ 0 fun a j hj => by rw [word_setMeas_same (List.mem_range.mp hj)]

theorem getMeas_setMeas_ne (h : n ≠ m) : getMeas (setMeas m d s) n = getMeas s n :=
  getMeas_congr fun j hj => getF_setMeas_ne fun i hi => by
    simp only [Fld.key, measFld]
    omega

/-- What register `m` becomes by the digest `d`. -/
def extended (s : State) (m d : Nat) : Nat := (Config.sha384 (digestOctets (getMeas s m) ++ digestOctets d)).toNat

theorem extend_regs : (extend m kind d s).regs =
    (setF (measCnt m) (satN 255 (getF (setMeas m (extended s m d) s) (measCnt m) + 1)) (setMeas m (extended s m d) s)).regs := by
  unfold extend
  dsimp only
  split
  · rfl
  · rfl

theorem getMeas_extend (hm : m < 8) (hn : n < 8) : getMeas (extend m kind d s) n = getMeas (setMeas m (extended s m d) s) n :=
  getMeas_congr fun j hj => (getF_congr extend_regs).trans (getF_setF_ne (by
    simp only [Fld.key, measFld, measCnt]
    omega))

theorem count_extend (hm : m < 8) : getF (extend m kind d s) (measCnt m) = min 255 (getF s (measCnt m) + 1) := by
  rw [getF_congr extend_regs, getF_setF_same, getF_setMeas_ne (by intro j hj; simp only [Fld.key, measFld, measCnt]; omega),
    satN_eq_min]
  exact Nat.mod_eq_of_lt (lt_of_le_of_lt (min_le_left ..) (Nat.lt_succ_self 255))

/-- A measurement register is registers only. -/
theorem setMeas_eq : setMeas m d s = { s with regs := (setMeas m d s).regs } :=
  List.foldlRecOn (motive := fun t : State => t = { s with regs := t.regs }) _ _ rfl fun t ht j _ => by
    rw [ht]
    rfl

theorem measLog_extend (h : s.sys.measLog.length < 64) :
    (extend m kind d s).sys.measLog = s.sys.measLog ++ [⟨m, kind, copyNow s islMCU, d⟩] := by
  unfold extend
  rw [setMeas_eq]
  exact congrArg (fun t : State => t.sys.measLog) (if_pos h)

theorem measLog_extend_full (h : 64 ≤ s.sys.measLog.length) :
    (extend m kind d s).sys.measLog = s.sys.measLog ∧ (extend m kind d s).sys.logTrunc = true := by
  unfold extend
  rw [setMeas_eq]
  have hn : ¬ s.sys.measLog.length < 64 := not_lt.mpr h
  exact ⟨(congrArg (fun t : State => t.sys.measLog) (if_neg hn)).trans rfl, congrArg (fun t : State => t.sys.logTrunc)
    (if_neg hn)⟩

end

/-! ### Watchdogs and SPDM (R432, R437) -/

section

variable {s : State} {servo : Bool} {t us n : Nat} {q : SpdmReq}

/-- The watchdog is fed: its limit runs from `us`. -/
def wdFed (servo : Bool) (us : Nat) (s : State) : State :=
  { s with sys := { s.sys with wdog := smPut 0 s.sys.wdog (b2n servo) (us + getF s (wdTmo servo) * 1000) } }

theorem exec_watchdogFeed (hr : flag s R.FWT_STATUS_MGMT_RUN = true) (hu : islUp s islMCU = true) {u : State}
    (hs : u = if t = 0 then tickUs us s.begin else setF (wdTmo servo) t (setF (wdArmed servo) 1 (tickUs us s.begin))) :
    exec (.watchdogFeed servo t us) s = .next (if flag u (wdArmed servo) then wdFed servo us u else u) := by
  have hc : (flag (tickUs us s.begin) R.FWT_STATUS_MGMT_RUN && islUp (tickUs us s.begin) islMCU) = true := by
    rw [tickUs_begin, islUp_begin, flag_begin, tickUs_eq]
    exact Bool.and_eq_true_iff.mpr ⟨hr, hu⟩
  rw [hs]
  exact ran_ite_pos hc

theorem smGet_wdFed : smGet 0 (wdFed servo us s).sys.wdog (b2n servo) = us + getF s (wdTmo servo) * 1000 := smGet_smPut_same ..

theorem wdDue_tickUs {v : Nat} : wdDue (tickUs us s.begin) servo v = wdDue s servo v := by
  rw [tickUs_eq]
  rfl

theorem getF_wdFed {f : Fld} {j : Nat} : getF (wdFed servo us s) f j = getF s f j := getF_with_sys

/-- A limit arms the watchdog. -/
theorem armed_limit {u : State} (hs : u = setF (wdTmo servo) t (setF (wdArmed servo) 1 s)) :
    flag u (wdArmed servo) = true ∧ getF u (wdTmo servo) = t % 4096 := by
  subst hs
  cases servo <;> exact ⟨beq_iff_eq.mpr ((getF_setF_apart (by decide)).trans getF_setF_same), getF_setF_same⟩

/-- Neither an image nor the limp service answers. -/
def spdmAnswers (s : State) : Bool := islUp s islMCU && (flag s R.FWT_STATUS_MGMT_RUN || flag s R.FWT_STATUS_LIMP)

theorem exec_spdmRequest (h : islUp s islHOST = true) : exec (.spdmRequest q) s = .next
    (if !spdmAnswers s then emit (.spdm q 0 []) s.begin
    else match q with
      | .other _ => emit (.spdm q 1 []) s.begin
      | _ => emit (.spdm q 2 (spdmData q s)) s.begin) := by
  have hn : ¬ (!islUp s.begin islHOST) = true := by
    rw [islUp_begin, h]
    decide
  refine (ran_ite_neg hn).trans ?_
  cases q <;> rfl

end

/-- Settles O55: the watchdogs by what their feed writes, a measurement by its words, SPDM by who answers. Limits in whole
microseconds of SAFE's count (entry 109) and the classes of an answer (entry 110) are the model's. -/
theorem watchdogsMeasurementsAndSpdmAnswer : Obligations.WatchdogsMeasurementsAndSpdmAnswer := by
  unfold Obligations.WatchdogsMeasurementsAndSpdmAnswer
  refine ⟨fun servo t us s hr hu => ⟨fun ht => ?_, fun ha => ?_, fun ha => ?_⟩,
    fun us s => ⟨fun hd => ?_, fun hd => ?_, fun hd hr => ?_⟩,
    fun m kind d s hm => ⟨?_, count_extend hm, fun n hn hne => ?_, measLog_extend, measLog_extend_full⟩, fun s hu hl => ?_,
    fun m d s hu hr hm => ?_, fun q s hu => ⟨fun ha => ?_, fun hm ha hq => ?_, fun c hm ha hq => ?_⟩⟩
  · obtain ⟨harmed, hlimit⟩ := armed_limit (servo := servo) (t := t) (s := tickUs us s.begin) rfl
    rw [exec_watchdogFeed hr hu (if_neg ht).symm, if_pos harmed, ← hlimit]
    exact ⟨_, rfl, (flag_congr rfl).trans harmed, getF_wdFed, smGet_wdFed⟩
  · have hf : flag (tickUs us s.begin) (wdArmed servo) = true := (flag_congr tickUs_regs).trans ha
    rw [exec_watchdogFeed hr hu (if_pos rfl).symm, hf, if_pos rfl]
    exact ⟨_, rfl, smGet_wdFed.trans (by rw [getF_congr tickUs_regs]; rfl)⟩
  · have hf : flag (tickUs us s.begin) (wdArmed servo) = false := (flag_congr tickUs_regs).trans ha
    rw [exec_watchdogFeed hr hu (if_pos rfl).symm, hf]
    rfl
  · refine ran_ite_pos ?_
    rw [wdDue_tickUs, hd]
  · refine ran_ite_neg ?_
    rw [wdDue_tickUs, hd]
    decide
  · refine ran_ite_pos ?_
    rw [wdDue_tickUs, hd, tickUs_begin, flag_begin, tickUs_eq]
    exact hr
  · rw [getMeas_extend hm hm, getMeas_setMeas_same]
    rfl
  · rw [getMeas_extend hm hn, getMeas_setMeas_ne hne]
  · refine ran_ite_pos (c := (islUp s.begin islMCU && !fuseLock s.begin 1) = true) ?_
    change (islUp s islMCU && !fuseLock s 1) = true
    simp [hu, hl]
  · refine ran_ite_pos (c := (islUp s.begin islMCU && flag s.begin R.FWT_STATUS_MGMT_RUN && (m == 6 || m == 7)) = true) ?_
    rw [islUp_begin, flag_begin, hu, hr]
    simpa using hm
  · have hn : spdmAnswers s = false := by
      rcases ha with ha | ⟨ha, hb⟩ <;> simp [spdmAnswers, *]
    rw [exec_spdmRequest hu, hn]
    rfl
  · have hn : spdmAnswers s = true := by simp [spdmAnswers, hm, ha]
    rw [exec_spdmRequest hu, hn]
    cases q with
    | other c => exact absurd rfl (hq c)
    | _ => rfl
  · have hn : spdmAnswers s = true := by simp [spdmAnswers, hm, ha]
    rw [exec_spdmRequest hu, hn, hq]
    rfl

end Sys2Proof.Machine

/-! Proofs about the fault collector of SAFE (spec/17): records, acknowledgement, escalation and service mode (R451 to R464). -/

namespace Sys2Proof.Machine

/-! ### Collection (R453) -/

section

variable {s t : State} {f g : FaultRec} {l : List FaultRec}

theorem mem_insertFault (h : g ∈ insertFault s f l) : g = f ∨ g ∈ l := by
  induction l with
  | nil => exact .inl (List.mem_singleton.mp h)
  | cons x l ih =>
    unfold insertFault at h
    split at h
    · exact List.mem_cons.mp h
    · rcases List.mem_cons.mp h with rfl | h
      · exact .inr (List.mem_cons_self ..)
      · exact (ih h).imp_right (List.mem_cons_of_mem _)

theorem mem_foldl_insertFault {a : List FaultRec} (h : g ∈ l.foldl (fun a f => insertFault s f a) a) : g ∈ a ∨ g ∈ l := by
  induction l generalizing a with
  | nil => exact .inl h
  | cons x l ih =>
    rcases ih h with h | h
    · rcases mem_insertFault h with rfl | h
      · exact .inr (List.mem_cons_self ..)
      · exact .inl h
    · exact .inr (List.mem_cons_of_mem _ h)

/-- Sorting adds no fault. -/
theorem mem_of_mem_sortFaults (h : g ∈ sortFaults s l) : g ∈ l := (mem_foldl_insertFault h).resolve_left List.not_mem_nil

theorem collect_unheard (h : heard s f = false) : collect f s = s := if_neg (by simp [h])

theorem collect_first (h : heard s f = true) (ho : s.flt.openSlot = none) : collect f s = react f (openRecord f s) := by
  simp [collect, h, ho]

theorem collect_merged (h : heard s f = true) (ho : s.flt.openSlot.isSome = true) : collect f s = react f (mergeFault f s) := by
  simp [collect, h, ho]

/-- Faults that SAFE does not hear leave no trace. -/
theorem collectAll_unheard (h : ∀ f ∈ s.flt.faults, heard s f = false) :
    collectAll s = modeSync { s with flt := { s.flt with faults := [] } } := by
  refine congrArg modeSync (List.foldlRecOn (motive :=
    fun t => t = { s with flt := { s.flt with faults := [] } }) _ _ rfl fun t ht f hf => ?_)
  rw [ht]
  exact collect_unheard (h f (mem_of_mem_sortFaults hf))

end

/-! ### The open record (R454 to R457) -/

section

variable {s : State} {r : FltRecord} {k : Nat} {e : FltRecord → FltRecord}

theorem openRec_iff : openRec s = some r ↔ ∃ k, s.flt.openSlot = some k ∧ s.flt.recs.getD k none = some r := by
  unfold openRec
  cases s.flt.openSlot with
  | none => simp
  | some k => simp

/-- A record is at a place of the list. -/
theorem lt_of_getD (h : s.flt.recs.getD k none = some r) : k < s.flt.recs.length := by
  by_contra hk
  rw [List.getD_eq_default _ _ (not_lt.mp hk)] at h
  exact absurd h (by simp)

theorem getD_modOpen (ho : s.flt.openSlot = some k) (hr : s.flt.recs.getD k none = some r) :
    (modOpen e s).flt.recs.getD k none = some (e r) := by
  have hk := lt_of_getD hr
  rw [List.getD_eq_getElem _ _ hk] at hr
  simp only [modOpen, ho]
  rw [List.getD_eq_getElem _ _ (by simpa using hk), List.getElem_modify_eq, hr]
  rfl

theorem openRec_modOpen (ho : s.flt.openSlot = some k) (hr : s.flt.recs.getD k none = some r) :
    openRec (modOpen e s) = some (e r) := by
  have ho' : (modOpen e s).flt.openSlot = some k := by simp only [modOpen, ho]
  exact openRec_iff.mpr ⟨k, ho', getD_modOpen ho hr⟩

theorem modOpen_regs : (modOpen e s).regs = s.regs := (keeps_modOpen (W := 256) rfl keeps_refl).same.regs rfl

/-! #### Acknowledgement (R457) -/

variable {val : Nat}

theorem closeRecord_regs : (closeRecord e s).regs = s.regs := modOpen_regs

theorem writeAck_stale (hb : bitOf val 31 = true) (h : ∀ r, openRec s = some r → r.seq ≠ val % 256) :
    writeAck val s = raise R.FLT_GEN_EVENT_FLT_ACK_STALE s := by
  unfold writeAck
  rw [if_neg (by simp [hb])]
  split
  · next r hr => exact if_neg (h r hr)
  · rfl

/-- The SEQ of the open record closes it. -/
theorem writeAck_open (hb : bitOf val 31 = true) (hr : openRec s = some r) (hs : r.seq = val % 256) :
    writeAck val s = closeRecord (fun r => { r with acked := true }) s := by
  simp [writeAck, hb, hr, hs]

theorem closeRecord_closes (hr : openRec s = some r) : (closeRecord e s).flt.openSlot = none ∧
    ∃ k, s.flt.openSlot = some k ∧ (closeRecord e s).flt.recs.getD k none =
      some (e { r with isOpen := false, deadline := none }) := by
  obtain ⟨k, ho, hk⟩ := openRec_iff.mp hr
  exact ⟨rfl, k, ho, getD_modOpen ho hk⟩

/-! #### Escalation (R458, R464) -/

theorem aliveStop_stops : (aliveStop s).flt.aliveRun = false := by
  unfold aliveStop
  split
  · unfold Machine.raise raiseAt
    split <;> rfl
  · next h => exact Bool.eq_false_iff.mpr h

/-- The state in which SAFE has given the open record up. -/
def escalated (r : FltRecord) (s : State) : State :=
  let s := closeRecord (fun r => { r with escalated := true }) (aliveStop s)
  setF R.FLT_ESC_COUNT (satN 65535 (getF s R.FLT_ESC_COUNT + 1)) (setF R.FLT_ESC_LAST_ISLAND r.isl s)

theorem escalate_eq : escalate r s = modeSync ((escIslands r).foldl (fun s i => strike 3 i s) (escalated r s)) := rfl

theorem closeRecord_aliveRun : (closeRecord e s).flt.aliveRun = s.flt.aliveRun := by
  simp only [closeRecord, modOpen]
  split <;> rfl

theorem aliveRun_escalated : (escalated r s).flt.aliveRun = false := by
  simp only [escalated, setF_flt, closeRecord_aliveRun, aliveStop_stops]

theorem getF_aliveStop {f : Fld} {i : Nat} (hf : f.apart R.FLT_GEN_EVENT_ALIVE_STOPPED = true) :
    getF (aliveStop s) f i = getF s f i := by
  unfold aliveStop
  split
  · exact getF_raise_apart hf
  · rfl

theorem escCount_escalated : getF (escalated r s) R.FLT_ESC_COUNT = min 65535 (getF s R.FLT_ESC_COUNT + 1) := by
  simp only [escalated, getF_setF_same, satN_eq_min, getF_congr closeRecord_regs, getF_aliveStop (f := R.FLT_ESC_COUNT)
    (i := 0) (by decide)]
  exact Nat.mod_eq_of_lt (lt_of_le_of_lt (min_le_left ..) (by decide))

theorem lastIsland_escalated : getF (escalated r s) R.FLT_ESC_LAST_ISLAND = r.isl % 32 :=
  (getF_setF_apart (by decide)).trans getF_setF_same

theorem exec_reactionTimerExpiry {us d : Nat} (hr : openRec s = some r) (hd : r.deadline = some d) (hm : svcMode s = 0)
    (hu : d ≤ us) :
    exec (.reactionTimerExpiry us) s = .next (escalate r (tickUs us s.begin)) := by
  have ho : openRec (tickUs us s.begin) = some r := by
    rw [tickUs_eq]
    exact hr
  have hs : svcMode (tickUs us s.begin) = 0 := by
    rw [tickUs_eq]
    exact hm
  change execReactionTimerExpiry us s = _
  simp only [execReactionTimerExpiry, ho, hd, hs, hu, and_self, if_true]
  rfl

/-! #### FLT_CTL (R452, R464) -/

/-- TEST takes its bit. -/
def testSet (val : Nat) (s : State) : State := modeSync (setF R.FLT_CTL_TEST (bitsOf val 31 1) s)

theorem modeSync_with : ∃ l, modeSync s = { s with flt := { s.flt with recs := l } } := by
  unfold modeSync modOpen
  split
  · exact ⟨_, rfl⟩
  · split
    · exact ⟨_, rfl⟩
    · exact ⟨_, rfl⟩

theorem flag_testSet : flag (testSet val s) R.FLT_CTL_TEST = bitOf val 31 := by
  rw [testSet, flag_congr modeSync_regs, flag, getF_setF_same]
  exact congrArg (· == 1) (Nat.mod_mod _ _)

theorem writeFltCtl_eq : writeFltCtl val s =
    if bitOf val 30 then (if s.flt.fatal then raise R.FLT_GEN_EVENT_FLT_ACK_STALE (testSet val s) else aliveStart (testSet val s))
    else testSet val s := by
  obtain ⟨l, hl⟩ := modeSync_with (s := setF R.FLT_CTL_TEST (bitsOf val 31 1) s)
  unfold writeFltCtl testSet
  rw [hl]
  rfl

theorem aliveStart_regs : (aliveStart s).regs = s.regs := by
  unfold aliveStart
  split <;> rfl

theorem flag_writeFltCtl : flag (writeFltCtl val s) R.FLT_CTL_TEST = bitOf val 31 := by
  rw [writeFltCtl_eq]
  split_ifs
  · exact (congrArg (· == 1) (getF_raise_apart (by decide))).trans flag_testSet
  · exact (flag_congr aliveStart_regs).trans flag_testSet
  · exact flag_testSet

/-- What names the service mode besides TEST. -/
def starting (s : State) : Bool × Bool := (s.flt.startUp, s.flt.recovery)

theorem starting_testSet : starting (testSet val s) = starting s := by
  obtain ⟨l, hl⟩ := modeSync_with (s := setF R.FLT_CTL_TEST (bitsOf val 31 1) s)
  rw [testSet, hl]
  rfl

theorem starting_raise {f : Fld} {i d : Nat} : starting (raise f s i d) = starting s := by
  unfold Machine.raise raiseAt
  split <;> rfl

theorem starting_aliveStart : starting (aliveStart s) = starting s := by
  unfold aliveStart
  split <;> rfl

theorem starting_writeFltCtl : starting (writeFltCtl val s) = starting s := by
  rw [writeFltCtl_eq]
  split_ifs
  · exact starting_raise.trans starting_testSet
  · exact starting_aliveStart.trans starting_testSet
  · exact starting_testSet

/-- TEST makes the mode, outside start-up and recovery. -/
theorem svcMode_test (h : flag s R.FLT_CTL_TEST = true) (hs : starting s = (false, false)) : svcMode s = 3 := by
  obtain ⟨hu, hr⟩ := Prod.mk.injEq .. ▸ hs
  simp [svcMode, hu, hr, h]

theorem aliveRun_writeFltCtl (hb : bitOf val 30 = true) (hf : s.flt.fatal = false) (ho : s.sys.oscOk = true) :
    (writeFltCtl val s).flt.aliveRun = true := by
  obtain ⟨l, hl⟩ := modeSync_with (s := setF R.FLT_CTL_TEST (bitsOf val 31 1) s)
  rw [writeFltCtl_eq, if_pos hb, hf, if_neg (by decide), testSet, hl]
  simp [aliveStart, hf, ho, emit]

/-- RECOVERY_END with its second over (R452). -/
theorem exec_recoveryEnd {us t : Nat} {v : State} (ht : s.flt.recoveryFrom = some t) (hr : s.flt.recovery = true)
    (hu : t + 1000000 ≤ us)
    (hv : v = tickUs us s.begin) :
    exec (.recoveryEnd us) s = .next { v with flt := { v.flt with recovery := false, recoveryFrom := none } } := by
  have hf : v.flt = s.flt := by
    rw [hv, tickUs_eq]
    rfl
  change execRecoveryEnd us s = _
  simp only [execRecoveryEnd, ← hv, hf, ht, hr, hu, and_self, if_true]
  rfl

end

/-- Settles O56: the collector by the faults it takes, the open record by its place, escalation by the state it strikes from, and
the service mode by TEST. -/
theorem faultsAreRecordedAcknowledgedAndEscalated : Obligations.FaultsAreRecordedAcknowledgedAndEscalated := by
  unfold Obligations.FaultsAreRecordedAcknowledgedAndEscalated
  refine ⟨fun us s => rfl, fun s h => collectAll_unheard h,
    fun f s => ⟨collect_unheard, collect_first, collect_merged, fun h => ?_⟩,
    fun f r k s ho hk hr => ?_, fun req val s hr => ran_writeAt_of_reaches hr,
      fun val s => ⟨fun h => if_pos (by simp [h]), fun hb hr => ?_,
      fun r hb hr hs => ?_, fun r hb hr hs => ?_⟩, fun us d r s => exec_reactionTimerExpiry, fun r s hr => ?_,
    fun req val s hr => ran_writeAt_of_reaches hr, fun req val s hr => ran_writeAt_of_reaches hr,
    fun val s => ⟨flag_writeFltCtl, fun hb hu hr => ?_, fun hb hf => ?_, aliveRun_writeFltCtl⟩,
    fun us t s ht hr hu => ⟨_, rfl, exec_recoveryEnd ht hr hu rfl⟩⟩
  · have hk : (s.flt.newest + 1) % 16 < s.flt.recs.length := by omega
    refine ⟨_, openRec_iff.mpr ⟨_, rfl, (List.getD_eq_getElem _ _ ((List.length_set ..).symm ▸ hk)).trans
      (List.getElem_set_self ..)⟩, ?_⟩
    exact ⟨rfl, rfl, rfl, rfl, rfl, rfl, rfl, rfl, rfl, rfl⟩
  · rw [mergeFault, openRec_modOpen ho hr, satN_eq_min]
  · exact writeAck_stale hb fun r h => by simp [hr] at h
  · exact writeAck_stale hb fun x h => by
      obtain rfl := Option.some.inj (hr.symm.trans h)
      exact hs
  · rw [writeAck_open hb hr hs]
    exact closeRecord_closes hr
  · exact ⟨_, escalate_eq, aliveRun_escalated, rfl, escCount_escalated, lastIsland_escalated⟩
  · exact svcMode_test (flag_writeFltCtl.trans hb) (starting_writeFltCtl.trans (Prod.ext hu hr))
  · rw [writeFltCtl_eq, if_pos hb, hf, if_pos rfl]
    exact beq_iff_eq.mp (flag_raise_same (by decide))

end Sys2Proof.Machine

/-! Proofs about errors in the memories (spec/16): the scrubbers, their laps and what they report (R438 to R446). -/

namespace Sys2Proof.Machine

/-! ### The scrubber (R444, R445) -/

section

variable {s u t : State} {m bank word us w e ms : Nat} {x : ScrubRead} {scrub : Bool}

theorem exec_scrubAccess (hen : flag s R.MON_ECC_CFG_SCRUB_ENA = true) (hm : m < 18) (hb : bank < memBanks m)
    (hp : smGet 0 s.sys.scrub m = word * memBanks m + bank) (hu : islUp s (memIsland m) = true) (hs : u = tickUs us s.begin)
    (hw : w = if m = 0 then bank * 65536 + word else word) (he : e = max x.err (eccOf s m w)) :
    exec (.scrubAccess m bank word x us) s =
      .next (scrubNext m (if x.overtaken && e ≤ 1 then u else scrubWord m bank word w e u)) := by
  have hc : (flag u R.MON_ECC_CFG_SCRUB_ENA && m < 18 && bank < memBanks m && smGet 0 u.sys.scrub m == word * memBanks m + bank
      && islUp u (memIsland m)) = true := by
    have hen' : flag u R.MON_ECC_CFG_SCRUB_ENA = true := by
      rw [hs, flag_congr tickUs_regs]
      exact hen
    have hp' : smGet 0 u.sys.scrub m = word * memBanks m + bank := by
      rw [hs, tickUs_eq]
      exact hp
    have hu' : islUp u (memIsland m) = true := by
      rw [hs, tickUs_eq]
      exact hu
    simp [hen', hm, hb, hp', hu']
  have he' : e = max x.err (eccOf u m w) := by
    rw [he, hs, tickUs_eq]
    rfl
  subst hs hw
  rw [he']
  exact ran_ite_pos hc

/-- An uncorrectable word in use stays; one that is not is repaired. -/
theorem scrubWord_uncorrectable (h : 2 ≤ e) : scrubWord m bank word w e s =
    if wordUsed (bump (eccF R.MON_ECC_SCRUB_UE_FOUND) s m) m bank word then
      uncorrectable m bank word true (setEcc m w 2 (bump (eccF R.MON_ECC_SCRUB_UE_FOUND) s m))
    else setEcc m w 0 (bump (eccF R.MON_ECC_SCRUB_UE_FOUND) s m) := by
  obtain ⟨k, rfl⟩ := Nat.exists_eq_add_of_le' h
  rfl

theorem scrubNext_within (h : smGet 0 s.sys.scrub m + 1 < memBanks m * memWords m) :
    scrubNext m s = { s with sys := { s.sys with scrub := smPut 0 s.sys.scrub m (smGet 0 s.sys.scrub m + 1) } } := by
  simp [scrubNext, not_le.mpr h]

/-- After the last word the scrubber stands at the first and a lap has ended. -/
theorem scrubNext_last (h : memBanks m * memWords m ≤ smGet 0 s.sys.scrub m + 1) :
    smGet 0 (scrubNext m s).sys.scrub m = 0 ∧ smGet 0 (scrubNext m s).sys.scrub (m + 32) = 1 := by
  have hs : (scrubNext m s).sys.scrub = smPut 0 (smPut 0 s.sys.scrub m 0) (m + 32) 1 := by simp [scrubNext, h]
  rw [hs]
  exact ⟨(smGet_smPut_other _ _ _ _ _ _ (by omega)).trans (smGet_smPut_same ..), smGet_smPut_same ..⟩

/-! ### An uncorrectable word (R441, R467) -/

/-- What is counted and latched of an uncorrectable word, before its fault. -/
def ueNoted (m bank word : Nat) (scrub : Bool) (s : State) : State :=
  let s := bump (eccF R.MON_ECC_UE_COUNT) (latchAddr m true scrub bank word s) m
  setF R.MON_ECC_UE_MAP_MEM (putBit (getF s R.MON_ECC_UE_MAP_MEM) m true) s

theorem uncorrectable_eq : uncorrectable m bank word scrub s =
    if m = 0 then raiseAt (faultBit 9) 0 0 (bank * 2 ^ 24 + word) (ueNoted m bank word scrub s)
    else if m ≤ 16 then
      raiseFault (faultBit 7) (memIsland m) m (bank * 2 ^ 24 + word) (memIsland m) (ueNoted m bank word scrub s)
    else if m = 17 then raiseFault (faultBit 4) islMCU 17 word islMCU (ueNoted m bank word scrub s)
    else ueNoted m bank word scrub s := rfl

/-- The fault of an uncorrectable word touches neither the latched address nor the count. -/
theorem getF_uncorrectable {f : Fld} {i : Nat} (h : [faultBit 9, faultBit 7, faultBit 4].all f.apart = true) :
    getF (uncorrectable m bank word scrub s) f i = getF (ueNoted m bank word scrub s) f i := by
  have hw : WritesFields [faultBit 9, faultBit 7, faultBit 4] (ueNoted m bank word scrub s)
      (uncorrectable m bank word scrub s) := by
    rw [uncorrectable_eq]
    split_ifs
    · exact WritesFields.refl.raiseAt (by decide)
    · exact WritesFields.refl.raiseFault (by decide)
    · exact WritesFields.refl.raiseFault (by decide)
    · exact .refl
  exact hw.getF_eq h

theorem ue_ueNoted : getF (ueNoted m bank word scrub s) (eccF R.MON_ECC_ADDR_UE) m = 1 := by
  rw [ueNoted, getF_setF_apart (by decide), bump, getF_setF_apart (by decide), latchAddr, if_neg (by simp),
    getF_setF_apart (by decide), getF_setF_apart (by decide),
    getF_setF_apart (by decide), setFlag, getF_setF_same]
  rfl

theorem count_ueNoted : getF (ueNoted m bank word scrub s) (eccF R.MON_ECC_UE_COUNT) m =
    getF (bump (eccF R.MON_ECC_UE_COUNT) s m) (eccF R.MON_ECC_UE_COUNT) m := by
  have hl : getF (latchAddr m true scrub bank word s) (eccF R.MON_ECC_UE_COUNT) m = getF s (eccF R.MON_ECC_UE_COUNT) m := by
    rw [latchAddr, if_neg (by simp), getF_setF_apart (by decide), getF_setF_apart (by decide), getF_setF_apart (by decide),
      setFlag,
      getF_setF_apart (by decide), setFlag, getF_setF_apart (by decide)]
  rw [ueNoted, getF_setF_apart (by decide), getF_bump_same, hl, getF_bump_same]

/-- A fault is the last that was raised. -/
theorem mem_faults_raiseFault {f : Fld} {i n d r : Nat} : ⟨f.src, i, n, d, r⟩ ∈ (raiseFault f i n d r s).flt.faults := by
  rw [raiseFault_faults]
  exact List.mem_append_right _ (List.mem_singleton_self _)

/-! ### Laps (R446) -/

/-- A lap of memory `m` took `ms`. -/
def lapTimed (m ms : Nat) (s : State) : State :=
  setF (eccF R.MON_ECC_LAP_LAST_MS) (satN 65535 ms)
    (setF (eccF R.MON_ECC_LAP_PEAK_MS) (max (satN 65535 ms) (getF s (eccF R.MON_ECC_LAP_PEAK_MS) m)) s m) m

/-- The lap that has ended is taken. -/
def lapTaken (m : Nat) (s : State) : State := { s with sys := { s.sys with scrub := smPut 0 s.sys.scrub (m + 32) 0 } }

theorem exec_scrubLate (hm : m < 18) (hl : smGet 0 s.sys.scrub (m + 32) = 1) (hu : islUp s (memIsland m) = true) :
    exec (.scrubLate m ms) s = .next (if getF s R.MON_ECC_CFG_LAP_LIMIT_S ≠ 0 ∧ getF s R.MON_ECC_CFG_LAP_LIMIT_S * 1000 < ms then
      raiseAt R.MON_ECC_EVENT_SCRUB_LATE 0 m 0 (lapTimed m ms (lapTaken m s.begin)) else lapTimed m ms (lapTaken m s.begin)) := by
  have hc : (m < 18 && smGet 0 s.begin.sys.scrub (m + 32) == 1 && islUp s.begin (memIsland m)) = true := by
    have hl' : smGet 0 s.begin.sys.scrub (m + 32) = 1 := hl
    rw [hl', islUp_begin, hu]
    simpa using hm
  have hlim : getF (lapTimed m ms (lapTaken m s.begin)) R.MON_ECC_CFG_LAP_LIMIT_S = getF s R.MON_ECC_CFG_LAP_LIMIT_S :=
    (getF_setF_apart (by decide)).trans (getF_setF_apart (by decide))
  rw [← hlim]
  exact ran_ite_pos hc

theorem getF_lapTimed : getF (lapTimed m ms s) (eccF R.MON_ECC_LAP_LAST_MS) m = min 65535 ms ∧
    getF (lapTimed m ms s) (eccF R.MON_ECC_LAP_PEAK_MS) m = max (min 65535 ms)
      (getF s (eccF R.MON_ECC_LAP_PEAK_MS) m) % 65536 := by
  rw [lapTimed, getF_setF_same, getF_setF_apart (by decide), getF_setF_same, satN_eq_min]
  exact ⟨Nat.mod_eq_of_lt (lt_of_le_of_lt (min_le_left ..) (by decide)), rfl⟩

theorem readLap_begin : (readLap s.begin).1 = (readLap s).1 := by
  have hf (u : State) : (readLap u).1 = if getF u R.MON_ECC_IDX_MEM ≤ 18 then
      getF u (eccF R.MON_ECC_LAP_LAST_MS) (getF u R.MON_ECC_IDX_MEM) * 65536 + getF u (eccF R.MON_ECC_LAP_PEAK_MS)
        (getF u R.MON_ECC_IDX_MEM)
      else 0 := apply_ite Prod.fst ..
  rw [hf, hf]
  rfl

theorem exec_eccLapRead {req : Requester} (h : gateOf s 0xF0814 0 = .pass) :
    exec (.eccLapRead req) s = .next (emit (.readData req 0xF0814 (readLap s).1) (readLap s.begin).2) := by
  rw [← readLap_begin]
  have hb : gateOf s.begin 0xF0814 0 = .pass := h
  change ran (readWith req 0xF0814 (fun _ s => readLap s) s.begin) = _
  have hi : readInst s.begin req 0xF0814 = 0 := if_neg (by decide)
  simp only [readWith, hi, hb]
  rfl

end

/-- Settles O57: an access of a scrubber by the error that it finds, an uncorrectable word by its memory, a lap by its limit. -/
theorem scrubbersAndEccCountTheirFindings : Obligations.ScrubbersAndEccCountTheirFindings := by
  unfold Obligations.ScrubbersAndEccCountTheirFindings
  refine ⟨fun m bank word us w e x s u t hen hm hb hp hu hs hw he ht => ?_,
    fun m p s hp => ⟨fun h => ?_, fun h => scrubNext_last (hp ▸ h)⟩,
    fun m bank w scrub s => ⟨?_, ?_, fun h1 h16 => ?_, fun h => ?_, fun h => ?_⟩, fun m ms s hm hl hu => ?_,
      fun req s h => exec_eccLapRead h,
    fun s => ⟨fun h => if_neg (by omega), fun h => ?_⟩⟩
  · rw [exec_scrubAccess hen hm hb hp hu hs hw he, ht]
    refine ⟨fun h => ?_, fun h ho => ?_, fun h hn => ?_, fun h hn => ?_⟩
    · rcases h with rfl | ⟨ho, rfl⟩
      · exact congrArg _ (congrArg _ (ite_self _))
      · rw [ho]
        rfl
    · rw [h, ho]
      rfl
    · rw [if_neg (by simp; omega), scrubWord_uncorrectable h, hn]
      rfl
    · rw [if_neg (by simp; omega), scrubWord_uncorrectable h, hn]
      rfl
  · rw [hp] at h ⊢
    exact scrubNext_within h
  · exact beq_iff_eq.mpr ((getF_uncorrectable (by decide)).trans ue_ueNoted)
  · exact (getF_uncorrectable (by decide)).trans count_ueNoted
  · rw [uncorrectable_eq, if_neg (by omega), if_pos h16]
    exact ⟨_, mem_faults_raiseFault, rfl, rfl, rfl, rfl⟩
  · rw [uncorrectable_eq, if_pos h]
    exact beq_iff_eq.mp (flag_raiseAt_same (by decide))
  · rw [uncorrectable_eq, if_neg (by omega), if_neg (by omega), if_pos h]
    exact ⟨_, mem_faults_raiseFault, rfl, rfl, rfl, rfl⟩
  · obtain ⟨hlast, hpeak⟩ := getF_lapTimed (m := m) (ms := ms) (s := lapTaken m s.begin)
    have hends : smGet 0 (lapTimed m ms (lapTaken m s.begin)).sys.scrub (m + 32) = 0 :=
      smGet_smPut_same 0 s.sys.scrub (m + 32) 0
    rw [exec_scrubLate hm hl hu]
    split_ifs with hlim
    · refine ⟨_, rfl, by rw [raiseAt_sys]; exact hends, (getF_raiseAt_apart (by decide)).trans hlast,
        (getF_raiseAt_apart (by decide)).trans hpeak, fun _ _ => beq_iff_eq.mp (flag_raiseAt_same (by decide))⟩
    · exact ⟨_, rfl, hends, hlast, hpeak, fun h0 h => absurd ⟨h0, h⟩ hlim⟩
  · rw [readLap, if_pos h]
    exact ⟨getF_setF_same, rfl⟩

end Sys2Proof.Machine

/-! Proofs about the monitors (spec/18): port counters, bandwidth windows and queue histograms (R469 to R478). -/

namespace Sys2Proof.Machine

/-! ### Port counters (R469 to R473) -/

section

variable {s : State} {p k j n off val : Nat} {w : Bool} {l : List Nat}

/-- The value of counter `k` of port `p`. -/
def cntVal (s : State) (p k : Nat) : Nat := getW s (cntFld R.MON_CNT_CNT_LO k) (cntFld R.MON_CNT_CNT_HI k) p

theorem cntVal_congr {t : State} (h : t.regs = s.regs) : cntVal t p k = cntVal s p k := by
  rw [cntVal, cntVal, getW, getW, getF_congr h, getF_congr h]

/-- A write outside the counters leaves them. -/
theorem cntVal_setF_ne {f : Fld} {i v : Nat} (hl : (cntFld R.MON_CNT_CNT_LO k).key p ≠ f.key i)
    (hh : (cntFld R.MON_CNT_CNT_HI k).key p ≠ f.key i) : cntVal (setF f v s i) p k = cntVal s p k := by
  rw [cntVal, cntVal, getW, getW, getF_setF_ne hl, getF_setF_ne hh]

/-- Both words of counter `j` are written. -/
def cntSet (p j v : Nat) (s : State) : State := setF (cntFld R.MON_CNT_CNT_HI j) (v / 2 ^ 32 % 65536)
    (setF (cntFld R.MON_CNT_CNT_LO j) v s p) p

theorem cntVal_cntSet {v : Nat} : cntVal (cntSet p j v s) p k = if j = k then v % 2 ^ 48 else cntVal s p k := by
  split_ifs with h
  · subst h
    have hne : (cntFld R.MON_CNT_CNT_LO j).key p ≠ (cntFld R.MON_CNT_CNT_HI j).key p := by
      simp only [Fld.key, cntFld, Fld.on, R.MON_CNT_CNT_LO, R.MON_CNT_CNT_HI]
      omega
    rw [cntVal, cntSet, getW, getF_setF_ne hne, getF_setF_same, getF_setF_same]
    change v % 2 ^ 32 + v / 2 ^ 32 % 65536 % 2 ^ 16 * 2 ^ 32 = v % 2 ^ 48
    omega
  · have hne : ∀ f ∈ [R.MON_CNT_CNT_LO, R.MON_CNT_CNT_HI], (cntFld R.MON_CNT_CNT_LO k).key p ≠ (cntFld f j).key p ∧
        (cntFld R.MON_CNT_CNT_HI k).key p ≠ (cntFld f j).key p := by
      simp only [List.mem_cons, List.not_mem_nil, or_false, forall_eq_or_imp, forall_eq, Fld.key, cntFld, Fld.on,
        R.MON_CNT_CNT_LO, R.MON_CNT_CNT_HI]
      omega
    rw [cntSet, cntVal_setF_ne (hne _ (by simp)).1 (hne _ (by simp)).2, cntVal_setF_ne (hne _ (by simp)).1 (hne _ (by simp)).2]

theorem cntVal_setWrap {v : Nat} : cntVal (setF R.MON_CNT_WRAP_CNT v s p) p k = cntVal s p k := by
  refine cntVal_setF_ne ?_ ?_
  all_goals
    simp only [Fld.key, cntFld, Fld.on, R.MON_CNT_CNT_LO, R.MON_CNT_CNT_HI, R.MON_CNT_WRAP_CNT]
    omega

theorem clearCnt_eq : clearCnt p j w s = if w then setF R.MON_CNT_WRAP_CNT
    (putBit (getF (cntSet p j 0 s) R.MON_CNT_WRAP_CNT p) j false) (cntSet p j 0 s) p
    else cntSet p j 0 s := rfl

theorem cntVal_clearCnt : cntVal (clearCnt p j w s) p k = if j = k then 0 else cntVal s p k := by
  have h : cntVal (clearCnt p j w s) p k = cntVal (cntSet p j 0 s) p k := by
    rw [clearCnt_eq]
    split
    · exact cntVal_setWrap
    · rfl
  rw [h, cntVal_cntSet, Nat.zero_mod]

theorem bitOf_putBit_false {v b m : Nat} : bitOf (putBit v b false % 2 ^ m) b = false := by
  rw [bitOf_eq_testBit, Nat.testBit_mod_two_pow, Bool.and_eq_false_iff]
  refine .inr ?_
  simp only [putBit, bitOf_eq_testBit, Bool.false_eq_true, if_false, Nat.add_zero]
  split
  case isTrue h =>
    rw [← Nat.add_sub_cancel' (Nat.ge_two_pow_of_testBit h), Nat.testBit_two_pow_add_eq] at h
    simpa using h
  case isFalse h => exact Bool.eq_false_iff.mpr h

/-- Clearing a counter clears its wrap bit. -/
theorem wrap_clearCnt : bitOf (getF (clearCnt p k true s) R.MON_CNT_WRAP_CNT p) k = false := by
  rw [clearCnt_eq, if_pos rfl, getF_setF_same]
  exact bitOf_putBit_false

theorem writeCntCfg_regs (h : (off - 0xF0110) / 8 = k) :
    (writeCntCfg off p val s).regs = (clearCnt p k true (softWord off val s p)).regs := by
  rw [writeCntCfg, h]

/-- MON_CNT_CTL clears the counters it names. -/
theorem cntVal_foldl_clear : cntVal (l.foldl (fun s k => if bitOf val k then clearCnt p k false s else s) s) p k =
    if k ∈ l ∧ bitOf val k = true then 0 else cntVal s p k := by
  induction l generalizing s with
  | nil => simp
  | cons a l ih =>
    rw [List.foldl_cons, ih]
    have ha : cntVal (if bitOf val a then clearCnt p a false s else s) p k = if a = k ∧ bitOf val a = true then
        0 else cntVal s p k := by
      split_ifs with hb h h
      · rw [cntVal_clearCnt, if_pos h.1]
      · rw [cntVal_clearCnt, if_neg (fun e => h ⟨e, hb⟩)]
      · exact absurd h.2 hb
      · rfl
    rw [ha]
    by_cases hk : a = k
    · subst hk
      by_cases hb : bitOf val a = true <;> simp [hb]
    · simp [hk, Ne.symm hk]

/-! #### Counting -/

theorem cntAdd_eq {v : Nat} (hv : v = cntVal s p k + n) : cntAdd p k n s = if v ≥ 2 ^ 48 then
    raiseAt R.MON_EVENT_CNT_WRAP 0 p 0 (setF R.MON_CNT_WRAP_CNT (putBit (getF (cntSet p k v s) R.MON_CNT_WRAP_CNT p) k true)
      (cntSet p k v s) p)
    else cntSet p k v s := by
  rw [hv]
  rfl

theorem cntVal_raiseWrap (hk : k < 8) {d : Nat} : cntVal (raiseAt R.MON_EVENT_CNT_WRAP 0 d 0 s) p k = cntVal s p k := by
  rw [cntVal, cntVal, getW, getW, getF_raiseAt_ne, getF_raiseAt_ne]
  all_goals
    simp only [Fld.key, cntFld, Fld.on, R.MON_CNT_CNT_LO, R.MON_CNT_CNT_HI, R.MON_EVENT_CNT_WRAP]
    omega

/-- A counter adds modulo 2^48. -/
theorem cntVal_cntAdd (hk : k < 8) : cntVal (cntAdd p k n s) p k = (cntVal s p k + n) % 2 ^ 48 := by
  rw [cntAdd_eq rfl]
  split
  · rw [cntVal_raiseWrap hk, cntVal_setWrap, cntVal_cntSet, if_pos rfl]
  · rw [cntVal_cntSet, if_pos rfl]

/-- A wrap sets its bit and the event. -/
theorem wrap_cntAdd (hk : k < 8) (h : 2 ^ 48 ≤ cntVal s p k + n) :
    bitOf (getF (cntAdd p k n s) R.MON_CNT_WRAP_CNT p) k = true ∧ getF (cntAdd p k n s) R.MON_EVENT_CNT_WRAP = 1 := by
  rw [cntAdd_eq rfl, if_pos h]
  refine ⟨?_, beq_iff_eq.mp (flag_raiseAt_same (by decide))⟩
  rw [getF_raiseAt_apart (by decide), getF_setF_same]
  exact bitOf_putBit_true hk

/-! #### The core cycle (R469, R471) -/

/-- The ports of the device. -/
def presentPorts (s : State) : List Nat := (List.range 66).filter (portPresent s)

/-- Every port shows that the cycle count has wrapped. -/
def cycWraps (ps : List Nat) (s : State) : State :=
  ps.foldl (fun s p => raiseAt R.MON_EVENT_CNT_WRAP 0 p 0 (setF R.MON_CNT_WRAP_CYC 1 s p)) s

theorem exec_coreCycleCount {u v : State} (hb : islUp s islBUF = true)
    (hu : u = { s.begin with mon := { s.mon with cyc := (s.mon.cyc + 1) % 2 ^ 48 } })
    (hv : v = if s.mon.cyc + 1 = 2 ^ 48 then cycWraps (presentPorts s) u else u) :
    exec .coreCycleCount s = .next (if flag s R.MON_GCFG_CNT_ENA then
      (presentPorts s).foldl (fun s p => (List.range (cntCount s)).foldl (fun s k => occCount p k s) s) v else v) := by
  have hw : WritesFields [R.MON_EVENT_CNT_WRAP, R.MON_CNT_WRAP_CYC] u v := by
    rw [hv]
    refine WritesFields.ite (WritesFields.refl.foldl fun t p ht => ?_) .refl
    exact WritesFields.raiseAt (ht.setF (by decide)) (by decide)
  have hf : flag v R.MON_GCFG_CNT_ENA = flag s R.MON_GCFG_CNT_ENA := by
    rw [hw.flag_eq (by decide), hu]
    rfl
  have hn : ¬ (!bufUpS s.begin) = true := by
    change ¬ (!islUp s islBUF) = true
    simp [hb]
  have he : v = whenS (s.mon.cyc + 1 == 2 ^ 48) (cycWraps (presentPorts s)) u := by
    rw [hv]
    unfold whenS
    exact if_congr beq_iff_eq.symm rfl rfl
  rw [← hf, he, hu]
  exact ran_ite_neg hn

end

/-! ### Bandwidth windows (R476) -/

section

variable {s t : State} {p : Nat} {tx : Bool}

/-- The rates of the window that ends, none of one that is skipped. -/
def bwRated (p : Nat) (s : State) : State := if s.mon.bwSkip.contains p then s else bwResult true p (bwResult false p s)

/-- The registers of the rates. -/
def bwFields : List Fld := [R.MON_BW_TX_PEAK_MBPS, R.MON_BW_TX_LAST_MBPS, R.MON_BW_RX_PEAK_MBPS, R.MON_BW_RX_LAST_MBPS]

theorem writesFields_bwResult (h : WritesFields bwFields s t) : WritesFields bwFields s (bwResult tx p t) := by
  cases tx
  · exact WritesFields.setF (h.setF (by decide)) (by decide)
  · exact WritesFields.setF (h.setF (by decide)) (by decide)

theorem writesFields_bwRated : WritesFields bwFields s (bwRated p s) :=
  .ite .refl (writesFields_bwResult (writesFields_bwResult .refl))

theorem bwResult_eq : bwResult tx p s = { s with regs := (bwResult tx p s).regs } := by
  cases tx <;> rfl

theorem bwRated_eq : bwRated p s = { s with regs := (bwRated p s).regs } := by
  unfold bwRated
  split
  · rfl
  · rw [bwResult_eq (tx := true), bwResult_eq (tx := false)]

/-- The rate of a window of `n` octets. -/
def rate (s : State) (p n : Nat) : Nat := min 524287 (n * 8 / winUs s p)

theorem rate_mod {n : Nat} : rate s p n % 2 ^ 19 = rate s p n := Nat.mod_eq_of_lt (lt_of_le_of_lt (min_le_left ..) (by decide))

theorem winUs_bwResult : winUs (bwResult tx p s) p = winUs s p :=
  congrArg (fun v => satN 1000000 (zeroAs 1 v)) ((writesFields_bwResult .refl).getF_eq (by decide))

/-- A window that is not skipped gives both rates. -/
theorem rates_bwRated (h : p ∉ s.mon.bwSkip) :
    getF (bwRated p s) R.MON_BW_RX_LAST_MBPS p = rate s p (smGet 0 s.mon.bw (2 * p)) ∧
    getF (bwRated p s) R.MON_BW_TX_LAST_MBPS p = rate s p (smGet 0 s.mon.bw (2 * p + 1)) := by
  have hn : ¬ s.mon.bwSkip.contains p = true := by simpa using h
  rw [bwRated, if_neg hn]
  constructor
  · rw [bwResult, if_pos rfl, getF_setF_apart (by decide), getF_setF_apart (by decide), bwResult, if_neg (by decide),
      getF_setF_apart (by decide), getF_setF_same, satN_eq_min]
    exact rate_mod
  · rw [bwResult, if_pos rfl, getF_setF_apart (by decide), getF_setF_same, satN_eq_min, winUs_bwResult, bwResult_eq]
    exact rate_mod

theorem bwRated_skipped (h : p ∈ s.mon.bwSkip) : bwRated p s = s := if_pos (List.contains_iff_mem.mpr h)

/-- The state in which the window has ended, before a WIN_US that waits is taken. -/
def bwEnded (p : Nat) (s : State) : State :=
  let t := bwClear p (bwRated p s)
  { t with mon := { t.mon with bwAt := smPut (-1) t.mon.bwAt p (bwMicros t) } }

theorem exec_bwWindowEnd (hb : islUp s islBUF = true) (hp : portPresent s p = true) (he : flag s R.MON_GCFG_CNT_ENA = true)
    (hw : bwBoundary s p = true) : exec (.bwWindowEnd p) s = .next (bwReflect p (bwEnded p s.begin)) := by
  have hc : (bufUpS s.begin && portPresent s.begin p && flag s.begin R.MON_GCFG_CNT_ENA && bwBoundary s.begin p) = true := by
    change (islUp s islBUF && portPresent s p && flag s R.MON_GCFG_CNT_ENA && bwBoundary s p) = true
    simp [hb, hp, he, hw]
  exact ran_ite_pos hc

/-- The window that ends leaves its counts at 0 and its instant noted, and is skipped no more. -/
theorem mon_bwEnded : smGet 0 (bwEnded p s).mon.bw (2 * p) = 0 ∧ smGet 0 (bwEnded p s).mon.bw (2 * p + 1) = 0 ∧
    smGet (-1) (bwEnded p s).mon.bwAt p = bwMicros s ∧ p ∉ (bwEnded p s).mon.bwSkip ∧
      (bwEnded p s).mon.bwPend = s.mon.bwPend := by
  have hbw : (bwEnded p s).mon.bw = smPut 0 (smPut 0 s.mon.bw (2 * p) 0) (2 * p + 1) 0 := by
    unfold bwEnded
    rw [bwRated_eq]
    rfl
  have hat : (bwEnded p s).mon.bwAt = smPut (-1) s.mon.bwAt p (bwMicros s) := by
    unfold bwEnded
    rw [bwRated_eq]
    rfl
  have hpend : (bwEnded p s).mon.bwPend = s.mon.bwPend := by
    unfold bwEnded
    rw [bwRated_eq]
    rfl
  rw [hbw, hat, hpend]
  refine ⟨(smGet_smPut_other _ _ _ _ _ _ (by omega)).trans (smGet_smPut_same ..), smGet_smPut_same .., smGet_smPut_same ..,
    ?_, rfl⟩
  simp [bwEnded, bwClear]

theorem getF_bwEnded {f : Fld} : getF (bwEnded p s) f p = getF (bwRated p s) f p := rfl

/-- Nothing waits. -/
theorem bwReflect_none (h : smGet noWin s.mon.bwPend p = noWin) : bwReflect p s = s := if_pos h

/-- A WIN_US that waits is taken; the counts and the instant stay. -/
theorem bwReflect_some (h : smGet noWin s.mon.bwPend p ≠ noWin) : (bwReflect p s).mon.bw = s.mon.bw ∧
    (bwReflect p s).mon.bwAt = s.mon.bwAt ∧
    (bwReflect p s).regs = (setF R.MON_BW_CFG_WIN_US (smGet noWin s.mon.bwPend p) s p).regs := by
  unfold bwReflect
  rw [if_neg h]
  dsimp only
  split
  · exact ⟨rfl, rfl, rfl⟩
  · exact ⟨rfl, rfl, rfl⟩

theorem bwReflect_kept : (bwReflect p s).mon.bw = s.mon.bw ∧ (bwReflect p s).mon.bwAt = s.mon.bwAt ∧
    WritesFields [R.MON_BW_CFG_WIN_US] s (bwReflect p s) := by
  by_cases h : smGet noWin s.mon.bwPend p = noWin
  · rw [bwReflect_none h]
    exact ⟨rfl, rfl, .refl⟩
  · obtain ⟨hbw, hat, hregs⟩ := bwReflect_some h
    exact ⟨hbw, hat, (WritesFields.refl.setF (by decide)).of_regs hregs⟩

theorem bwBoundary_iff : bwBoundary s p = true ↔
    (copyNow s islBUF / unitNs / 1000) % (winUs s p : Int) = 0 ∧
      (p ∈ s.mon.bwSkip ∨ smGet (-1) s.mon.bwAt p ≠ copyNow s islBUF / unitNs / 1000) := by
  simp only [bwBoundary, Bool.and_eq_true, Bool.or_eq_true, List.contains_iff_mem, decide_eq_true_iff]
  rfl

theorem readPeak_eq : readPeak tx p s = (getF s (if tx then R.MON_BW_TX_PEAK_MBPS else R.MON_BW_RX_PEAK_MBPS) p,
    setF (if tx then R.MON_BW_TX_PEAK_MBPS else R.MON_BW_RX_PEAK_MBPS) 0 s p) := by
  cases tx <;> rfl

theorem exec_bwPeakRead {req : Requester} {off : Nat} (ho : off = if tx then 0xF01A0 else 0xF0198) (hp : p = readInst s req off)
    (hg : gateOf s off p = .pass) :
    exec (.bwPeakRead req tx) s = .next (emit (.readData req off (readPeak tx p s).1) (readPeak tx p s.begin).2) := by
  have hg' : gateOf s.begin off p = .pass := hg
  change ran (readWith req (if tx then 0xF01A0 else 0xF0198) (fun p s => readPeak tx p s) s.begin) = _
  simp only [readWith, ← ho, hg', readInst_begin, ← hp]
  cases tx <;> rfl

end

/-! ### Queue histograms (R477, R478) -/

section

variable {s : State} {u v b k : Nat}

theorem histBin_le {base : Nat} : histBin base v ≤ 15 := by
  unfold histBin
  dsimp only
  split
  · omega
  · rcases hf : (List.range 14).find? (fun i => decide (v < zeroAs 1 base * 2 ^ (i + 1))) with _ | i
    · exact le_rfl
    · have hi := List.mem_range.mp (List.mem_of_find?_eq_some hf)
      simp only [Option.elim]
      omega

/-- The bin of the sample `v`. -/
def binOf (u v : Nat) (s : State) : Fld := histFld u (histBin (getF s R.MON_HIST_BASE_BASE u) v)

/-- A sample has been counted in its bin. -/
def binned (u v : Nat) (s : State) : State :=
  bump R.MON_HIST_STAT_SAMPLES (setF (binOf u v s) (satN 0xFFFFFFFF (getF s (binOf u v s) + 1)) s) u

/-- The largest sample is kept. -/
def maxKept (u v : Nat) (s : State) : State := if v > getF s R.MON_HIST_MAX_MAX u then setF R.MON_HIST_MAX_MAX v s u else s

theorem histAdd_eq (he : flag s R.MON_GCFG_CNT_ENA = true) (ha : flag s R.MON_HIST_CFG_ENA u = true)
    (hh : flag s R.MON_HIST_CFG_HOLD u = false) :
    histAdd u v s = if satN 0xFFFFFFFF (getF s (binOf u v s) + 1) = 0xFFFFFFFF
        && !flag (maxKept u (satN 0xFFFFFFFF v) (binned u v s)) R.MON_HIST_STAT_SAT u then
      raiseAt R.MON_EVENT_HIST_SAT 0 u 0 (setF R.MON_HIST_STAT_SAT 1 (maxKept u (satN 0xFFFFFFFF v) (binned u v s)) u)
    else maxKept u (satN 0xFFFFFFFF v) (binned u v s) := by
  unfold histAdd
  rw [if_pos (by simp [he, ha, hh])]
  rfl

/-- A saturation changes neither bin nor maximum. -/
theorem getF_histAdd (he : flag s R.MON_GCFG_CNT_ENA = true) (ha : flag s R.MON_HIST_CFG_ENA u = true)
    (hh : flag s R.MON_HIST_CFG_HOLD u = false) {f : Fld} {i : Nat} (hs : f.key i ≠ R.MON_HIST_STAT_SAT.key u)
    (hv : f.key i ≠ R.MON_EVENT_HIST_SAT.key 0) :
    getF (histAdd u v s) f i = getF (maxKept u (satN 0xFFFFFFFF v) (binned u v s)) f i := by
  rw [histAdd_eq he ha hh]
  split
  · rw [getF_raiseAt_ne hv, getF_setF_ne hs]
  · rfl

theorem bin_maxKept {n : Nat} (hb : b ≤ 15) : getF (maxKept u n s) (histFld u b) = getF s (histFld u b) := by
  unfold maxKept
  split
  · refine getF_setF_ne ?_
    simp only [Fld.key, histFld, R.MON_HIST_MAX_MAX]
    omega
  · rfl

/-- A bin counts and saturates. -/
theorem bin_binned : getF (binned u v s) (binOf u v s) = min 0xFFFFFFFF (getF s (binOf u v s) + 1) := by
  have hb := histBin_le (base := getF s R.MON_HIST_BASE_BASE u) (v := v)
  rw [binned, bump, getF_setF_ne (by simp only [Fld.key, binOf, histFld, R.MON_HIST_STAT_SAMPLES]; omega), getF_setF_same,
    satN_eq_min]
  exact Nat.mod_eq_of_lt (lt_of_le_of_lt (min_le_left ..) (Nat.lt_succ_self 0xFFFFFFFF))

theorem max_binned : getF (binned u v s) R.MON_HIST_MAX_MAX u = getF s R.MON_HIST_MAX_MAX u := by
  rw [binned, bump, getF_setF_ne (by simp only [Fld.key, R.MON_HIST_MAX_MAX, R.MON_HIST_STAT_SAMPLES]; omega),
    getF_setF_ne (by simp only [Fld.key, binOf, histFld, R.MON_HIST_MAX_MAX]; omega)]

theorem max_maxKept {n : Nat} (hn : n < 2 ^ 32) :
    getF (maxKept u n s) R.MON_HIST_MAX_MAX u = max (getF s R.MON_HIST_MAX_MAX u) n := by
  unfold maxKept
  split
  · next h => rw [getF_setF_same, max_eq_right h.le]; exact Nat.mod_eq_of_lt hn
  · next h => rw [max_eq_left (not_lt.mp h)]

theorem bin_foldl_clear {l : List Nat} (h : b ∈ l) :
    getF (l.foldl (fun s b => setF (histFld u b) 0 s) s) (histFld u b) = 0 := by
  induction l using List.reverseRecOn with
  | nil => simp at h
  | append_singleton l a ih =>
    rw [List.foldl_append, List.foldl_cons, List.foldl_nil]
    by_cases ha : b = a
    · rw [ha, getF_setF_same]
      rfl
    · rw [getF_setF_ne (by simp only [Fld.key, histFld]; omega)]
      exact ih ((List.mem_append.mp h).resolve_right (by simpa using ha))

/-- Clearing a unit clears its bins. -/
theorem bin_histClear (hb : b < 16) : getF (histClear u s) (histFld u b) = 0 := by
  have hne : ∀ f ∈ [R.MON_HIST_MAX_MAX, R.MON_HIST_STAT_SAMPLES, R.MON_HIST_STAT_SAT], (histFld u b).key 0 ≠ f.key u := by
    simp only [List.mem_cons, List.not_mem_nil, or_false, forall_eq_or_imp, forall_eq, Fld.key, histFld, R.MON_HIST_MAX_MAX,
      R.MON_HIST_STAT_SAMPLES, R.MON_HIST_STAT_SAT]
    omega
  rw [histClear, getF_setF_ne (hne _ (by simp)), getF_setF_ne (hne _ (by simp)), getF_setF_ne (hne _ (by simp))]
  exact bin_foldl_clear (List.mem_range.mpr hb)

/-- The sample that unit `u` takes of a state, by its KIND. -/
def depthSample (u : Nat) (s t : State) : State :=
  match getF s R.MON_HIST_CFG_KIND u with
  | 0 => histAdd u (voqDepth s (getF s R.MON_HIST_CFG_INPUT u) (getF s R.MON_HIST_CFG_OUTPUT u) (getF s R.MON_HIST_CFG_TC u)) t
  | 2 => histAdd u (aggregate s (getF s R.MON_HIST_CFG_OUTPUT u) (getF s R.MON_HIST_CFG_TC u)) t
  | 4 => histAdd u (sumCopies s fun _ y => if y.out = getF s R.MON_HIST_CFG_OUTPUT u then y.charge else 0) t
  | _ => t

theorem exec_histDepthSample {t : State} (hb : islUp s islBUF = true) (hu : u < 8) (hd : histDue s u = true)
    (ht : t = { s.begin with mon := { s.mon with histAt := smPut 0 s.mon.histAt u (s.mon.cyc + 1) } }) :
    exec (.histDepthSample u) s = .next (depthSample u s t) := by
  have hc : (bufUpS s.begin && u < 8 && histDue s.begin u) = true := by
    change (islUp s islBUF && u < 8 && histDue s u) = true
    simp [hb, hu, hd]
  rw [ht]
  exact ran_ite_pos hc

theorem depthSample_other {t : State} (h : getF s R.MON_HIST_CFG_KIND u ∉ [0, 2, 4]) : depthSample u s t = t := by
  unfold depthSample
  split
  case h_1 hk => simp [hk] at h
  case h_2 hk => simp [hk] at h
  case h_3 hk => simp [hk] at h
  case h_4 => rfl

theorem histDue_iff : histDue s u = true ↔
    s.mon.cyc % 2 ^ min 20 (getF s R.MON_HIST_CFG_SPACE u) = 0 ∧ smGet 0 s.mon.histAt u ≠ s.mon.cyc + 1 := by
  rw [histDue, satN_eq_min, Bool.and_eq_true, decide_eq_true_iff, decide_eq_true_iff]

end

/-- Settles O58: the counters by the value of their two words, a window by the state that it leaves, a histogram by its bin and
its maximum. -/
theorem countersBandwidthAndHistogramsMeasure : Obligations.CountersBandwidthAndHistogramsMeasure := by
  unfold Obligations.CountersBandwidthAndHistogramsMeasure
  refine ⟨fun req k val p thr s hk hr => ?_, fun off p val k s ho hk => ?_, fun req val p s hr => ran_writeAt_of_reaches hr,
    fun p val k s hk => ⟨fun hb => ?_, fun hb => ?_⟩, fun p k n s hk => ⟨_, rfl, cntVal_cntAdd hk, wrap_cntAdd hk⟩,
    fun s u v hb hu hv => ⟨fun hf => ?_, fun hf => ?_⟩, fun p s hb hp he hw => ?_, fun p s => bwBoundary_iff,
    fun req tx p s hp hg => ⟨exec_bwPeakRead rfl hp hg, ?_⟩, fun u s v hb hu hd hv => ?_, fun u s => histDue_iff,
    fun u v s hu he ha hh => ⟨?_, ?_⟩, fun req u val s hu hr => ?_, fun u b s hb => bin_histClear hb⟩
  · change ran (writeAt req (0xF0110 + 8 * (k % 8) + 4 * b2n thr) _ s.begin) = _
    rw [Nat.mod_eq_of_lt hk]
    exact ran_writeAt_of_reaches hr
  · have hi : (off - 0xF0110) / 8 = k := by omega
    constructor
    · exact (cntVal_congr (writeCntCfg_regs hi)).trans (cntVal_clearCnt.trans (if_pos rfl))
    · rw [getF_congr (writeCntCfg_regs hi)]
      exact wrap_clearCnt
  · exact cntVal_foldl_clear.trans (if_pos ⟨List.mem_range.mpr hk, hb⟩)
  · exact cntVal_foldl_clear.trans (if_neg fun h => by simp [hb] at h)
  · rw [exec_coreCycleCount hb hu hv, hf]
    rfl
  · rw [exec_coreCycleCount hb hu hv, hf]
    rfl
  · obtain ⟨hrx, htx, hat, hskip, hpend⟩ := mon_bwEnded (p := p) (s := s.begin)
    obtain ⟨hbw', hat', hregs⟩ := bwReflect_kept (p := p) (s := bwEnded p s.begin)
    refine ⟨_, exec_bwWindowEnd hb hp he hw, by rw [hbw', hrx], by rw [hbw', htx], by rw [hat', hat]; rfl, fun hn => ?_,
      fun hn => ?_,
      fun hn => ?_, fun hn => ?_⟩
    · rw [hregs.getF_eq (by decide), hregs.getF_eq (by decide), getF_bwEnded, getF_bwEnded]
      exact rates_bwRated (s := s.begin) hn
    · rw [hregs.getF_eq (by decide), hregs.getF_eq (by decide), getF_bwEnded, getF_bwEnded, bwRated_skipped (s := s.begin) hn]
      exact ⟨rfl, rfl⟩
    · rw [bwReflect_none (by rw [hpend]; exact hn), getF_bwEnded, writesFields_bwRated.getF_eq (by decide)]
      exact ⟨hskip, rfl⟩
    · rw [getF_congr (bwReflect_some (by rw [hpend]; exact hn)).2.2, getF_setF_same, hpend]
      rfl
  · rw [readPeak_eq]
    exact getF_setF_same.trans (Nat.zero_mod _)
  · rw [exec_histDepthSample hb hu hd hv]
    refine ⟨fun hk => ?_, fun hk => ?_, fun hk => ?_, fun hk => congrArg _ (depthSample_other hk)⟩
    all_goals simp only [depthSample, hk]
  · have hb := histBin_le (base := getF s R.MON_HIST_BASE_BASE u) (v := v)
    rw [getF_histAdd he ha hh (by simp only [Fld.key, histFld, R.MON_HIST_STAT_SAT]; omega)
      (by simp only [Fld.key, histFld, R.MON_EVENT_HIST_SAT]; omega), bin_maxKept hb]
    exact bin_binned
  · rw [getF_histAdd he ha hh (by simp only [Fld.key, R.MON_HIST_MAX_MAX, R.MON_HIST_STAT_SAT]; omega)
      (by simp only [Fld.key, R.MON_HIST_MAX_MAX, R.MON_EVENT_HIST_SAT]; omega), satN_eq_min,
        max_maxKept (lt_of_le_of_lt (min_le_left ..) (by decide)), max_binned]
  · change ran (writeAt req (0xF0400 + 0x80 * (u % 8)) _ s.begin) = _
    rw [Nat.mod_eq_of_lt hu]
    exact ran_writeAt_of_reaches hr

end Sys2Proof.Machine

/-! Proofs about canaries, the margin plan, the regulator and the ageing log (spec/18 R479 to R486, spec/20 R502). -/

namespace Sys2Proof.Machine

/-! ### Canaries (R480, R481) -/

section

variable {s t : State} {i j : Nat} {v a b c d : Int} {ok : Bool} {f : Fld}

/-- The events of the canaries' limits. -/
def limitFields : List Fld := [R.MON_EVENT_AGEING_ALERT, R.MON_EVENT_TEMP_HIGH, R.MON_EVENT_SLACK_LOW]

theorem getF_canLimit {e : Fld} {excess clear : Bool} (h : f.key j ≠ e.key 0) :
    getF (canLimit e i excess clear s) f j = getF s f j := by
  unfold canLimit
  dsimp only
  split_ifs
  · rw [getF_raiseAt_ne h]
    rfl
  · rfl
  · rfl

theorem getF_canLimits (h : ∀ e ∈ limitFields, f.key j ≠ e.key 0) : getF (canLimits i v s) f j = getF s f j := by
  unfold canLimits
  dsimp only
  split
  · exact getF_canLimit (h _ (by decide))
  · exact getF_canLimit (h _ (by decide))
  · exact getF_canLimit (h _ (by decide))
  · rfl

/-- A reading can count: APLL0 is locked and there is a record. -/
def canAble (s : State) : Bool := apllLocked s 0 && s.sys.recOk

/-- The reading `v` is kept. -/
def canNoted (i : Nat) (v : Int) (ok : Bool) (s : State) : State :=
  let able := canAble s
  let s := setF R.MON_CAN_VAL_VALUE (toU 20 v) (setFlag R.MON_CAN_VAL_VALID (able && ok) s i) i
  whenS (able && !ok) (raiseAt R.MON_EVENT_CAN_RANGE 0 i 0) s

/-- The state after the reading `v`, `ok` where it is plausible. -/
def canKept (i : Nat) (v : Int) (ok : Bool) (s : State) : State :=
  if canAble s && ok then canLimits i v (whenS (i % 4 == 2) (noteHot (i / 4) v) (canNoted i v ok s)) else canNoted i v ok s

theorem exec_canaryMeasure (he : flag s R.MON_CAN_CFG_ENA = true) (hi : i < 32) : exec (.canaryMeasure i a b c d) s = .next
    (if canDivides (i % 4) b c d then canKept i (canReading (i % 4) a b c d).1 (canReading (i % 4) a b c d).2 s.begin
    else canKept i (drawInt s).1 (canReading (i % 4) a b c d).2 (drawInt s.begin).2) := by
  have hc : (flag s.begin R.MON_CAN_CFG_ENA && i < 32) = true := by
    rw [flag_begin, he]
    simpa using hi
  refine (ran_ite_pos hc).trans ?_
  cases canDivides (i % 4) b c d <;> rfl

theorem canAble_begin : canAble s.begin = canAble s := rfl

/-- The place of a canary's value lies apart from the events. -/
theorem canVal_key_ne {e : Fld} (he : e.st = 0) (ho : e.off = 0xF0008) (hl : e.lo < 32) :
    R.MON_CAN_VAL_VALUE.key i ≠ e.key 0 ∧ R.MON_CAN_VAL_VALID.key i ≠ e.key 0 := by
  simp only [Fld.key, R.MON_CAN_VAL_VALUE, R.MON_CAN_VAL_VALID, he, ho]
  omega

theorem getF_canKept (h : ∀ e ∈ limitFields, f.key j ≠ e.key 0) : getF (canKept i v ok s) f j = getF (canNoted i v ok s) f j := by
  unfold canKept
  split
  · rw [getF_canLimits h]
    unfold whenS
    split <;> rfl
  · rfl

theorem getF_canNoted (h : f.key j ≠ R.MON_EVENT_CAN_RANGE.key 0) : getF (canNoted i v ok s) f j =
    getF (setF R.MON_CAN_VAL_VALUE (toU 20 v) (setFlag R.MON_CAN_VAL_VALID (canAble s && ok) s i) i) f j := by
  unfold canNoted whenS
  dsimp only
  split
  · exact getF_raiseAt_ne h
  · rfl

/-- VALUE, VALID and the event of a reading. -/
theorem canKept_reads : getF (canKept i v ok s) R.MON_CAN_VAL_VALUE i = toU 20 v % 2 ^ 20 ∧
    flag (canKept i v ok s) R.MON_CAN_VAL_VALID i = (canAble s && ok) ∧
    (canAble s = true → ok = false → getF (canKept i v ok s) R.MON_EVENT_CAN_RANGE = 1) := by
  have hl : ∀ e ∈ limitFields, e.st = 0 ∧ e.off = 0xF0008 ∧ e.lo < 32 := by decide
  refine ⟨?_, ?_, fun ha ho => ?_⟩
  · rw [getF_canKept fun e he => (canVal_key_ne (hl e he).1 (hl e he).2.1 (hl e he).2.2).1,
      getF_canNoted (canVal_key_ne rfl rfl (by decide)).1, getF_setF_same]
    rfl
  · rw [flag, getF_canKept fun e he => (canVal_key_ne (hl e he).1 (hl e he).2.1 (hl e he).2.2).2,
      getF_canNoted (canVal_key_ne rfl rfl (by decide)).2,
        getF_setF_ne (by simp only [Fld.key, R.MON_CAN_VAL_VALID, R.MON_CAN_VAL_VALUE]; omega)]
    exact flag_setFlag_same (by decide)
  · rw [getF_canKept (by decide), canNoted]
    simp only [ha, ho, Bool.not_false, Bool.and_self, whenS_true]
    exact beq_iff_eq.mp (flag_raiseAt_same (by decide))

end

/-! ### The margin plan and the regulator (R482 to R484, R502) -/

section

variable {s u v : State} {val uv : Nat} {r : AvsReply} {t : Int}

/-- Every site has a temperature and a slack. -/
def sitesKnown (s : State) : Bool := sites.all fun k => (canVal s k 2).isSome && (canVal s k 3).isSome

theorem sitesKnown_iff : sitesKnown s = true ↔ ∀ k, k < 8 → (canVal s k 2).isSome = true ∧ (canVal s k 3).isSome = true := by
  simp [sitesKnown, sites]

theorem exec_marginPlan (hp : plans s = true) (ht : planTime s = true)
    (hu : u = { s.begin with mon := { s.mon with planAt := copyNow s islMCU } }) :
    exec .marginPlan s = .next (planRequests (if sitesKnown s then planOutputs u else planHeld u)) := by
  have hc : (plans s.begin && planTime s.begin) = true := by
    change (plans s && planTime s) = true
    rw [hp, ht]
    rfl
  rw [hu]
  exact ran_ite_pos hc

theorem clampCode_range (h : getF s R.MON_AVS_CODE_MIN ≤ getF s R.MON_AVS_CODE_MAX) :
    getF s R.MON_AVS_CODE_MIN ≤ clampCode s val ∧ clampCode s val ≤ getF s R.MON_AVS_CODE_MAX ∧
      (getF s R.MON_AVS_CODE_MIN ≤ val → val ≤ getF s R.MON_AVS_CODE_MAX → clampCode s val = val) := by
  unfold clampCode
  omega

/-- The regulator's answer is one to take. -/
def avsAnswered (r : AvsReply) : Bool := r.ack && r.linear

/-- The target is missed by more than 5 mV. -/
def avsOff (s : State) (uv : Nat) : Bool := decide (((uv : Int) - (600000 + 2500 * (getF s R.MON_AVS_CODE : Int))).natAbs > 5000)

theorem avsBad_iff : (!avsAnswered r || avsOff s uv) = true ↔
    r.ack = false ∨ r.linear = false ∨ 5000 < ((uv : Int) - (600000 + 2500 * (getF s R.MON_AVS_CODE : Int))).natAbs := by
  simp [avsAnswered, avsOff, or_assoc]

theorem exec_avsReadbackCheck (hm : flag s R.MON_AVS_MODE = true) (hu : islUp s islMCU = true) (ht : s.mon.avsAt = some t)
    (hd : r.ack = false ∨ r.linear = false ∨ t + 10000000 * unitNs ≤ copyNow s islMCU)
    (hv : v = emit (.pmbus 0x8B 0) { s.begin with mon := { s.mon with avsAt := none } }) :
    exec (.avsReadbackCheck r uv) s = .next (if !avsAnswered r || avsOff s uv then
      whenS (plans s) planHeld (raise R.MON_EVENT_AVS_FAULT v) else v) := by
  have hb : s.begin.mon.avsAt = some t := ht
  have hdue : (!(r.ack && r.linear) || decide (t + 10000000 * unitNs ≤ copyNow s islMCU)) = true := by
    rcases hd with h | h | h <;> simp [h]
  have hc : (flag s R.MON_AVS_MODE && islUp s islMCU &&
      (!(r.ack && r.linear) || decide (t + 10000000 * unitNs ≤ copyNow s islMCU))) = true := by
    rw [hm, hu, hdue]
    rfl
  change execAvsReadbackCheck r uv s = _
  simp only [execAvsReadbackCheck, hb]
  rw [hv]
  exact ran_ite_pos hc

theorem driveAvs_regs : (driveAvs s).regs = s.regs := (keeps_driveAvs (W := 6356992) rfl keeps_refl).same.regs rfl

/-- MODE is written. -/
def modeWritten (val : Nat) (s : State) : State :=
  setF R.MON_AVS_MODE (bitsOf val 31 1) (whenS (bitOf val 31 && !flag s R.MON_AVS_MODE) (emit (.pmbus 0x20 0)) s)

theorem writeAvs_regs : (writeAvs val s).regs = (if flag (modeWritten val s) R.MON_PLAN_CFG_AUTO then modeWritten val s
    else setF R.MON_AVS_CODE (clampCode (modeWritten val s) (val % 256)) (modeWritten val s)).regs := driveAvs_regs

theorem mode_modeWritten : flag (modeWritten val s) R.MON_AVS_MODE = bitOf val 31 := by
  rw [modeWritten, flag, getF_setF_same]
  exact congrArg (· == 1) (Nat.mod_mod _ _)

theorem getF_modeWritten {f : Fld} (h : f.apart R.MON_AVS_MODE = true) : getF (modeWritten val s) f = getF s f := by
  rw [modeWritten, getF_setF_apart h]
  unfold whenS
  split <;> rfl

theorem auto_modeWritten : flag (modeWritten val s) R.MON_PLAN_CFG_AUTO = flag s R.MON_PLAN_CFG_AUTO :=
  congrArg (· == 1) (getF_modeWritten (by decide))

theorem clampCode_modeWritten {n : Nat} : clampCode (modeWritten val s) n = clampCode s n := by
  rw [clampCode, clampCode, getF_modeWritten (by decide), getF_modeWritten (by decide)]

/-- With AUTO the code stays; without, it is clamped. -/
theorem writeAvs_auto (h : flag s R.MON_PLAN_CFG_AUTO = true) : (writeAvs val s).regs = (modeWritten val s).regs := by
  rw [writeAvs_regs, auto_modeWritten, if_pos h]

theorem writeAvs_manual (h : flag s R.MON_PLAN_CFG_AUTO = false) :
    (writeAvs val s).regs = (setF R.MON_AVS_CODE (clampCode s (val % 256)) (modeWritten val s)).regs := by
  rw [writeAvs_regs, auto_modeWritten, if_neg (by simp [h]), clampCode_modeWritten]

theorem mode_writeAvs : flag (writeAvs val s) R.MON_AVS_MODE = bitOf val 31 := by
  cases h : flag s R.MON_PLAN_CFG_AUTO with
  | true => rw [flag_congr (writeAvs_auto h), mode_modeWritten]
  | false =>
    rw [flag_congr (writeAvs_manual h), flag, getF_setF_apart (by decide)]
    exact mode_modeWritten

end

/-! ### The ageing log (R485, R486) -/

section

variable {s : State} {long : Bool} {hours fails word : Nat}

/-- An entry is 15 words and their CRC; the power-on hours are word 4. -/
theorem logWords_eq : ∃ ws, (logWords long hours s).1 = ws ++ [crc32 (wordOctets ws)] ∧ ws.length = 15 ∧
    ws.getD 4 0 = hours % 2 ^ 32 := by
  unfold logWords
  exact ⟨_, rfl, by simp, by simp⟩

/-- The place behind the head of a ring. -/
def logNext (long : Bool) (s : State) : Nat := match logHead s long with | some h => (h + 1) % logLen long | none => 0

/-- Place `k` of a ring is written. -/
def logPut (long : Bool) (k : Nat) (v : List Nat) (s : State) : State :=
  { s with mon := { s.mon with log := smPut [] s.mon.log (logBase long + k) v } }

/-- An attempt at entry `e` that fails read-back. -/
def logFailed (long : Bool) (e : List Nat) (word next : Nat) (s : State) (k : Nat) : State :=
  raise R.MON_EVENT_LOG_WRITE_FAIL (logPut long ((next + k) % logLen long)
    (e.modify (word % 16) fun v => (v + 1 + (drawInt s).1.natAbs % (2 ^ 32 - 1)) % 2 ^ 32) (drawInt s).2)

/-- Place `k` is the new head of its ring, whose next interval begins. -/
def logDone (long : Bool) (k : Nat) (s : State) : State :=
  if long then setF R.MON_LOG_STAT_LONG_HEAD k (logBegin true s) else setF R.MON_LOG_STAT_HEAD k (logBegin false s)

theorem writeLog_eq {e : List Nat} {u : State} {k : Nat} (hw : logWords long hours s = (e, u))
    (hk : k = (logNext long u + fails) % logLen long) :
    writeLog long hours fails word s =
      logDone long k (logPut long k e ((List.range fails).foldl (logFailed long e word (logNext long u)) u)) := by
  rw [hk, writeLog, hw]
  rfl

theorem logEntry_logDone {k j : Nat} : logEntry (logDone long k s) j = logEntry s j := by
  cases long <;> rfl

theorem logEntry_logPut {k : Nat} {v : List Nat} : logEntry (logPut long k v s) (logBase long + k) = v := smGet_smPut_same ..

theorem getF_logDone {k : Nat} {f : Fld} (h : [R.MON_LOG_STAT_LONG_HEAD, R.MON_LOG_STAT_HEAD].all f.apart = true) :
    getF (logDone long k s) f = getF s f := by
  have hw : WritesFields [R.MON_LOG_STAT_LONG_HEAD, R.MON_LOG_STAT_HEAD] s (logDone long k s) := by
    cases long with
    | true => exact WritesFields.setF (WritesFields.refl.of_regs rfl) (by decide)
    | false => exact WritesFields.setF (WritesFields.refl.of_regs rfl) (by decide)
  exact hw.getF_eq h

/-- A failed attempt raises its event. -/
theorem fail_foldl_logFailed {e : List Nat} {n : Nat} (h : 1 ≤ fails) :
    getF ((List.range fails).foldl (logFailed long e word n) s) R.MON_EVENT_LOG_WRITE_FAIL = 1 := by
  obtain ⟨m, rfl⟩ := Nat.exists_eq_add_of_le' h
  rw [List.range_succ, List.foldl_append, List.foldl_cons, List.foldl_nil]
  exact beq_iff_eq.mp (flag_raise_same (by decide))

theorem exec_ageingLogShort (hu : islUp s islMCU = true) (hr : flag s R.FWT_STATUS_MGMT_RUN = true) (ht : logTime s = true) :
    exec (.ageingLogShort hours fails word) s = .next (xoFit (writeLog false hours fails word s.begin)) := by
  have hc : (islUp s islMCU && flag s R.FWT_STATUS_MGMT_RUN && logTime s) = true := by simp [hu, hr, ht]
  exact ran_ite_pos (c := (islUp s.begin islMCU && flag s.begin R.FWT_STATUS_MGMT_RUN && logTime s.begin) = true) hc

theorem exec_ageingLogLong (hu : islUp s islMCU = true) (hr : flag s R.FWT_STATUS_MGMT_RUN = true)
    (ht : longHours s + 2160 ≤ hours) :
    exec (.ageingLogLong hours fails word) s = .next (writeLog true hours fails word s.begin) := by
  have hc : (islUp s islMCU && flag s R.FWT_STATUS_MGMT_RUN && longHours s + 2160 ≤ hours) = true := by simp [hu, hr, ht]
  exact ran_ite_pos (c := (islUp s.begin islMCU && flag s.begin R.FWT_STATUS_MGMT_RUN && longHours s.begin + 2160 ≤ hours) =
    true) hc

end

/-- Settles O59: a canary by the reading that it keeps, a plan by its sites, the regulator by its answer, MON_AVS by AUTO, a
log entry by its words and its place. CODE that is not taken while AUTO is 1 (entry 114), the rounding of the canaries'
quotients (entry 112) and the slots of a failed write (entry 115) are the model's choices. -/
theorem canariesMarginPlanAndAgeingLogAct : Obligations.CanariesMarginPlanAndAgeingLogAct := by
  unfold Obligations.CanariesMarginPlanAndAgeingLogAct
  refine ⟨fun i a b c d s he hi => ?_, ⟨by decide, fun a b c d _ _ => rfl, fun a b c d => rfl⟩,
    fun s u hp ht hu => ⟨fun h => ?_, fun k hk h => ?_⟩,
    fun s => decide_eq_true_iff, fun s v h => clampCode_range h,
      fun r uv t s v hm hu ht hd hv => ⟨fun ha hl ho => ?_, fun h => ⟨fun hp => ?_, fun hp => ?_⟩⟩,
    fun req val s hr => ran_writeAt_of_reaches hr, fun val s => ⟨mode_writeAvs, fun h => ?_, fun h => ?_⟩,
    fun hours fails word s hu hr => ⟨exec_ageingLogShort hu hr, exec_ageingLogLong hu hr⟩, fun s => decide_eq_true_iff,
    fun long hours fails word s => ?_⟩
  · rw [exec_canaryMeasure he hi]
    cases hd : canDivides (i % 4) b c d with
    | true =>
      obtain ⟨hvalue, hvalid, hrange⟩ := canKept_reads (i := i) (v := (canReading (i % 4) a b c d).1)
        (ok := (canReading (i % 4) a b c d).2) (s := s.begin)
      exact ⟨_, rfl, fun _ => hvalue, hvalid, fun hl hr => hrange (Bool.and_eq_true_iff.mpr ⟨hl, hr⟩)⟩
    | false =>
      obtain ⟨-, hvalid, hrange⟩ := canKept_reads (i := i) (v := (drawInt s).1) (ok := (canReading (i % 4) a b c d).2)
        (s := (drawInt s.begin).2)
      exact ⟨_, rfl, fun h => absurd h (by decide), hvalid, fun hl hr => hrange (Bool.and_eq_true_iff.mpr ⟨hl, hr⟩)⟩
  · rw [exec_marginPlan hp ht hu, sitesKnown_iff.mpr h]
    rfl
  · have hn : ¬ sitesKnown s = true := fun hs => by
      obtain ⟨h2, h3⟩ := sitesKnown_iff.mp hs k hk
      rcases h with h | h <;> simp [h] at h2 h3
    rw [exec_marginPlan hp ht hu, if_neg hn]
    rfl
  · rw [exec_avsReadbackCheck hm hu ht hd hv, if_neg (by simpa [avsAnswered, avsOff, ha, hl] using ho)]
  · rw [exec_avsReadbackCheck hm hu ht hd hv, if_pos (avsBad_iff.mpr h), hp]
    rfl
  · rw [exec_avsReadbackCheck hm hu ht hd hv, if_pos (avsBad_iff.mpr h), hp]
    rfl
  · rw [getF_congr (writeAvs_auto h), getF_modeWritten (by decide)]
  · rw [getF_congr (writeAvs_manual h), getF_setF_same]
    rfl
  · obtain ⟨ws, he, hl, hh⟩ := logWords_eq (long := long) (hours := hours) (s := s)
    have hw : logWords long hours s = (ws ++ [crc32 (wordOctets ws)], (logWords long hours s).2) := Prod.ext he rfl
    refine ⟨_, _, _, hw, by simp [hl], ?_, ?_, rfl, ?_, fun hf => ?_⟩
    · rw [List.getD_append_right _ _ _ _ hl.le, hl, List.take_left' hl]
      rfl
    · rw [List.getD_append _ _ _ _ (by omega)]
      exact hh
    · rw [writeLog_eq hw rfl, logEntry_logDone]
      exact logEntry_logPut
    · rw [writeLog_eq hw rfl, getF_logDone (by decide)]
      exact fail_foldl_logFailed hf

end Sys2Proof.Machine

/-! Proofs about the invariant of every step (spec/02 R41, spec/14 R387), the time scale TIME (spec/02), the reference candidates
(spec/05), the periodic instants (R71), the ingress tables and stream gates (spec/09), and the application of profiles (spec/14). -/

namespace Sys2Proof.Machine

/-! ### The invariant of every step -/

/-- What `o` answers on `s` has a canonical register file and a Last in the format of R41 wherever `s` has them. -/
def KeepsFormats (s : State) (o : Host.Outcome State Fault Refusal) : Prop :=
  ∀ t, o = .next t → (regsWf s → regsWf t) ∧ (lastInFormat s → lastInFormat t)

/-- Both are kept whatever fields the operation writes. -/
theorem keepsFormats_of_mask {a : Nat} {s : State} {o : Host.Outcome State Fault Refusal}
    (h : ∀ {W : Nat}, sub a W = true → Keeps W s s → KeepsOut W s o) : KeepsFormats s o := by
  intro t e
  have hk := (h (sub_refl a) keeps_refl).next t e
  exact ⟨hk.regs, hk.last⟩

/-- Every command keeps both: by its own lemma of Laws/Keeps. -/
theorem keepsFormats_exec (c : Instr) (s : State) : KeepsFormats s (exec c s) := by
  cases c with
  | registerWrite => exact keepsFormats_of_mask keeps_execRegisterWrite
  | selectWrite => exact keepsFormats_of_mask keeps_execSelectWrite
  | captureRead => exact keepsFormats_of_mask keeps_execCaptureRead
  | timeWriteCommit => exact keepsFormats_of_mask keeps_execTimeWriteCommit
  | bar0AccessTimeout => exact keepsFormats_of_mask keeps_execBar0AccessTimeout
  | islandClockLoss => exact keepsFormats_of_mask keeps_execIslandClockLoss
  | islandClockReturn => exact keepsFormats_of_mask keeps_execIslandClockReturn
  | crossingUp => exact keepsFormats_of_mask keeps_execCrossingUp
  | crossingDeliver => exact keepsFormats_of_mask keeps_execCrossingDeliver
  | crossingHang => exact keepsFormats_of_mask keeps_execCrossingHang
  | lastIncrement => exact keepsFormats_of_mask keeps_execLastIncrement
  | stepRequest => exact keepsFormats_of_mask keeps_execStepRequest
  | lastSetRequest => exact keepsFormats_of_mask keeps_execLastSetRequest
  | servoPhaseCorrection => exact keepsFormats_of_mask keeps_execServoPhaseCorrection
  | stepApply => exact keepsFormats_of_mask keeps_execStepApply
  | slewRequest => exact keepsFormats_of_mask keeps_execSlewRequest
  | slewCfgWrite => exact keepsFormats_of_mask keeps_execSlewCfgWrite
  | slewDone => exact keepsFormats_of_mask keeps_execSlewDone
  | domainEstimatePost => exact keepsFormats_of_mask keeps_execDomainEstimatePost
  | domainStale => exact keepsFormats_of_mask keeps_execDomainStale
  | domainSwitchRequest => exact keepsFormats_of_mask keeps_execDomainSwitchRequest
  | switchArm => exact keepsFormats_of_mask keeps_execSwitchArm
  | switchCancel => exact keepsFormats_of_mask keeps_execSwitchCancel
  | switchTimeWrite => exact keepsFormats_of_mask keeps_execSwitchTimeWrite
  | timedSwitchInstant => exact keepsFormats_of_mask keeps_execTimedSwitchInstant
  | domainRelease => exact keepsFormats_of_mask keeps_execDomainRelease
  | weltEnaWrite => exact keepsFormats_of_mask keeps_execWeltEnaWrite
  | blendEnd => exact keepsFormats_of_mask keeps_execBlendEnd
  | convergeDone => exact keepsFormats_of_mask keeps_execConvergeDone
  | tallyMeasurement => exact keepsFormats_of_mask keeps_execTallyMeasurement
  | cdrLockAcquire => exact keepsFormats_of_mask keeps_execCdrLockAcquire
  | cdrLockLoss => exact keepsFormats_of_mask keeps_execCdrLockLoss
  | frameReceive => exact keepsFormats_of_mask keeps_execFrameReceive
  | frameEndReceive => exact keepsFormats_of_mask keeps_execFrameEndReceive
  | alignmentLock => exact keepsFormats_of_mask keeps_execAlignmentLock
  | calConstantApply => exact keepsFormats_of_mask keeps_execCalConstantApply
  | domainMapWrite => exact keepsFormats_of_mask keeps_execDomainMapWrite
  | intervalWrite => exact keepsFormats_of_mask keeps_execIntervalWrite
  | portStateWrite => exact keepsFormats_of_mask keeps_execPortStateWrite
  | portEnableWrite => exact keepsFormats_of_mask keeps_execPortEnableWrite
  | tallyInvalidTimeout => exact keepsFormats_of_mask keeps_execTallyInvalidTimeout
  | syncTransmit => exact keepsFormats_of_mask keeps_execSyncTransmit
  | announceTransmit => exact keepsFormats_of_mask keeps_execAnnounceTransmit
  | pdelayReqTransmit => exact keepsFormats_of_mask keeps_execPdelayReqTransmit
  | delayReqTransmit => exact keepsFormats_of_mask keeps_execDelayReqTransmit
  | txTimeReturn => exact keepsFormats_of_mask keeps_execTxTimeReturn
  | followUpTransmit => exact keepsFormats_of_mask keeps_execFollowUpTransmit
  | syncReceive => exact keepsFormats_of_mask keeps_execSyncReceive
  | followUpReceive => exact keepsFormats_of_mask keeps_execFollowUpReceive
  | delayReqReceive => exact keepsFormats_of_mask keeps_execDelayReqReceive
  | delayRespReceive => exact keepsFormats_of_mask keeps_execDelayRespReceive
  | delayReqTimeout => exact keepsFormats_of_mask keeps_execDelayReqTimeout
  | pdelayReqReceive => exact keepsFormats_of_mask keeps_execPdelayReqReceive
  | pdelayRespReceive => exact keepsFormats_of_mask keeps_execPdelayRespReceive
  | generalMessageReceive => exact keepsFormats_of_mask keeps_execGeneralMessageReceive
  | transparentForward => exact keepsFormats_of_mask keeps_execTransparentForward
  | fupEntryTimeout => exact keepsFormats_of_mask keeps_execFupEntryTimeout
  | syncTimeout => exact keepsFormats_of_mask keeps_execSyncTimeout
  | unicastRequest => exact keepsFormats_of_mask keeps_execUnicastRequest
  | unicastCancel => exact keepsFormats_of_mask keeps_execUnicastCancel
  | grantExpiry => exact keepsFormats_of_mask keeps_execGrantExpiry
  | candidatePhaseSample => exact keepsFormats_of_mask keeps_execCandidatePhaseSample
  | candidateActivityLoss => exact keepsFormats_of_mask keeps_execCandidateActivityLoss
  | freqWindowClose => exact keepsFormats_of_mask keeps_execFreqWindowClose
  | waitToRestoreExpiry => exact keepsFormats_of_mask keeps_execWaitToRestoreExpiry
  | prioTableCommit => exact keepsFormats_of_mask keeps_execPrioTableCommit
  | dpllModeWrite => exact keepsFormats_of_mask keeps_execDpllModeWrite
  | dpllHoldoverRequest => exact keepsFormats_of_mask keeps_execDpllHoldoverRequest
  | dpllForce => exact keepsFormats_of_mask keeps_execDpllForce
  | dpllRealign => exact keepsFormats_of_mask keeps_execDpllRealign
  | realignDone => exact keepsFormats_of_mask keeps_execRealignDone
  | dpllLoopUpdate => exact keepsFormats_of_mask keeps_execDpllLoopUpdate
  | holdoverAvgUpdate => exact keepsFormats_of_mask keeps_execHoldoverAvgUpdate
  | holdoverWUpdate => exact keepsFormats_of_mask keeps_execHoldoverWUpdate
  | holdoverValid => exact keepsFormats_of_mask keeps_execHoldoverValid
  | olFreqWrite => exact keepsFormats_of_mask keeps_execOlFreqWrite
  | olPhaseWrite => exact keepsFormats_of_mask keeps_execOlPhaseWrite
  | olWriteApply => exact keepsFormats_of_mask keeps_execOlWriteApply
  | hostPhaseWrite => exact keepsFormats_of_mask keeps_execHostPhaseWrite
  | xoCorrWrite => exact keepsFormats_of_mask keeps_execXoCorrWrite
  | xoStabilitySample => exact keepsFormats_of_mask keeps_execXoStabilitySample
  | ocxoWarmPin => exact keepsFormats_of_mask keeps_execOcxoWarmPin
  | candCfgWrite => exact keepsFormats_of_mask keeps_execCandCfgWrite
  | candPeriodWrite => exact keepsFormats_of_mask keeps_execCandPeriodWrite
  | synceBindWrite => exact keepsFormats_of_mask keeps_execSynceBindWrite
  | apllLock => exact keepsFormats_of_mask keeps_execApllLock
  | apllUnlock => exact keepsFormats_of_mask keeps_execApllUnlock
  | synCommit => exact keepsFormats_of_mask keeps_execSynCommit
  | outputChangeApply => exact keepsFormats_of_mask keeps_execOutputChangeApply
  | outputStart => exact keepsFormats_of_mask keeps_execOutputStart
  | outputStartInstant => exact keepsFormats_of_mask keeps_execOutputStartInstant
  | outputStop => exact keepsFormats_of_mask keeps_execOutputStop
  | outputStopComplete => exact keepsFormats_of_mask keeps_execOutputStopComplete
  | outputRealign => exact keepsFormats_of_mask keeps_execOutputRealign
  | alignDone => exact keepsFormats_of_mask keeps_execAlignDone
  | todOutMessage => exact keepsFormats_of_mask keeps_execTodOutMessage
  | todInMessage => exact keepsFormats_of_mask keeps_execTodInMessage
  | todUnpaired => exact keepsFormats_of_mask keeps_execTodUnpaired
  | tdcEdgeMeasure => exact keepsFormats_of_mask keeps_execTdcEdgeMeasure
  | tdcCalPair => exact keepsFormats_of_mask keeps_execTdcCalPair
  | tdcResultDeliver => exact keepsFormats_of_mask keeps_execTdcResultDeliver
  | tdcAnchorRenew => exact keepsFormats_of_mask keeps_execTdcAnchorRenew
  | intervalArm => exact keepsFormats_of_mask keeps_execIntervalArm
  | intervalTimeout => exact keepsFormats_of_mask keeps_execIntervalTimeout
  | tdcChCfgWrite => exact keepsFormats_of_mask keeps_execTdcChCfgWrite
  | prescalerWrite => exact keepsFormats_of_mask keeps_execPrescalerWrite
  | tdcRefillRequest => exact keepsFormats_of_mask keeps_execTdcRefillRequest
  | tdcRefillComplete => exact keepsFormats_of_mask keeps_execTdcRefillComplete
  | tdcTableCommit => exact keepsFormats_of_mask keeps_execTdcTableCommit
  | takeoverOverlapEnd => exact keepsFormats_of_mask keeps_execTakeoverOverlapEnd
  | takeoverEnd => exact keepsFormats_of_mask keeps_execTakeoverEnd
  | tdcTableDataRead => exact keepsFormats_of_mask keeps_execTdcTableDataRead
  | lnkCommit => exact keepsFormats_of_mask keeps_execLnkCommit
  | signalDetect => exact keepsFormats_of_mask keeps_execSignalDetect
  | signalLoss => exact keepsFormats_of_mask keeps_execSignalLoss
  | linkTrainingDone => exact keepsFormats_of_mask keeps_execLinkTrainingDone
  | ltFail => exact keepsFormats_of_mask keeps_execLtFail
  | linkConditionsMet => exact keepsFormats_of_mask keeps_execLinkConditionsMet
  | linkUp => exact keepsFormats_of_mask keeps_execLinkUp
  | linkDown => exact keepsFormats_of_mask keeps_execLinkDown
  | sgmiiControlWord => exact keepsFormats_of_mask keeps_execSgmiiControlWord
  | laneCfgWrite => exact keepsFormats_of_mask keeps_execLaneCfgWrite
  | txeqWrite => exact keepsFormats_of_mask keeps_execTxeqWrite
  | ebIdleAdjust => exact keepsFormats_of_mask keeps_execEbIdleAdjust
  | ebSlip => exact keepsFormats_of_mask keeps_execEbSlip
  | lpiRx => exact keepsFormats_of_mask keeps_execLpiRx
  | powerUpCalibration => exact keepsFormats_of_mask keeps_execPowerUpCalibration
  | recalPartial => exact keepsFormats_of_mask keeps_execRecalPartial
  | recalFull => exact keepsFormats_of_mask keeps_execRecalFull
  | recalComplete => exact keepsFormats_of_mask keeps_execRecalComplete
  | ingressHead => exact keepsFormats_of_mask keeps_execIngressHead
  | ingressTailPass => exact keepsFormats_of_mask keeps_execIngressTailPass
  | learnInsert => exact keepsFormats_of_mask keeps_execLearnInsert
  | streamLearn => exact keepsFormats_of_mask keeps_execStreamLearn
  | ageingSweepVisit => exact keepsFormats_of_mask keeps_execAgeingSweepVisit
  | streamDeleteClear => exact keepsFormats_of_mask keeps_execStreamDeleteClear
  | ingTableRead => exact keepsFormats_of_mask keeps_execIngTableRead
  | ingTableWrite => exact keepsFormats_of_mask keeps_execIngTableWrite
  | streamGateCommit => exact keepsFormats_of_mask keeps_execStreamGateCommit
  | streamGateChange => exact keepsFormats_of_mask keeps_execStreamGateChange
  | bufAdmission => exact keepsFormats_of_mask keeps_execBufAdmission
  | frameStoreComplete => exact keepsFormats_of_mask keeps_execFrameStoreComplete
  | linkHoldExpiry => exact keepsFormats_of_mask keeps_execLinkHoldExpiry
  | bufAdmissionCommit => exact keepsFormats_of_mask keeps_execBufAdmissionCommit
  | egressSelection => exact keepsFormats_of_mask keeps_execEgressSelection
  | frameTxStart => exact keepsFormats_of_mask keeps_execFrameTxStart
  | frameTxEnd => exact keepsFormats_of_mask keeps_execFrameTxEnd
  | shaperRateWrite => exact keepsFormats_of_mask keeps_execShaperRateWrite
  | shaperCfgWrite => exact keepsFormats_of_mask keeps_execShaperCfgWrite
  | gateEntryChange o late => exact keepsFormats_of_mask (keeps_execGateEntryChange (a1 := o) (a2 := late))
  | macHoldStart => exact keepsFormats_of_mask keeps_execMacHoldStart
  | gateEnableWrite => exact keepsFormats_of_mask keeps_execGateEnableWrite
  | gateCommit => exact keepsFormats_of_mask keeps_execGateCommit
  | gateCancel => exact keepsFormats_of_mask keeps_execGateCancel
  | gateRealign => exact keepsFormats_of_mask keeps_execGateRealign
  | gateConfigChange => exact keepsFormats_of_mask keeps_execGateConfigChange
  | mmVerifyEnd => exact keepsFormats_of_mask keeps_execMmVerifyEnd
  | egrTableRead => exact keepsFormats_of_mask keeps_execEgrTableRead
  | egrTableWrite => exact keepsFormats_of_mask keeps_execEgrTableWrite
  | frerDescriptor => exact keepsFormats_of_mask keeps_execFrerDescriptor
  | reseqTimeout => exact keepsFormats_of_mask keeps_execReseqTimeout
  | takeAny => exact keepsFormats_of_mask keeps_execTakeAny
  | frerFunctionReset => exact keepsFormats_of_mask keeps_execFrerFunctionReset
  | frerCfgWrite => exact keepsFormats_of_mask keeps_execFrerCfgWrite
  | latentError => exact keepsFormats_of_mask keeps_execLatentError
  | pathDown => exact keepsFormats_of_mask keeps_execPathDown
  | ringDoorbell => exact keepsFormats_of_mask keeps_execRingDoorbell
  | ringStart => exact keepsFormats_of_mask keeps_execRingStart
  | ringStop => exact keepsFormats_of_mask keeps_execRingStop
  | ringStopped => exact keepsFormats_of_mask keeps_execRingStopped
  | ringReset => exact keepsFormats_of_mask keeps_execRingReset
  | vectorRearm => exact keepsFormats_of_mask keeps_execVectorRearm
  | irqModerationTimer => exact keepsFormats_of_mask keeps_execIrqModerationTimer
  | msixUnmask => exact keepsFormats_of_mask keeps_execMsixUnmask
  | cmdBadOpcode => exact keepsFormats_of_mask keeps_execCmdBadOpcode
  | nop => exact keepsFormats_of_mask keeps_execNop
  | tblRead => exact keepsFormats_of_mask keeps_execTblRead
  | tblWrite => exact keepsFormats_of_mask keeps_execTblWrite
  | fdbFlush => exact keepsFormats_of_mask keeps_execFdbFlush
  | streamAdd => exact keepsFormats_of_mask keeps_execStreamAdd
  | streamDelete => exact keepsFormats_of_mask keeps_execStreamDelete
  | streamModify => exact keepsFormats_of_mask keeps_execStreamModify
  | streamRead => exact keepsFormats_of_mask keeps_execStreamRead
  | dpllFreq => exact keepsFormats_of_mask keeps_execDpllFreq
  | dpllPhase => exact keepsFormats_of_mask keeps_execDpllPhase
  | hostSample => exact keepsFormats_of_mask keeps_execHostSample
  | profileApply => exact keepsFormats_of_mask keeps_execProfileApply
  | profileTimedApply => exact keepsFormats_of_mask keeps_execProfileTimedApply
  | profileWrite => exact keepsFormats_of_mask keeps_execProfileWrite
  | profileRead => exact keepsFormats_of_mask keeps_execProfileRead
  | fwDownload => exact keepsFormats_of_mask keeps_execFwDownload
  | attest => exact keepsFormats_of_mask keeps_execAttest
  | flashRead => exact keepsFormats_of_mask keeps_execFlashRead
  | flashProgram => exact keepsFormats_of_mask keeps_execFlashProgram
  | flashErase => exact keepsFormats_of_mask keeps_execFlashErase
  | resetReq => exact keepsFormats_of_mask keeps_execResetReq
  | cmdTimeout => exact keepsFormats_of_mask keeps_execCmdTimeout
  | txFrameFetch => exact keepsFormats_of_mask keeps_execTxFrameFetch
  | rxFrameDeliver => exact keepsFormats_of_mask keeps_execRxFrameDeliver
  | rxStall => exact keepsFormats_of_mask keeps_execRxStall
  | eventRecordWrite => exact keepsFormats_of_mask keeps_execEventRecordWrite
  | dmaError => exact keepsFormats_of_mask keeps_execDmaError
  | busMasterEnable => exact keepsFormats_of_mask keeps_execBusMasterEnable
  | i2cWrite => exact keepsFormats_of_mask keeps_execI2cWrite
  | i2cRead => exact keepsFormats_of_mask keeps_execI2cRead
  | i2cTimeout => exact keepsFormats_of_mask keeps_execI2cTimeout
  | pcieHot => exact keepsFormats_of_mask keeps_execPcieHot
  | pcieLinkdown => exact keepsFormats_of_mask keeps_execPcieLinkdown
  | pcieD3 => exact keepsFormats_of_mask keeps_execPcieD3
  | powerOn => exact keepsFormats_of_mask keeps_execPowerOn
  | resetNAccept => exact keepsFormats_of_mask keeps_execResetNAccept
  | resetNGlitch => exact keepsFormats_of_mask keeps_execResetNGlitch
  | rstRequest => exact keepsFormats_of_mask keeps_execRstRequest
  | srcMapWrite => exact keepsFormats_of_mask keeps_execSrcMapWrite
  | resetStretchEnd => exact keepsFormats_of_mask keeps_execResetStretchEnd
  | islandRelease => exact keepsFormats_of_mask keeps_execIslandRelease
  | forcedRelease => exact keepsFormats_of_mask keeps_execForcedRelease
  | oscillatorCheckEnd => exact keepsFormats_of_mask keeps_execOscillatorCheckEnd
  | loadAttemptComplete => exact keepsFormats_of_mask keeps_execLoadAttemptComplete
  | stepDeadline => exact keepsFormats_of_mask keeps_execStepDeadline
  | selfTestComplete => exact keepsFormats_of_mask keeps_execSelfTestComplete
  | profileResetApply => exact keepsFormats_of_mask keeps_execProfileResetApply
  | profileWaitTimeout => exact keepsFormats_of_mask keeps_execProfileWaitTimeout
  | bootRomStart => exact keepsFormats_of_mask keeps_execBootRomStart
  | fwStepLate => exact keepsFormats_of_mask keeps_execFwStepLate
  | servoRestart => exact keepsFormats_of_mask keeps_execServoRestart
  | discardMgmt => exact keepsFormats_of_mask keeps_execDiscardMgmt
  | discardServo => exact keepsFormats_of_mask keeps_execDiscardServo
  | watchdogFeed => exact keepsFormats_of_mask keeps_execWatchdogFeed
  | mgmtWatchdogExpiry => exact keepsFormats_of_mask keeps_execMgmtWatchdogExpiry
  | servoWdog => exact keepsFormats_of_mask keeps_execServoWdog
  | debugAttach => exact keepsFormats_of_mask keeps_execDebugAttach
  | fwMeasurementPost => exact keepsFormats_of_mask keeps_execFwMeasurementPost
  | spdmRequest => exact keepsFormats_of_mask keeps_execSpdmRequest
  | scrubAccess => exact keepsFormats_of_mask keeps_execScrubAccess
  | scrubLate => exact keepsFormats_of_mask keeps_execScrubLate
  | eccLapRead => exact keepsFormats_of_mask keeps_execEccLapRead
  | faultCollect => exact keepsFormats_of_mask keeps_execFaultCollect
  | faultAck => exact keepsFormats_of_mask keeps_execFaultAck
  | reactionTimerExpiry => exact keepsFormats_of_mask keeps_execReactionTimerExpiry
  | aliveResume => exact keepsFormats_of_mask keeps_execAliveResume
  | testModeWrite => exact keepsFormats_of_mask keeps_execTestModeWrite
  | recoveryEnd => exact keepsFormats_of_mask keeps_execRecoveryEnd
  | counterCfgWrite => exact keepsFormats_of_mask keeps_execCounterCfgWrite
  | counterClear => exact keepsFormats_of_mask keeps_execCounterClear
  | bwWindowEnd => exact keepsFormats_of_mask keeps_execBwWindowEnd
  | bwPeakRead => exact keepsFormats_of_mask keeps_execBwPeakRead
  | histDepthSample => exact keepsFormats_of_mask keeps_execHistDepthSample
  | histClear => exact keepsFormats_of_mask keeps_execHistClear
  | canaryMeasure => exact keepsFormats_of_mask keeps_execCanaryMeasure
  | marginPlan => exact keepsFormats_of_mask keeps_execMarginPlan
  | avsReadbackCheck => exact keepsFormats_of_mask keeps_execAvsReadbackCheck
  | avsCodeWrite => exact keepsFormats_of_mask keeps_execAvsCodeWrite
  | ageingLogShort => exact keepsFormats_of_mask keeps_execAgeingLogShort
  | ageingLogLong => exact keepsFormats_of_mask keeps_execAgeingLogLong
  | qualifyTimeExpiry => exact keepsFormats_of_mask keeps_execQualifyTimeExpiry
  | txDriverAwake => exact keepsFormats_of_mask keeps_execTxDriverAwake
  | quadCalibrationDone => exact keepsFormats_of_mask keeps_execQuadCalibrationDone
  | insertionCopyAgeLimit => exact keepsFormats_of_mask keeps_execInsertionCopyAgeLimit
  | coreCycleCount => exact keepsFormats_of_mask keeps_execCoreCycleCount
  | pcieLinkUp => exact keepsFormats_of_mask keeps_execPcieLinkUp
  | p65FrameSend => exact keepsFormats_of_mask keeps_execP65FrameSend
  | jtagInstruction => exact keepsFormats_of_mask keeps_execJtagInstruction

/-- Settles O5: by the command at the front of the queue; without one the state stays. -/
theorem everyStepKeepsRegistersCanonicalAndLastInFormat : Obligations.EveryStepKeepsRegistersCanonicalAndLastInFormat := by
  unfold Obligations.EveryStepKeepsRegistersCanonicalAndLastInFormat
  intro s t hr hl h
  cases hq : s.pending with
  | nil =>
    rw [emptyQueueIdles s hq] at h
    cases h
    exact ⟨hr, hl⟩
  | cons c q =>
    rw [step_cons hq] at h
    obtain ⟨hregs, hlast⟩ := keepsFormats_exec c _ t h
    exact ⟨hregs hr, hlast hl⟩

/-- Settles O6: the register file and the queue of the reset state are empty, its Last is 0. -/
theorem resetMeetsTheInvariant : Obligations.ResetMeetsTheInvariant := by
  unfold Obligations.ResetMeetsTheInvariant
  exact ⟨rfl, ⟨by decide, by decide, by decide, by decide⟩, rfl⟩


/-! ### Periodic instants (R70, R71) -/

section

variable {p : Period} {e t k : Int}

theorem Period.den_pos (h : p.ok = true) : (0 : Int) < p.den := by
  simp only [Period.ok, Bool.and_eq_true, decide_eq_true_eq] at h
  omega

theorem Period.num_pos (h : p.ok = true) : (0 : Int) < p.num * 4294967296 := by
  simp only [Period.ok, Bool.and_eq_true, decide_eq_true_eq] at h
  omega

/-- The exact instant over the denominator: the origin and `k` periods. -/
theorem Period.instant_exact : (p.instant e k).at32 * p.den + (p.instant e k).acc = e * p.den + k * (p.num * 4294967296) := by
  simp only [Period.instant]
  rw [Int.add_mul, Int.add_assoc, Int.ediv_mul_add_emod]

/-- An instant is found from its exact value, its remainder being less than the denominator. -/
theorem Period.instant_unique (hp : p.ok = true) {i : Instant} (hk : i.k = k)
    (hx : i.at32 * p.den + i.acc = e * p.den + k * (p.num * 4294967296)) (h0 : 0 ≤ i.acc) (h1 : i.acc < p.den) :
    i = p.instant e k := by
  have hs : i.acc + p.den * (i.at32 - e) = k * (p.num * 4294967296) := by linarith
  obtain ⟨hq, hr⟩ := (Int.ediv_emod_unique (Period.den_pos hp)).mpr ⟨hs, h0, h1⟩
  obtain ⟨ik, ia, ir⟩ := i
  simp only [Period.instant, Instant.mk.injEq] at *
  exact ⟨hk, by omega, hr.symm⟩

/-- The running form of R71: `q` units on, the remainder accumulated and carried. -/
theorem Period.next_instant (hp : p.ok = true) : p.next (p.instant e k) = p.instant e (k + 1) := by
  have hd := Period.den_pos hp
  have hx := Period.instant_exact (p := p) (e := e) (k := k)
  have h0 : 0 ≤ (p.instant e k).acc := Int.emod_nonneg _ (Int.ne_of_gt hd)
  have h1 : (p.instant e k).acc < p.den := Int.emod_lt_of_pos _ hd
  have hr0 : 0 ≤ (p.num * 4294967296 : Int) % p.den := Int.emod_nonneg _ (Int.ne_of_gt hd)
  have hr1 : (p.num * 4294967296 : Int) % p.den < p.den := Int.emod_lt_of_pos _ hd
  have hn := Int.ediv_mul_add_emod (p.num * 4294967296 : Int) p.den
  have hk : (p.instant e k).k + 1 = k + 1 := rfl
  unfold Period.next
  dsimp only
  split
  · refine Period.instant_unique hp hk ?_ (by dsimp only; omega) (by dsimp only; omega)
    dsimp only
    linarith
  · refine Period.instant_unique hp hk ?_ (by dsimp only; omega) (by dsimp only; omega)
    dsimp only
    linarith

/-- After D periods the remainder is the same and N ns have passed. -/
theorem Period.instant_add_den (hp : p.ok = true) :
    (p.instant e (k + p.den)).at32 = (p.instant e k).at32 + p.num * 4294967296 ∧
      (p.instant e (k + p.den)).acc = (p.instant e k).acc := by
  have hd := Int.ne_of_gt (Period.den_pos hp)
  simp only [Period.instant]
  rw [Int.add_mul, Int.mul_comm (p.den : Int), Int.add_mul_ediv_right _ _ hd, Int.add_mul_emod_self_right]
  exact ⟨(Int.add_assoc _ _ _).symm, rfl⟩

/-- The first index of R71 is the least one whose exact instant is not before `t`. -/
theorem Period.firstIndex_le_iff (hp : p.ok = true) :
    t * p.den ≤ (p.instant e k).at32 * p.den + (p.instant e k).acc ↔ p.firstIndex e t ≤ k := by
  rw [Period.instant_exact, Period.firstIndex, ← Int.lt_add_one_iff (b := k), Int.ediv_lt_iff_lt_mul (Period.num_pos hp), Int.add_mul,
    Int.sub_mul]
  omega

end

/-- Settles O27: an instant by its exact value over the denominator. -/
theorem periodicInstantsAreExact : Obligations.PeriodicInstantsAreExact := by
  unfold Obligations.PeriodicInstantsAreExact
  exact ⟨fun p e k => Period.next_instant, fun p e k => Period.instant_add_den, fun p e t k => Period.firstIndex_le_iff⟩


/-! ### What a selection writes (R155 to R157, R162, R514) -/

/-- The part of TIME's state that no selection, no loop update and no switch of domains writes: the Last and its marks, the slew, and
the estimates of the domains. -/
def Tim.core (x : Tim) : Last × Bool × Nat × Int × Nat × DomEst × DomEst :=
  (x.last, x.lastValid, x.stepCount, x.slewRem, x.slewRes5, x.domA, x.domB)

/-- `t` has TIME's core as `s` has it, and the register fields but those whose keys are in `l`. -/
structure CoreKept (l : List Nat) (s t : State) : Prop where
  core : t.tim.core = s.tim.core
  fields : ∀ (g : Fld) (j : Nat), g.key j ∉ l → getF t g j = getF s g j

section

variable {l : List Nat} {s t u : State} {f : Fld} {i v a : Nat} {b : Bool}

theorem CoreKept.refl : CoreKept l s s := ⟨rfl, fun _ _ _ => rfl⟩

theorem CoreKept.of_eq (h : CoreKept l s t) (hr : u.regs = t.regs) (hc : u.tim.core = t.tim.core) : CoreKept l s u :=
  ⟨hc.trans h.core, fun g j hg => (getF_congr hr).trans (h.fields g j hg)⟩

theorem CoreKept.setF (h : CoreKept l s t) (hf : f.key i ∈ l) : CoreKept l s (setF f v t i) :=
  ⟨h.core, fun g j hg => (getF_setF_ne fun e => hg (by rwa [e])).trans (h.fields g j hg)⟩

theorem CoreKept.setFlag (h : CoreKept l s t) (hf : f.key i ∈ l) : CoreKept l s (setFlag f b t i) := h.setF hf

theorem CoreKept.raise (h : CoreKept l s t) (hf : f.key i ∈ l) : CoreKept l s (raise f t i a) :=
  ⟨(congrArg Tim.core raise_tim).trans h.core, fun g j hg => (getF_raise_ne fun e => hg (by rwa [e])).trans (h.fields g j hg)⟩

theorem CoreKept.ite {c : Prop} [Decidable c] (h : CoreKept l s t) (k : CoreKept l s u) : CoreKept l s (if c then t else u) := by
  split <;> assumption

theorem CoreKept.whenS {e : State → State} (h : CoreKept l s t) (k : CoreKept l s (e t)) : CoreKept l s (whenS b e t) := by
  cases b <;> assumption

theorem CoreKept.flag_eq {g : Fld} {j : Nat} (h : CoreKept l s t) (hg : g.key j ∉ l) : flag t g j = flag s g j :=
  congrArg (· == 1) (h.fields g j hg)

end

/-- The fields of a DPLL that its selection writes. -/
def selDpll : List Fld :=
  [R.REF_DPLL_STAT_STATE, R.REF_DPLL_STAT_SEL_CAND, R.REF_DPLL_STAT_SEL_ENTRY, R.REF_DPLL_STAT_SEL_VALID, R.REF_DPLL_STAT_HO_VALID,
    R.REF_DPLL_STAT_GUARD_ACTIVE, R.REF_DPLL_STAT_BW_CLAMP, R.REF_DPLL_EVENT_FORCE_LOST, R.REF_DPLL_EVENT_BW_CLAMPED,
    R.REF_DPLL_EVENT_HOLDOVER, R.REF_DPLL_EVENT_SWITCH, R.REF_DPLL_EVENT_STATE_CHANGE]

/-- The fields that a switch of domains and the check of the rate word write. -/
def selTime : List Fld :=
  [R.TIM_CTL_DOM_REQ, R.TIM_EVENT_SWITCH_REFUSED, R.TIM_EVENT_SWITCH_DONE, R.TIM_EVENT_RATE_CLAMPED, R.LNK_GSTAT_TX_PPM_WIDE,
    R.LNK_EVENT_TX_PPM_WIDE]

/-- The keys of both, for the four DPLLs. -/
def selKeys : List Nat := selTime.map (·.key 0) ++ (List.range 4).flatMap fun d => selDpll.map (·.key d)

/-- The fields of a candidate that its failure writes. -/
def candFields : List Fld :=
  [R.REF_CAND_STAT_STATE, R.REF_CAND_STAT_ACTIVE, R.REF_CAND_STAT_DRIFT_ALERT, R.REF_CAND_EVENT_ACT_LOSS]

/-- What the failure of PTP and SYNCE candidates writes, with the selections that follow. -/
def activityKeys : List Nat := selKeys ++ (List.range 6).flatMap fun k => candFields.map (·.key (8 + k))

section

variable {l : List Nat} {s t : State} {f : Fld} {d c n : Nat} {b : Bool} {sel : Option (Nat × Nat)}

theorem selTime_mem (hl : selKeys ⊆ l) (hf : f ∈ selTime := by decide) : f.key 0 ∈ l :=
  hl (List.mem_append_left _ (List.mem_map_of_mem hf))

theorem selDpll_mem (hl : selKeys ⊆ l) (hd : d < 4) (hf : f ∈ selDpll := by decide) : f.key d ∈ l :=
  hl (List.mem_append_right _ (List.mem_flatMap.mpr ⟨d, List.mem_range.mpr hd, List.mem_map_of_mem hf⟩))

theorem coreKept_rateCheck (hl : selKeys ⊆ l) (h : CoreKept l s t) : CoreKept l s (rateCheck t) := by
  have hc := h.whenS (b := clamped t) (h.raise (a := 0) (selTime_mem (f := R.TIM_EVENT_RATE_CLAMPED) hl))
  exact (hc.whenS (hc.raise (selTime_mem hl))).setFlag (selTime_mem hl)

theorem coreKept_bwCheck (hl : selKeys ⊆ l) (hd : d < 4) (h : CoreKept l s t) : CoreKept l s (bwCheck d t) := by
  have hw (g : Bool) (cl : Bool) := (h.setFlag (b := cl) (selDpll_mem (f := R.REF_DPLL_STAT_BW_CLAMP) hl hd)).setFlag (b := g)
    (selDpll_mem (f := R.REF_DPLL_STAT_GUARD_ACTIVE) hl hd)
  unfold bwCheck
  split
  · exact ((hw _ _).raise (selDpll_mem hl hd)).ite (hw _ _)
  · exact (h.setF (selDpll_mem hl hd)).setF (selDpll_mem hl hd)

theorem coreKept_setSel (hl : selKeys ⊆ l) (hd : d < 4) (h : CoreKept l s t) : CoreKept l s (setSel d sel t) := by
  have hs : CoreKept l s (match sel with
      | some (e, c') => setF R.REF_DPLL_STAT_SEL_ENTRY e (setF R.REF_DPLL_STAT_SEL_CAND c' (setF R.REF_DPLL_STAT_SEL_VALID 1 t d) d) d
      | none => setF R.REF_DPLL_STAT_SEL_VALID 0 t d) := by
    split
    · exact ((h.setF (selDpll_mem hl hd)).setF (selDpll_mem hl hd)).setF (selDpll_mem hl hd)
    · exact h.setF (selDpll_mem hl hd)
  exact hs.whenS (hs.raise (selDpll_mem hl hd))

theorem coreKept_setDpllState (hl : selKeys ⊆ l) (hd : d < 4) (h : CoreKept l s t) : CoreKept l s (setDpllState d n t) := by
  have hs := h.setF (v := n) (selDpll_mem (f := R.REF_DPLL_STAT_STATE) hl hd)
  unfold setDpllState
  refine hs.ite ?_
  exact CoreKept.raise (hs.of_eq rfl rfl) (selDpll_mem hl hd)

theorem coreKept_enterHoldover (hl : selKeys ⊆ l) (hd : d < 4) (h : CoreKept l s t) : CoreKept l s (enterHoldover d t) := by
  unfold enterHoldover
  refine CoreKept.raise (coreKept_setDpllState hl hd ?_) (selDpll_mem hl hd)
  exact h.of_eq rfl rfl

theorem coreKept_reloadHoldover (hl : selKeys ⊆ l) (hd : d < 4) (h : CoreKept l s t) : CoreKept l s (reloadHoldover d t) := by
  unfold reloadHoldover
  exact coreKept_setDpllState hl hd (CoreKept.setF (h.of_eq rfl rfl) (selDpll_mem hl hd))

theorem coreKept_enterAcquiring (hl : selKeys ⊆ l) (hd : d < 4) (h : CoreKept l s t) : CoreKept l s (enterAcquiring d c t) :=
  coreKept_setDpllState hl hd (h.of_eq rfl rfl)

/-- A refused switch leaves TIME's state, an applied one moves the target and the active domain (R66, R68). -/
theorem coreKept_refuseSwitch (hl : selKeys ⊆ l) (h : CoreKept l s t) : CoreKept l s (refuseSwitch t) := by
  unfold refuseSwitch
  exact (h.setFlag (selTime_mem (f := R.TIM_CTL_DOM_REQ) hl)).raise (selTime_mem hl)

theorem coreKept_applySwitch (hl : selKeys ⊆ l) (h : CoreKept l s t) : CoreKept l s (applySwitch b t) := by
  unfold applySwitch
  refine CoreKept.raise (CoreKept.setFlag ?_ (selTime_mem hl)) (selTime_mem hl)
  exact h.of_eq rfl rfl

theorem coreKept_resolveSel {a : Option Nat} (hl : selKeys ⊆ l) (h : CoreKept l s t) : CoreKept l s (resolveSel d n a t).2.2 := by
  induction n generalizing a t with
  | zero => exact h
  | succ n ih =>
    unfold resolveSel
    split
    · exact h
    · split
      · split
        · exact ih (coreKept_refuseSwitch hl h)
        · exact coreKept_applySwitch hl h
      · exact h

theorem coreKept_dpllEval (hl : selKeys ⊆ l) (hd : d < 4) (h : CoreKept l s t) : CoreKept l s (dpllEval d t) := by
  have hr := coreKept_resolveSel (d := d) (n := 17) (a := none) hl h
  unfold dpllEval
  generalize resolveSel d 17 none t = x at hr
  obtain ⟨sel, sw, u⟩ := x
  have hn := coreKept_setSel (sel := none) hl hd h
  have hs := coreKept_setSel (sel := sel) hl hd hr
  dsimp only at hs ⊢
  split
  case h_1 => exact h.ite (coreKept_setDpllState hl hd (coreKept_setSel hl hd (h.of_eq rfl rfl)))
  case h_2 => exact h.ite (coreKept_setDpllState hl hd (coreKept_setSel hl hd (h.of_eq rfl rfl)))
  case h_3 =>
    refine ((coreKept_enterHoldover hl hd hn).ite ((coreKept_reloadHoldover hl hd hn).ite hn)).ite ?_
    split
    · exact (coreKept_enterHoldover hl hd hs).ite ((coreKept_reloadHoldover hl hd hs).ite hs)
    · exact CoreKept.ite (CoreKept.ite hs (hs.of_eq rfl rfl)) (coreKept_enterAcquiring hl hd hs)

theorem coreKept_bwCheckAll (hl : selKeys ⊆ l) (h : CoreKept l s t) : CoreKept l s (bwCheckAll t) :=
  coreKept_bwCheck hl (by decide) (coreKept_bwCheck hl (by decide) (coreKept_bwCheck hl (by decide)
    (coreKept_bwCheck hl (by decide) h)))

theorem coreKept_selectAll (hl : selKeys ⊆ l) (h : CoreKept l s t) : CoreKept l s (selectAll t) :=
  coreKept_bwCheckAll hl (coreKept_rateCheck hl (coreKept_dpllEval hl (by decide) (coreKept_dpllEval hl (by decide)
    (coreKept_dpllEval hl (by decide) (coreKept_dpllEval hl (by decide) h)))))

theorem coreKept_holdCheck (h : CoreKept l s t) : CoreKept l s (holdCheck t) := by
  unfold holdCheck
  exact CoreKept.ite (h.of_eq rfl rfl) h

theorem coreKept_forceCheck (hl : selKeys ⊆ l) (hd : d < 4) (h : CoreKept l s t) : CoreKept l s (forceCheck d t) :=
  CoreKept.ite (CoreKept.raise (h.of_eq rfl rfl) (selDpll_mem hl hd)) (h.of_eq rfl rfl)

theorem coreKept_reselect (hl : selKeys ⊆ l) (h : CoreKept l s t) : CoreKept l s (reselect t) :=
  coreKept_selectAll hl (coreKept_forceCheck hl (by decide) (coreKept_forceCheck hl (by decide) (coreKept_forceCheck hl (by decide)
    (coreKept_forceCheck hl (by decide) (coreKept_holdCheck h)))))

theorem coreKept_candFail (hc : ∀ f ∈ candFields, f.key c ∈ l) (h : CoreKept l s t) : CoreKept l s (candFail c b t) := by
  have hf (x : Cand) : CoreKept l s (setCand c x t) := h.of_eq rfl rfl
  have hw (x : Cand) := (((hf x).setF (v := 0) (hc R.REF_CAND_STAT_STATE (by decide))).setF (v := 0)
    (hc R.REF_CAND_STAT_DRIFT_ALERT (by decide))).setF (v := 0) (hc R.REF_CAND_STAT_ACTIVE (by decide))
  exact ((hw _).raise (hc R.REF_CAND_EVENT_ACT_LOSS (by decide))).ite (hw _)

theorem coreKept_activityCheck : CoreKept activityKeys s (activityCheck s) := by
  have hl : selKeys ⊆ activityKeys := List.subset_append_left _ _
  refine List.foldlRecOn (motive := CoreKept activityKeys s) _ _ CoreKept.refl fun t h k hk => ?_
  have hc : ∀ f ∈ candFields, f.key (8 + k) ∈ activityKeys := fun f hf =>
    List.mem_append_right _ (List.mem_flatMap.mpr ⟨k, hk, List.mem_map_of_mem hf⟩)
  exact (coreKept_reselect hl (coreKept_candFail hc h)).ite h

end


/-! ### The Last clock (R42) -/

section

variable {l : Last} {u : Int} {r : Nat}

/-- A value made of units has them, the seconds modulo 2^48. -/
theorem Last.units_ofUnits : (Last.ofUnits u r).units = u % (281474976710656 * secUnits) := by
  have h0 : 0 ≤ u % (281474976710656 * secUnits) := Int.emod_nonneg _ (by decide)
  simp only [Last.units, Last.ofUnits]
  omega

theorem Last.tick_units : l.tick.units =
    (l.units + 4294967296 + 2576980377 + (if l.res + 3 ≥ 5 then 1 else 0)) % (281474976710656 * secUnits) := by
  have hs : l.units + 6871947673 + (if l.res + 3 ≥ 5 then 1 else 0) =
      l.units + 4294967296 + 2576980377 + (if l.res + 3 ≥ 5 then 1 else 0) := by split <;> omega
  exact Last.units_ofUnits.trans (congrArg (· % (281474976710656 * secUnits)) hs)

theorem Last.tick_res : l.tick.res = if l.res + 3 ≥ 5 then l.res + 3 - 5 else l.res + 3 := rfl

/-- In fifths of a unit every tick adds the same whole number. -/
theorem Last.tick_fifths (hr : l.res < 5) : l.tick.fifths = (l.fifths + cycle5) % (5 * (281474976710656 * secUnits)) := by
  simp only [Last.fifths, Last.tick_units, Last.tick_res, cycle5, secUnits]
  split <;> omega

theorem Last.tick_res_lt (hr : l.res < 5) : l.tick.res < 5 := by
  rw [Last.tick_res]
  split <;> omega

theorem Last.five_ticks_fifths (hr : l.res < 5) :
    l.tick.tick.tick.tick.tick.fifths = (l.fifths + 5 * cycle5) % (5 * (281474976710656 * secUnits)) := by
  have h1 := Last.tick_res_lt hr
  have h2 := Last.tick_res_lt h1
  have h3 := Last.tick_res_lt h2
  have h4 := Last.tick_res_lt h3
  rw [Last.tick_fifths h4, Last.tick_fifths h3, Last.tick_fifths h2, Last.tick_fifths h1, Last.tick_fifths hr]
  have hs : l.fifths + cycle5 + cycle5 + cycle5 + cycle5 + cycle5 = l.fifths + 5 * cycle5 := by ring
  simp only [Int.emod_add_emod, hs]

/-- Five ticks are 8 ns, and the residue comes back. -/
theorem Last.five_ticks (hr : l.res < 5) :
    l.tick.tick.tick.tick.tick.units = (l.units + 8 * 4294967296) % (281474976710656 * secUnits) ∧
      l.tick.tick.tick.tick.tick.res = l.res := by
  have hf := Last.five_ticks_fifths hr
  have h5 : l.tick.tick.tick.tick.tick.res < 5 :=
    Last.tick_res_lt (Last.tick_res_lt (Last.tick_res_lt (Last.tick_res_lt (Last.tick_res_lt hr))))
  simp only [Last.fifths, cycle5, secUnits] at hf ⊢
  omega

end

/-! #### A cycle of the Last (R42, R53) -/

section

variable {s t : State} {d : Nat} {b : Bool}

theorem tim_of_keeps {W : Nat} (hb : W.testBit 6 = false) (h : Keeps W s t) : t.tim = s.tim := h.same.tim hb

@[simp] theorem noteSteady_tim : (noteSteady s).tim = s.tim := rfl
@[simp] theorem tdcTick_tim : (tdcTick s).tim = s.tim := tim_of_keeps rfl (keeps_tdcTick (W := 1048576) rfl keeps_refl)
@[simp] theorem rateCheck_tim : (rateCheck s).tim = s.tim := tim_of_keeps rfl (keeps_rateCheck (W := 258) rfl keeps_refl)
@[simp] theorem rateAged_tim : (rateAged b s).tim = s.tim := tim_of_keeps rfl (keeps_rateAged (W := 258) rfl keeps_refl)
@[simp] theorem dpllSample_tim {v : Int} : (dpllSample d v s).tim = s.tim :=
  tim_of_keeps rfl (keeps_dpllSample (W := 386) rfl keeps_refl)
@[simp] theorem loopUpdate_tim : (loopUpdate d s).tim = s.tim := tim_of_keeps rfl (keeps_loopUpdate (W := 386) rfl keeps_refl)
@[simp] theorem dpllCycle_tim : (dpllCycle d s).tim = s.tim := tim_of_keeps rfl (keeps_dpllCycle (W := 386) rfl keeps_refl)
@[simp] theorem dcoCycle_tim : (dcoCycle d s).tim = s.tim := tim_of_keeps rfl (keeps_dcoCycle (W := 524288) rfl keeps_refl)

@[simp] theorem core_switchUpdate : (switchUpdate s).tim.core = s.tim.core := by
  unfold switchUpdate
  split
  · dsimp only
    split
    · simp only [loopUpdate_tim, dpllSample_tim]
      rfl
    · rfl
  · rfl

@[simp] theorem core_hoCycle : (hoCycle s).tim.core = s.tim.core := by
  refine (List.foldlRecOn (motive := CoreKept selKeys s) _ _ CoreKept.refl fun t h d hd => ?_).core
  exact h.whenS (coreKept_rateCheck (List.Subset.refl _) (coreKept_dpllEval (List.Subset.refl _) (List.mem_range.mp hd) h))

@[simp] theorem core_blendCycle : (blendCycle s).tim.core = s.tim.core := by
  unfold blendCycle
  split <;> rfl

@[simp] theorem core_convergeCycle : (convergeCycle s).tim.core = s.tim.core := by
  unfold convergeCycle
  split <;> rfl

/-- What a cycle of a running slew leaves of TIME's state. -/
theorem slewStep_tim : (slewStep s).tim = if s.tim.slewRem = 0 then s.tim else
    { s.tim with slewRem := (slewCycle (slewWord s) s.tim.slewRem s.tim.slewRes5).1
                 slewRes5 := (slewCycle (slewWord s) s.tim.slewRem s.tim.slewRes5).2.1 } := by
  unfold slewStep
  generalize slewCycle (slewWord s) s.tim.slewRem s.tim.slewRes5 = x
  obtain ⟨rem, r5, done⟩ := x
  dsimp only
  split
  · rfl
  · split
    · rw [rateCheck_tim, raise_tim]
    · rfl

theorem dcoCycles_tim : ((List.range 4).foldl (fun s k => dcoCycle k s) s).tim = s.tim := by
  rw [foldl_range_four, dcoCycle_tim, dcoCycle_tim, dcoCycle_tim, dcoCycle_tim]

/-- Nothing after the slew in a cycle of the Last writes TIME's core. -/
theorem core_lastCycle {u : State} : ((List.range 4).foldl (fun s k => dcoCycle k s) (hoCycle (switchUpdate (rateAged b
    (dpllCycle 3 (dpllCycle 2 (dpllCycle 1 (dpllCycle 0 (blendCycle (convergeCycle (slewStep u))))))))))).tim.core =
      (slewStep u).tim.core := by
  rw [dcoCycles_tim, core_hoCycle, core_switchUpdate, rateAged_tim, dpllCycle_tim, dpllCycle_tim, dpllCycle_tim, dpllCycle_tim,
    core_blendCycle, core_convergeCycle]

theorem tdcTick_begin_regs : (tdcTick s.begin).regs = s.regs :=
  (keeps_tdcTick (W := 1048576) rfl (keeps_refl (s := s.begin))).same.regs rfl

/-- While TIME runs a cycle puts the Last one tick on and steps the slew. -/
theorem exec_lastIncrement_core (h : timRuns s = true) : ∃ t u : State, exec .lastIncrement s = .next t ∧
    u.tim = { s.tim with last := s.tim.last.tick, cyc := s.tim.cyc + 1 } ∧ u.regs = s.regs ∧
    t.tim.core = (slewStep u).tim.core := by
  have ht : (tdcTick s.begin).tim = s.tim := tdcTick_tim
  show ∃ t u : State, execLastIncrement s = .next t ∧ _
  rw [execLastIncrement, if_pos (timRuns_tdcTick_begin.trans h)]
  refine ⟨_, _, rfl, ?_, ?_, core_lastCycle⟩
  · dsimp only [noteSteady_tim]
    rw [ht]
  · exact tdcTick_begin_regs

end

/-- Settles O15: a tick by its units and its residue, five of them in fifths of a unit, and a cycle by what it leaves of TIME's
core. -/
theorem theLastAdvancesByOnePointSixNs : Obligations.TheLastAdvancesByOnePointSixNs := by
  unfold Obligations.TheLastAdvancesByOnePointSixNs
  refine ⟨fun s h => ?_, fun l hs hn hf hr => ?_, fun l _ _ _ hr => Last.five_ticks hr⟩
  · obtain ⟨t, u, he, hu, -, hc⟩ := exec_lastIncrement_core h
    have hk : (slewStep u).tim.last = u.tim.last ∧ (slewStep u).tim.lastValid = u.tim.lastValid ∧
        (slewStep u).tim.stepCount = u.tim.stepCount := by
      rw [slewStep_tim]
      split <;> exact ⟨rfl, rfl, rfl⟩
    simp only [Tim.core, Prod.mk.injEq] at hc
    obtain ⟨hlast, hvalid, hcount, -⟩ := hc
    rw [hu] at hk
    exact ⟨t, he, hlast.trans hk.1, hvalid.trans hk.2.1, hcount.trans hk.2.2⟩
  · obtain ⟨h1, h2, h3, -⟩ := ok_tick ⟨hs, hn, hf, hr⟩
    exact ⟨Last.tick_units, Last.tick_res, h1, h2, h3⟩


/-! ### Steps and absolute sets (R48 to R52) -/

section

variable {s : State} {req : Requester} {hi val : Nat} {absolute adopt servo : Bool} {value amount a : Int} {q : StepReq}

theorem exec_lastSetRequest_of_reaches (h : reaches req 0x40028 0 s) (hn : stagedWord s req 0x40020 ≤ 999999999) :
    exec (.lastSetRequest req hi) s = .next (requestStep true false false (stagedT96 s req 0x40020 hi).units s.begin) := by
  have hg : ¬ (stagedT96 s.begin req 0x40020 hi).ns > 999999999 := Nat.not_lt.mpr hn
  rw [exec_lastSetRequest, writeAt_of_reaches (reaches_begin h), effect_lastSet]
  exact congrArg _ (if_neg hg)

theorem requestStep_free (h : s.tim.step = none) : requestStep absolute adopt servo value s =
    { s with tim := { s.tim with step := some ⟨stepInstant (now s), absolute, value, adopt, servo, s.tim.cyc⟩ } } := by
  simp [requestStep, stepBusy, h]

/-- A request of the host takes the place of one that the servo made in the same cycle (R50). -/
theorem requestStep_displaces (h : s.tim.step = some q) (hd : q.servo = true ∧ servo = false ∧ q.cyc = s.tim.cyc) :
    requestStep absolute adopt servo value s = raise R.TIM_EVENT_STEP_REJECTED
      { s with tim := { s.tim with step := some ⟨stepInstant (now s), absolute, value, adopt, servo, s.tim.cyc⟩ } } := by
  simp [requestStep, stepBusy, h, hd]

theorem requestStep_rejected (h : s.tim.step = some q) (hd : ¬ (q.servo = true ∧ servo = false ∧ q.cyc = s.tim.cyc)) :
    requestStep absolute adopt servo value s = raise R.TIM_EVENT_STEP_REJECTED s := by
  have hb : stepBusy servo s = true := by
    by_contra hn
    exact hd (by simpa [stepBusy, h, and_assoc] using hn)
  simp [requestStep, hb]

/-- The instant of a step is the first whole microsecond at least 1 us ahead (R49). -/
theorem stepInstant_least (t : Int) : stepInstant t % unitUs = 0 ∧ t + unitUs ≤ stepInstant t ∧
    ∀ x, x % unitUs = 0 → t + unitUs ≤ x → stepInstant t ≤ x := by
  simp only [stepInstant, unitUs]
  refine ⟨Int.mul_emod_left _ _, by omega, fun x h0 hx => by omega⟩

theorem exec_servoPhaseCorrection (h : timUp s = true) :
    exec (.servoPhaseCorrection amount) s = .next (servoCorrection amount s.begin) := ran_ite_pos h

theorem exec_stepApply (hq : s.tim.step = some q) (hr : timRuns s = true) (hi : q.instant ≤ now s) :
    exec .stepApply s = .next (applyStep q s.begin) := by
  have hq' : s.begin.tim.step = some q := hq
  have hg : (timRuns s && decide (q.instant ≤ now s)) = true := by simp [hr, hi]
  show execStepApply s = _
  simp only [execStepApply, hq']
  exact ran_ite_pos hg

theorem stepLast_spec : (q.absolute = true → (stepLast q a s).tim.last = Last.ofUnits q.value 0) ∧
    (q.absolute = false → (stepLast q a s).tim.last = Last.ofUnits (now s + a) s.tim.last.res) ∧
    (stepLast q a s).tim.lastValid = true ∧ (stepLast q a s).tim.step = none ∧ (stepLast q a s).tim.stepAmt = a ∧
    (stepLast q a s).tim.stepCount = (s.tim.stepCount + 1) % 2 ^ 32 :=
  ⟨fun h => if_pos h, fun h => if_neg (by simp [h]), rfl, rfl, rfl, rfl⟩

end

/-- Settles O16: a request by the step that is pending, its instant by the division, a step by its size. -/
theorem stepsAreRequestedOnceAndAppliedWhole : Obligations.StepsAreRequestedOnceAndAppliedWhole := by
  unfold Obligations.StepsAreRequestedOnceAndAppliedWhole
  exact ⟨fun req hi s h => ran_writeAt_of_reaches h, fun req hi s => exec_lastSetRequest_of_reaches,
    fun absolute adopt servo value s => ⟨requestStep_free, fun q hq => ⟨requestStep_displaces hq, requestStep_rejected hq⟩⟩,
    stepInstant_least, fun amount s => exec_servoPhaseCorrection, fun q s => exec_stepApply, fun q a s => stepLast_spec⟩

/-! ### Slews (R48, R53, R54) -/

section

variable {s t : State} {val : Nat} {amount : Int}

theorem coreKept_rateCheck_self : CoreKept selKeys s (rateCheck s) := coreKept_rateCheck (List.Subset.refl _) CoreKept.refl

theorem addSlew_tim : (addSlew amount s).tim = { s.tim with slewRem := s.tim.slewRem + amount * 4294967296 } := by
  have hw (b : Bool) (u : State) : (whenS b (raise R.TIM_EVENT_SLEW_DONE) u).tim = u.tim := by cases b <;> simp [whenS]
  rw [addSlew, rateCheck_tim, hw]

/-- A request that takes away all that remained ends the slew (notes/assumptions/54.md). -/
theorem slewDone_addSlew (hr : s.tim.slewRem ≠ 0) (h0 : s.tim.slewRem + amount * 4294967296 = 0) :
    flag (addSlew amount s) R.TIM_EVENT_SLEW_DONE = true := by
  have hg : (s.tim.slewRem ≠ 0 && s.tim.slewRem + amount * 4294967296 == 0) = true := by simp [hr, h0]
  rw [addSlew, hg, coreKept_rateCheck_self.flag_eq (by decide)]
  exact flag_raise_same (by decide)

theorem writeSlewCfg_tim : (writeSlewCfg val s).tim = s.tim := rateCheck_tim

theorem slewPpb_writeSlewCfg : slewPpb (writeSlewCfg val s) = min 10000 (max 1 (val % 65536)) := by
  have hp : getF (writeSlewCfg val s) R.TIM_SLEW_CFG_SLEW_PPB = max 1 (val % 65536) := by
    rw [writeSlewCfg, coreKept_rateCheck_self.fields _ _ (by decide), getF_setF_ne (by decide), getF_setF_same, zeroAs_one]
    simp only [bitsOf, Nat.pow_zero, Nat.div_one]
    show max 1 (val % 65536) % 65536 = _
    omega
  rw [slewPpb, hp, satN_eq_min, zeroAs_one]
  omega

theorem stepThresh_writeSlewCfg : getF (writeSlewCfg val s) R.TIM_SLEW_CFG_STEP_THRESH_US = val / 65536 % 65536 := by
  rw [writeSlewCfg, coreKept_rateCheck_self.fields _ _ (by decide), getF_setF_same]
  exact Nat.mod_mod _ _

/-- The last cycle of a slew: the gain covers what remains. -/
theorem slewStep_ends (hr : s.tim.slewRem ≠ 0) (h : (8 * slewWord s + s.tim.slewRes5) / 5 ≥ s.tim.slewRem.natAbs) :
    (slewStep s).tim.slewRem = 0 ∧ flag (slewStep s) R.TIM_EVENT_SLEW_DONE = true := by
  refine ⟨?_, ?_⟩
  · rw [slewStep_tim, if_neg hr, slewCycle_ends h]
  · simp only [slewStep, if_neg hr, slewCycle_ends h, if_true]
    rw [coreKept_rateCheck_self.flag_eq (by decide)]
    exact flag_raise_same (by decide)

theorem exec_slewDone (ht : timRuns s = true) (hr : s.tim.slewRem ≠ 0)
    (h : (8 * slewWord s + s.tim.slewRes5) / 5 ≥ s.tim.slewRem.natAbs) : exec .slewDone s = .next (slewStep s.begin) := by
  have hz : slewCycle (slewWord s.begin) s.begin.tim.slewRem s.begin.tim.slewRes5 = _ := slewCycle_ends h
  have hg : (timRuns s && s.tim.slewRem ≠ 0 && true) = true := by simp [ht, hr]
  show execSlewDone s = _
  simp only [execSlewDone, hz]
  exact ran_ite_pos hg

/-- A cycle takes its gain from the remainder, or all of it, and the fifths that are left wait for the next (R53). -/
theorem slewCycle_spec {w rem : Int} {r5 : Nat} :
    (slewCycle w rem r5).1 = (if (8 * w + r5) / 5 ≥ rem.natAbs then 0 else rem - sgn rem * ((8 * w + r5) / 5)) ∧
      ((slewCycle w rem r5).2.1 : Int) = (8 * w + r5) % 5 := by
  have h5 : (((8 * w + r5) % 5).toNat : Int) = (8 * w + r5) % 5 := Int.toNat_of_nonneg (Int.emod_nonneg _ (by decide))
  unfold slewCycle
  dsimp only
  split
  · exact ⟨rfl, h5⟩
  · exact ⟨rfl, h5⟩

theorem slewWord_congr (h : t.regs = s.regs) : slewWord t = slewWord s := by
  simp only [slewWord, slewPpb, getF_congr h]

end

/-- Settles O17: a request by the remainder it leaves, a write by its two fields, a cycle by its gain. -/
theorem slewsRunAtTheSlewWord : Obligations.SlewsRunAtTheSlewWord := by
  unfold Obligations.SlewsRunAtTheSlewWord
  refine ⟨fun req hi s h => ran_writeAt_of_reaches h, fun amount s => ⟨addSlew_tim, slewDone_addSlew⟩,
    fun req val s h => ⟨_, ran_writeAt_of_reaches h, rfl, writeSlewCfg_tim, slewPpb_writeSlewCfg, stepThresh_writeSlewCfg⟩,
    fun s ht hr h => ⟨exec_slewDone ht hr h, slewStep_ends (s := s.begin) hr h⟩, fun s ht hr => ?_⟩
  obtain ⟨t, u, he, hu, hg, hc⟩ := exec_lastIncrement_core ht
  have hs : (slewStep u).tim = { u.tim with
      slewRem := (slewCycle (slewWord s) s.tim.slewRem s.tim.slewRes5).1
      slewRes5 := (slewCycle (slewWord s) s.tim.slewRem s.tim.slewRes5).2.1 } := by
    rw [slewStep_tim, slewWord_congr hg, hu]
    exact if_neg hr
  simp only [hs, Tim.core, Prod.mk.injEq] at hc
  obtain ⟨-, -, -, hrem, hres, -⟩ := hc
  refine ⟨t, he, ?_⟩
  rw [hrem, hres]
  exact slewCycle_spec

/-! ### Estimates of the domains (R55 to R61) -/

section

variable {s t : State} {b : Bool} {e : DomEst} {o r tm : Int}

theorem dom_congr (h : t.tim.core = s.tim.core) : dom t b = dom s b := by
  simp only [Tim.core, Prod.mk.injEq] at h
  obtain ⟨-, -, -, -, -, ha, hb⟩ := h
  simp only [dom, ha, hb]

@[simp] theorem dom_setDom_same : dom (setDom b e s) b = e := by cases b <;> rfl

theorem core_weltCheck : (weltCheck s).tim.core = s.tim.core := by
  unfold weltCheck
  dsimp only
  split
  · rw [raise_tim]
    rfl
  · rfl

theorem core_weltUpdate : (weltUpdate tm s).tim.core = s.tim.core := by
  unfold weltUpdate
  split
  · dsimp only
    split <;> rfl
  · rfl

/-- The checks of the welt and of the candidates leave the estimates (R61, R148). -/
theorem dom_activityCheck_weltCheck : dom (activityCheck (weltCheck s)) b = dom s b :=
  dom_congr (coreKept_activityCheck.core.trans core_weltCheck)

theorem dom_postEstimate (h : domEnabled s b = true) :
    dom (postEstimate b o r tm s) b = ⟨true, decide (now s - tm ≤ maxAge s), o, r, tm⟩ := by
  have hw (c : Bool) (u : State) : dom (whenS c (raise R.TIM_EVENT_DOM_STALE) u) b = dom u b := by
    cases c <;> simp [whenS, dom]
  rw [postEstimate, if_pos h]
  dsimp only
  rw [dom_activityCheck_weltCheck, dom_congr core_weltUpdate, hw, dom_setDom_same]

theorem exec_domainEstimatePost_some (ht : timUp s = true) (hr : servoRuns s = true) :
    exec (.domainEstimatePost b (some (o, r, tm))) s = .next (postEstimate b o r tm s.begin) :=
  ran_ite_pos (Bool.and_eq_true_iff.mpr ⟨ht, hr⟩)

theorem exec_domainEstimatePost_none (ht : timUp s = true) (hr : servoRuns s = true) :
    exec (.domainEstimatePost b none) s = .next (match servoEstimate b s.begin with
      | (some (o, r, t), s) => postEstimate b o r t s
      | (none, s) => s) :=
  ran_ite_pos (Bool.and_eq_true_iff.mpr ⟨ht, hr⟩)

theorem exec_domainStale (hf : (dom s b).fresh = true) (ha : maxAge s < domAge s b) : exec (.domainStale b) s =
    .next (activityCheck (weltCheck (raise R.TIM_EVENT_DOM_STALE (setDom b { dom s b with fresh := false } s.begin)))) :=
  ran_ite_pos (Bool.and_eq_true_iff.mpr ⟨hf, decide_eq_true ha⟩)

theorem flag_domStale_weltCheck : flag (weltCheck s) R.TIM_EVENT_DOM_STALE = flag s R.TIM_EVENT_DOM_STALE := by
  unfold weltCheck
  dsimp only
  split
  · exact congrArg (· == 1) (getF_raise_ne (by decide))
  · rfl

theorem flag_domStale_activityCheck : flag (activityCheck s) R.TIM_EVENT_DOM_STALE = flag s R.TIM_EVENT_DOM_STALE :=
  coreKept_activityCheck.flag_eq (by decide)

end

/-- Settles O18: an estimate by what the checks after it leave of TIME's core, a stale one by its event. -/
theorem domainEstimatesFeedTheWelt : Obligations.DomainEstimatesFeedTheWelt := by
  unfold Obligations.DomainEstimatesFeedTheWelt
  refine ⟨fun b o r tm s ht hr hd => ⟨_, exec_domainEstimatePost_some ht hr, rfl, dom_postEstimate (s := s.begin) hd⟩,
    fun b s => exec_domainEstimatePost_none, fun b s hf ha => ⟨_, exec_domainStale hf ha, rfl, ?_, ?_⟩,
    fun req b val s h => ran_writeAt_of_reaches h⟩
  · rw [dom_activityCheck_weltCheck, dom_congr (congrArg Tim.core raise_tim), dom_setDom_same]
  · rw [flag_domStale_activityCheck, flag_domStale_weltCheck]
    exact flag_raise_same (by decide)

/-! ### Switches of domains (R59, R60, R63 to R68, R514) -/

section

variable {s t : State} {req : Requester} {hi val : Nat} {b : Bool} {x : Blend}

theorem activeB_weltCheck : (weltCheck s).tim.activeB = s.tim.activeB := by
  unfold weltCheck
  dsimp only
  split
  · rw [raise_tim]
  · rfl

theorem regs_weltCheck_ne {g : Fld} {j : Nat} (h : g.key j ≠ R.TIM_EVENT_WELT_LOST.key 0) : getF (weltCheck s) g j = getF s g j := by
  unfold weltCheck
  dsimp only
  split
  · exact getF_raise_ne h
  · rfl

theorem setWeltEna_cases : setWeltEna b s = setFlag R.TIM_CTL_WELT_ENA b s ∨
    setWeltEna b s = weltCheck (setFlag R.TIM_CTL_WELT_ENA b s) ∨
    setWeltEna b s = weltUninit (setFlag R.TIM_CTL_WELT_ENA b s) := by
  unfold setWeltEna
  dsimp only
  split_ifs
  · exact .inl rfl
  · exact .inr (.inr rfl)
  · exact .inr (.inl rfl)

theorem activeB_setWeltEna : (setWeltEna b s).tim.activeB = s.tim.activeB := by
  rcases setWeltEna_cases (b := b) (s := s) with h | h | h <;> rw [h]
  · rfl
  · exact activeB_weltCheck
  · exact activeB_weltCheck

theorem domainB_setWeltEna : domainB (setWeltEna b s) = domainB s := by
  refine congrArg (· == 1) ?_
  rcases setWeltEna_cases (b := b) (s := s) with h | h | h <;> rw [h]
  · exact getF_setFlag_ne (by decide)
  · exact (regs_weltCheck_ne (by decide)).trans (getF_setFlag_ne (by decide))
  · exact (regs_weltCheck_ne (by decide)).trans (getF_setFlag_ne (by decide))

theorem domainB_releaseHold : domainB (releaseHold s) = domainB s := by
  unfold releaseHold
  split
  · exact (coreKept_selectAll (List.Subset.refl _) CoreKept.refl).flag_eq (by decide)
  · rfl

/-- TIM_CTL's fields as a write takes them before its domain request: ADOPT, WELT_ENA, the release of a hold, and SWITCH_AT. -/
def timCtlFields (val : Nat) (s : State) : State :=
  setFlag R.TIM_CTL_SWITCH_AT (bitOf val 7)
    (whenS (bitOf val 1) releaseHold (setWeltEna (bitOf val 6) (setF R.TIM_CTL_ADOPT (bitsOf val 4 2) s)))

theorem domainB_taken {v : Nat} :
    domainB (whenS (bitOf val 1) releaseHold (setWeltEna (bitOf val 6) (setF R.TIM_CTL_ADOPT v s))) = domainB s := by
  have he : domainB (setWeltEna (bitOf val 6) (setF R.TIM_CTL_ADOPT v s)) = domainB s :=
    domainB_setWeltEna.trans (congrArg (· == 1) (getF_setF_ne (by decide)))
  cases bitOf val 1
  · exact he
  · exact domainB_releaseHold.trans he

theorem activeB_timCtlFields (h : bitOf val 1 = false) : (timCtlFields val s).tim.activeB = s.tim.activeB := by
  rw [timCtlFields, h]
  exact activeB_setWeltEna

/-- A write of TIM_CTL that the grade does not refuse (R59). -/
theorem writeTimCtl_eq (hd : bitOf val 0 = true → domainB s = true) : writeTimCtl val s =
    if (bitOf val 0 == s.tim.activeB) = true ∨ bitOf val 0 = (timCtlFields val s).tim.activeB then
      domReqSync { timCtlFields val s with tim := { (timCtlFields val s).tim with armed := false } }
    else if bitOf val 7 then setFlag R.TIM_CTL_DOM_REQ (bitOf val 0)
      { timCtlFields val s with tim := { (timCtlFields val s).tim with armed := true } }
    else softSwitch (bitOf val 0) (setFlag R.TIM_CTL_DOM_REQ (bitOf val 0)
      { timCtlFields val s with tim := { (timCtlFields val s).tim with armed := false } }) := by
  refine if_neg ?_
  rw [domainB_taken]
  cases h : bitOf val 0
  · exact nofun
  · simp [hd h]

/-- A write that names the active domain leaves nothing armed. -/
theorem writeTimCtl_same (h0 : bitOf val 0 = s.tim.activeB) (hd : bitOf val 0 = true → domainB s = true) :
    writeTimCtl val s = domReqSync { timCtlFields val s with tim := { (timCtlFields val s).tim with armed := false } } := by
  rw [writeTimCtl_eq hd, if_pos (.inl (beq_iff_eq.mpr h0))]

theorem timCtlFields_kept (h : bitOf val 1 = false) : timCtlFields val s =
    setFlag R.TIM_CTL_SWITCH_AT (bitOf val 7) (setWeltEna (bitOf val 6) (setF R.TIM_CTL_ADOPT (bitsOf val 4 2) s)) := by
  rw [timCtlFields, h, whenS_false]

theorem writeTimCtl_other (h1 : bitOf val 1 = false) (h0 : bitOf val 0 ≠ s.tim.activeB) (hd : bitOf val 0 = true → domainB s = true) :
    writeTimCtl val s =
      (if bitOf val 7 then fun v => setFlag R.TIM_CTL_DOM_REQ (bitOf val 0) { v with tim := { v.tim with armed := true } }
       else fun v => softSwitch (bitOf val 0) (setFlag R.TIM_CTL_DOM_REQ (bitOf val 0) { v with tim := { v.tim with armed := false } }))
      (setFlag R.TIM_CTL_SWITCH_AT (bitOf val 7) (setWeltEna (bitOf val 6) (setF R.TIM_CTL_ADOPT (bitsOf val 4 2) s))) := by
  have hn : ¬ ((bitOf val 0 == s.tim.activeB) = true ∨ bitOf val 0 = (timCtlFields val s).tim.activeB) := by
    rw [activeB_timCtlFields h1]
    simpa using h0
  rw [writeTimCtl_eq hd, if_neg hn, ← timCtlFields_kept h1]
  split <;> rfl

/-- With DOM_RELEASE the hold ends before the request is looked at (R514). -/
theorem timCtlFields_release (h : bitOf val 1 = true) : timCtlFields val s = setFlag R.TIM_CTL_SWITCH_AT (bitOf val 7)
    (releaseHold (setWeltEna (bitOf val 6) (setF R.TIM_CTL_ADOPT (bitsOf val 4 2) s))) := by
  rw [timCtlFields, h, whenS_true]

theorem setWeltEna_on (h : weltEna s = false) : setWeltEna true s = weltUninit (setFlag R.TIM_CTL_WELT_ENA true s) := by
  simp [setWeltEna, h]

theorem setWeltEna_off (h : weltEna s = true) : setWeltEna false s = weltCheck (setFlag R.TIM_CTL_WELT_ENA false s) := by
  simp [setWeltEna, h]

/-- A welt that is not enabled is invalid (R61). -/
theorem welt_invalid_of_off (h : weltEna s = false) : (weltCheck s).tim.welt.valid = false := by
  have hc : weltConditions s = false := by simp [weltConditions, h]
  unfold weltCheck
  dsimp only
  rw [hc]
  split
  · rw [raise_tim]
  · rfl

theorem softSwitch_refused (h : switchRefused s b true = true) : softSwitch b s = refuseSwitch s := if_pos h

theorem softSwitch_applied (h : switchRefused s b true = false) : softSwitch b s = holdDomain b (applySwitch b s) :=
  if_neg (by simp [h])

theorem switchRefused_of (h : s.tim.welt.valid = false ∨ domEnabled s b = false ∨ (dom s b).fresh = false) :
    switchRefused s b true = true := by
  rcases h with h | h | h <;> simp [switchRefused, h]

theorem exec_switchTimeWrite_of_reaches (h : reaches req 0x40068 0 s) (hn : stagedWord s req 0x40060 ≤ 999999999) :
    exec (.switchTimeWrite req hi) s = .next (timedSwitch (setT96 0x40060 0 (stagedT96 s req 0x40060 hi) s.begin)) := by
  have hg : ¬ (stagedT96 s.begin req 0x40060 hi).ns > 999999999 := Nat.not_lt.mpr hn
  rw [exec_switchTimeWrite, writeAt_of_reaches (reaches_begin h), effect_switchTime]
  exact congrArg _ (if_neg hg)

theorem exec_timedSwitchInstant (ht : timUp s = true) (ha : s.tim.armed = true) (hi : (getT96 s 0x40060 0).units ≤ now s) :
    exec .timedSwitchInstant s = .next (softSwitch (!s.tim.activeB) { s.begin with tim := { s.tim with armed := false } }) :=
  (ran_ite_pos ht).trans (congrArg _ (if_pos (Bool.and_eq_true_iff.mpr ⟨ha, decide_eq_true hi⟩)))

theorem exec_blendEnd (hb : s.tim.blend = some x) (h : x.start + x.len ≤ now s) :
    exec .blendEnd s = .next (blendEnd x s.begin) := by
  have hb' : s.begin.tim.blend = some x := hb
  show execBlendEnd s = _
  simp only [execBlendEnd, hb']
  exact ran_ite_pos h

/-! #### The end of a blend (R67), by ADOPT -/

/-- The state at the end of blend `x`: its target is kept and its rate is 0. -/
def blendDone (x : Blend) (s : State) : State :=
  { s with tim := { s.tim with target := (blendAt x x.len).1, targetRate := 0, blend := none } }

theorem blendEnd_eq : blendEnd x s =
    if getF s R.TIM_CTL_ADOPT = 0 then blendDone x s
    else if getF s R.TIM_CTL_ADOPT = 2 then
      if s.tim.step.isSome then { blendDone x s with tim := { (blendDone x s).tim with heldAdopt := true } }
      else requestStep false true false ((blendAt x x.len).1 / 65536) (blendDone x s)
    else { blendDone x s with tim := { (blendDone x s).tim with converging := decide ((blendAt x x.len).1 ≠ 0) } } := by
  unfold blendEnd
  dsimp only
  split
  case h_1 h => exact (if_pos h).symm
  case h_2 h => exact ((if_neg fun h0 => absurd (h.symm.trans h0) (by decide)).trans (if_pos h)).symm
  case h_3 h0 h2 => exact ((if_neg h0).trans (if_neg h2)).symm

theorem blend_blendEnd : (blendEnd x s).tim.blend = none := by
  rw [blendEnd_eq]
  split_ifs
  · rfl
  · rfl
  · rw [requestStep_free (Option.not_isSome_iff_eq_none.mp ‹_›)]
    rfl
  · rfl

theorem exec_convergeDone (ht : timRuns s = true) (hc : s.tim.converging = true)
    (h : (8 * slewWord s + s.tim.convRes5) / 5 ≥ s.tim.target.natAbs) :
    exec .convergeDone s = .next (convergeCycle s.begin) := by
  have hz : slewCycle (slewWord s.begin) s.begin.tim.target s.begin.tim.convRes5 = _ := slewCycle_ends h
  have hg : (timRuns s && s.tim.converging && true) = true := by simp [ht, hc]
  show execConvergeDone s = _
  simp only [execConvergeDone, hz]
  exact ran_ite_pos hg

theorem convergeCycle_ends (hc : s.tim.converging = true) (h : (8 * slewWord s + s.tim.convRes5) / 5 ≥ s.tim.target.natAbs) :
    convergeCycle s = { s with tim := { s.tim with
      target := 0, convRes5 := ((8 * slewWord s + s.tim.convRes5) % 5).toNat, converging := false } } := by
  rw [convergeCycle, if_pos hc, slewCycle_ends h]
  rfl

end

/-- Settles O19: a write of TIM_CTL by its request, a switch by the test of R68, the end of a blend by ADOPT. -/
theorem domainSwitchesAreRequestedArmedCancelledAndRefused : Obligations.DomainSwitchesAreRequestedArmedCancelledAndRefused := by
  unfold Obligations.DomainSwitchesAreRequestedArmedCancelledAndRefused
  refine ⟨fun req val s h => ran_writeAt_of_reaches h, fun req val s h => ran_writeAt_of_reaches h,
    fun req val s h => ran_writeAt_of_reaches h, fun req val s h => ran_writeAt_of_reaches h,
    fun req val s h => ran_writeAt_of_reaches h, fun val s => writeTimCtl_other,
    fun val s h1 h0 hd => ⟨_, writeTimCtl_same h0 hd, timCtlFields_release h1⟩,
    fun s => ⟨fun h => if_pos h, fun h => if_neg (by simp [h])⟩,
    fun s => ⟨setWeltEna_on, fun h => ⟨setWeltEna_off h, ?_⟩⟩, fun val s h1 h0 hd => ?_,
    fun b s => ⟨softSwitch_refused, softSwitch_applied, switchRefused_of⟩, fun req hi s => exec_switchTimeWrite_of_reaches,
    fun s => exec_timedSwitchInstant, fun x s => exec_blendEnd,
    fun x s => ⟨_, rfl, blend_blendEnd, fun h => blendEnd_eq.trans (if_pos h), fun h => ?_, fun h hs => ?_, fun h hs => ?_⟩,
    fun s ht hc h => ⟨_, exec_convergeDone ht hc h, ?_⟩⟩
  · rw [setWeltEna_off h]
    exact welt_invalid_of_off (flag_setFlag_same (by decide))
  · have ha := activeB_timCtlFields (s := s) h1
    rw [writeTimCtl_same h0 hd]
    exact ⟨rfl, ha, (flag_setFlag_same (by decide)).trans ha⟩
  · rw [blendEnd_eq, if_neg (by omega), if_neg (by omega)]
    rfl
  · rw [blendEnd_eq, if_neg (by omega), if_pos h, hs]
    exact congrArg (·.tim.step) (requestStep_free (s := blendDone x s) hs)
  · rw [blendEnd_eq, if_neg (by omega), if_pos h, if_pos (Option.isSome_iff_ne_none.mpr hs)]
    rfl
  · rw [convergeCycle_ends (s := s.begin) hc h]
    exact ⟨rfl, rfl, rfl⟩

/-! ### Candidates (R142 to R151) -/

section

variable {s t : State} {c : Nat} {tm val y x : Int}

/-! #### Phase samples (R147) -/

theorem setCand_setCand {o o' : Cand} : setCand c o (setCand c o' s) = setCand c o s := by
  simp [setCand]

theorem adjFor_begin : adjFor c s.begin = (adjFor c s).begin := by
  have hs : serving s.begin (candSrc s.begin c) = serving s (candSrc s c) := rfl
  rw [adjFor, adjFor, hs]
  cases serving s (candSrc s c) with
  | none => rfl
  | some n =>
    show takeAdj n s.begin = (takeAdj n s).begin
    have ha : smGet none s.begin.tdc.adjs n = smGet none s.tdc.adjs n := rfl
    rw [takeAdj, takeAdj, ha]
    cases smGet none s.tdc.adjs n <;> rfl

theorem spansStep_adjFor_begin : spansStep (adjFor c s.begin) c tm = spansStep (adjFor c s) c tm := by
  rw [adjFor_begin]
  rfl

theorem exec_candidatePhaseSample (ht : timUp s = true)
    (h : c < 8 ∨ c = 14 → candFed s c = true ∧ spansStep (adjFor c s) c tm = false) :
    exec (.candidatePhaseSample c tm val) s =
      .next (candSample c tm val (if c < 8 ∨ c = 14 then adjFor c s.begin else s.begin)) := by
  show ran (if timUp s && (!(decide (c < 8) || c == 14) || candFed s c) then
    if (decide (c < 8) || c == 14) && spansStep (whenS (decide (c < 8) || c == 14) (adjFor c) s.begin) c tm then _ else _ else _) = _
  by_cases hc : c < 8 ∨ c = 14
  · obtain ⟨hf, hs⟩ := h hc
    have hg : (decide (c < 8) || c == 14) = true := by simpa using hc
    rw [hg, whenS_true, spansStep_adjFor_begin, hs, hf, ht, if_pos hc]
    rfl
  · have hg : (decide (c < 8) || c == 14) = false := by simpa using hc
    rw [hg, whenS_false, ht, if_neg hc]
    rfl

/-- A sample that is taken: the record keeps it with its time and counts, and the selected DPLLs take the phase. -/
theorem candSample_takes (h : candTakes s c = true) : ∃ o p, candSample c tm val s =
      (List.range 4).foldl (fun t d =>
          if flag t R.REF_DPLL_STAT_SEL_VALID d && getF t R.REF_DPLL_STAT_SEL_CAND d == c then dpllSample d p t else t)
        (if candState s c = 0 then setF R.REF_CAND_STAT_ACTIVE 1 (setCandState c 1 (setCand c o s)) c else setCand c o s) ∧
      o.fresh = true ∧ o.lastEdge = now s ∧
      o.latest = some (sampleAt s p (if c < 8 ∨ c = 14 then tm * 4194304 else now s)) := by
  rw [candSample, if_pos h]
  dsimp only
  rw [setCand_setCand]
  exact ⟨_, _, rfl, rfl, rfl, rfl⟩

/-! #### Activity (R142, R148) -/

theorem exec_candidateActivityLoss (ht : timUp s = true) (hc : candState s c ≠ 0) (hl : activityLost s c = true) :
    exec (.candidateActivityLoss c) s = .next (reselect (candFail c true (whenS (c < 8) (restartDivider c) s.begin))) := by
  have hg : (timUp s && candState s c ≠ 0 && activityLost s c) = true := by simp [ht, hc, hl]
  exact ran_ite_pos hg

/-- Two fields of the candidates lie at different places of one instance. -/
theorem candKey_ne {f g : Fld} (hf : f.st = 0x40) (hg : g.st = 0x40) (h : f.off * 32 + f.lo ≠ g.off * 32 + g.lo) :
    f.key c ≠ g.key c := by
  simp only [Fld.key, hf, hg]
  omega

theorem candFail_fails (h : candState s c ≠ 0) : candState (candFail c true s) c = 0 ∧
    flag (candFail c true s) R.REF_CAND_STAT_ACTIVE c = false ∧ flag (candFail c true s) R.REF_CAND_EVENT_ACT_LOSS c = true := by
  have hg : (true && candState s c ≠ 0) = true := by simp [h]
  unfold candFail
  dsimp only
  rw [if_pos hg]
  refine ⟨?_, ?_, flag_raise_same (by decide)⟩
  · rw [candState, getF_raise_ne (candKey_ne rfl rfl (by decide)), getF_setF_ne (candKey_ne rfl rfl (by decide)),
      getF_setF_ne (candKey_ne rfl rfl (by decide)), setCandState, getF_setF_same]
    rfl
  · rw [flag, getF_raise_ne (candKey_ne rfl rfl (by decide)), getF_setF_same]
    rfl

/-! #### Windows and qualification (R149, R150) -/

theorem exec_freqWindowClose (ht : timUp s = true) (he : flag s R.REF_CAND_CFG_ENA c = true) (hw : winEnd s c ≤ now s) :
    exec (.freqWindowClose c) s = .next (bwCheckAll (windowOpen c (windowClose c s.begin))) := by
  have hg : (timUp s && flag s R.REF_CAND_CFG_ENA c && decide (winEnd s c ≤ now s)) = true := by simp [ht, he, hw]
  exact ran_ite_pos hg

theorem candState_setCandState {n : Nat} (hn : n < 4) : candState (setCandState c n s) c = n :=
  getF_setF_same.trans (Nat.mod_eq_of_lt hn)

theorem qualify_monitoring (h : candState s c = 1) (hy : withinPpm y (getF s R.REF_CAND_LIMITS_ACCEPT c) = true) :
    candState (qualify c y s) c = 2 := by
  simp only [qualify, h, hy, if_true]
  exact candState_setCandState (by decide)

theorem qualify_lost (h : candState s c = 2) (hy : withinPpm y (getF s R.REF_CAND_LIMITS_ACCEPT c) = false) :
    candState (qualify c y s) c = 1 := by
  simp only [qualify, h, hy, Bool.false_eq_true, if_false]
  exact candState_setCandState (by decide)

theorem qualify_disqualified (h : candState s c = 3)
    (hy : withinPpm y (max (getF s R.REF_CAND_LIMITS_ACCEPT c) (getF s R.REF_CAND_LIMITS_REJECT c)) = false) :
    candState (qualify c y s) c = 1 ∧ flag (qualify c y s) R.REF_CAND_EVENT_DISQUALIFIED c = true := by
  simp only [qualify, h, hy, Bool.false_eq_true, if_false]
  refine ⟨?_, flag_raise_same (by decide)⟩
  rw [candState, getF_raise_ne (candKey_ne rfl rfl (by decide))]
  exact candState_setCandState (by decide)

theorem qualify_stays (h : candState s c = 3)
    (hy : withinPpm y (max (getF s R.REF_CAND_LIMITS_ACCEPT c) (getF s R.REF_CAND_LIMITS_REJECT c)) = true) :
    qualify c y s = s := by
  simp only [qualify, h, hy, if_true]

theorem exec_qualifyTimeExpiry {g : Int} (hs : (cand s c).goodSince = some g) (ht : timUp s = true) (hc : candState s c = 2)
    (hq : g + (max 1 (getF s R.REF_CAND_MON_QUAL_S c) : Nat) * unitS ≤ now s) :
    exec (.qualifyTimeExpiry c) s = .next (reselect (raise R.REF_CAND_EVENT_QUALIFIED
      (setCand c { cand s c with qualSince := some (now s), goodSince := none } (setCandState c 3 s.begin)) c)) := by
  have hs' : (cand s.begin c).goodSince = some g := hs
  rw [← zeroAs_one] at hq
  have hg : (timUp s && candState s c = 2 && now s ≥ g + (zeroAs 1 (getF s R.REF_CAND_MON_QUAL_S c) : Int) * unitS) = true := by
    simp [ht, hc, hq]
  show execQualifyTimeExpiry c s = _
  simp only [execQualifyTimeExpiry, hs']
  exact ran_ite_pos hg

end

/-- Settles O24: a sample by what the candidate keeps, a loss by the fields it clears, a result by the state it meets. -/
theorem referenceCandidatesAreSampledTestedAndRejected : Obligations.ReferenceCandidatesAreSampledTestedAndRejected := by
  unfold Obligations.ReferenceCandidatesAreSampledTestedAndRejected
  exact ⟨fun c tm val s => exec_candidatePhaseSample, fun c tm val s _ _ => candSample_takes,
    fun c s => exec_candidateActivityLoss, fun c s => candFail_fails, fun c s => exec_freqWindowClose,
    fun c y s => ⟨qualify_monitoring, qualify_lost, qualify_disqualified, qualify_stays⟩,
    fun c g s => exec_qualifyTimeExpiry, fun req hi s h => ran_writeAt_of_reaches h, fun req c val s h => ran_writeAt_of_reaches h,
    fun req c hi s h => ran_writeAt_of_reaches h, fun req val s h => ran_writeAt_of_reaches h⟩

/-! ### Ingress tables (R516) -/

section

variable {s : State} {val i g k : Nat} {ws : List Nat}

/-- ING_TBL_CTL as a write leaves it before the access: table, index and direction. -/
def ingTblCtl (val : Nat) (s : State) : State :=
  setF R.ING_TBL_CTL_WRITE (bitsOf val 29 1) (setF R.ING_TBL_CTL_TABLE (bitsOf val 25 4) (setF R.ING_TBL_CTL_INDEX (bitsOf val 0 17) s))

theorem writeIngTbl_idle (h : bitOf val 31 = false) : writeIngTbl val s = ingTblCtl val s := if_pos (by rw [h]; rfl)

theorem writeIngTbl_write (h : bitOf val 31 = true) (hw : bitOf val 29 = true) : ∃ r, r = tblWrite (bitsOf val 25 4) (bitsOf val 0 17)
    ((List.range 32).map fun k => getF (ingTblCtl val s) R.ING_TBL_DATA_WORD k) (ingTblCtl val s) ∧
    writeIngTbl val s = setF R.ING_TBL_CTL_STATUS r.1 r.2 :=
  ⟨_, rfl, (if_neg (by simp [h])).trans (if_pos hw)⟩

theorem status_writeIngTbl_read (h : bitOf val 31 = true) (hw : bitOf val 29 = false) : getF (writeIngTbl val s) R.ING_TBL_CTL_STATUS =
    (tblRead (ingTblCtl val s) (bitsOf val 25 4) (bitsOf val 0 17)).1 % 2 ^ R.ING_TBL_CTL_STATUS.w := by
  rw [writeIngTbl, if_neg (by simp [h]), if_neg (by simp [hw])]
  exact getF_setF_same

/-- An index beyond a table without keys: no change and zeros. -/
theorem tblWrite_beyond {t : Nat} (h2 : t ≠ 2) (h3 : t ≠ 3) (hi : tblSize t ≤ i) : tblWrite t i ws s = (stBadIndex, s) :=
  if_pos ⟨h2, h3, hi⟩

theorem tblRead_beyond {t : Nat} (hi : tblSize t ≤ i) : tblRead s t i = (stBadIndex, List.replicate 32 0) := if_pos hi

theorem tw_replicate_zero {n : Nat} : tw (List.replicate n 0) k = 0 := by
  unfold tw
  simp

/-! ### Stream gates (R276, R277) -/

/-- The first unit of the Last at or after the first instant that is not before `t` is not before `t`. -/
theorem Period.le_up_firstIndex {p : Period} {e t : Int} (hp : p.ok = true) : t ≤ (p.instant e (p.firstIndex e t)).up := by
  have hd := Period.den_pos hp
  have hx := (Period.firstIndex_le_iff (e := e) (t := t) hp).mpr (Int.le_refl _)
  have h1 : (p.instant e (p.firstIndex e t)).acc < p.den := Int.emod_lt_of_pos _ hd
  unfold Instant.up
  split
  case isTrue ha =>
    exact Int.le_of_mul_le_mul_right (by linarith) hd
  case isFalse ha =>
    exact Int.le_of_mul_le_mul_right (by linarith) hd

theorem gateCommit_valid (h : (gateCycle (tblEntry s 6 g)).ok = true) : ∃ r,
    gateCommit g s = setGateRt g { gateRt s g with pend := some r } s ∧ tblNow s + 2 * unitUs ≤ r.1 ∧ r.2.1 = tblEntry s 6 g :=
  ⟨_, if_pos h, Period.le_up_firstIndex h, rfl⟩

theorem gateCommit_invalid (h : (gateCycle (tblEntry s 6 g)).ok = false) :
    gateCommit g s = raise R.FLT_GEN_EVENT_PERIOD_INVALID s 0 0xB0044 := if_neg (by simp [h])

theorem exec_streamGateChange (h : islUp s (islPIPE 0) = true) : exec (.streamGateChange g) s = .next (gateChange g s.begin) :=
  ran_ite_pos h

theorem gateChange_reached {t : Int} {e : List Nat} {l : List (List Nat)} (hp : (gateRt s g).pend = some (t, e, l)) (ht : t ≤ tblNow s) :
    ∃ was, gateRt (gateChange g s) g = { gateRt s g with pend := none, shift := 0, since := t, prev := some was } := by
  refine ⟨(tblEntry s 9 g, (List.range 64).map fun i => tblEntry s 10 (64 * g + i), (gateRt s g).shift), ?_⟩
  simp only [gateChange, hp, if_neg (Int.not_lt.mpr ht)]
  exact smGet_smPut_same _ _ _ _

theorem gateChange_waits {t : Int} {e : List Nat} {l : List (List Nat)} (hp : (gateRt s g).pend = some (t, e, l)) (ht : tblNow s < t) :
    gateChange g s = s := by
  simp only [gateChange, hp, if_pos ht]

end

/-- Settles O37: an access by GO and its direction, a commit by its period, a change by its instant. That PERIOD_INVALID gives
0xB0044 as its detail is the model's choice (notes/assumptions/37.md). -/
theorem ingressTablesAndStreamGatesChange : Obligations.IngressTablesAndStreamGatesChange := by
  unfold Obligations.IngressTablesAndStreamGatesChange
  refine ⟨fun req val s h => ran_writeAt_of_reaches h, fun req val s h => ran_writeAt_of_reaches h,
    fun val s => ⟨_, rfl, writeIngTbl_idle, writeIngTbl_write, status_writeIngTbl_read⟩, fun t i ws s h2 h3 hi => ?_,
    fun req val s h => ran_writeAt_of_reaches h, fun g s => gateCommit_valid, fun g s => gateCommit_invalid,
    fun g s => exec_streamGateChange, fun g t e l s => gateChange_reached, fun g t e l s => gateChange_waits⟩
  rw [tblRead_beyond hi]
  exact ⟨tblWrite_beyond h2 h3 hi, rfl, fun k => tw_replicate_zero⟩

end Sys2Proof.Machine
